-- ==== Sys2Proof/Word.lean ====
section
/-! DEFINITION. The words of the block: bytes, 32-bit registers (R4) and 64-bit values. -/

namespace Sys2Proof

/-- A byte. -/
abbrev Byte := BitVec 8

/-- A register of BAR0, 32 bits (R4). -/
abbrev Word := BitVec 32

/-- A 64-bit value: a TB value, a full sample index, a pair of registers. -/
abbrev DWord := BitVec 64

end Sys2Proof
end

