-- ==== Sys2Proof/Syntax.lean ====
section
/-! DEFINITION. The commands of the block: one constructor of `Instr` per row of the command table,
with the operands each one brings from outside. A value that the air, an analogue measurement, a
standard that the manual only refers to, or a partner decides is an operand. -/

namespace Sys2Proof

/-- A PCI Express base address register of the module (R270). -/
inductive Bar where
  | bar0 | bar2
  deriving DecidableEq, Repr

/-- The states of a key slot (R242). -/
inductive SlotState where
  | empty | valid | exhausted
  deriving DecidableEq, Repr

/-- A key slot (R242): `usage` holds VERIFY, GENERATE and DERIVE in bits 0 to 2, `eraseCause` the
field of R269, `crc` and `par` the CRC-32 and the parity bits that were written with the other items. -/
structure KeySlot where
  key : List Byte
  aes256 : Bool
  usage : BitVec 3
  minTag : BitVec 2
  generation : BitVec 16
  txCounter : BitVec 48
  state : SlotState
  eraseCause : BitVec 2
  crc : Word
  par : BitVec 48
  deriving DecidableEq, Repr

/-- A replay record (R254): a context's label, the slot it is bound to, L and W. -/
structure Replay where
  context : Fin 256
  label : Byte
  slot : Fin 64
  last : BitVec 48
  window : DWord
  deriving DecidableEq, Repr

/-- A cartridge (R2, R268, R395): what it reports of itself and what its non-volatile mirror holds.
`id` keys its calibration record in the module flash (R132). -/
structure Cartridge where
  id : Nat
  part : BitVec 16
  issue : Byte
  slots : List KeySlot
  replay : List Replay
  marker : Bool
  erases : BitVec 16
  lastCause : BitVec 6
  deriving DecidableEq, Repr

/-- The blocks of a slice (R18, R30), in the order of their slice-bus requester indices 0 to 9. -/
inductive SliceBlock where
  | frontEnd | tuningChain | demodulator | trellis | acquirer | services | mac | queues | transmitter
  | audio
  deriving DecidableEq, Repr

/-- The element whose data a FIFO entry holds (R19). -/
inductive FifoOwner where
  | tuning (t : Fin 32)
  | context (x : Fin 256)
  | nobody
  deriving DecidableEq, Repr

/-- A cell in which parity can fail (R19, R399): a demodulator cell, a filter cell, an entry of a FIFO of a block with
the tuning or context whose data it holds; or the CTL block with the register FIFO, and the ERR block, whose errors are
slice-level. -/
inductive CellRef where
  | demod (n : Fin 48)
  | filter (n : Fin 32)
  | fifo (block : SliceBlock) (entry : BitVec 16) (owner : FifoOwner)
  | control (err : Bool)
  deriving DecidableEq, Repr

/-- The owner of an SRAM page under the forme's accounting (R403). A staging page comes with the records
that have bytes in it: `n` of them from the one at place `first` in staging. -/
inductive PageOwner where
  | buffer (t : Fin 32)
  | cellStore (n : Fin 48)
  | contexts (xs : List (Fin 256))
  | staging (q : Fin 52) (first n : Nat)
  | reserve (block : SliceBlock)
  | host
  | nobody
  deriving DecidableEq, Repr, Inhabited

/-- What a calibration measured (R127, R130, R133): its kind, status, the interval and the RESULT
fields in the order of R133's table. -/
structure CalOutcome where
  kind : Nat
  status : Byte
  start : Nat
  stop : Nat
  fields : List Int
  deriving DecidableEq, Repr

/-- An instance of a slice: of a DEMOD record, or a candidate on a spare tuning (R158). -/
inductive InstRef where
  | inst (n : Fin 48)
  | cand (t : Fin 32)
  deriving DecidableEq, Repr

/-- An air-layer unit as its instance hands it on (R161, R171 to R178, R196): an APD bit by its soft value, positive for 1
and 0 for one that is not known (R171); an RDS block with its stream, place in the group, information bits, offset word (0 to
5 for A, B, C, C', D, E, 6 for none) and the bits corrected (R173); the figures of a FIB (R174); what a logical frame of a
subchannel or a multiplex frame of a stream completes in packet mode, by address or packet, whether its check passed (R174,
R175); a minute frame with the instant that it labels, its bits and the on-time instants of its seconds (R178). -/
inductive AirUnit where
  | audio
  | apdBit (soft : Int)
  | rds (stream : Fin 4) (pos : Fin 4) (info : BitVec 16) (offset : Nat) (corrected : Nat)
  | fib (figs : List (List Byte))
  | mscFrame (subch : Nat) (groups : List (Nat × Bool × List Byte))
  | fac (block : List Byte)
  | sdc (block : List Byte)
  | drmFrame (stream : Nat) (data : List Byte) (units : List (Nat × Bool × List Byte))
  | minute (onTime : Nat) (bits : List Bool) (seconds : List Nat)
  | ldb (header : DWord) (payload : List Byte)
  deriving DecidableEq, Repr

/-- What the air gives an instance for one unit: for audio, how long in ms the carrier has held and the RMS phase error of
the loop in 0.1° (R163); the integrals of the two halves of an APD bit, in steps of its soft value (R171); the 26 bits of an
RDS block (R173); a second's start and a minute frame with the start of the minute that it labels, as estimates like the
unit's own (R176, R178). -/
inductive Heard where
  | audio (held : Nat) (phase : Nat)
  | apd (first second : Int)
  | rds (stream : Fin 4) (pos : Fin 4) (bits : BitVec 26)
  | fib (figs : List (List Byte))
  | mscFrame (subch : Nat) (groups : List (Nat × Bool × List Byte))
  | fac (block : List Byte)
  | sdc (block : List Byte)
  | drmFrame (stream : Nat) (data : List Byte) (units : List (Nat × Bool × List Byte))
  | second
  | minute (label : Nat) (bits : List Bool)
  deriving DecidableEq, Repr

/-- A time value that a unit carries, as the standard of its carriage defines it (R217): the stated time in ticks of the TB
scale before the UTC correction, and whether FIG 0/10 has its long form. -/
structure TimeValue where
  utcTb : Nat
  long : Bool
  deriving DecidableEq, Repr

/-- What the standards named in R210, R220 and R230 read out of a unit: the EId or DRM service identifier, a complete new
list of alternative frequencies, a time value, the clusters of FIG 0/19 with their alarm flags, and the group type that
group 3A assigns to an application. The PI and NETWORK_ID stand in the unit itself. -/
structure Reads where
  ident : Option Nat
  list : Option (List Nat)
  time : Option TimeValue
  alarms : List (Nat × Bool)
  assign : Option (BitVec 16 × BitVec 5)
  deriving DecidableEq, Repr

/-- What an instance finds in SEARCH (R163): the offset in mHz, the strength in 0.1 dB (C/N0 of the carrier, or the channel
power above the noise floor), the stamps of the null symbols, frames or second markers found, and the robustness mode (1 to 5
for A to E) and spectrum occupancy detected. -/
structure Found where
  offset : Int
  strength : Int
  marks : List Nat
  robust : Nat
  occ : Nat
  deriving DecidableEq, Repr

/-- The estimates of one interval of 100 ms (R168, R179, R182): the frequency of the tracked reference in mHz, the clock
against TB in 0.001 ppm, the level in 0.1 dBFS, quality and delay spread, the strength of `Found`, the RMS phase error of the
carrier loop in 0.1°, whether the frequency reference is tracked, the profile fields of PSTAT0 and PSTAT1 that are measured,
and the subchannels and streams that the signal carries in a form that the instance decodes. -/
structure Measure where
  freq : Int
  clockErr : Int
  level : Int
  quality : Int
  spread : Nat
  strength : Int
  loop : Nat
  pilot : Bool
  pstat0 : Word
  pstat1 : Word
  carried : List Nat
  deriving DecidableEq, Repr

/-- RSSI windows of one symbol period each (R190): the end of the last one and their values in 0.1 dBFS, oldest first. -/
structure RssiRun where
  stop : Nat
  values : List Int
  deriving DecidableEq, Repr

/-- A sync word that the armed detector finds (R190, R191): SYNC_TB, the correlation in 1/256 and the offset in mHz. -/
structure SyncWord where
  syncTb : Nat
  corr : Nat
  freqErr : Int
  deriving DecidableEq, Repr

/-- The code blocks that the trellis decoders take (R201): the header and payload of an LDB burst; FIC and MSC blocks of DAB;
FAC, SDC and MSC blocks of DRM. -/
inductive BlockKind where
  | header | payload | fic | dabMsc | fac | sdc | drmMsc
  deriving DecidableEq, Repr

/-- A code block that an instance presents to the decoders (R201, R202): its tuning, its kind and the values received for its
steps, one per generator, none where punctured, each with the number of the channel symbol that it comes from. For OFDM,
`windows` are the FFT windows of those symbols, as the stamps of their first samples and the first after them (R160). -/
structure SegReq where
  tuning : Fin 32
  kind : BlockKind
  soft : List (List (Option (Nat × Int)))
  windows : List (Nat × Nat)
  deriving DecidableEq, Repr

/-- One frame of programme audio as the detectors of an instance give it (R170, R172): AM with the SIDEBAND and AUDIO_BW_HZ of
the instance, synchronous and envelope, in 2^-24 of full modulation; FM left, right and mono after DEEMPH, as deviations in
Hz. -/
structure AudioIn where
  inst : Fin 48
  main : List Int
  other : List Int
  deriving DecidableEq, Repr

/-- A trunk frame as received, CRC passed (R351), with its direction bits as the header codes them. -/
structure RxFrame where
  dir : BitVec 2
  hops : BitVec 6
  turn : Bool
  dest : BitVec 18
  src : BitVec 18
  payload : List Byte
  deriving DecidableEq, Repr

/-- An object of the flash that a row reads (R392, R353, R379, R387). -/
inductive FlashObject where
  | image (b : Bool) | trunk | power | features
  deriving DecidableEq, Repr

/-- A flash read in which the BCH code found errors: it corrected them, or the object is lost (R398). -/
structure FlashEcc where
  obj : FlashObject
  corrected : Bool
  deriving DecidableEq, Repr

/-- A received frame that failed its CRC: its class, kind and fields as its header gives them, and the CRC that it
carried (R351, R360). -/
structure BadFrame where
  cls : BitVec 2
  kind : Byte
  frame : RxFrame
  crc : BitVec 32
  deriving DecidableEq, Repr

/-- An input measurement (R367) with the rails (R380). -/
structure InputMeas where
  dv : BitVec 16
  ac : Bool
  freq : BitVec 7
  draw : BitVec 16
  rails : List (BitVec 16 × Bool)
  deriving DecidableEq, Repr

/-- The alarm sources (R266), numbered as MAC.ALARM.LAST_CAUSE numbers them. -/
inductive AlarmSource where
  | tamper | alarmIn | overTemp | underTemp | supply | glitch
  deriving DecidableEq, Repr

/-- The commands, in the order of the command table. An operand with a value after := may be left out. -/
inductive Instr where
  | registerWrite (addr : Word) (size : Nat) (value : DWord)
  | rcRead (addr : Word)
  | latchRead (addr : Word)
  | wideRead (bar : Bar) (addr : Word) (size : Nat)
  | sramWindowAccess (write : Bool) (addr : Word) (size : Nat) (value : DWord)
  | cartridgeInserted (c : Fin 4) (cart : Cartridge)
  | cartridgeRemoved (c : Fin 4)
  | selfTestComplete (c : Fin 4) (badPages : List Nat) (failed : Bool) (ecc : Option Bool := none)
  | startupCalibrationDone (c : Fin 4) (results : List CalOutcome) (ecc : Option Bool := none)
  | sliceReset (c : Fin 4)
  | cellParity (c : Fin 4) (cell : CellRef)
  | sramParity (c : Fin 4) (offset : BitVec 24) (owner : PageOwner) (hostSize : Option Nat := none)
  | busParity (c : Fin 4) (requester : Fin 12) (write : Bool) (addr : Word) (low high : Bool) (size : Nat := 4)
  | trellisParity (c : Fin 4) (decoder : Fin 2)
  | blockResetTimeout (c : Fin 4) (block : SliceBlock)
  | supervisorEccError (corrected : Bool)
  | scrubAccess (c : Fin 4)
  | shadowCheck (c : Fin 4) (activeBad stagedBad : Bool)
  | coefCrcCheck (c : Fin 4) (upset : List (Fin 32 × Fin 2 × Nat × BitVec 20))
  | slotCheck (c : Fin 4) (upset : List (Fin 64 × Fin 48 × Byte))
  | telemetryTick (temps : List Int)
  | formeSetChunk (c : Fin 4)
  | formeLockup (c : Fin 4)
  | formeDiscard (c : Fin 4)
  | formeQuery (c : Fin 4)
  | libStore
  | libLoad (ecc : Option Bool := none)
  | libErase
  | libBoot
  | libList
  | stagingTimeout (c : Fin 4)
  | lockupInstant (c : Fin 4)
  | tbEpoch (e0 e1 e2 e3 : Int)
  | ppsEdge (refinGood : Bool)
  | refinLost
  | ppsLost
  | trunkTimeLost
  | clockTimeLost
  | switchHoldExpired
  | holdoverEnd
  | tbmCfgWrite (value : Word)
  | todSet (value : Word)
  | tbStep
  | tbHold
  | holdEnd
  | originChange
  | mdllLockLoss (c : Fin 4)
  | relockAttempt (c : Fin 4) (ok : Bool)
  | relocked (c : Fin 4)
  | relockRegistration (c : Fin 4)
  | afeGainWrite (c : Fin 4) (value : Word)
  | gainApply (c : Fin 4)
  | agcWindowEnd (c : Fin 4) (powerCb : BitVec 16)
  | attack (c : Fin 4) (clips : List Nat := [])
  | agcRelease (c : Fin 4)
  | agcCfgWrite (c : Fin 4) (value : Word)
  | tunerWrite (c : Fin 4) (value : Word)
  | mismatchMeasurement (c : Fin 4) (rl : BitVec 16)
  | calReqAdc (c : Fin 4)
  | calReqTuner (c : Fin 4)
  | calReqFlat (c : Fin 4)
  | calReqVco (c : Fin 4)
  | calRequest (c : Fin 4)
  | calIntervalStart (c : Fin 4)
  | calIntervalEnd (c : Fin 4) (result : CalOutcome)
  | calbgDcTrim (c : Fin 4) (t : Fin 32) (di dq : Int) (rssi : RssiRun)
  | calbgSynthTrim (c : Fin 4) (abandoned : Bool)
  | ncoFreqWrite (c : Fin 4) (t : Fin 32) (value : Word)
  | ncoRetune (c : Fin 4) (t : Fin 32)
  | bankSwapRequest (c : Fin 4) (t : Fin 32) (target : Bool)
  | bankSwap (c : Fin 4) (t : Fin 32)
  | xfadeEnd (c : Fin 4) (t : Fin 32)
  | coefWrite (c : Fin 4) (t : Fin 32) (b : Fin 2) (k : Fin 128) (value : Word)
  | instanceFound (c : Fin 4) (r : InstRef) (found : Found := ⟨0, 0, [], 0, 0⟩)
  | syncLimitExpired (c : Fin 4) (r : InstRef)
  | instanceLoss (c : Fin 4) (r : InstRef) (tracked : Option (Int × Int))
  | reacq (c : Fin 4) (n : Fin 48)
  | measurementUpdate (c : Fin 4) (r : InstRef) (m : Measure)
  | unitHandedOn (c : Fin 4) (r : InstRef) (at_ : Nat) (ok : Bool) (u : Heard) (reads : Reads)
  | noiseInterval (c : Fin 4) (r : InstRef) (rssi : RssiRun)
  | trigger (c : Fin 4) (r : InstRef) (rssi : RssiRun)
  | syncQualified (c : Fin 4) (r : InstRef) (w : SyncWord) (rssi : RssiRun := ⟨0, []⟩)
  | qualifierWindowClose (c : Fin 4) (r : InstRef) (rssi : RssiRun)
  | capture (c : Fin 4) (r : InstRef) (rssi : RssiRun) (w : SyncWord)
  | trellisGrant (c : Fin 4) (reqs : List SegReq)
  | segmentComplete (c : Fin 4) (d : Fin 2) (snr : BitVec 16)
  | afCheckStart (c : Fin 4) (n : Fin 48)
  | afCheckTimeout (c : Fin 4) (n : Fin 48)
  | afSwitch (c : Fin 4) (n : Fin 48)
  | afSpeculate (c : Fin 4) (n : Fin 48)
  | candidateRotation (c : Fin 4) (t : Fin 32)
  | alertTimeout (c : Fin 4) (x : Fin 256)
  | entryDue (c : Fin 4)
  | pulseEnd (pin : Fin 8)
  | doneEntryExpiry (c : Fin 4)
  | svcCfgWrite (c : Fin 4) (value : Word)
  | macBlockGrant (c : Fin 4) (parity : Bool) (split : Bool := false)
  | mirrorCommit (c : Fin 4)
  | keyload (packet : List Byte)
  | keyDerive (c : Fin 4) (parity : Bool)
  | keyErase (c : Fin 4)
  | tamperLoopOpen
  | alarmInAsserted
  | overTemperature
  | underTemperature
  | sliceSupplyMonitor (c : Fin 4)
  | clockGlitch (c : Fin 4)
  | mirrorEraseDone (c : Fin 4)
  | loadsUnblocked (c : Fin 4) (src : AlarmSource)
  | doorbellProducer (offset : BitVec 16) (size : Nat) (value : Word)
  | queueEnable (q : Fin 256)
  | queueDisable (q : Fin 256)
  | flush (q : Fin 256)
  | descriptorFetch (q : Fin 256) (addr : DWord) (len : Word)
  | dmaReadError (q : Fin 256) (timeout : Bool) (ecrc : Bool)
  | poisonedWrite (ecrc : Bool)
  | flushUsExpired (q : Fin 256)
  | dmaGrant
  | rawCapWindow
  | irqHoldoffEnd (q : Fin 256)
  | commandFetch (q : Fin 256) (opcode : Byte) (tag : Word) (bodyLen : Word) (body : List Byte)
  | nop (q : Fin 256)
  | heldCompletionRelease (q : Fin 256)
  | hostPortReset
  | hostPortResetExit (width : Nat) (speed : Nat) (mps : Nat)
  | txSend (c : Fin 4)
  | txRxwin (c : Fin 4)
  | rxwinOpen (c : Fin 4)
  | rxwinEnd (c : Fin 4) (up : Bool)
  | synthLocked (c : Fin 4) (band : Fin 128) (us : Nat)
  | synthLockLoss (c : Fin 4)
  | txHoldExpired (c : Fin 4)
  | plannedKeyup (c : Fin 4)
  | trSwTransmit (c : Fin 4)
  | paEnRise (c : Fin 4)
  | rampUp (c : Fin 4)
  | rampDown (c : Fin 4) (fwdMv revMv : BitVec 12)
  | burstEnd (c : Fin 4)
  | nextBurst (c : Fin 4)
  | abbreviatedRampEnd (c : Fin 4)
  | trSwRelease (c : Fin 4)
  | coexRelease (c : Fin 4)
  | coexGrant (c : Fin 4)
  | gntWaitExpired (c : Fin 4)
  | coexWithdrawn (c : Fin 4)
  | amplifierFault (c : Fin 4) (fwdMv revMv : List (BitVec 12))
  | cancel (c : Fin 4)
  | faultClr (c : Fin 4)
  | frameStart (c : Fin 4) (rx : Bool) (bits : Nat) (samples : List Word)
  | gridFrame (c : Fin 4) (frames : List AudioIn)
  | stall (c : Fin 4) (rx : Bool)
  | bclkOverrate (c : Fin 4) (rx : Bool)
  | gateTimeout (c : Fin 4) (rx : Bool)
  | txStart (c : Fin 4)
  | txStop (c : Fin 4)
  | rxStart (c : Fin 4)
  | rxStop (c : Fin 4)
  | regInEdge
  | registration
  | trkRegArm
  | trkRegCancel
  | trkSave
  | trkExport
  | trkPush (ecc : Option Bool := none)
  | pushRound
  | transferDrop (id : Word)
  | sync (p : Fin 3) (f : RxFrame)
  | delayReq (p : Fin 3) (f : RxFrame)
  | announce (p : Fin 3) (f : RxFrame)
  | announceTick
  | topology (p : Fin 3) (f : RxFrame)
  | regArm (p : Fin 3) (f : RxFrame)
  | xferStatus (p : Fin 3) (f : RxFrame)
  | recordFrame (p : Fin 3) (f : RxFrame)
  | chunkFrame (p : Fin 3) (f : RxFrame)
  | endFrame (p : Fin 3) (f : RxFrame)
  | abortedStream (p : Fin 3) (copies : List (Fin 3) := [])
  | linkUp (p : Fin 3)
  | linkLost (p : Fin 3) (signal : Bool := false)
  | probeTimeout (p : Fin 3)
  | reparentHoldEnd
  | reparent
  | trkCfgWrite (value : Word)
  | grantCycle
  | inputMeasurement (m : InputMeas)
  | brownOut
  | normalRestored
  | inputLoss
  | inputReturn
  | railCollapse
  | budgetWrite (value : Word)
  | auxWrite (value : Word)
  | auxFault
  | pwrQuery
  | pwrSave
  | powerUp
  | moduleReset (value : Word)
  | watchdogExpiry
  | moduleReady (ecc : List FlashEcc := [])
  | bayIdentify (c : Fin 4)
  | featureCommit (value : Word)
  | feaSave
  | fwLoadChunk
  | fwActivate
  | fwQuery
  | swapStart
  | swapDone
  | swapFail (oldFails : Bool)
  | pushedImageActivate
  | onReq (c : Fin 4)
  | offReq (c : Fin 4)
  | offDrainEnd (c : Fin 4)
  | calibrate
  | calibrateAt
  | eraseKeys
  | deriveKey
  | mailboxBadOpcode
  | errorInject (c : Fin 4) (value : Word)
  | regacc (addr : Word) (data : Word) (cmd : Byte)
  | modreset (value : Word)
  | tapReset
  | extest (on : Bool) (cells : BitVec 114)
  | sampleDelivered (c : Fin 4) (t : Fin 32) (codes : List Int)
  | frameCrcError (p : Fin 3) (f : Option BadFrame := none)
  | trunkEgress (p : Fin 3)
  | flashWriteDone (failed : Bool)
  deriving DecidableEq, Repr

end Sys2Proof
end

