-- ==== Sys2Proof/Machine/Operands.lean ====
section
/-! DEFINITION. Operand forms: bit fields of registers (R14), bytes in least- and most-significant
first order (R15), signed readings, and plain helpers over lists and tables. -/

namespace Sys2Proof.Machine

open Sys2Proof

/-! ### Bit fields (R14) -/

/-- The field of `n` bits whose least significant bit is bit `lo`. -/
def bitsOf (w lo n : Nat) : Nat := (w >>> lo) % 2 ^ n

/-- The same field of a register. -/
def bf (w : Word) (lo n : Nat) : Nat := bitsOf w.toNat lo n

/-- Bit `i` of a register. -/
def bit (w : Word) (i : Nat) : Bool := w.toNat.testBit i

/-- 1 for a set flag. -/
def b2n (b : Bool) : Nat := if b then 1 else 0

/-- Register `w` with the field of `n` bits at `lo` replaced. -/
def setBf (w : Word) (lo n v : Nat) : Word :=
  BitVec.ofNat 32 (w.toNat - (bf w lo n) * 2 ^ lo + (v % 2 ^ n) * 2 ^ lo)

/-- Register `w` with bit `i` set to `b`. -/
def setBit (w : Word) (i : Nat) (b : Bool) : Word := setBf w i 1 (b2n b)

/-- A register word made of fields, each given by its low bit, its width and its value; all other
bits read 0 (R9). -/
def mkWord : List (Nat × Nat × Nat) → Word
  | [] => 0
  | (lo, n, v) :: fs => BitVec.ofNat 32 ((v % 2 ^ n) * 2 ^ lo) ||| mkWord fs

/-- The low 32 bits. -/
def lo32 (n : Nat) : Word := BitVec.ofNat 32 n

/-- Bits 63 to 32. -/
def hi32 (n : Nat) : Word := BitVec.ofNat 32 (n / 2 ^ 32)

/-- A value of `n` bits, saturated at all ones. -/
def sat (n v : Nat) : Nat := min v (2 ^ n - 1)

/-- The signed value of an `n`-bit two's-complement field. -/
def sext (n v : Nat) : Int := if v % 2 ^ n < 2 ^ (n - 1) then (v % 2 ^ n : Nat) else (v % 2 ^ n : Nat) - (2 ^ n : Nat)

/-- The `n`-bit two's-complement code of `v`. -/
def twos (n : Nat) (v : Int) : Nat := (v % (2 ^ n : Nat)).toNat

/-- `v` held within `lo` to `hi`. -/
def clampI (lo hi v : Int) : Int := max lo (min hi v)

/-! ### Bytes (R15) -/

/-- `n` bytes of `v`, least significant first. -/
def le : Nat → Nat → List Byte
  | 0, _ => []
  | n + 1, v => BitVec.ofNat 8 v :: le n (v / 256)

/-- `n` bytes of `v`, most significant first. -/
def be (n v : Nat) : List Byte := (le n v).reverse

/-- The value of bytes that come least significant first. -/
def ofLe : List Byte → Nat
  | [] => 0
  | b :: bs => b.toNat + 256 * ofLe bs

/-- The value of bytes that come most significant first. -/
def ofBe (bs : List Byte) : Nat := ofLe bs.reverse

/-- `n` bytes from offset `o`. -/
def slice (l : List Byte) (o n : Nat) : List Byte := (l.drop o).take n

/-- The byte at offset `o`. -/
def u8 (l : List Byte) (o : Nat) : Nat := ofLe (slice l o 1)

/-- The two bytes at offset `o`, least significant first. -/
def u16 (l : List Byte) (o : Nat) : Nat := ofLe (slice l o 2)

/-- The four bytes at offset `o`, least significant first. -/
def u32 (l : List Byte) (o : Nat) : Nat := ofLe (slice l o 4)

/-- The eight bytes at offset `o`, least significant first. -/
def u64 (l : List Byte) (o : Nat) : Nat := ofLe (slice l o 8)

/-- Two bytes at offset `o`, most significant first. -/
def b16 (l : List Byte) (o : Nat) : Nat := ofBe (slice l o 2)

/-- Four bytes at offset `o`, most significant first. -/
def b32 (l : List Byte) (o : Nat) : Nat := ofBe (slice l o 4)

/-- Eight bytes at offset `o`, most significant first. -/
def b64 (l : List Byte) (o : Nat) : Nat := ofBe (slice l o 8)

/-- `l` padded with zero bytes, or cut, to `n` bytes. -/
def padTo (n : Nat) (l : List Byte) : List Byte := l.take n ++ List.replicate (n - l.length) 0

/-- `n` rounded up to a multiple of `k`. -/
def alignUp (k n : Nat) : Nat := (n + k - 1) / k * k

/-- `a / b` rounded up. -/
def ceilDiv (a b : Nat) : Nat := (a + b - 1) / b

/-- `a / b` rounded to nearest, halves up. -/
def roundDiv (a b : Nat) : Nat := (a + b / 2) / b

/-- The bits of a byte, most significant first. -/
def bitsOfByte (b : Byte) : List Bool :=
  [b.getLsbD 7, b.getLsbD 6, b.getLsbD 5, b.getLsbD 4, b.getLsbD 3, b.getLsbD 2, b.getLsbD 1,
   b.getLsbD 0]

/-- The value of bits that come most significant first. -/
def ofBits (bs : List Bool) : Nat := bs.foldl (fun a b => 2 * a + b2n b) 0

/-- Bits, most significant first, packed into bytes; a short last byte is filled with zeros. -/
def packBits : Nat → List Bool → List Byte
  | 0, _ => []
  | n + 1, bs =>
    if bs.isEmpty then []
    else BitVec.ofNat 8 (ofBits (bs.take 8 ++ List.replicate (8 - (bs.take 8).length) false))
      :: packBits n (bs.drop 8)

/-! ### Tables -/

/-- Entry `i` of a table changed by `f`; a table without that entry stays as it is. -/
def vmod {α : Type} {n : Nat} (v : Vector α n) (i : Nat) (f : α → α) : Vector α n :=
  if h : i < n then v.set i (f v[i]) h else v

/-- Every entry of a table changed by `f`. -/
def vmap {α β : Type} {n : Nat} (f : α → β) (v : Vector α n) : Vector β n :=
  ⟨(v.toList.map f).toArray, by rw [List.size_toArray, List.length_map, Vector.length_toList]⟩

/-- Every entry of a table changed by a function of its index. -/
def vmapIdx {α β : Type} {n : Nat} (f : Nat → α → β) (v : Vector α n) : Vector β n :=
  ⟨(v.toList.mapIdx f).toArray, by rw [List.size_toArray, List.length_mapIdx, Vector.length_toList]⟩

/-- Entry `i` of a table, or `d` beyond its end. -/
def vget {α : Type} {n : Nat} (v : Vector α n) (i : Nat) (d : α) : α :=
  if h : i < n then v[i] else d

/-- The list without its entry at index `i`. -/
def dropIdx {α : Type} : Nat → List α → List α
  | _, [] => []
  | 0, _ :: xs => xs
  | n + 1, x :: xs => x :: dropIdx n xs

/-- Entry `i` of a list changed by `f`. -/
def lmod {α : Type} : List α → Nat → (α → α) → List α
  | [], _, _ => []
  | x :: xs, 0, f => f x :: xs
  | x :: xs, n + 1, f => x :: lmod xs n f

/-- `x` put into a list that rises by `key`. -/
def insertBy {α : Type} (key : α → Nat) (x : α) : List α → List α
  | [] => [x]
  | y :: ys => if key x < key y then x :: y :: ys else y :: insertBy key x ys

/-- A list sorted by rising `key`, equal keys in their order. -/
def sortBy {α : Type} (key : α → Nat) (l : List α) : List α :=
  l.foldl (fun acc x => insertBy key x acc) []

/-- The first index at which `p` holds. -/
def firstIdx {α : Type} (p : α → Bool) : List α → Nat → Option Nat
  | [], _ => none
  | x :: xs, i => if p x then some i else firstIdx p xs (i + 1)

/-- The arbiter rule of R27: the lowest requester index at or above the pointer, else the lowest of
all; `reqs` lists the requesting indices. -/
def arbPick (ptr : Nat) (reqs : List Nat) : Option Nat :=
  match (sortBy id (reqs.filter (fun i => ptr ≤ i))).head? with
  | some i => some i
  | none => (sortBy id reqs).head?

/-- The pointer after a grant to index `i` among `n` requesters (R27). -/
def arbNext (n i : Nat) : Nat := (i + 1) % n

/-! ### Times (R88) -/

/-- Ticks in a microsecond. -/
def usTicks (n : Nat) : Nat := n * 1024

/-- Ticks in a millisecond. -/
def msTicks (n : Nat) : Nat := n * 1024000

/-- Ticks in a second. -/
def secTicks (n : Nat) : Nat := n * 1024000000

end Sys2Proof.Machine
end

