-- ==== Sys2Proof/Machine/Aes.lean ====
section
/-! DEFINITION. The one function of the MAC engine (R240): AES-CMAC over AES-128 or AES-256, as FIPS 197
and SP 800-38B define it, with the truncation of R240 and the key check value of R248. -/

namespace Sys2Proof.Machine

open Sys2Proof

/-- The S-box of FIPS 197. -/
def sboxTable : List Byte :=
  [0x63, 0x7c, 0x77, 0x7b, 0xf2, 0x6b, 0x6f, 0xc5, 0x30, 0x01, 0x67, 0x2b, 0xfe, 0xd7, 0xab, 0x76]
  ++ [0xca, 0x82, 0xc9, 0x7d, 0xfa, 0x59, 0x47, 0xf0, 0xad, 0xd4, 0xa2, 0xaf, 0x9c, 0xa4, 0x72, 0xc0]
  ++ [0xb7, 0xfd, 0x93, 0x26, 0x36, 0x3f, 0xf7, 0xcc, 0x34, 0xa5, 0xe5, 0xf1, 0x71, 0xd8, 0x31, 0x15]
  ++ [0x04, 0xc7, 0x23, 0xc3, 0x18, 0x96, 0x05, 0x9a, 0x07, 0x12, 0x80, 0xe2, 0xeb, 0x27, 0xb2, 0x75]
  ++ [0x09, 0x83, 0x2c, 0x1a, 0x1b, 0x6e, 0x5a, 0xa0, 0x52, 0x3b, 0xd6, 0xb3, 0x29, 0xe3, 0x2f, 0x84]
  ++ [0x53, 0xd1, 0x00, 0xed, 0x20, 0xfc, 0xb1, 0x5b, 0x6a, 0xcb, 0xbe, 0x39, 0x4a, 0x4c, 0x58, 0xcf]
  ++ [0xd0, 0xef, 0xaa, 0xfb, 0x43, 0x4d, 0x33, 0x85, 0x45, 0xf9, 0x02, 0x7f, 0x50, 0x3c, 0x9f, 0xa8]
  ++ [0x51, 0xa3, 0x40, 0x8f, 0x92, 0x9d, 0x38, 0xf5, 0xbc, 0xb6, 0xda, 0x21, 0x10, 0xff, 0xf3, 0xd2]
  ++ [0xcd, 0x0c, 0x13, 0xec, 0x5f, 0x97, 0x44, 0x17, 0xc4, 0xa7, 0x7e, 0x3d, 0x64, 0x5d, 0x19, 0x73]
  ++ [0x60, 0x81, 0x4f, 0xdc, 0x22, 0x2a, 0x90, 0x88, 0x46, 0xee, 0xb8, 0x14, 0xde, 0x5e, 0x0b, 0xdb]
  ++ [0xe0, 0x32, 0x3a, 0x0a, 0x49, 0x06, 0x24, 0x5c, 0xc2, 0xd3, 0xac, 0x62, 0x91, 0x95, 0xe4, 0x79]
  ++ [0xe7, 0xc8, 0x37, 0x6d, 0x8d, 0xd5, 0x4e, 0xa9, 0x6c, 0x56, 0xf4, 0xea, 0x65, 0x7a, 0xae, 0x08]
  ++ [0xba, 0x78, 0x25, 0x2e, 0x1c, 0xa6, 0xb4, 0xc6, 0xe8, 0xdd, 0x74, 0x1f, 0x4b, 0xbd, 0x8b, 0x8a]
  ++ [0x70, 0x3e, 0xb5, 0x66, 0x48, 0x03, 0xf6, 0x0e, 0x61, 0x35, 0x57, 0xb9, 0x86, 0xc1, 0x1d, 0x9e]
  ++ [0xe1, 0xf8, 0x98, 0x11, 0x69, 0xd9, 0x8e, 0x94, 0x9b, 0x1e, 0x87, 0xe9, 0xce, 0x55, 0x28, 0xdf]
  ++ [0x8c, 0xa1, 0x89, 0x0d, 0xbf, 0xe6, 0x42, 0x68, 0x41, 0x99, 0x2d, 0x0f, 0xb0, 0x54, 0xbb, 0x16]

def subByte (b : Byte) : Byte := sboxTable.getD b.toNat 0

/-- The exclusive or of two byte strings. -/
def xorBytes (a b : List Byte) : List Byte := (a.zip b).map (fun p => p.1 ^^^ p.2)

/-- Multiplication by x in the field of AES. -/
def xtime (b : Byte) : Byte := if b.getLsbD 7 then (b <<< 1) ^^^ 0x1b else b <<< 1

/-- Bytes in groups of four. -/
def columns : Nat → List Byte → List (List Byte)
  | 0, _ => []
  | n + 1, l => l.take 4 :: columns n (l.drop 4)

/-- `n` more words of the key schedule; `i` is the number of the next one, `r` its round constant, and the
words come newest first. -/
def expandKey (nk : Nat) : Nat → Nat → Byte → List (List Byte) → List (List Byte)
  | 0, _, _, ws => ws
  | n + 1, i, r, ws =>
    let t := ws.headD []
    let u :=
      if i % nk = 0 then
        xorBytes ((t.drop 1 ++ t.take 1).map subByte) [r, 0, 0, 0]
      else if 6 < nk ∧ i % nk = 4 then t.map subByte
      else t
    expandKey nk n (i + 1) (if i % nk = 0 then xtime r else r) (xorBytes (ws.getD (nk - 1) []) u :: ws)

/-- The round keys, 16 bytes each. -/
def roundKeys (key : List Byte) : List (List Byte) :=
  let nk := key.length / 4
  let ws := (expandKey nk (4 * (nk + 7) - nk) nk 1 (columns nk key).reverse).reverse
  (List.range (nk + 7)).map (fun i => ((ws.drop (4 * i)).take 4).flatten)

def shiftRows (s : List Byte) : List Byte :=
  [0, 5, 10, 15, 4, 9, 14, 3, 8, 13, 2, 7, 12, 1, 6, 11].map (fun i => s.getD i 0)

def mixColumn (c : List Byte) : List Byte :=
  let a := c.getD 0 0
  let b := c.getD 1 0
  let d := c.getD 2 0
  let e := c.getD 3 0
  let t := a ^^^ b ^^^ d ^^^ e
  [a ^^^ t ^^^ xtime (a ^^^ b), b ^^^ t ^^^ xtime (b ^^^ d), d ^^^ t ^^^ xtime (d ^^^ e),
   e ^^^ t ^^^ xtime (e ^^^ a)]

def mixColumns (s : List Byte) : List Byte := (columns 4 s).flatMap mixColumn

/-- The rounds after the first round key; the last one has no MixColumns. -/
def aesRounds : List (List Byte) → List Byte → List Byte
  | [], s => s
  | [k], s => xorBytes (shiftRows (s.map subByte)) k
  | k :: ks, s => aesRounds ks (xorBytes (mixColumns (shiftRows (s.map subByte))) k)

/-- AES encryption of one block. -/
def aes (key block : List Byte) : List Byte :=
  match roundKeys key with
  | [] => block
  | k :: ks => aesRounds ks (xorBytes block k)

/-- Doubling in the field of 128 bits (SP 800-38B). -/
def cmacDouble (b : List Byte) : List Byte :=
  let v := ofBe b
  be 16 (if v < 2 ^ 127 then 2 * v else (2 * v - 2 ^ 128) ^^^ 0x87)

/-- The subkeys K1 and K2 (SP 800-38B). -/
def cmacSubkeys (key : List Byte) : List Byte × List Byte :=
  let k1 := cmacDouble (aes key (List.replicate 16 0))
  (k1, cmacDouble k1)

/-- One block of CMAC that is not the last. -/
def cmacStep (key chain block : List Byte) : List Byte := aes key (xorBytes chain block)

/-- The final block of CMAC, complete or partial. -/
def cmacLast (key chain block : List Byte) : List Byte :=
  let ks := cmacSubkeys key
  let m :=
    if block.length = 16 then xorBytes block ks.1
    else xorBytes (padTo 16 (block ++ [0x80])) ks.2
  aes key (xorBytes chain m)

/-- CMAC from a chaining value over the rest of a message, with fuel for its blocks. -/
def cmacFrom (key : List Byte) : Nat → List Byte → List Byte → List Byte
  | 0, chain, rest => cmacLast key chain rest
  | n + 1, chain, rest =>
    if rest.length ≤ 16 then cmacLast key chain rest
    else cmacFrom key n (cmacStep key chain (rest.take 16)) (rest.drop 16)

/-- The CMAC of a whole message. -/
def cmac (key msg : List Byte) : List Byte := cmacFrom key msg.length (List.replicate 16 0) msg

/-- The key check value: the leftmost 24 bits of the CMAC of the empty message (R248). -/
def kcv (key : List Byte) : Nat := ofBe ((cmac key []).take 3)

end Sys2Proof.Machine
end

