-- ==== Sys2Proof/Config.lean ====
section
/-! DEFINITION. Constants that an implementation fixes, and the free values: every constant here has
no body, so nothing can be proved of its value. -/

namespace Sys2Proof.Config

open Sys2Proof

/-- MOD.ID.HW_ISSUE, loaded at start-up step 5 (R385). -/
opaque hwIssue : Byte

/-- The module serial number (R385). -/
opaque serial : DWord

/-- The minor version and patch level of the firmware image that runs after power-up (R385, R392);
its major version is 3 (R1). -/
opaque fwMinor : Byte

opaque fwPatch : BitVec 16

/-- BUILD of that image (R392). -/
opaque fwBuild : List Byte

/-- The hardware issue that a fitted cartridge reports (R36). -/
opaque cartIssue : Byte

/-- The bytes of that image after its header (R392). -/
opaque fwBytes : List Byte

/-- FLS.WEAR (R398): spare blocks remaining and the highest erase count. -/
opaque flashWear : Word

/-- What a read of a slice SRAM word returns where the block that owns it has a layout of its own that
the manual does not give (R46, R402). -/
opaque sramWord : Nat → DWord

/-- The element to which the SRAM accounting of the forme with this FORME_CRC allots a page outside its host regions: the
manual gives the sizes of the shares (R69) and not their places (R403). -/
opaque pageOwner : Word → Nat → PageOwner

/-- Whether a value scaled by a gain takes the upper of the two results nearest to the exact product: an ADC code by a gain in
0.001 dB (R117), the soft value of an OFDM cell by the unerased share of its symbol (R160). The manual gives the gain and not
its arithmetic. -/
opaque roundUp : Int → Int → Bool

/-- The units that an instance of a profile has open at a real tick, when the slice enters COAST (R167): the manual counts them
and does not say how many FIBs, logical frames or blocks a transmission frame holds open. -/
opaque openUnits : Nat → Nat → Nat

/-- Which of two equally good paths into a trellis state a decoder keeps (R201). -/
opaque tieBreak : Nat → Bool

/-- The power at the ANT connector, in 0.1 dBm, of a sine that reaches full scale of the ADC at 0 dB of attenuation with the LNA
on: in preselected mode, and in wideband mode (R116's chapter gives −19.5 to −16.5 and −15.5 to −12.5 dBm). -/
opaque fullScale : Bool → Int

/-- The deviation from flat that the flatness calibration found at a frequency in Hz, in 0.1 dB (R127, R179). -/
opaque flatness : Nat → Int

/-- The instant that ETSI EN 300 401 assigns to a FIG 0/10, from the timestamp of its FIB (R217). -/
opaque figInstant : Nat → Nat

/-- The XFER_ID that a push takes (R364). -/
opaque xferId : Nat → Word

/-- A value that the manual leaves open: the control word and the rail bit of a slice loop (R96, R103), and the
EVENT and STATUS of the FAULT record of a requested slice reset (R21). -/
opaque freeWord : Nat → Word

end Sys2Proof.Config
end

