-- ==== Sys2Proof/Machine/StateHost.lean ====
section
/-! DEFINITION. State of the host port: records, staging, queues and the QMG block
(Host Port, Queues and Records, R270 to R297), and the outward effects of a command. -/

namespace Sys2Proof.Machine

open Sys2Proof

/-- A sample or audio source of a record, as a SHED entry counts it (R293): how many samples or
frames, and the index that follows them. -/
structure SrcCount where
  source : Byte
  count : Nat
  resume : Nat
  deriving DecidableEq, Repr

/-- The speculation that a record belongs to (R226): the instance and the TB of its start; `known` says of a SPEC_UNDO record
that it holds the number of a speculative record. -/
structure SpecTag where
  key : Nat
  tb : Nat
  known : Bool
  deriving DecidableEq, Repr

/-- A record as a block made it (R284). SEQ and QUEUE belong to the queue and CRC is computed over
the rest (R285), so none of the three is stored here. `raw` holds the bytes of a record that the
trunk brought, which stay as they are but for SEQ (R363). `spec` marks the records of a speculation (R226). -/
structure Record where
  type : Byte
  flags : Byte
  slice : Byte
  tuning : Byte
  context : BitVec 16
  msgId : Word
  ts : Nat
  payload : List Byte
  src : Option SrcCount
  raw : Option (List Byte)
  spec : Option SpecTag
  deriving DecidableEq, Repr

/-- A SHED record in staging (R292, R293). `opened` is the TB of its first loss. -/
structure Shed where
  causes : Byte
  seqSkip : Nat
  lost : Nat
  entries : List SrcCount
  slice : Byte
  ts : Nat
  opened : Nat
  deriving DecidableEq, Repr

/-- An entry of a queue's staging space. A DROP_NEW queue numbers it on entry, a DROP_OLD queue when
it leaves (R286). -/
inductive Staged where
  | data (seq : Option Word) (r : Record)
  | shed (seq : Option Word) (s : Shed)
  deriving DecidableEq, Repr

/-- The record in transfer to the open buffer (R294): the host address of its next byte and the
bytes still to move. `head` marks the SHED record of the place beside staging (R273). -/
structure Xfer where
  addr : Nat
  left : List Byte
  entry : Staged
  head : Bool
  deriving DecidableEq, Repr

/-- The open buffer of a record queue (R277, R278), with the counts R273 keeps for it. -/
structure OpenBuf where
  addr : Nat
  len : Nat
  desc : Nat
  used : Nat
  opened : Option Nat
  nrec : Nat
  firstSeq : Option Word
  firstTs : Nat
  srcs : List SrcCount
  lastSeq : Word
  deriving DecidableEq, Repr

/-- A command taken from a command ring or from the mailbox (R279, R390). -/
structure Command where
  queue : Fin 256
  opcode : Byte
  tag : Word
  desc : Word
  body : List Byte
  deriving DecidableEq, Repr

/-- What a COMMAND_DONE needs of its command (R281). -/
structure CmdRef where
  queue : Fin 256
  opcode : Byte
  tag : Word
  desc : Word
  deriving DecidableEq, Repr

/-- One of the 256 queues: its QMG registers (R297), ring counts (R282), staging (R291), the place
kept beside staging for the SHED record of an abandoned buffer (R273) or of a removed cartridge
(R394), its open buffer, and for a command queue the commands in progress (R280, R281). -/
structure Queue where
  en : Bool
  flush : Bool
  ringLo : Word
  ringHi : Word
  ringCfg : Word
  irq : Word
  events : Word
  seq : Word
  shedCnt : Word
  prod : Word
  cons : Word
  peak : Nat
  staged : List Staged
  headShed : Option Staged
  headOnly : Bool
  buf : Option OpenBuf
  xfer : Option Xfer
  irqLast : Option Nat
  irqOwed : Bool
  capWait : Bool
  inHand : Option Command
  outstanding : List CmdRef
  held : List Record
  deriving DecidableEq, Repr

/-- The global registers of the QMG block and the state of the DMA arbiter (R294, R295). -/
structure Qmg where
  linkUp : Bool
  linkWidth : Nat
  linkSpeed : Nat
  mps : Nat
  inReset : Bool
  events : Word
  dmaWeight : Word
  rawCap : Word
  blkIrq : Word
  dmaBytes : Vector Nat 3
  dmaKb : Vector Word 3
  hostResets : Word
  roundClass : Nat
  roundUsed : Nat
  dmaPtr : Vector Nat 3
  rawWindow : Nat
  rawUsed : Nat
  msixTable : Vector Word 256
  msixPba : DWord
  deriving DecidableEq, Repr

/-- An effect of the last command that leaves the module: the model's own list, so that a claim can
speak of what a partner sees. -/
inductive Output where
  | hostWrite (addr : Nat) (bytes : List Byte)
  | msix (vector : Nat)
  | aer (kind : Nat)
  | evt (pin : Fin 8) (level : Bool)
  | trunk (port : Fin 3) (bytes : List Byte)
  | flashWrite (kib : Nat)
  | burstStart (slice : Fin 4) (tb freq : Nat) (level : BitVec 16) (rampUs symrate : Nat) (symbols : List (Int × Int))
  | rampDown (slice : Fin 4) (tb rampUs : Nat)
  | paBias (slice : Fin 4) (tb : Nat) (mv : List Nat)
  deriving DecidableEq, Repr

end Sys2Proof.Machine
end

