-- ==== Sys2Proof/Machine/StateChain.lean ====
section
/-! DEFINITION. State of a slice, first part: slice states and CTL (R35 to R43), formes and the
shadow store (R48 to R86), clocks (R90, R96 to R108), the front end and calibration (R111 to R136),
the tunings and their chains (R137 to R157), errors (R399 to R418). -/

namespace Sys2Proof.Machine

open Sys2Proof

/-! ### Slice states and CTL -/

/-- Slice states (R35's table, R37). -/
inductive SliceState where
  | absent | held | reset | calibrating | idle | running | faulted
  deriving DecidableEq, Repr

/-- The CTL block (R36 to R40), the cartridge in the bay, the requests of MOD.BAY (R385) and the
state of the background scrub (R42). `escTimes` are the TB values of the slice-level errors of the
last 60 s (R399). `feedOn` is MOD.BAY.POWERED; `ranForme` says that the slice entered FAULTED from RUNNING, so that
its registers keep showing the forme that was in force (R35). -/
structure Ctl where
  state : SliceState
  present : Bool
  feedOn : Bool
  issue : Nat
  part : Nat
  lastReset : Nat
  resetReq : Bool
  bgCfg : Word
  capHit : Bool
  cfgReject : Bool
  scrubPasses : Nat
  scrubNext : Nat
  bgWindow : Nat
  bgGrants : Vector Nat 16
  onReq : Bool
  offReq : Bool
  offAt : Nat
  ranForme : Bool
  escTimes : List Nat
  deriving DecidableEq, Repr

/-! ### Formes -/

/-- A record of a full forme (R49). -/
structure FormeRec where
  type : Nat
  key : Nat
  payload : List Byte
  deriving DecidableEq, Repr

/-- A full forme that passed R53 (R48 to R52). Its bytes follow from these fields. -/
structure Forme where
  generation : Word
  name : List Byte
  crc : Word
  recs : List FormeRec
  deriving DecidableEq, Repr

/-- The staged area (R71, R72). A loading area keeps the bytes received and the real time of the
last chunk; a staged forme keeps the active FORME_CRC it was merged against (R82); a pending one its
lock-up instant and the FORME_LOCKUP that waits. -/
inductive Staged2 where
  | empty
  | loading (bytes : List Byte) (last : Nat)
  | staged (f : Forme) (base : Option Word)
  | asking (f : Forme) (base : Option Word) (instant : Nat) (cmd : Option CmdRef)
  | pending (f : Forme) (base : Option Word) (instant : Nat) (cmd : Option CmdRef)
  deriving DecidableEq, Repr

/-- The shadow store of a slice (R72, R405) and the placement of the locked-up forme (R70): the
first cell of each DEMOD instance, the filter cell of each tuning (R19) and the spare cells. `reload` says
that the forme of the active area is to be locked up at the instant (R84). -/
structure Shadow where
  active : Option Forme
  bad : Bool
  lostCrc : Option Word
  reload : Option Nat
  boot : Option (Fin 64 × Forme × Bool)
  area : Staged2
  timedOut : Bool
  cellBase : Vector (Option Nat) 48
  firBase : Vector (Option Nat) 32
  spare : List Nat
  deriving DecidableEq, Repr

/-! ### Clocks -/

/-- The CLK block (R108) and the slice loops (R96 to R107). `ctrlSum` and `ctrlN` give the mean of
R103, `trimNow` the PHASE_TRIM reached so far, `fine` the fine steps of the last epoch for residual error, slew and trim
and `assist` those of rail assistance (R97), `unlocked` that the MDLL is unlocked. -/
structure Clk where
  lock : Bool
  bypass : Bool
  coast : Bool
  aligned : Bool
  rail : Bool
  suspect : Bool
  goodEpochs : Nat
  events : Word
  cfg : Word
  ctrl : Nat
  ctrlHist : List Nat
  phaseErr : Int
  phaseTrim : Word
  trimNow : Int
  fine : Int
  assist : Nat
  relockFail : Nat
  lockLoss : Nat
  lastLoss : Nat
  declared : Nat
  lastAttempt : Nat
  loadAt : Option Nat
  reregAt : Option Nat
  centre : Nat
  deriving DecidableEq, Repr

/-! ### Front end and calibration -/

/-- A calibration kind that waits (R128, R129). -/
structure CalPend where
  kind : Nat
  origin : Nat
  at_ : Nat
  deriving DecidableEq, Repr

/-- The calibration interval in progress (R130); `freq` is TUNER_FREQ at its start (R133). -/
structure CalRun where
  kind : Nat
  origin : Nat
  start : Nat
  freq : Nat
  deriving DecidableEq, Repr

/-- A CAL_REQUEST command that waits for its kinds (R128). -/
structure CalCmd where
  cmd : CmdRef
  left : List Nat
  status : Byte
  deriving DecidableEq, Repr

/-- The calibration record of a cartridge in flash (R132): the results of each kind; those of a flatness calibration
with the step sizes that it measured. -/
structure CalStore where
  adc : Option (Int × Int)
  flat : Option (List Int)
  tuner : Option (Nat × Nat × Nat)
  tunerFreq : Nat
  deriving DecidableEq, Repr

/-- The AFE block (R136), AGC (R120 to R122), tuner (R123, R124), mismatch monitor (R125, R126),
calibration (R127 to R133) and CAL_BG (R134, R135). `agcMode` is none before the first lock-up and
true for manual mode; `gainPend` holds the gains written and not yet in force, oldest first (R120). `quietSince` is the
start of the release period (R121). `stepSizes` are the sizes that the last flatness calibration measured, and `gains`,
newest first, from which air time on which ADC offset and digital gain in 0.001 dB apply (R117). `clipSeen` is the air time
up to which ADC samples have been counted (R112). `calLosses` are the TB values of lock losses in CALIBRATING (R131).
`bgDc` lists the tunings whose DC trim runs, `bgRun` with its start a synthesiser trim (R134). `disturbed` lists the spans of air time whose ADC samples are disturbed (R119),
`zeroed` those whose samples are replaced by zero (R130). -/
structure Afe where
  events : Word
  agcMode : Option Bool
  atten : Nat
  lnaByp : Bool
  preselected : Bool
  band : Nat
  gainPend : List (Nat × Nat × Bool)
  agcCfg : Word
  agcLimits : Word
  powerCb : Nat
  acquire : Bool
  quietSince : Nat
  windowDirty : Bool
  windowStart : Nat
  lastAttack : Option Nat
  tuner : Word
  tunerNow : Word
  tunerFreq : Word
  searching : Bool
  monCfg : Word
  monFreq : Word
  measuredAt : Option Nat
  rl : Nat
  mismatch : Bool
  calPend : List CalPend
  calRun : Option CalRun
  calEnd : Option Nat
  calCmds : List CalCmd
  calHeld : List Nat
  calLosses : List Nat
  adcOffset : Int
  adcGain : Int
  latency : Nat
  stepSizes : List Int
  gains : List (Nat × Int × Int)
  vcoBands : Nat
  gainSteps : Nat
  attacks : Nat
  clips : Nat
  clipSeen : Nat
  bgAbandoned : Nat
  bgTrims : Nat
  bgRun : Bool
  bgStart : Nat
  bgDc : List Nat
  disturbed : List (Nat × Nat)
  zeroed : List (Nat × Nat)
  deriving DecidableEq, Repr

/-! ### Tunings -/

/-- A complex value in the chain. -/
structure Cplx where
  re : Int
  im : Int
  deriving DecidableEq, Repr

/-- The delay lines, integrators and counters of one chain (R139 to R142). `n` counts the ADC
samples since the reset at air time `at_`; the delay lines hold the newest value first; `sat` holds, for
the mixer, the CIC, HB1 and HB2, the sample count at the last saturation (R142). -/
structure Chain where
  at_ : Nat
  n : Nat
  phi : Word
  integ : List Cplx
  comb : List Cplx
  hb1 : List Cplx
  hb2 : List Cplx
  fir : List Cplx
  sat : List (Option Nat)
  deriving DecidableEq, Repr

/-- The fixed settings of a chain (R139 to R144). -/
structure ChainConf where
  cic : Nat
  fir : Nat
  taps : Nat
  cicShift : Nat
  firShift : Nat
  skew : Nat
  deriving DecidableEq, Repr

/-- A chain that a reset has ended and whose last ADC samples, up to the sample count `stop`, have not been read
(R142, R147). -/
structure Tail where
  chain : Chain
  conf : ChainConf
  freq : Word
  stop : Nat
  deriving DecidableEq, Repr

/-- A cross-fade in progress (R152): the blends made and their number; the bank faded to is the
tuning's `bank`. -/
structure Xfade where
  made : Nat
  len : Nat
  deriving DecidableEq, Repr

/-- The open SAMPLES record of a tuning (R288). -/
structure OpenSamples where
  firstIndex : Nat
  firstTs : Nat
  words : List DWord
  deriving DecidableEq, Repr

/-- The samples of a SAMPLES record that a lock-up closed, held until its readers may take them (R149, R288): its queue and
output period, its first index and stamp, and the words with their stamps. -/
structure Closing where
  queue : Fin 256
  period : Nat
  firstIndex : Nat
  firstTs : Nat
  words : List (Nat × DWord)
  deriving DecidableEq, Repr

/-- One tuning (R137 to R157): its runtime registers, its chain and its counters. `ncoPend` and
`bankPend` hold the earliest stamp of the sample that their boundary follows (R151, R152);
`unsettled` counts the samples that still carry UNSETTLED (R150);
`resetAt` holds the resets that act at later air times, each with its REG_EDGE (R147, R342); `tails` the chains that resets
have ended; `gapped` says that its ADC is gapped since a lock loss (R104); `closing` holds the records that lock-ups closed;
`buffer` is the sample buffer with the
stamps of its samples, newest first; `fresh` holds the samples, newest first with their stamps, that no reader may take yet
(R149). -/
structure Tuning where
  events : Word
  faulted : Bool
  ncoReg : Word
  ncoNow : Word
  ncoPend : Option Nat
  bank : Bool
  target : Bool
  bankPend : Option (Nat × Bool)
  xfade : Option Xfade
  heldReq : Option Bool
  coef : Vector (List (BitVec 20)) 2
  coefCrc : Vector Word 2
  index : Nat
  indexHi : Word
  chain : Chain
  lastTs : Option Nat
  resetAt : List (Nat × Bool)
  tails : List Tail
  gapped : Bool
  regEdge : Bool
  unsettled : Nat
  unsettledNow : Bool
  lastClip : Option Nat
  dc : Cplx
  dcPend : Option Cplx
  swaps : Nat
  superseded : Nat
  sats : Nat
  openRec : Option OpenSamples
  buffer : List (Nat × DWord)
  fresh : List (Nat × DWord)
  closing : List Closing
  deriving DecidableEq, Repr

/-! ### Errors -/

/-- The ERR block (R417), page retirement (R402), injection (R418), isolated cells (R19; `isolatedFir` filter cells, `isolatedFifo` FIFO entries with the BLOCK code of
their block) and the recent errors of R399: `cellErrs` and `blockErrs` hold the BLOCK code and TB of each, `resetting` the BLOCK code
and the real time of block-local resets that have not been seen to end. -/
structure Err where
  events : Word
  busCnt : Nat
  memCnt : Nat
  sliceResets : Nat
  blockResets : Nat
  unmapped : Nat
  access : Nat
  addr : Option Word
  faultedEsc : Bool
  retired : List Nat
  selfTestRetired : List Nat
  spares : Vector Nat 16
  isolated : List Nat
  isolatedFir : List Nat
  isolatedFifo : List (Nat × Nat)
  inject : Option Nat
  badWords : List Nat
  cellErrs : List (Nat × Nat)
  blockErrs : List (Nat × Nat)
  busErrs : List Nat
  resetting : List (Nat × Nat)
  busRetry : Bool
  deriving DecidableEq, Repr

end Sys2Proof.Machine
end

