-- ==== Sys2Proof/Machine/StateDemod.lean ====
section
/-! DEFINITION. State of a slice, second part: demodulator instances, candidates and cells (R158 to
R182), LDB acquisition and the trellis decoders (R183 to R207). -/

namespace Sys2Proof.Machine

open Sys2Proof

/-- Instance states (R162). A vector entry of an instance that the forme does not declare is
`stopped` with `declared` false. -/
inductive InstState where
  | stopped | search | sync | track | hold | faulted
  deriving DecidableEq, Repr

/-- A frame grid on TB (R329): G0, the number of its next grid point, and the index of its first one. -/
structure Grid where
  at_ : Nat
  k : Nat
  base : Nat
  deriving DecidableEq, Repr

/-- One frame of programme audio at a grid point (R289, R329). -/
structure AudioFrame where
  inst : Fin 48
  muted : Bool
  samples : List Word
  deriving DecidableEq, Repr

/-- The open AUDIO record of a source (R289). -/
structure OpenAudio where
  firstFrame : Nat
  firstTs : Nat
  rate : Nat
  channels : Nat
  flags : Nat
  frames : Nat
  data : List Byte
  deriving DecidableEq, Repr

/-- A demodulator instance or candidate and its DEM registers (R162, R179 to R182). `since` is the real time at
which it entered its state, `runs` counts the consecutive units that passed in SYNC, per RDS stream (R163); `muted` counts
audio frames muted since the last read of PSTAT1; `grid` is its audio frame grid. `clean` counts the unerased samples read
since the last measurement, made at real time `measuredAt`, and `erasedRuns` are the first and last stamps of runs of erased
samples, newest first (R160, R179). `badRun` counts the units that failed in a row, `idle` is the unerased input in ticks since
the last that passed, `lowSince` the
real time since which the signal is too weak, `violations` tells of the last 64 APD bits which were violations, newest first
(R163). `deaf` and `envelope` are the choice of detector, `ramp` counts
the frames that muted audio is below its level (R160, R170).
`robust` and `occ` are the DRM mode and occupancy detected (R166), `rotation` and `gridShift` what registrations handed on
(R165), `seconds` the on-time instants of the running minute (R176), `berErr` and `berSeen` the re-encoding estimate (R182),
`ident` the last PI, EId or NETWORK_ID read, 0 where none is known (R232). -/
structure Inst where
  declared : Bool
  state : InstState
  events : Word
  since : Nat
  runs : Vector Nat 4
  pilot : Bool
  erasing : Bool
  audioMuted : Bool
  freqErr : Word
  clockErr : Word
  level : Word
  quality : Word
  unitOk : Nat
  unitFail : Nat
  erased : Nat
  locks : Nat
  losses : Nat
  pstat0 : Word
  pstat1 : Word
  muted : Nat
  grid : Option Grid
  audio : Option OpenAudio
  clean : Nat
  erasedRuns : List (Nat × Nat)
  measuredAt : Option Nat
  badRun : Nat
  idle : Nat
  lowSince : Option Nat
  violations : List Bool
  deaf : Bool
  envelope : Bool
  ramp : Nat
  robust : Nat
  occ : Nat
  rotation : Word
  gridShift : Int
  seconds : List Nat
  berErr : Nat
  berSeen : Nat
  ident : Nat
  deriving DecidableEq, Repr

/-- Acquirer states (R193). -/
inductive AcqState where
  | idle | triggered | header | payload
  deriving DecidableEq, Repr

/-- The burst in hand of an LDB instance (R191 to R197): SYNC_TB, REF, the decoded header once the
HCRC segment completed, whether the last data symbol has been demodulated (R195), the fields of its BURST
record, and whether its unit goes to the contexts once its decoding completes outside the receiving cell. `asked` says that
the segment of its header or payload has been requested (R194). -/
structure Burst where
  syncTb : Nat
  ref : Int
  header : DWord
  passed : Bool
  length : Nat
  allDemod : Bool
  captured : Bool
  erased : Bool
  freqErr : Word
  live : Bool
  asked : Bool
  deriving DecidableEq, Repr

/-- An LDB acquirer and its BST registers (R190 to R207). `noise` lists the lowest RSSI of the last
eight counted intervals, newest first, `dirty` that the present interval does not count; `rewindow` says that
the present qualifier window followed an unqualified one of the same trigger; `tails` are bursts whose last
symbol has been demodulated and whose decoding goes on (R195). `winStop` is the end of the last RSSI window, `recent` the
values of the last 32, newest first, `riseRun` and `capRun` the windows held at the thresholds of R191 and R192, `trigAt` the
opening of the qualifier window, `capAt` the end of the last window that completed a hold of R192, `lowest` and `since` the
lowest RSSI and the start of the present interval of 125 ms (R190), `lastValue` the last RSSI that a window gave and
`lastAbove` the end of the last window above the trigger threshold (R134). -/
structure Acq where
  acq : AcqState
  events : Word
  rssi : Option Int
  noise : List Int
  dirty : Bool
  rewindow : Bool
  burst : Option Burst
  tails : List Burst
  lastSync : Nat
  lastSyncHi : Word
  falseTrig : Nat
  triggers : Nat
  hdrFail : Nat
  hdrOk : Nat
  payFail : Nat
  payOk : Nat
  missed : Nat
  captured : Nat
  aborted : Nat
  reacquired : Nat
  lastPass : Nat
  offsets : List Int
  lastAbove : Option Nat
  winStop : Option Nat
  recent : List (Option Int)
  riseRun : Nat
  capRun : Nat
  trigAt : Nat
  capAt : Option Nat
  lowest : Option Int
  since : Nat
  lastValue : Option Int
  deriving DecidableEq, Repr

/-- A code block whose next segment waits or runs (R202): its tuning and kind, SYNC_TB of the LDB burst that it belongs to, the
soft values of the steps that remain, the 64 state metrics and the decisions kept, and the TB of the request. -/
structure Segment where
  tuning : Fin 32
  kind : BlockKind
  burst : Nat
  soft : List (List Int)
  metrics : List (Option Int)
  out : List Bool
  asked : Nat
  deriving DecidableEq, Repr

/-- The trellis decoders and the TRL registers (R202 to R206). -/
structure Trl where
  ptr : Nat
  run : Vector (Option Segment) 2
  wait : List Segment
  events : Word
  segs : Vector Nat 2
  loadNow : Nat
  loadPm : Nat
  peakPm : Nat
  waitMax : Nat
  resets : Nat
  deriving DecidableEq, Repr

end Sys2Proof.Machine
end

