-- ==== Sys2Proof/Machine/StateModule.lean ====
section
/-! DEFINITION. State of the module level: timebase (R88 to R110), registration and trunk (R342 to
R366), power steward (R367 to R380), MOD, FEA, firmware, flash and the mailbox (R381 to R398), the
ERRM block (R419) and the access port (R426 to R430). -/

namespace Sys2Proof.Machine

open Sys2Proof

/-! ### Timebase -/

/-- TBM states (R95). -/
inductive TbmState where
  | freerun | locked | holdover
  deriving DecidableEq, Repr

/-- A forward step waiting for its registration point (R100, R89). `kind` is 0 for a step and 2 for
the change of origin; `todSet` says that a TOD_SET decided it (R110). -/
structure PendStep where
  point : Nat
  amount : Nat
  kind : Nat
  source : Nat
  todSet : Bool
  deriving DecidableEq, Repr

/-- A hold in progress: the ticks it still lasts (R101). -/
structure ActiveHold where
  point : Nat
  left : Nat
  deriving DecidableEq, Repr

/-- The TBM block (R109) and the state of its rules R91 to R103 and R110. `offset` is TB minus the
source's time that is still to be removed; `refSince`, `ppsExpect`, `ppsGood`, `ppsLast` serve the
qualification of rank 1; `originAt` is the point of the change of origin (R284); `srcOff` holds TB minus the time of each
external rank at its last measurement; `replan` says that CORR_MODE or SLEW_LIMIT was written (R100);
`warps` lists the steps (above 0) and holds (below 0) that took place, by their points (R101); `moved` sums what steps,
holds and slews have moved TB by, so that an offset measured earlier can be brought up to date; `everLocked` says that TBM
has been LOCKED since module reset (R103); `since` holds the real time at which each external rank qualified. -/
structure Tbm where
  tb : Nat
  tbHi : Word
  origin : Bool
  originAt : Nat
  state : TbmState
  source : Nat
  lost : Nat
  timing : Option (Fin 4)
  qual : Vector Bool 4
  since : Vector Nat 4
  holdSince : Nat
  cfg : Word
  slewLimit : Word
  offset : Int
  slewing : Bool
  slewAcc : Nat
  offHi : Word
  holdsAt : Option Nat
  step : Option PendStep
  hold : Option ActiveHold
  refDelay : Word
  tcDelay : Word
  todLo : Word
  tod : Option Nat
  refinOk : Bool
  ppsExpect : Option Nat
  ppsGood : Nat
  ppsLast : Nat
  events : Word
  ppsAccepted : Nat
  ppsIgnored : Nat
  holdoverCfg : Word
  utcOffset : Word
  srcOff : Vector Int 4
  replan : Bool
  warps : List (Nat × Int)
  moved : Int
  everLocked : Bool
  deriving DecidableEq, Repr

/-! ### Registration and trunk -/

/-- A pending registration tick (R344, R346). -/
structure PendReg where
  tick : Nat
  slices : BitVec 4
  sources : BitVec 4
  unaligned : Bool
  hops : Nat
  origin : Nat
  deriving DecidableEq, Repr

/-- Trunk port states (R354). -/
inductive PortState where
  | down | probe | foreign | upstream | child | standby | looped
  deriving DecidableEq, Repr

/-- Trunk traffic classes (R351), in their strict order (R360). -/
inductive FrameClass where
  | time | control | service | bulk
  deriving DecidableEq, Repr

/-- Trunk frame directions (R351). -/
inductive FrameDir where
  | up | down | downAll | link
  deriving DecidableEq, Repr

/-- A trunk frame (R351). `ingress` is the requester index at its egress port: the ingress port,
or the egress port itself for the module's own frames (R360). `crc` is the CRC of a frame that failed it and is passed on
unchanged, none for the CRC that belongs to the frame. -/
structure Frame where
  cls : FrameClass
  dir : FrameDir
  kind : Nat
  hops : Nat
  turn : Bool
  dest : Nat
  src : Nat
  payload : List Byte
  ingress : Nat
  crc : Option Word
  deriving DecidableEq, Repr

/-- One trunk port (R354, R358, R360, R361, R366). `t1 t2 t3` are the stamps of the last exchange on
the upstream port; `t4 t4seq` the arrival of the child's last DELAY_REQ. `heard` is the real time of the last valid frame
or of the entry to PROBE, `flashAt` that of the last valid frame received or frame sent (R423). -/
structure Port where
  state : PortState
  link : Bool
  nbAddr : Nat
  nbDepth : Nat
  nbCrown : Nat
  nbUp : Bool
  nbHeard : Bool
  heard : Nat
  flashAt : Option Nat
  t1 : Nat
  t2 : Nat
  t3 : Nat
  reqSeq : Nat
  t4 : Nat
  t4seq : Nat
  delays : List Int
  offset : Option Int
  syncGood : Nat
  syncFirst : Int
  asym : Word
  rxCnt : Nat
  txCnt : Nat
  crcErr : Nat
  aborted : Nat
  dropControl : Nat
  dropService : Nat
  dropBulk : Nat
  noRoute : Nat
  preempted : Nat
  downs : Nat
  qTime : Option Frame
  qControl : List Frame
  qService : List Frame
  qBulk : List Frame
  sending : Option Frame
  ended : Option Frame
  ptr : Vector Nat 4
  deriving DecidableEq, Repr

/-- Tree states of a module (R366). -/
inductive TreeState where
  | detached | attached | crown | disabled
  deriving DecidableEq, Repr

/-- A trunk export entry (R362). -/
structure Export where
  queue : Nat
  enable : Bool
  dest : Nat
  deriving DecidableEq, Repr

/-- A bulk transfer being received (R364). `storing` says that its object is complete and being written to
flash. -/
structure Transfer where
  id : Word
  src : Nat
  obj : Nat
  dst : Nat
  total : Nat
  boot : Nat
  chunks : List (Nat × List Byte)
  storing : Bool
  stored : Bool
  last : Nat
  deriving DecidableEq, Repr

/-- The last answer of one receiver of a push (R364). -/
structure PushAnswer where
  addr : Nat
  status : Byte
  missing : List Nat
  deriving DecidableEq, Repr

/-- The push in progress (R364). `todo` holds the KIND and payload of each frame that it has still to send,
`endAt` the real time at which its last END frame was sent. -/
structure Push where
  cmd : CmdRef
  id : Word
  obj : Nat
  dst : Nat
  boot : Nat
  dest : Nat
  waitMs : Nat
  data : List Byte
  round : Nat
  todo : List (Nat × List Byte)
  endAt : Option Nat
  answers : List PushAnswer
  deriving DecidableEq, Repr

/-- The TRK block (R366). `detachedAt` is the real time at which the module became DETACHED, `canAttach` says
that its hold has ended (R355), `timeReal` is the real time of the last SYNC on the upstream port (R93), `kept` is the port that tree mode keeps (R355), `crownExt` and `crownSrc` are
what the last SYNC said of the crown (R352). -/
structure Trk where
  cfg : Word
  addr : Word
  regCfg : Word
  events : Word
  tree : TreeState
  depth : Nat
  upPort : Option (Fin 3)
  crown : Nat
  reparent : Bool
  detachedAt : Nat
  timeReal : Nat
  canAttach : Bool
  regEarly : Nat
  regRejected : Nat
  regDone : Nat
  regNextHi : Word
  topoCnt : Nat
  expDropped : Nat
  expSent : Nat
  pending : List PendReg
  lastRegIn : Option Nat
  kept : Option (Fin 3)
  crownExt : Bool
  crownSrc : Nat
  ports : Vector Port 3
  exports : Vector Export 32
  transfers : List Transfer
  push : Option Push
  deriving DecidableEq, Repr

/-! ### Power -/

/-- Input classes (R367). -/
inductive InputClass where
  | normal | brownOut | inputLoss
  deriving DecidableEq, Repr

/-- The auxiliary output (R377). -/
inductive AuxState where
  | off | requested | on | falling
  deriving DecidableEq, Repr

/-- Why a slice's receive chain asks for tokens: the base grant of an insertion, an ON_REQ or
start-up (R371, R395), or a lock-up (R73). -/
inductive RxAsk where
  | none | base | lockup
  deriving DecidableEq, Repr

/-- The power steward and the PWR block (R367 to R380). Per requester: tokens `held`, tokens wanted
`want` (0 for none) and tokens to release at the next grant cycle `rel`. -/
structure Pwr where
  events : Word
  budget : Word
  held : Vector Nat 18
  want : Vector Nat 18
  rel : Vector Nat 18
  ptr : Vector Nat 4
  rxAsk : Vector RxAsk 4
  cls : InputClass
  ac : Bool
  freq : Nat
  inputDv : Nat
  drawNow : Nat
  drawPeak : Nat
  aux : AuxState
  auxMa : Nat
  refused : Nat
  txExpired : Nat
  railMv : Vector Nat 8
  railOk : Vector Bool 8
  lowSince : Option Nat
  goodSince : Option Nat
  backSince : Option Nat
  saved : Option Word
  deriving DecidableEq, Repr

/-! ### Start-up, features, firmware, flash -/

/-- A firmware image slot that holds a valid image (R392). -/
structure FwImage where
  major : Nat
  minor : Nat
  patch : Nat
  build : List Byte
  bytes : List Byte
  deriving DecidableEq, Repr

/-- A pending or running FW_ACTIVATE (R393, R396); `cmd` is none for a pushed image. -/
structure FwActivate where
  cmd : Option CmdRef
  atTb : Nat
  deriving DecidableEq, Repr

/-- A firmware swap in progress (R393). -/
structure Swap where
  cmd : Option CmdRef
  started : Nat
  deriving DecidableEq, Repr

/-- The MOD block and the firmware images (R385, R386, R392, R393). `load` holds the bytes of an image being loaded
and the real time of its last chunk, `pushed` the TB at which a pushed image that is to be activated was stored, and
`heldRecs` and `heldDone` the records and completions that wait for the end of a swap. -/
structure Mod where
  ready : Bool
  resetCause : Nat
  image : Bool
  selected : Bool
  fallback : Bool
  swapping : Option Swap
  activate : Option FwActivate
  pushed : Option Nat
  busyWrite : Bool
  events : Word
  images : Vector (Option FwImage) 2
  load : Option (List Byte × Nat)
  heldRecs : List (Nat × Record)
  heldDone : List (Nat × Record)
  deriving DecidableEq, Repr

/-- The FEA block (R387, R391) and the acceptance that FEA_SAVE stored. -/
structure Fea where
  accept : Vector Word 4
  committed : Bool
  fromFlash : Bool
  events : Word
  saved : Option (Vector Word 4)
  deriving DecidableEq, Repr

/-- An entry of the forme library (R83): its forme and boot mask. -/
structure LibEntry where
  forme : List Byte
  boot : BitVec 4
  deriving DecidableEq, Repr

/-- What a flash program or erase writes when it completes (R397). -/
inductive FlashJob where
  | libStore (cmd : CmdRef) (entry : Fin 64) (forme : List Byte)
  | libErase (cmd : CmdRef) (entry : Fin 64)
  | trkSave (cmd : CmdRef) (cfg addr : Word) (asym : Vector Word 3)
  | pwrSave (cmd : CmdRef) (budget : Word)
  | feaSave (cmd : CmdRef) (accept : Vector Word 4)
  | image (cmd : Option CmdRef) (slot : Fin 2) (img : Option FwImage) (result : List Byte)
  | selected (image : Bool)
  | cal (id kind : Nat) (fields : List Int) (freq : Nat)
  | pushLib (id : Word) (src : Nat) (entry : Fin 64) (forme : List Byte) (boot : BitVec 4)
  | pushImage (id : Word) (src : Nat) (slot : Fin 2) (img : Option FwImage) (boot : Bool)
  deriving DecidableEq, Repr

/-- The FLS block (R397, R398). `jobs` wait or run in order; `running` says that the first one holds
its tokens; `log` and `imgLog` are the writes of the last 24 h: the real time and the KiB. -/
structure Fls where
  events : Word
  limit : Word
  jobs : List FlashJob
  running : Bool
  log : List (Nat × Nat)
  imgLog : List Nat
  uncorrected : Nat
  corrected : Nat
  library : Vector (Option LibEntry) 64
  asymSaved : Vector Word 3
  trkSaved : Option (Word × Word)
  deriving DecidableEq, Repr

/-- The SX5216 command mailbox of slice 0 (R390). `taken` says that the control queue has taken the command
in hand. -/
structure Mailbox where
  opcode : Word
  go : Bool
  taken : Bool
  reject : Bool
  status : Byte
  result : Nat
  body : Vector Word 16
  deriving DecidableEq, Repr

/-! ### Faults and access port -/

/-- A FAULT made, for the COUNT of later ones (R414) and for escalation (R399). -/
structure FaultMark where
  event : Nat
  slice : Nat
  level : Nat
  at_ : Nat
  deriving DecidableEq, Repr

/-- The ERRM block (R419) and the record of FAULTs that COUNT needs. -/
structure Errm where
  faulted : BitVec 4
  events : Word
  unmapped : Nat
  access : Nat
  addr : Option Word
  supEcc : Nat
  lost : Nat
  made : Nat
  esc : Vector Nat 4
  marks : List FaultMark
  deriving DecidableEq, Repr

/-- The access port (R426 to R430): instruction, EXTEST in force, the last access of REGACC, the result of KEYLOAD, the
pointer of the register bridge, and the data register as the last Capture-DR loaded it, 0 before the first. -/
structure Tap where
  ir : Byte
  extest : Bool
  regAddr : Word
  regWrite : Bool
  regData : Word
  regStatus : Byte
  keyload : List Byte
  bridge : Nat
  dr : Nat
  deriving DecidableEq, Repr

end Sys2Proof.Machine
end

