-- ==== Sys2Proof/Machine/StateService.lean ====
section
/-! DEFINITION. State of a slice, third part: service contexts, alternative frequencies and alerts
(R208 to R232), the event scheduler (R233 to R239), the MAC engine and key store (R240 to R269), the
transmitter (R298 to R323) and the serial audio port (R324 to R341). -/

namespace Sys2Proof.Machine

open Sys2Proof

/-! ### Contexts -/

/-- A message as its context formed it (R208): what a record, a rule, an alert or a time offer needs
of it. `tuning` is the header's source tuning, `ident` the PI, EId or NETWORK_ID that came with it (R232). -/
structure Message where
  id : Word
  ts : Nat
  tuning : Fin 32
  freq : Nat
  ident : Nat
  sub : Nat
  corrected : Bool
  data : List Byte
  ctl : List Byte
  auth : Bool
  deriving DecidableEq, Repr

/-- An RDS block of the group in progress (R211). -/
structure RdsBlock where
  info : BitVec 16
  offset : Nat
  corrected : Nat
  ts : Nat
  deriving DecidableEq, Repr

/-- The open message of ODA framing (R213). -/
structure OdaOpen where
  len : Nat
  next : Nat
  bytes : List Byte
  ts : Nat
  sub : Nat
  corrected : Bool
  deriving DecidableEq, Repr

/-- The APD frame parser (R214): the last 16 bits while it hunts, each with its stamp, then the bits of the
frame after SYNC and the stamp of the first SYNC bit. -/
structure ApdParse where
  window : List (Bool × Nat)
  frame : Option (List Bool × Nat)
  deriving DecidableEq, Repr

/-- The open LDB message (R215). -/
structure LdbOpen where
  header : DWord
  seq : Nat
  lastTs : Nat
  ts : Nat
  bytes : List Byte
  deriving DecidableEq, Repr

/-- The alert of a context (R230): the consecutive groups with PTY 31 and without, the cluster of a DAB
alert and the real time of its last FIG 0/19, and whether its audio is routed or waits for the port
(R231). -/
structure AlertState where
  active : Bool
  kind : Byte
  level : Nat
  group : Nat
  pty31 : Nat
  ptyOther : Nat
  cluster : Nat
  lastFig : Nat
  routed : Bool
  deriving DecidableEq, Repr

/-- An envelope of a SEALED or PROOF context (R252 to R265), its timestamp and the tuning and frequency of
its newest unit. `bound` is the slot and its GENERATION (R246), `chain` and `done` the CMAC chaining value and
the bytes already processed; `verdict` is fixed once decided and `closed` says that its record was made;
`ended` says that the parser has the whole message, `failed` that it discarded the message (R435); `commit`
that a PASS waits for the mirror (R256). `proofSent` counts payload bytes delivered in `proofCount` records,
`pendTs` stamps the first byte not delivered. -/
structure Envelope where
  id : Word
  ts : Nat
  tuning : Fin 32
  freq : Nat
  ident : Nat
  sub : Nat
  corrected : Bool
  bytes : List Byte
  bound : Option (Fin 64 × BitVec 16)
  chain : List Byte
  done : Nat
  ended : Bool
  failed : Bool
  verdict : Option Nat
  closed : Bool
  commit : Bool
  proofSent : Nat
  pendTs : Nat
  proofCount : Nat
  proofLost : Bool
  firstSeq : Option Word
  deriving DecidableEq, Repr

/-- What a speculative message does once the speculation is confirmed (R227). -/
inductive Deferred where
  | msg (x : Fin 256) (m : Message)
  | verdict (code : Nat)
  | time (x : Fin 256) (m : Message) (kind : Byte) (timeTb airTb resMs : Nat)
  | native (x : Fin 256) (m : Message) (code : Nat)
  deriving DecidableEq, Repr

/-- A service context (R208) and its SVC registers (R239). `lastTime` is TIME_TB and AIR_TB of the last time
value, `timeReal` when it came, `offered` and `timeOff` what the context offers TBM (R217), with `Tbm.moved` taken off, `badFrames` its
consecutive invalid minute frames (R93). -/
structure Ctx where
  faulted : Bool
  events : Word
  msgOk : Nat
  msgFail : Nat
  nextId : Word
  rds : Vector (List RdsBlock) 4
  odaGroup : Option (BitVec 5)
  oda : Option OdaOpen
  apd : ApdParse
  ldb : Option LdbOpen
  env : Option Envelope
  queued : List Envelope
  lastTime : Option (Nat × Nat)
  timeReal : Nat
  offered : Bool
  timeOff : Int
  badFrames : Nat
  alert : AlertState
  spec : Bool
  deriving DecidableEq, Repr

/-! ### Alternative frequencies -/

/-- AF states (R222). -/
inductive AfState where
  | off | learn | primary | check | speculative | handover
  deriving DecidableEq, Repr

/-- An air-layer unit held by the AF process (R223). -/
structure HeldUnit where
  ts : Nat
  ok : Bool
  unit : AirUnit
  reads : Reads
  size : Nat
  deriving DecidableEq, Repr

/-- A candidate in run-ahead mode (R224). -/
structure CandInfo where
  key : Fin 48
  freq : Nat
  method : Nat
  started : Nat
  tracked : Option Nat
  lastRead : Option Nat
  verified : Bool
  lastUnit : Nat
  cells : List Nat
  deriving DecidableEq, Repr

/-- The AF process of an instance (R219 to R229). `heldShed` counts, per context, the units that overflow took from it
and the stamp of the first (R223); `specSeqs` tells of each queue that received speculative records the numbers that they have
taken (R226); `homing` says that the retune to PRIMARY_HZ waits for the relock (R222). -/
structure Af where
  state : AfState
  lead : Fin 256
  events : Word
  lists : Vector (List Nat) 4
  tried : List Nat
  ref : Option Nat
  lastRead : Option Nat
  primaryHz : Nat
  outSince : Option Nat
  checkAt : Nat
  checkFreq : Nat
  lastSwitch : Nat
  held : List HeldUnit
  heldShed : List (Fin 256 × Nat × Nat)
  cand : Option (Fin 32)
  specTb : Nat
  specSeqs : List (Fin 256 × Option (Word × Word))
  homing : Bool
  deferred : List Deferred
  provisional : List Replay
  alerts : List (Fin 256 × AlertState)
  undone : Nat
  switches : Nat
  failed : Nat
  passed : Nat
  deriving DecidableEq, Repr

/-! ### Scheduler -/

/-- An entry of the event scheduler (R233 to R238). `due` is none while it waits for the change of
origin; `done` is the TB at which it was executed. -/
structure SchedEntry where
  rule : Fin 64
  at_ : Nat
  due : Option Nat
  late : Bool
  done : Option Nat
  pin : Fin 8
  action : Nat
  pulseUs : Nat
  context : Fin 256
  cls : Nat
  code : Nat
  group : Nat
  msgId : Word
  msgTs : Nat
  deriving DecidableEq, Repr

/-- The scheduler's part for one slice (R233, R239). -/
structure Sched where
  entries : List SchedEntry
  claim : Byte
  events : Word
  cfg : Word
  late : Nat
  executed : Nat
  rejected : Nat
  cancelled : Nat
  dups : Nat
  nextHi : Word
  deriving DecidableEq, Repr

/-- An EVT pin: its level and its pending pulse end with the slice and rule that set it (R236). -/
structure EvtPin where
  level : Bool
  pulse : Option (Nat × Fin 4 × Fin 64)
  deriving DecidableEq, Repr

/-! ### MAC engine -/

/-- An operation of the transmit path's index (R241, R246): the slot and the GENERATION bound, the blocks left, and the
KEY_DERIVE command with its body; a tag belongs to the transmitter's command in hand. -/
structure MacOp where
  slot : Fin 64
  generation : BitVec 16
  left : Nat
  derive : Option Command
  deriving DecidableEq, Repr

/-- The MAC engine, the key store and the MAC registers (R240 to R269). `blocked` has a bit for each
active alarm source (R266). -/
structure Mac where
  slots : Vector KeySlot 64
  replay : List Replay
  ptr : Nat
  ops : List MacOp
  blocked : BitVec 6
  alarmIn : Bool
  erasing : Bool
  eraseCause : BitVec 6
  events : Word
  erases : BitVec 16
  lastCause : BitVec 6
  alarmTb : Nat
  alarmHi : Word
  ctrHi : Vector Word 64
  busy : Nat
  loadPm : Nat
  peakPm : Nat
  pass : Nat
  replayFail : Nat
  tagFail : Nat
  keyFail : Nat
  formatFail : Nat
  generated : Nat
  genFail : Nat
  deriving DecidableEq, Repr

/-! ### Transmitter -/

/-- Transmitter states (R311). -/
inductive TxState where
  | disabled | idle | prepare | wait | keyup | on | abort | release | inhibit
  deriving DecidableEq, Repr

/-- How far a key-up and a burst have come (R308 to R310). -/
inductive TxPhase where
  | none | req | tr | gntWait | pa | burst | rampDown | gap | abbrev | paOff | trOff
  deriving DecidableEq, Repr

/-- The burst command in hand (R304 to R310, R321). `phaseAt` is the real tick of the last phase change, `burstAt`
that of the present burst's T0, `planned` the planned key-up, `holdFrom` the TB from which its hold runs (R302, R316),
`rampSym` the symbol at which the ramp-down of the present burst began and `gFrom` the value of g then (R309), `tagging` that
the MAC engine still makes the tag (R241), `inhibit` that an amplifier fault was declared (R317). -/
structure TxCmd where
  cmd : CmdRef
  auth : Bool
  priority : Bool
  type : Nat
  network : Nat
  seq : Nat
  label : Byte
  tagLen : Nat
  freq : Nat
  level : BitVec 16
  atTb : Nat
  holdFrom : Nat
  planned : Nat
  message : List Byte
  counter : Nat
  holdUs : Nat
  rampUs : Nat
  symrate : Nat
  coexLead : Nat
  trLead : Nat
  paLead : Nat
  biasMv : Nat
  gntWait : Nat
  gntIgnore : Bool
  revMax : Nat
  fwdMin : Nat
  tokens : Nat
  statusQueue : Fin 256
  change : Bool
  late : Bool
  waited : Bool
  abbreviated : Bool
  emitted : Bool
  burst : Nat
  sent : Nat
  keyup : Nat
  startTb : Nat
  endTb : Nat
  phase : TxPhase
  phaseAt : Nat
  burstAt : Nat
  rampSym : Nat
  gFrom : Int
  cut : Bool
  stage : Nat
  status : Byte
  paRose : Bool
  tagging : Bool
  inhibit : Bool
  fwd : Nat
  rev : Nat
  deriving DecidableEq, Repr

/-- A priority receive window (R315). `ungranted` is the time without the grant up to `mark`, in ticks. -/
structure RxWin where
  cmd : CmdRef
  start : Nat
  stop : Nat
  priority : Bool
  opened : Bool
  ungranted : Nat
  mark : Nat
  deriving DecidableEq, Repr

/-- The transmitter and the TXC registers (R298 to R323). `calFreq` is the frequency the synthesiser
was last calibrated for, 0 when no calibration is valid (R301); `wantFreq` the one it is locking on. `removed` and
`recal` say that a lock-up has removed or changed the transmitter while a command was in hand (R74, R301).
`resetAfter` says what waits for the abbreviated ramp-down of a burst (R320): the LAST_RESET code of a slice reset,
0xE for a power-down (R394), 0xF for the entry to FAULTED. -/
structure Tx where
  state : TxState
  events : Word
  cancelReq : Bool
  paCfg : Word
  coexCfg : Word
  senseCfg : Word
  paEn : Bool
  trSw : Bool
  coexReq : Bool
  coexPri : Bool
  paBias : Nat
  gnt : Bool
  sense : Option (Nat × Nat)
  lock : Bool
  calFreq : Nat
  wantFreq : Nat
  band : Nat
  div : Nat
  vcoInt : Nat
  vcoFrac : Nat
  lockUs : Nat
  lastRampDown : Nat
  cmd : Option TxCmd
  removed : Bool
  recal : Bool
  resetAfter : Option Nat
  windows : List RxWin
  failed : Nat
  sent : Nat
  synthNotReady : Nat
  coexDenied : Nat
  coexLost : Nat
  paFault : Nat
  lockLoss : Nat
  clockLoss : Nat
  deriving DecidableEq, Repr

/-! ### Audio port -/

/-- Audio half states (R339). -/
inductive HalfState where
  | off | stopped | starting | running | stopping | stalled | faulted
  deriving DecidableEq, Repr

/-- The zero-crossing gate of a half (R338): when it began, whether it opens or closes, per channel
whether it has switched, and each channel's last sample. -/
structure Gate where
  began : Nat
  opening : Bool
  chans : List Bool
  last : List (Option Word)
  deriving DecidableEq, Repr

/-- The gate of a change of source (R338): the source left, and per channel whether it has closed on that
source and whether it has opened on the new one, and its last sample. -/
structure SourceGate where
  began : Nat
  old : Option (Fin 48)
  closed : List Bool
  opened : List Bool
  last : List (Option Word)
  deriving DecidableEq, Repr

/-- One half of the audio port (R324 to R341). The FIFO holds the words of the enabled slots in order
(R336), `fifoTs` the stamp of each frame that was pushed and whether a slip fell on it; a frame is as many words as slots are enabled.
`refNum / refDen` is the reference period in ticks (R335); `lastStart` and `edge` are the real times of the last frame
start and of the last one or the entry to STARTING; `pins` holds the slots of the frame that is sent, none for high
impedance (R325); `measFrom` the first stamp of R332's window since the half last had no rate. -/
structure Half where
  state : HalfState
  fifo : List Word
  fifoTs : List (Nat × Bool)
  draining : Bool
  gate : Option Gate
  suspect : Bool
  start : Bool
  stop : Bool
  refNum : Nat
  refDen : Nat
  intervals : List Nat
  lastStart : Option Nat
  edge : Nat
  stamps : List Nat
  measFrom : Nat
  sinceSlip : Nat
  slipped : Bool
  lastFrame : List Word
  pins : List (Option Word)
  glitch : Nat
  slips : Nat
  xrun : Nat
  stalls : Nat
  grid : Option Grid
  deriving DecidableEq, Repr

/-- The audio port (R328, R331): its halves, the source that the transmit half carries, the gate of a
change of source, the context whose alert holds the port (R231), and the capture's open record and the
frames it missed. -/
structure Sai where
  tx : Half
  rx : Half
  events : Word
  source : Option (Fin 48)
  srcGate : Option SourceGate
  alertCtx : Option (Fin 256)
  rxAudio : Option OpenAudio
  missed : Nat
  missedTs : Nat
  deriving DecidableEq, Repr

end Sys2Proof.Machine
end

