-- ==== Sys2Proof/Machine/State.lean ====
section
/-! DEFINITION. The state of the whole block, its faults and refusals, and the state after reset. -/

namespace Sys2Proof.Machine

open Sys2Proof

/-- Faults: commands that the manual gives no effect at all. No meaning of this model ends in one:
the manual gives every command an effect, so the type has no constructor. -/
inductive Fault where
  deriving DecidableEq, Repr

/-- Refusals. -/
inductive Refusal where
  /-- A command without a meaning yet, raised by `exec` alone; safe. -/
  | notModelled (mnemonic : String)
  deriving DecidableEq, Repr

/-- One slice (R18, R23): a cartridge and everything in it, with what the supervisor keeps for its
bay. -/
structure Slice where
  ctl : Ctl
  cart : Option Cartridge
  shadow : Shadow
  clk : Clk
  afe : Afe
  tun : Vector Tuning 32
  grpPeak : Vector Nat 3
  inst : Vector Inst 48
  cands : Vector Inst 32
  candInfo : Vector (Option CandInfo) 32
  acq : Vector Acq 48
  candAcq : Vector Acq 32
  trl : Trl
  ctx : Vector Ctx 256
  af : Vector Af 48
  mac : Mac
  tx : Tx
  sai : Sai
  err : Err
  sram : List Host.Cell
  deriving DecidableEq, Repr

/-- The state of the module. `out`, `readData` and `free` are the model's own fields: the outward
effects of the last command, the bytes that the last read returned, lowest address first, and the counter that free values read.
`real` counts real ticks since power-up, the RTC's time (R397). -/
structure State where
  pending : List Instr
  slices : Vector Slice 4
  queues : Vector Queue 256
  qmg : Qmg
  tbm : Tbm
  trk : Trk
  pwr : Pwr
  mod : Mod
  fea : Fea
  fls : Fls
  calStore : List (Nat × CalStore)
  mailbox : Mailbox
  errm : Errm
  tap : Tap
  bsr : BitVec 114
  sched : Vector Sched 4
  evt : Vector EvtPin 8
  evtPins : Byte
  real : Nat
  readData : List Byte
  out : List Output
  free : Nat
  deriving DecidableEq, Repr

/-! ### Reset

Each part right after module reset with cause 0x0 (R12, R381). Where the manual gives a register no
reset value the log entries 6 to 8 name the value taken. -/

/-- A queue after module reset (R297). `slice` says that a slice owns it: its VECTOR starts at 4. -/
def Queue.reset (slice : Bool) : Queue :=
  { en := false, flush := false, ringLo := 0, ringHi := 0, ringCfg := 0x00C80108,
    irq := if slice then 0x00003204 else 0x00003200, events := 0, seq := 0, shedCnt := 0,
    prod := 0, cons := 0, peak := 0, staged := [], headShed := none, headOnly := false, buf := none,
    xfer := none, irqLast := none, irqOwed := false, capWait := false, inHand := none,
    outstanding := [], held := [] }

/-- QMG after module reset (R297): the host port is in reset until it leaves it (R273). -/
def Qmg.reset : Qmg :=
  { linkUp := false, linkWidth := 0, linkSpeed := 0, mps := 128, inReset := true, events := 1,
    dmaWeight := 0x00040410, rawCap := 0x4B0, blkIrq := 0, dmaBytes := Vector.replicate 3 0,
    dmaKb := Vector.replicate 3 0, hostResets := 0, roundClass := 0, roundUsed := 0,
    dmaPtr := Vector.replicate 3 0, rawWindow := 0, rawUsed := 0,
    msixTable := ⟨(List.replicate 64 [0, 0, 0, 1]).flatten.toArray, by decide +kernel⟩, msixPba := 0 }

/-- TBM after module reset (R89, R95, R109): FREERUN, uptime origin, no timing slice. -/
def Tbm.reset : Tbm :=
  { tb := 0, tbHi := 0, origin := false, originAt := 0, state := .freerun, source := 0, lost := 0, timing := none,
    qual := Vector.replicate 4 false, since := Vector.replicate 4 0, holdSince := 0,
    cfg := 0x000A1F00, slewLimit := 0x400, offset := 0, slewing := false, slewAcc := 0, offHi := 0,
    holdsAt := none, step := none, hold := none, refDelay := 0, tcDelay := 0, todLo := 0, tod := none,
    refinOk := false, ppsExpect := none, ppsGood := 0, ppsLast := 0, events := 0, ppsAccepted := 0,
    ppsIgnored := 0, holdoverCfg := 0x18, utcOffset := 0x25, srcOff := Vector.replicate 4 0, replan := false,
    warps := [], moved := 0, everLocked := false }

/-- A trunk port after module reset (R354, R366). -/
def Port.reset : Port :=
  { state := .down, link := false, nbAddr := 0, nbDepth := 0xFF, nbCrown := 0, nbUp := false,
    nbHeard := false, heard := 0, flashAt := none, t1 := 0, t2 := 0, t3 := 0, reqSeq := 0, t4 := 0, t4seq := 0, delays := [],
    offset := none, syncGood := 0, syncFirst := 0, asym := 0, rxCnt := 0, txCnt := 0, crcErr := 0,
    aborted := 0, dropControl := 0, dropService := 0, dropBulk := 0, noRoute := 0, preempted := 0,
    downs := 0, qTime := none, qControl := [], qService := [], qBulk := [], sending := none,
    ended := none, ptr := Vector.replicate 4 0 }

/-- TRK after module reset, with the defaults of R366 where flash holds nothing. -/
def Trk.reset : Trk :=
  { cfg := 0x534, addr := 0, regCfg := 0xF, events := 0, tree := .detached, depth := 0xFF,
    upPort := none, crown := 0, reparent := false, detachedAt := 0, timeReal := 0, canAttach := false, regEarly := 0,
    regRejected := 0, regDone := 0, regNextHi := 0, topoCnt := 0, expDropped := 0, expSent := 0,
    pending := [], lastRegIn := none, kept := none, crownExt := false, crownSrc := 0, ports := Vector.replicate 3 Port.reset,
    exports := Vector.replicate 32 { queue := 0, enable := false, dest := 0 }, transfers := [],
    push := none }

/-- PWR after module reset (R368, R380): the fixed reservation of 40 tokens is held. -/
def Pwr.reset : Pwr :=
  { events := 0, budget := 0x01900230,
    held := (Vector.replicate 18 0).set 0 40, want := Vector.replicate 18 0,
    rel := Vector.replicate 18 0, ptr := Vector.replicate 4 0, rxAsk := Vector.replicate 4 .none,
    cls := .normal, ac := false, freq := 0, inputDv := 0, drawNow := 0, drawPeak := 0, aux := .off,
    auxMa := 0, refused := 0, txExpired := 0, railMv := Vector.replicate 8 0,
    railOk := Vector.replicate 8 false, lowSince := none, goodSince := none, backSince := none, saved := none }

/-- MOD after module reset (R385): image A runs, its major version 3 (R1); image B is empty. -/
def Mod.reset : Mod :=
  { ready := false, resetCause := 0, image := false, selected := false, fallback := false,
    swapping := none, activate := none, pushed := none, busyWrite := false, events := 0,
    images := (Vector.replicate 2 none).set 0
      (some { major := 3, minor := Config.fwMinor.toNat, patch := Config.fwPatch.toNat,
              build := Config.fwBuild, bytes := Config.fwBytes }),
    load := none, heldRecs := [], heldDone := [] }

/-- FEA after module reset (R391). -/
def Fea.reset : Fea :=
  { accept := Vector.replicate 4 0, committed := false, fromFlash := false, events := 0, saved := none }

/-- FLS after module reset (R398), the flash empty but for the running image. -/
def Fls.reset : Fls :=
  { events := 0, limit := 8192, jobs := [], running := false, log := [], imgLog := [],
    uncorrected := 0, corrected := 0, library := Vector.replicate 64 none,
    asymSaved := Vector.replicate 3 0, trkSaved := none }

/-- The mailbox after module reset (R390). -/
def Mailbox.reset : Mailbox :=
  { opcode := 0, go := false, taken := false, reject := false, status := 0, result := 0, body := Vector.replicate 16 0 }

/-- ERRM after module reset (R419). -/
def Errm.reset : Errm :=
  { faulted := 0, events := 0, unmapped := 0, access := 0, addr := none, supEcc := 0, lost := 0,
    made := 0, esc := Vector.replicate 4 0, marks := [] }

/-- The access port after its reset (R426): IDCODE in force. -/
def Tap.reset : Tap :=
  { ir := 0x02, extest := false, regAddr := 0, regWrite := false, regData := 0, regStatus := 0,
    keyload := List.replicate 12 0, bridge := 0, dr := 0 }

/-- CTL after module reset (R36 to R40). DESIGN CHOICE: CTL.ID reads part code and issue 0 until the bay is identified;
R36 says only that the two are loaded (log entry 71). -/
def Ctl.reset : Ctl :=
  { state := .reset, present := true, feedOn := false, issue := 0, part := 0, lastReset := 0,
    resetReq := false, bgCfg := 0x0801, capHit := false, cfgReject := false, scrubPasses := 0,
    scrubNext := 0, bgWindow := 0, bgGrants := Vector.replicate 16 0, onReq := false, offReq := false,
    offAt := 0, ranForme := false, escTimes := [] }

/-- The shadow store without a forme. -/
def Shadow.reset : Shadow :=
  { active := none, bad := false, lostCrc := none, reload := none, boot := none,
    area := .empty, timedOut := false, cellBase := Vector.replicate 48 none,
    firBase := Vector.replicate 32 none, spare := [] }

/-- CLK after slice reset (R108), at a centre value of 0x8000. -/
def Clk.reset : Clk :=
  { lock := false, bypass := false, coast := false, aligned := false, rail := false, suspect := false,
    goodEpochs := 0, events := 0, cfg := 0x00800020, ctrl := 0x8000, ctrlHist := [], phaseErr := 0,
    phaseTrim := 0, trimNow := 0, fine := 0, assist := 0, relockFail := 0, lockLoss := 0, lastLoss := 0, declared := 0,
    lastAttempt := 0, loadAt := none, reregAt := none, centre := 0x8000 }

/-- A calibration record that holds nothing (R132). -/
def CalStore.empty : CalStore :=
  { adc := none, flat := none, tuner := none, tunerFreq := 0 }

/-- AFE after slice reset (R136). -/
def Afe.reset : Afe :=
  { events := 0, agcMode := none, atten := 31, lnaByp := false, preselected := false, band := 0,
    gainPend := [], agcCfg := 0x0064630F, agcLimits := 0x1F00, powerCb := 0xFFFF, acquire := false,
    quietSince := 0, windowDirty := false, windowStart := 0, lastAttack := none, tuner := 0, tunerNow := 0,
    tunerFreq := 0, searching := false, monCfg := 0x0A40003C, monFreq := 0, measuredAt := none,
    rl := 0xFFFF, mismatch := false, calPend := [], calRun := none, calEnd := none, calCmds := [],
    calHeld := [], calLosses := [], adcOffset := 0, adcGain := 0, latency := 0, stepSizes := [], gains := [],
    vcoBands := 0, gainSteps := 0, attacks := 0, clips := 0, clipSeen := 0,
    bgAbandoned := 0, bgTrims := 0, bgRun := false, bgStart := 0, bgDc := [], disturbed := [], zeroed := [] }

/-- A chain with zeroed state (R150). -/
def Chain.zero (at_ : Nat) (phase0 : Word) : Chain :=
  { at_ := at_, n := 0, phi := phase0, integ := List.replicate 5 ⟨0, 0⟩, comb := List.replicate 5 ⟨0, 0⟩,
    hb1 := List.replicate 19 ⟨0, 0⟩, hb2 := List.replicate 43 ⟨0, 0⟩,
    fir := List.replicate 255 ⟨0, 0⟩, sat := List.replicate 4 none }

/-- A tuning after slice reset (R149, R156). -/
def Tuning.reset : Tuning :=
  { events := 0, faulted := false, ncoReg := 0, ncoNow := 0, ncoPend := none, bank := false,
    target := false, bankPend := none, xfade := none, heldReq := none, coef := Vector.replicate 2 [],
    coefCrc := Vector.replicate 2 0, index := 0, indexHi := 0, chain := Chain.zero 0 0, lastTs := none,
    resetAt := [], tails := [], gapped := false, regEdge := false, unsettled := 0, unsettledNow := false, lastClip := none,
    dc := ⟨0, 0⟩, dcPend := none, swaps := 0, superseded := 0, sats := 0, openRec := none,
    buffer := [], fresh := [], closing := [] }

/-- An instance that no forme declares (R180). -/
def Inst.reset : Inst :=
  { declared := false, state := .stopped, events := 0, since := 0, runs := Vector.replicate 4 0, pilot := false,
    erasing := false, audioMuted := false, freqErr := 0x80000000, clockErr := 0x80000000,
    level := 0x80008000, quality := 0xFFFF8000, unitOk := 0, unitFail := 0, erased := 0, locks := 0,
    losses := 0, pstat0 := 0, pstat1 := 0, muted := 0, grid := none, audio := none, clean := 0, erasedRuns := [],
    measuredAt := none, badRun := 0, idle := 0, lowSince := none, violations := [], deaf := false, envelope := false,
    ramp := 0, robust := 0, occ := 7, rotation := 0, gridShift := 0, seconds := [], berErr := 0, berSeen := 0,
    ident := 0 }

/-- An acquirer at the start of its instance (R193, R207). -/
def Acq.reset : Acq :=
  { acq := .idle, events := 0, rssi := none, noise := [], dirty := false, rewindow := false, burst := none, tails := [],
    lastSync := 0, lastSyncHi := 0, falseTrig := 0, triggers := 0, hdrFail := 0, hdrOk := 0,
    payFail := 0, payOk := 0, missed := 0, captured := 0, aborted := 0, reacquired := 0, lastPass := 0,
    offsets := [], lastAbove := none, winStop := none, recent := [], riseRun := 0, capRun := 0, trigAt := 0, capAt := none,
    lowest := none, since := 0, lastValue := none }

/-- The trellis decoders after reset (R28, R206). -/
def Trl.reset : Trl :=
  { ptr := 0, run := Vector.replicate 2 none, wait := [], events := 0, segs := Vector.replicate 2 0,
    loadNow := 0, loadPm := 0, peakPm := 0, waitMax := 0, resets := 0 }

/-- No alert (R230). -/
def AlertState.none : AlertState :=
  { active := false, kind := 0, level := 0, group := 0, pty31 := 0, ptyOther := 0, cluster := 0,
    lastFig := 0, routed := false }

/-- A context after slice reset (R208, R239). -/
def Ctx.reset : Ctx :=
  { faulted := false, events := 0, msgOk := 0, msgFail := 0, nextId := 0,
    rds := Vector.replicate 4 [], odaGroup := none, oda := none, apd := ⟨[], none⟩, ldb := none,
    env := none, queued := [], lastTime := none, timeReal := 0, offered := false, timeOff := 0,
    badFrames := 0, alert := AlertState.none, spec := false }

/-- An AF process that is OFF (R222, R239). -/
def Af.reset : Af :=
  { state := .off, lead := 0, events := 0, lists := Vector.replicate 4 [], tried := [], ref := none,
    lastRead := none, primaryHz := 0, outSince := none, checkAt := 0, checkFreq := 0, lastSwitch := 0,
    held := [], heldShed := [], cand := none, specTb := 0, specSeqs := [], homing := false, deferred := [],
    provisional := [], alerts := [], undone := 0, switches := 0, failed := 0, passed := 0 }

/-- The scheduler's part of a slice after module reset (R239). -/
def Sched.reset : Sched :=
  { entries := [], claim := 0, events := 0, cfg := 0x3C, late := 0, executed := 0, rejected := 0,
    cancelled := 0, dups := 0, nextHi := 0 }

/-- A slot that has never been written (R243). -/
def KeySlot.fresh : KeySlot :=
  { key := List.replicate 16 0, aes256 := false, usage := 0, minTag := 0, generation := 0, txCounter := 0,
    state := .empty, eraseCause := 0, crc := 0x8324661C, par := 0x900000000000 }

/-- The MAC block before the mirror is loaded (R269). -/
def Mac.reset : Mac :=
  { slots := Vector.replicate 64 KeySlot.fresh, replay := [], ptr := 0, ops := [], blocked := 0,
    alarmIn := false, erasing := false, eraseCause := 0, events := 0, erases := 0, lastCause := 0,
    alarmTb := 0, alarmHi := 0, ctrHi := Vector.replicate 64 0, busy := 0, loadPm := 0, peakPm := 0,
    pass := 0, replayFail := 0, tagFail := 0, keyFail := 0, formatFail := 0, generated := 0,
    genFail := 0 }

/-- The transmitter after slice reset (R298, R323). -/
def Tx.reset : Tx :=
  { state := .disabled, events := 0, cancelReq := false, paCfg := 0x8000140A,
    coexCfg := 0x03E8, senseCfg := 0, paEn := false, trSw := false, coexReq := false, coexPri := false,
    paBias := 0, gnt := false, sense := none, lock := false, calFreq := 0, wantFreq := 0, band := 0xFF,
    div := 0, vcoInt := 0, vcoFrac := 0, lockUs := 0, lastRampDown := 0, cmd := none, removed := false,
    recal := false, resetAfter := none, windows := [], failed := 0, sent := 0, synthNotReady := 0, coexDenied := 0,
    coexLost := 0, paFault := 0, lockLoss := 0, clockLoss := 0 }

/-- An audio half that is OFF (R339). -/
def Half.reset : Half :=
  { state := .off, fifo := [], fifoTs := [], draining := false, gate := none, suspect := false,
    start := false, stop := false, refNum := 0, refDen := 1, intervals := [], lastStart := none,
    edge := 0, stamps := [], measFrom := 0, sinceSlip := 4, slipped := false, lastFrame := [],
    pins := [], glitch := 0, slips := 0, xrun := 0, stalls := 0, grid := none }

/-- The audio port after slice reset (R341). -/
def Sai.reset : Sai :=
  { tx := Half.reset, rx := Half.reset, events := 0, source := none, srcGate := none,
    alertCtx := none, rxAudio := none, missed := 0, missedTs := 0 }

/-- ERR after module reset (R417). -/
def Err.reset : Err :=
  { events := 0, busCnt := 0, memCnt := 0, sliceResets := 0, blockResets := 0, unmapped := 0,
    access := 0, addr := none, faultedEsc := false, retired := [], selfTestRetired := [],
    spares := Vector.replicate 16 4, isolated := [], isolatedFir := [], isolatedFifo := [], inject := none, badWords := [],
    cellErrs := [], blockErrs := [], busErrs := [], resetting := [], busRetry := false }

/-- The cartridge that bay `c` holds at reset (log entry 6): an SX7464 slice with nothing in its
mirror. -/
def Cartridge.fitted (c : Nat) : Cartridge :=
  { id := c, part := 0x7464, issue := Config.cartIssue, slots := List.replicate 64 KeySlot.fresh,
    replay := [], marker := false, erases := 0, lastCause := 0 }

/-- A slice after module reset. -/
def Slice.reset (c : Nat) : Slice :=
  { ctl := Ctl.reset, cart := some (Cartridge.fitted c), shadow := Shadow.reset, clk := Clk.reset,
    afe := Afe.reset, tun := Vector.replicate 32 Tuning.reset, grpPeak := Vector.replicate 3 0,
    inst := Vector.replicate 48 Inst.reset, cands := Vector.replicate 32 Inst.reset,
    candInfo := Vector.replicate 32 none, acq := Vector.replicate 48 Acq.reset,
    candAcq := Vector.replicate 32 Acq.reset, trl := Trl.reset, ctx := Vector.replicate 256 Ctx.reset,
    af := Vector.replicate 48 Af.reset, mac := Mac.reset, tx := Tx.reset, sai := Sai.reset,
    err := Err.reset, sram := [] }

/-- The module right after reset with cause 0x0 (R381, R382): before start-up step 6. -/
def State.reset : State :=
  { pending := [],
    slices := ⟨#[Slice.reset 0, Slice.reset 1, Slice.reset 2, Slice.reset 3], rfl⟩,
    queues := ⟨(List.replicate 16 (Queue.reset false) ++ List.replicate 240 (Queue.reset true)).toArray,
      by rw [List.size_toArray, List.length_append, List.length_replicate, List.length_replicate]⟩,
    qmg := Qmg.reset, tbm := Tbm.reset, trk := Trk.reset, pwr := Pwr.reset, mod := Mod.reset,
    fea := Fea.reset, fls := Fls.reset, calStore := [], mailbox := Mailbox.reset, errm := Errm.reset,
    tap := Tap.reset, bsr := 0, sched := Vector.replicate 4 Sched.reset,
    evt := Vector.replicate 8 { level := false, pulse := none }, evtPins := 0, real := 0,
    readData := [], out := [], free := 0 }

end Sys2Proof.Machine
end

