-- ==== Sys2Proof/Machine/Flags.lean ====
section
/-! DEFINITION. Event bits and their messages: setting and clearing bits of EVENTS registers (R10), the
groups of R296, and the MSI-X table and PBA. -/

namespace Sys2Proof.Machine

open Sys2Proof

/-- An EVENTS register with bit `i` set. -/
def raise (w : Word) (i : Nat) : Word := w ||| BitVec.ofNat 32 (2 ^ i)

/-- An EVENTS register after a write: each 1 clears its bit (W1C of R10). -/
def w1c (w v : Word) : Word := w &&& ~~~v

/-- A counter of `n` bits after `k` more events (R11). -/
def count (n k c : Nat) : Nat := sat n (c + k)

/-- The EVENTS registers in the group of a block-event vector (R296), in a fixed order. -/
def groupEvents (s : State) (v : Nat) : List Word :=
  if v = 0 then s.errm.events :: s.slices.toList.flatMap (fun x => [x.err.events, x.mac.events])
  else if v = 1 then s.tbm.events :: s.trk.events :: s.slices.toList.map (fun x => x.clk.events)
  else if v = 2 then [s.mod.events, s.fea.events, s.pwr.events, s.fls.events]
  else s.qmg.events :: s.queues.toList.map (fun q => q.events)
    ++ s.sched.toList.map (fun d => d.events)
    ++ s.slices.toList.flatMap (fun x =>
      [mkWord [(17, 1, b2n x.ctl.capHit), (16, 1, b2n x.ctl.cfgReject)], x.afe.events, x.trl.events,
        x.tx.events, x.sai.events]
      ++ x.tun.toList.map (fun t => t.events) ++ x.inst.toList.map (fun n => n.events)
      ++ x.cands.toList.map (fun n => n.events) ++ x.acq.toList.map (fun a => a.events)
      ++ x.ctx.toList.map (fun k => k.events) ++ x.af.toList.map (fun a => a.events))

/-- Whether some bit of a group went from 0 to 1. -/
def rose (a b : List Word) : Bool := (a.zip b).any (fun p => (p.2 &&& ~~~p.1) != 0)

/-- Whether vector `v` is masked in the MSI-X table: bit 0 of its vector control (R296). -/
def msixMasked (m : Qmg) (v : Nat) : Bool := bit (vget m.msixTable (4 * v + 3) 1) 0

/-- A message of vector `v`: sent, or left pending in the PBA while the vector is masked (R296). -/
def sendMsix (v : Nat) (s : State) : State :=
  if msixMasked s.qmg v then
    { s with qmg := { s.qmg with msixPba := s.qmg.msixPba ||| BitVec.ofNat 64 (2 ^ v) } }
  else { s with out := s.out ++ [.msix v] }

/-- The block-event messages of a command (R296): `old` is the state before it. -/
def blockIrqs (old s : State) : State :=
  if s.qmg.blkIrq = 0 then s
  else [0, 1, 2, 3].foldl (fun t v =>
    if bit s.qmg.blkIrq v && rose (groupEvents old v) (groupEvents s v) then sendMsix v t else t) s

end Sys2Proof.Machine
end

