-- ==== Sys2Proof/Machine/Crc.lean ====
section
/-! DEFINITION. The check codes of the module: CRC-32 (R51), CRC-32C (R285) and the CRC-16 of APD
frames and LDB headers (R187, R214). -/

namespace Sys2Proof.Machine

open Sys2Proof

/-- `n` bits of a reflected CRC register. -/
def crcShift (poly : Nat) : Nat → Nat → Nat
  | 0, c => c
  | n + 1, c => crcShift poly n (if c % 2 = 1 then (c / 2) ^^^ poly else c / 2)

/-- A reflected 32-bit CRC register after the bytes. -/
def crcFold (poly : Nat) : Nat → List Byte → Nat
  | c, [] => c
  | c, b :: bs => crcFold poly (crcShift poly 8 (c ^^^ b.toNat)) bs

/-- The CRC-32 of R51: polynomial 0x04C1_1DB7, reflected. -/
def crc32 (bs : List Byte) : Nat := crcFold 0xEDB88320 0xFFFFFFFF bs ^^^ 0xFFFFFFFF

/-- The CRC-32C of R285: polynomial 0x1EDC_6F41, reflected. -/
def crc32c (bs : List Byte) : Nat := crcFold 0x82F63B78 0xFFFFFFFF bs ^^^ 0xFFFFFFFF

/-- One bit of the CRC-16 register, most significant bit first. -/
def crc16Bit (c : Nat) (b : Bool) : Nat :=
  let d := (c * 2) % 0x10000
  if (c / 0x8000 + b2n b) % 2 = 1 then d ^^^ 0x1021 else d

/-- The CRC-16 with polynomial 0x1021 and initial value 0xFFFF over bits, first bit first. -/
def crc16Bits (bs : List Bool) : Nat := bs.foldl crc16Bit 0xFFFF

/-- The same CRC-16 over bytes, most significant bit first. -/
def crc16 (bs : List Byte) : Nat := crc16Bits (bs.flatMap bitsOfByte)

end Sys2Proof.Machine
end

