-- ==== Sys2Proof/Machine/Forme.lean ====
section
/-! DEFINITION. Reading a forme: its records (R49, R54), the fields of every payload (R55 to R68), and
its bytes (R48 to R51). -/

namespace Sys2Proof.Machine

open Sys2Proof

/-! ### Records -/

/-- The payload of the record of a type and key, if the forme declares it. -/
def Forme.find (f : Forme) (ty key : Nat) : Option (List Byte) :=
  (f.recs.find? (fun r => r.type == ty && r.key == key)).map (fun r => r.payload)

/-- Whether the forme declares an element. -/
def Forme.has (f : Forme) (ty key : Nat) : Bool := (f.find ty key).isSome

/-- The records of a type, in order of key. -/
def Forme.ofType (f : Forme) (ty : Nat) : List FormeRec := f.recs.filter (fun r => r.type == ty)

/-- The keys of a type, rising. -/
def Forme.keys (f : Forme) (ty : Nat) : List Nat := (f.ofType ty).map (fun r => r.key)

/-- The payload of the SLICE record. -/
def Forme.sl (f : Forme) : List Byte := (f.find 1 0).getD []

/-! ### SLICE (R55) -/

def Forme.concMode (f : Forme) : Nat := u8 f.sl 0
def Forme.feMode (f : Forme) : Nat := u8 f.sl 1
def Forme.preselBand (f : Forme) : Nat := u8 f.sl 2
def Forme.calBg (f : Forme) : Bool := (u8 f.sl 3).testBit 0
def Forme.spareTunings (f : Forme) : Nat := u32 f.sl 4
def Forme.spareCells (f : Forme) : Nat := u8 f.sl 8
def Forme.evtClaim (f : Forme) : Nat := u8 f.sl 9
def Forme.rxTokens (f : Forme) : Nat := u16 f.sl 10
def Forme.txTokens (f : Forme) : Nat := u16 f.sl 12
def Forme.agcManual (f : Forme) : Bool := u8 f.sl 14 == 1
def Forme.attenDb (f : Forme) : Nat := u8 f.sl 15

/-! ### TUNING, COEF and NARROW_GROUP (R56 to R58) -/

def Forme.tn (f : Forme) (t : Nat) : List Byte := (f.find 2 t).getD []
def tnEnable (p : List Byte) : Bool := u8 p 1 == 1
def tnTaps (p : List Byte) : Nat := u16 p 2
def tnFreq (p : List Byte) : Nat := u32 p 4
def tnPhase0 (p : List Byte) : Nat := u32 p 8
def tnCic (p : List Byte) : Nat := u16 p 12
def tnFir (p : List Byte) : Nat := u8 p 14
def tnStartB (p : List Byte) : Bool := u8 p 15 == 1
def tnXfade (p : List Byte) : Nat := u16 p 16
def tnBufKib (p : List Byte) : Nat := u16 p 18
def tnQueue (p : List Byte) : Nat := u8 p 20
def tnCicShift (p : List Byte) : Nat := u8 p 21
def tnFirShift (p : List Byte) : Nat := u8 p 22

/-- The CIC decimation of a tuning: its own, or its group's (R56, R58). -/
def Forme.cic (f : Forme) (t : Nat) : Nat :=
  if t < 8 then tnCic (f.tn t) else u16 ((f.find 13 ((t - 8) / 8)).getD []) 0

/-- The FIR decimation of a tuning. -/
def Forme.fir (f : Forme) (t : Nat) : Nat :=
  if t < 8 then tnFir (f.tn t) else u8 ((f.find 13 ((t - 8) / 8)).getD []) 2

/-- The output period of a tuning in ticks (R69). -/
def Forme.period (f : Forme) (t : Nat) : Nat := f.cic t * 4 * f.fir t

/-- The coefficients of a bank as declared, each a 20-bit code (R57). -/
def Forme.coefs (f : Forme) (t b : Nat) : List (BitVec 20) :=
  match f.find 3 (2 * t + b) with
  | none => []
  | some p => (List.range ((u16 p 0 + 1) / 2)).map (fun i => BitVec.ofNat 20 (u32 p (4 + 4 * i)))

/-! ### DEMOD (R59) -/

def Forme.dm (f : Forme) (n : Nat) : List Byte := (f.find 4 n).getD []
def dmProfile (p : List Byte) : Nat := u8 p 0
def dmTuning (p : List Byte) : Nat := u8 p 1
def dmCellBase (p : List Byte) : Nat := u8 p 2
def dmCells (p : List Byte) : Nat := u8 p 3
def dmAudioOut (p : List Byte) : Bool := u8 p 4 == 1
def dmParams (p : List Byte) : List Byte := p.drop 8

/-- The DEMOD keys whose source is tuning `t`. -/
def Forme.instOf (f : Forme) (t : Nat) : List Nat :=
  ((f.ofType 4).filter (fun r => dmTuning r.payload == t)).map (fun r => r.key)

/-! ### CONTEXT and KEYMAP (R61, R62) -/

def Forme.cx (f : Forme) (x : Nat) : List Byte := (f.find 5 x).getD []
def cxParser (p : List Byte) : Nat := u8 p 0
def cxDemod (p : List Byte) : Nat := u8 p 1
def cxDelivery (p : List Byte) : Nat := u8 p 2
def cxQueue (p : List Byte) : Nat := u8 p 3
def cxSelector (p : List Byte) : Nat := u32 p 4
def cxAlert (p : List Byte) : Bool := u8 p 8 == 1

/-- The contexts that an instance feeds, rising. -/
def Forme.contextsOf (f : Forme) (n : Nat) : List Nat :=
  ((f.ofType 5).filter (fun r => cxDemod r.payload == n)).map (fun r => r.key)

/-- The labels of a key map with their slots. -/
def kmLabels (p : List Byte) : List (Nat × Nat) :=
  (List.range (u16 p 0)).map (fun i => (u8 p (4 + 4 * i), u8 p (5 + 4 * i)))

/-- The slot that a context maps a label to. -/
def Forme.slotOf (f : Forme) (x label : Nat) : Option Nat :=
  match f.find 6 x with
  | none => none
  | some p => ((kmLabels p).find? (fun l => l.1 == label)).map (fun l => l.2)

/-! ### QUEUE, EVENT_RULE, AF_POLICY (R63 to R65) -/

def quPolicyOld (p : List Byte) : Bool := u8 p 1 == 1
def quClass (p : List Byte) : Nat := u8 p 2

def Forme.rule (f : Forme) (r : Nat) : List Byte := (f.find 8 r).getD []
def ruPin (p : List Byte) : Nat := u8 p 0
def ruContext (p : List Byte) : Nat := u8 p 1
def ruAction (p : List Byte) : Nat := u8 p 2
def ruAuth (p : List Byte) : Bool := u8 p 3 == 1
def ruMatch (p : List Byte) : Nat := u32 p 4
def ruPulseUs (p : List Byte) : Nat := u32 p 8

def afMethods (p : List Byte) : Nat := u8 p 0
def afMaxCand (p : List Byte) : Nat := u8 p 1
def afHystCb (p : List Byte) : Nat := u16 p 2
def afHoldMs (p : List Byte) : Nat := u16 p 4
def afCheckMs (p : List Byte) : Nat := u16 p 6

/-! ### TX_PROFILE, AUDIO, HOST_REGION (R66 to R68) -/

def Forme.tx (f : Forme) : Option (List Byte) := f.find 10 0
def txFreq (p : List Byte) : Nat := u32 p 0
def txChannel (p : List Byte) : Nat := u8 p 4
def txSymrate (p : List Byte) : Nat := u8 p 5
def txLevel (p : List Byte) : Nat := u16 p 6
def txRampUs (p : List Byte) : Nat := u16 p 8
def txCoexLead (p : List Byte) : Nat := if u16 p 10 = 0 then 100 else u16 p 10
def txHoldMax (p : List Byte) : Nat := if u16 p 12 = 0 then 2000 else u16 p 12
def txGenSlot (p : List Byte) : Nat := u8 p 14
def txCmdQueue (p : List Byte) : Nat := u8 p 15
def txStatusQueue (p : List Byte) : Nat := u8 p 16

def Forme.audio (f : Forme) : Option (List Byte) := f.find 11 0
def auFormat (p : List Byte) : Nat := u8 p 0
def auWord (p : List Byte) : Nat := u8 p 1
def auSlots (p : List Byte) : Nat := if auFormat p = 2 then u8 p 2 else 2
def auTxMaster (p : List Byte) : Bool := (u8 p 3).testBit 0
def auRxMaster (p : List Byte) : Bool := (u8 p 3).testBit 1
def auRate (p : List Byte) : Nat := u32 p 4
def auTxMask (p : List Byte) : Nat := u8 p 8
def auRxMask (p : List Byte) : Nat := u8 p 9
def auZcMs (p : List Byte) : Nat := if u16 p 10 = 0 then 20 else u16 p 10
def auRxQueue (p : List Byte) : Nat := u8 p 12

/-- The host regions: SRAM offset and size. -/
def Forme.regions (f : Forme) : List (Nat × Nat) :=
  (f.ofType 12).map (fun r => (u32 r.payload 0, u32 r.payload 4))

/-! ### The bytes of a forme (R48 to R51) -/

/-- A record with its frame and CRC. -/
def FormeRec.bytes (r : FormeRec) : List Byte :=
  let b := le 2 r.type ++ [0, 0] ++ le 2 r.key ++ le 2 r.payload.length ++ r.payload
  b ++ le 4 (crc32 b)

/-- The bytes of a full forme up to and including END_MAGIC. -/
def formeBody (generation : Word) (name : List Byte) (recs : List FormeRec) : List Byte :=
  let rs := recs.flatMap FormeRec.bytes
  let h := le 4 0x464D4C51 ++ le 2 1 ++ [1, 0] ++ le 4 (48 + rs.length + 8) ++ le 4 recs.length
    ++ le 4 generation.toNat ++ le 4 0 ++ padTo 16 name
  h ++ le 4 (crc32 h) ++ le 4 0 ++ rs ++ le 4 0x444E4546

/-- All the bytes of a full forme. -/
def Forme.bytes (f : Forme) : List Byte :=
  formeBody f.generation f.name f.recs ++ le 4 f.crc.toNat

/-- The full forme of these records, its FORME_CRC computed. -/
def Forme.ofRecs (generation : Word) (name : List Byte) (recs : List FormeRec) : Forme :=
  { generation := generation, name := name, recs := recs,
    crc := BitVec.ofNat 32 (crc32 (formeBody generation name recs)) }

/-! ### Needs of a forme (R69, R370) -/

/-- Cells of all DEMOD records. -/
def Forme.demodCells (f : Forme) : Nat := ((f.ofType 4).map (fun r => dmCells r.payload)).sum

/-- TUNING records with ENABLE 1. -/
def Forme.running (f : Forme) : Nat := ((f.ofType 2).filter (fun r => tnEnable r.payload)).length

/-- The receive need of a forme in tokens (R370). -/
def Forme.rxNeed (f : Forme) : Nat :=
  38 + (if f.feMode = 0 then 8 else 10) + ceilDiv (36 * f.running) 32
    + ceilDiv (22 * (f.demodCells + f.spareCells)) 48

/-- The receive grant that a forme asks for (R370, R371). -/
def Forme.rxAsk (f : Forme) : Nat := if f.rxTokens = 0 then f.rxNeed else f.rxTokens

end Sys2Proof.Machine
end

