-- ==== Sys2Proof/Machine/Ops.lean ====
section
/-! DEFINITION. The named operations that every meaning is written with: how a command runs, slices and
queues, slice SRAM, power requests, and the time of the module. -/

namespace Sys2Proof.Machine

open Sys2Proof

/-! ### Running a command -/

/-- The outcome of a command whose effect is `f`: its outward effects start empty, the block events
that it raises send their messages (R296), and the queue of waiting commands is none of its business. -/
def run (s : State) (f : State → State) : Host.Outcome State Fault Refusal :=
  .next { blockIrqs s (f { s with out := [] }) with pending := s.pending }

/-- One more outward effect. -/
def State.emit (s : State) (o : Output) : State := { s with out := s.out ++ [o] }

/-! ### Slices and queues -/

/-- Slice `c`. -/
def State.sl (s : State) (c : Fin 4) : Slice := s.slices.get c

/-- The state with slice `c` replaced. -/
def State.setSl (s : State) (c : Fin 4) (x : Slice) : State :=
  { s with slices := s.slices.set c.val x c.isLt }

/-- The state with slice `c` changed by `f`. -/
def State.modSl (s : State) (c : Fin 4) (f : Slice → Slice) : State := s.setSl c (f (s.sl c))

/-- Every slice changed by a function of its number. -/
def State.modSlices (s : State) (f : Fin 4 → Slice → Slice) : State :=
  [0, 1, 2, 3].foldl (fun t c => t.modSl c (f c)) s

/-- Queue `q`. -/
def State.qu (s : State) (q : Fin 256) : Queue := s.queues.get q

/-- The state with queue `q` changed by `f`. -/
def State.modQ (s : State) (q : Fin 256) (f : Queue → Queue) : State :=
  { s with queues := s.queues.set q.val (f (s.qu q)) q.isLt }

/-- Queue number `n`, taken modulo 256. -/
def qn (n : Nat) : Fin 256 := Fin.ofNat 256 n

/-- The module queue number of local queue `q` of slice `c` (R274). -/
def localQ (c : Fin 4) (q : Nat) : Fin 256 := qn (16 + 60 * c.val + q)

/-- The slice that a queue belongs to and its local number, if it is no module queue (R274). -/
def queueOwner (q : Fin 256) : Option (Fin 4 × Nat) :=
  if q.val < 16 then none else some (Fin.ofNat 4 ((q.val - 16) / 60), (q.val - 16) % 60)

/-- Whether a queue is a command queue, fixed by its number (R274). -/
def queueIsCmd (q : Fin 256) : Bool :=
  match queueOwner q with
  | none => decide (12 ≤ q.val)
  | some (_, l) => decide (52 ≤ l)

/-- The forme that the slice has locked up (R72), in force or to be reloaded. -/
def Slice.forme (x : Slice) : Option Forme := x.shadow.active

/-- The payload of a record of the locked-up forme. -/
def Slice.find (x : Slice) (ty key : Nat) : Option (List Byte) := x.forme.bind (fun f => f.find ty key)

/-- Whether the locked-up forme is in force: the slice is RUNNING under it. -/
def Slice.live (x : Slice) : Bool := x.ctl.state == .running && x.forme.isSome

/-- The forme in force. -/
def Slice.inForce (x : Slice) : Option Forme := if x.ctl.state == .running then x.forme else none

/-- The forme whose elements the registers show (R35): the one in force, or in FAULTED the one that was. -/
def Slice.shown (x : Slice) : Option Forme :=
  match x.ctl.state with
  | .running => x.forme
  | .faulted => if x.ctl.ranForme then x.forme else none
  | _ => none

/-- The code of a slice state (R37). -/
def SliceState.code : SliceState → Nat
  | .absent => 0 | .held => 1 | .reset => 2 | .calibrating => 3 | .idle => 4 | .running => 5
  | .faulted => 6

/-- A slice whose registers are served (R35). -/
def SliceState.served (t : SliceState) : Bool := decide (3 ≤ t.code)

/-- Whether a queue takes records or commands (R274): module queues always, local queue 52 of a slice
from IDLE on, the others while the locked-up forme declares them. -/
def State.queueDeclared (s : State) (q : Fin 256) : Bool :=
  match queueOwner q with
  | none => true
  | some (c, l) =>
    if l = 52 then decide (4 ≤ (s.sl c).ctl.state.code) else ((s.sl c).find 7 l).isSome

/-- Whether a queue exists (R274): it is declared, or goes on only to deliver the record of a removed
cartridge (R394). -/
def State.queueExists (s : State) (q : Fin 256) : Bool := s.queueDeclared q || (s.qu q).headOnly

/-- Whether a queue is active (R276): it exists and its EN is 1. -/
def State.queueActive (s : State) (q : Fin 256) : Bool := s.queueExists q && (s.qu q).en

/-- Whether a record queue drops old records (R63, R275). -/
def State.queueOld (s : State) (q : Fin 256) : Bool :=
  match queueOwner q with
  | none => q.val == 5
  | some (c, l) => quPolicyOld (((s.sl c).find 7 l).getD [])

/-- The DMA class of a record queue that exists (R63, R275). -/
def State.queueClass (s : State) (q : Fin 256) : Nat :=
  match queueOwner q with
  | none => 0
  | some (c, l) => quClass (((s.sl c).find 7 l).getD [])

/-! ### Tables of a slice -/

def Slice.modTun (x : Slice) (t : Nat) (f : Tuning → Tuning) : Slice := { x with tun := vmod x.tun t f }
def Slice.tunAt (x : Slice) (t : Nat) : Tuning := vget x.tun t Tuning.reset
def Slice.modInst (x : Slice) (n : Nat) (f : Inst → Inst) : Slice := { x with inst := vmod x.inst n f }
def Slice.instAt (x : Slice) (n : Nat) : Inst := vget x.inst n Inst.reset
def Slice.modCand (x : Slice) (t : Nat) (f : Inst → Inst) : Slice := { x with cands := vmod x.cands t f }
def Slice.candAt (x : Slice) (t : Nat) : Inst := vget x.cands t Inst.reset
def Slice.modAcq (x : Slice) (n : Nat) (f : Acq → Acq) : Slice := { x with acq := vmod x.acq n f }
def Slice.modCandAcq (x : Slice) (t : Nat) (f : Acq → Acq) : Slice :=
  { x with candAcq := vmod x.candAcq t f }
def Slice.modCtx (x : Slice) (k : Nat) (f : Ctx → Ctx) : Slice := { x with ctx := vmod x.ctx k f }
def Slice.ctxAt (x : Slice) (k : Nat) : Ctx := vget x.ctx k Ctx.reset
def Slice.modAf (x : Slice) (n : Nat) (f : Af → Af) : Slice := { x with af := vmod x.af n f }
def Slice.afAt (x : Slice) (n : Nat) : Af := vget x.af n Af.reset
def Slice.slotAt (x : Slice) (k : Nat) : KeySlot := vget x.mac.slots k KeySlot.fresh
def Slice.modSlot (x : Slice) (k : Nat) (f : KeySlot → KeySlot) : Slice :=
  { x with mac := { x.mac with slots := vmod x.mac.slots k f } }

/-- Slice numbers in order. -/
def allSlices : List (Fin 4) := [0, 1, 2, 3]

/-- The scheduler's part for slice `c`. -/
def State.sch (s : State) (c : Fin 4) : Sched := s.sched.get c

/-- The scheduler's part for slice `c` changed by `f`. -/
def State.modSch (s : State) (c : Fin 4) (f : Sched → Sched) : State :=
  { s with sched := s.sched.set c.val (f (s.sch c)) c.isLt }

/-! ### Slice SRAM (R46, R402)

A sparse memory: cells in rising order of address, none of them zero, so that equal contents are equal
lists. A byte that nothing has written reads 0 (log entry 8). -/

/-- The byte at an SRAM offset. -/
def memGet : List Host.Cell → Nat → Byte
  | [], _ => 0
  | (b, w) :: m, a => if a = b then w else memGet m a

/-- A byte written at an SRAM offset. -/
def memSet : List Host.Cell → Nat → Byte → List Host.Cell
  | [], a, v => if v = 0 then [] else [(a, v)]
  | (b, w) :: m, a, v =>
    if a < b then (if v = 0 then (b, w) :: m else (a, v) :: (b, w) :: m)
    else if a = b then (if v = 0 then m else (a, v) :: m)
    else (b, w) :: memSet m a v

/-- Bytes written from an SRAM offset upwards. -/
def memWrite (m : List Host.Cell) : Nat → List Byte → List Host.Cell
  | _, [] => m
  | a, b :: bs => memWrite (memSet m a b) (a + 1) bs

/-- `n` bytes from an SRAM offset. -/
def memRead (m : List Host.Cell) (a : Nat) : Nat → List Byte
  | 0 => []
  | n + 1 => memGet m a :: memRead m (a + 1) n

/-- The bytes from `lo` up to but not including `hi` read as zero from now on. -/
def memClear (m : List Host.Cell) (lo hi : Nat) : List Host.Cell :=
  m.filter (fun c => c.1 < lo || hi ≤ c.1)

/-- The canonical form of a memory whose addresses start at `lo` or above. -/
def memWfFrom : Nat → List Host.Cell → Bool
  | _, [] => true
  | lo, (a, v) :: m => decide (lo ≤ a) && v != 0 && memWfFrom (a + 1) m

/-- The canonical form of a memory. -/
def Memory.wf (m : List Host.Cell) : Bool := memWfFrom 0 m

/-! ### Power requests (R369, R372) -/

/-- Requester `i` asks for `n` tokens; the next grant cycle decides. -/
def State.ask (s : State) (i n : Nat) : State :=
  { s with pwr := { s.pwr with want := vmod s.pwr.want i (fun _ => n) } }

/-- Requester `i` gives `n` tokens back; the next grant cycle applies it. -/
def State.release (s : State) (i n : Nat) : State :=
  { s with pwr := { s.pwr with rel := vmod s.pwr.rel i (fun k => k + n) } }

/-- The tokens that requester `i` holds and has not given back. -/
def State.holds (s : State) (i : Nat) : Nat := vget s.pwr.held i 0 - vget s.pwr.rel i 0

/-- Requester `i` gives back all that it holds and asks for nothing (R371). -/
def State.releaseAll (s : State) (i : Nat) : State :=
  { s with pwr := { s.pwr with
      want := vmod s.pwr.want i (fun _ => 0),
      rel := vmod s.pwr.rel i (fun _ => vget s.pwr.held i 0) } }

/-- Indices of the requesters of slice `c` (R369). -/
def rxReq (c : Fin 4) : Nat := 2 + c.val
def txReq (c : Fin 4) : Nat := 10 + c.val
def tunerReq (c : Fin 4) : Nat := 14 + c.val

/-! ### Time (R88, R104) -/

/-- The TB value now. -/
def State.tb (s : State) : Nat := s.tbm.tb

/-- Whether a slice's MDLL is unlocked, so that its stamps come from the module TB (R104). -/
def Slice.unlocked (x : Slice) : Bool := x.ctl.state.served && (x.clk.bypass || !x.clk.lock)

/-- A free value of 32 bits: nothing constrains it, and each is a fresh one. -/
def State.freeWord (s : State) : Word × State :=
  (Config.freeWord s.free, { s with free := s.free + 1 })

/-- Whether a gated feature is active (R387). -/
def State.feature (s : State) (n : Nat) : Bool :=
  s.fea.committed && bit (vget s.fea.accept 0 0) n

/-! ### Writes to module registers (R383, R393) -/

/-- A write to a register of the host port's QMG block: discarded before step 6 of the start-up (R383). -/
def State.qmgWrite (s : State) (f : State → State) : State := if s.mod.ready then f s else s

/-- A write to a register of MOD, FEA, PWR, TBM, TRK, FLS or ERRM: discarded before step 6 of the start-up (R383), and
during a swap, when it sets BUSY_WRITE at the end (R393). -/
def State.moduleWrite (s : State) (f : State → State) : State :=
  if !s.mod.ready then s
  else if s.mod.swapping.isSome then { s with mod := { s.mod with busyWrite := true } }
  else f s

/-! ### Access errors and unmapped accesses (R415) -/

/-- An access that R7, R8, R35 or R46 discards is counted, with its address latched when it is the first
since the count was read: in the ERR block of a slice from CALIBRATING on, else in ERRM (R415, R417, R419).
Bit 31 of the address marks BAR2. -/
def State.recordAccess (s : State) (bar : Bar) (addr : Nat) (unmapped : Bool) : State :=
  let c : Fin 4 := Fin.ofNat 4 (addr / 0x1000000 - 1)
  let inSlice := bar == .bar0 && decide (0x1000000 ≤ addr) && decide (addr < 0x5000000)
  let latch (o : Option Word) (w : Word) : Option Word := match o with | none => some w | some x => some x
  if inSlice && (s.sl c).ctl.state.served then
    s.modSl c (fun x =>
      let e := x.err
      { x with err :=
        if unmapped then { e with unmapped := count 16 1 e.unmapped, events := raise e.events 8,
                                  addr := latch e.addr (lo32 addr) }
        else { e with access := count 16 1 e.access, events := raise e.events 7,
                      addr := latch e.addr (lo32 addr) } })
  else
    let a := lo32 (addr + if bar = .bar2 then 2 ^ 31 else 0)
    { s with errm :=
        if unmapped then { s.errm with unmapped := count 16 1 s.errm.unmapped,
                                       events := raise s.errm.events 1, addr := latch s.errm.addr a }
        else { s.errm with access := count 16 1 s.errm.access, events := raise s.errm.events 0,
                           addr := latch s.errm.addr a } }

end Sys2Proof.Machine
end

