-- ==== Sys2Proof/Machine/Chain.lean ====
section
/-! DEFINITION. The arithmetic of the decimating chain (R139 to R142, R148, R150, R152). -/

namespace Sys2Proof.Machine

open Sys2Proof

/-! ### Sine and cosine of the NCO (R139)

COS[n] = round(131071 * cos(2*pi*n / 2^20)), from a series in fixed point with 80 fraction bits. -/

/-- Pi times 2^80, rounded down. -/
def piFix : Int := 3797952473636338580787993

/-- Terms of the series of cosine (`k` = 1) or sine (`k` = 2) in fixed point. -/
def seriesFix (x2 : Int) : Nat → Int → Int → Int → Int
  | 0, _, _, acc => acc
  | n + 1, k, term, acc =>
    let t := (-(Int.shiftRight (term * x2) 80)) / (k * (k + 1))
    seriesFix x2 n (k + 2) t (acc + t)

/-- Cosine of the angle `r` of a quarter turn of 2^18 steps. -/
def cosFix (r : Nat) : Int :=
  let x := Int.shiftRight (2 * piFix * r) 20
  seriesFix (Int.shiftRight (x * x) 80) 14 1 (2 ^ 80) (2 ^ 80)

/-- Sine of the same angle. -/
def sinFix (r : Nat) : Int :=
  let x := Int.shiftRight (2 * piFix * r) 20
  seriesFix (Int.shiftRight (x * x) 80) 14 2 x x

/-- COS[n] of R139. -/
def cosTable (n : Nat) : Int :=
  let m := n % 2 ^ 20
  let r := m % 2 ^ 18
  let v := match m / 2 ^ 18 with
    | 0 => cosFix r
    | 1 => -sinFix r
    | 2 => -cosFix r
    | _ => sinFix r
  Int.shiftRight (131071 * v + 2 ^ 79) 80

/-- SIN[n] of R139. -/
def sinTable (n : Nat) : Int := cosTable (n + 3 * 2 ^ 18)

/-! ### Saturation -/

/-- A value limited to `n` bits of two's complement, and whether it was limited. -/
def satTo (n : Nat) (v : Int) : Int × Bool :=
  let w := clampI (-(2 ^ (n - 1) : Nat)) ((2 ^ (n - 1) : Nat) - 1) v
  (w, w != v)

/-- Both components limited, and how many were. -/
def satPair (n : Nat) (v : Cplx) : Cplx × Nat :=
  let a := satTo n v.re
  let b := satTo n v.im
  (⟨a.1, b.1⟩, b2n a.2 + b2n b.2)

/-- A value wrapped to 56 bits (R140). -/
def wrap56 (v : Int) : Int := sext 56 (twos 56 v)

def Cplx.add (a b : Cplx) : Cplx := ⟨a.re + b.re, a.im + b.im⟩
def Cplx.sub (a b : Cplx) : Cplx := ⟨a.re - b.re, a.im - b.im⟩
def Cplx.wrap (a : Cplx) : Cplx := ⟨wrap56 a.re, wrap56 a.im⟩
def Cplx.scale (k : Int) (a : Cplx) : Cplx := ⟨k * a.re, k * a.im⟩
def Cplx.sum (l : List Cplx) : Cplx := l.foldl Cplx.add ⟨0, 0⟩

/-- A sum rounded and shifted right. -/
def roundShift (n : Nat) (v : Int) : Int :=
  if n = 0 then v else Int.shiftRight (v + 2 ^ (n - 1)) n

def Cplx.roundShift (n : Nat) (v : Cplx) : Cplx :=
  ⟨Sys2Proof.Machine.roundShift n v.re, Sys2Proof.Machine.roundShift n v.im⟩

/-! ### The stages -/

/-- The mixer (R139). -/
def mix (x : Int) (phi : Word) : Cplx × Nat :=
  let th := bf phi 12 20
  satPair 16 ⟨Int.shiftRight (x * cosTable th + 16384) 15, Int.shiftRight (-x * sinTable th + 16384) 15⟩

/-- The integrators after one more input (R140). -/
def integrate : Cplx → List Cplx → List Cplx
  | _, [] => []
  | x, a :: as => let y := (a.add x).wrap; y :: integrate y as

/-- The combs after one more input: their new stores and the output (R140). -/
def combine : Cplx → List Cplx → List Cplx × Cplx
  | x, [] => ([], x)
  | x, c :: cs => let r := combine (x.sub c).wrap cs; (x :: r.1, r.2)

/-- What the CIC hands on (R140). -/
def cicOut (shift : Nat) (v : Cplx) : Cplx × Nat :=
  if 56 ≤ shift then (⟨0, 0⟩, 0) else satPair 24 (v.roundShift shift)

/-- Coefficients of HB1 and HB2 at odd offsets from the centre (R141). -/
def hb1Coefs : List Int := [40080, -9588, 2838, -605, 43]
def hb2Coefs : List Int :=
  [41376, -12895, 6753, -3916, 2288, -1290, 680, -324, 131, -39, 4]

/-- A half-band output (R141): `line` holds the inputs, newest first, `c` the index of the centre. -/
def halfBand (coefs : List Int) (c : Nat) (line : List Cplx) : Cplx × Nat :=
  let x (i : Nat) : Cplx := line.getD i ⟨0, 0⟩
  let odd := coefs.mapIdx (fun i h => Cplx.scale h ((x (c - (2 * i + 1))).add (x (c + (2 * i + 1)))))
  satPair 24 (((Cplx.scale 65536 (x c)).add (Cplx.sum odd)).roundShift 17)

/-- The accumulator of the FIR (R142). -/
def firAcc (coefs : List (BitVec 20)) (taps : Nat) (line : List Cplx) : Cplx :=
  let half := (taps + 1) / 2
  let h (k : Nat) : Int :=
    let w : BitVec 20 := if k < half then coefs.getD k 0 else coefs.getD (taps - 1 - k) 0
    sext 20 w.toNat
  Cplx.sum ((List.range taps).map (fun k => Cplx.scale (h k) (line.getD k ⟨0, 0⟩)))

/-- A blend of the accumulators of two banks (R152). -/
def blend (i n : Nat) (old new : Cplx) : Cplx :=
  let w : Int := (65536 * i) / (n + 1)
  ⟨old.re + Int.shiftRight (w * (new.re - old.re)) 16, old.im + Int.shiftRight (w * (new.im - old.im)) 16⟩

/-! ### One ADC sample through the chain -/

/-- The output period P in ticks. -/
def ChainConf.period (f : ChainConf) : Nat := 4 * f.cic * f.fir

/-- SPAN (R148). -/
def ChainConf.span (f : ChainConf) : Nat := f.cic * (4 * f.taps + 103) - 5

/-- SETTLE_COUNT (R150). -/
def ChainConf.settle (f : ChainConf) : Nat := (f.span + f.period - 1) / f.period - 1

/-- Stage `i` saturated at sample count `n`. -/
def markSat (l : List (Option Nat)) (i n k : Nat) : List (Option Nat) :=
  if k = 0 then l else lmod l i (fun _ => some n)

/-- The chain after one ADC sample (R139 to R141), with the saturations it made. The decimation grid lies
`skew` ticks after the reset (R144). -/
def Chain.adc (k : Chain) (f : ChainConf) (freq : Word) (x : Int) : Chain × Nat :=
  let phi := if k.n = 0 then k.phi else k.phi + freq
  let m := mix x phi
  let integ := integrate m.1 k.integ
  let g : Int := (k.n : Int) - f.skew
  let k1 := { k with n := k.n + 1, phi := phi, integ := integ, sat := markSat k.sat 0 k.n m.2 }
  if g % f.cic ≠ 0 then (k1, m.2)
  else
    let cb := combine (integ.getLastD ⟨0, 0⟩) k.comb
    let v := cicOut f.cicShift cb.2
    let hb1 := (v.1 :: k.hb1).take 19
    let k2 := { k1 with comb := cb.1, hb1 := hb1, sat := markSat k1.sat 1 k.n v.2 }
    if g % (2 * f.cic) ≠ 0 then (k2, m.2 + v.2)
    else
      let a := halfBand hb1Coefs 9 hb1
      let hb2 := (a.1 :: k.hb2).take 43
      let k3 := { k2 with hb2 := hb2, sat := markSat k2.sat 2 k.n a.2 }
      if g % (4 * f.cic) ≠ 0 then (k3, m.2 + v.2 + a.2)
      else
        let b := halfBand hb2Coefs 21 hb2
        ({ k3 with fir := (b.1 :: k.fir).take 255, sat := markSat k3.sat 3 k.n b.2 }, m.2 + v.2 + a.2 + b.2)

/-- The chain after a run of ADC samples. -/
def Chain.adcs (f : ChainConf) (freq : Word) : List Int → Chain × Nat → Chain × Nat
  | [], r => r
  | x :: xs, r => let q := r.1.adc f freq x; Chain.adcs f freq xs (q.1, r.2 + q.2)

/-- Whether a saturation of an earlier stage lies in what the output at sample count `n` is computed from
(R142, R148). -/
def Chain.satNear (k : Chain) (f : ChainConf) (n : Nat) : Bool :=
  let tail := 4 * f.cic * (f.taps - 1)
  let win : List Nat := [f.span, f.span - 5 * (f.cic - 1), 84 * f.cic + tail, tail]
  (k.sat.zip win).any (fun p => match p.1 with
    | some u => decide (n ≤ u + p.2)
    | none => false)

/-- The sample count at which the next output is complete (R147). -/
def Chain.nextOut (k : Chain) (f : ChainConf) : Nat :=
  if k.n ≤ f.skew then f.skew else f.skew + alignUp f.period (k.n - f.skew)

/-- The air time of the ADC sample `n` after a reset at `x`, 48 SCLK after its tick: the steps and holds of TB
since that tick move it (R101, R147). -/
def airTime (warps : List (Nat × Int)) (x n : Nat) : Nat :=
  warps.foldl (fun t w =>
    if x ≤ w.1 + 48 ∧ w.1 < t then
      if 0 ≤ w.2 then t + w.2.toNat else max w.1 (t - (-w.2).toNat)
    else t) (x + n)

/-- A reset at `x`, counted on from an earlier reset at `x0` as if TB had neither stepped nor held since. -/
def countFrom (warps : List (Nat × Int)) (x0 x : Nat) : Int :=
  (x : Int) - ((warps.filter (fun w => x0 ≤ w.1 + 48 && w.1 + 48 < x)).map (fun w => w.2)).sum

end Sys2Proof.Machine
end

