-- ==== Sys2Proof/Machine/TrunkOps.lean ====
section
/-! DEFINITION. Shared operations of the trunk: frames as bytes (R351), the egress queues (R361), and
where the module's own frames go (R359). -/

namespace Sys2Proof.Machine

open Sys2Proof

/-- CLASS codes (R351). -/
def FrameClass.code : FrameClass → Nat
  | .time => 0 | .control => 1 | .service => 2 | .bulk => 3

/-- DIR codes (R351). -/
def FrameDir.code : FrameDir → Nat
  | .up => 0 | .down => 1 | .downAll => 2 | .link => 3

/-- The payload limit of a class (R351). -/
def FrameClass.limit : FrameClass → Nat
  | .time => 20 | .control => 256 | .service => 1500 | .bulk => 1040

/-- Port state codes (R366). -/
def PortState.code : PortState → Nat
  | .down => 0 | .probe => 1 | .foreign => 2 | .upstream => 3 | .child => 4 | .standby => 5
  | .looped => 6

/-- The bytes of a frame with its CRC, which takes HOPS as 0 (R351), or with the failed CRC that it carries (R360). -/
def Frame.bytes (f : Frame) : List Byte :=
  let h (hops : Nat) : List Byte :=
    [BitVec.ofNat 8 (0x10 + 4 * f.cls.code + f.dir.code), BitVec.ofNat 8 f.kind,
      BitVec.ofNat 8 hops, BitVec.ofNat 8 (b2n f.turn)]
    ++ be 3 f.dest ++ be 3 f.src ++ be 2 f.payload.length ++ f.payload
  h f.hops ++ be 4 (match f.crc with | some w => w.toNat | none => crc32 (h 0))

/-- The bytes that a frame takes in a queue. -/
def Frame.size (f : Frame) : Nat := 16 + f.payload.length

/-- An egress queue takes a frame, or discards it and counts it (R361); the answer says whether it was
taken. -/
def Port.enqueue (p : Port) (f : Frame) : Port × Bool :=
  match f.cls with
  | .time => ({ p with qTime := some f }, true)
  | .control =>
    if p.qControl.length < 16 then ({ p with qControl := p.qControl ++ [f] }, true)
    else ({ p with dropControl := count 8 1 p.dropControl }, false)
  | .service =>
    if (p.qService.map Frame.size).sum + f.size ≤ 32768 then
      ({ p with qService := p.qService ++ [f] }, true)
    else ({ p with dropService := count 8 1 p.dropService }, false)
  | .bulk =>
    if (p.qBulk.map Frame.size).sum + f.size ≤ 16384 then ({ p with qBulk := p.qBulk ++ [f] }, true)
    else ({ p with dropBulk := count 8 1 p.dropBulk }, false)

/-- Port `p` of the trunk. -/
def State.port (s : State) (p : Fin 3) : Port := s.trk.ports.get p

/-- The trunk with port `p` changed by `f`. -/
def State.modPort (s : State) (p : Fin 3) (f : Port → Port) : State :=
  { s with trk := { s.trk with ports := s.trk.ports.set p.val (f (s.port p)) p.isLt } }

/-- Port numbers in order. -/
def allPorts : List (Fin 3) := [0, 1, 2]

/-- A frame put on egress port `p`, from ingress index `i` (R360). -/
def State.egress (s : State) (p : Fin 3) (i : Nat) (f : Frame) : State × Bool :=
  let r := (s.port p).enqueue { f with ingress := i }
  (s.modPort p (fun _ => r.1), r.2)

/-- A frame on every CHILD port, from ingress `i`, or as the module's own where `i` is none. The answer
says whether some port took it. -/
def State.toChildren (s : State) (i : Option Nat) (f : Frame) : State × Bool :=
  allPorts.foldl (fun (a : State × Bool) p =>
    if (a.1.port p).state = .child then
      let r := a.1.egress p (i.getD p.val) f
      (r.1, a.2 || r.2)
    else a) (s, false)

/-- The module's address. -/
def State.addr (s : State) : Nat := bf s.trk.addr 0 18

/-- A frame that the module originates (R351, R359): its own UP frames leave by the upstream port, its
DOWN and DOWN_ALL frames by the CHILD ports. At the crown an UP frame with TURN 1 turns at once: to
DOWN_ALL with DEST 0, to DOWN with another DEST; without TURN, or to itself, it has no link to take. -/
def State.originate (s : State) (cls : FrameClass) (dir : FrameDir) (kind : Nat) (turn : Bool)
    (dest : Nat) (payload : List Byte) : State × Bool :=
  let f : Frame :=
    { cls := cls, dir := dir, kind := kind, hops := 0, turn := turn, dest := dest, src := s.addr,
      payload := payload, ingress := 0, crc := none }
  match dir with
  | .up =>
    match s.trk.tree with
    | .attached =>
      match s.trk.upPort with
      | some p => s.egress p p.val f
      | none => (s, false)
    | .crown =>
      if turn && dest == 0 then s.toChildren none { f with dir := .downAll, turn := false }
      else if dest == 0 || dest == s.addr then (s, false)
      else s.toChildren none { f with dir := .down, turn := false }
    | _ => (s, false)
  | _ => s.toChildren none f

end Sys2Proof.Machine
end

