-- ==== Sys2Proof/Machine/Records.lean ====
section
/-! DEFINITION. Records (R284, R285), staging and loss (R291 to R293), sequence numbers (R286), trunk
copies (R362), COMMAND_DONE (R281), POWER_EVENT and FAULT records (R378, R414). -/

namespace Sys2Proof.Machine

open Sys2Proof

/-! ### Status codes (R416) -/

def Status.ok : Nat := 0x00
def Status.busy : Nat := 0x01
def Status.rejected : Nat := 0x02
def Status.badParam : Nat := 0x03
def Status.noResource : Nat := 0x04
def Status.budget : Nat := 0x05
def Status.timeout : Nat := 0x06
def Status.missing : Nat := 0x07
def Status.synth : Nat := 0x10
def Status.coexDenied : Nat := 0x11
def Status.coexLost : Nat := 0x12
def Status.paFault : Nat := 0x13
def Status.keyEmpty : Nat := 0x20
def Status.keyChanged : Nat := 0x21
def Status.keyErased : Nat := 0x22
def Status.exhausted : Nat := 0x23
def Status.length : Nat := 0x24
def Status.tagFail : Nat := 0x25
def Status.replay : Nat := 0x26
def Status.usage : Nat := 0x27
def Status.formeCrc : Nat := 0x30
def Status.conflict : Nat := 0x31
def Status.capacity : Nat := 0x32
def Status.parity : Nat := 0x40
def Status.clockLoss : Nat := 0x41
def Status.feature : Nat := 0x42

/-! ### Making a record -/

/-- FLAGS of a record stamped `ts` (R284): TAI for a stamp past the change of origin, MODULE_STAMP as
given. -/
def State.recFlags (s : State) (ts : Nat) (modStamp : Bool) : Byte :=
  BitVec.ofNat 8 (b2n (s.tbm.origin && decide (s.tbm.originAt < ts)) + 2 * b2n modStamp)

/-- A record as its block makes it. -/
def State.mkRec (s : State) (ty slice tuning ctx : Nat) (msgId : Word) (ts : Nat) (modStamp : Bool)
    (payload : List Byte) : Record :=
  { type := BitVec.ofNat 8 ty, flags := s.recFlags ts modStamp, slice := BitVec.ofNat 8 slice,
    tuning := BitVec.ofNat 8 tuning, context := BitVec.ofNat 16 ctx, msgId := msgId, ts := ts,
    payload := payload, src := none, raw := none, spec := none }

/-- Bytes of a record header (R284); `b29` holds the last three bytes. -/
def headerBytes (r : Record) (q seq crc : Nat) (b29 : Nat) : List Byte :=
  [r.type, r.flags, r.slice, r.tuning] ++ le 2 r.context.toNat ++ le 2 r.payload.length ++ le 4 seq
    ++ le 4 r.msgId.toNat ++ le 8 r.ts ++ le 4 crc ++ [BitVec.ofNat 8 q] ++ le 3 b29

/-- The CRC-32C of a record: the header with SEQ and CRC as zero, then the payload (R285). -/
def recCrc (r : Record) (q b29 : Nat) : Nat := crc32c (headerBytes r q 0 0 b29 ++ r.payload)

/-- The bytes that a record takes in a buffer (R284). -/
def Record.size (r : Record) : Nat :=
  match r.raw with
  | some b => alignUp 32 b.length
  | none => alignUp 32 (32 + r.payload.length)

/-- A record in host memory, with its padding (R284). A record from the trunk keeps its bytes but for
SEQ (R363). -/
def Record.bytes (r : Record) (q seq : Nat) : List Byte :=
  match r.raw with
  | some b => padTo r.size (b.take 8 ++ le 4 seq ++ b.drop 12)
  | none => padTo r.size (headerBytes r q seq (recCrc r q 0) 0 ++ r.payload)

/-! ### SHED records -/

/-- The bytes that a SHED record takes (R293). -/
def Shed.size (h : Shed) : Nat := alignUp 32 (40 + 24 * h.entries.length)

/-- A SHED record as a record (R293). -/
def Shed.record (s : State) (h : Shed) : Record :=
  s.mkRec 0x40 h.slice.toNat 0xFF 0xFFFF 0 h.ts false
    ([h.causes, BitVec.ofNat 8 h.entries.length] ++ le 2 h.seqSkip ++ le 4 h.lost
      ++ h.entries.flatMap (fun e => e.source :: le 7 0 ++ le 8 e.count ++ le 8 e.resume))

/-- The space that an entry takes in staging. -/
def Staged.size : Staged → Nat
  | .data _ r => r.size
  | .shed _ h => h.size

/-- The bytes in staging now (R297), the entry in transfer included until it has left. -/
def Queue.fill (q : Queue) : Nat :=
  (q.staged.map Staged.size).sum + (match q.xfer with | some x => x.entry.size | none => 0)

/-- Whether a record of `n` bytes leaves room for one SHED record (R291). -/
def Queue.fits (q : Queue) (n : Nat) : Bool := decide (q.fill + n + 832 ≤ 16384)

/-- The queue with its highest fill brought up to date (R297). -/
def Queue.bumpPeak (q : Queue) : Queue := { q with peak := max q.peak q.fill }

/-- A source's losses joined to a list of entries (R293). -/
def joinSrc (e : SrcCount) : List SrcCount → List SrcCount
  | [] => [e]
  | x :: xs =>
    if x.source = e.source then { x with count := x.count + e.count, resume := e.resume } :: xs
    else x :: joinSrc e xs

/-- A loss joined to a SHED record (R292): its causes, its records and its samples. -/
def Shed.join (h : Shed) (causes : Byte) (lost : Nat) (es : List SrcCount) : Shed :=
  { h with causes := h.causes ||| causes, lost := sat 32 (h.lost + lost),
           entries := es.foldl (fun acc e => joinSrc e acc) h.entries }

/-- SLICE of the owner of a queue: 0xFF for a module queue (R281). -/
def queueSlice (q : Fin 256) : Nat :=
  match queueOwner q with
  | none => 0xFF
  | some (c, _) => c.val

/-! ### Sequence numbers and trunk copies -/

/-- Whether the CRC-32C of a record from the trunk checks (R285); a record of the module carries its own. -/
def rawCrcOk (r : Record) : Bool :=
  match r.raw with
  | some b => crc32c (slice b 0 8 ++ le 4 0 ++ slice b 12 12 ++ le 4 0 ++ b.drop 28) == u32 b 24
  | none => true

/-- A record that a queue numbers goes to the trunk where an entry exports the queue (R362). -/
def State.exportRec (s : State) (q : Fin 256) (r : Record) : State :=
  s.trk.exports.toList.foldl (fun t e =>
    if e.enable && e.queue == q.val then
      let n := match r.raw with | some b => b.length | none => 32 + r.payload.length
      if n ≤ 1500 ∧ rawCrcOk r then
        let bytes := match r.raw with
          | some b =>
            let body := b.take 1 ++ [(b.getD 1 0) ||| 4] ++ slice b 2 6 ++ le 4 0 ++ slice b 12 12
              ++ le 4 0 ++ slice b 28 1 ++ le 3 t.addr ++ b.drop 32
            body.take 24 ++ le 4 (crc32c body) ++ body.drop 28
          | none =>
            let r' := { r with flags := r.flags ||| 4 }
            headerBytes r' q.val 0 (recCrc r' q.val t.addr) t.addr ++ r.payload
        let o := t.originate .service .up 0x30 (e.dest != 0) e.dest bytes
        if o.2 then { o.1 with trk := { o.1.trk with expSent := count 16 1 o.1.trk.expSent } }
        else { o.1 with trk := { o.1.trk with expDropped := count 16 1 o.1.trk.expDropped } }
      else { t with trk := { t.trk with expDropped := count 16 1 t.trk.expDropped } }
    else t) s

/-- The next sequence number of a queue, taken (R286). -/
def State.takeSeq (s : State) (q : Fin 256) : Word × State :=
  ((s.qu q).seq, s.modQ q (fun k => { k with seq := k.seq + 1 }))

/-! ### Losses (R291, R292) -/

/-- The causes of a loss in a queue beyond the one given (R293): not active, raw cap in force. -/
def State.lossCauses (s : State) (q : Fin 256) (base : Nat) : Byte :=
  BitVec.ofNat 8 (base + (if s.queueActive q then 0 else 16) + (if (s.qu q).capWait then 64 else 0))

/-- The index of the last SHED record of a list of entries. -/
def lastShed : List Staged → Nat → Option Nat → Option Nat
  | [], _, acc => acc
  | .shed _ _ :: xs, i, _ => lastShed xs (i + 1) (some i)
  | .data _ _ :: xs, i, acc => lastShed xs (i + 1) acc

/-- An entry of staging with a loss joined to it, where it is a SHED record. -/
def Staged.join (causes : Byte) (lost : Nat) (es : List SrcCount) : Staged → Staged
  | .shed n h => .shed n (h.join causes lost es)
  | e => e

/-- The SHED record that a loss opens (R292, R293). -/
def State.newShed (s : State) (q : Fin 256) (causes : Byte) (lost : Nat) (es : List SrcCount) (ts : Nat) : Shed :=
  { causes := causes, seqSkip := 0, lost := lost, entries := es.foldl (fun a e => joinSrc e a) [],
    slice := BitVec.ofNat 8 (queueSlice q), ts := ts, opened := s.tb }

/-- Whether a SHED record with `behind` entries behind it is open for a loss at `now` (R292). -/
def Staged.openFor (behind now : Nat) : Staged → Bool
  | .shed _ h => behind == 0 || decide (now < h.opened + 1024000)
  | .data _ _ => false

/-- A loss of a DROP_NEW queue (R292): it joins the last SHED record, the one beside staging where staging holds
none (R273), while that is open; otherwise it opens a new one at the tail, numbered at once (R286). -/
def State.lossTail (s : State) (q : Fin 256) (causes : Byte) (lost : Nat) (es : List SrcCount)
    (ts : Nat) : State :=
  let k := s.qu q
  let fresh : State :=
    let p := s.takeSeq q
    p.2.modQ q (fun k => Queue.bumpPeak
      { k with staged := k.staged ++ [.shed (some p.1) (s.newShed q causes lost es ts)] })
  match lastShed k.staged 0 none with
  | some i =>
    if (k.staged[i]?).any (Staged.openFor (k.staged.length - (i + 1)) s.tb) then
      s.modQ q (fun k => Queue.bumpPeak { k with staged := lmod k.staged i (Staged.join causes lost es) })
    else fresh
  | none =>
    if k.headShed.any (Staged.openFor k.staged.length s.tb) then
      s.modQ q (fun k => { k with headShed := k.headShed.map (Staged.join causes lost es) })
    else fresh

/-- A loss of a DROP_OLD queue (R292): it falls at the head, where it joins the SHED record that stands there or
opens one. -/
def State.lossHead (s : State) (q : Fin 256) (causes : Byte) (lost : Nat) (es : List SrcCount)
    (ts : Nat) : State :=
  let h := Staged.shed none (s.newShed q causes lost es ts)
  s.modQ q (fun k =>
    match k.headShed with
    | some e => { k with headShed := some (e.join causes lost es) }
    | none =>
      match k.staged with
      | .shed n x :: rest => Queue.bumpPeak { k with staged := .shed n (x.join causes lost es) :: rest }
      | l => Queue.bumpPeak { k with staged := h :: l })

/-- A loss in a queue, placed by its policy (R292). -/
def State.lose (s : State) (q : Fin 256) (causes : Byte) (lost : Nat) (es : List SrcCount) (ts : Nat) : State :=
  if s.queueOld q then s.lossHead q causes lost es ts else s.lossTail q causes lost es ts

/-- A staged record that the loss rules may take: no SHED record and no COMMAND_DONE (R281, R291). -/
def Staged.droppable : Staged → Bool
  | .shed _ _ => false
  | .data _ r => r.type != 0x7F

/-- The count of lost records (R297, R419). -/
def State.countLost (s : State) (q : Fin 256) (n : Nat) : State :=
  let s1 := s.modQ q (fun k => { k with shedCnt := BitVec.ofNat 32 (count 32 n k.shedCnt.toNat) })
  if q.val = 2 then { s1 with errm := { s1.errm with lost := count 16 n s1.errm.lost } } else s1

/-- A DROP_OLD queue makes room for `need` bytes: its oldest records go one by one (R291). -/
def State.makeRoom (need : Nat) (q : Fin 256) : Nat → State → State
  | 0, s => s
  | n + 1, s =>
    let k := s.qu q
    if k.fits need then s
    else
      match firstIdx Staged.droppable k.staged 0 with
      | none => s
      | some i =>
        match k.staged[i]? with
        | some (.data _ r) =>
          let s1 := s.modQ q (fun k => { k with staged := dropIdx i k.staged })
          State.makeRoom need q n ((s1.lossHead q (s.lossCauses q 2) 1 r.src.toList r.ts).countLost q 1)
        | _ => s

/-- The sequence number of an entry of staging. -/
def Staged.seq : Staged → Option Word
  | .data n _ => n
  | .shed n _ => n

/-- An entry of staging with another sequence number. -/
def Staged.withSeq (n : Option Word) : Staged → Staged
  | .data _ r => .data n r
  | .shed _ h => .shed n h

/-- How many entries, newest first, report events at the TB value of `r` from slices above its own, or from the
module (R32). A COMMAND_DONE and a record of the trunk report none. -/
def laterEvents (r : Record) : List Staged → Nat
  | .data _ e :: rest =>
    if e.ts = r.ts ∧ r.slice < e.slice ∧ e.type ≠ 0x7F ∧ e.raw.isNone then 1 + laterEvents r rest else 0
  | _ => 0

/-- A record at the tail of a module queue, before the events of the same TB value that come after it in the order of
R32; the numbers of the queue stay in order. -/
def insertEvent (n : Option Word) (r : Record) (l : List Staged) : List Staged :=
  let k := if r.type = 0x7F ∨ r.raw.isSome then 0 else laterEvents r l.reverse
  let front := l.take (l.length - k)
  let back := l.drop (l.length - k)
  let nums := back.map Staged.seq ++ [n]
  front ++ (.data n r :: back).mapIdx (fun i e => e.withSeq (nums.getD i none))

/-- A record at the tail of staging: one of a module queue in the order of R32. -/
def stagedWith (q : Fin 256) (n : Option Word) (r : Record) (l : List Staged) : List Staged :=
  if q.val < 16 then insertEvent n r l else l ++ [.data n r]

/-- A record enters staging without regard to room (R281, R291). -/
def State.enter (s : State) (q : Fin 256) (r : Record) : State :=
  if s.queueOld q then s.modQ q (fun k => Queue.bumpPeak { k with staged := stagedWith q none r k.staged })
  else
    let p := s.takeSeq q
    (p.2.modQ q (fun k => Queue.bumpPeak { k with staged := stagedWith q (some p.1) r k.staged })).exportRec
      q r

/-- A made record enters staging, or is lost under the queue's policy (R291). A queue that does not exist
takes nothing. -/
def State.stage (s : State) (q : Fin 256) (r : Record) : State :=
  if !s.queueDeclared q then s
  else if s.queueOld q then
    let s1 := State.makeRoom r.size q (s.qu q).staged.length s
    if (s1.qu q).fits r.size then s1.enter q r
    else (s1.lossHead q (s1.lossCauses q 2) 1 r.src.toList r.ts).countLost q 1
  else if (s.qu q).fits r.size then s.enter q r
  else (s.lossTail q (s.lossCauses q 1) 1 r.src.toList r.ts).countLost q 1

/-- Losses of samples or records that a block reports in a queue (R20, R107, R223). -/
def State.gap (s : State) (q : Fin 256) (cause : Nat) (lost : Nat) (es : List SrcCount) (ts : Nat) :
    State :=
  if s.queueDeclared q then s.lose q (BitVec.ofNat 8 cause) lost es ts else s

/-! ### COMMAND_DONE (R281) -/

/-- Whether MOD registers and command completions wait for a firmware swap (R393). -/
def State.swapping (s : State) : Bool := s.mod.swapping.isSome

/-- The queue that receives the completions of a command queue (R280, R297). -/
def State.complQueue (s : State) (q : Fin 256) : Fin 256 := qn (bf (s.qu q).ringCfg 8 8)

/-- A completion enters its queue, or its command queue holds it (R281). Completions keep their order;
one whose completion queue does not exist has nowhere to go. -/
def State.deliverDone (s : State) (cq : Fin 256) (r : Record) : State :=
  let q := s.complQueue cq
  if !s.queueDeclared q || queueIsCmd q then s
  else if (s.qu cq).held.isEmpty && (s.qu q).fits r.size then s.enter q r
  else s.modQ cq (fun k => { k with held := k.held ++ [r] })

/-- The COMMAND_DONE record of a command (R281). -/
def State.doneRec (s : State) (c : CmdRef) (status : Nat) (result : List Byte) : Record :=
  s.mkRec 0x7F (queueSlice c.queue) 0xFF 0xFFFF 0 s.tb false
    ([c.opcode, BitVec.ofNat 8 status, BitVec.ofNat 8 c.queue.val, 0] ++ le 4 c.tag.toNat
      ++ le 4 c.desc.toNat ++ le 4 result.length ++ result)

/-- DESC_INDEX of a command from the SX5216 mailbox (R390). -/
def mailboxDesc : Word := 0xFFFFFFFF

/-- The COMMAND_DONE record of a command that has completed; during a swap it waits for the end of it (R393). -/
def State.report (s : State) (c : CmdRef) (status : Nat) (result : List Byte) : State :=
  let r := s.doneRec c status result
  if s.swapping then { s with mod := { s.mod with heldDone := s.mod.heldDone ++ [(c.queue.val, r)] } }
  else s.deliverDone c.queue r

/-- The NOPs of a queue before which no command is left complete (R280). -/
def State.endNops (s : State) (q : Fin 256) : State :=
  let nops := (s.qu q).outstanding.takeWhile (fun c => c.opcode == 0)
  nops.foldl (fun t c => t.report c Status.ok [])
    (s.modQ q (fun k => { k with outstanding := k.outstanding.drop nops.length }))

/-- A command completes (R280, R281); one of the mailbox also reports there, with the KCV of a derived key (R390). -/
def State.complete (s : State) (c : CmdRef) (status : Nat) (result : List Byte) : State :=
  let s1 := s.modQ c.queue (fun k => { k with outstanding := k.outstanding.erase c })
  let s2 := if c.desc = mailboxDesc then
      { s1 with mailbox := { s1.mailbox with
          go := false, status := BitVec.ofNat 8 status,
          result := if c.tag = 0x52160004 ∧ status = 0 then ofLe (slice result 2 3) else 0 } }
    else s1
  (s2.report c status result).endNops c.queue

/-- The reference of a command in hand. -/
def Command.ref (c : Command) : CmdRef :=
  { queue := c.queue, opcode := c.opcode, tag := c.tag, desc := c.desc }

/-! ### FAULT records (R414) -/

/-- What a FAULT record says beyond its COUNT and SPARES. -/
structure FaultInfo where
  status : Nat
  event : Nat
  level : Nat
  action : Nat
  block : Nat
  bank : Nat := 0xFF
  unit : Nat := 0xFFFF
  addr : Nat := 0xFFFFFFFF
  causeOf : Nat := 0
  detail : Nat := 0
  slice : Nat := 0xFF
  tuning : Nat := 0xFF
  ctx : Nat := 0xFFFF
  deriving DecidableEq, Repr

/-- The window in which COUNT counts FAULT records of a level (R414). -/
def faultWindow (level : Nat) : Option Nat :=
  if level = 0 then some (secTicks 1) else if level = 1 then some (secTicks 10)
  else if level = 2 then some (secTicks 60) else none

/-- A record on a module queue that a swap holds back (R393). -/
def State.stageOrHold (s : State) (q : Fin 256) (r : Record) : State :=
  if s.swapping then { s with mod := { s.mod with heldRecs := s.mod.heldRecs ++ [(q.val, r)] } }
  else s.stage q r

/-- A FAULT record stamped `ts` on module queue 2 (R414). -/
def State.faultAt (s : State) (i : FaultInfo) (ts : Nat) : State :=
  let marks := s.errm.marks ++ [{ event := i.event, slice := i.slice, level := i.level, at_ := ts }]
  let same := marks.filter (fun m => m.event == i.event && m.slice == i.slice &&
    (match faultWindow i.level with | some w => decide (ts < m.at_ + w) | none => true))
  let sl : Fin 4 := Fin.ofNat 4 i.slice
  let spares := if i.bank = 0xFF ∨ 4 ≤ i.slice then 0xFF else vget (s.sl sl).err.spares i.bank 0
  let stamp := decide (i.slice < 4) && (s.sl sl).unlocked
  let r := s.mkRec 0x70 i.slice i.tuning i.ctx 0 ts stamp
    ([BitVec.ofNat 8 i.status, BitVec.ofNat 8 i.event, BitVec.ofNat 8 i.level, BitVec.ofNat 8 i.action,
      BitVec.ofNat 8 i.block, BitVec.ofNat 8 i.bank] ++ le 2 i.unit ++ le 4 i.addr
      ++ le 2 (sat 16 same.length) ++ [BitVec.ofNat 8 spares, BitVec.ofNat 8 i.causeOf] ++ le 8 i.detail
      ++ le 8 0)
  ({ s with errm := { s.errm with
      made := count 16 1 s.errm.made,
      marks := marks.filter (fun m => decide (m.level = 3 ∨ ts < m.at_ + secTicks 60)) } }).stageOrHold
    2 r

/-- A FAULT record at the TB of detection. -/
def State.fault (s : State) (i : FaultInfo) : State := s.faultAt i s.tb

/-! ### POWER_EVENT records (R378) -/

/-- The effective budget (R368). -/
def Pwr.effective (p : Pwr) : Nat :=
  match p.cls with
  | .normal => bf p.budget 0 10
  | .brownOut => min (bf p.budget 0 10) (bf p.budget 16 10)
  | .inputLoss => 0

/-- The tokens granted in all. -/
def Pwr.granted (p : Pwr) : Nat := p.held.toList.sum

/-- The free tokens, negative while over budget. -/
def Pwr.free (p : Pwr) : Int := (p.effective : Int) - p.granted

/-- INPUT_CLASS codes (R378). -/
def InputClass.code : InputClass → Nat
  | .normal => 0 | .brownOut => 1 | .inputLoss => 2

/-- The slice of a requester of the steward, 0xFF for a module requester (R369, R378). -/
def reqSlice (i : Nat) : Nat :=
  if 2 ≤ i ∧ i ≤ 5 then i - 2 else if 10 ≤ i ∧ i ≤ 13 then i - 10
  else if 14 ≤ i ∧ i ≤ 17 then i - 14 else 0xFF

/-- The priority class of a requester (R369). -/
def reqClass (i : Nat) : Nat :=
  if i ≤ 1 then 0 else if i ≤ 8 then 1 else if i = 9 then 2 else 3

/-- A POWER_EVENT record (R378): KIND, and the requester and tokens where the kind names them. -/
def State.powerEvent (s : State) (kind status : Nat) (req : Option Nat) (tokens : Nat) : State :=
  let p := s.pwr
  s.stageOrHold 3 (s.mkRec 0x71 (match req with | some i => reqSlice i | none => 0xFF) 0xFF 0xFFFF 0 s.tb
    false
    ([BitVec.ofNat 8 kind, BitVec.ofNat 8 status, BitVec.ofNat 8 (req.getD 0xFF),
      BitVec.ofNat 8 (match req with | some i => reqClass i | none => 0xFF)] ++ le 2 tokens
      ++ le 2 (twos 16 p.free) ++ le 2 p.granted ++ le 2 p.effective ++ le 2 p.inputDv
      ++ [BitVec.ofNat 8 p.cls.code, BitVec.ofNat 8 (b2n p.ac)] ++ le 4 (10 * p.drawNow) ++ le 4 0))

end Sys2Proof.Machine
end

