-- ==== Sys2Proof/Machine/Flash.lean ====
section
/-! DEFINITION. The flash write budget and the flash jobs (R397). -/

namespace Sys2Proof.Machine

open Sys2Proof

/-- A read of the flash in which the BCH code found errors (R398): corrected ones are counted; an uncorrectable one is
reported with the entry that was read. What DETAIL names of the object is not stated; it is free (log entry 59). -/
def State.eccRead (s : State) (corrected : Bool) (unit : Nat) : State :=
  if corrected then { s with fls := { s.fls with corrected := count 16 1 s.fls.corrected } }
  else
    let w := s.freeWord
    ({ w.2 with fls := { w.2.fls with
        uncorrected := count 16 1 w.2.fls.uncorrected, events := raise w.2.fls.events 2 } }).fault
      { status := Status.parity, event := 0x1A, level := 3, action := 0, block := 0x92, unit := unit, detail := w.1.toNat }

/-- A read of one object: `ecc` says whether errors were found, and corrected. -/
def State.eccMaybe (s : State) (ecc : Option Bool) (unit : Nat) : State :=
  match ecc with
  | some corrected => s.eccRead corrected unit
  | none => s

/-- The window of R397: 24 h of the RTC. -/
def flashWindow : Nat := secTicks 86400

/-- The requester of flash programming and its tokens (R369). -/
def flashReq : Nat := 1
def flashTokens : Nat := 6

/-- KiB written in the last 24 h (R397, R398). -/
def State.flashUsed (s : State) : Nat :=
  ((s.fls.log.filter (fun e => decide (s.real < e.1 + flashWindow))).map (fun e => e.2)).sum

/-- Image writes of the last 24 h. -/
def State.imagesUsed (s : State) : Nat :=
  (s.fls.imgLog.filter (fun t => decide (s.real < t + flashWindow))).length

/-- The KiB that an object of `n` bytes counts (R397). -/
def flashKib (n : Nat) : Nat := alignUp 4096 n / 1024

/-- What a write counts against. -/
inductive FlashCost where
  | pool (kib : Nat)
  | image
  | free (kib : Nat)
  deriving DecidableEq, Repr

/-- Whether a write exceeds its limit (R397). -/
def State.flashDenied (s : State) : FlashCost → Bool
  | .pool k => decide (bf s.fls.limit 0 16 < s.flashUsed + k)
  | .image => decide (4 ≤ s.imagesUsed)
  | .free _ => false

/-- A write refused sets DENIED (R398). -/
def State.flashDeny (s : State) : State :=
  { s with fls := { s.fls with events := raise s.fls.events 0 } }

/-- A program or erase waits for its turn and its tokens (R369). -/
def State.queueJob (s : State) (j : FlashJob) : State :=
  let s1 := { s with fls := { s.fls with jobs := s.fls.jobs ++ [j] } }
  if s.fls.jobs.isEmpty then s1.ask flashReq flashTokens else s1

/-- A write counted (R397). -/
def State.countWrite (s : State) (cost : FlashCost) : State :=
  let f := s.fls
  let log := f.log.filter (fun e => decide (s.real < e.1 + flashWindow))
  let f1 : Fls := match cost with
    | .pool k => { f with log := log ++ [(s.real, k)] }
    | .free k => { f with log := log ++ [(s.real, k)] }
    | .image => { f with imgLog := f.imgLog.filter (fun t => decide (s.real < t + flashWindow)) ++ [s.real] }
  { s with fls := f1 }

/-- A write accepted: it counts, and waits (R369, R397). -/
def State.flashJob (s : State) (cost : FlashCost) (j : FlashJob) : State := (s.countWrite cost).queueJob j

/-- A write under the limits: none where it is refused. -/
def State.flashWrite (s : State) (cost : FlashCost) (j : FlashJob) : Option State :=
  if s.flashDenied cost then none else some (s.flashJob cost j)

end Sys2Proof.Machine
end

