-- ==== Sys2Proof/Machine/HostPort.lean ====
section
/-! DEFINITION. Meanings of the host port: doorbells and queues (R274 to R283), buffers and the DMA arbiter
(R277, R278, R294, R295), interrupts (R296), command fetch (R279 to R281), host port reset (R273). -/

namespace Sys2Proof.Machine

open Sys2Proof

/-! ### Interrupts and buffers -/

/-- The queue's interrupt when a buffer closes: a message, or one owed at the end of the holdoff (R296). -/
def State.queueIrq (s : State) (q : Fin 256) : State :=
  let k := s.qu q
  if !bit k.irq 31 then s
  else
    let wait := match k.irqLast with
      | some t => decide (s.real < t + usTicks (bf k.irq 8 14))
      | none => false
    if wait then s.modQ q (fun k => { k with irqOwed := true })
    else sendMsix (bf k.irq 0 6) (s.modQ q (fun k => { k with irqLast := some s.real, irqOwed := false }))

/-- Host address of the descriptor of ring entry `desc` of a queue with entries of `n` bytes. -/
def Queue.descAddr (k : Queue) (n desc : Nat) : Nat :=
  k.ringHi.toNat * 2 ^ 32 + k.ringLo.toNat + n * (desc % 2 ^ bf k.ringCfg 0 5)

/-- STATUS of a descriptor written, the buffer handed to the host (R277, R278). -/
def State.handOver (s : State) (q : Fin 256) (desc status : Nat) : State :=
  let s1 := s.emit (.hostWrite ((s.qu q).descAddr 16 desc + 12) (le 4 status))
  (s1.modQ q (fun k => { k with events := raise k.events 0 })).queueIrq q

/-- The open buffer closed, where it holds records (R278). -/
def State.closeBuf (s : State) (q : Fin 256) (early : Bool) : State :=
  match (s.qu q).buf with
  | none => s.modQ q (fun k => { k with flush := false })
  | some b =>
    if b.nrec = 0 then s.modQ q (fun k => { k with flush := false })
    else
      let status := 2 ^ 31 + (if early && decide (b.used < b.len) then 2 ^ 30 else 0) + b.used
      (s.modQ q (fun k => { k with buf := none, flush := false })).handOver q b.desc status

/-- What an entry of staging counts of its sources in an open buffer (R273). -/
def Staged.srcs : Staged → List SrcCount
  | .data _ r => r.src.toList
  | .shed _ _ => []

/-- The timestamp of an entry of staging. -/
def Staged.ts : Staged → Nat
  | .data _ r => r.ts
  | .shed _ h => h.ts

/-- The entry with a sequence number. -/
def Staged.number (n : Word) : Staged → Staged
  | .data _ r => .data (some n) r
  | .shed _ h => .shed (some n) h

/-- The entry without one. -/
def Staged.unnumber : Staged → Staged
  | .data _ r => .data none r
  | .shed _ h => .shed none h

/-- The bytes of an entry that leaves staging with number `n`. -/
def State.stagedBytes (s : State) (q : Fin 256) (n : Word) : Staged → List Byte
  | .data _ r => r.bytes q.val n.toNat
  | .shed _ h => (h.record s).bytes q.val n.toNat

/-- The record in transfer has all left: it counts in the open buffer, which closes when no byte is left in it, after a
FLUSH or with FLUSH_US 0 (R278), or once a removed cartridge's queue is empty (R394). -/
def State.recordDone (s : State) (q : Fin 256) (e : Staged) : State :=
  let s1 := s.modQ q (fun k =>
    { k with xfer := none, buf := k.buf.map (fun b =>
      { b with used := b.used + e.size, nrec := b.nrec + 1,
               opened := (match b.opened with | some t => some t | none => some s.real),
               firstSeq := (match b.firstSeq with | some n => some n | none => e.seq),
               firstTs := if b.nrec = 0 then e.ts else b.firstTs,
               srcs := e.srcs.foldl (fun a x => joinSrc x a) b.srcs,
               lastSeq := e.seq.getD b.lastSeq }) })
  let k := s1.qu q
  let last := k.headOnly && k.headShed.isNone && k.staged.isEmpty
  let s2 := if k.flush || bf k.ringCfg 16 16 == 0 || last || k.buf.any (fun b => b.used == b.len) then s1.closeBuf q true else s1
  if last then s2.modQ q (fun k => { k with headOnly := false, buf := none }) else s2

/-- The next entry to leave staging: the SHED record in the place beside it comes first (R273). -/
def Queue.next (k : Queue) : Option Staged :=
  match k.headShed with
  | some e => some e
  | none => k.staged.head?

/-- The sequence numbers of speculative records on a queue, first and last, none until one has a number (R226). -/
def noteSeq (q : Fin 256) (n : Option Word) :
    List (Fin 256 × Option (Word × Word)) → List (Fin 256 × Option (Word × Word))
  | [] => [(q, n.map (fun w => (w, w)))]
  | (p, o) :: l =>
    if p = q then (p, match n, o with
      | some w, some (a, _) => some (a, w)
      | some w, none => some (w, w)
      | none, o => o) :: l
    else (p, o) :: noteSeq q n l

/-- FIRST_SEQ and LAST_SEQ of a SPEC_UNDO record of this speculation after one more speculative number (R226, R229). -/
def Record.extend (n : Word) (tag : SpecTag) (r : Record) : Record :=
  match r.spec with
  | some t =>
    if r.type = 0x21 ∧ t.key = tag.key ∧ t.tb = tag.tb then
      { r with
        payload := r.payload.take 4 ++ (if t.known then (r.payload.drop 4).take 4 else le 4 n.toNat) ++ le 4 n.toNat
          ++ r.payload.drop 12,
        spec := some { t with known := true } }
    else r
  | none => r

/-- A record of a DROP_OLD queue takes number `n` as it leaves staging (R226, R286): a speculative one is noted, in its AF
process and in a SPEC_UNDO record behind it. A SPEC_UNDO record behind which no speculative number stands holds its own. -/
def State.noteLeaving (s : State) (q : Fin 256) (n : Word) : Staged → State × Staged
  | .data m r =>
    match r.spec with
    | none => (s, .data m r)
    | some tag =>
      if r.type = 0x21 then (s, .data m (if tag.known then r else r.extend n tag))
      else
        let c : Fin 4 := Fin.ofNat 4 r.slice.toNat
        let s1 := s.modSl c (fun x => x.modAf tag.key (fun a =>
          if a.state = .speculative ∧ a.specTb = tag.tb then { a with specSeqs := noteSeq q (some n) a.specSeqs } else a))
        (s1.modQ q (fun k => { k with staged := k.staged.map (fun e =>
          match e with
          | .data m r => .data m (if r.slice.toNat = c.val then r.extend n tag else r)
          | e => e) }), .data m r)
  | e => (s, e)

/-- The next entry leaves staging for the open buffer (R286, R294): a DROP_OLD queue numbers it now and its
trunk copy goes with it (R362). -/
def State.startXfer (s : State) (q : Fin 256) : State :=
  match (s.qu q).next, (s.qu q).buf with
  | some e, some b =>
    let fromHead := (s.qu q).headShed.isSome
    let s1 := s.modQ q (fun k =>
      if fromHead then { k with headShed := none } else { k with staged := k.staged.drop 1 })
    let p : Word × State := match e.seq with
      | some n => (n, s1)
      | none => s1.takeSeq q
    let n := p.1
    let v : State × Staged := if e.seq.isNone then p.2.noteLeaving q n e else (p.2, e)
    let s2 := v.1
    let e' := v.2.number n
    let s3 := match e' with
      | .shed _ h => (s2.modQ q (fun k => { k with events := raise k.events 1 })).exportRec q (h.record s2)
      | .data _ r => if e.seq.isNone then s2.exportRec q r else s2
    s3.modQ q (fun k =>
      { k with xfer := some { addr := b.addr + b.used, left := s3.stagedBytes q n e', entry := e', head := fromHead } })
  | _, _ => s

/-- Bytes counted as written to host memory by a class (R297). -/
def Qmg.countBytes (m : Qmg) (cls n : Nat) : Qmg :=
  let total := vget m.dmaBytes cls 0 + n
  { m with dmaBytes := vmod m.dmaBytes cls (fun _ => total % 1024),
           dmaKb := vmod m.dmaKb cls (fun w => BitVec.ofNat 32 (count 32 (total / 1024) w.toNat)) }

/-- At most `n` bytes of the record in transfer move (R294). -/
def State.moveBytes (s : State) (q : Fin 256) (n : Nat) : State :=
  match (s.qu q).xfer with
  | none => s
  | some x =>
    let now := x.left.take n
    let s1 := s.emit (.hostWrite x.addr now)
    let cls := s.queueClass q
    let s2 := { s1 with qmg := s1.qmg.countBytes cls now.length }
    if x.left.length ≤ n then s2.recordDone q x.entry
    else s2.modQ q (fun k => { k with xfer := some { x with addr := x.addr + n, left := x.left.drop n } })

/-- Whether the open buffer of a queue must close because the next record does not fit (R278). -/
def Queue.full (k : Queue) : Bool :=
  match k.buf, k.xfer, k.next with
  | some b, none, some e => decide (0 < b.nrec) && decide (b.len < b.used + e.size)
  | _, _, _ => false

/-- All queues, rising. -/
def allQueues : List (Fin 256) := (List.range 256).map qn

/-- Every active record queue whose next record does not fit closes its buffer (R278). -/
def State.closeFull (s : State) : State :=
  allQueues.foldl (fun t q => if t.queueActive q && (t.qu q).full then t.closeBuf q false else t) s

/-- Whether a queue has something to move (R276, R294). -/
def State.wantsDma (s : State) (q : Fin 256) : Bool :=
  !queueIsCmd q && s.queueActive q &&
    ((s.qu q).xfer.isSome || ((s.qu q).buf.isSome && (s.qu q).next.isSome))

/-- The bytes of the next TLP of a queue (R294). -/
def State.nextTlp (s : State) (q : Fin 256) : Nat :=
  match (s.qu q).xfer with
  | some x => min s.qmg.mps x.left.length
  | none => min s.qmg.mps (match (s.qu q).next with | some e => e.size | none => 0)

/-- The queues of a class that the arbiter may grant; class 2 only within its allowance (R294, R295). -/
def State.dmaReqs (s : State) (cls : Nat) : List Nat :=
  ((allQueues.filter (fun q => s.wantsDma q && s.queueClass q == cls)).filter (fun q =>
    cls != 2 || decide (s.qmg.rawUsed + s.nextTlp q ≤ bf s.qmg.rawCap 0 11 * 1000))).map (fun q => q.val)

/-- Class 2 queues that wait for the next window of the raw-sample cap (R295). -/
def State.capped (s : State) : List (Fin 256) :=
  allQueues.filter (fun q => s.wantsDma q && s.queueClass q == 2 &&
    decide (bf s.qmg.rawCap 0 11 * 1000 < s.qmg.rawUsed + s.nextTlp q))

/-- TLPs per round of a class. -/
def Qmg.weight (m : Qmg) (cls : Nat) : Nat := bf m.dmaWeight (8 * cls) 8

/-- The class that the round grants next: the present one while its share lasts, else the next class with
something to move (R294). -/
def State.dmaClass (s : State) : Option Nat :=
  let r := s.qmg.roundClass
  let can (k : Nat) : Bool := !(s.dmaReqs k).isEmpty
  if decide (s.qmg.roundUsed < s.qmg.weight r) && can r then some r
  else [(r + 1) % 3, (r + 2) % 3, r].find? can

/-- One grant of the DMA arbiter (R294). -/
def State.grantDma (s : State) : State :=
  match s.dmaClass with
  | none => s
  | some k =>
    match arbPick (vget s.qmg.dmaPtr k 0) (s.dmaReqs k) with
    | none => s
    | some i =>
      let n := s.nextTlp (qn i)
      let used := if k = s.qmg.roundClass ∧ s.qmg.roundUsed < s.qmg.weight k then s.qmg.roundUsed + 1 else 1
      let s1 := { s with qmg := { s.qmg with
        roundClass := k, roundUsed := used, dmaPtr := vmod s.qmg.dmaPtr k (fun _ => arbNext 256 i),
        rawUsed := if k = 2 then s.qmg.rawUsed + n else s.qmg.rawUsed } }
      let s2 := if (s1.qu (qn i)).xfer.isNone then s1.startXfer (qn i) else s1
      s2.moveBytes (qn i) s.qmg.mps

/-- Queues that the raw-sample cap keeps waiting are marked, and CAP_HIT is set (R295). -/
def State.markCapped (s : State) : State :=
  let w := s.capped
  if w.isEmpty then s
  else
    let s1 := w.foldl (fun t q => t.modQ q (fun k => { k with capWait := true })) s
    { s1 with qmg := { s1.qmg with events := raise s1.qmg.events 3 } }

/-- The window of 1 ms that TB stands in: a new one restores the allowance of class 2 (R295). -/
def State.rollCap (s : State) : State :=
  let w := s.tb / msTicks 1
  if w = s.qmg.rawWindow then s
  else
    { s with qmg := { s.qmg with rawWindow := w, rawUsed := 0 },
             queues := vmap (fun k => { k with capWait := false }) s.queues }

/-- DMA_GRANT (R294): one TLP of a staged record moves into a host buffer; a buffer that the next record
does not fit closes. -/
def execDmaGrant (s : State) : Host.Outcome State Fault Refusal :=
  run s fun s => if s.qmg.inReset then s else s.rollCap.closeFull.markCapped.grantDma.closeFull

/-- RAW_CAP_WINDOW (R295): a new window of 1 ms restores the allowance of class 2. -/
def execRawCapWindow (s : State) : Host.Outcome State Fault Refusal :=
  run s fun s => s.rollCap

/-- IRQ_HOLDOFF_END (R296): one message for the buffers closed during the holdoff. -/
def execIrqHoldoffEnd (q : Fin 256) (s : State) : Host.Outcome State Fault Refusal :=
  run s fun s => if (s.qu q).irqOwed then s.queueIrq q else s

/-! ### Doorbells, enabling, flushing -/

/-- DOORBELL_PRODUCER (R282): a write to BAR2. Only an aligned 32-bit write to PRODUCER of an active queue
posts descriptors. -/
def execDoorbellProducer (offset : BitVec 16) (size : Nat) (value : Word) (s : State) :
    Host.Outcome State Fault Refusal :=
  run s fun s =>
    let a := offset.toNat
    let q := qn (a / 256)
    if size ≠ 4 ∨ a % 4 ≠ 0 then s.recordAccess .bar2 a false
    else if a % 256 ≠ 0 then s
    else if !s.queueActive q || decide (2 ^ bf (s.qu q).ringCfg 0 5 < (value - (s.qu q).cons).toNat) then
      s.modQ q (fun k => { k with events := raise k.events 3 })
    else s.modQ q (fun k => { k with prod := value })

/-- The ring base of a queue. -/
def Queue.base (k : Queue) : Nat := k.ringHi.toNat * 2 ^ 32 + k.ringLo.toNat

/-- Whether COMPL_QUEUE of a command queue names a record queue of the module or of the same slice (R297). -/
def State.complOk (s : State) (q : Fin 256) : Bool :=
  let c := s.complQueue q
  !queueIsCmd c && (match queueOwner c, queueOwner q with
    | none, _ => true
    | some (a, _), some (b, _) => a == b
    | some _, none => false)

/-- EN of a queue set (R283, R297): both counts restart; rejected without a ring base or, on a command queue,
with a wrong completion queue. -/
def State.enableQueue (s : State) (q : Fin 256) : State :=
  if (s.qu q).en then s
  else if (s.qu q).base = 0 ∨ (queueIsCmd q ∧ !s.complOk q) then
    s.modQ q (fun k => { k with events := raise k.events 5 })
  else s.modQ q (fun k => { k with en := true, prod := 0, cons := 0, peak := k.fill })

/-- A queue stops (R272, R278): the record in transfer is finished and the open buffer closes. -/
def State.disableQueue (s : State) (q : Fin 256) : State :=
  if !(s.qu q).en then s
  else
    let s1 := match (s.qu q).xfer with
      | some x => s.moveBytes q x.left.length
      | none => s
    (s1.closeBuf q true).modQ q (fun k => { k with en := false, buf := none, capWait := false })

/-- FLUSH of a record queue set (R278, R297): the open buffer closes after the record in transfer. -/
def State.flushQueue (s : State) (q : Fin 256) : State :=
  if queueIsCmd q then s
  else if (s.qu q).xfer.isSome then s.modQ q (fun k => { k with flush := true })
  else s.closeBuf q true

/-- QUEUE_ENABLE (R283). -/
def execQueueEnable (q : Fin 256) (s : State) : Host.Outcome State Fault Refusal :=
  run s fun s => s.qmgWrite fun s => s.enableQueue q

/-- QUEUE_DISABLE (R278). -/
def execQueueDisable (q : Fin 256) (s : State) : Host.Outcome State Fault Refusal :=
  run s fun s => s.qmgWrite fun s => s.disableQueue q

/-- FLUSH (R278). -/
def execFlush (q : Fin 256) (s : State) : Host.Outcome State Fault Refusal :=
  run s fun s => s.qmgWrite fun s => s.flushQueue q

/-- FLUSH_US_EXPIRED (R278): the open buffer closes FLUSH_US after its first record was written. -/
def execFlushUsExpired (q : Fin 256) (s : State) : Host.Outcome State Fault Refusal :=
  run s fun s =>
    match (s.qu q).buf with
    | some b =>
      match b.opened with
      | some t =>
        if !s.qmg.inReset ∧ t + usTicks (bf (s.qu q).ringCfg 16 16) ≤ s.real then s.flushQueue q else s
      | none => s
    | none => s

/-- DESCRIPTOR_FETCH (R277, R278): the next posted descriptor of a record queue opens a buffer, or closes at
once with DESC_ERR. -/
def execDescriptorFetch (q : Fin 256) (addr : DWord) (len : Word) (s : State) :
    Host.Outcome State Fault Refusal :=
  run s fun s =>
    let k := s.qu q
    if s.qmg.inReset || queueIsCmd q || !s.queueActive q || k.buf.isSome || k.prod == k.cons then s
    else
      let desc := k.cons.toNat % 2 ^ bf k.ringCfg 0 5
      let s1 := s.modQ q (fun k => { k with cons := k.cons + 1 })
      if addr.toNat % 64 ≠ 0 ∨ len.toNat % 64 ≠ 0 ∨ len.toNat < 16384 ∨ 4194304 < len.toNat then
        (s1.modQ q (fun k => { k with events := raise k.events 2 })).handOver q desc (2 ^ 31 + 2 ^ 29)
      else
        let b : OpenBuf :=
          { addr := addr.toNat, len := len.toNat, desc := desc, used := 0, opened := none, nrec := 0,
            firstSeq := none, firstTs := 0, srcs := [], lastSeq := 0 }
        s1.modQ q (fun k => { k with buf := some b })

/-! ### Errors of the link (R272) -/

/-- AER reports: a poisoned TLP, an ECRC failure, a failed read, a completion timeout. -/
def aerPoisoned : Nat := 0
def aerEcrc : Nat := 1
def aerRead : Nat := 2
def aerTimeout : Nat := 3

/-- DMA_READ_ERROR (R272): the queue stops with DMA_ERR; a command whose body was to be read is not
executed. -/
def execDmaReadError (q : Fin 256) (timeout ecrc : Bool) (s : State) : Host.Outcome State Fault Refusal :=
  run s fun s =>
    if s.qmg.inReset || !s.queueActive q then s
    else
      let s1 := (s.disableQueue q).modQ q (fun k =>
        { k with events := raise k.events 4,
                 inHand := k.inHand.filter (fun c => c.desc == mailboxDesc) })
      let e1 := if timeout then raise s1.qmg.events 1 else s1.qmg.events
      let e2 := if ecrc then raise e1 2 else e1
      ({ s1 with qmg := { s1.qmg with events := e2 } }).emit
        (.aer (if timeout then aerTimeout else if ecrc then aerEcrc else aerRead))

/-- POISONED_WRITE (R272): the write is discarded and reported. -/
def execPoisonedWrite (ecrc : Bool) (s : State) : Host.Outcome State Fault Refusal :=
  run s fun s =>
    if ecrc then ({ s with qmg := { s.qmg with events := raise s.qmg.events 2 } }).emit (.aer aerEcrc)
    else s.emit (.aer aerPoisoned)

/-! ### Commands (R279 to R281) -/

/-- The places that carry an opcode (R275, R280). -/
inductive Carrier where
  | any | control | tx | module (q : Nat)
  deriving DecidableEq, Repr

/-- The queue kind that carries an opcode, none for an opcode unknown to the module (R280). -/
def carrier (op : Nat) : Option Carrier :=
  if op = 0x00 then some .any
  else if op = 0x50 then some .tx
  else if op ∈ [0x20, 0x21, 0x22, 0x23, 0x30, 0x40, 0x41, 0x51] then some .control
  else if op ∈ [0x28, 0x29, 0x2A, 0x2B, 0x2C, 0x68, 0x69] then some (.module 12)
  else if op ∈ [0x60, 0x61, 0x62, 0x63, 0x64] then some (.module 13)
  else if op ∈ [0x70, 0x71, 0x72, 0x73] then some (.module 14)
  else none

/-- Whether queue `q` carries an opcode (R280). -/
def State.carries (s : State) (q : Fin 256) (k : Carrier) : Bool :=
  match k, queueOwner q with
  | .any, _ => true
  | .control, some (_, l) => l == 52
  | .tx, some (c, l) =>
    match (s.sl c).forme.bind Forme.tx with
    | some p => txCmdQueue p == l
    | none => false
  | .module n, none => q.val == n
  | _, _ => false

/-- The body length that an opcode requires; none where any length will do (R280). -/
def bodyLength (op : Nat) (b : List Byte) : Option Nat :=
  if op = 0x00 then none
  else if op = 0x20 ∨ op = 0x70 then some (8 + u32 b 4)
  else if op = 0x21 ∨ op = 0x51 then some 16
  else if op = 0x30 ∨ op = 0x60 ∨ op = 0x61 ∨ op = 0x64 ∨ op = 0x71 then some 12
  else if op = 0x41 ∨ op = 0x63 then some 8
  else if op ∈ [0x28, 0x29, 0x2A, 0x2B] then some 4
  else if op = 0x40 then some (8 + alignUp 4 (u8 b 5 + u8 b 6))
  else if op = 0x50 then some (24 + alignUp 4 (u16 b 14))
  else some 0

/-- The first check of R280 that a command fails. -/
def State.commandCheck (s : State) (q : Fin 256) (op len : Nat) (body : List Byte) : Option Nat :=
  match carrier op with
  | none => some Status.badParam
  | some k =>
    if 8192 < len ∨ len % 4 ≠ 0 then some Status.badParam
    else if !s.carries q k then some Status.rejected
    else
      match bodyLength op body with
      | some n => if len = n then none else some Status.badParam
      | none => none

/-- Whether a command queue may take its next command (R276, R280, R281). -/
def State.mayFetch (s : State) (q : Fin 256) : Bool :=
  let k := s.qu q
  !s.qmg.inReset && queueIsCmd q && s.queueActive q && k.inHand.isNone && k.held.isEmpty
    && !s.swapping && k.prod != k.cons && !(q.val == 68 && s.mailbox.go && !s.mailbox.taken)

/-- COMMAND_FETCH (R279, R280): the next descriptor is read and checked; a command that fails completes at
once, and any other waits in hand for its block. -/
def execCommandFetch (q : Fin 256) (opcode : Byte) (tag bodyLen : Word) (body : List Byte) (s : State) :
    Host.Outcome State Fault Refusal :=
  run s fun s =>
    if !s.mayFetch q then s
    else
      let desc := (s.qu q).cons.toNat % 2 ^ bf (s.qu q).ringCfg 0 5
      let s1 := s.modQ q (fun k => { k with cons := k.cons + 1 })
      let cmd : Command :=
        { queue := q, opcode := opcode, tag := tag, desc := lo32 desc, body := padTo bodyLen.toNat body }
      match s1.commandCheck q opcode.toNat bodyLen.toNat cmd.body with
      | some st => s1.complete cmd.ref st []
      | none => s1.modQ q (fun k => { k with inHand := some cmd })

/-- The command in hand of a queue, where it has this opcode. -/
def State.inHand (s : State) (q : Fin 256) (op : Nat) : Option Command :=
  (s.qu q).inHand.filter (fun c => c.opcode.toNat == op)

/-- The block accepts the command in hand (R280). -/
def State.accept (s : State) (q : Fin 256) : State := s.modQ q (fun k => { k with inHand := none })

/-- The block accepts a command that completes later (R280). -/
def State.keep (s : State) (c : Command) : State :=
  s.modQ c.queue (fun k => { k with inHand := none, outstanding := k.outstanding ++ [c.ref] })

/-- The block accepts a command and completes it at once. -/
def State.finish (s : State) (c : Command) (status : Nat) (result : List Byte) : State :=
  (s.accept c.queue).complete c.ref status result

/-- NOP (R280): accepted, it completes once every earlier command of its queue has. -/
def execNop (q : Fin 256) (s : State) : Host.Outcome State Fault Refusal :=
  run s fun s =>
    match s.inHand q 0x00 with
    | some c => if (s.qu q).outstanding.isEmpty then s.finish c Status.ok [] else s.keep c
    | none => s

/-- HELD_COMPLETION_RELEASE (R281): a held COMMAND_DONE enters staging once there is room. -/
def execHeldCompletionRelease (q : Fin 256) (s : State) : Host.Outcome State Fault Refusal :=
  run s fun s =>
    let cq := s.complQueue q
    match (s.qu q).held with
    | r :: rest =>
      if s.queueDeclared cq && !queueIsCmd cq && (s.qu cq).fits r.size then
        (s.modQ q (fun k => { k with held := rest })).enter cq r
      else s
    | [] => s

/-! ### Host port reset (R273) -/

/-- The record in transfer goes back where it was; one from the staging of a DROP_OLD queue gives its number back. -/
def Queue.recall (k : Queue) (old : Bool) : Queue :=
  match k.xfer with
  | none => k
  | some x =>
    if x.head then { k with xfer := none, headShed := some x.entry }
    else if old then
      { k with xfer := none, staged := x.entry.unnumber :: k.staged, seq := x.entry.seq.getD k.seq }
    else { k with xfer := none, staged := x.entry :: k.staged }

/-- What a host port reset leaves of a queue: an abandoned buffer that holds records becomes a SHED record beside
the head of staging, before one that stands there, and the record in transfer goes back. -/
def Queue.hostReset (k : Queue) (q : Fin 256) (old : Bool) (now : Nat) : Queue :=
  let k := k.recall old
  let lost := match k.buf with
    | some b =>
      if b.nrec = 0 then none
      else
        let first := b.firstSeq.getD 0
        some (Staged.shed (some first)
          { causes := 16, seqSkip := (b.lastSeq - first).toNat, lost := b.nrec, entries := b.srcs,
            slice := BitVec.ofNat 8 (queueSlice q), ts := b.firstTs, opened := now })
    | none => none
  let r := Queue.reset (queueOwner q).isSome
  { r with seq := k.seq, staged := (if lost.isSome then k.headShed.toList else []) ++ k.staged,
           headShed := (match lost with | some e => some e | none => k.headShed),
           headOnly := k.headOnly, outstanding := k.outstanding, held := k.held,
           inHand := k.inHand.filter (fun c => c.desc == mailboxDesc) }

/-- HOST_PORT_RESET (R273): the host port and QMG reset but for the sequence numbers and HOST_RESETS; open
buffers are abandoned and every queue stops. -/
def execHostPortReset (s : State) : Host.Outcome State Fault Refusal :=
  run s fun s =>
    if s.qmg.inReset then s
    else
      { s with
        qmg := { Qmg.reset with hostResets := BitVec.ofNat 32 (count 16 1 s.qmg.hostResets.toNat) },
        queues := vmapIdx (fun i k => k.hostReset (qn i) (s.queueOld (qn i)) s.tb) s.queues }

/-- HOST_PORT_RESET_EXIT (R273): the port leaves the reset with the link that trained (R270). -/
def execHostPortResetExit (width speed mps : Nat) (s : State) : Host.Outcome State Fault Refusal :=
  run s fun s =>
    if s.qmg.inReset ∧ width ∈ [1, 2, 4] ∧ speed ∈ [1, 2] ∧ mps ∈ [128, 256] then
      { s with qmg := { s.qmg with
          inReset := false, linkUp := true, linkWidth := width, linkSpeed := speed, mps := mps,
          events := raise s.qmg.events 0 } }
    else s

end Sys2Proof.Machine
end

