-- ==== Sys2Proof/Machine/Afe.lean ====
section
/-! DEFINITION. The front end (R111 to R126), calibration (R127 to R133) and CAL_BG (R134, R135). -/

namespace Sys2Proof.Machine

open Sys2Proof

/-! ### Shared operations of a slice -/

/-- The front end of slice `c` changed by `f`. -/
def State.modAfe (s : State) (c : Fin 4) (f : Afe → Afe) : State :=
  s.modSl c (fun x => { x with afe := f x.afe })

/-- A write to a register of slice `c` at BAR0 offset `off` of the slice: it acts where the slice's
registers are served, and is an access error otherwise (R35). -/
def State.sliceWrite (s : State) (c : Fin 4) (off : Nat) (f : State → State) : State :=
  if (s.sl c).ctl.state.served then f s
  else s.recordAccess .bar0 (0x1000000 * (c.val + 1) + off) false

/-- Whether a slice is IDLE or RUNNING. -/
def Slice.up (x : Slice) : Bool := x.ctl.state == .idle || x.ctl.state == .running

/-! ### Gain steps (R117 to R120) -/

/-- The span of air time that one gain step disturbs (R118): the sample at the change and the 32 ticks after. -/
def stepSpan (t : Nat) : Nat × Nat := (t, t + 33)

/-- A gain step at `t` (R117, R118). -/
def Afe.step (a : Afe) (t : Nat) : Afe :=
  { a with gainSteps := count 16 1 a.gainSteps, disturbed := a.disturbed ++ [stepSpan t], quietSince := t,
           windowDirty := true }

/-- The attenuation measured at setting `d`, in 0.001 dB; nominal where no calibration has measured it (R117, R127). -/
def Afe.stepSize (a : Afe) (d : Nat) : Int := a.stepSizes.getD d (1000 * (d : Int))

/-- The gain measured of the LNA, in 0.001 dB; nominal 20 dB. -/
def Afe.lnaSize (a : Afe) : Int := a.stepSizes.getD 32 20000

/-- The digital gain in 0.001 dB that makes up the gain steps (R117): the inverse of the steps from the setting after slice
reset, 31 dB with the LNA on, to the one in force. DESIGN CHOICE: the manual names no setting at which nothing is made up
(log entry 80). -/
def Afe.inverse (a : Afe) : Int :=
  a.stepSize a.atten - a.stepSize 31 + (if a.lnaByp then a.lnaSize else 0)

/-- The corrections of the settings and calibrations in force act on every ADC sample after air time `t` (R117). -/
def Afe.regain (a : Afe) (t : Nat) : Afe :=
  { a with gains := (t + 1, a.adcOffset, a.inverse - a.adcGain) :: a.gains }

/-- A change of attenuation and LNA state at `t`: one gain step where either differs (R117). -/
def Afe.setGain (a : Afe) (atten : Nat) (byp : Bool) (t : Nat) : Afe :=
  if a.atten = atten ∧ a.lnaByp = byp then a
  else ({ (a.step t) with atten := atten, lnaByp := byp }).regain t

/-- Ten to the power of `g` thousandths of a twentieth, times 2^96, for `g` of 0 and more. -/
def gainFix (g : Nat) : Nat :=
  let ln10 : Nat := 182429585950654714090129938606
  let x := ln10 * g / 20000
  ((List.range 60).foldl (fun (a : Nat × Nat) k =>
    let t := a.2 * x / 2 ^ 96 / (k + 1)
    (a.1 + t, t)) (2 ^ 96, 2 ^ 96)).1

/-- An ADC code times a gain of `g` in 0.001 dB, rounded down. -/
def gainFloor (g x : Int) : Int :=
  if 0 ≤ g then Int.shiftRight (x * gainFix g.toNat + 2 ^ 50) 96
  else Int.shiftRight (x * ((2 ^ 192 / gainFix (-g).toNat : Nat) : Int) + 2 ^ 50) 96

/-- A raw ADC code of air time `t` as the mixer reads it (R117, R127, R139): its offset and gain error removed and the inverse
of the gain steps applied, to one of the two codes nearest to the product, and limited to the codes of R139. -/
def Afe.compensate (a : Afe) (t : Nat) (raw : Int) : Int :=
  let e := (a.gains.find? (fun e => decide (e.1 ≤ t))).getD (0, 0, 0)
  let x := raw - e.2.1
  let y := if e.2.2 = 0 then x
    else gainFloor e.2.2 x + (if Config.roundUp e.2.2 x then 1 else 0)
  clampI (-8192) 8191 y

/-- Whether manual mode is in force. -/
def Afe.manual (a : Afe) : Bool := a.agcMode == some true

/-- Whether automatic mode is in force. -/
def Afe.auto (a : Afe) : Bool := a.agcMode == some false

/-- Whether the AGC makes no gain step (R122, R319). -/
def Slice.agcHeld (x : Slice) : Bool :=
  bit x.afe.agcCfg 31 || x.afe.calRun.isSome || (x.tx.trSw && bit x.tx.paCfg 31)

/-- A write to AFE.GAIN (R120, R136). -/
def Afe.writeGain (a : Afe) (v : Word) (now : Nat) : Afe :=
  if a.manual then { a with gainPend := a.gainPend ++ [(now + usTicks 1, bf v 0 5, bit v 8)] }
  else { a with events := raise a.events 5 }

/-- AFE_GAIN_WRITE (R120). -/
def execAfeGainWrite (c : Fin 4) (value : Word) (s : State) : Host.Outcome State Fault Refusal :=
  run s fun s => s.sliceWrite c 0x20008 fun s => s.modAfe c (fun a => a.writeGain value s.tb)

/-- GAIN_APPLY (R120): a written gain takes effect 1 µs after the write. -/
def execGainApply (c : Fin 4) (s : State) : Host.Outcome State Fault Refusal :=
  run s fun s =>
    let a := (s.sl c).afe
    match a.gainPend with
    | (t, atten, byp) :: rest =>
      if a.manual ∧ t ≤ s.tb then
        s.modAfe c (fun a => ({ a with gainPend := rest }).setGain atten byp s.tb)
      else s
    | [] => s

/-! ### AGC (R121, R122) -/

/-- TARGET, HYST_DB, ATTACK_DB and the limits (R136). -/
def Afe.target (a : Afe) : Nat := bf a.agcCfg 0 6
def Afe.hyst (a : Afe) : Nat := bf a.agcCfg 8 4
def Afe.attackDb (a : Afe) : Nat := bf a.agcCfg 12 4
def Afe.minAtten (a : Afe) : Nat := bf a.agcLimits 0 5
def Afe.maxAtten (a : Afe) : Nat := bf a.agcLimits 8 5

/-- An attenuation held within the AGC's limits. -/
def Afe.limit (a : Afe) (d : Int) : Nat := (clampI a.minAtten a.maxAtten d).toNat

/-- Acquisition (R121 rule 2): the attenuation that brings a power of `p` tenths of a dB below full scale
nearest to TARGET, in one step. With the LNA bypassed, the LNA comes back on wherever an attenuation within the limits
then keeps the power from exceeding TARGET + HYST_DB. -/
def Afe.acquireGain (a : Afe) (p : Nat) (t : Nat) : Afe :=
  let d : Int := (10 * (a.target : Int) - p + 5) / 10
  let b := { a with acquire := false }
  let on : Int := a.atten + d + (if a.lnaByp then (a.lnaSize + 500) / 1000 else 0)
  if on ≤ a.maxAtten + a.hyst then b.setGain (a.limit on) false t
  else b.setGain (a.limit (a.atten + d)) a.lnaByp t

/-- Rise (R121 rule 3): the excess over TARGET rounded up; at MAX_ATTEN the LNA is bypassed. -/
def Afe.rise (a : Afe) (p : Nat) (t : Nat) : Afe :=
  let d : Int := (10 * (a.target : Int) - p + 9) / 10
  if a.maxAtten ≤ a.atten then a.setGain a.atten true t else a.setGain (a.limit (a.atten + d)) a.lnaByp t

/-- Whether the window that ends at `stop` holds a gain step or a disturbed sample (R121, R130). -/
def Afe.windowSpoilt (a : Afe) (stop : Nat) : Bool :=
  a.windowDirty || a.disturbed.any (fun d => decide (a.windowStart < d.2) && decide (d.1 < stop)) ||
    (match a.calRun with
    | some r => decide (1 ≤ r.kind) && decide (r.kind ≤ 3) && decide (r.start < stop)
    | none => false)

/-- The end of a window of 100 µs (R121): its power is reported, and the rules act on it where it holds no gain
step and no disturbed sample and the AGC is not frozen. A window that is used and not quiet starts the release period again.
DEDUCED: the first window after a lock-up of the front end always holds disturbed samples (R115), so acquisition follows
the first window that may decide (log entry 79). -/
def Afe.windowEnd (a : Afe) (p : Nat) (held : Bool) (t : Nat) : Afe :=
  let stop := a.windowStart + usTicks 100
  let b := { a with powerCb := p, windowDirty := false, windowStart := stop }
  if a.windowSpoilt stop then b
  else
    let b := if 10 * (a.target + a.hyst) < p then b else { b with quietSince := stop }
    if held then b
    else if a.acquire then b.acquireGain p t
    else if (p : Int) < 10 * ((a.target : Int) - a.hyst) then b.rise p t
    else b

/-- AGC_WINDOW_END (R121). -/
def execAgcWindowEnd (c : Fin 4) (powerCb : BitVec 16) (s : State) : Host.Outcome State Fault Refusal :=
  run s fun s =>
    let x := s.sl c
    if x.ctl.state = .running ∧ x.afe.auto ∧ !x.clk.coast ∧ x.afe.windowStart + usTicks 100 ≤ s.tb then
      s.modAfe c (fun a => a.windowEnd powerCb.toNat x.agcHeld s.tb)
    else s

/-- Whether clipped samples at these rising air times make an attack at `now` (R121 rule 1): at least 4 within 1 µs, the
first of them at most 2 µs ago. -/
def attackDue (clips : List Nat) (now : Nat) : Bool :=
  match clips with
  | [] => false
  | first :: _ =>
    decide (4 ≤ clips.length) && (clips.zip clips.tail).all (fun p => decide (p.1 < p.2)) &&
      clips.all (fun t => decide (t < first + usTicks 1) && decide (t ≤ now)) && decide (now ≤ first + usTicks 2)

/-- ATTACK (R121 rule 1): `clips` are air times of clipped samples. -/
def execAttack (c : Fin 4) (s : State) (clips : List Nat := []) : Host.Outcome State Fault Refusal :=
  run s fun s =>
    let x := s.sl c
    let soon := match x.afe.lastAttack with
      | some t => decide (s.tb < t + usTicks 10)
      | none => false
    if x.ctl.state = .running ∧ x.afe.auto ∧ !x.agcHeld ∧ !soon ∧ attackDue clips s.tb then
      s.modAfe c (fun a =>
        let b := a.setGain (a.limit (a.atten + a.attackDb)) a.lnaByp s.tb
        { b with attacks := count 16 1 a.attacks, events := raise a.events 0, lastAttack := some s.tb })
    else s

/-- Whether the release period has passed with every window of it ended (R121 rule 4). -/
def Afe.releaseDue (a : Afe) (now : Nat) : Bool :=
  decide (a.quietSince + bf a.agcCfg 16 8 * msTicks 10 ≤ now) && decide (now < a.windowStart + usTicks 100)

/-- AGC_RELEASE (R121 rule 4): RELEASE × 10 ms of quiet windows. The LNA comes back on before the attenuation
goes below MAX_ATTEN. -/
def execAgcRelease (c : Fin 4) (s : State) : Host.Outcome State Fault Refusal :=
  run s fun s =>
    let x := s.sl c
    if x.ctl.state = .running ∧ x.afe.auto ∧ !x.agcHeld ∧ x.afe.releaseDue s.tb then
      s.modAfe c (fun a =>
        if a.lnaByp then a.setGain a.atten false s.tb
        else if a.minAtten < a.atten then a.setGain (a.atten - 1) false s.tb
        else { a with quietSince := s.tb })
    else s

/-- A write to AFE.AGC_CFG (R122, R136): clearing FREEZE starts the AGC again. -/
def Afe.writeAgcCfg (a : Afe) (v : Word) (t : Nat) : Afe :=
  if bf v 16 8 = 0 ∨ bf v 12 4 = 0 ∨ bf v 8 4 = 0 ∨ bf v 0 6 < 6 ∨ 40 < bf v 0 6 then
    { a with events := raise a.events 6 }
  else
    let w := mkWord [(31, 1, bf v 31 1), (16, 8, bf v 16 8), (12, 4, bf v 12 4), (8, 4, bf v 8 4), (0, 6, bf v 0 6)]
    if bit a.agcCfg 31 ∧ !bit v 31 then { a with agcCfg := w, acquire := true, quietSince := t }
    else { a with agcCfg := w }

/-- AGC_CFG_WRITE (R122). -/
def execAgcCfgWrite (c : Fin 4) (value : Word) (s : State) : Host.Outcome State Fault Refusal :=
  run s fun s => s.sliceWrite c 0x2000C fun s => s.modAfe c (fun a => a.writeAgcCfg value s.tb)

/-! ### Antenna tuner (R116, R123) -/

/-- Whether the tuner is in circuit (R116). -/
def Afe.tunerCircuit (a : Afe) : Bool := !a.preselected || decide (a.band ≤ 1)

/-- Whether a TOPO takes the network in (R123). -/
def tunerTopo (v : Word) : Bool := bf v 16 2 == 1 || bf v 16 2 == 2

/-- A write to AFE.TUNER (R123). -/
def Afe.writeTuner (a : Afe) (v : Word) (t : Nat) : Afe :=
  let w := mkWord [(0, 18, bf v 0 18)]
  if a.tunerCircuit then { (a.step t) with tuner := w, tunerNow := w } else { a with tuner := w }

/-- TUNER_WRITE (R123). -/
def execTunerWrite (c : Fin 4) (value : Word) (s : State) : Host.Outcome State Fault Refusal :=
  run s fun s => s.sliceWrite c 0x20018 fun s => s.modAfe c (fun a => a.writeTuner value s.tb)

/-! ### Lock-up of the front end (R115, R116, R121) -/

/-- Whether a forme changes the front end in force (R115). -/
def Afe.changes (a : Afe) (f : Forme) (old : Option Forme) : Bool :=
  a.preselected != (f.feMode == 1) || (a.preselected && a.band != f.preselBand) ||
    (match old with
    | some o => o.agcManual != f.agcManual || o.attenDb != f.attenDb
    | none => true)

/-- The front end at a lock-up that changes it, at instant `t` (R115, R121, R123). DESIGN CHOICE: the SLICE record gives an
attenuation and no LNA state; the LNA is on (log entry 79). -/
def Afe.lockup (a : Afe) (f : Forme) (t : Nat) : Afe :=
  let b := { a with
    preselected := f.feMode == 1, band := f.preselBand, agcMode := some f.agcManual, gainPend := [],
    disturbed := a.disturbed ++ [(t + 1, t + 2049)], acquire := !f.agcManual, quietSince := t,
    windowStart := t, windowDirty := true, powerCb := 0xFFFF }
  let d := b.setGain f.attenDb false t
  if d.tunerCircuit ∧ d.tunerNow ≠ d.tuner then { (d.step t) with tunerNow := d.tuner } else d

/-! ### CAL_RESULT records (R133) -/

/-- A field of RESULT: its bytes. -/
def calFields (kind : Nat) (v : List Int) (freq : Nat) : List Byte :=
  let n (i k : Nat) : List Byte := le k (twos (8 * k) (v.getD i 0))
  if kind = 1 then n 0 2 ++ n 1 2
  else if kind = 2 then n 0 1 ++ n 1 1 ++ n 2 1 ++ [0] ++ n 3 2 ++ [0, 0] ++ le 4 freq
  else if kind = 3 then n 0 2 ++ n 1 2 ++ n 2 2
  else if kind = 4 then n 0 1
  else if kind = 5 then n 0 2
  else n 0 2 ++ n 1 2 ++ n 2 1 ++ [0, 0, 0] ++ le 4 freq

/-- A CAL_RESULT record on module queue 4 (R133, R275). -/
def State.calRecord (s : State) (c : Fin 4) (kind status origin flags start stop : Nat) (v : List Int)
    (freq : Nat) : Record :=
  s.mkRec 0x60 c.val 0xFF 0xFFFF 0 start (s.sl c).unlocked
    ([BitVec.ofNat 8 kind, BitVec.ofNat 8 status, BitVec.ofNat 8 origin, BitVec.ofNat 8 flags]
      ++ le 8 start ++ le 8 stop
      ++ padTo 12 (if status = Status.ok then calFields kind v freq else []))

/-! ### On-request calibration (R128 to R132) -/

/-- Whether a kind disturbs every tuning of the slice. -/
def calDisturbs (kind : Nat) : Bool := decide (1 ≤ kind) && decide (kind ≤ 3)

/-- A request for a kind, merged with one pending or running (R129). -/
def Afe.request (a : Afe) (kind origin t : Nat) : Afe :=
  if (match a.calRun with | some r => r.kind == kind | none => false) then a
  else if a.calPend.any (fun p => p.kind == kind) then
    { a with calPend := a.calPend.map (fun p => if p.kind = kind then { p with at_ := min p.at_ t } else p) }
  else { a with calPend := insertBy (fun p => p.kind) { kind := kind, origin := origin, at_ := t } a.calPend }

/-- A bit of AFE.CAL_REQ set (R128): accepted in IDLE and RUNNING, held in CALIBRATING. -/
def State.calReq (s : State) (c : Fin 4) (kind : Nat) : State :=
  if (s.sl c).up then s.modAfe c (fun a => a.request kind 1 s.tb)
  else if (s.sl c).ctl.state = .calibrating then
    s.modAfe c (fun a => { a with calHeld := if a.calHeld.contains kind then a.calHeld else a.calHeld ++ [kind] })
  else s

/-- CAL_REQ_ADC (R128). -/
def execCalReqAdc (c : Fin 4) (s : State) : Host.Outcome State Fault Refusal :=
  run s fun s => s.sliceWrite c 0x2002C fun s => s.calReq c 1

/-- CAL_REQ_TUNER (R128). -/
def execCalReqTuner (c : Fin 4) (s : State) : Host.Outcome State Fault Refusal :=
  run s fun s => s.sliceWrite c 0x2002C fun s => s.calReq c 2

/-- CAL_REQ_FLAT (R128). -/
def execCalReqFlat (c : Fin 4) (s : State) : Host.Outcome State Fault Refusal :=
  run s fun s => s.sliceWrite c 0x2002C fun s => s.calReq c 3

/-- CAL_REQ_VCO (R128). -/
def execCalReqVco (c : Fin 4) (s : State) : Host.Outcome State Fault Refusal :=
  run s fun s => s.sliceWrite c 0x2002C fun s => s.calReq c 4

/-- A calibration command taken by its slice (R128); the mailbox gives it through the same path (R390). -/
def State.takeCal (s : State) (c : Fin 4) (cmd : Command) : State :=
  let mask := u8 cmd.body 0
  let at_ := u64 cmd.body 4
  if !(s.sl c).up then s.finish cmd Status.rejected []
  else if mask = 0 ∨ 16 ≤ mask then s.finish cmd Status.badParam []
  else
    let kinds := [1, 2, 3, 4].filter (fun k => mask.testBit (k - 1))
    let t := if at_ = 0 ∨ at_ < s.tb + 2 ^ 16 then s.tb else at_
    (s.keep cmd).modAfe c (fun a =>
      let b := kinds.foldl (fun (a : Afe) k => a.request k 2 t) a
      { b with calCmds := b.calCmds ++ [{ cmd := cmd.ref, left := kinds, status := 0 }] })

/-- CAL_REQUEST (R128). -/
def execCalRequest (c : Fin 4) (s : State) : Host.Outcome State Fault Refusal :=
  run s fun s =>
    match s.inHand (localQ c 52) 0x30 with
    | some cmd => s.takeCal c cmd
    | none => s

/-- A kind has ended with a status: commands that wait for it go on or complete with the status of their
first kind that was not OK (R128). -/
def State.calCommands (s : State) (c : Fin 4) (kind status : Nat) : State :=
  let after := (s.sl c).afe.calCmds.map (fun k =>
    if k.left.contains kind then
      { k with left := k.left.erase kind, status := if k.status = 0 then BitVec.ofNat 8 status else k.status }
    else k)
  let s1 := s.modAfe c (fun a => { a with calCmds := after.filter (fun k => !k.left.isEmpty) })
  (after.filter (fun k => k.left.isEmpty)).foldl (fun t k => t.complete k.cmd k.status.toNat []) s1

/-- CAL_DONE once no kind waits or runs (R128, R136). -/
def Afe.done (a : Afe) : Afe :=
  if a.calPend.isEmpty ∧ a.calRun.isNone then { a with events := raise a.events 3 } else a

/-- The synthesiser after a VCO band calibration: no channel calibration is valid, and a burst that waits
calibrates its channel now (R301). -/
def Tx.afterVco (x : Tx) : Tx :=
  { x with lock := false, calFreq := 0, wantFreq := match x.cmd with | some k => k.freq | none => 0 }

/-- END_TB of an interval (R133): the first TB after its disturbed samples, those of a gain step at its end among them. -/
def Afe.calLast (a : Afe) (kind start stop : Nat) : Nat :=
  if calDisturbs kind ∧ start < stop then max (stop + 32) ((a.disturbed.map Prod.snd).foldl max 0) else start

/-- A running kind ends (R129 to R133). `early` marks an interval cut short (R131). -/
def State.calFinish (s : State) (c : Fin 4) (kind origin status start stop freq : Nat) (early notStored : Bool)
    (v : List Int) : State :=
  let flags := b2n notStored + 2 * b2n early
  let last := (s.sl c).afe.calLast kind start stop
  let r := s.calRecord c kind status origin flags start last v freq
  let s1 := s.modAfe c (fun a =>
    let b := { a with calRun := none, searching := false, calEnd := some stop }
    let d := if calDisturbs kind ∧ start < stop then
        { b with zeroed := b.zeroed ++ [(start, stop)], disturbed := b.disturbed ++ [(start, stop + 32)] } else b
    d.done)
  let s2 := if kind = 2 then s1.releaseAll (tunerReq c)
    else if kind = 4 ∧ start < stop ∧ !early then s1.modSl c (fun x => { x with tx := x.tx.afterVco })
    else s1
  (s2.stage 4 r).calCommands c kind status

/-- The pending kind that may start now (R129, R130): the lowest that is due; a tuner search waits for TR_SW, a
VCO band calibration until no burst command is in hand (R301). -/
def Slice.calNext (x : Slice) (now : Nat) : Option CalPend :=
  x.afe.calPend.find? (fun p => decide (p.at_ ≤ now) && !(p.kind == 2 && x.tx.trSw)
    && !(p.kind == 4 && x.tx.cmd.isSome))

/-- Whether a tuner search can run (R124). -/
def Afe.searchOk (a : Afe) : Bool :=
  a.tunerCircuit && decide (9000 ≤ a.tunerFreq.toNat) && decide (a.tunerFreq.toNat ≤ 30000000)

/-- CAL_INTERVAL_START (R129, R130): at a TB epoch, at least 50 ms after the end of the interval before. A
tuner search asks for its tokens (R124). -/
def execCalIntervalStart (c : Fin 4) (s : State) : Host.Outcome State Fault Refusal :=
  run s fun s =>
    let x := s.sl c
    let rested : Bool := match x.afe.calEnd with
      | some t => decide (t + msTicks 50 ≤ s.tb)
      | none => true
    if s.tb % 2 ^ 20 = 0 ∧ x.up ∧ x.afe.calRun.isNone ∧ rested ∧ !x.clk.coast then
      match x.calNext s.tb with
      | none => s
      | some p =>
        let s1 := s.modAfe c (fun a =>
          { a with calPend := a.calPend.filter (fun q => q.kind != p.kind),
                   calRun := some { kind := p.kind, origin := p.origin, start := s.tb, freq := a.tunerFreq.toNat } })
        if p.kind ≠ 2 then s1
        else if x.afe.searchOk then s1.ask (tunerReq c) 10
        else
          (s1.calFinish c 2 p.origin Status.badParam s.tb s.tb x.afe.tunerFreq.toNat false false []).modAfe c
            (fun a => { a with calEnd := x.afe.calEnd })
    else s

/-- The value that a calibration sets (R124, R127, R130): after one of the ADC or of flatness, the gain in force is
compensated with what it measured. -/
def Afe.apply (a : Afe) (kind : Nat) (v : List Int) (t : Nat) : Afe :=
  let n (i : Nat) : Nat := (v.getD i 0).toNat
  if kind = 1 then ({ a with adcOffset := v.getD 0 0, adcGain := v.getD 1 0 }).regain t
  else if kind = 2 then
    let w := mkWord [(16, 2, n 2), (8, 8, n 0), (0, 8, n 1)]
    { (if a.tunerNow = w then a else a.step t) with tuner := w, tunerNow := w }
  else if kind = 3 then ({ a with latency := n 2, stepSizes := v.drop 3 }).regain t
  else if kind = 4 then { a with vcoBands := n 0 }
  else a

/-- The calibration record in flash of a cartridge after a write (R132). -/
def CalStore.put (k : CalStore) (kind : Nat) (v : List Int) (freq : Nat) : CalStore :=
  let n (i : Nat) : Nat := (v.getD i 0).toNat
  if kind = 1 then { k with adc := some (v.getD 0 0, v.getD 1 0) }
  else if kind = 2 then { k with tuner := some (n 0, n 1, n 2), tunerFreq := freq }
  else if kind = 3 then { k with flat := some v }
  else k

/-- The results of a calibration stored in flash under its budget (R132, R397). The answer says whether the
write was refused. -/
def State.calStoreWrite (s : State) (c : Fin 4) (kind : Nat) (v : List Int) (freq : Nat) : State × Bool :=
  match (s.sl c).cart with
  | none => (s, true)
  | some k =>
    match s.flashWrite (.pool 4) (.cal k.id kind v freq) with
    | some t => (t, false)
    | none => (s.flashDeny, true)

/-- CAL_INTERVAL_END (R124, R130, R132): the interval in progress ends with what it measured. -/
def execCalIntervalEnd (c : Fin 4) (result : CalOutcome) (s : State) : Host.Outcome State Fault Refusal :=
  run s fun s =>
    match (s.sl c).afe.calRun with
    | none => s
    | some r =>
      if result.kind ≠ r.kind ∨ (r.kind = 2 ∧ !(s.sl c).afe.searching) then s
      else if result.status ≠ 0 then
        s.calFinish c r.kind r.origin result.status.toNat r.start s.tb r.freq false false []
      else
        let s1 := s.modAfe c (fun a => a.apply r.kind result.fields s.tb)
        let p := if r.kind = 4 then (s1, false) else s1.calStoreWrite c r.kind result.fields r.freq
        p.1.calFinish c r.kind r.origin Status.ok r.start s.tb r.freq false p.2 result.fields

/-- A running kind cut short by lock loss or by a lock-up of the front end (R131). -/
def State.calCut (s : State) (c : Fin 4) (status : Nat) : State :=
  match (s.sl c).afe.calRun with
  | some r => s.calFinish c r.kind r.origin status r.start s.tb r.freq true false []
  | none => s

/-- Calibration when its slice stops: commands that wait end with REJECTED_STATE, requests are dropped. -/
def State.calStop (s : State) (c : Fin 4) : State :=
  let cmds := (s.sl c).afe.calCmds
  let s1 := (s.modAfe c (fun a =>
    { a with calCmds := [], calPend := [], calRun := none, calHeld := [], searching := false })).releaseAll
      (tunerReq c)
  cmds.foldl (fun t k => t.complete k.cmd Status.rejected []) s1

/-! ### Mismatch monitor (R125, R126) -/

/-- The probe frequency (R125). -/
def Afe.probe (a : Afe) : Nat :=
  if a.tunerCircuit then a.tunerFreq.toNat else a.monFreq.toNat

/-- Whether the monitor measures now (R125). -/
def Slice.monitorDue (x : Slice) (real : Nat) : Bool :=
  x.up && bit x.afe.monCfg 22 && x.afe.probe != 0 && !x.tx.trSw &&
    (match x.afe.measuredAt with
    | some t => decide (t + secTicks (bf x.afe.monCfg 24 8) ≤ real)
    | none => true)

/-- The CAL_RESULT of a mismatch edge (R126). -/
def State.mismatchRecord (s : State) (c : Fin 4) (rl : Nat) (edge : Nat) : State :=
  s.stage 4 (s.calRecord c 8 0 0xFF 0 s.tb s.tb [rl, bf (s.sl c).afe.monCfg 0 16, edge] (s.sl c).afe.probe)

/-- MISMATCH_MEASUREMENT (R125, R126). -/
def execMismatchMeasurement (c : Fin 4) (rl : BitVec 16) (s : State) : Host.Outcome State Fault Refusal :=
  run s fun s =>
    let x := s.sl c
    let thresh := bf x.afe.monCfg 0 16
    if x.monitorDue s.real then
      let s1 := s.modAfe c (fun a => { a with rl := rl.toNat, measuredAt := some s.real })
      if rl.toNat < thresh ∧ !x.afe.mismatch then
        let s2 := (s1.modAfe c (fun a => { a with mismatch := true, events := raise a.events 1 })).mismatchRecord
          c rl.toNat 0
        if bit x.afe.monCfg 23 ∧ x.afe.tunerCircuit then s2.modAfe c (fun a => a.request 2 3 s.tb) else s2
      else if thresh + 10 ≤ rl.toNat ∧ x.afe.mismatch then
        (s1.modAfe c (fun a => { a with mismatch := false, events := raise a.events 2 })).mismatchRecord
          c rl.toNat 1
      else s1
    else s

/-! ### CAL_BG (R134, R135) -/

/-- Whether CAL_BG runs in a slice (R134). -/
def State.calBgOn (s : State) (c : Fin 4) : Bool :=
  s.feature 0 && (match (s.sl c).inForce with
    | some f => f.calBg
    | none => false)

/-- A trim abandoned (R135). -/
def Afe.bgAbandon (a : Afe) : Afe :=
  { a with bgAbandoned := count 16 1 a.bgAbandoned, events := raise a.events 4 }

/-- A trim completed (R135). -/
def Afe.bgDone (a : Afe) : Afe := { a with bgTrims := count 16 1 a.bgTrims }

/-- The synthesiser trim at time `now` (R134): it has lasted at most 100 µs. -/
def Afe.synthTrim (a : Afe) (now : Nat) : Bool := a.bgRun && decide (now < a.bgStart + usTicks 100)

/-- The end of the synthesiser trim that a burst command or its own length brings (R134, R135). -/
def Afe.endSynth (a : Afe) (now : Nat) : Afe :=
  if !a.bgRun then a
  else
    let b := { a with bgRun := false }
    if a.synthTrim now then b.bgAbandon else b.bgDone

/-- The DC trim of tuning `t` ends because its RSSI rises above the threshold (R135). -/
def Afe.dcRise (a : Afe) (t : Nat) : Afe :=
  if a.bgDc.contains t then ({ a with bgDc := a.bgDc.filter (fun k => k != t) }).bgAbandon else a

/-- Whether no acquirer on tuning `t` has seen an RSSI above its threshold for 2 ms (R134). -/
def Slice.dcQuiet (x : Slice) (f : Forme) (t now : Nat) : Bool :=
  (f.instOf t).all (fun n => match (vget x.acq n Acq.reset).lastAbove with
    | some u => decide (u + msTicks 2 ≤ now)
    | none => true)

/-- Whether a tuning is narrow and feeds an LDB instance (R134). -/
def Forme.feedsLdb (f : Forme) (t : Nat) : Bool :=
  decide (8 ≤ t) && tnEnable (f.tn t) && (f.instOf t).any (fun n => dmProfile (f.dm n) == 8)

/-- The greatest change of one DC trim: 2^-12 of full scale, in steps of a 24-bit component (R134, R146). -/
def dcLimit : Int := 2048

/-- CALBG_SYNTH_TRIM (R134, R135): the trim of the transmitter synthesiser starts where no burst is pending and
200 µs have passed since the last ramp-down; the next command ends it. -/
def execCalbgSynthTrim (c : Fin 4) (abandoned : Bool) (s : State) : Host.Outcome State Fault Refusal :=
  run s fun s =>
    let x := s.sl c
    if x.afe.bgRun then
      s.modAfe c (fun a =>
        let b := { a with bgRun := false }
        if abandoned && a.synthTrim s.tb then b.bgAbandon else b.bgDone)
    else if s.calBgOn c ∧ x.tx.state = .idle ∧ x.tx.cmd.isNone ∧ x.tx.lastRampDown + usTicks 200 ≤ s.real then
      s.modAfe c (fun a => { a with bgRun := true, bgStart := s.tb })
    else s

end Sys2Proof.Machine
end

