-- ==== Sys2Proof/Machine/FormeCheck.lean ====
section
/-! DEFINITION. The forme loader's checks: header, records and ranges (R48 to R68, R159, R209), the merge of
an amendment (R81), the checks of R69 with the additions of R159, R209, R276, R298 and R327, and the
placement of cells (R70). -/

namespace Sys2Proof.Machine

open Sys2Proof

/-- A failed check: its code, and the TYPE and KEY of the record that failed, where one did. -/
abbrev FormeErr := Nat × Option (Nat × Nat)

/-! ### Header (R48, R53) -/

/-- The header check, on the first 48 bytes, in the order R53 gives. -/
def headerCheck (b : List Byte) : Option Nat :=
  let n := u32 b 8
  if u32 b 0 ≠ 0x464D4C51 then some 0x30
  else if u32 b 40 ≠ crc32 (b.take 40) then some 0x30
  else if u16 b 4 ≠ 1 then some 0x03
  else if u8 b 6 ≠ 1 ∧ u8 b 6 ≠ 2 then some 0x03
  else if u8 b 7 ≠ 0 ∨ u32 b 44 ≠ 0 then some 0x03
  else if 262144 < n then some 0x32
  else if n < 56 ∨ n % 4 ≠ 0 then some 0x03
  else none

/-! ### Ranges of record payloads -/

/-- Whether `v` lies within `lo` to `hi`. -/
def within (lo hi v : Nat) : Bool := decide (lo ≤ v) && decide (v ≤ hi)

/-- A queue field: a record queue, or 0xFF for none. -/
def queueOrNone (v : Nat) : Bool := within 0 51 v || v == 0xFF

/-- Whether `n` bytes from offset `o` are zero. -/
def zeros (p : List Byte) (o n : Nat) : Bool := ofLe (slice p o n) == 0

/-- The parameters of each profile within their ranges, at their length (R159, R170 to R176, R198). -/
def paramsOk (profile : Nat) (q : List Byte) : Bool :=
  match profile with
  | 1 => q.length == 8 && (u16 q 0 == 0 || within 2500 10000 (u16 q 0)) && within 0 2 (u8 q 2)
      && within 0 2 (u8 q 3) && within 0 100 (u8 q 4) && queueOrNone (u8 q 5) && zeros q 6 2
  | 2 => q.length == 8 && (u16 q 0 == 0 || within 500 9000 (u16 q 0))
      && (u16 q 2 == 0 || within 5 200 (u16 q 2)) && within 0 1 (u8 q 4)
      && (u8 q 5 == 0 || within 5 200 (u8 q 5)) && zeros q 6 2
      && (u8 q 4 == 0 || decide ((if u8 q 5 = 0 then 50 else u8 q 5)
            ≤ 2 * (if u16 q 2 = 0 then 25 else u16 q 2)))
  | 3 => q.length == 8 && within 0 2 (u8 q 0) && within 0 1 (u8 q 1) && within 0 15 (u8 q 2)
      && within 0 1 (u8 q 3) && within 0 2 (u8 q 4) && queueOrNone (u8 q 5)
      && (u8 q 6 == 0 || within 50 150 (u8 q 6)) && zeros q 7 1
  | 4 => within 0 8 (u8 q 0) && q.length == 4 + 4 * u8 q 0 && zeros q 1 3
      && ((List.range (u8 q 0)).all (fun i => within 0 63 (u8 q (4 + 4 * i)) && zeros q (5 + 4 * i) 3))
      && decide ((List.range (u8 q 0)).map (fun i => u8 q (4 + 4 * i))).Nodup
  | 5 => q.length == 4 && within 0 4 (u8 q 0) && (within 0 5 (u8 q 1) || u8 q 1 == 0xFF)
      && within 0 15 (u8 q 2) && zeros q 3 1
  | 6 => q.length == 4 && (u8 q 0 == 0 || u8 q 0 == 5) && u8 q 1 == 0xFF && within 0 15 (u8 q 2)
      && zeros q 3 1
  | 7 => q.length == 4 && within 1 6 (u8 q 0) && within 0 50 (u8 q 1) && zeros q 2 2
  | 8 => q.length == 12 && within 0 1 (u8 q 0) && within 0 1 (u8 q 1)
      && (u16 q 2 == 0 || within 30 400 (u16 q 2)) && (u8 q 4 == 0 || within 128 255 (u8 q 4))
      && (u8 q 5 == 0 || within 3 12 (u8 q 5)) && queueOrNone (u8 q 6) && within 0 1 (u8 q 7)
      && zeros q 10 2 && !(u8 q 0 == 0 && u8 q 1 == 1)
  | _ => false

/-- A SELECTOR within its ranges (R210). -/
def selectorOk (parser sel : Nat) : Bool :=
  let hi := bitsOf sel 16 16
  match parser with
  | 1 => true
  | 2 => hi != 0 && bitsOf sel 1 15 == 0
  | 3 => bitsOf sel 4 12 == 0 && bitsOf sel 1 3 != 0 && (bitsOf sel 0 1 == 0 || hi != 0)
  | 4 => bitsOf sel 8 24 == 0
  | 5 => hi == 0 && bitsOf sel 0 10 != 0
  | 6 => bitsOf sel 2 30 == 0 && bitsOf sel 0 2 != 0
  | 7 => bitsOf sel 6 26 == 0 && bitsOf sel 3 1 == 0 && (bitsOf sel 2 1 == 1 || bitsOf sel 4 2 == 0)
  | 8 => hi == 0
  | 9 => sel == 0
  | 10 => bitsOf sel 4 11 == 0
  | _ => false

/-- Whether a KEY lies in the range that its type states (R55 to R68). -/
def keyOk (type key : Nat) : Bool :=
  match type with
  | 1 => key == 0
  | 2 => within 0 31 key
  | 3 => within 0 63 key
  | 4 => within 0 47 key
  | 5 => within 0 255 key
  | 6 => within 0 255 key
  | 7 => within 0 59 key && key != 52
  | 8 => within 0 63 key
  | 9 => within 0 255 key
  | 10 => key == 0
  | 11 => key == 0
  | 12 => within 0 7 key
  | 13 => within 0 2 key
  | _ => false

/-- Whether a payload has the length and every field the range that its type states (R55 to R68). The
ranges that depend on other records are checked over the whole forme. -/
def payloadOk (r : FormeRec) : Bool :=
  let p := r.payload
  let k := r.key
  let n := p.length
  match r.type with
  | 1 => k == 0 && n == 20 && within 0 1 (u8 p 0) && within 0 1 (u8 p 1)
      && (if u8 p 1 = 1 then within 0 5 (u8 p 2) else u8 p 2 == 0) && within 0 1 (u8 p 3)
      && within 0 48 (u8 p 8) && within 0 1 (u8 p 14) && within 0 31 (u8 p 15) && zeros p 16 4
  | 2 => within 0 31 k && n == 24 && u8 p 0 == (if k < 8 then 0 else 1) && within 0 1 (u8 p 1)
      && within 1 255 (tnTaps p)
      && (if k < 8 then within 4 256 (tnCic p) && within 1 64 (tnFir p)
          else tnCic p == 0 && tnFir p == 0)
      && within 0 1 (u8 p 15) && within 0 1024 (tnXfade p) && within 4 1024 (tnBufKib p)
      && queueOrNone (tnQueue p) && within 0 63 (tnCicShift p) && within 0 31 (tnFirShift p)
      && zeros p 23 1
  | 3 => within 0 63 k && within 1 255 (u16 p 0) && n == 4 + 4 * ((u16 p 0 + 1) / 2) && zeros p 2 2
      && (List.range ((u16 p 0 + 1) / 2)).all (fun i =>
          let v := bitsOf (u32 p (4 + 4 * i)) 19 13
          v == 0 || v == 0x1FFF)
  | 4 => within 0 47 k && within 1 8 (dmProfile p) && within 0 31 (dmTuning p)
      && (dmCellBase p == 0xFF || decide (dmCellBase p + dmCells p ≤ 48)) && within 0 1 (u8 p 4)
      && (u8 p 4 == 0 || dmProfile p == 1 || dmProfile p == 3) && zeros p 5 1
      && within 0 256 (u16 p 6) && u16 p 6 % 4 == 0 && n == 8 + u16 p 6
      && paramsOk (dmProfile p) (dmParams p)
  | 5 => within 0 255 k && n == 12 && within 1 10 (cxParser p) && within 0 47 (cxDemod p)
      && within 0 2 (cxDelivery p) && within 0 51 (cxQueue p) && within 0 1 (u8 p 8) && zeros p 9 3
      && selectorOk (cxParser p) (cxSelector p)
  | 6 => within 0 255 k && within 1 256 (u16 p 0) && n == 4 + 4 * u16 p 0 && zeros p 2 2
      && (List.range (u16 p 0)).all (fun i => within 0 63 (u8 p (5 + 4 * i)) && zeros p (6 + 4 * i) 2)
      && decide ((kmLabels p).map (fun l => l.1)).Nodup
  | 7 => within 0 59 k && k != 52 && n == 4 && u8 p 0 == (if k < 52 then 0 else 1)
      && (if k < 52 then within 0 1 (u8 p 1) && within 0 2 (u8 p 2) else u8 p 1 == 0 && u8 p 2 == 0)
      && zeros p 3 1
  | 8 => within 0 63 k && n == 12 && within 0 7 (ruPin p) && within 1 3 (ruAction p)
      && within 0 1 (u8 p 3) && (if ruAction p = 3 then decide (1 ≤ ruPulseUs p) else ruPulseUs p == 0)
      && (let c := bitsOf (ruMatch p) 24 8; c == 1 || c == 2 || c == 4)
  | 9 => within 0 255 k && n == 8 && within 0 15 (afMethods p) && within 1 16 (afMaxCand p)
      && within 0 300 (afHystCb p) && within 0 60000 (afHoldMs p) && within 10 10000 (afCheckMs p)
  | 10 => k == 0 && n == 20 && within 30000000 470000000 (txFreq p) && within 0 1 (txChannel p)
      && within 0 1 (txSymrate p) && decide (-120 ≤ sext 16 (txLevel p)) && decide (sext 16 (txLevel p) ≤ 12)
      && within 32 512 (txRampUs p) && within 0 20000 (u16 p 12)
      && (within 0 63 (txGenSlot p) || txGenSlot p == 0xFF) && within 53 59 (txCmdQueue p)
      && within 0 51 (txStatusQueue p) && zeros p 17 3 && !(txChannel p == 0 && txSymrate p == 1)
  | 11 => k == 0 && n == 16 && within 0 2 (auFormat p)
      && (auWord p == 16 || auWord p == 24 || auWord p == 32)
      && (if auFormat p = 2 then within 1 8 (u8 p 2) else u8 p 2 == 2) && within 0 3 (u8 p 3)
      && within 8000 96000 (auRate p) && decide (auTxMask p < 2 ^ auSlots p)
      && decide (auRxMask p < 2 ^ auSlots p) && within 0 250 (u16 p 10) && queueOrNone (auRxQueue p)
      && zeros p 13 3
  | 12 => within 0 7 k && n == 8 && u32 p 0 % 4096 == 0 && u32 p 4 % 4096 == 0
      && decide (u32 p 0 + u32 p 4 ≤ 0xC00000)
  | 13 => within 0 2 k && n == 4 && within 4 256 (u16 p 0) && within 1 64 (u8 p 2) && zeros p 3 1
      && u16 p 0 * u8 p 2 % 2 == 0
  | _ => false

/-! ### Records of a loaded forme (R49, R52, R53) -/

/-- The records between header and trailer, each with its OP. `kind` is the forme's KIND. A record that
runs past the end disagrees with TOTAL_LENGTH. -/
def parseRecs (kind : Nat) : Nat → List Byte → Except FormeErr (List (Nat × FormeRec))
  | 0, _ => .ok []
  | fuel + 1, b =>
    if b.isEmpty then .ok []
    else
      let n := u16 b 6
      let r : FormeRec := { type := u16 b 0, key := u16 b 4, payload := slice b 8 n }
      let who := some (r.type, r.key)
      if b.length < 12 + n then .error (0x30, who)
      else if u32 b (8 + n) ≠ crc32 (b.take (8 + n)) then .error (0x30, who)
      else if r.type = 0 ∨ 13 < r.type then .error (0x03, who)
      else if (kind = 1 ∧ u8 b 2 ≠ 0) ∨ (kind = 2 ∧ ¬ within 1 3 (u8 b 2)) then .error (0x03, who)
      else if u8 b 3 ≠ 0 ∨ 2048 < n ∨ n % 4 ≠ 0 then .error (0x03, who)
      else if u8 b 2 = 3 ∧ n ≠ 0 then .error (0x03, who)
      else if !keyOk r.type r.key then .error (0x03, who)
      else if u8 b 2 ≠ 3 ∧ !payloadOk r then .error (0x03, who)
      else
        match parseRecs kind fuel (b.drop (12 + n)) with
        | .error e => .error e
        | .ok rs => .ok ((u8 b 2, r) :: rs)

/-- The place of a record in the order of R52. -/
def FormeRec.rank (r : FormeRec) : Nat := r.type * 65536 + r.key

/-- The first record that does not stand above its predecessor (R52). -/
def orderBad : List FormeRec → Option FormeRec
  | a :: b :: rs => if a.rank < b.rank then orderBad (b :: rs) else some b
  | _ => none

/-! ### Amendments (R81) -/

/-- One record of an amendment applied to the records of the active forme. -/
def applyAmend (rs : List FormeRec) (o : Nat × FormeRec) : Except FormeErr (List FormeRec) :=
  let r := o.2
  let there := rs.any (fun x => x.rank == r.rank)
  let rest := rs.filter (fun x => x.rank != r.rank)
  if o.1 = 1 then (if there then .error (0x31, some (r.type, r.key)) else .ok (insertBy FormeRec.rank r rs))
  else if !there then .error (0x31, some (r.type, r.key))
  else if o.1 = 2 then .ok (insertBy FormeRec.rank r rest)
  else if r.type = 1 then .error (0x31, some (r.type, r.key))
  else .ok rest

/-- Every record of an amendment, in order. -/
def applyAll : List FormeRec → List (Nat × FormeRec) → Except FormeErr (List FormeRec)
  | rs, [] => .ok rs
  | rs, o :: os =>
    match applyAmend rs o with
    | .error e => .error e
    | .ok rs' => applyAll rs' os

/-- A forme of TOTAL_LENGTH bytes, checked under R53 and merged where it is an amendment (R81). `active`
is the valid active forme. The answer holds the active FORME_CRC that an amendment was merged with (R82). DESIGN CHOICE:
NAME is taken as any 16 bytes; R48 calls it ASCII padded with zeros and names no check of it (log entry 76). -/
def parseForme (b : List Byte) (active : Option Forme) : Except FormeErr (Forme × Option Word) :=
  let n := u32 b 8
  let kind := u8 b 6
  match headerCheck b with
  | some c => .error (c, none)
  | none =>
    if b.length ≠ n then .error (0x30, none)
    else if u32 b (n - 8) ≠ 0x444E4546 ∨ u32 b (n - 4) ≠ crc32 (b.take (n - 4)) then .error (0x30, none)
    else if kind = 1 ∧ u32 b 20 ≠ 0 then .error (0x03, none)
    else
      match parseRecs kind (b.length / 12 + 1) (slice b 48 (n - 56)) with
      | .error e => .error e
      | .ok rs =>
        if rs.length ≠ u32 b 12 then .error (0x30, none)
        else
          match orderBad (rs.map (fun o => o.2)) with
          | some r => .error (0x31, some (r.type, r.key))
          | none =>
            let gen := BitVec.ofNat 32 (u32 b 16)
            let name := slice b 24 16
            if kind = 1 then
              .ok ({ generation := gen, name := name, recs := rs.map (fun o => o.2),
                     crc := BitVec.ofNat 32 (u32 b (n - 4)) }, none)
            else
              match active with
              | none => .error (0x31, none)
              | some a =>
                if a.crc.toNat ≠ u32 b 20 then .error (0x31, none)
                else
                  match applyAll a.recs rs with
                  | .error e => .error e
                  | .ok m =>
                    let f := Forme.ofRecs gen name m
                    if 262144 < f.bytes.length then .error (0x32, none) else .ok (f, some a.crc)

/-! ### Checks over the whole forme (R69) -/

/-- What the checks of R69 need of the slice and the module. -/
structure CheckEnv where
  isolated : List Nat
  isolatedFir : List Nat
  otherClaims : Nat
  calBg : Bool
  deriving DecidableEq, Repr

/-- Cells of a profile (R59). -/
def profileCells (p : Nat) : Nat := ([1, 1, 3, 8, 4, 6, 1, 2] : List Nat).getD (p - 1) 0

/-- Profiles that need a wide tuning (R60). -/
def profileWide (p : Nat) : Bool := p == 3 || p == 4 || p == 6

/-- The least BUF_KIB of a profile (R159, R198). -/
def profileBuf (p : Nat) : Nat := ([8, 8, 32, 64, 64, 64, 8, 16] : List Nat).getD (p - 1) 0

/-- Whether a profile feeds a parser (R159). -/
def profileFeeds (p parser : Nat) : Bool :=
  match p with
  | 2 => parser == 8
  | 3 => within 1 3 parser
  | 4 => parser == 4 || parser == 5
  | 5 => parser == 6 || parser == 7
  | 6 => parser == 6 || parser == 7
  | 7 => parser == 9
  | 8 => parser == 10
  | _ => false

/-- SCLK frequency, in Hz (R88). -/
def sclkHz : Nat := 1024000000

/-- Whether a profile accepts an output period of `p` ticks (R159, R198): rates are compared as
1.024 GHz against rate × period. -/
def profileRate (profile p : Nat) (q : List Byte) : Bool :=
  let atLeast (hz : Nat) : Bool := decide (hz * p ≤ sclkHz)
  let atMost (hz : Nat) : Bool := decide (sclkHz ≤ hz * p)
  let exactly (hz : Nat) : Bool := sclkHz == hz * p
  match profile with
  | 1 => atLeast 15625 && atMost 256000
      && atLeast (2 * (if u16 q 0 = 0 then 4500 else u16 q 0))
  | 3 => exactly 256000 || exactly 512000
  | 4 => exactly 2048000
  | 5 => atLeast 32000 && atMost 256000
  | 6 => exactly 256000 || exactly 512000
  | 8 => atLeast 15625 && atMost 256000 && atLeast (4 * (if u8 q 1 = 0 then 4800 else 9600))
      && atLeast (if u8 q 0 = 0 then 16000 else 32000)
  | _ => atLeast 15625 && atMost 256000

/-- The audio partner of a context (R231). -/
def Forme.partner (f : Forme) (x : Nat) : Option Nat :=
  let n := cxDemod (f.cx x)
  let d := f.dm n
  if dmProfile d = 1 ∨ dmProfile d = 3 then some n
  else if within 4 6 (dmProfile d) then none
  else ((f.ofType 4).find? (fun r => dmProfile r.payload == 1 &&
    tnFreq (f.tn (dmTuning r.payload)) == tnFreq (f.tn (dmTuning d)))).map (fun r => r.key)

/-- The context that leads an instance (R219). -/
def Forme.lead (f : Forme) (n : Nat) : Option Nat :=
  (f.contextsOf n).find? (fun x => f.has 9 x)

/-- The queue of AUDIO records of an instance, 0xFF for none (R170, R172). -/
def dmAudioQueue (p : List Byte) : Nat :=
  if dmProfile p = 1 ∨ dmProfile p = 3 then u8 (dmParams p) 5 else 0xFF

/-- The queue of BURST records of an instance, 0xFF for none (R198). -/
def dmBurstQueue (p : List Byte) : Nat := if dmProfile p = 8 then u8 (dmParams p) 6 else 0xFF

/-- Pairs of a list, each element with every later one. -/
def pairs {α : Type} : List α → List (α × α)
  | [] => []
  | x :: xs => xs.map (fun y => (x, y)) ++ pairs xs

/-- The lowest free run of `n` of the 48 cells, none of them taken. -/
def freeRun (taken : List Nat) (n : Nat) : Option Nat :=
  (List.range (49 - n)).find? (fun b => (List.range n).all (fun i => !taken.contains (b + i)))

/-- The cells of a run. -/
def runOf (b n : Nat) : List Nat := (List.range n).map (fun i => b + i)

/-- The placement of R70: explicit bases first, then in order of key every instance whose base is 0xFF
or falls on an isolated cell. None where some instance finds no run: DESIGN CHOICE, the forme then fails with
FORME_CAPACITY on its SLICE record (log entry 76). -/
def placeCells (f : Forme) (isolated : List Nat) : Option (List (Nat × Nat)) :=
  let ds := f.ofType 4
  let fixed (r : FormeRec) : Bool :=
    dmCellBase r.payload != 0xFF &&
      (runOf (dmCellBase r.payload) (dmCells r.payload)).all (fun i => !isolated.contains i)
  let start := (ds.filter fixed).map (fun r => (r.key, dmCellBase r.payload))
  let taken := isolated ++ (ds.filter fixed).flatMap (fun r =>
    runOf (dmCellBase r.payload) (dmCells r.payload))
  let step (a : Option (List (Nat × Nat) × List Nat)) (r : FormeRec) :
      Option (List (Nat × Nat) × List Nat) :=
    a.bind (fun a => (freeRun a.2 (dmCells r.payload)).map (fun b =>
      (a.1 ++ [(r.key, b)], a.2 ++ runOf b (dmCells r.payload))))
  ((ds.filter (fun r => !fixed r)).foldl step (some (start, taken))).map (fun a => a.1)

/-- The filter cells of a tuning's class: one for each tuning, of which a tuning takes only one of its own class (R19,
log entry 72). -/
def firCells (t : Nat) : List Nat := if t < 8 then List.range 8 else (List.range 24).map (fun i => i + 8)

/-- The tunings that a forme gives a filter cell: those with a record and the spare ones. -/
def Forme.firUsers (f : Forme) : List Nat :=
  (List.range 32).filter (fun t => f.has 2 t || f.spareTunings.testBit t)

/-- The filter cell of each tuning (R19): its own one, or where that is isolated, in order of key, the lowest free one of
its class. None where some tuning finds no cell. -/
def placeFir (f : Forme) (isolated : List Nat) : Option (List (Nat × Nat)) :=
  let us := f.firUsers
  let home := (us.filter (fun t => !isolated.contains t)).map (fun t => (t, t))
  (us.filter (fun t => isolated.contains t)).foldl (fun a t => a.bind (fun l =>
    ((firCells t).find? (fun n => !isolated.contains n && !(l.map Prod.snd).contains n)).map (fun n => l ++ [(t, n)])))
    (some home)

/-- The cells marked spare (R70): the lowest that are neither placed nor isolated. -/
def spareCellsOf (f : Forme) (isolated : List Nat) (places : List (Nat × Nat)) : List Nat :=
  let taken := isolated ++ places.flatMap (fun p => runOf p.2 (dmCells (f.dm p.1)))
  ((List.range 48).filter (fun i => !taken.contains i)).take f.spareCells

/-- The number of bits set among the low 32. -/
def popcount (v : Nat) : Nat := ((List.range 32).filter (fun i => v.testBit i)).length

/-- The SRAM need of a forme in KiB (R69). -/
def Forme.sramNeed (f : Forme) : Nat :=
  1024 + 64 * f.demodCells + 256 * popcount f.spareTunings + (f.ofType 5).length
    + 16 * (f.ofType 7).length + ((f.ofType 2).map (fun r => tnBufKib r.payload)).sum
    + (f.regions.map (fun r => r.2 / 1024)).sum

/-- FIR operations of a group per output sample (R69). -/
def Forme.groupLoad (f : Forme) (g : Nat) : Nat :=
  ((f.ofType 2).map (fun r =>
    if 8 ≤ r.key ∧ (r.key - 8) / 8 = g then (tnTaps r.payload + 2) / 2 else 0)).sum

/-- The checks of R69 and of the chapters that add to it, in the order of R69's table with the additions
after it: each a list of failures with the code and the record. DESIGN CHOICE (log entry 76): a missing KEYMAP, and a
KEYMAP for a plain context, are reported with the CONTEXT record (R62 names no record), and a region of SIZE 0 inside
another region overlaps it (R68). -/
def formeChecks (f : Forme) (e : CheckEnv) : List (Bool × Nat × Nat × Nat) :=
  let q (n : Nat) : Bool := n == 0xFF || f.has 7 n
  -- tokens of the SLICE record (R370)
  [(!f.has 1 0, 0x31, 1, 0),
   (f.rxTokens != 0 && decide (f.rxTokens < f.rxNeed), 0x03, 1, 0),
   (f.tx.isSome && decide (f.txTokens < 28), 0x03, 1, 0),
   (f.tx.isNone && f.txTokens != 0, 0x03, 1, 0)]
  -- references (R57, R58, R61, R62, R298)
  ++ (f.ofType 2).map (fun r => (!q (tnQueue r.payload) ||
      (decide (8 ≤ r.key) && !f.has 13 ((r.key - 8) / 8)), 0x31, 2, r.key))
  ++ (f.ofType 3).map (fun r => (!f.has 2 (r.key / 2) ||
      tnTaps (f.tn (r.key / 2)) != u16 r.payload 0, 0x31, 3, r.key))
  ++ (f.ofType 4).map (fun r => (!f.has 2 (dmTuning r.payload) || !q (dmAudioQueue r.payload)
      || !q (dmBurstQueue r.payload), 0x31, 4, r.key))
  ++ (f.ofType 5).map (fun r => (!f.has 4 (cxDemod r.payload) || !f.has 7 (cxQueue r.payload)
      || (cxDelivery r.payload != 0) != f.has 6 r.key, 0x31, 5, r.key))
  ++ (f.ofType 6).map (fun r => (!f.has 5 r.key, 0x31, 6, r.key))
  ++ (f.ofType 8).map (fun r => (!f.has 5 (ruContext r.payload), 0x31, 8, r.key))
  ++ (f.ofType 9).map (fun r => (!f.has 5 r.key, 0x31, 9, r.key))
  ++ (f.ofType 10).map (fun r => (!f.has 7 (txCmdQueue r.payload) || !f.has 7 (txStatusQueue r.payload),
      0x31, 10, r.key))
  ++ (f.ofType 11).map (fun r => (!q (auRxQueue r.payload), 0x31, 11, r.key))
  ++ (pairs (f.ofType 12)).map (fun p =>
      (decide (u32 p.1.payload 0 < u32 p.2.payload 0 + u32 p.2.payload 4 ∧
        u32 p.2.payload 0 < u32 p.1.payload 0 + u32 p.1.payload 4), 0x31, 12, p.2.key))
  -- profile against tuning class, cells, one instance per tuning (R59, R60)
  ++ (f.ofType 4).map (fun r => (profileWide (dmProfile r.payload) != decide (dmTuning r.payload < 8)
      || dmCells r.payload != profileCells (dmProfile r.payload)
      || decide (1 < (f.instOf (dmTuning r.payload)).length), 0x31, 4, r.key))
  -- cells
  ++ (pairs ((f.ofType 4).filter (fun r => dmCellBase r.payload != 0xFF))).map (fun p =>
      (decide (dmCellBase p.1.payload < dmCellBase p.2.payload + dmCells p.2.payload ∧
        dmCellBase p.2.payload < dmCellBase p.1.payload + dmCells p.1.payload), 0x31, 4, p.2.key))
  ++ [(decide (48 < f.demodCells + f.spareCells + e.isolated.length), 0x32, 1, 0),
      ((placeCells f e.isolated).isNone, 0x32, 1, 0),
      ((placeFir f e.isolatedFir).isNone, 0x32, 1, 0)]
  -- rates and FIR load
  ++ ((f.ofType 2).filter (fun r => r.key < 8)).map (fun r =>
      (decide (2048000 * f.period r.key < sclkHz), 0x03, 2, r.key))
  ++ (f.ofType 13).map (fun r => (decide (256000 * f.period (8 + 8 * r.key) < sclkHz), 0x03, 13, r.key))
  ++ (f.ofType 13).map (fun r =>
      (decide (256000000 * f.period (8 + 8 * r.key) < f.groupLoad r.key * sclkHz), 0x32, 13, r.key))
  -- labels and SRAM
  ++ [(decide (1024 < ((f.ofType 6).map (fun r => u16 r.payload 0)).sum), 0x32, 6,
        ((f.keys 6).getLast?).getD 0),
      (decide (12288 < f.sramNeed), 0x32, 1, 0)]
  -- concurrency mode
  ++ [(f.concMode == 1 && (f.spareTunings == 0 || f.spareCells == 0), 0x31, 1, 0),
      (f.concMode == 0 && (f.spareTunings != 0 || f.spareCells != 0), 0x31, 1, 0)]
  ++ (f.ofType 2).map (fun r => (f.spareTunings.testBit r.key, 0x31, 2, r.key))
  -- EVT claims and rules
  ++ [(f.evtClaim &&& e.otherClaims != 0, 0x31, 1, 0)]
  ++ (f.ofType 8).map (fun r => (!f.evtClaim.testBit (ruPin r.payload), 0x31, 8, r.key))
  -- CAL_BG
  ++ [(f.calBg && !e.calBg, 0x42, 1, 0)]
  -- R159
  ++ (f.ofType 4).map (fun r => (!profileRate (dmProfile r.payload) (f.period (dmTuning r.payload))
        (dmParams r.payload)
      || decide (tnBufKib (f.tn (dmTuning r.payload)) < profileBuf (dmProfile r.payload)), 0x31, 4, r.key))
  ++ (f.ofType 5).map (fun r => (!profileFeeds (dmProfile (f.dm (cxDemod r.payload)))
      (cxParser r.payload), 0x31, 5, r.key))
  -- R209
  ++ (f.ofType 5).map (fun r =>
      let p := r.payload
      let sel := cxSelector p
      let pa := cxParser p
      let d := f.dm (cxDemod p)
      ((cxDelivery p != 0 && (pa == 1 || pa == 4 || pa == 6 || pa == 9
          || ((pa == 2 || pa == 3) && !sel.testBit 0) || (pa == 7 && !sel.testBit 2)))
        || (pa == 5 && !((List.range (u8 (dmParams d) 0)).any (fun i =>
              u8 (dmParams d) (4 + 4 * i) == bitsOf sel 10 6)))
        || (pa == 7 && !(u8 (dmParams d) 2).testBit (bitsOf sel 0 2))
        || (pa == 3 && (List.range 3).any (fun i => sel.testBit (i + 1) &&
              !(u8 (dmParams d) 2).testBit (i + 1)))
        || (cxAlert p && (f.audio.isNone || (f.partner r.key).isNone)), 0x31, 5, r.key))
  ++ (f.ofType 9).map (fun r =>
      let n := cxDemod (f.cx r.key)
      let prof := dmProfile (f.dm n)
      let m := afMethods r.payload
      (f.lead n != some r.key || (m.testBit 0 && prof != 3) || (m.testBit 1 && prof != 4)
        || (m.testBit 2 && prof != 5 && prof != 6) || (m.testBit 3 && prof != 8), 0x31, 9, r.key))
  ++ (f.ofType 8).map (fun r => (ruAuth r.payload && cxDelivery (f.cx (ruContext r.payload)) == 0,
      0x31, 8, r.key))
  -- R276
  ++ (let cls (n : Nat) : Nat := quClass ((f.find 7 n).getD [])
      let wrong (n k : Nat) : Bool := n != 0xFF && cls n != k
      (f.ofType 2).map (fun r => (wrong (tnQueue r.payload) 2, 0x31, 2, r.key))
      ++ (f.ofType 4).map (fun r => (wrong (dmAudioQueue r.payload) 1 || wrong (dmBurstQueue r.payload) 0,
          0x31, 4, r.key))
      ++ (f.ofType 5).map (fun r => (wrong (cxQueue r.payload) 0
          || ((cxDelivery r.payload != 0 || f.has 9 r.key)
              && quPolicyOld ((f.find 7 (cxQueue r.payload)).getD [])), 0x31, 5, r.key))
      ++ (f.ofType 10).map (fun r => (wrong (txStatusQueue r.payload) 0, 0x31, 10, r.key))
      ++ (f.ofType 11).map (fun r => (wrong (auRxQueue r.payload) 1, 0x31, 11, r.key)))
  -- R327
  ++ (let outs := (f.ofType 4).filter (fun r => dmAudioOut r.payload)
      outs.map (fun r => (f.audio.isNone || decide (1 < outs.length), 0x31, 4, r.key)))

/-- The first check of R69 that a forme fails. -/
def checkForme (f : Forme) (e : CheckEnv) : Option FormeErr :=
  ((formeChecks f e).find? (fun c => c.1)).map (fun c => (c.2.1, some (c.2.2.1, c.2.2.2)))

/-! ### The slice's view of the checks -/

/-- EVT pins claimed by the active formes of the other slices (R69). -/
def State.otherClaims (s : State) (c : Fin 4) : Nat :=
  allSlices.foldl (fun a d =>
    if d = c then a
    else match (s.sl d).forme with
      | some f => a ||| f.evtClaim
      | none => a) 0

/-- What the checks need of slice `c` now. -/
def State.checkEnv (s : State) (c : Fin 4) : CheckEnv :=
  { isolated := (s.sl c).err.isolated, isolatedFir := (s.sl c).err.isolatedFir,
    otherClaims := s.otherClaims c, calBg := s.feature 0 }

end Sys2Proof.Machine
end

