-- ==== Sys2Proof/Machine/Tunings.lean ====
section
/-! DEFINITION. Tunings: their configuration, samples and SAMPLES records (R137, R144 to R150, R288), runtime
changes (R151 to R155) and coefficient writes (R157). -/

namespace Sys2Proof.Machine

open Sys2Proof

/-! ### Configuration -/

/-- Member number of a narrow tuning (R137). -/
def member (t : Nat) : Nat := if t < 8 then 0 else (t - 8) % 8

/-- The chain settings of a tuning (R56, R58, R144). -/
def Forme.conf (f : Forme) (t : Nat) : ChainConf :=
  { cic := f.cic t, fir := f.fir t, taps := tnTaps (f.tn t), cicShift := tnCicShift (f.tn t),
    firShift := tnFirShift (f.tn t), skew := member t * f.period t / 8 }

/-- Whether a tuning exists (R137). -/
def Slice.tunExists (x : Slice) (t : Nat) : Bool :=
  match x.inForce with
  | some f => f.has 2 t
  | none => false

/-- The tuning whose TUNING record a tuning runs under: its own, or for a candidate's spare tuning that of the instance
(R224). -/
def Slice.settingsOf (x : Slice) (f : Forme) (t : Nat) : Nat :=
  match vget x.candInfo t none with
  | some i => dmTuning (f.dm i.key.val)
  | none => t

/-- The chain settings of a tuning as it runs (R144, R224). -/
def Slice.confOf (x : Slice) (f : Forme) (t : Nat) : ChainConf :=
  let k := x.settingsOf f t
  { f.conf k with skew := member t * f.period k / 8 }

/-- Whether a tuning makes samples (R137, R224, R401). -/
def Slice.tunRuns (x : Slice) (t : Nat) : Bool :=
  match x.inForce with
  | some f => (vget x.candInfo t none).isSome || (f.has 2 t && tnEnable (f.tn t) && !(x.tunAt t).faulted)
  | none => false

/-- Whether the slice is in COAST (R104). -/
def Slice.coasting (x : Slice) : Bool := x.clk.coast

/-- The number of coefficient words of a bank (R157). -/
def coefWords (taps : Nat) : Nat := (taps + 1) / 2

/-- The CRC-32 of a bank (R406). -/
def coefCrcOf (l : List (BitVec 20)) : Word := BitVec.ofNat 32 (crc32 (l.flatMap (fun w => le 4 w.toNat)))

/-- The coefficients that a forme gives a bank: zeros where it holds no record (R157). -/
def Forme.bankOf (f : Forme) (t b : Nat) : List (BitVec 20) :=
  let l := f.coefs t b
  let n := coefWords (tnTaps (f.tn t))
  l.take n ++ List.replicate (n - l.length) 0

/-! ### The reset of a chain (R147, R150, R154) -/

/-- The load of a group with the members that cross-fade counted twice, in FIR operations per sample (R69,
R145). -/
def Slice.fadeLoad (x : Slice) (f : Forme) (g extra : Nat) : Nat :=
  f.groupLoad g + ((f.keys 2).map (fun t =>
    if 8 ≤ t ∧ (t - 8) / 8 = g ∧ (t = extra ∨ (x.tunAt t).xfade.isSome) then
      (tnTaps (f.tn t) + 2) / 2
    else 0)).sum

/-- A load in 0.1% of 256,000,000 per second, rounded up (R156). -/
def loadPm (ops period : Nat) : Nat := if period = 0 then 0 else min 2047 (ceilDiv (ops * 4000) period)

/-- A swap to `target` executed (R152): null, plain or with a cross-fade of `len` blends. -/
def Tuning.swapTo (u : Tuning) (target : Bool) (len : Nat) (skipped : Bool) : Tuning :=
  if target = u.bank then { u with events := raise u.events 5 }
  else
    let e := raise u.events 4
    let v := { u with bank := target, swaps := count 16 1 u.swaps }
    if len = 0 then { v with events := e }
    else if skipped then { v with events := raise e 6 }
    else { v with events := e, xfade := some { made := 0, len := len } }

/-- Swap of tuning `t` to `target` in slice `x` (R145, R152). -/
def Slice.execSwap (x : Slice) (f : Forme) (t : Nat) (target : Bool) : Slice :=
  let len := tnXfade (f.tn t)
  let g := (t - 8) / 8
  let load := x.fadeLoad f g t
  let fades := len ≠ 0 ∧ target ≠ (x.tunAt t).bank
  let slow := 8 ≤ t ∧ f.period t < load * 4
  let x1 := x.modTun t (fun u => u.swapTo target len (decide slow))
  if 8 ≤ t ∧ fades ∧ ¬ slow then
    { x1 with grpPeak := vmod x1.grpPeak g (fun p => max p (loadPm load (f.period t))) }
  else x1

/-- The chain reset at air time `at_` with or without REG_EDGE (R150); a cross-fade ends (R154). -/
def Tuning.resetChain (u : Tuning) (cf : ChainConf) (phase0 : Word) (at_ : Nat) (edge : Bool) : Tuning :=
  { u with chain := Chain.zero at_ phase0, gapped := false, regEdge := edge, unsettled := cf.settle + 1,
           xfade := none }

/-- The chain of a tuning kept for the ADC samples before a reset at air time `at_` that no output sample has read
(R142, R147). -/
def Tuning.keepTail (u : Tuning) (cf : ChainConf) (warps : List (Nat × Int)) (at_ : Nat) : Tuning :=
  let stop := (countFrom warps u.chain.at_ at_ - u.chain.at_).toNat
  if u.gapped ∨ stop ≤ u.chain.n then u
  else { u with tails := u.tails ++ [{ chain := u.chain, conf := cf, freq := u.ncoNow, stop := stop }] }

/-- An instance or candidate that searches, synchronises or tracks. -/
def InstState.busy (t : InstState) : Bool := t == .search || t == .sync || t == .track

/-- The phase that the accumulator of a running chain would hold at the sample count `n` (R139, R165). -/
def Chain.phaseAt (k : Chain) (freq : Word) (n : Nat) : Word :=
  k.phi + freq * BitVec.ofNat 32 (if k.n = 0 then n else n + 1 - k.n)

/-- What a registration hands the instance on a wide tuning (R165): NCO_PHASE0 minus the phase replaced, and the new sample
grid minus the old one. -/
def Inst.shift (i : Inst) (dphi : Word) (grid : Int) : Inst :=
  if i.state.busy then
    { i with events := raise i.events 2, rotation := i.rotation + dphi, gridShift := i.gridShift + grid }
  else i

/-- A registration reset at air time `at_` handed to the instance or candidate on tuning `t` (R164, R165). -/
def Slice.handReset (x : Slice) (f : Forme) (warps : List (Nat × Int)) (t at_ : Nat) : Slice :=
  let u := x.tunAt t
  let n := countFrom warps u.chain.at_ at_ - u.chain.at_
  let cf := x.confOf f t
  let dphi := BitVec.ofNat 32 (tnPhase0 (f.tn (x.settingsOf f t))) - u.chain.phaseAt u.ncoNow n.toNat
  let grid := n + cf.skew - u.chain.nextOut cf
  if 8 ≤ t ∨ u.faulted then x
  else if (vget x.candInfo t none).isSome then x.modCand t (fun i => i.shift dphi grid)
  else (f.instOf t).foldl (fun y k => y.modInst k (fun i => i.shift dphi grid)) x

/-- The pending reset of a tuning applied (R147): a held request executes as if the fade had ended before the
REG_EDGE sample (R154). -/
def Slice.applyReset (x : Slice) (f : Forme) (t at_ : Nat) (edge : Bool) : Slice :=
  let held := (x.tunAt t).heldReq
  let x1 := x.modTun t (fun u =>
    { (u.resetChain (x.confOf f t) (BitVec.ofNat 32 (tnPhase0 (f.tn (x.settingsOf f t)))) at_ edge) with heldReq := none })
  match held with
  | some b => x1.execSwap f t b
  | none => x1

/-- A reset at air time `at_` is armed after those that wait (R342); a stopped tuning is zeroed at once. -/
def Slice.armReset (x : Slice) (f : Forme) (t at_ : Nat) (edge : Bool) : Slice :=
  let x1 := x.modTun t (fun u => { u with events := raise u.events 0 })
  if x.tunRuns t then x1.modTun t (fun u => { u with resetAt := u.resetAt ++ [(at_, edge)] })
  else x1.applyReset f t at_ edge

/-! ### SAMPLES records (R149, R288) -/

/-- A SAMPLES record of the open samples of a tuning (R288). -/
def State.samplesRecord (s : State) (c : Fin 4) (t : Nat) (o : OpenSamples) (period : Nat) : Record :=
  let n := o.words.length
  { s.mkRec 1 c.val t 0xFFFF 0 o.firstTs false
      (le 8 o.firstIndex ++ le 2 n ++ [0, 0] ++ le 4 period ++ o.words.flatMap (fun w => le 8 w.toNat)) with
    src := some { source := BitVec.ofNat 8 t, count := n, resume := o.firstIndex + n } }

/-- The open SAMPLES record closed and staged. -/
def State.closeSamples (s : State) (c : Fin 4) (t : Nat) : State :=
  match (s.sl c).forme, ((s.sl c).tunAt t).openRec with
  | some f, some o =>
    let s1 := s.modSl c (fun x => x.modTun t (fun u => { u with openRec := none }))
    s1.stage (localQ c (tnQueue (f.tn t))) (s.samplesRecord c t o (f.period t))
  | _, _ => s

/-- FLAGS of a sample word that erase it: UNSETTLED, CLIP and CLK_SUSPECT (R160). -/
def erasedWord (w : DWord) : Bool := w.toNat.testBit 8 || w.toNat.testBit 9 || w.toNat.testBit 11

/-- Runs of erased samples with one more, stamped `ts`; those older than 4 s are past every symbol in hand. -/
def eraseAt (period ts : Nat) (l : List (Nat × Nat)) : List (Nat × Nat) :=
  match l with
  | (a, b) :: rest => if ts ≤ b + period then (a, ts) :: rest else (ts, ts) :: l.filter (fun r => decide (ts < r.2 + 2 ^ 32))
  | [] => [(ts, ts)]

/-- An instance reads a sample of its tuning, stamped `ts` (R158, R160). -/
def Inst.hear (i : Inst) (period ts : Nat) (erased : Bool) : Inst :=
  if !i.state.busy then i
  else if erased then
    { i with erasing := true, erased := count 32 1 i.erased, erasedRuns := eraseAt period ts i.erasedRuns }
  else { i with erasing := false, clean := i.clean + 1, idle := i.idle + period }

/-- The erased samples among those stamped from `lo` up to `hi` (R160). -/
def Inst.erasedIn (i : Inst) (period lo hi : Nat) : Nat :=
  (i.erasedRuns.map (fun r =>
    ceilDiv (min hi (r.2 + 1) - r.1) period - ceilDiv (max lo r.1 - r.1) period)).sum

/-- An erased sample marks the burst in hand whose symbols it falls in (R205); one whose last symbol has been demodulated is
past it. -/
def Acq.hear (a : Acq) (content : Nat) (erased : Bool) : Acq :=
  { a with burst := a.burst.map (fun b =>
      if erased && !b.allDemod && decide (b.syncTb ≤ content) then { b with erased := true } else b) }

/-- The instance on a tuning, or the candidate on a spare one, reads a sample (R158). -/
def Slice.hear (x : Slice) (f : Forme) (t ts : Nat) (w : DWord) : Slice :=
  let e := erasedWord w
  let content := ts - (x.confOf f t).span / 2
  let period := (x.confOf f t).period
  if (vget x.candInfo t none).isSome then
    (x.modCand t (fun i => i.hear period ts e)).modCandAcq t (fun a => a.hear content e)
  else (f.instOf t).foldl (fun y n => (y.modInst n (fun i => i.hear period ts e)).modAcq n (fun a => a.hear content e)) x

/-- A sample reaches its readers: the sample buffer with its instance, and the exporter (R149, R158, R288). -/
def State.readSample (s : State) (c : Fin 4) (t : Nat) (ts : Nat) (w : DWord) (idx : Nat) : State :=
  match (s.sl c).forme with
  | none => s
  | some f =>
    let s1 := s.modSl c (fun x => (x.modTun t (fun u =>
      { u with buffer := ((ts, w) :: u.buffer).take (tnBufKib (f.tn (x.settingsOf f t)) * 128) })).hear f t ts w)
    if tnQueue (f.tn t) = 0xFF ∨ (vget (s.sl c).candInfo t none).isSome then s1
    else
      let o : OpenSamples := match ((s.sl c).tunAt t).openRec with
        | some o => { o with words := o.words ++ [w] }
        | none => { firstIndex := idx, firstTs := ts, words := [w] }
      let s2 := s1.modSl c (fun x => x.modTun t (fun u => { u with openRec := some o }))
      if o.words.length = 1024 ∨ o.firstTs + msTicks 1 ≤ ts then s2.closeSamples c t else s2

/-- Samples stamped at or before `upto` go to their readers, oldest first. -/
def State.releaseFresh (s : State) (c : Fin 4) (t : Nat) (upto : Nat) : State :=
  let u := (s.sl c).tunAt t
  let ready := (u.fresh.filter (fun p => decide (p.1 ≤ upto))).reverse
  let rest := u.fresh.filter (fun p => decide (upto < p.1))
  let s1 := s.modSl c (fun x => x.modTun t (fun u => { u with fresh := rest }))
  let first := u.index - u.fresh.length
  let go (a : State × Nat) (p : Nat × DWord) : State × Nat := (a.1.readSample c t p.1 p.2 a.2, a.2 + 1)
  (ready.foldl go (s1, first)).1

/-- The SAMPLES record of samples that a lock-up has closed (R288). -/
def State.stageClosing (s : State) (c : Fin 4) (t : Nat) (k : Closing) : State :=
  s.stage k.queue (s.samplesRecord c t
    { firstIndex := k.firstIndex, firstTs := k.firstTs, words := k.words.map Prod.snd } k.period)

/-- The records that lock-ups have closed go to their queues once each of their samples may be read (R149). -/
def State.releaseClosing (s : State) (c : Fin 4) (t upto : Nat) : State :=
  let l := ((s.sl c).tunAt t).closing
  let due (k : Closing) : Bool := k.words.all (fun w => decide (w.1 ≤ upto))
  (l.filter due).foldl (fun z k => z.stageClosing c t k)
    (s.modSl c (fun x => x.modTun t (fun u => { u with closing := l.filter (fun k => !due k) })))

/-- All samples of a tuning handed over and its open record closed (R74, R288). -/
def State.endSamples (s : State) (c : Fin 4) (t : Nat) : State :=
  let last (l : List Nat) : Nat := l.foldl max 0
  let u := (s.sl c).tunAt t
  let s1 := s.releaseClosing c t (last (u.closing.flatMap (fun k => k.words.map Prod.fst)))
  (s1.releaseFresh c t (last (u.fresh.map Prod.fst))).closeSamples c t

/-- The samples of a tuning that a lock-up changes, in a queue that stays (R74, R149): those that may be read are
handed over; the record closes, and is held until the others may be read. -/
def State.closeLater (s : State) (c : Fin 4) (t upto : Nat) : State :=
  let s1 := s.releaseFresh c t upto
  match (s1.sl c).forme with
  | none => s1.endSamples c t
  | some f =>
    let u := (s1.sl c).tunAt t
    let words := u.fresh.reverse
    if tnQueue (f.tn t) = 0xFF ∨ words = [] then s1.endSamples c t
    else
      let k : Closing := match u.openRec with
        | some o => { queue := localQ c (tnQueue (f.tn t)), period := f.period t, firstIndex := o.firstIndex,
                      firstTs := o.firstTs, words := o.words.map (fun w => (o.firstTs, w)) ++ words }
        | none => { queue := localQ c (tnQueue (f.tn t)), period := f.period t,
                    firstIndex := u.index - words.length, firstTs := (words.headD (0, 0)).1, words := words }
      s1.modSl c (fun x => x.modTun t (fun u => { u with
        openRec := none, fresh := [], closing := u.closing ++ [k],
        buffer := (words.reverse ++ u.buffer).take (tnBufKib (f.tn t) * 128) }))

/-! ### SAMPLE_DELIVERED -/

/-- Whether a change waits at the boundary that the last sample made (R151 to R153). -/
def Tuning.boundaryDue (u : Tuning) : Bool :=
  let past (t : Nat) : Bool := match u.lastTs with
    | some l => decide (t ≤ l)
    | none => false
  (match u.ncoPend with | some t => past t | none => false)
    || (match u.bankPend, u.xfade with | some p, none => past p.1 | _, _ => false)
    || (match u.xfade with | some x => decide (x.len ≤ x.made) | none => false)

/-- Whether air time `t` lies in an interval whose ADC samples are replaced by zero (R130). -/
def Afe.isZeroed (a : Afe) (t : Nat) : Bool :=
  a.zeroed.any (fun d => decide (d.1 ≤ t) && decide (t < d.2)) ||
    (match a.calRun with
    | some r => calDisturbs r.kind && decide (r.start ≤ t)
    | none => false)

/-- Whether a span of air time includes a disturbed ADC sample (R119). -/
def Afe.disturbs (a : Afe) (lo hi : Nat) : Bool :=
  a.disturbed.any (fun d => decide (d.1 ≤ hi) && decide (lo < d.2)) ||
    (match a.calRun with
    | some r => calDisturbs r.kind && decide (r.start ≤ hi)
    | none => false)

/-- A full-scale ADC code (R112). -/
def fullScale (x : Int) : Bool := x == -8192 || x == 8191

/-- FLAGS of an output sample (R146). -/
def sampleFlags (reg xf bank susp gain clip uns : Bool) : Nat :=
  64 * b2n reg + 32 * b2n xf + 16 * b2n bank + 8 * b2n susp + 4 * b2n gain + 2 * b2n clip + b2n uns

/-- A sample word (R146). -/
def sampleWord (v : Cplx) (flags idx : Nat) : DWord :=
  BitVec.ofNat 64 (twos 24 v.re * 2 ^ 40 + twos 24 v.im * 2 ^ 16 + flags * 256 + idx % 256)

/-- Raw ADC codes with their air times as the mixer reads them: zero in a calibration interval, compensated otherwise
(R117, R130). -/
def Afe.codes (a : Afe) (times : List Nat) (codes : List Int) : List Int :=
  (times.zip codes).map (fun p => if a.isZeroed p.1 then 0 else a.compensate p.1 p.2)

/-- The air times of the clipped samples among raw ADC codes (R112): the aerial is connected and the code is full scale. -/
def Afe.clipped (a : Afe) (times : List Nat) (codes : List Int) : List Nat :=
  ((times.zip codes).filter (fun p => fullScale p.2 && !a.isZeroed p.1)).map Prod.fst

/-- The air times of the ADC samples that a chain reads up to the sample count `stop`. -/
def Chain.times (k : Chain) (warps : List (Nat × Int)) (stop : Nat) : List Nat :=
  (List.range (stop - k.n)).map (fun i => airTime warps k.at_ (k.n + i))

/-- The number of ADC codes that the chains ended by resets still read. -/
def Tuning.tailLen (u : Tuning) : Nat := (u.tails.map (fun k => k.stop - k.chain.n)).sum

/-- The last ADC samples of a chain that a reset has ended (R142): the codes left over, the saturations and the clipped
samples. -/
def Afe.runTail (a : Afe) (warps : List (Nat × Int)) (acc : List Int × Nat × List Nat) (k : Tail) :
    List Int × Nat × List Nat :=
  let n := k.stop - k.chain.n
  let codes := acc.1.take n
  let times := k.chain.times warps k.stop
  (acc.1.drop n, acc.2.1 + (Chain.adcs k.conf k.freq (a.codes times codes) (k.chain, 0)).2,
    acc.2.2 ++ a.clipped times codes)

/-- The FIR output or blend of a tuning (R142, R152), with the DC correction of R134. -/
def Tuning.output (u : Tuning) (cf : ChainConf) (k : Chain) : Cplx × Nat :=
  let acc (b : Nat) : Cplx := firAcc (vget u.coef b []) cf.taps k.fir
  let now := acc (b2n u.bank)
  let a := match u.xfade with
    | some x => blend (x.made + 1) x.len (acc (b2n (!u.bank))) now
    | none => now
  let dc := u.dcPend.getD u.dc
  satPair 24 ((a.roundShift cf.firShift).add dc)

/-- What one output sample makes of a tuning (R146 to R150): its word and the tuning after it. -/
def Slice.makeSample (x : Slice) (warps : List (Nat × Int)) (cf : ChainConf) (t : Nat) (codes : List Int) :
    Nat × DWord × Tuning × List Nat :=
  let u := x.tunAt t
  let n := u.chain.nextOut cf
  let old := u.tails.foldl (x.afe.runTail warps) (codes, 0, [])
  let times := u.chain.times warps (n + 1)
  let ts := airTime warps u.chain.at_ n
  let r := Chain.adcs cf u.ncoNow (x.afe.codes times old.1) (u.chain, 0)
  let y := u.output cf r.1
  let clips := old.2.2 ++ x.afe.clipped times old.1
  let lastClip := match clips.getLast? with | some c => some c | none => u.lastClip
  let clipNear := match lastClip with | some c => decide (ts ≤ c + cf.span) | none => false
  let flags := sampleFlags u.regEdge u.xfade.isSome u.bank x.clk.suspect (x.afe.disturbs (ts - cf.span) ts)
    (clipNear || r.1.satNear cf n || y.2 != 0) (u.unsettled != 0)
  let w := sampleWord y.1 flags u.index
  let sats := old.2.1 + r.2 + y.2
  let v : Tuning :=
    { u with
      chain := r.1, tails := [], index := u.index + 1, lastTs := some ts, regEdge := false,
      unsettled := u.unsettled - 1, unsettledNow := u.unsettled != 0, lastClip := lastClip,
      dc := u.dcPend.getD u.dc, dcPend := none, sats := count 32 sats u.sats,
      events := if sats = 0 then u.events else raise u.events 1,
      xfade := u.xfade.map (fun f => { f with made := f.made + 1 }),
      fresh := (ts, w) :: u.fresh }
  (ts, w, v, clips)

/-- The clipped samples that no other tuning has counted yet (R112), up to the air time `upto`. -/
def Afe.countClips (a : Afe) (clips : List Nat) (upto : Nat) : Afe :=
  let new := clips.filter (fun t => decide (a.clipSeen < t))
  { a with clips := count 32 new.length a.clips, clipSeen := max upto a.clipSeen }

/-- The pending resets that act before the next output sample, oldest first (R147); `l` bounds them. -/
def Slice.resetsDue (f : Forme) (warps : List (Nat × Int)) (t : Nat) : List (Nat × Bool) → Slice → Slice
  | [], x => x
  | (at_, edge) :: rest, x =>
    let u := x.tunAt t
    if u.gapped ∨ countFrom warps u.chain.at_ at_ ≤ u.chain.at_ + u.chain.nextOut (x.confOf f t) then
      let y := x.modTun t (fun u => { (u.keepTail (x.confOf f t) warps at_) with resetAt := rest })
      let z := if edge then y.handReset f warps t at_ else y
      Slice.resetsDue f warps t rest (z.applyReset f t at_ edge)
    else x

/-- The slice with the resets of tuning `t` that are due applied. -/
def Slice.resetDue (x : Slice) (f : Forme) (warps : List (Nat × Int)) (t : Nat) : Slice :=
  Slice.resetsDue f warps t (x.tunAt t).resetAt x

/-- The air time of the ADC sample that the digital part of a slice takes at TB count `now` (R90): the latency that the
flatness calibration measured taken off and the PHASE_TRIM reached so far added. -/
def Slice.airNow (x : Slice) (now : Nat) : Int := now - (x.afe.latency : Int) + x.clk.trimNow / 64

/-- ADC samples that no running tuning reads are examined for clipping (R112): `codes` are those after the newest one
examined. -/
def State.watchAdc (s : State) (c : Fin 4) (codes : List Int) : State :=
  let x := s.sl c
  let last := x.afe.clipSeen + codes.length
  if !(x.up || x.ctl.state == .calibrating) || x.clk.coast || decide (x.airNow s.tb < (last : Int)) then s
  else
    let times := (List.range codes.length).map (fun i => x.afe.clipSeen + 1 + i)
    s.modAfe c (fun a => a.countClips (a.clipped times codes) last)

/-- SAMPLE_DELIVERED (R149): `codes` are the raw ADC codes from the last output sample up to the newest one that enters this
sample. For a tuning that makes no samples they are those of the ADC alone. -/
def execSampleDelivered (c : Fin 4) (t : Fin 32) (codes : List Int) (s : State) :
    Host.Outcome State Fault Refusal :=
  run s fun s =>
    if codes.any (fun v => decide (v < -8192) || decide (8191 < v)) then s
    else if !(s.sl c).tunRuns t.val then s.watchAdc c codes
    else
      match (s.sl c).inForce with
      | none => s
      | some f =>
        let x := (s.sl c).resetDue f s.tbm.warps t.val
        let cf := x.confOf f t.val
        let u := x.tunAt t.val
        if x.clk.coast || u.boundaryDue || codes.length != u.tailLen + (u.chain.nextOut cf + 1 - u.chain.n) then s
        else
          let r := x.makeSample s.tbm.warps cf t.val codes
          if x.airNow s.tb < (r.1 : Int) then s
          else
            let s1 := s.setSl c { (x.modTun t.val (fun _ => r.2.2.1)) with afe := x.afe.countClips r.2.2.2 r.1 }
            ((List.range 32).foldl (fun z n => z.releaseClosing c n (s.tb - 2048)) s1).releaseFresh c t.val (s.tb - 2048)

/-! ### Runtime changes -/

/-- A register write to a tuning: on one that does not exist it is discarded (R156). -/
def State.tunWrite (s : State) (c : Fin 4) (t : Nat) (f : Tuning → Tuning) : State :=
  s.modSl c (fun x => x.modTun t (fun u =>
    if x.tunExists t then f u else { u with events := raise u.events 7 }))

/-- A write to NCO_FREQ, by the host or the service engine (R151). -/
def Tuning.writeNco (u : Tuning) (v : Word) (now : Nat) : Tuning :=
  { u with ncoReg := v, ncoPend := some (now + usTicks 1) }

/-- NCO_FREQ_WRITE (R151). -/
def execNcoFreqWrite (c : Fin 4) (t : Fin 32) (value : Word) (s : State) : Host.Outcome State Fault Refusal :=
  run s fun s => s.sliceWrite c (0x30008 + 64 * t.val) fun s =>
    s.tunWrite c t.val (fun u => u.writeNco value s.tb)

/-- A request for a bank swap (R152, R153). -/
def Tuning.request (u : Tuning) (target : Bool) (now : Nat) : Tuning :=
  let again := { u with superseded := count 16 1 u.superseded, events := raise u.events 3 }
  if u.xfade.isSome then
    { (if u.heldReq.isSome then again else u) with heldReq := some target }
  else { (if u.bankPend.isSome then again else u) with bankPend := some (now + usTicks 1, target) }

/-- A write to BANK_CTL (R152, R156). -/
def Tuning.writeBank (u : Tuning) (v : Word) (now : Nat) : Tuning :=
  let w := { u with target := bit v 1 }
  if bit v 0 then w.request (bit v 1) now else w

/-- BANK_SWAP_REQUEST (R152). -/
def execBankSwapRequest (c : Fin 4) (t : Fin 32) (target : Bool) (s : State) :
    Host.Outcome State Fault Refusal :=
  run s fun s => s.sliceWrite c (0x30018 + 64 * t.val) fun s =>
    s.tunWrite c t.val (fun u => u.writeBank (mkWord [(1, 1, b2n target), (0, 1, 1)]) s.tb)

/-- BANK_SWAP (R152): the request executes at the boundary after it. -/
def execBankSwap (c : Fin 4) (t : Fin 32) (s : State) : Host.Outcome State Fault Refusal :=
  run s fun s =>
    let x := s.sl c
    let u := x.tunAt t.val
    match x.inForce, u.bankPend, u.lastTs with
    | some f, some (at_, target), some last =>
      if x.tunRuns t.val ∧ u.xfade.isNone ∧ at_ ≤ last then
        s.setSl c ((x.modTun t.val (fun u => { u with bankPend := none })).execSwap f t.val target)
      else s
    | _, _, _ => s

/-- XFADE_END (R153): after blend N a held request executes. -/
def execXfadeEnd (c : Fin 4) (t : Fin 32) (s : State) : Host.Outcome State Fault Refusal :=
  run s fun s =>
    let x := s.sl c
    let u := x.tunAt t.val
    match x.inForce, u.xfade with
    | some f, some k =>
      if k.len ≤ k.made then
        let x1 := x.modTun t.val (fun u => { u with xfade := none, heldReq := none })
        s.setSl c (match u.heldReq with
          | some b => x1.execSwap f t.val b
          | none => x1)
      else s
    | _, _ => s

/-! ### Coefficients (R155, R157, R406) -/

/-- Whether a host may write a bank (R155). -/
def Tuning.bankFree (u : Tuning) (b : Nat) : Bool := u.xfade.isNone && b2n u.bank != b

/-- A coefficient write (R155, R157). -/
def Slice.writeCoef (x : Slice) (t b i : Nat) (v : Word) : Slice :=
  let u := x.tunAt t
  let words := match x.inForce with
    | some f => coefWords (tnTaps (f.tn t))
    | none => 0
  if x.tunExists t ∧ i < words ∧ u.bankFree b then
    let l := lmod (vget u.coef b []) i (fun _ => BitVec.ofNat 20 (bf v 0 20))
    x.modTun t (fun u => { u with
      coef := vmod u.coef b (fun _ => l), coefCrc := vmod u.coefCrc b (fun _ => coefCrcOf l) })
  else x.modTun t (fun u => { u with events := raise u.events 2 })

/-- COEF_WRITE (R155). -/
def execCoefWrite (c : Fin 4) (t : Fin 32) (b : Fin 2) (i : Fin 128) (value : Word) (s : State) :
    Host.Outcome State Fault Refusal :=
  run s fun s => s.sliceWrite c (0x40000 + 0x2000 * t.val + 0x1000 * b.val + 4 * i.val) fun s =>
    s.modSl c (fun x => x.writeCoef t.val b.val i.val value)

/-! ### Lock-up and lock loss -/

/-- A changed or new tuning loaded from a forme at instant `now` (R74, R77). A registration that resets it at the
same sample leaves its REG_EDGE (R75, R345). -/
def Tuning.load (u : Tuning) (f : Forme) (t now : Nat) : Tuning :=
  let p := f.tn t
  let a := f.bankOf t 0
  let b := f.bankOf t 1
  let v := { u with
    events := raise u.events 0, faulted := false, ncoReg := BitVec.ofNat 32 (tnFreq p),
    ncoNow := BitVec.ofNat 32 (tnFreq p), ncoPend := none, bank := tnStartB p, target := false,
    bankPend := none, heldReq := none,
    coef := ⟨#[a, b], rfl⟩, coefCrc := ⟨#[coefCrcOf a, coefCrcOf b], rfl⟩,
    resetAt := [], lastTs := none, dc := ⟨0, 0⟩, dcPend := none }
  v.resetChain (f.conf t) (BitVec.ofNat 32 (tnPhase0 p)) (now + 48) (u.resetAt.contains (now + 48, true))

/-- A removed tuning: its registers read their reset values, its index and a WRITE_REJECT that the driver has not
cleared stay (R149, R156). -/
def Tuning.remove (u : Tuning) : Tuning :=
  { Tuning.reset with index := u.index, events := u.events &&& 0x80, closing := u.closing }

/-- The last samples before a lock-loss declaration are marked CLK_SUSPECT (R104), and from it on the ADC is gapped. -/
def Tuning.suspectFresh (u : Tuning) (cf : Option ChainConf) (warps : List (Nat × Int)) (declared : Nat) : Tuning :=
  let mark (p : Nat × DWord) : Nat × DWord :=
    if declared < p.1 + 2048 then (p.1, p.2 ||| BitVec.ofNat 64 0x800) else p
  let v := match cf with
    | some k => { (u.keepTail k warps declared) with gapped := true }
    | none => u
  { v with fresh := u.fresh.map mark, closing := u.closing.map (fun k => { k with words := k.words.map mark }) }

end Sys2Proof.Machine
end

