-- ==== Sys2Proof/Machine/Audio.lean ====
section
/-! DEFINITION. Meanings of the serial audio port: frames at the pins (R334 to R337), the frame grid and
AUDIO records (R289, R329, R331), the zero-crossing gate (R338), half states (R339) and alert routing's
change of source (R231). -/

namespace Sys2Proof.Machine

open Sys2Proof

/-! ### The AUDIO record as a half sees it -/

/-- The slots that a mask enables, rising (R325). -/
def maskSlots (mask : Nat) : List Nat := (List.range 8).filter (fun i => mask.testBit i)

/-- The AUDIO record in force. -/
def Slice.audioRec (x : Slice) : Option (List Byte) := x.inForce.bind Forme.audio

/-- The slot mask of a half. -/
def auMask (p : List Byte) (rx : Bool) : Nat := if rx then auRxMask p else auTxMask p

/-- Whether a half is master (R324). -/
def auMaster (p : List Byte) (rx : Bool) : Bool := if rx then auRxMaster p else auTxMaster p

/-- Whether a half is compacted: TDM with fewer than SLOTS slots enabled (R336). -/
def auCompacted (p : List Byte) (rx : Bool) : Bool :=
  auFormat p == 2 && decide ((maskSlots (auMask p rx)).length < auSlots p)

/-- The fill of a half in whole frames of `n` words (R331). -/
def Half.fill (h : Half) (n : Nat) : Nat := if n = 0 then 0 else h.fifo.length / n

def Sai.half (a : Sai) (rx : Bool) : Half := if rx then a.rx else a.tx

def Sai.setHalf (a : Sai) (rx : Bool) (h : Half) : Sai := if rx then { a with rx := h } else { a with tx := h }

def Sai.raise (a : Sai) (i : Nat) : Sai := { a with events := Machine.raise a.events i }

/-- A port event that has one bit per half: the transmit half's at `i`, the receive half's at `i + 1`. -/
def Sai.raiseHalf (a : Sai) (rx : Bool) (i : Nat) : Sai := a.raise (i + b2n rx)

def State.modSai (s : State) (c : Fin 4) (f : Sai → Sai) : State :=
  s.modSl c (fun x => { x with sai := f x.sai })

/-! ### Entering STARTING (R339) -/

/-- The FIFO emptied. -/
def Half.empty (h : Half) : Half := { h with fifo := [], fifoTs := [], draining := false }

/-- A half enters STARTING at the real time `now`: ALIGN_SUSPECT clears, the reference period is reset to 1 / RATE_HZ and
the FIFO starts empty (R335, R337, R339). -/
def Half.starting (h : Half) (rate now : Nat) : Half :=
  { h.empty with
      state := .starting, gate := none, suspect := false, refNum := 1024000000, refDen := rate,
      intervals := [], lastStart := none, edge := now, sinceSlip := 4, slipped := false, lastFrame := [], pins := [],
      stop := false }

/-- A half enters STOPPED: the FIFO is empty and its gate is over. -/
def Half.stopped (h : Half) : Half :=
  { h.empty with state := .stopped, gate := none, start := false, stop := false, pins := [] }

/-! ### The zero-crossing gate (R338) -/

/-- A zero crossing: a sample that is 0 or whose sign differs from the one before it. -/
def crosses (last : Option Word) (v : Word) : Bool :=
  v == 0 || (match last with | some w => w.getLsbD 31 != v.getLsbD 31 | none => false)

/-- One channel through a gate: whether it has switched after this sample, and the sample passed. -/
def gateSample (opening done : Bool) (last : Option Word) (v : Word) : Bool × Word :=
  let done' := done || crosses last v
  (done', if opening == done' then v else 0)

/-- One frame through a gate. -/
def Gate.frame (g : Gate) (vs : List Word) : Gate × List Word :=
  let r := vs.mapIdx (fun i v => gateSample g.opening (g.chans.getD i false) (g.last.getD i none) v)
  ({ g with chans := r.map (fun p => p.1), last := vs.map some }, r.map (fun p => p.2))

/-- The samples before a gate's first frame, by channel. -/
def lastSamples (n : Nat) (l : List Word) : List (Option Word) := (List.range n).map (fun i => l[i]?)

/-- A gate over `n` channels that begins at the real time `now`, after the frame `before`. -/
def Gate.begin (opening : Bool) (n now : Nat) (before : List Word) : Gate :=
  { began := now, opening := opening, chans := List.replicate n false, last := lastSamples n before }

/-- A half whose gate is over: RUNNING after an opening, STOPPED after a closing (R339). -/
def Half.gateEnd (h : Half) : Half :=
  match h.gate with
  | some g =>
    if g.chans.all id then
      (if g.opening then { h with gate := none, state := .running, start := false } else h.stopped)
    else h
  | none => h

/-- One frame of a half through its gate; without one a half in RUNNING passes everything and any other
passes zeros. -/
def Half.gated (h : Half) (vs : List Word) : Half × List Word :=
  match h.gate with
  | some g =>
    let r := g.frame vs
    (({ h with gate := some r.1 } : Half).gateEnd, r.2)
  | none => (h, if h.state == .running then vs else vs.map (fun _ => 0))

/-- The draining side begins when the fill has reached 32 frames, and the gate opens (R339). -/
def Half.drainCheck (h : Half) (n now : Nat) : Half :=
  if h.state == .starting && !h.draining && decide (32 ≤ h.fill n) then
    { h with draining := true, gate := some (Gate.begin true n now []) }
  else h

/-- A half with a gate that has timed out: the waiting channels switch at once (R338). -/
def Half.gateExpire (h : Half) : Half :=
  match h.gate with
  | some g => ({ h with gate := some { g with chans := g.chans.map (fun _ => true) } } : Half).gateEnd
  | none => h

/-! ### Frame starts at the pins (R332, R334 to R336) -/

/-- Whether an interval lies outside ±12.5% of the reference period (R335). -/
def Half.glitchInterval (h : Half) (d : Nat) : Bool :=
  decide (8 * d * h.refDen < 7 * h.refNum) || decide (9 * h.refNum < 8 * d * h.refDen)

/-- Sixteen intervals that agree within ±0.1% and whose mean lies more than 0.1% from the reference (R335). -/
def Half.rateChanged (h : Half) (is : List Nat) : Bool :=
  let sum := is.sum
  is.length == 16
    && is.all (fun i => decide (1000 * (16 * i) ≤ 1001 * sum) && decide (999 * sum ≤ 1000 * (16 * i)))
    && (decide (1001 * 16 * h.refNum < 1000 * sum * h.refDen)
        || decide (1000 * sum * h.refDen < 999 * 16 * h.refNum))

/-- The stamp and interval of a frame start at TB `now`: the window of R332 and the rate change of R335. The answer
says whether the rate changed. -/
def Half.stamp (h : Half) (now real : Nat) (slave : Bool) : Half × Bool :=
  let is := match h.lastStart with
    | some t => ((real - t) :: h.intervals).take 16
    | none => h.intervals
  let h1 := { h with
    stamps := now :: h.stamps.filter (fun t => decide (now ≤ t + 2 ^ 30)), lastStart := some real,
    edge := real, measFrom := (if h.stamps.isEmpty then now else h.measFrom), intervals := is }
  if slave && h.rateChanged is then
    ({ h1 with refNum := is.sum, refDen := 16, intervals := [] }, true)
  else (h1, false)

/-- The glitch test of a slave half's frame (R335). -/
def Half.isGlitch (h : Half) (real bits want : Nat) : Bool :=
  (match h.lastStart with | some t => h.glitchInterval (real - t) | none => false) || bits != want

/-- An underrun or overrun (R336): counted, and in a compacted half the alignment is suspect. -/
def Sai.xrun (a : Sai) (rx compacted : Bool) : Sai :=
  let h := a.half rx
  let a1 := (a.setHalf rx { h with xrun := count 8 1 h.xrun, suspect := h.suspect || compacted }).raise 0
  if compacted && !h.suspect then a1.raiseHalf rx 3 else a1

/-- Whether a rate slip may be made in this frame (R334). -/
def Half.maySlip (h : Half) : Bool := h.draining && decide (4 ≤ h.sinceSlip)

/-- A rate slip made. -/
def Half.slip (h : Half) : Half := { h with slips := count 16 1 h.slips, sinceSlip := 1, slipped := true }

/-- The next frame of the transmit FIFO, popped, with zeros for the words that are not there. -/
def Half.popWords (h : Half) (n : Nat) : Half × List Word :=
  ({ h with fifo := h.fifo.drop n, fifoTs := h.fifoTs.drop 1 },
    h.fifo.take n ++ List.replicate (n - h.fifo.length) 0)

/-- What a transmit half sends at a frame start while it drains (R334, R336): a repeat, or the next frame,
an underrun filled with zeros. The answer says whether an underrun happened. -/
def Half.txNext (h : Half) (n : Nat) (compacted : Bool) : Half × List Word × Bool :=
  if h.maySlip && decide (h.fill n < 16) then
    (h.slip, padWords n h.lastFrame, false)
  else
    let h1 := if h.maySlip && decide (48 < h.fill n) then (h.slip.popWords n).1
      else { h with sinceSlip := h.sinceSlip + 1 }
    if n ≤ h1.fifo.length then
      let r := h1.popWords n
      (r.1, r.2, false)
    else if compacted then
      let r := h1.popWords n
      (r.1, r.2, true)
    else (h1, List.replicate n 0, true)
where
  /-- A frame of `n` words. -/
  padWords (n : Nat) (l : List Word) : List Word := l.take n ++ List.replicate (n - l.length) 0

/-- A sample rounded to `n` bits and limited to full scale (R326). -/
def pinWord (n : Nat) (v : Word) : Word :=
  let r := (v.toInt + 2 ^ (31 - n)) / 2 ^ (32 - n)
  BitVec.ofInt 32 (clampI (-(2 ^ (n - 1))) (2 ^ (n - 1) - 1) (if n = 32 then v.toInt else r))

/-- The words of every slot at the pins: enabled slots carry the frame; the others are high-impedance in TDM and zero
in the other formats (R325). -/
def pinFrame (p : List Byte) (vs : List Word) : List (Option Word) :=
  let en := maskSlots (auTxMask p)
  (List.range (auSlots p)).map (fun i =>
    match firstIdx (fun e => e == i) en 0 with
    | some k => some (pinWord (auWord p) (vs.getD k 0))
    | none => if auFormat p = 2 then none else some 0)

/-- The transmit half at a frame start. -/
def Sai.txFrame (a : Sai) (p : List Byte) (glitch wrongLen coast : Bool) : Sai :=
  let n := (maskSlots (auTxMask p)).length
  let comp := auCompacted p false
  let out (b : Sai) (h : Half) (vs : List Word) : Sai :=
    b.setHalf false { h with pins := pinFrame p vs }
  let h := a.tx
  if glitch then
    let h1 := { h with glitch := count 16 1 h.glitch, sinceSlip := h.sinceSlip + 1 }
    let b := a.setHalf false h1
    if wrongLen && comp then b.xrun false true else b
  else if coast || !h.draining then out a h []
  else
    let r := h.txNext n comp
    let g := ({ r.1 with lastFrame := r.2.1 } : Half).gated r.2.1
    let b := out a g.1 g.2
    if r.2.2 then b.xrun false comp else b

/-- Received pin words placed left-justified in 32 bits, for the enabled slots (R325, R326). -/
def captureWords (p : List Byte) (samples : List Word) : List Word :=
  (maskSlots (auRxMask p)).map (fun i => (samples.getD i 0) <<< (32 - auWord p))

/-- A frame pushed into the receive FIFO of 64 frames, or an overrun (R336); it takes the mark of a slip with it. -/
def Sai.rxPush (a : Sai) (n : Nat) (comp : Bool) (vs : List Word) (ts : Nat) : Sai :=
  let h := a.rx
  let room := 64 * n - h.fifo.length
  let m := h.fifoTs ++ [(ts, h.slipped)]
  if n ≤ room then a.setHalf true { h with fifo := h.fifo ++ vs, fifoTs := m, slipped := false }
  else if comp then
    (a.setHalf true (if room = 0 then h else
      { h with fifo := h.fifo ++ vs.take room, fifoTs := m, slipped := false })).xrun true true
  else a.xrun true false

/-- The receive half at a frame start. -/
def Sai.rxFrame (a : Sai) (p : List Byte) (glitch wrongLen coast : Bool) (samples : List Word) (now real : Nat) :
    Sai :=
  let n := (maskSlots (auRxMask p)).length
  let comp := auCompacted p true
  let h := a.rx
  if coast then a
  else if glitch then
    let b := a.setHalf true { h with glitch := count 16 1 h.glitch, sinceSlip := h.sinceSlip + 1 }
    if wrongLen && comp then b.xrun true true else b
  else
    let vs := captureWords p samples
    if h.maySlip && decide (48 < h.fill n) then a.setHalf true h.slip
    else if h.maySlip && decide (h.fill n < 16) then
      let b := (a.setHalf true { h.slip with slipped := h.slipped }).rxPush n comp vs now
      (b.setHalf true { b.rx with slipped := true }).rxPush n comp vs now
    else
      let b := (a.setHalf true { h with sinceSlip := h.sinceSlip + 1 }).rxPush n comp vs now
      b.setHalf true (b.rx.drainCheck n real)

/-- Whether a half moves frames: its states STARTING, RUNNING and STOPPING. -/
def Half.active (h : Half) : Bool := h.state == .starting || h.state == .running || h.state == .stopping

/-- FRAME_START (R332, R334 to R336, R339, R340). -/
def execFrameStart (c : Fin 4) (rx : Bool) (bits : Nat) (samples : List Word) (s : State) :
    Host.Outcome State Fault Refusal :=
  run s fun s =>
    match (s.sl c).audioRec with
    | none => s
    | some p =>
      let now := s.tb
      let coast := (s.sl c).clk.coast
      let slave := !auMaster p rx
      s.modSai c (fun a =>
        let h := if (a.half rx).state == .stalled then (a.half rx).starting (auRate p) s.real else a.half rx
        if !h.active then a
        else
          let wrong := bits != auSlots p * auWord p
          let g := slave && h.isGlitch s.real bits (auSlots p * auWord p)
          let r := h.stamp now s.real slave
          let b := a.setHalf rx r.1
          let b := if r.2 then b.raiseHalf rx 1 else b
          if rx then b.rxFrame p g wrong coast samples now s.real else b.txFrame p g wrong coast)

/-! ### The frame grid (R329) and AUDIO records (R289) -/

/-- The TB of a grid's next point. -/
def Grid.next (g : Grid) (rate : Nat) : Nat := g.at_ + g.k * 1024000000 / rate

/-- The index of a grid's next point. -/
def Grid.index (g : Grid) : Nat := g.base + g.k

/-- The rate of a slice's frame grids: RATE_HZ, or 48,000 Hz without an AUDIO record (R329). -/
def Slice.audioRate (x : Slice) : Nat := match x.audioRec with | some p => auRate p | none => 48000

/-- A grid that starts at the first TB epoch at or after `t`, its index going on from `base` (R329). -/
def Grid.start (t base : Nat) : Grid := { at_ := alignUp (2 ^ 20) t, k := 0, base := base }

/-- The AUDIO record of closed frames (R289); `inst` is 0xFF for the capture. -/
def State.audioRecord (s : State) (c : Fin 4) (src inst tun : Nat) (o : OpenAudio) : Record :=
  { s.mkRec 0x02 c.val tun 0xFFFF 0 o.firstTs (s.sl c).unlocked
      ([BitVec.ofNat 8 src, BitVec.ofNat 8 o.channels, BitVec.ofNat 8 o.flags, BitVec.ofNat 8 inst]
        ++ le 4 o.rate ++ le 8 o.firstFrame ++ le 2 o.frames ++ le 6 0 ++ o.data) with
    src := if src = 1 then some ⟨0xFE, o.frames, o.firstFrame + o.frames⟩ else none }

/-- A frame joined to an open record, or a new record begun. -/
def OpenAudio.add (o : Option OpenAudio) (idx ts rate : Nat) (flags : Nat) (vs : List Word) : OpenAudio :=
  let data := vs.flatMap (fun v => le 4 v.toNat)
  match o with
  | some o => { o with flags := o.flags ||| flags, frames := o.frames + 1, data := o.data ++ data }
  | none =>
    { firstFrame := idx, firstTs := ts, rate := rate, channels := vs.length, flags := flags, frames := 1,
      data := data }

/-- Whether an AUDIO record closes before a frame that would come at `nextTs` (R289). -/
def OpenAudio.done (o : OpenAudio) (nextTs : Nat) : Bool :=
  decide (256 ≤ o.frames) || decide (o.firstTs + msTicks 10 ≤ nextTs)

/-- The capture's open AUDIO record closed and put on RX_QUEUE, or discarded where it is 0xFF (R340). -/
def State.closeCapture (s : State) (c : Fin 4) : State :=
  match (s.sl c).sai.rxAudio, (s.sl c).find 11 0 with
  | some o, some p =>
    let s1 := s.modSai c (fun a => { a with rxAudio := none })
    if auRxQueue p = 0xFF then s1 else s1.stage (localQ c (auRxQueue p)) (s.audioRecord c 1 0xFF 0xFF o)
  | _, _ => s.modSai c (fun a => { a with rxAudio := none })

/-- The open AUDIO record of an instance closed and put on its AUDIO_QUEUE (R289). -/
def State.closeAudio (s : State) (c : Fin 4) (n : Nat) : State :=
  match ((s.sl c).instAt n).audio, (s.sl c).find 4 n with
  | some o, some p =>
    let s1 := s.modSl c (fun x => x.modInst n (fun i => { i with audio := none }))
    if dmAudioQueue p = 0xFF then s1
    else s1.stage (localQ c (dmAudioQueue p)) (s.audioRecord c 0 n (dmTuning p) o)
  | _, _ => s.modSl c (fun x => x.modInst n (fun i => { i with audio := none }))

/-- Whether an instance has programme audio: profiles 0x01 and 0x03 (R159). -/
def dmAudio (p : List Byte) : Bool := dmProfile p == 1 || dmProfile p == 3

/-- Full modulation of AM as a sample: −6 dBFS (R170). -/
def amScale : Int := 1076291389

/-- DEV_KHZ of an FM instance in Hz (R172). -/
def fmDev (p : List Byte) : Int := let v := u8 (dmParams p) 6; 1000 * (if v = 0 then 75 else v : Nat)

/-- A value limited to a sample of 32 bits. -/
def audioWord (v : Int) : Word := BitVec.ofInt 32 (clampI (-(2 ^ 31)) (2 ^ 31 - 1) v)

/-- The audio of the detector in use (R170, R172): AM synchronous or envelope; FM stereo, or mono in both channels. -/
def Inst.detected (i : Inst) (p : List Byte) (f : AudioIn) : List Int :=
  if dmProfile p = 1 then
    let v := if i.envelope then f.other else f.main
    [Int.shiftRight ((v.getD 0 0) * amScale) 24]
  else
    let scale (v : Int) : Int := v * 2 ^ 31 / fmDev p
    if bit i.pstat0 8 then [scale (f.main.getD 0 0), scale (f.main.getD 1 0)]
    else [scale (f.other.getD 0 0), scale (f.other.getD 0 0)]

/-- Whether the audio of an instance at TB `t` is computed from an erased sample (R160): one in force within the frame, by the
air time of its content (R148). -/
def Slice.audioErased (x : Slice) (f : Forme) (tun t rate : Nat) : Bool :=
  let at_ := t + (x.confOf f tun).span / 2
  let period := (x.confOf f tun).period
  (f.instOf tun).any (fun n =>
    decide (0 < (x.instAt n).erasedIn period (at_ + 1 - period) (at_ + ceilDiv 1024000000 rate)))

/-- The place in the 1 ms ramp after one more frame (R160): down while the input is erased, back up after it. -/
def fadeStep (fade full : Nat) (erased : Bool) : Nat := if erased then min full (fade + 1) else fade - 1

/-- Frames of the 1 ms ramp. -/
def fadeLen (rate : Nat) : Nat := max 1 (rate / 1000)

/-- One audio frame of an instance as its outputs get it (R160, R170, R172): with DETECT 0 it is silent while the loop's phase
error is too great. -/
def Slice.render (x : Slice) (f : Forme) (n : Nat) (p : List Byte) (t rate : Nat) (a : AudioIn) : AudioFrame :=
  let i := x.instAt n
  let full := fadeLen rate
  let fade := fadeStep i.ramp full (x.audioErased f (dmTuning p) t rate)
  { inst := a.inst, muted := i.deaf || fade != 0,
    samples := (i.detected p a).map (fun v =>
      if i.deaf then 0 else audioWord (clampI (-(2 ^ 31)) (2 ^ 31 - 1) v * ((full - fade : Nat) : Int) / (full : Int))) }

/-- The audio frames of the instances whose grid points have come. -/
def Slice.rendered (x : Slice) (f : Forme) (frames : List AudioIn) : List AudioFrame :=
  frames.filterMap (fun a =>
    match (x.instAt a.inst.val).grid with
    | some g => some (x.render f a.inst.val (f.dm a.inst.val) (g.next x.audioRate) x.audioRate a)
    | none => none)

/-- The programme audio of an instance at one grid point: its samples, or none in a state without audio
(R162). -/
def Slice.programme (x : Slice) (n : Nat) (frames : List AudioFrame) : Option AudioFrame :=
  let i := x.instAt n
  if (i.state == .sync || i.state == .track) && !x.clk.coast then frames.find? (fun f => f.inst.val == n)
  else none

/-- The channels of an instance's audio (R289). -/
def dmChannels (p : List Byte) : Nat := if dmProfile p = 1 then 1 else 2

/-- One grid point of an instance with programme audio (R162, R289, R329). -/
def State.instGrid (s : State) (c : Fin 4) (n : Nat) (p : List Byte) (frames : List AudioFrame) : State :=
  let x := s.sl c
  match (x.instAt n).grid with
  | none => s
  | some g =>
    let rate := x.audioRate
    if s.tb < g.next rate then s
    else
      let g' := { g with k := g.k + 1 }
      let s1 := s.modSl c (fun x => x.modInst n (fun i => { i with grid := some g' }))
      match x.programme n frames with
      | none => (s1.modSl c (fun x => x.modInst n (fun i => { i with audioMuted := true }))).closeAudio c n
      | some f =>
        let vs := (List.range (dmChannels p)).map (fun k => f.samples.getD k 0)
        let fade := match x.inForce with
          | some w => fadeStep (x.instAt n).ramp (fadeLen rate) (x.audioErased w (dmTuning p) (g.next rate) rate)
          | none => 0
        let s2 := s1.modSl c (fun x => x.modInst n (fun i =>
          { i with ramp := fade, audioMuted := f.muted, muted := (if f.muted then count 16 1 i.muted else i.muted),
                   audio := if dmAudioQueue p = 0xFF then none
                     else some (OpenAudio.add i.audio g.index (g.next rate) rate (b2n f.muted) vs) }))
        match ((s2.sl c).instAt n).audio with
        | some o => if o.done (g'.next rate) then s2.closeAudio c n else s2
        | none => s2

/-! ### What the transmit half carries (R328, R338) -/

/-- The sample of every enabled slot from a source (R328). -/
def sourceFrame (n : Nat) (f : Option AudioFrame) : List Word :=
  match f with
  | some f =>
    if f.samples.isEmpty then List.replicate n 0
    else (List.range n).map (fun k => f.samples.getD (k % f.samples.length) 0)
  | none => List.replicate n 0

/-- One channel of a change of source: closed on the old source, opened on the new one, the last sample of
the source it is on, and the sample passed. -/
def switchSample (closed opened : Bool) (last : Option Word) (old new : Word) :
    Bool × Bool × Option Word × Word :=
  if opened then (true, true, some new, new)
  else if closed then
    if crosses last new then (true, true, some new, new) else (true, false, some new, 0)
  else if crosses last old then (true, false, some new, 0)
  else (false, false, some old, old)

/-- One frame through a change of source. -/
def SourceGate.frame (g : SourceGate) (old new : List Word) : SourceGate × List Word :=
  let r := (old.zip new).mapIdx (fun i (p : Word × Word) =>
    switchSample (g.closed.getD i false) (g.opened.getD i false) (g.last.getD i none) p.1 p.2)
  ({ g with closed := r.map (fun p => p.1), opened := r.map (fun p => p.2.1),
            last := r.map (fun p => p.2.2.1) }, r.map (fun p => p.2.2.2))

/-- The port changes its source (R231, R338): through the gate while the transmit half carries audio, else
at once. -/
def Sai.route (a : Sai) (n : Nat) (src : Option (Fin 48)) (now : Nat) : Sai :=
  if a.source = src then a
  else if a.tx.active then
    { a with source := src,
             srcGate := some { began := now, old := a.source, closed := List.replicate n false,
                               opened := List.replicate n false,
                               last := lastSamples n (a.tx.fifo.drop (a.tx.fifo.length - n)) } }
  else { a with source := src, srcGate := none }

/-- The frame that the FCLK side pushes into the transmit FIFO. -/
def Sai.pushFrame (a : Sai) (x : Slice) (n : Nat) (frames : List AudioFrame) : Sai × List Word :=
  let get (o : Option (Fin 48)) : List Word := sourceFrame n (o.bind (fun i => x.programme i.val frames))
  match a.srcGate with
  | none => (a, get a.source)
  | some g =>
    let r := g.frame (get g.old) (get a.source)
    ({ a with srcGate := if r.1.opened.all id then none else some r.1 }, r.2)

/-- The grid that the transmit half moves on: its source's, or its own while it carries silence (R329,
R331). -/
def Slice.txGrid (x : Slice) : Option Grid :=
  match x.sai.source with
  | some i => match (x.instAt i.val).grid with | some g => some g | none => x.sai.tx.grid
  | none => x.sai.tx.grid

/-- The transmit half at one of its grid points: one frame pushed (R331). -/
def State.txGridPoint (s : State) (c : Fin 4) (p : List Byte) (frames : List AudioFrame) : State :=
  let x := s.sl c
  let n := (maskSlots (auTxMask p)).length
  if !x.sai.tx.active || x.clk.coast || decide (64 * n < x.sai.tx.fifo.length + n) then s
  else
    let r := x.sai.pushFrame x n frames
    s.modSai c (fun _ =>
      let h := r.1.tx
      r.1.setHalf false
        (({ h with fifo := h.fifo ++ r.2, fifoTs := h.fifoTs ++ [(s.tb, false)] } : Half).drainCheck n s.real))

/-- The receive half's grid point where a frame is popped (R331, R340): its record closes before a frame that starts
10 ms or more after the first, and when it is full (R289). -/
def State.rxPop (s : State) (c : Fin 4) (n idx rate : Nat) : State :=
  let h := (s.sl c).sai.rx
  let mark := h.fifoTs.headD (s.tb, false)
  let r := h.popWords n
  let g := ({ r.1 with lastFrame := r.2 } : Half).gated r.2
  let flags := 2 * b2n mark.2 + 4 * b2n h.suspect
  let s0 := if (s.sl c).sai.rxAudio.any (fun (o : OpenAudio) => o.done mark.1) then s.closeCapture c else s
  let s1 := s0.modSai c (fun a =>
    let b := a.setHalf true g.1
    { b with rxAudio := some (OpenAudio.add b.rxAudio idx mark.1 rate flags g.2) })
  if (s1.sl c).sai.rxAudio.any (fun (o : OpenAudio) => decide (256 ≤ o.frames)) then s1.closeCapture c else s1

/-- The frames missed while STALLED or in COAST go into one SHED record at the gap (R340). -/
def State.captureGap (s : State) (c : Fin 4) (p : List Byte) (resume : Nat) : State :=
  let a := (s.sl c).sai
  if a.missed = 0 then s
  else
    let s1 := s.closeCapture c
    let s2 := s1.modSai c (fun a => { a with missed := 0 })
    if auRxQueue p = 0xFF then s2
    else s2.gap (localQ c (auRxQueue p)) 4 0 [⟨0xFE, a.missed, resume⟩] a.missedTs

/-- The capture ends: its open record closes, and the frames missed before are reported (R340). -/
def State.endCapture (s : State) (c : Fin 4) : State :=
  let s1 := s.closeCapture c
  match (s1.sl c).sai.rx.grid, (s1.sl c).find 11 0 with
  | some g, some p => s1.captureGap c p g.index
  | _, _ => s1

/-- The receive half at one of its grid points. -/
def State.rxGridPoint (s : State) (c : Fin 4) (p : List Byte) (g : Grid) : State :=
  let x := s.sl c
  let n := (maskSlots (auRxMask p)).length
  let rate := auRate p
  let g' := { g with k := g.k + 1 }
  let s1 := s.modSai c (fun a => a.setHalf true { a.rx with grid := some g' })
  let h := x.sai.rx
  if h.state == .stalled || (x.clk.coast && h.active) then
    (s1.closeCapture c).modSai c (fun a =>
      { a with missedTs := (if a.missed = 0 then g.next rate else a.missedTs), missed := a.missed + 1 })
  else if h.active && h.draining && decide (n ≤ h.fifo.length) then
    (s1.captureGap c p g.index).rxPop c n g.index rate
  else s1.closeCapture c

/-- A grid point of the receive half, where it is due. -/
def State.rxGrid (s : State) (c : Fin 4) (p : List Byte) : State :=
  match (s.sl c).sai.rx.grid with
  | some g => if g.next (auRate p) ≤ s.tb then s.rxGridPoint c p g else s
  | none => s

/-- A grid point of the transmit half, where it is due; its own grid moves on with it. -/
def State.txGrid (s : State) (c : Fin 4) (p : List Byte) (frames : List AudioFrame) : State :=
  let x := s.sl c
  match x.txGrid with
  | some g =>
    let s1 := if g.next (auRate p) ≤ s.tb then s.txGridPoint c p frames else s
    match x.sai.tx.grid with
    | some o =>
      if o.next (auRate p) ≤ s.tb then
        s1.modSai c (fun a => a.setHalf false { a.tx with grid := some { o with k := o.k + 1 } })
      else s1
    | none => s1
  | none => s

/-- GRID_FRAME (R331): every frame grid of the slice that has reached its next point moves one frame. The
port's halves come first, since they use the same grid points as their source. -/
def execGridFrame (c : Fin 4) (audio : List AudioIn) (s : State) : Host.Outcome State Fault Refusal :=
  run s fun s =>
    match (s.sl c).inForce with
    | none => s
    | some f =>
      let frames := (s.sl c).rendered f audio
      let s1 := match f.audio with
        | some p => (s.txGrid c p frames).rxGrid c p
        | none => s
      (f.ofType 4).foldl (fun t r =>
        if dmAudio r.payload then t.instGrid c r.key r.payload frames else t) s1

/-! ### Stalls, faults and gate timeouts -/

/-- A stall detected (R335, R339). -/
def Sai.stall (a : Sai) (rx : Bool) : Sai :=
  let h := a.half rx
  if h.state == .stopping then a.setHalf rx h.stopped
  else (a.setHalf rx { h with state := .stalled, gate := none, start := false, draining := false,
                              stalls := count 8 1 h.stalls, stamps := [], pins := [] }).raiseHalf rx 5

/-- STALL (R335): no frame start for 4 reference periods at a slave half. -/
def execStall (c : Fin 4) (rx : Bool) (s : State) : Host.Outcome State Fault Refusal :=
  run s fun s =>
    match (s.sl c).audioRec with
    | none => s
    | some p =>
      let h := (s.sl c).sai.half rx
      if auMaster p rx || !h.active || decide ((s.real - h.edge) * h.refDen < 4 * h.refNum) then s
      else s.modSai c (fun a => a.stall rx)

/-- BCLK_OVERRATE (R333): the half enters FAULTED and moves no data. -/
def execBclkOverrate (c : Fin 4) (rx : Bool) (s : State) : Host.Outcome State Fault Refusal :=
  run s fun s =>
    match (s.sl c).audioRec with
    | none => s
    | some p =>
      let h := (s.sl c).sai.half rx
      if auMaster p rx || h.state == .off || h.state == .faulted then s
      else
        let s1 := s.modSai c (fun a =>
          (a.setHalf rx { h.empty with state := .faulted, gate := none, start := false, stop := false,
                                       stamps := [], pins := [] }).raiseHalf rx 7)
        s1.fault
          { status := Status.clockLoss, event := 0x11, level := 1, action := 0, block := 0x0F,
            detail := b2n rx, slice := c.val }

/-- GATE_TIMEOUT (R338): the channels that still wait switch at once. -/
def execGateTimeout (c : Fin 4) (rx : Bool) (s : State) : Host.Outcome State Fault Refusal :=
  run s fun s =>
    match (s.sl c).audioRec with
    | none => s
    | some p =>
      let late (t : Nat) : Bool := decide (t + msTicks (auZcMs p) ≤ s.real)
      s.modSai c (fun a =>
        let h := a.half rx
        let a1 := match h.gate with
          | some g => if late g.began then (a.setHalf rx h.gateExpire).raise 9 else a
          | none => a
        if rx then a1
        else match a1.srcGate with
          | some g => if late g.began then ({ a1 with srcGate := none } : Sai).raise 9 else a1
          | none => a1)

/-! ### Host START and STOP (R339) -/

/-- A START of a half. -/
def Sai.hostStart (a : Sai) (rx : Bool) (rate now real : Nat) : Sai :=
  let h := a.half rx
  if h.state == .stopped || h.state == .faulted then
    let g := match h.grid with | some g => g | none => Grid.start now 0
    a.setHalf rx { h.starting rate real with start := true, grid := some g }
  else a.raise 10

/-- A STOP of a half over `n` channels. -/
def Sai.hostStop (a : Sai) (rx : Bool) (n now : Nat) : Sai :=
  let h := a.half rx
  if h.state == .running then
    a.setHalf rx { h with state := .stopping, stop := true, gate := some (Gate.begin false n now h.lastFrame) }
  else if h.state == .stalled then a.setHalf rx h.stopped
  else a.raise 10

/-- A write of SAI.CTL (R341); without an AUDIO record both halves are OFF and every START or STOP is
discarded with WRITE_REJECT (R339). -/
def Sai.writeCtl (a : Sai) (p : Option (List Byte)) (v : Word) (now real : Nat) : Sai :=
  let rate := match p with | some p => auRate p | none => 1
  let n (rx : Bool) : Nat := match p with | some p => (maskSlots (auMask p rx)).length | none => 0
  let a1 := if bit v 0 then a.hostStart false rate now real else a
  let a2 := if bit v 1 then a1.hostStop false (n false) real else a1
  let a3 := if bit v 2 then a2.hostStart true rate now real else a2
  if bit v 3 then a3.hostStop true (n true) real else a3

/-- A host write of SAI.CTL, where the slice's registers accept it (R35). -/
def State.writeSaiCtl (s : State) (c : Fin 4) (v : Word) : State :=
  s.sliceWrite c 0xF0008 (fun s => s.modSai c (fun a => a.writeCtl (s.sl c).audioRec v s.tb s.real))

/-- TX_START (R339). -/
def execTxStart (c : Fin 4) (s : State) : Host.Outcome State Fault Refusal :=
  run s fun s => s.writeSaiCtl c 1

/-- TX_STOP (R339). -/
def execTxStop (c : Fin 4) (s : State) : Host.Outcome State Fault Refusal :=
  run s fun s => s.writeSaiCtl c 2

/-- RX_START (R339). -/
def execRxStart (c : Fin 4) (s : State) : Host.Outcome State Fault Refusal :=
  run s fun s => s.writeSaiCtl c 4

/-- RX_STOP (R339). -/
def execRxStop (c : Fin 4) (s : State) : Host.Outcome State Fault Refusal :=
  run s fun s => s.writeSaiCtl c 8

end Sys2Proof.Machine
end

