-- ==== Sys2Proof/Machine/Sched.lean ====
section
/-! DEFINITION. The event scheduler (R233 to R238): entries, their execution on the EVT pins, cancellation
and expiry. -/

namespace Sys2Proof.Machine

open Sys2Proof

/-! ### EVT pins (R236, R384, R426) -/

/-- The level of an EVT output; while EXTEST is in force the pin itself keeps its boundary-scan level. -/
def State.setPin (s : State) (pin : Fin 8) (level : Bool) : State :=
  let s1 := { s with evt := s.evt.set pin.val { s.evt.get pin with level := level } pin.isLt }
  let bit := BitVec.ofNat 8 (2 ^ pin.val)
  let pins := if level then s.evtPins ||| bit else s.evtPins &&& ~~~bit
  if s.tap.extest || pins == s.evtPins then s1
  else ({ s1 with evtPins := pins }).emit (.evt pin level)

/-- The IDCODE word (R427). -/
def idcode : Word := mkWord [(28, 4, Config.hwIssue.toNat), (12, 16, 0x7464), (1, 11, 0x0A9), (0, 1, 1)]

/-- What Capture-DR loads into the data register of the instruction in force (R426 to R429). The reset key and the bypass
register load 0. -/
def Tap.captured (t : Tap) (bsr : BitVec 114) : Nat :=
  if t.ir = 0x00 ∨ t.ir = 0x01 then bsr.toNat
  else if t.ir = 0x02 then idcode.toNat
  else if t.ir = 0x20 then
    t.regAddr.toNat + 2 ^ 32 * t.regData.toNat + 2 ^ 64 * (b2n t.regWrite + 2 * t.regStatus.toNat)
  else if t.ir = 0x21 then ofLe t.keyload
  else 0

/-- Capture-DR (R426). -/
def State.captureDr (s : State) : State := { s with tap := { s.tap with dr := s.tap.captured s.bsr } }

/-- An access-port instruction is loaded (R426), and its data register captured: EXTEST ends where it was in force, and
the pins take the levels that the scheduler set meanwhile. -/
def State.tapInstr (s : State) (ir : Byte) : State :=
  let s1 := ({ s with tap := { s.tap with ir := ir, extest := false } }).captureDr
  if s.tap.extest then
    ([0, 1, 2, 3, 4, 5, 6, 7] : List (Fin 8)).foldl (fun t pin => t.setPin pin (t.evt.get pin).level) s1
  else s1

/-- The pending pulse end of a pin. -/
def State.setPulse (s : State) (pin : Fin 8) (p : Option (Nat × Fin 4 × Fin 64)) : State :=
  { s with evt := s.evt.set pin.val { s.evt.get pin with pulse := p } pin.isLt }

/-! ### EVENT_SCHEDULED records (R238) -/

/-- The record of an entry on the rule's context queue under forme `f`; none while the slice is not RUNNING
(R237) or where the queue is gone. -/
def State.schedRecord (s : State) (c : Fin 4) (f : Option Forme) (e : SchedEntry) (outcome code ts : Nat) :
    State :=
  match f with
  | none => s
  | some f =>
    if (s.sl c).ctl.state == .running && f.has 5 e.context.val then
      s.stage (localQ c (cxQueue (f.cx e.context.val)))
        (s.mkRec 0x23 c.val 0xFF e.context.val e.msgId ts (s.sl c).unlocked
          ([BitVec.ofNat 8 outcome, BitVec.ofNat 8 code, BitVec.ofNat 8 e.rule.val,
            BitVec.ofNat 8 e.pin.val, BitVec.ofNat 8 e.action, BitVec.ofNat 8 e.cls, BitVec.ofNat 8 e.code, 0]
            ++ le 2 e.group ++ le 2 0 ++ le 4 e.msgId.toNat ++ le 8 e.at_ ++ le 8 (e.done.getD 0)))
    else s

/-! ### Creation (R233 to R235) -/

/-- The first TB epoch at least 2^16 ticks after `now` (R234). -/
def firstDue (now : Nat) : Nat := alignUp (2 ^ 20) (now + 2 ^ 16)

/-- LATE_MAX_S in ticks. -/
def Sched.lateMax (d : Sched) : Nat := secTicks (bf d.cfg 0 16)

/-- When an entry becomes due, whether it is late, or the code it is rejected with (R234). -/
def evalEntry (at_ now lateMax : Nat) : Except Nat (Nat × Bool) :=
  if at_ = 0 then .ok (firstDue now, false)
  else if firstDue now ≤ at_ then
    if now + 2 ^ 50 < at_ then .error Status.badParam else .ok (at_, false)
  else if now ≤ at_ + lateMax then .ok (firstDue now, true)
  else .error Status.timeout

/-- An entry rejected (R234, R235). -/
def State.rejectEntry (s : State) (c : Fin 4) (f : Option Forme) (e : SchedEntry) (code : Nat) : State :=
  (s.modSch c (fun d =>
    { d with rejected := count 16 1 d.rejected,
             events := if code = Status.noResource then raise (raise d.events 4) 2 else raise d.events 4 }))
    |>.schedRecord c f e 4 code e.msgTs

/-- An entry evaluated and kept, a duplicate counted, or a rejection (R233 to R235). -/
def State.addEntry (s : State) (c : Fin 4) (f : Option Forme) (e : SchedEntry) : State :=
  let d := s.sch c
  if d.entries.any (fun x => x.rule == e.rule && x.at_ == e.at_) then
    s.modSch c (fun d => { d with dups := count 32 1 d.dups })
  else
    let r : Except Nat (Option Nat × Bool) :=
      if e.at_ ≠ 0 ∧ !s.tbm.origin then .ok (none, false)
      else (evalEntry e.at_ s.tb d.lateMax).map (fun p => (some p.1, p.2))
    match r with
    | .error code => s.rejectEntry c f e code
    | .ok (due, late) =>
      if 128 ≤ d.entries.length then s.rejectEntry c f e Status.noResource
      else
        let e' := { e with due := due, late := late }
        (s.modSch c (fun d => { d with entries := d.entries ++ [e'] })).schedRecord c f e' 0 Status.ok e.msgTs

/-- Whether a message of this class, code and group matches a rule (R233). -/
def ruleMatches (p : List Byte) (auth : Bool) (cls code group : Nat) : Bool :=
  let m := ruMatch p
  (!ruAuth p || auth) && bitsOf m 24 8 == cls && (bitsOf m 16 8 == code || bitsOf m 16 8 == 0xFF)
    && (bitsOf m 0 16 == group || bitsOf m 0 16 == 0xFFFF || group == 0xFFFF)

/-- Every rule of context `k` that matches creates its entry (R233). -/
def State.applyRules (s : State) (c : Fin 4) (k : Fin 256) (auth : Bool) (cls code group at_ : Nat)
    (msgId : Word) (msgTs : Nat) : State :=
  let f := (s.sl c).inForce
  match f with
  | none => s
  | some g =>
    (g.ofType 8).foldl (fun t r =>
      let p := r.payload
      if ruContext p == k.val && ruleMatches p auth cls code group then
        t.addEntry c f
          { rule := Fin.ofNat 64 r.key, at_ := at_, due := none, late := false, done := none,
            pin := Fin.ofNat 8 (ruPin p), action := ruAction p, pulseUs := ruPulseUs p, context := k,
            cls := cls, code := code, group := group, msgId := msgId, msgTs := msgTs }
      else t) s

/-- The entries that waited for the change of origin are evaluated at it (R234). -/
def State.resolveEntries (s : State) : State :=
  allSlices.foldl (fun t c =>
    let old := (t.sch c).entries
    let f := (t.sl c).inForce
    old.foldl (fun u e =>
      if e.due.isSome then u
      else
        match evalEntry e.at_ u.tb (u.sch c).lateMax with
        | .ok (due, late) =>
          u.modSch c (fun d => { d with entries := d.entries.map (fun x =>
            if x = e then { e with due := some due, late := late } else x) })
        | .error code =>
          (u.modSch c (fun d => { d with entries := d.entries.filter (fun x => x != e) })).rejectEntry c f e
            code) t) s

/-! ### Execution (R236) -/

/-- One action on its pin at a due value: 0x01 high, 0x02 low, 0x03 a pulse. -/
def State.pinAction (s : State) (c : Fin 4) (e : SchedEntry) (due : Nat) : State :=
  if e.action = 1 then (s.setPin e.pin true).setPulse e.pin none
  else if e.action = 2 then (s.setPin e.pin false).setPulse e.pin none
  else (s.setPin e.pin true).setPulse e.pin (some (due + e.pulseUs * 1024, c, e.rule))

/-- The pulse end of a pin, where it has come by TB value `t`. -/
def State.endPulse (s : State) (pin : Fin 8) (t : Nat) : State :=
  match (s.evt.get pin).pulse with
  | some (u, _, _) => if u ≤ t then (s.setPulse pin none).setPin pin false else s
  | none => s

/-- One entry executed: its pin acts, after a pulse end that comes before it; it stays as done, and its record is made
(R235, R236, R238). -/
def State.executeEntry (s : State) (c : Fin 4) (e : SchedEntry) (due doneTb : Nat) (skipped : Bool) : State :=
  let late := e.late || skipped
  let e' := { e with done := some doneTb, late := late }
  let s1 := ((s.endPulse e.pin due).pinAction c e due).modSch c (fun d =>
    { d with
      entries := d.entries.map (fun x => if x = e then e' else x),
      executed := count 16 1 d.executed, late := if late then count 16 1 d.late else d.late,
      events := if late then raise (raise d.events 0) 3 else raise d.events 0 })
  s1.schedRecord c (s1.sl c).inForce e' (if late then 2 else 1) Status.ok doneTb

/-- The entries of a slice that are due by `t`, in order of due value and then of rule (R236). -/
def Sched.dueBy (d : Sched) (t : Nat) : List (Nat × SchedEntry) :=
  sortBy (fun p => p.1 * 64 + p.2.rule.val)
    (d.entries.filterMap (fun e =>
      match e.due, e.done with
      | some u, none => if u ≤ t then some (u, e) else none
      | _, _ => none))

/-- The entries of a slice that are due by `t` executed. -/
def State.runEntries (s : State) (c : Fin 4) (t : Nat) : State :=
  ((s.sch c).dueBy t).foldl (fun u p => u.executeEntry c p.2 p.1 p.1 false) s

/-- The lock-up instant of a slice, if one is fixed and its tokens are granted. -/
def Slice.lockInstant (x : Slice) : Option Nat :=
  match x.ctl.state, x.shadow.area with
  | .calibrating, _ => x.shadow.reload
  | _, .pending _ _ t _ => some t
  | _, _ => none

/-- The lock-up instant that slice `x` has reached at TB value `now` and that waits for its LOCKUP_INSTANT alone. -/
def Slice.lockReady (x : Slice) (now : Nat) : Option Nat :=
  match x.lockInstant with
  | some t => if t ≤ now ∧ !x.clk.coast then some t else none
  | none => none

/-- ENTRY_DUE (R74, R236): TB has reached the due value of entries of the slice. An entry due at or after a lock-up
instant that has not taken effect belongs to the new forme and waits for it. -/
def execEntryDue (c : Fin 4) (s : State) : Host.Outcome State Fault Refusal :=
  run s fun s =>
    match (s.sl c).lockReady s.tb with
    | some t => if t = 0 then s else s.runEntries c (t - 1)
    | none => s.runEntries c s.tb

/-- Whether an entry that acts on a pin is due before TB value `t` and has not been executed. -/
def State.pinEntryBefore (s : State) (pin : Fin 8) (t : Nat) : Bool :=
  allSlices.any (fun c => (s.sch c).entries.any (fun e => e.pin == pin && e.done.isNone &&
    (match e.due with | some u => decide (u < t) | none => false)))

/-- PULSE_END (R236): the pin goes low. An entry of the pin that is due before the pulse end comes first. -/
def execPulseEnd (pin : Fin 8) (s : State) : Host.Outcome State Fault Refusal :=
  run s fun s =>
    match (s.evt.get pin).pulse with
    | some (u, _, _) => if s.pinEntryBefore pin (min u s.tb) then s else s.endPulse pin s.tb
    | none => s

/-- When a done entry expires (R235). -/
def SchedEntry.expires (e : SchedEntry) (lateMax : Nat) : Option Nat :=
  e.done.map (fun t => max e.at_ t + lateMax)

/-- DONE_ENTRY_EXPIRY (R235). -/
def execDoneEntryExpiry (c : Fin 4) (s : State) : Host.Outcome State Fault Refusal :=
  run s fun s =>
    s.modSch c (fun d => { d with entries := d.entries.filter (fun e =>
      match e.expires d.lateMax with | some t => decide (s.tb < t) | none => true) })

/-! ### Cancellation (R237) -/

/-- The pending entries that `p` names are cancelled at TB value `now`, and their rules' pulse ends with them: the pins
of those go low. The records stand under forme `f`, on queues that `keeps` still declares (R238). -/
def State.cancelEntries (s : State) (c : Fin 4) (f keeps : Option Forme) (now : Nat) (p : Nat → Bool) : State :=
  let gone := (s.sch c).entries.filter (fun e => e.done.isNone && p e.rule.val)
  let s1 := s.modSch c (fun d =>
    { d with entries := d.entries.filter (fun e => !(e.done.isNone && p e.rule.val)),
             cancelled := count 16 gone.length d.cancelled })
  let there (e : SchedEntry) : Bool := match f, keeps with
    | some f, some g => g.has 7 (cxQueue (f.cx e.context.val))
    | _, _ => false
  let s2 := gone.foldl (fun t e => if there e then t.schedRecord c f e 3 Status.rejected now else t) s1
  (List.range 8).foldl (fun t i =>
    let pin := Fin.ofNat 8 i
    match (t.evt.get pin).pulse with
    | some (_, k, r) => if k = c ∧ p r.val then (t.setPulse pin none).setPin pin false else t
    | none => t) s2

/-- Pins that a slice no longer claims go low (R236). -/
def State.setClaim (s : State) (c : Fin 4) (claim : Nat) : State :=
  let old := (s.sch c).claim.toNat
  let s1 := s.modSch c (fun d => { d with claim := BitVec.ofNat 8 claim })
  (List.range 8).foldl (fun t i =>
    if old.testBit i && !claim.testBit i then (t.setPulse (Fin.ofNat 8 i) none).setPin (Fin.ofNat 8 i) false
    else t) s1

/-- A slice without a forme (R84, R236): no entry of it stays pending and no pin is claimed. -/
def State.dropRules (s : State) (c : Fin 4) : State :=
  (s.cancelEntries c none none s.tb (fun _ => true)).setClaim c 0

/-- The earliest due value among pending entries, or a pending pulse end that comes first, of a slice; 0
where nothing is pending (R239). -/
def State.nextDue (s : State) (c : Fin 4) : Nat :=
  let dues := (s.sch c).entries.filterMap (fun e => if e.done.isSome then none else e.due)
  let ends := s.evt.toList.filterMap (fun p => match p.pulse with
    | some (t, k, _) => if k = c then some t else none
    | none => none)
  ((dues ++ ends).min?).getD 0

end Sys2Proof.Machine
end

