-- ==== Sys2Proof/Machine/Timebase.lean ====
section
/-! DEFINITION. The module timebase: sources and states (R93 to R95), corrections (R99 to R102), the change
of origin (R89, R110) and the slice loops (R92, R96 to R98, R103, R105). -/

namespace Sys2Proof.Machine

open Sys2Proof

/-! ### Points, epochs and registrations armed by TBM -/

/-- The first registration point at or after `t` (R99). -/
def regPoint (t : Nat) : Nat := alignUp (2 ^ 30) t

/-- A registration at `t` from a source of R342, merged with a pending one of the same tick (R344). -/
def Trk.armReg (k : Trk) (e : PendReg) : Trk :=
  if k.pending.any (fun p => p.tick == e.tick) then
    { k with pending := k.pending.map (fun p =>
        if p.tick = e.tick then
          { p with slices := p.slices ||| e.slices, sources := p.sources ||| e.sources,
                   unaligned := p.unaligned || e.unaligned,
                   hops := if p.sources.getLsbD 2 then p.hops else e.hops,
                   origin := if p.sources.getLsbD 2 then p.origin else e.origin }
        else p) }
  else { k with pending := k.pending ++ [e] }

/-- TBM arms its registration at a registration point for every slice (R342, R344). -/
def State.armTbm (s : State) (p : Nat) : State :=
  let e : PendReg :=
    { tick := p, slices := 15, sources := 8, unaligned := false, hops := 0, origin := s.addr }
  { s with trk := s.trk.armReg e }

/-- TBM withdraws its source from the tick it armed (R110). -/
def State.unarmTbm (s : State) (p : Nat) : State :=
  { s with trk := { s.trk with pending := (s.trk.pending.map (fun e =>
      if e.tick = p then { e with sources := e.sources &&& 7 } else e)).filter (fun e => e.sources != 0) } }

/-- A pending step or hold withdrawn. -/
def State.dropStep (s : State) : State :=
  let s1 := match s.tbm.step with
    | some p => s.unarmTbm p.point
    | none => s
  let s2 := match s1.tbm.holdsAt with
    | some p => s1.unarmTbm p
    | none => s1
  { s2 with tbm := { s2.tbm with step := none, holdsAt := none } }

/-- A step decided (R100, R89): it waits for the first registration point at least 2^20 ticks later. -/
def State.decideStep (s : State) (amount kind source : Nat) (todSet : Bool) : State :=
  let p := regPoint (s.tb + 2 ^ 20)
  let s1 := s.dropStep
  ({ s1 with tbm := { s1.tbm with
      step := some { point := p, amount := amount, kind := kind, source := source, todSet := todSet },
      slewing := false } }).armTbm p

/-! ### Corrections (R99, R100) -/

/-- Whether a change of origin is pending. -/
def Tbm.originPending (t : Tbm) : Bool :=
  match t.step with
  | some p => p.kind == 2
  | none => false

/-- The deadband of a rank in ticks (R93). -/
def deadband (r : Nat) : Nat := if r = 3 then usTicks 50 else if r = 4 then msTicks 20 else 0

/-- The way that CORR_MODE and SLEW_LIMIT give to remove an offset on the TAI scale (R100). A step or hold that is
decided and still needed keeps its registration point; a later measurement brings its amount up to date. -/
def State.planOffset (s : State) (off : Int) (source : Nat) : State :=
  let s1 := s.dropStep
  let stepMode := bit s.tbm.cfg 0
  if off = 0 then { s1 with tbm := { s1.tbm with offset := 0, slewing := false, slewAcc := 0 } }
  else if !stepMode ∨ off.natAbs ≤ bf s.tbm.slewLimit 0 24 then
    { s1 with tbm := { s1.tbm with offset := off, slewing := true } }
  else if off < 0 then
    match s.tbm.step with
    | some k => { s with tbm := { s.tbm with
        offset := off, step := some { k with amount := off.natAbs, source := source } } }
    | none => ({ s1 with tbm := { s1.tbm with offset := off } }).decideStep off.natAbs 0 source false
  else
    match s.tbm.holdsAt with
    | some _ => { s with tbm := { s.tbm with offset := off, slewing := false } }
    | none =>
      let p := regPoint (s.tb + 1)
      ({ s1 with tbm := { s1.tbm with offset := off, slewing := false, holdsAt := some p } }).armTbm p

/-- The offset of the selected source is corrected (R95, R100): the first time of day decides the change of
origin (R89), an offset within the deadband stays (R93). -/
def State.correct (s : State) (off : Int) (source : Nat) : State :=
  if s.tbm.originPending then s
  else if !s.tbm.origin then
    if off < 0 then s.decideStep off.natAbs 2 source false else s
  else if off.natAbs < deadband source then s
  else s.planOffset off source

/-! ### Sources (R93, R95) -/

/-- Whether SRC_EN and FORCE_SRC allow an external rank (R93, R109). -/
def Tbm.allowed (t : Tbm) (r : Nat) : Bool :=
  let f := bf t.cfg 4 4
  bit t.cfg (7 + r) && (f == 0 || decide (5 ≤ f) || f == r)

/-- Whether an external rank qualifies. -/
def Tbm.qualified (t : Tbm) (r : Nat) : Bool := vget t.qual (r - 1) false

/-- The best-ranked external source that qualifies and is allowed. -/
def Tbm.best (t : Tbm) : Option Nat := [1, 2, 3, 4].find? (fun r => t.qualified r && t.allowed r)

/-- TBM selects a source and corrects its offset (R95). -/
def State.selectSource (s : State) (r : Nat) : State :=
  let s1 := { s with tbm := { s.tbm with
    state := .locked, source := r, lost := 0, everLocked := true,
    events := if s.tbm.state = TbmState.freerun then s.tbm.events else raise s.tbm.events 0 } }
  let s2 := if s.tbm.state = .locked then s1
    else s1.modSlices (fun _ x => { x with clk := { x.clk with ctrlHist := [] } })
  s2.correct (vget s.tbm.srcOff (r - 1) 0) r

/-- Real ticks of SWITCH_HOLD (R109). -/
def Tbm.switchHold (t : Tbm) : Nat := secTicks (bf t.cfg 16 8)

/-- The best-ranked allowed source above the selected one that has stayed qualified for SWITCH_HOLD (R95). -/
def State.bestHeld (s : State) : Option Nat :=
  [1, 2, 3, 4].find? (fun r => s.tbm.qualified r && s.tbm.allowed r && decide (r < s.tbm.source) &&
    decide (vget s.tbm.since (r - 1) 0 + s.tbm.switchHold ≤ s.real))

/-- The rows of the state table that select a source (R95). -/
def State.reconsider (s : State) : State :=
  match s.tbm.state, s.tbm.best with
  | .locked, _ => (match s.bestHeld with | some r => s.selectSource r | none => s)
  | _, none => s
  | .freerun, some r => s.selectSource r
  | .holdover, some r =>
    if r ≤ s.tbm.lost ∨ s.tbm.holdSince + s.tbm.switchHold ≤ s.real then s.selectSource r else s

/-- A measurement of an external source (R95): `off` is TB minus its time. The selected source is corrected. -/
def State.measureSource (s : State) (r : Nat) (off : Int) : State :=
  let s1 := { s with tbm := { s.tbm with srcOff := vmod s.tbm.srcOff (r - 1) (fun _ => off) } }
  if s1.tbm.state = .locked ∧ s1.tbm.source = r then s1.correct off r else s1

/-- An external source qualifies with this offset (R95). -/
def State.qualify (s : State) (r : Nat) (off : Int) : State :=
  if s.tbm.qualified r then s.measureSource r off
  else
    ({ s with tbm := { s.tbm with
        qual := vmod s.tbm.qual (r - 1) (fun _ => true),
        since := vmod s.tbm.since (r - 1) (fun _ => s.real),
        srcOff := vmod s.tbm.srcOff (r - 1) (fun _ => off) } }).reconsider

/-- The mean of the control values of R103. -/
def Clk.mean (k : Clk) : Nat :=
  if k.ctrlHist.isEmpty then k.ctrl else k.ctrlHist.sum / k.ctrlHist.length

/-- TBM enters HOLDOVER: the timing slice's control freezes at its mean, and no correction goes on but a
change of origin (R95, R103). -/
def State.enterHoldover (s : State) : State :=
  let s1 := if s.tbm.originPending then s else s.dropStep
  let s2 := { s1 with tbm := { s1.tbm with
    state := .holdover, lost := s1.tbm.source, source := 0, holdSince := s1.real, offset := 0,
    slewing := false, slewAcc := 0, events := raise s1.tbm.events 1 } }
  match s2.tbm.timing with
  | some c => s2.modSl c (fun x => { x with clk := { x.clk with ctrl := x.clk.mean } })
  | none => s2

/-- An external source is lost (R93, R95). -/
def State.loseSource (s : State) (r : Nat) : State :=
  if !s.tbm.qualified r then s
  else
    let s1 := { s with tbm := { s.tbm with qual := vmod s.tbm.qual (r - 1) (fun _ => false) } }
    if s1.tbm.state = .locked ∧ s1.tbm.source = r then s1.enterHoldover.reconsider else s1

/-- REFIN_LOST (R93): rank 1 is lost. -/
def execRefinLost (s : State) : Host.Outcome State Fault Refusal :=
  run s fun s =>
    ({ s with tbm := { s.tbm with refinOk := false, ppsGood := 0 } }).loseSource 1

/-- PPS_LOST (R93, R109): no edge accepted for 2 s. -/
def execPpsLost (s : State) : Host.Outcome State Fault Refusal :=
  run s fun s =>
    if s.tbm.ppsExpect.isSome ∧ s.tbm.ppsLast + secTicks 2 ≤ s.real then
      ({ s with tbm := { s.tbm with
          ppsExpect := none, ppsGood := 0, events := raise s.tbm.events 4 } }).loseSource 1
    else s

/-- TRUNK_TIME_LOST (R93): no TIME frame for 250 ms. -/
def execTrunkTimeLost (s : State) : Host.Outcome State Fault Refusal :=
  run s fun s =>
    let silent := match s.trk.upPort with
      | some _ => decide (s.trk.timeReal + msTicks 250 ≤ s.real)
      | none => true
    if silent then s.loseSource 2 else s

/-- SWITCH_HOLD_EXPIRED (R95). -/
def execSwitchHoldExpired (s : State) : Host.Outcome State Fault Refusal :=
  run s fun s => s.reconsider

/-- HOLDOVER_END (R95): HOLDOVER_MAX without an external source. -/
def execHoldoverEnd (s : State) : Host.Outcome State Fault Refusal :=
  run s fun s =>
    if s.tbm.state = .holdover ∧
        s.tbm.holdSince + secTicks (3600 * bf s.tbm.holdoverCfg 0 8) ≤ s.real then
      { s with tbm := { s.tbm with state := .freerun, lost := 0, events := raise s.tbm.events 2 } }
    else s

/-- A write to TBM.CFG (R95, R100, R109). -/
def State.writeTbmCfg (s : State) (v : Word) : State :=
  let old := s.tbm.cfg
  let new := mkWord [(16, 8, bf v 16 8), (12, 1, 1), (8, 4, bf v 8 4), (4, 4, bf v 4 4), (0, 1, bf v 0 1)]
  let s1 := { s with tbm := { s.tbm with
    cfg := new, replan := s.tbm.replan || bit old 0 != bit new 0 } }
  if bf old 8 5 = bf new 8 5 ∧ bf old 4 4 = bf new 4 4 then s1
  else
    let s2 := if s1.tbm.state = .locked ∧ !s1.tbm.allowed s1.tbm.source then s1.enterHoldover else s1
    s2.reconsider

/-- TBM_CFG_WRITE (R95). -/
def execTbmCfgWrite (value : Word) (s : State) : Host.Outcome State Fault Refusal :=
  run s fun s => s.moduleWrite fun s => s.writeTbmCfg value

/-! ### PPS_IN and TOD_SET (R94, R110) -/

/-- A TOD_SET value bound to TB value `e` (R110): the change of origin, or TOD_REJECT where the step would
not be forward. -/
def State.bindTod (s : State) (value : Nat) (e : Int) (source : Nat) : State :=
  let step := (value : Int) - e
  if step < 1 then { s with tbm := { s.tbm with events := raise s.tbm.events 7 } }
  else s.decideStep step.natAbs 2 source true

/-- Whether PPS_IN is present: an edge was accepted less than 2 s ago (R93). -/
def State.ppsPresent (s : State) : Bool :=
  s.tbm.ppsExpect.isSome && decide (s.real < s.tbm.ppsLast + secTicks 2)

/-- Whether a TOD_SET is handled as under ORIGIN 0: there is no TAI origin yet, and no source has decided
it (R110). -/
def Tbm.todFree (t : Tbm) : Bool :=
  !t.origin && (match t.step with
    | some p => p.kind != 2 || p.todSet
    | none => true)

/-- The TAI value that TB carries now or will carry after the pending change of origin. -/
def Tbm.taiNow (t : Tbm) : Nat :=
  match t.step with
  | some p => if p.kind = 2 then t.tb + p.amount else t.tb
  | none => t.tb

/-- A write to TOD_SET_HI (R110). -/
def State.writeTod (s : State) (hi : Word) : State :=
  let v := hi.toNat * 2 ^ 32 + s.tbm.todLo.toNat
  if s.tbm.todFree then
    if s.ppsPresent then { s with tbm := { s.tbm with tod := some v } }
    else s.bindTod v s.tb 0
  else if secTicks 1 < 2 * ((v : Int) - s.tbm.taiNow).natAbs then
    { s with tbm := { s.tbm with events := raise s.tbm.events 7 } }
  else { s with tbm := { s.tbm with tod := some v } }

/-- TOD_SET (R110). -/
def execTodSet (value : Word) (s : State) : Host.Outcome State Fault Refusal :=
  run s fun s => s.moduleWrite fun s => s.writeTod value

/-- The TB value of a PPS_IN edge, REF_DELAY removed (R94). -/
def State.ppsTb (s : State) : Int := (s.tb : Int) - sext 32 s.tbm.refDelay.toNat / 64

/-- TB minus the second that labels an edge on the TAI scale (R94). -/
def ppsOffset (e : Int) : Int :=
  let r := e % (secTicks 1 : Nat)
  if 2 * r ≤ (secTicks 1 : Nat) then r else r - (secTicks 1 : Nat)

/-- The label of an accepted edge (R94, R110): an armed TOD_SET first, else its second on the TAI scale. -/
def State.labelPps (s : State) : State :=
  let e := s.ppsTb
  match s.tbm.tod with
  | some v =>
    let s1 := { s with tbm := { s.tbm with tod := none } }
    if s1.tbm.todFree then s1.bindTod v e 1
    else if s1.tbm.origin then s1.measureSource 1 (e - v)
    else s1
  | none => if s.tbm.origin then s.measureSource 1 (ppsOffset e) else s

/-- Whether an edge now lies within ±100 µs of the expected second or, after pulses that stayed out, of a second after
it (R94). -/
def State.ppsNear (s : State) : Bool :=
  match s.tbm.ppsExpect with
  | some x =>
    let d := (s.real : Int) - x
    decide (-(usTicks 100 : Nat) ≤ d) && decide ((ppsOffset d).natAbs ≤ usTicks 100)
  | none => false

/-- PPS_EDGE (R94): `refinGood` says that REFIN has been within ±5 ppm for 1 s. DESIGN CHOICE: the edge that sets the
expected second counts as the first of the three consecutive ones of R93, which does not say so (log entry 78). -/
def execPpsEdge (refinGood : Bool) (s : State) : Host.Outcome State Fault Refusal :=
  run s fun s =>
    let near := s.ppsNear
    if s.tbm.qualified 1 && !near then
      { s with tbm := { s.tbm with
          ppsIgnored := count 16 1 s.tbm.ppsIgnored, events := raise s.tbm.events 3 } }
    else
      let armed := s.tbm.tod.isSome
      let good := if near then s.tbm.ppsGood + 1 else 1
      let s1 := { s with tbm := { s.tbm with
        ppsAccepted := count 16 1 s.tbm.ppsAccepted, ppsGood := good, refinOk := refinGood,
        ppsExpect := some (s.real + secTicks 1), ppsLast := s.real } }
      let s2 := s1.labelPps
      if 3 ≤ good ∧ refinGood ∧ (s2.tbm.origin ∨ armed) then
        s2.qualify 1 (vget s2.tbm.srcOff 0 0)
      else s2

/-! ### Holds (R101, R102) -/

/-- A TIMEBASE_STEP record (R102). -/
def State.stepRecord (s : State) (kind source left p amount : Nat) : State :=
  s.stage 0 (s.mkRec 0x32 0xFF 0xFF 0xFFFF 0 p false
    ([BitVec.ofNat 8 kind, BitVec.ofNat 8 source, 0, 0] ++ le 4 left ++ le 8 p ++ le 8 amount))

/-- HOLD_END (R101): the hold's span has passed. -/
def execHoldEnd (s : State) : Host.Outcome State Fault Refusal :=
  run s fun s =>
    match s.tbm.hold with
    | some h => if h.left = 0 then { s with tbm := { s.tbm with hold := none } } else s
    | none => s

/-! ### The slice loops (R92, R96 to R98, R103, R105, R106) -/

/-- Whether a slice may be the timing slice (R92). -/
def Slice.timingOk (x : Slice) : Bool :=
  x.clk.lock && (x.ctl.state == .calibrating || x.ctl.state == .idle || x.ctl.state == .running)

/-- A timing slice that no longer qualifies leaves none until the next TB epoch (R92). -/
def State.dropTiming (s : State) : State :=
  match s.tbm.timing with
  | some c => if (s.sl c).timingOk then s else { s with tbm := { s.tbm with timing := none } }
  | none => s

/-- The timing slice chosen at a TB epoch (R92). -/
def State.chooseTiming (s : State) : State :=
  { s with tbm := { s.tbm with timing := allSlices.find? (fun c => (s.sl c).timingOk) } }

/-- Whether the control of slice `c` is frozen (R92, R103). -/
def State.ctrlFrozen (s : State) (c : Fin 4) : Bool :=
  s.tbm.timing == some c && s.tbm.state != .locked

/-- The fine steps that a slice may take in one epoch in either direction, rail assistance apart: 131,072 per second
over 2^20 ticks (R97). The limit of one step in every 4 SCLK cycles, 2^18 in an epoch, is never reached. -/
def fineMax : Nat := 134

/-- The fine steps of rail assistance in one epoch: up to 262,144 per second (R96). -/
def assistMax : Nat := 268

/-- The fine steps of one epoch (R97): the residual error, in which a slew of TB shows, is removed first, and PHASE_TRIM
moves within what is left (log entry 78). -/
def fineSteps (e now goal : Int) : Int × Int :=
  let r := clampI (-(fineMax : Nat)) (fineMax : Nat) (-e)
  let room : Int := (fineMax : Int) - r.natAbs
  (r, clampI (-room) room (goal - now))

/-- What the manual leaves open of a slice loop at one epoch: the control value, whether it is at its limit and at
which one, and the rail assistance (R96, log entry 29). -/
structure LoopFree where
  ctrl : Nat
  rail : Bool
  high : Bool
  assist : Nat
  deriving DecidableEq, Repr

/-- The epoch capture and control update of a slice (R96 to R98). The control is free, since the manual gives the
loop's bandwidth and not its law; at the rail it stands at its limit. `first` says that TBM has not been LOCKED yet: a
frozen control is then the centre value (R103). In manual mode the slice takes no fine steps. -/
def Clk.epoch (k : Clk) (e : Int) (frozen first locked : Bool) (f : LoopFree) : Clk :=
  if !k.lock then { k with phaseErr := 0, fine := 0, assist := 0 }
  else
    let manual := bit k.cfg 0 && !frozen
    let rail := !frozen && !manual && f.rail
    let c := if frozen then (if first then k.centre else k.ctrl) else if manual then bf k.cfg 8 16
      else if rail then (if f.high then 0xFFFF else 0) else f.ctrl
    let steps := if manual then (0, 0)
      else fineSteps (if frozen then 0 else e) k.trimNow (sext 16 (bf k.phaseTrim 0 16))
    let within1 := decide (e.natAbs ≤ 64)
    let bad := rail && !within1
    let good := if within1 then min 8 (k.goodEpochs + 1) else 0
    { k with
      phaseErr := clampI (-2147483648) 2147483647 e, ctrl := c, rail := rail,
      events := if rail && !k.rail then raise k.events 2 else k.events,
      suspect := if within1 then false else k.suspect || bad,
      goodEpochs := good,
      aligned := !bad && decide (e.natAbs ≤ 128) && (k.aligned || good == 8),
      trimNow := k.trimNow + steps.2, fine := steps.1 + steps.2, assist := if rail then f.assist % (assistMax + 1) else 0,
      ctrlHist := if locked then (c :: k.ctrlHist).take 585937 else k.ctrlHist }

/-- R106 steps 1 and 2 at a TB epoch: the slice count is loaded and the re-registration armed. -/
def Clk.load (k : Clk) (now : Nat) : Clk :=
  match k.loadAt with
  | some t => if t ≤ now then { k with loadAt := none, reregAt := some (alignUp (2 ^ 20) (now + 2 ^ 16)) } else k
  | none => k

/-- The loop of slice `c` at a TB epoch, measured phase error `e` (R96). -/
def State.sliceEpoch (s : State) (c : Fin 4) (e : Int) : State :=
  if (s.sl c).ctl.state.served then
    let a := s.freeWord
    let b := a.2.freeWord
    let frozen := s.ctrlFrozen c
    let locked := s.tbm.state == .locked
    let first := !s.tbm.everLocked
    b.2.modSl c (fun x =>
      let k := x.clk.epoch e frozen first locked
        { ctrl := bf a.1 0 16, rail := bit b.1 0, high := bit b.1 1, assist := bf b.1 2 9 }
      { x with clk := k.load s.tb })
  else s

/-- A correction goes on under the present CORR_MODE and SLEW_LIMIT (R100). -/
def State.replanNow (s : State) : State :=
  if s.tbm.replan then
    let s1 := { s with tbm := { s.tbm with replan := false } }
    if s.tbm.offset ≠ 0 ∧ !s.tbm.originPending ∧ s.tbm.state = .locked then
      s1.planOffset s.tbm.offset s.tbm.source
    else s1
  else s

/-- The slice loops and the timing slice at a TB epoch (R92, R96, R100). -/
def State.clockEpoch (s : State) (e0 e1 e2 e3 : Int) : State :=
  ((((s.chooseTiming.sliceEpoch 0 e0).sliceEpoch 1 e1).sliceEpoch 2 e2).sliceEpoch 3 e3).replanNow

/-- RELOCK_ATTEMPT (R105): 10 ms after the loss or the previous attempt the slice tries to relock. `ok` says
that the attempt acquires and confirms lock; RELOCKED then follows (R106). -/
def execRelockAttempt (c : Fin 4) (ok : Bool) (s : State) : Host.Outcome State Fault Refusal :=
  run s fun s =>
    let k := (s.sl c).clk
    if (s.sl c).ctl.state.served ∧ !k.lock ∧ k.loadAt = none ∧ k.lastAttempt + msTicks 10 ≤ s.real then
      s.modSl c (fun x => { x with clk := { x.clk with
        lastAttempt := s.real, relockFail := if ok then x.clk.relockFail else count 16 1 x.clk.relockFail } })
    else s

/-- RELOCKED (R106): lock is confirmed; the slice loads its TB count at the next epoch. -/
def execRelocked (c : Fin 4) (s : State) : Host.Outcome State Fault Refusal :=
  run s fun s =>
    let k := (s.sl c).clk
    if (s.sl c).ctl.state.served ∧ !k.lock ∧ k.coast then
      s.modSl c (fun x => { x with clk := { x.clk with
        lock := true, loadAt := some (alignUp (2 ^ 20) (s.tb + 1)) } })
    else s

end Sys2Proof.Machine
end

