-- ==== Sys2Proof/Machine/Service.lean ====
section
/-! DEFINITION. What a message of a service context does once it is formed: SERVICE_DATA records (R212),
control messages (R216), time values and offers to TBM (R217, R218), alerts and their audio (R230 to R232),
event rules (R233), and what a speculation defers (R226, R227). -/

namespace Sys2Proof.Machine

open Sys2Proof

/-! ### Records of a context -/

/-- The queue of a context. -/
def Slice.ctxQueue (x : Slice) (c : Fin 4) (k : Fin 256) : Fin 256 :=
  localQ c (cxQueue ((x.find 5 k.val).getD []))

/-- A record that enters staging, with the sequence number that it takes at once: on a DROP_OLD queue it takes one when it
leaves (R286). -/
def State.stageSeq (s : State) (q : Fin 256) (r : Record) : State × Option Word :=
  if s.queueDeclared q && !s.queueOld q && (s.qu q).fits r.size then (s.stage q r, some (s.qu q).seq)
  else (s.stage q r, none)

/-- A speculative record of instance `n` enters staging and is noted where its queue receives it (R226). -/
def State.stageSpec (s : State) (c : Fin 4) (n : Nat) (q : Fin 256) (r : Record) : State × Option Word :=
  let tag : SpecTag := { key := n, tb := ((s.sl c).afAt n).specTb, known := false }
  let p := s.stageSeq q { r with spec := some tag }
  if p.2.isSome || s.queueDeclared q && s.queueOld q then
    (p.1.modSl c (fun x => x.modAf n (fun a => { a with specSeqs := noteSeq q p.2 a.specSeqs })), p.2)
  else p

/-- A record made from a unit of context `k` goes on its queue; a speculative one is noted (R226). -/
def State.ctxStage (s : State) (c : Fin 4) (k : Fin 256) (r : Record) : State × Option Word :=
  let x := s.sl c
  let q := x.ctxQueue c k
  if (x.ctxAt k.val).spec then s.stageSpec c (cxDemod ((x.find 5 k.val).getD [])) q r else s.stageSeq q r

/-- The next message ID of a context, taken (R208). -/
def State.takeMsgId (s : State) (c : Fin 4) (k : Fin 256) : Word × State :=
  (((s.sl c).ctxAt k.val).nextId, s.modSl c (fun x => x.modCtx k.val (fun y => { y with nextId := y.nextId + 1 })))

/-- MSG_FAIL of a context (R239). -/
def State.msgFail (s : State) (c : Fin 4) (k : Fin 256) : State :=
  s.modSl c (fun x => x.modCtx k.val (fun y =>
    { y with msgFail := count 32 1 y.msgFail, events := raise y.events 0 }))

/-- MSG_OK of a context (R239). -/
def State.msgOk (s : State) (c : Fin 4) (k : Fin 256) : State :=
  s.modSl c (fun x => x.modCtx k.val (fun y => { y with msgOk := count 32 1 y.msgOk }))

/-- The control message at the start of a message's content, none where it does not begin with MARK (R216). -/
def ctlOf (content : List Byte) : List Byte :=
  if content.take 2 == [0xC5, 0xA7] && decide (16 ≤ content.length) then content.take 16 else []

/-- A record header of context `k` for a message. -/
def State.msgRecord (s : State) (c : Fin 4) (k : Fin 256) (ty : Nat) (m : Message) (payload : List Byte) :
    Record :=
  s.mkRec ty c.val m.tuning.val k.val m.id m.ts (s.sl c).unlocked payload

/-- The SERVICE_DATA record of a message (R212); `data` is what follows the prefix. -/
def State.serviceData (s : State) (c : Fin 4) (k : Fin 256) (m : Message) (data : List Byte) : State :=
  let p := ((s.sl c).find 5 k.val).getD []
  let flags := b2n m.auth + 2 * b2n ((s.sl c).ctxAt k.val).spec + 4 * b2n (!m.ctl.isEmpty)
    + 8 * b2n m.corrected
  (s.ctxStage c k (s.msgRecord c k 0x10 m
    ([BitVec.ofNat 8 (cxParser p), BitVec.ofNat 8 flags, BitVec.ofNat 8 m.sub, BitVec.ofNat 8 (cxDemod p)]
      ++ le 4 m.freq ++ data))).1

/-! ### Time values (R217, R218, R93) -/

/-- The rank that a context's time values have (R217). -/
def timeRank (parser : Nat) : Nat := if parser = 9 then 3 else 4

/-- The lowest-numbered context of the lowest-numbered slice whose time qualifies for a rank (R93). -/
def State.offerer (s : State) (r : Nat) : Option (Fin 4 × Nat) :=
  allSlices.findSome? (fun c =>
    let x := s.sl c
    match x.inForce with
    | none => none
    | some f =>
      (f.ofType 5).findSome? (fun rec =>
        if (x.ctxAt rec.key).offered && timeRank (cxParser rec.payload) == r then some (c, rec.key) else none))

/-- The offset that this context offers, brought up to the TB of now (R93). -/
def State.bestOffer (s : State) (r : Nat) : Option Int :=
  (s.offerer r).map (fun p => ((s.sl p.1).ctxAt p.2).timeOff + s.tbm.moved)

/-- TBM takes the best offer of a rank, or loses the rank where none is left (R93). -/
def State.takeOffer (s : State) (r : Nat) : State :=
  match s.bestOffer r with
  | some off => s.qualify r off
  | none => s.loseSource r

/-- Two consecutive values of a context are consistent (R217). -/
def timesAgree (rank t0 a0 t1 a1 : Nat) : Bool :=
  decide ((((t1 : Int) - t0) - ((a1 : Int) - a0)).natAbs ≤ msTicks (if rank = 3 then 1 else 100))

/-- A final time value of context `k` (R217, R218): its TIME record, and the offer of a consistent pair. -/
def State.timeValue (s : State) (c : Fin 4) (k : Fin 256) (m : Message) (kind timeTb airTb resMs : Nat) :
    State :=
  let p := ((s.sl c).find 5 k.val).getD []
  let y := (s.sl c).ctxAt k.val
  let rank := timeRank (cxParser p)
  let fine := rank == 3 || decide (resMs ≤ 1)
  let pair := match y.lastTime with
    | some (t0, a0) => timesAgree rank t0 a0 timeTb airTb
    | none => false
  let off : Int := (airTb : Int) - timeTb - (if rank = 3 then (usTicks (bf s.tbm.tcDelay 0 16) : Nat) else 0)
  let offer := fine && pair
  let leap := if kind = 5 then 0 else bf s.tbm.utcOffset 0 8
  let s1 := s.modSl c (fun x => x.modCtx k.val (fun y =>
    { y with lastTime := some (timeTb, airTb), timeReal := s.real, badFrames := 0,
             offered := y.offered || offer,
             timeOff := if offer then off - s.tbm.moved else y.timeOff }))
  let s2 := (s1.ctxStage c k (s1.mkRec 0x30 c.val m.tuning.val k.val m.id airTb (s.sl c).unlocked
    ([BitVec.ofNat 8 kind, BitVec.ofNat 8 (b2n offer + 2 * b2n m.auth), BitVec.ofNat 8 leap, 0]
      ++ le 8 timeTb ++ le 8 airTb ++ le 4 resMs))).1
  if offer && s2.offerer rank == some (c, k.val) then s2.takeOffer rank else s2

/-- An invalid minute frame (R93): after three in succession the context no longer offers time. -/
def State.badMinute (s : State) (c : Fin 4) (k : Fin 256) : State :=
  let s1 := s.modSl c (fun x => x.modCtx k.val (fun y =>
    { y with badFrames := y.badFrames + 1, lastTime := none, offered := y.offered && decide (y.badFrames < 2) }))
  if ((s.sl c).ctxAt k.val).offered && !((s1.sl c).ctxAt k.val).offered then s1.takeOffer 3 else s1

/-- Ranks whose offering contexts have gone are lost, the next context taking over (R93). -/
def State.recheckOffers (s : State) : State :=
  let f (s : State) (r : Nat) : State := if s.tbm.qualified r && (s.bestOffer r).isNone then s.takeOffer r else s
  f (f s 3) 4

/-- CLOCK_TIME_LOST (R93): contexts without a valid clock-time message for 10 min offer none. -/
def execClockTimeLost (s : State) : Host.Outcome State Fault Refusal :=
  run s fun s =>
    let s1 := s.modSlices (fun _ x => { x with ctx := vmapIdx (fun k y =>
      if y.offered && timeRank (cxParser ((x.find 5 k).getD [])) == 4
          && decide (y.timeReal + secTicks 600 ≤ s.real) then { y with offered := false } else y) x.ctx })
    s1.recheckOffers

/-! ### Alert audio (R231) -/

/-- The DEMOD instance with AUDIO_OUT 1 (R328). -/
def Forme.audioOut (f : Forme) : Option (Fin 48) :=
  ((f.ofType 4).find? (fun r => dmAudioOut r.payload)).map (fun r => Fin.ofNat 48 r.key)

/-- The context that holds the audio port: the lowest-numbered one with an active routed alert. -/
def Slice.alertHolder (x : Slice) : Option (Fin 256) :=
  (firstIdx (fun (y : Ctx) => y.alert.active && y.alert.routed) x.ctx.toList 0).map (Fin.ofNat 256)

/-- The source that the transmit half carries (R328). -/
def Slice.audioSource (x : Slice) (f : Forme) : Option (Fin 48) :=
  match x.alertHolder with
  | some k => (f.partner k.val).map (Fin.ofNat 48)
  | none => f.audioOut

/-- The audio port follows its alerts (R231): the holder, and the source through the gate. -/
def State.reroute (s : State) (c : Fin 4) : State :=
  let x := s.sl c
  match x.inForce with
  | none => s
  | some f =>
    let h := x.alertHolder
    let n := match f.audio with | some p => (maskSlots (auTxMask p)).length | none => 0
    let s1 := if h == x.sai.alertCtx then s
      else s.modSch c (fun d => { d with events := raise d.events 1 })
    s1.modSai c (fun a => ({ a with alertCtx := h } : Sai).route n (x.audioSource f) s.real)

/-! ### ALERT records (R230, R232) -/

/-- An ALERT record. `ident` is PI, EId or NETWORK_ID where it is known. -/
def State.alertRecord (s : State) (c : Fin 4) (k : Fin 256) (m : Message) (kind state level route ident
    group : Nat) : State :=
  (s.ctxStage c k (s.msgRecord c k 0x22 m
    ([BitVec.ofNat 8 kind, BitVec.ofNat 8 state, BitVec.ofNat 8 level, BitVec.ofNat 8 route]
      ++ le 4 m.freq ++ le 4 ident ++ le 2 group ++ le 2 0))).1

/-- The alert of a context changed by `f`. -/
def State.modAlert (s : State) (c : Fin 4) (k : Fin 256) (f : AlertState → AlertState) : State :=
  s.modSl c (fun x => x.modCtx k.val (fun y => { y with alert := f y.alert }))

/-- Whether a context's alerts are routed: ALERT_ROUTE 1 while ALERT_INHIBIT is 0 (R231). Nothing is routed
during an unconfirmed speculation (R227). -/
def State.routes (s : State) (c : Fin 4) (k : Fin 256) : Bool :=
  cxAlert (((s.sl c).find 5 k.val).getD []) && !bit (s.sch c).cfg 31 && !((s.sl c).ctxAt k.val).spec

/-- An alert starts or changes its level (R230): its state, its audio and its record. -/
def State.alertStart (s : State) (c : Fin 4) (k : Fin 256) (m : Message) (kind level ident group cluster : Nat) :
    State :=
  let routed := s.routes c k
  let s1 := s.modAlert c k (fun a =>
    { a with active := true, kind := BitVec.ofNat 8 kind, level := level, group := group, cluster := cluster,
             lastFig := s.real, routed := a.routed && a.active || routed })
  let s2 := (s1.modSl c (fun x => x.modCtx k.val (fun y => { y with events := raise y.events 1 }))).reroute c
  let route := if ((s2.sl c).ctxAt k.val).alert.routed then (if (s2.sl c).sai.alertCtx = some k then 1 else 2)
    else 0
  s2.alertRecord c k m kind 1 level route ident group

/-- An alert ends (R230). -/
def State.alertEnd (s : State) (c : Fin 4) (k : Fin 256) (m : Message) (kind level ident group : Nat) : State :=
  let held := (s.sl c).sai.alertCtx == some k
  let s1 := s.modAlert c k (fun a => { a with active := false, routed := false, pty31 := 0, ptyOther := 0 })
  let s2 := (s1.modSl c (fun x => x.modCtx k.val (fun y => { y with events := raise y.events 2 }))).reroute c
  s2.alertRecord c k m kind 0 level (if held then 3 else 0) ident group

/-- A native alert matches event rules as CODE 1 at its start and CODE 0 at its end, with GROUP 0xFFFF
(R230). -/
def State.nativeRules (s : State) (c : Fin 4) (k : Fin 256) (m : Message) (code : Nat) : State :=
  s.applyRules c k false 4 code 0xFFFF 0 m.id m.ts

/-- What waits for the confirmation of a speculation (R227). -/
def State.defer (s : State) (c : Fin 4) (k : Fin 256) (d : Deferred) : State :=
  s.modSl c (fun x => x.modAf (cxDemod ((x.find 5 k.val).getD [])) (fun a =>
    { a with deferred := a.deferred ++ [d] }))

/-- A native alert starts (`code` 1) or ends (R230, R227). -/
def State.nativeAlert (s : State) (c : Fin 4) (k : Fin 256) (m : Message) (kind code ident cluster : Nat) :
    State :=
  let s1 := if code = 1 then s.alertStart c k m kind 0xFF ident 0xFFFF cluster
    else s.alertEnd c k m kind 0xFF ident 0xFFFF
  if ((s.sl c).ctxAt k.val).spec then s1.defer c k (.native k m code) else s1.nativeRules c k m code

/-- A control message of CLASS 0x04 (R230): a start while the alert is active changes something only with another CODE. -/
def State.controlAlert (s : State) (c : Fin 4) (k : Fin 256) (m : Message) (code group ident : Nat) : State :=
  let a := ((s.sl c).ctxAt k.val).alert
  if 1 ≤ code ∧ code ≤ 4 then
    if a.active && a.level == code then s
    else s.alertStart c k m 3 code ident group 0
  else if code = 0 ∧ a.active ∧ a.group = group then s.alertEnd c k m 3 0 ident group
  else s

/-! ### Final messages (R216, R217, R230, R233) -/

/-- The effects of a message that is final (R233): time, alerts and event rules. -/
def State.finalMessage (s : State) (c : Fin 4) (k : Fin 256) (m : Message) : State :=
  if m.ctl.isEmpty then s
  else
    let cls := u8 m.ctl 2
    let code := u8 m.ctl 3
    let group := b16 m.ctl 4
    let at_ := b64 m.ctl 8
    let s1 := if cls = 3 then s.timeValue c k m 5 at_ m.ts 0 else s
    let s2 := if cls = 4 then s1.controlAlert c k m code group m.ident else s1
    s2.applyRules c k m.auth cls code group at_ m.id m.ts

/-- A message becomes final: at once, or at the confirmation of the speculation that feeds its context
(R227). -/
def State.messageFinal (s : State) (c : Fin 4) (k : Fin 256) (m : Message) : State :=
  if ((s.sl c).ctxAt k.val).spec then s.defer c k (.msg k m) else s.finalMessage c k m

/-- A time value of kinds 1 to 4 becomes final (R217, R227). UTC is converted to TAI by UTC_OFFSET. -/
def State.timeFinal (s : State) (c : Fin 4) (k : Fin 256) (m : Message) (kind : Byte) (v : TimeValue) (airTb resMs : Nat) :
    State :=
  let t := v.utcTb + secTicks (bf s.tbm.utcOffset 0 8)
  if ((s.sl c).ctxAt k.val).spec then s.defer c k (.time k m kind t airTb resMs)
  else s.timeValue c k m kind.toNat t airTb resMs

/-- The frequency of a tuning, rounded to 1 Hz (R212). -/
def Slice.tuningHz (x : Slice) (t : Nat) : Nat := roundDiv ((x.tunAt t).ncoNow.toNat * 1024000000) (2 ^ 32)

/-! ### Rows -/

/-- ALERT_TIMEOUT (R230): no FIG 0/19 for the cluster for 2 s ends a DAB alert. -/
def execAlertTimeout (c : Fin 4) (x : Fin 256) (s : State) : Host.Outcome State Fault Refusal :=
  run s fun s =>
    let y := (s.sl c).ctxAt x.val
    let p := ((s.sl c).find 5 x.val).getD []
    if (s.sl c).live ∧ y.alert.active ∧ y.alert.kind = 2 ∧ y.alert.lastFig + secTicks 2 ≤ s.real then
      let t := dmTuning (((s.sl c).find 4 (cxDemod p)).getD [])
      let m : Message :=
        { id := 0, ts := s.tb, tuning := Fin.ofNat 32 t, freq := (s.sl c).tuningHz t, sub := 0,
          ident := ((s.sl c).instAt (cxDemod p)).ident, corrected := false, data := [], ctl := [], auth := false }
      s.nativeAlert c x m 2 0 m.ident 0
    else s

/-- A write of SVC.CFG (R239): a LATE_MAX_S out of range leaves the register unchanged; ALERT_INHIBIT returns
a routed alert's port at once (R231). -/
def State.writeSvcCfg (s : State) (c : Fin 4) (v : Word) : State :=
  if 3600 < bf v 0 16 then s.modSch c (fun d => { d with events := raise d.events 5 })
  else
    let s1 := s.modSch c (fun d => { d with cfg := v &&& 0x8000FFFF })
    if bit v 31 then
      (s1.modSl c (fun x => { x with ctx := vmap (fun y =>
        { y with alert := { y.alert with routed := false } }) x.ctx })).reroute c
    else s1

/-- SVC_CFG_WRITE (R239). -/
def execSvcCfgWrite (c : Fin 4) (value : Word) (s : State) : Host.Outcome State Fault Refusal :=
  run s fun s => s.sliceWrite c 0xC3008 (fun s => s.writeSvcCfg c value)

end Sys2Proof.Machine
end

