-- ==== Sys2Proof/Machine/Envelope.lean ====
section
/-! DEFINITION. Aqash envelopes (R252 to R265): header checks, replay records, proof, the blocks of the MAC
engine, and verdicts. -/

namespace Sys2Proof.Machine

open Sys2Proof

/-! ### Key slots (R242 to R244) -/

/-- The code of a slot state (R242, R269). -/
def slotStateCode : SlotState → Nat
  | .empty => 0 | .valid => 1 | .exhausted => 2

/-- The items of a slot that its CRC covers, as bytes (R242, log entry 83). -/
def slotItems (w : KeySlot) : List Byte :=
  padTo 32 w.key ++ [BitVec.ofNat 8 (b2n w.aes256), w.usage.setWidth 8, w.minTag.setWidth 8]
    ++ le 2 w.generation.toNat ++ le 6 w.txCounter.toNat ++ [BitVec.ofNat 8 (slotStateCode w.state)]

/-- The parity bit of each byte. -/
def parityBits (l : List Byte) : BitVec 48 :=
  BitVec.ofNat 48 (ofBits ((padTo 48 l).reverse.map (fun b => (bitsOfByte b).foldl xor false)))

/-- A slot with the CRC and the parity of its items: every write of a slot ends so (R242). -/
def slotSealed (w : KeySlot) : KeySlot :=
  let b := slotItems w
  { w with crc := BitVec.ofNat 32 (crc32 b), par := parityBits (b ++ le 4 (crc32 b)) }

/-- Whether the CRC and the parity of a slot are right (R244). -/
def slotGood (w : KeySlot) : Bool :=
  let b := slotItems w
  crc32 b == w.crc.toNat && parityBits (b ++ le 4 w.crc.toNat) == w.par

/-- A slot whose stored byte `i` has changed in the bits of `m`: an upset of the key store (R244). -/
def slotUpset (w : KeySlot) (i : Fin 48) (m : Byte) : KeySlot :=
  let b := lmod (slotItems w ++ le 4 w.crc.toNat) i.val (fun v => v ^^^ m)
  { w with key := b.take (if (u8 b 32).testBit 0 then 32 else 16), aes256 := (u8 b 32).testBit 0,
           usage := BitVec.ofNat 3 (u8 b 33), minTag := BitVec.ofNat 2 (u8 b 34),
           generation := BitVec.ofNat 16 (u16 b 35), txCounter := BitVec.ofNat 48 (ofLe (slice b 37 6)),
           state := (match u8 b 43 % 4 with | 1 => .valid | 2 => .exhausted | _ => .empty),
           crc := BitVec.ofNat 32 (u32 b 44) }

/-- GENERATION after a write (R243). -/
def nextGeneration (g : BitVec 16) : BitVec 16 := if g = 0xFFFF then 1 else g + 1

/-- A slot after a write that erases (R243): causes are 1 command, 2 alarm, 3 integrity (R269). -/
def slotErased (w : KeySlot) (cause : BitVec 2) : KeySlot :=
  slotSealed { w with key := List.replicate w.key.length 0, usage := 0, generation := nextGeneration w.generation,
                      txCounter := 0, state := .empty, eraseCause := cause }

/-- A slot as a use finds it: one whose CRC or parity fails is as good as erased (R244). -/
def Slice.slotUse (x : Slice) (n : Nat) : KeySlot :=
  let w := x.slotAt n
  if slotGood w then w else slotErased w 3

/-! ### Fields of an envelope (R252) -/

/-- Tag bits T of an envelope whose first byte is there. -/
def Envelope.tagBits (e : Envelope) : Nat := 32 * (u8 e.bytes 0 % 4 + 1)

/-- LENGTH of an envelope whose header is there. -/
def Envelope.length (e : Envelope) : Nat := b16 e.bytes 8

/-- COUNTER of an envelope whose first 8 bytes are there. -/
def Envelope.counter (e : Envelope) : Nat := ofBe (slice e.bytes 2 6)

/-- The whole length that the header declares. -/
def Envelope.total (e : Envelope) : Nat := 10 + e.length + e.tagBits / 8

/-- PAYLOAD as far as it is there. -/
def Envelope.payload (e : Envelope) : List Byte := (e.bytes.drop 10).take e.length

/-- The slot that the context maps the envelope's label to, once the label is there. -/
def Slice.envSlot (x : Slice) (k : Fin 256) (e : Envelope) : Option Nat :=
  if e.bytes.length < 2 then none else x.forme.bind (fun f => f.slotOf k.val (u8 e.bytes 1))

/-! ### Replay records (R254 to R257) -/

/-- Counter `n` is fresh for L and W (R255). -/
def fresh (n last : Nat) (window : DWord) : Bool :=
  if last < n then true else if 63 < last - n then false else !window.getLsbD (last - n)

/-- L and W after counter `n` is accepted (R255). -/
def acceptCounter (n last : Nat) (window : DWord) : Nat × DWord :=
  if last < n then
    (n, if 63 < n - last then 1 else (window <<< (n - last)) ||| 1)
  else (last, window ||| BitVec.ofNat 64 (2 ^ (last - n)))

/-- The record of a context, label and slot in a list; a new one starts with L 0 and W all ones (R254). -/
def findReplay (l : List Replay) (k : Fin 256) (label : Byte) (slot : Fin 64) : Option Replay :=
  l.find? (fun r => r.context == k && r.label == label && r.slot == slot)

/-- A record that has accepted nothing. -/
def Replay.new (k : Fin 256) (label : Byte) (slot : Fin 64) : Replay :=
  { context := k, label := label, slot := slot, last := 0, window := BitVec.allOnes 64 }

/-- The list with a record put in place of the one of its context and label. -/
def putReplay (r : Replay) (l : List Replay) : List Replay :=
  l.filter (fun q => !(q.context == r.context && q.label == r.label)) ++ [r]

/-- A record after it accepts counter `n`. -/
def replayAccept (r : Replay) (n : Nat) : Replay :=
  let p := acceptCounter n r.last.toNat r.window
  { r with last := BitVec.ofNat 48 p.1, window := p.2 }

/-- The AF process of the instance of context `k`. -/
def Slice.afOf (x : Slice) (k : Fin 256) : Nat := cxDemod ((x.find 5 k.val).getD [])

/-- The record that a context tests against: the provisional copy during a speculation (R257). -/
def Slice.replayOf (x : Slice) (k : Fin 256) (label : Byte) (slot : Fin 64) : Replay :=
  let own := (findReplay x.mac.replay k label slot).getD (Replay.new k label slot)
  if (x.ctxAt k.val).spec then
    (findReplay (x.afAt (x.afOf k)).provisional k label slot).getD own
  else own

/-- The mirror of the cartridge follows the key store (R244, R256). -/
def Slice.syncMirror (x : Slice) : Slice :=
  { x with cart := x.cart.map (fun t => { t with slots := x.mac.slots.toList, replay := x.mac.replay }) }

/-- A PASS updates its record: the provisional copy during a speculation, else the record and the mirror. -/
def Slice.acceptReplay (x : Slice) (k : Fin 256) (e : Envelope) (slot : Fin 64) : Slice :=
  let r := replayAccept (x.replayOf k (BitVec.ofNat 8 (u8 e.bytes 1)) slot) e.counter
  if (x.ctxAt k.val).spec then
    x.modAf (x.afOf k) (fun a => { a with provisional := putReplay r a.provisional })
  else Slice.syncMirror { x with mac := { x.mac with replay := putReplay r x.mac.replay } }

/-! ### The envelope at the front of a context -/

/-- The envelope that is checked and verified now: an ended one first. -/
def Ctx.front (y : Ctx) : Option Envelope :=
  match y.queued with
  | e :: _ => some e
  | [] => y.env

/-- That envelope replaced. -/
def Ctx.setFront (y : Ctx) (e : Envelope) : Ctx :=
  match y.queued with
  | _ :: es => { y with queued := e :: es }
  | [] => { y with env := some e }

/-- That envelope done with. -/
def Ctx.popFront (y : Ctx) : Ctx :=
  match y.queued with
  | _ :: es => { y with queued := es }
  | [] => { y with env := none }

/-- The front envelope of context `k` replaced. -/
def State.setEnv (s : State) (c : Fin 4) (k : Fin 256) (e : Envelope) : State :=
  s.modSl c (fun x => x.modCtx k.val (fun y => y.setFront e))

/-! ### Verdicts (R265) -/

/-- A verdict counted in the MAC counters (R269). -/
def Mac.countVerdict (m : Mac) (code : Nat) : Mac :=
  if code = Status.ok then { m with pass := count 32 1 m.pass }
  else if code = Status.replay then { m with replayFail := count 16 1 m.replayFail }
  else if code = Status.tagFail then { m with tagFail := count 16 1 m.tagFail }
  else if code = Status.badParam ∨ code = Status.length ∨ code = Status.rejected then
    { m with formatFail := count 16 1 m.formatFail }
  else { m with keyFail := count 16 1 m.keyFail }

/-- A verdict counts at once, or at the confirmation of a speculation (R257). -/
def State.countVerdict (s : State) (c : Fin 4) (k : Fin 256) (code : Nat) : State :=
  if ((s.sl c).ctxAt k.val).spec then s.defer c k (.verdict code)
  else s.modSl c (fun x => { x with mac := x.mac.countVerdict code })

/-- The VERDICT record of an envelope (R265). -/
def State.verdictRecord (s : State) (c : Fin 4) (k : Fin 256) (e : Envelope) (code : Nat) : State :=
  let x := s.sl c
  let p := (x.find 5 k.val).getD []
  let n := e.bytes.length
  let slot := (x.envSlot k e).getD 0xFF
  let flags := b2n (x.ctxAt k.val).spec + 2 * b2n e.bound.isSome + 4 * b2n e.proofLost
  let gen := match e.bound with | some b => b.2.toNat | none => 0
  (s.ctxStage c k (s.mkRec 0x12 c.val e.tuning.val k.val e.id e.ts x.unlocked
    ([BitVec.ofNat 8 code, BitVec.ofNat 8 (cxDelivery p),
      BitVec.ofNat 8 (if n < 2 then 0 else u8 e.bytes 1), BitVec.ofNat 8 slot]
      ++ le 6 (if n < 8 then 0 else e.counter)
      ++ [BitVec.ofNat 8 (if n = 0 then 0 else e.tagBits), BitVec.ofNat 8 flags]
      ++ le 2 (if n < 10 then 0 else e.length) ++ le 2 gen ++ le 4 e.proofCount ++ le 4 e.proofSent
      ++ le 4 (match e.firstSeq with | some w => w.toNat | none => 0) ++ le 4 0))).1

/-- The verdict of the front envelope is fixed, its record still to be made. -/
def State.fixVerdict (s : State) (c : Fin 4) (k : Fin 256) (e : Envelope) (code : Nat) : State :=
  (s.setEnv c k { e with verdict := some code, commit := false }).countVerdict c k code

/-- A verdict that ends an envelope before its message does: the record is made at once (R246, R264). -/
def State.endVerdict (s : State) (c : Fin 4) (k : Fin 256) (e : Envelope) (code : Nat) : State :=
  (s.fixVerdict c k { e with closed := true } code).verdictRecord c k e code

/-- The message of an envelope that passed (R260). -/
def Envelope.message (e : Envelope) : Message :=
  { id := e.id, ts := e.ts, tuning := e.tuning, freq := e.freq, ident := e.ident, sub := e.sub, corrected := e.corrected,
    data := e.payload, ctl := ctlOf e.payload, auth := true }

/-- What the end of a message with a fixed verdict makes (R260, R261): a SEALED PASS its SERVICE_DATA, every
other verdict and every PROOF verdict its VERDICT record; a PASS makes the message final (R233). -/
def State.closeEnvelope (s : State) (c : Fin 4) (k : Fin 256) (e : Envelope) (code : Nat) : State :=
  if e.closed then s
  else
    let sealed := cxDelivery (((s.sl c).find 5 k.val).getD []) == 1
    let m := e.message
    let slot := match e.bound with | some b => b.1.val | none => 0xFF
    let s1 :=
      if sealed && code == Status.ok then
        s.serviceData c k m
          (m.data ++ le 6 e.counter ++ [BitVec.ofNat 8 (u8 e.bytes 1), BitVec.ofNat 8 slot])
      else s.verdictRecord c k e code
    if code = Status.ok then s1.messageFinal c k m else s1

/-! ### Header checks (R253) -/

/-- Checks 1 to 6: the slot and its GENERATION to bind, or the code of the first failure. -/
def Slice.headerCheck (x : Slice) (k : Fin 256) (e : Envelope) : Except Nat (Fin 64 × BitVec 16) :=
  if e.bytes.length < 10 then .error Status.badParam
  else if 4096 < e.total then .error Status.length
  else if u8 e.bytes 0 / 4 ≠ 4 then .error Status.badParam
  else
    match x.envSlot k e with
    | none => .error Status.keyEmpty
    | some n =>
      let slot : Fin 64 := Fin.ofNat 64 n
      let w := x.slotUse n
      if w.state = .empty then .error Status.keyEmpty
      else if !w.usage.getLsbD 0 ∨ u8 e.bytes 0 % 4 < w.minTag.toNat then .error Status.usage
      else
        let r := x.replayOf k (BitVec.ofNat 8 (u8 e.bytes 1)) slot
        if fresh e.counter r.last.toNat r.window then .ok (slot, w.generation)
        else .error Status.replay

/-- The header checks of the front envelope, once its first 10 bytes are there or its message ended. -/
def State.checkHeader (s : State) (c : Fin 4) (k : Fin 256) (e : Envelope) : State :=
  if e.verdict.isSome || e.bound.isSome || !(decide (10 ≤ e.bytes.length) || e.ended) then s
  else
    match (s.sl c).headerCheck k e with
    | .ok b => s.setEnv c k { e with bound := some b, chain := List.replicate 16 0 }
    | .error code => s.fixVerdict c k e code

/-! ### Proof (R261) -/

/-- One PROOF_DATA record of the front envelope, where 64 payload bytes are pending or the payload is
complete. -/
def State.proofData (s : State) (c : Fin 4) (k : Fin 256) (e : Envelope) : State :=
  let x := s.sl c
  let p := (x.find 5 k.val).getD []
  let pend := e.payload.drop e.proofSent
  let whole := decide (10 + e.length ≤ e.bytes.length)
  if cxDelivery p ≠ 2 ∨ e.bound = none ∨ e.verdict.isSome ∨ pend.isEmpty
      ∨ (pend.length < 64 ∧ !whole) then s
  else
    let ctl := e.proofSent == 0 && e.payload.take 2 == [0xC5, 0xA7]
    let flags := 2 * b2n (x.ctxAt k.val).spec + 4 * b2n ctl + 16 * b2n whole
    let r := s.ctxStage c k (s.mkRec 0x11 c.val e.tuning.val k.val e.id e.pendTs x.unlocked
      ([BitVec.ofNat 8 (cxParser p), BitVec.ofNat 8 flags, BitVec.ofNat 8 e.sub, BitVec.ofNat 8 (cxDemod p)]
        ++ le 4 e.freq ++ le 2 e.proofSent ++ le 2 0 ++ pend))
    r.1.setEnv c k { e with
      proofSent := e.proofSent + pend.length, proofCount := e.proofCount + 1,
      proofLost := e.proofLost || r.2.isNone,
      firstSeq := (match e.firstSeq with | some w => some w | none => r.2) }

/-! ### Moving on -/

/-- The length check at the 4,097th byte and at the message's end (check 7 of R253, R435). -/
def State.checkLength (s : State) (c : Fin 4) (k : Fin 256) (e : Envelope) : State :=
  if e.verdict.isSome then s
  else if 4096 < e.bytes.length then s.fixVerdict c k e Status.length
  else if e.failed then s.fixVerdict c k e Status.badParam
  else if e.ended ∧ e.bound.isSome ∧ e.bytes.length ≠ e.total then s.fixVerdict c k e Status.badParam
  else s

/-- A step on the front envelope of a context, where there is one. -/
def State.onFront (s : State) (c : Fin 4) (k : Fin 256) (f : State → Envelope → State) : State :=
  match ((s.sl c).ctxAt k.val).front with
  | some e => f s e
  | none => s

/-- Envelopes of a context move on as far as they can, with fuel for those that have ended: header checks,
proof, length checks, and the end of a message whose verdict is fixed. -/
def State.advance (c : Fin 4) (k : Fin 256) : Nat → State → State
  | 0, s => s
  | n + 1, s =>
    let s1 := s.onFront c k (fun s e => s.checkHeader c k e)
    let s2 := s1.onFront c k (fun s e => s.proofData c k e)
    let s3 := s2.onFront c k (fun s e => s.checkLength c k e)
    match ((s3.sl c).ctxAt k.val).front with
    | none => s3
    | some e =>
      match e.verdict with
      | some code =>
        if e.ended then
          State.advance c k n ((s3.closeEnvelope c k e code).modSl c (fun x => x.modCtx k.val Ctx.popFront))
        else s3
      | none => s3

/-- The envelopes of a context move on. -/
def State.settle (s : State) (c : Fin 4) (k : Fin 256) : State :=
  State.advance c k (((s.sl c).ctxAt k.val).queued.length + 2) s

/-! ### Bytes of a message (R208, R435) -/

/-- The first byte of a message opens its envelope, which takes the message ID. -/
def State.envOpen (s : State) (c : Fin 4) (k : Fin 256) (ts sub : Nat) (tuning : Fin 32) (freq ident : Nat) : State :=
  if ((s.sl c).ctxAt k.val).env.isSome then s
  else
    let p := s.takeMsgId c k
    let e : Envelope :=
      { id := p.1, ts := ts, tuning := tuning, freq := freq, ident := ident, sub := sub, corrected := false, bytes := [],
        bound := none, chain := [], done := 0, ended := false, failed := false, verdict := none,
        closed := false, commit := false, proofSent := 0, pendTs := ts, proofCount := 0, proofLost := false,
        firstSeq := none }
    p.2.modSl c (fun x => x.modCtx k.val (fun y => { y with env := some e }))

/-- Bytes of one unit added to the open envelope. -/
def State.envAdd (s : State) (c : Fin 4) (k : Fin 256) (bs : List Byte) (unitTs : Nat) (tuning : Fin 32)
    (freq ident : Nat) (corrected : Bool) : State :=
  (s.modSl c (fun x => x.modCtx k.val (fun y => { y with env := y.env.map (fun e =>
    let none' := decide (e.payload.length ≤ e.proofSent)
    { e with bytes := (e.bytes ++ bs).take 4097, tuning := tuning, freq := freq, ident := ident,
             corrected := e.corrected || corrected, pendTs := if none' then unitTs else e.pendTs }) }))).settle
    c k

/-- The message of the open envelope ends: whole, or discarded (R435). -/
def State.envEnd (s : State) (c : Fin 4) (k : Fin 256) (failed : Bool) : State :=
  (s.modSl c (fun x => x.modCtx k.val (fun y =>
    match y.env with
    | some e => { y with env := none, queued := y.queued ++ [{ e with ended := true, failed := failed }] }
    | none => y))).settle c k

/-- An open envelope ends at once with a code: a feed change (R264) or a lock-up (R74). -/
def State.envCut (s : State) (c : Fin 4) (k : Fin 256) (code : Nat) : State :=
  let y := (s.sl c).ctxAt k.val
  let es := y.queued ++ y.env.toList
  let s1 := s.modSl c (fun x => x.modCtx k.val (fun y => { y with env := none, queued := [] }))
  es.foldl (fun t e =>
    if e.closed then t
    else
      let v := e.verdict.getD code
      let t1 := if e.verdict.isSome then t else t.countVerdict c k v
      t1.verdictRecord c k { e with ended := true } v) s1

/-! ### The MAC engine (R240, R241) -/

/-- The bytes that the tag covers. -/
def Envelope.covered (e : Envelope) : Nat := 10 + e.length

/-- Whether an envelope asks the engine for a block: 16 bytes that are not its last block, or the final
block of an ended message. -/
def Envelope.wantsBlock (e : Envelope) : Bool :=
  e.verdict.isNone && e.bound.isSome && !e.commit
    && (if e.done + 16 < e.covered then decide (e.done + 16 ≤ e.bytes.length) else e.ended)

/-- The requesters of a slice's engine that ask for a block: contexts, and the transmit path as index 256 (R241). -/
def Slice.macReqs (x : Slice) : List Nat :=
  (List.range 256).filter (fun k => match (x.ctxAt k).front with | some e => e.wantsBlock | none => false)
    ++ (if x.mac.ops.isEmpty then [] else [256])

/-- FCLK cycles of one block (R241). -/
def blockCycles (w : KeySlot) : Nat := if w.aes256 then 20 else 16

/-- A verified envelope passes: at once during a speculation, else after the mirror's commit (R256, R257). -/
def State.envPass (s : State) (c : Fin 4) (k : Fin 256) (e : Envelope) (slot : Fin 64) : State :=
  if ((s.sl c).ctxAt k.val).spec then
    ((s.modSl c (fun x => x.acceptReplay k e slot)).fixVerdict c k e Status.ok).settle c k
  else s.setEnv c k { e with commit := true }

/-- One block of the front envelope of context `k` (R240): a step of the chain, or the final block and the
comparison of the tag, where two comparators that disagree give PARITY (R408). -/
def State.macBlock (s : State) (c : Fin 4) (k : Fin 256) (e : Envelope) (slot : Fin 64) (split : Bool) : State :=
  let w := (s.sl c).slotAt slot.val
  let block := (e.bytes.drop e.done).take (min 16 (e.covered - e.done))
  if e.done + 16 < e.covered then
    s.setEnv c k { e with chain := cmacStep w.key e.chain block, done := e.done + 16 }
  else
    let tag := (cmacLast w.key e.chain block).take (e.tagBits / 8)
    if split then (s.fixVerdict c k e Status.parity).settle c k
    else if tag = e.bytes.drop e.covered then s.envPass c k { e with done := e.covered } slot
    else (s.fixVerdict c k e Status.tagFail).settle c k

/-- MIRROR_COMMIT (R256): the updated replay record is in the mirror and the PASS is released. -/
def execMirrorCommit (c : Fin 4) (s : State) : Host.Outcome State Fault Refusal :=
  run s fun s =>
    let x := s.sl c
    let waits (k : Nat) : Bool := match (x.ctxAt k).front with | some e => e.commit | none => false
    match (List.range 256).find? waits with
    | none => s
    | some i =>
      let k : Fin 256 := Fin.ofNat 256 i
      s.onFront c k (fun s e =>
        match e.bound with
        | some b => ((s.modSl c (fun x => x.acceptReplay k e b.1)).fixVerdict c k e Status.ok).settle c k
        | none => s)

end Sys2Proof.Machine
end

