-- ==== Sys2Proof/Machine/Trellis.lean ====
section
/-! DEFINITION. The LDB air format (R184 to R189) and the trellis decoders' algorithm (R201). -/

namespace Sys2Proof.Machine

open Sys2Proof

/-! ### Dibits and symbols (R184) -/

/-- A dibit (b0, b1). -/
abbrev Dibit := Bool × Bool

/-- The symbol of a dibit, in units of 1/√2 (R184). -/
def symbolOf (d : Dibit) : Int × Int := (if d.1 then -1 else 1, if d.2 then -1 else 1)

/-- Bits in air order as dibits. -/
def dibits : List Bool → List Dibit
  | a :: b :: rest => (a, b) :: dibits rest
  | _ => []

/-- The alternating dibits of the preamble and the pilots: 00 for an even number, 11 for an odd one (R185, R188). -/
def altDibit (n : Nat) : Dibit := (n % 2 == 1, n % 2 == 1)

/-- The sync word (R185). -/
def syncDibits : List Dibit := dibits ((be 8 0x5A3C96E10F87D24B).flatMap bitsOfByte)

/-! ### The convolutional code (R189, R201) -/

/-- The parity of a number below 2^7. -/
def parity7 (n : Nat) : Bool :=
  ((List.range 7).filter (fun i => n.testBit i)).length % 2 == 1

/-- The generators 171, 133 and 145 in octal, for a register with the present bit in bit 6 (R189, R201). -/
def gen171 : Nat := 0x79
def gen133 : Nat := 0x5B
def gen145 : Nat := 0x65

/-- What a step emits from the register `r`. -/
def emitStep (gens : List Nat) (r : Nat) : List Bool := gens.map (fun g => parity7 (r &&& g))

/-- The encoder from a state, the previous six bits, newest in bit 5 (R189). -/
def encodeBits (gens : List Nat) : Nat → List Bool → List (List Bool)
  | _, [] => []
  | st, b :: bs => let r := 64 * b2n b + st; emitStep gens r :: encodeBits gens (r / 2) bs

/-- A block of bits with its six tail bits, encoded from the all-zero state into dibits (R188, R189). -/
def ldbEncode (bits : List Bool) : List Dibit :=
  (encodeBits [gen171, gen133] 0 (bits ++ List.replicate 6 false)).map (fun l => (l.getD 0 false, l.getD 1 false))

/-! ### The burst (R185 to R188) -/

/-- The 64-bit header of a burst (R186). -/
def ldbHeaderBytes (type network seq length : Nat) (more : Bool) : List Byte :=
  let b := be 6 ((((1 * 2 ^ 4 + type % 16) * 2 ^ 16 + network % 2 ^ 16) * 2 ^ 8 + seq % 256) * 2 ^ 16
    + length * 2 ^ 5 + b2n more)
  b ++ be 2 (crc16 b)

/-- The data symbols of the coded region: the header, and where there is a payload, the payload with its CRC-32 (R187,
R188). -/
def ldbData (header payload : List Byte) : List Dibit :=
  ldbEncode (header.flatMap bitsOfByte) ++
    (if payload.isEmpty then [] else ldbEncode ((payload ++ be 4 (crc32 payload)).flatMap bitsOfByte))

/-- Groups of seven data symbols with pilot `k` after each; the last group is filled with 00 (R188). `n` bounds the
groups. -/
def layDown : Nat → Nat → List Dibit → List Dibit
  | 0, _, _ => []
  | _ + 1, _, [] => []
  | n + 1, k, ds =>
    let g := ds.take 7
    g ++ List.replicate (7 - g.length) (false, false) ++ [altDibit k] ++ layDown n (k + 1) (ds.drop 7)

/-- The coded region of a burst (R188). -/
def codedRegion (header payload : List Byte) : List Dibit :=
  let d := ldbData header payload
  layDown (d.length + 1) 0 d

/-- The dibits of a burst in air order (R185): the ramp goes on backwards with the preamble's pattern. -/
def burstDibits (ramp : Nat) (header payload : List Byte) : List Dibit :=
  ((List.range ramp).map (fun i => altDibit (ramp - i))) ++ (List.range 48).map altDibit ++ syncDibits
    ++ codedRegion header payload ++ List.replicate ramp (false, false)

/-! ### The decoders (R201, R202) -/

/-- A soft value as the decoder takes it: −8 is treated as −7 (R201). -/
def softOf (v : Int) : Int := clampI (-7) 7 v

/-- How well a step's emission agrees with its soft values, positive for a transmitted 1. -/
def branch (outs : List Bool) (soft : List Int) : Int :=
  ((outs.zip soft).map (fun p => if p.1 then softOf p.2 else -softOf p.2)).sum

/-- The metrics of the all-zero state alone. -/
def startMetrics : List (Option Int) := some 0 :: List.replicate 63 none

/-- Of two metrics the better, and whether it is the second; equal ones are not ordered by the manual. -/
def pickMetric (st : Nat) (a b : Option Int) : Option Int × Bool :=
  match a, b with
  | none, none => (none, false)
  | some x, none => (some x, false)
  | none, some y => (some y, true)
  | some x, some y =>
    if x < y then (some y, true) else if y < x then (some x, false) else (some x, Config.tieBreak st)

/-- One trellis step: the metrics of the 64 states after it and from which of its two predecessors each came. -/
def trellisStep (gens : List Nat) (m : List (Option Int)) (soft : List Int) : List (Option Int) × List Bool :=
  let r := (List.range 64).map (fun st =>
    let b := st / 32
    let p := (2 * st) % 64
    let go (q : Nat) : Option Int := (m.getD q none).map (fun v => v + branch (emitStep gens (64 * b + q)) soft)
    pickMetric st (go p) (go (p + 1)))
  (r.map Prod.fst, r.map Prod.snd)

/-- The state with the best metric. -/
def bestState (m : List (Option Int)) : Nat :=
  (m.foldl (fun (a : Nat × Nat × Option Int) v =>
    let k := pickMetric a.1 a.2.2 v
    (a.1 + 1, if k.2 then a.1 else a.2.1, k.1)) (0, 0, none)).2.1

/-- Steps run forward: for each, the decisions and the metrics after it. -/
def forward (gens : List Nat) : List (Option Int) → List (List Int) → List (List Bool × List (Option Int))
  | _, [] => []
  | m, s :: ss => let r := trellisStep gens m s; (r.2, r.1) :: forward gens r.1 ss

/-- The traceback from a state through decisions, newest first: the bit of the oldest step. -/
def traceBit : Nat → Bool → List (List Bool) → Bool
  | _, b, [] => b
  | st, _, d :: ds => traceBit ((2 * st) % 64 + b2n (d.getD st false)) (decide (32 ≤ st)) ds

/-- The hard decisions of the first `k` of the steps run, with a traceback depth of 128 (R201): from the best state 128
steps on, or, where the block ends sooner, from the all-zero state. -/
def decide128 (ended : Bool) : Nat → List (List Bool × List (Option Int)) → List Bool
  | 0, _ => []
  | _ + 1, [] => []
  | k + 1, h :: hs =>
    let w := (h :: hs).take 129
    let last := ended && decide ((h :: hs).length ≤ 129)
    let st := if last then 0 else bestState ((w.getLastD h).2)
    traceBit st false ((w.map Prod.fst).reverse) :: decide128 ended k hs

/-- One segment (R202): at most 1,024 steps of a block from the metrics kept, with a look-ahead of at most 128. The answer:
the decisions, the metrics after the segment and the steps that remain. -/
def runSegment (gens : List Nat) (m : List (Option Int)) (soft : List (List Int)) :
    List Bool × List (Option Int) × List (List Int) :=
  let k := min 1024 soft.length
  let h := forward gens m (soft.take (k + 128))
  (decide128 (decide (soft.length ≤ k + 128)) k h, ((h.getD (k - 1) ([], m)).2), soft.drop k)

/-- Bits that differ between the received soft values and the decisions encoded again, and the values compared (R182, R201):
an erasure is not compared. -/
def reencode (gens : List Nat) (st : Nat) (bits : List Bool) (soft : List (List Int)) : Nat × Nat :=
  let pairs := ((encodeBits gens st bits).zip soft).flatMap (fun p => p.1.zip p.2)
  let seen := pairs.filter (fun p => p.2 != 0)
  ((seen.filter (fun p => p.1 != decide (0 < p.2))).length, seen.length)

/-- The encoder's state after bits, from the state `st`. -/
def encoderState (st : Nat) (bits : List Bool) : Nat := bits.foldl (fun r b => (64 * b2n b + r) / 2) st

end Sys2Proof.Machine
end

