-- ==== Sys2Proof/Machine/TxHand.lean ====
section
/-! DEFINITION. The transmitter's command in hand (R298 to R323): its burst, its end, and the key-up. -/

namespace Sys2Proof.Machine

open Sys2Proof

/-! ### The command in hand -/

/-- The transmitter of slice `c` changed by `f`. -/
def State.modTx (s : State) (c : Fin 4) (f : Tx → Tx) : State := s.modSl c (fun x => { x with tx := f x.tx })

/-- The command in hand changed by `f`. -/
def State.modCmd (s : State) (c : Fin 4) (f : TxCmd → TxCmd) : State :=
  s.modTx c (fun t => { t with cmd := t.cmd.map f })

/-- Ticks of `n` symbols of the command's rate, rounded to nearest. -/
def TxCmd.symTicks (k : TxCmd) (n : Nat) : Nat := roundDiv (n * 1024000000) k.symrate

/-- Symbols of the ramp (R185). -/
def TxCmd.rampSyms (k : TxCmd) : Nat := ceilDiv (k.rampUs * k.symrate) 1000000

/-- Bursts of the message (R306). -/
def TxCmd.total (k : TxCmd) : Nat := max 1 (ceilDiv k.message.length 1024)

/-- LENGTH of burst `i` (R306). -/
def TxCmd.lengthOf (k : TxCmd) (i : Nat) : Nat := min 1024 (k.message.length - 1024 * i)

/-- Symbols of a burst from T0 to the end of its coded region (R185). -/
def TxCmd.bodySyms (k : TxCmd) (i : Nat) : Nat :=
  let n := k.lengthOf i
  k.rampSyms + 80 + 8 * ceilDiv (if n = 0 then 70 else 8 * n + 108) 7

/-- The real tick at which the present burst's symbol `n` begins. -/
def TxCmd.symAt (k : TxCmd) (n : Nat) : Nat := k.burstAt + k.symTicks n

/-- The TB value of real tick `t`, close to now. -/
def State.tbOf (s : State) (t : Nat) : Nat := s.tb + (t - s.real) - (s.real - t)

/-- Symbols of burst `i` of the message in air order (R184 to R188, R306). -/
def TxCmd.symbols (k : TxCmd) (i : Nat) : List (Int × Int) :=
  let n := k.lengthOf i
  (burstDibits k.rampSyms (ldbHeaderBytes k.type k.network (k.seq + i) n (decide (i + 1 < k.total)))
    (slice k.message (1024 * i) n)).map symbolOf

/-! ### Ramps (R309) -/

/-- g(t) with 80 fraction bits, for a ramp of `r` ticks. -/
def rampG (t r : Nat) : Int :=
  if r ≤ t then 2 ^ 80
  else
    let x := piFix * t / r
    (2 ^ 80 - seriesFix (Int.shiftRight (x * x) 80) 20 1 (2 ^ 80) (2 ^ 80)) / 2

/-- PA_BIAS in mV at a value of g: the millivolt that it is, else one of the two nearest (log entry 81). -/
def biasAt (g : Int) (mv : Nat) : Nat :=
  let v := g * mv
  let n := Int.shiftRight (v + 2 ^ 79) 80
  if (v - n * 2 ^ 80).natAbs < 2 ^ 50 then n.toNat
  else (Int.shiftRight v 80).toNat + b2n (Config.roundUp g mv)

/-- g at real tick `now` in the phases in which a burst is on the air (R309). -/
def TxCmd.gNow (k : TxCmd) (now : Nat) : Int :=
  let down (start r : Nat) : Int := Int.shiftRight (k.gFrom * rampG (r - (now - start)) r) 80
  match k.phase with
  | .burst => rampG (now - k.burstAt) (usTicks k.rampUs)
  | .rampDown => down (k.symAt k.rampSym) (usTicks k.rampUs)
  | .abbrev => down k.phaseAt (usTicks 8)
  | _ => 0

/-- PA_BIAS at each microsecond of a ramp-up (R309). -/
def TxCmd.biasUp (k : TxCmd) : List Nat :=
  (List.range (k.rampUs + 1)).map (fun i => biasAt (rampG i k.rampUs) k.biasMv)

/-- PA_BIAS at each microsecond of a ramp-down of `r` µs from the value `g` (R309). -/
def TxCmd.biasDown (k : TxCmd) (g : Int) (r : Nat) : List Nat :=
  (List.range (r + 1)).map (fun i => biasAt (Int.shiftRight (g * rampG (r - i) r) 80) k.biasMv)

/-- Both outputs begin a ramp-down of `r` µs at real tick `at_` (R309). -/
def State.rampOut (s : State) (c : Fin 4) (at_ r : Nat) : State :=
  match (s.sl c).tx.cmd with
  | some k => (s.emit (.rampDown c (s.tbOf at_) r)).emit (.paBias c (s.tbOf at_) (k.biasDown k.gFrom r))
  | none => s

/-- Whether the synthesiser is ready for a frequency (R301). -/
def Slice.synthReady (x : Slice) (freq : Nat) : Bool :=
  x.tx.lock && x.tx.calFreq == freq && !x.afe.bgRun && !x.clk.coast &&
    (match x.afe.calRun with
    | some r => r.kind != 4
    | none => true)

/-- Whether a priority receive window is open (R315). -/
def Tx.winOpen (t : Tx) : Bool := t.windows.any (fun w => w.opened)

/-- Whether a key-up or a burst holds the pins. -/
def Tx.keyed (t : Tx) : Bool :=
  t.state == .keyup || t.state == .on || t.state == .abort || t.state == .release

/-- COEX_REQ and COEX_PRI follow the key-up and the open windows (R308, R315). -/
def Tx.coexPins (t : Tx) : Tx :=
  let pri := match t.cmd with | some k => k.priority | none => false
  { t with coexReq := t.keyed || t.winOpen,
           coexPri := (t.keyed && pri) || t.windows.any (fun w => w.opened && w.priority) }

/-- A channel calibration begins (R301). -/
def Tx.tune (t : Tx) (freq : Nat) : Tx := { t with lock := false, wantFreq := freq, band := 0xFF }

/-! ### The end of a command (R310, R321, R322) -/

/-- The TX_STATUS payload (R321). -/
def TxCmd.statusBytes (k : TxCmd) (status : Nat) : List Byte :=
  let flags := b2n k.auth + 2 * b2n k.change + 4 * b2n k.late + 8 * b2n k.priority + 16 * b2n k.abbreviated
    + 32 * b2n k.waited
  let ready := if k.keyup = 0 then 0 else sat 16 ((k.keyup - k.planned) / 1024)
  [BitVec.ofNat 8 status, BitVec.ofNat 8 k.stage, BitVec.ofNat 8 flags, BitVec.ofNat 8 k.sent] ++ le 4 k.cmd.tag.toNat
    ++ le 8 k.startTb ++ le 8 k.endTb ++ le 6 k.counter ++ [k.label, BitVec.ofNat 8 k.seq] ++ le 4 k.freq
    ++ le 2 k.level.toNat ++ le 2 k.message.length ++ le 2 ready ++ le 2 (if k.paRose then k.fwd else 0xFFFF)
    ++ le 2 (if k.paRose then k.rev else 0xFFFF) ++ [0, 0]

/-- The records that end a TX_SEND: TX_STATUS and COMMAND_DONE. -/
def State.txReport (s : State) (c : Fin 4) (k : TxCmd) (status : Nat) : State :=
  let ts := if k.emitted then k.startTb else s.tb
  let s1 := s.stage k.statusQueue (s.mkRec 0x51 c.val 0xFF 0xFFFF 0 ts (s.sl c).unlocked (k.statusBytes status))
  s1.complete k.cmd status (le 6 k.counter ++ [0, 0] ++ le 8 k.startTb)

/-- Counters and events of a command that ends (R323). -/
def Tx.countEnd (t : Tx) (status : Nat) : Tx :=
  if status = Status.ok then { t with sent := count 16 1 t.sent, events := raise t.events 0 }
  else
    let u := { t with failed := count 16 1 t.failed }
    if status = Status.synth then { u with synthNotReady := count 16 1 u.synthNotReady }
    else if status = Status.coexDenied then
      { u with coexDenied := count 16 1 u.coexDenied, events := raise u.events 3 }
    else if status = Status.coexLost then { u with coexLost := count 8 1 u.coexLost, events := raise u.events 4 }
    else u

/-- Windows whose start has come open once no burst holds the pins (R316). -/
def State.openWindows (s : State) (c : Fin 4) : State :=
  s.modTx c (fun t =>
    if t.keyed then t
    else { t with windows := t.windows.map (fun w => if w.start ≤ s.tb then { w with opened := true } else w) })

/-- The command in hand ends (R311): tokens released, reported, and the transmitter IDLE, INHIBIT or DISABLED. -/
def State.endTx (s : State) (c : Fin 4) (status : Nat) : State :=
  match (s.sl c).tx.cmd with
  | none => s
  | some k =>
    let s1 := (s.releaseAll (txReq c)).modTx c (fun t =>
      { (t.countEnd status) with
        cmd := none, cancelReq := false, removed := false, recal := false, sense := none,
        calFreq := if t.recal then 0 else t.calFreq,
        state := if t.removed then .disabled else if k.inhibit then .inhibit else .idle })
    ((s1.openWindows c).modTx c Tx.coexPins).txReport c k status

/-- The pins that have moved are released, from the first of them on (R310): `now` is its real tick. -/
def State.txRelease (s : State) (c : Fin 4) (status now : Nat) : State :=
  match (s.sl c).tx.cmd with
  | none => s
  | some k =>
    let set (ph : TxPhase) (s : State) : State :=
      (s.modTx c (fun t => { t with
        state := .release, paEn := false, paBias := 0, sense := none,
        trSw := t.trSw && ph == .paOff })).modCmd c (fun k =>
          { k with phase := ph, phaseAt := now, status := BitVec.ofNat 8 status })
    match k.phase with
    | .req => (s.modCmd c (fun k => { k with stage := 1 })).endTx c status
    | .tr => set .trOff (s.modCmd c (fun k => { k with stage := 1 }))
    | .gntWait => set .trOff (s.modCmd c (fun k => { k with stage := 1 }))
    | .pa => set .paOff (s.modCmd c (fun k => { k with stage := 2 }))
    | _ => set .paOff s

/-- The place of a status in the table of R314. -/
def abortRank (status : Nat) : Nat :=
  if status = Status.clockLoss then 0 else if status = Status.synth then 1 else if status = Status.paFault then 2
  else if status = Status.coexLost then 3 else 4

/-- A second abort event in the FCLK cycle of the first, 4 ticks long: the status is the one higher in the table (R314). -/
def State.abortAgain (s : State) (c : Fin 4) (status : Nat) : State :=
  s.modCmd c (fun k =>
    if s.real / 4 = k.phaseAt / 4 ∧ abortRank status < abortRank k.status.toNat then
      { k with status := BitVec.ofNat 8 status }
    else k)

/-- The abbreviated ramp-down of both outputs begins, from the present value of g (R309, R314). -/
def State.abbreviate (s : State) (c : Fin 4) (status : Nat) : State :=
  ((s.modTx c (fun t => { t with state := .abort, paBias := 0 })).modCmd c (fun k =>
    { k with gFrom := k.gNow s.real, phase := .abbrev, phaseAt := s.real, stage := 3, abbreviated := true,
             status := BitVec.ofNat 8 status })).rampOut c s.real 8

/-- An abort (R314): the abbreviated ramp-down of a burst on the air, else the release at once. -/
def State.txAbort (s : State) (c : Fin 4) (status : Nat) : State :=
  match (s.sl c).tx.cmd with
  | none => s
  | some k =>
    match k.phase with
    | .none => s
    | .abbrev => s.abortAgain c status
    | .paOff => s.abortAgain c status
    | .trOff => s.abortAgain c status
    | .burst => s.abbreviate c status
    | .rampDown => s.abbreviate c status
    | .gap => (s.modCmd c (fun k => { k with stage := 3 })).txRelease c status s.real
    | _ => s.txRelease c status s.real

/-! ### The key-up (R302, R308, R316) -/

/-- The key-up begins (R308 step 1). -/
def State.beginKeyup (s : State) (c : Fin 4) : State :=
  ((s.modTx c (fun t => { t with state := .keyup })).modCmd c (fun k =>
    { k with phase := .req, phaseAt := s.real, keyup := s.tb, stage := 1 })).modTx c Tx.coexPins

/-- Whether both conditions of R302 are met. -/
def State.txReady (s : State) (c : Fin 4) (k : TxCmd) : Bool :=
  (s.sl c).synthReady k.freq && decide (k.tokens ≤ s.holds (txReq c))

/-- The command in hand moves on where it can (R302, R311, R316): no key-up begins before its envelope has its tag. -/
def State.txCheck (s : State) (c : Fin 4) : State :=
  let t := (s.sl c).tx
  match t.cmd with
  | none => s
  | some k =>
    if t.state ≠ .prepare ∧ t.state ≠ .wait then s
    else if !s.txReady c k then
      if t.state = .wait ∧ k.holdFrom ≤ s.tb then s.modTx c (fun t => { t with state := .prepare }) else s
    else if s.tb < k.holdFrom then s.modTx c (fun t => { t with state := .wait })
    else if t.winOpen then
      let stop := t.windows.foldl (fun m w => if w.opened then max m w.stop else m) 0
      (s.modTx c (fun t => { t with state := .wait })).modCmd c (fun k =>
        { k with late := k.late || k.atTb != 0, holdFrom := max k.holdFrom stop })
    else if k.tagging then s
    else s.beginKeyup c

end Sys2Proof.Machine
end

