-- ==== Sys2Proof/Machine/Keys.lean ====
section
/-! DEFINITION. The key store (R242 to R251, R258, R259): writes to slots, injection, key commands, transmit
tags, the engine's grants (R241), the integrity check, and erasure by alarm (R266 to R268). -/

namespace Sys2Proof.Machine

open Sys2Proof

/-! ### Writes to slots (R243, R246) -/

/-- A slot after a write that loads a key (R243). -/
def slotLoaded (w : KeySlot) (key : List Byte) (aes256 : Bool) (usage : BitVec 3) (minTag : BitVec 2) :
    KeySlot :=
  slotSealed { w with
    key := key, aes256 := aes256, usage := usage, minTag := minTag,
    generation := nextGeneration w.generation, txCounter := 0, state := .valid }

/-- An operation of the transmit path ends without a result: a DERIVE completes with the code, a tag ends the burst
command that waits for it (R245, R246). -/
def State.endOp (s : State) (c : Fin 4) (o : MacOp) (code : Nat) : State :=
  match o.derive with
  | some cmd => s.complete cmd.ref code []
  | none => (s.modCmd c (fun k => { k with tagging := false })).endTx c code

/-- Every verification bound to a slot ends with a code, in context order (R246). -/
def State.endVerifying (s : State) (c : Fin 4) (slot : Fin 64) (code : Nat) : State :=
  (List.range 256).foldl (fun t i =>
    let k : Fin 256 := Fin.ofNat 256 i
    t.onFront c k (fun t e =>
      match e.bound with
      | some b =>
        if b.1 = slot ∧ e.verdict.isNone then
          if e.ended then (t.fixVerdict c k e code).settle c k else t.endVerdict c k e code
        else t
      | none => t)) s

/-- Every operation bound to a slot ends with a code (R246). -/
def State.endBound (s : State) (c : Fin 4) (slot : Fin 64) (code : Nat) : State :=
  let gone := (s.sl c).mac.ops.filter (fun o => o.slot == slot)
  let s1 := s.modSl c (fun x => { x with mac := { x.mac with ops := x.mac.ops.filter (fun o => o.slot != slot) } })
  gone.foldl (fun t o => t.endOp c o code) (s1.endVerifying c slot code)

/-- A write to a slot (R243, R244): the replay records bound to it are dropped, the mirror follows where
`mirror` says so, and the operations bound to it end (R246). -/
def State.writeSlot (s : State) (c : Fin 4) (slot : Fin 64) (w : KeySlot) (code : Nat) (mirror : Bool) : State :=
  let s1 := s.modSl c (fun x =>
    let m := { x.mac with slots := x.mac.slots.set slot.val w slot.isLt,
                          replay := x.mac.replay.filter (fun r => r.slot != slot) }
    let y := { x with mac := m, af := vmap (fun a =>
      { a with provisional := a.provisional.filter (fun r => r.slot != slot) }) x.af }
    if mirror then y.syncMirror else y)
  s1.endBound c slot code

/-- A slot loaded with a key: KEY_LOADED is set (R243, R269). -/
def State.loadSlot (s : State) (c : Fin 4) (slot : Fin 64) (key : List Byte) (aes256 : Bool)
    (usage : BitVec 3) (minTag : BitVec 2) : State :=
  let w := slotLoaded ((s.sl c).slotAt slot.val) key aes256 usage minTag
  (s.writeSlot c slot w Status.keyChanged true).modSl c (fun x =>
    { x with mac := { x.mac with events := raise x.mac.events 2 } })

/-- A slot erased. -/
def State.eraseSlot (s : State) (c : Fin 4) (slot : Fin 64) (cause : BitVec 2) (mirror : Bool) : State :=
  s.writeSlot c slot (slotErased ((s.sl c).slotAt slot.val) cause) Status.keyErased mirror

/-- Every slot named in a mask erased in ascending order (R251). -/
def State.eraseMask (s : State) (c : Fin 4) (mask : Nat) (cause : BitVec 2) (mirror : Bool) : State :=
  (List.range 64).foldl (fun t i =>
    if mask.testBit i then t.eraseSlot c (Fin.ofNat 64 i) cause mirror else t) s

/-- LOAD_REFUSED (R266, R269). -/
def State.loadRefused (s : State) (c : Fin 4) : State :=
  s.modSl c (fun x => { x with mac := { x.mac with events := raise x.mac.events 3 } })

/-- The key check value of a slot; 0 while it is EMPTY (R248, R269). -/
def slotKcv (w : KeySlot) : Nat := if w.state = .empty then 0 else kcv w.key

/-- Blocks that a CMAC over `n` bytes takes. -/
def cmacBlocks (n : Nat) : Nat := max 1 (ceilDiv n 16)

/-- An operation of the transmit path binds its slot and waits for its blocks, after those that came before it (R241,
R246). -/
def State.bindOp (s : State) (c : Fin 4) (slot : Fin 64) (blocks : Nat) (derive : Option Command) : State :=
  s.modSl c (fun x => { x with mac := { x.mac with ops := x.mac.ops ++
    [{ slot := slot, generation := (x.slotAt slot.val).generation, left := blocks, derive := derive }] } })

/-- A slot whose CRC or parity fails is erased at a use of it or at the check once per second, and reported (R244). -/
def State.checkSlot (s : State) (c : Fin 4) (k : Fin 64) : State :=
  if slotGood ((s.sl c).slotAt k.val) then s
  else
    let t1 := (s.eraseSlot c k 3 true).modSl c (fun x =>
      { x with mac := { x.mac with events := raise x.mac.events 1 } })
    t1.fault
      { status := Status.parity, event := 0x05, level := 0, action := 7, block := 0x43, unit := k.val,
        detail := ((t1.sl c).slotAt k.val).generation.toNat, slice := c.val }

/-! ### Injection (R247, R248) -/

/-- Whether a KEYLOAD packet has its CRC right and every field in range (R247, R248). -/
def keyPacketOk (b : List Byte) : Bool :=
  b.length == 44 && u32 b 40 == crc32 (b.take 40) && decide (u8 b 0 < 4) && decide (u8 b 1 < 64)
    && decide (u8 b 2 < 2) && within 1 7 (u8 b 3) && decide (u8 b 4 < 4) && zeros b 5 3
    && (u8 b 2 == 1 || zeros b 24 16)

/-- The 12-byte result of KEYLOAD (R248). -/
def keyResult (status sl slot gen kcv : Nat) : List Byte :=
  [BitVec.ofNat 8 status, BitVec.ofNat 8 sl, BitVec.ofNat 8 slot, 0] ++ le 2 gen ++ le 3 kcv ++ le 3 0

/-- The present GENERATION and KCV of the slot that a packet names, 0 where they do not show (R248). -/
def State.slotShown (s : State) (b : List Byte) : Nat × Nat :=
  if u8 b 0 < 4 ∧ u8 b 1 < 64 then
    let x := s.sl (Fin.ofNat 4 (u8 b 0))
    if x.ctl.state.served then
      ((x.slotAt (u8 b 1)).generation.toNat, slotKcv (x.slotAt (u8 b 1)))
    else (0, 0)
  else (0, 0)

/-- The result of an injection captured for the shift out. -/
def State.keyDone (s : State) (b : List Byte) (status : Nat) : State :=
  let g := s.slotShown b
  { s with tap := { s.tap with keyload := keyResult status (u8 b 0) (u8 b 1) g.1 g.2 } }

/-- A key packet of the access port (R247, R248). -/
def State.keyload (s : State) (packet : List Byte) : State :=
  let b := packet.take 44
  if !keyPacketOk packet then s.keyDone b Status.badParam
  else
    let c : Fin 4 := Fin.ofNat 4 (u8 b 0)
    let x := s.sl c
    if !(x.ctl.state == .calibrating || x.up) then s.keyDone b Status.rejected
    else if x.mac.blocked ≠ 0 then (s.loadRefused c).keyDone b Status.rejected
    else
      let aes256 := u8 b 2 == 1
      (s.loadSlot c (Fin.ofNat 64 (u8 b 1)) (slice b 8 (if aes256 then 32 else 16)) aes256
        (BitVec.ofNat 3 (u8 b 3)) (BitVec.ofNat 2 (u8 b 4))).keyDone b Status.ok

/-- KEYLOAD (R247, R248): a packet at Update-DR writes its slot or is refused. -/
def execKeyload (packet : List Byte) (s : State) : Host.Outcome State Fault Refusal :=
  run s fun s => ((s.tapInstr 0x21).keyload packet).captureDr

/-! ### Key commands (R249 to R251) -/

/-- Whether the fields of a KEY_DERIVE body are in range (R249, R250). -/
def deriveBodyOk (b : List Byte) : Bool :=
  decide (u8 b 0 < 64) && decide (u8 b 1 < 64) && u8 b 0 != u8 b 1 && decide (u8 b 2 < 2)
    && within 1 7 (u8 b 3) && decide (u8 b 4 < 4) && within 1 32 (u8 b 5) && decide (u8 b 6 ≤ 32)

/-- The input of iteration `i` of the KDF (R250). -/
def kdfInput (i bits : Nat) (label context : List Byte) : List Byte :=
  be 4 i ++ label ++ [0] ++ context ++ be 4 bits

/-- The derived key (R250). -/
def kdfKey (parent label context : List Byte) (aes256 : Bool) : List Byte :=
  let bits := if aes256 then 256 else 128
  (List.range (bits / 128)).flatMap (fun i => cmac parent (kdfInput (i + 1) bits label context))

/-- LABEL and CONTEXT of a KEY_DERIVE body (R249). -/
def deriveTexts (b : List Byte) : List Byte × List Byte := (slice b 8 (u8 b 5), slice b (8 + u8 b 5) (u8 b 6))

/-- The blocks of a DERIVE: one CMAC for each iteration of the KDF (R250). -/
def deriveBlocks (b : List Byte) : Nat :=
  let w := deriveTexts b
  (u8 b 2 + 1) * cmacBlocks (kdfInput 1 0 w.1 w.2).length

/-- A key-bus parity error (R245). -/
def State.keyBusFault (s : State) (c : Fin 4) (slot : Fin 64) (ctx : Nat) : State :=
  s.fault { status := Status.parity, event := 0x04, level := 1, action := 0, block := 0x43,
            unit := slot.val, detail := slot.val, slice := c.val, ctx := ctx }

/-- A KEY_DERIVE command checks its parent and binds it (R246, R250). -/
def State.keyDerive (s : State) (c : Fin 4) (cmd : Command) (parity : Bool) : State :=
  let b := cmd.body
  if !(s.sl c).up then s.finish cmd Status.rejected []
  else if !deriveBodyOk b then s.finish cmd Status.badParam []
  else
    let parent : Fin 64 := Fin.ofNat 64 (u8 b 0)
    let s1 := s.checkSlot c parent
    let w := (s1.sl c).slotAt parent.val
    if w.state = .empty then s1.finish cmd Status.keyEmpty []
    else if !w.usage.getLsbD 2 then s1.finish cmd Status.usage []
    else if (s1.sl c).mac.blocked ≠ 0 then (s1.loadRefused c).finish cmd Status.rejected []
    else if parity then (s1.finish cmd Status.parity []).keyBusFault c parent 0xFFFF
    else (s1.keep cmd).bindOp c parent (deriveBlocks b) (some cmd)

/-- The last block of a DERIVE is done: the key goes to TARGET and the command completes (R250). -/
def State.deriveDone (s : State) (c : Fin 4) (parent : Fin 64) (cmd : Command) : State :=
  let b := cmd.body
  let texts := deriveTexts b
  let aes256 := u8 b 2 == 1
  let key := kdfKey ((s.sl c).slotAt parent.val).key texts.1 texts.2 aes256
  let s1 := s.loadSlot c (Fin.ofNat 64 (u8 b 1)) key aes256 (BitVec.ofNat 3 (u8 b 3)) (BitVec.ofNat 2 (u8 b 4))
  let t := (s1.sl c).slotAt (u8 b 1)
  s1.complete cmd.ref Status.ok (le 2 t.generation.toNat ++ le 3 (slotKcv t) ++ le 3 0)

/-- A KEY_ERASE command runs (R251). -/
def State.keyErase (s : State) (c : Fin 4) (cmd : Command) : State :=
  if !(s.sl c).up then s.finish cmd Status.rejected []
  else (s.eraseMask c (u64 cmd.body 0) 1 true).finish cmd Status.ok (le 8 (u64 cmd.body 0))

/-- KEY_DERIVE (R250). `parity` says that the key bus showed a parity error where the engine took the parent key (R245). -/
def execKeyDerive (c : Fin 4) (parity : Bool) (s : State) : Host.Outcome State Fault Refusal :=
  run s fun s =>
    match s.inHand (localQ c 52) 0x40 with
    | some cmd => s.keyDerive c cmd parity
    | none => s

/-- KEY_ERASE (R251). -/
def execKeyErase (c : Fin 4) (s : State) : Host.Outcome State Fault Refusal :=
  run s fun s =>
    match s.inHand (localQ c 52) 0x41 with
    | some cmd => s.keyErase c cmd
    | none => s

/-! ### Transmit tags (R258, R259) -/

/-- The check of the slot for a tag (R258 step 1). -/
def tagCheck (w : KeySlot) (tagLen dataLen : Nat) : Option Nat :=
  if w.state = .empty then some Status.keyEmpty
  else if !w.usage.getLsbD 1 ∨ tagLen < w.minTag.toNat then some Status.usage
  else if w.state = .exhausted then some Status.exhausted
  else if 4096 < 10 + dataLen + 4 * (tagLen + 1) then some Status.length
  else none

/-- A transmit envelope up to its tag (R252, R258). -/
def envelopeHead (label tagLen counter : Nat) (data : List Byte) : List Byte :=
  [BitVec.ofNat 8 (0x10 + tagLen), BitVec.ofNat 8 label] ++ be 6 counter ++ be 2 data.length ++ data

/-- TX_COUNTER after one more use; the last one leaves the slot EXHAUSTED (R259). -/
def useCounter (w : KeySlot) : KeySlot :=
  let n := w.txCounter.toNat + 1
  slotSealed { w with txCounter := BitVec.ofNat 48 n, state := if n = 2 ^ 48 - 1 then .exhausted else w.state }

/-- A tag refused (R269). -/
def State.tagRefused (s : State) (c : Fin 4) : State :=
  s.modSl c (fun x => { x with mac := { x.mac with genFail := count 16 1 x.mac.genFail } })

/-- A tag is asked for (R258 steps 1 and 2): the slot is checked and bound, its counter incremented and committed. The
answer is the envelope, its tag still zeros, with its counter, or the code of the failure. -/
def State.askTag (s0 : State) (c : Fin 4) (slot label tagLen : Nat) (data : List Byte) :
    State × Except Nat (List Byte × Nat) :=
  if 64 ≤ slot then (s0.tagRefused c, .error Status.keyEmpty)
  else
    let s := s0.checkSlot c (Fin.ofNat 64 slot)
    let w := (s.sl c).slotAt slot
    match tagCheck w tagLen data.length with
    | some code => (s.tagRefused c, .error code)
    | none =>
      let w' : KeySlot := useCounter w
      let n := w'.txCounter.toNat
      let env := envelopeHead label tagLen n data
      let s1 := s.modSl c (fun x =>
        let y := (x.modSlot slot (fun _ => w'))
        Slice.syncMirror { y with mac := { y.mac with
          events := if w'.state = .exhausted then raise y.mac.events 4 else y.mac.events } })
      (s1.bindOp c (Fin.ofNat 64 slot) (cmacBlocks env.length) none,
        .ok (env ++ List.replicate (4 * (tagLen + 1)) 0, n))

/-- The tag of the command in hand is made (R258 step 3), and the transmitter goes on. -/
def State.tagDone (s : State) (c : Fin 4) (slot : Fin 64) : State :=
  let key := ((s.sl c).slotAt slot.val).key
  let s1 := (s.modCmd c (fun k =>
    let n := 4 * (k.tagLen + 1)
    let head := k.message.take (k.message.length - n)
    { k with message := head ++ (cmac key head).take n, tagging := false })).modSl c (fun x =>
      { x with mac := { x.mac with generated := count 16 1 x.mac.generated } })
  s1.txCheck c

/-! ### The engine (R241, R245) -/

/-- The engine takes requester `i`: the pointer moves on and the block's cycles count (R27, R241). -/
def State.macTurn (s : State) (c : Fin 4) (i : Nat) (slot : Fin 64) : State :=
  s.modSl c (fun x => { x with mac := { x.mac with
    ptr := arbNext 257 i, busy := x.mac.busy + blockCycles (x.slotAt slot.val) } })

/-- One block of the transmit path's oldest operation (R241). -/
def State.opBlock (s : State) (c : Fin 4) (o : MacOp) (parity : Bool) : State :=
  let rest (l : List MacOp) (s : State) : State := s.modSl c (fun x => { x with mac := { x.mac with ops := l } })
  let others := (s.sl c).mac.ops.drop 1
  let s1 := s.macTurn c 256 o.slot
  if parity then ((rest others s1).endOp c o Status.parity).keyBusFault c o.slot 0xFFFF
  else if 1 < o.left then rest ({ o with left := o.left - 1 } :: others) s1
  else
    match o.derive with
    | some cmd => (rest others s1).deriveDone c o.slot cmd
    | none => (rest others s1).tagDone c o.slot

/-- MAC_BLOCK_GRANT (R241): one block for the next requester under R27. `parity` says that the key bus showed
a parity error, which ends the operation (R245), `split` that the two comparators of a tag disagree (R408). A slot whose CRC
or parity fails is erased at this use (R244). -/
def execMacBlockGrant (c : Fin 4) (parity : Bool) (s : State) (split : Bool := false) :
    Host.Outcome State Fault Refusal :=
  run s fun s =>
    let x := s.sl c
    match arbPick x.mac.ptr x.macReqs with
    | none => s
    | some i =>
      if i = 256 then
        match x.mac.ops.head? with
        | some o => if slotGood (x.slotAt o.slot.val) then s.opBlock c o parity else s.checkSlot c o.slot
        | none => s
      else
        match (x.ctxAt i).front with
        | none => s
        | some e =>
          match e.bound with
          | none => s
          | some b =>
            let k : Fin 256 := Fin.ofNat 256 i
            if !slotGood (x.slotAt b.1.val) then s.checkSlot c b.1
            else
              let s1 := s.macTurn c i b.1
              if parity then ((s1.fixVerdict c k e Status.parity).settle c k).keyBusFault c b.1 i
              else s1.macBlock c k e b.1 split

/-! ### The integrity check (R244) -/

/-- SLOT_CHECK (R244): the CRC and the parity of every slot are checked, after what has befallen the store's bytes. -/
def execSlotCheck (c : Fin 4) (upset : List (Fin 64 × Fin 48 × Byte)) (s : State) : Host.Outcome State Fault Refusal :=
  run s fun s =>
    if !(s.sl c).ctl.state.served then s
    else
      let s1 := s.modSl c (fun x => upset.foldl (fun x u => x.modSlot u.1.val (fun w => slotUpset w u.2.1 u.2.2)) x)
      (List.finRange 64).foldl (fun t k => t.checkSlot c k) s1

/-! ### Alarms (R266 to R268) -/

/-- The bit of a source in MAC.ALARM.LAST_CAUSE (R269). -/
def alarmBit : AlarmSource → Nat
  | .tamper => 0 | .alarmIn => 1 | .overTemp => 2 | .underTemp => 3 | .supply => 4 | .glitch => 5

/-- A source as a mask. -/
def alarmMask (a : AlarmSource) : BitVec 6 := BitVec.ofNat 6 (2 ^ alarmBit a)

/-- The mirror of a cartridge after its erase by alarm is complete (R267). -/
def cartErased (t : Cartridge) : Cartridge :=
  { t with slots := t.slots.map (fun w => slotErased w 2), replay := [], marker := false }

/-- What the mirror keeps of an erase that begins: the marker, the count and the cause (R267, R269). -/
def cartMarked (t : Cartridge) (a : AlarmSource) : Cartridge :=
  { t with marker := true, erases := BitVec.ofNat 16 (sat 16 (t.erases.toNat + 1)),
           lastCause := alarmMask a }

/-- A slice that is powered: its key store can be watched and erased (R267, R268). -/
def SliceState.powered (t : SliceState) : Bool := decide (2 ≤ t.code)

/-- Whether a source concerns every slice (R266). -/
def alarmModule (a : AlarmSource) : Bool := decide (alarmBit a < 4)

/-- A source noted as active in a slice (R266). -/
def Mac.alarmActive (m : Mac) (a : AlarmSource) : Mac :=
  { m with blocked := m.blocked ||| alarmMask a, alarmIn := m.alarmIn || a == .alarmIn }

/-- An alarm source is detected in a slice (R266, R267 steps 1 to 3 and 5): marker, erase, blocked loads. A
slice whose slots are not loaded yet completes the erase in its mirror before it loads them. For a slice without
power only the activity of a module source is noted: it is evaluated at power-up (R268). -/
def State.alarmErase (s : State) (c : Fin 4) (a : AlarmSource) : State :=
  let x := s.sl c
  if !x.ctl.state.powered || x.cart.isNone then
    if alarmModule a then s.modSl c (fun x => { x with mac := x.mac.alarmActive a }) else s
  else
    let s1 := s.modSl c (fun x =>
      let m := x.mac
      let cause := if m.erasing then m.eraseCause ||| alarmMask a else alarmMask a
      { x with
        cart := x.cart.map (fun t => cartMarked t a),
        mac := { m with
          erasing := true, eraseCause := cause, lastCause := alarmMask a,
          erases := BitVec.ofNat 16 (sat 16 (m.erases.toNat + 1)), alarmTb := s.tb,
          blocked := m.blocked ||| alarmMask a, alarmIn := m.alarmIn || a == .alarmIn,
          events := raise m.events 0 } })
    if x.ctl.state.served then
      (s1.eraseMask c (2 ^ 64 - 1) 2 false).modSl c (fun x => { x with mac := { x.mac with replay := [] } })
    else s1

/-- An alarm source that concerns every slice (R266). -/
def State.alarmAll (s : State) (a : AlarmSource) : State := allSlices.foldl (fun t c => t.alarmErase c a) s

/-- TAMPER_LOOP_OPEN (R266). -/
def execTamperLoopOpen (s : State) : Host.Outcome State Fault Refusal := run s fun s => s.alarmAll .tamper

/-- ALARM_IN_ASSERTED (R266). -/
def execAlarmInAsserted (s : State) : Host.Outcome State Fault Refusal := run s fun s => s.alarmAll .alarmIn

/-- OVER_TEMPERATURE (R266). -/
def execOverTemperature (s : State) : Host.Outcome State Fault Refusal := run s fun s => s.alarmAll .overTemp

/-- UNDER_TEMPERATURE (R266). -/
def execUnderTemperature (s : State) : Host.Outcome State Fault Refusal := run s fun s => s.alarmAll .underTemp

/-- SLICE_SUPPLY_MONITOR (R266). -/
def execSliceSupplyMonitor (c : Fin 4) (s : State) : Host.Outcome State Fault Refusal :=
  run s fun s => s.alarmErase c .supply

/-- CLOCK_GLITCH (R266). -/
def execClockGlitch (c : Fin 4) (s : State) : Host.Outcome State Fault Refusal :=
  run s fun s => s.alarmErase c .glitch

/-- MIRROR_ERASE_DONE (R267 steps 4 and 5): the mirror copies are erased, the marker is cleared and the FAULT
record, stamped at the detection, is made. -/
def execMirrorEraseDone (c : Fin 4) (s : State) : Host.Outcome State Fault Refusal :=
  run s fun s =>
    let x := s.sl c
    if !x.mac.erasing then s
    else
      let s1 := s.modSl c (fun x =>
        let y := if x.ctl.state.served then
            Slice.syncMirror { x with cart := x.cart.map (fun t => { t with marker := false }) }
          else { x with cart := x.cart.map cartErased }
        { y with mac := { y.mac with erasing := false } })
      s1.faultAt
        { status := Status.keyErased, event := 0x18, level := 1, action := 7, block := 0x43,
          detail := x.mac.eraseCause.toNat, slice := c.val } x.mac.alarmTb

/-- LOADS_UNBLOCKED (R266): a source has been inactive for its period. -/
def execLoadsUnblocked (c : Fin 4) (src : AlarmSource) (s : State) : Host.Outcome State Fault Refusal :=
  run s fun s =>
    s.modSl c (fun x => { x with mac := { x.mac with
      blocked := x.mac.blocked &&& ~~~alarmMask src, alarmIn := x.mac.alarmIn && src != .alarmIn } })

/-- The MAC engine of a slice that enters CALIBRATING (R244, R267 to R269): an erase marker's erase is
completed first, then every slot and replay record is loaded from the mirror. -/
def Slice.loadKeys (x : Slice) : Slice :=
  match x.cart with
  | none => x
  | some t =>
    let u := if t.marker then cartErased t else t
    { x with
      cart := some u,
      mac := { x.mac with
        slots := vmapIdx (fun i w => u.slots.getD i w) (Vector.replicate 64 KeySlot.fresh),
        replay := u.replay, erases := u.erases, lastCause := u.lastCause, erasing := false } }

end Sys2Proof.Machine
end

