-- ==== Sys2Proof/Machine/Parsers.lean ====
section
/-! DEFINITION. The parsers of the service contexts (R208 to R216, R230): from air-layer units to messages. -/

namespace Sys2Proof.Machine

open Sys2Proof

/-! ### Delivery of a message (R208, R435) -/

/-- Where a unit was received: tuning and frequency, and the PI, EId or NETWORK_ID that its source has read, 0 where none is
known (R212, R226, R232). -/
structure UnitSrc where
  tuning : Fin 32
  freq : Nat
  ident : Nat
  deriving DecidableEq, Repr

/-- The CONTEXT record of a context. -/
def Slice.cxOf (x : Slice) (k : Fin 256) : List Byte := (x.find 5 k.val).getD []

/-- A plain message of a context, with the message ID it takes: its record, and its effects (R208, R212). The
control message, where there is one, begins `content` (R216). -/
def State.plainMessage (s : State) (c : Fin 4) (k : Fin 256) (src : UnitSrc) (ts sub : Nat) (corrected : Bool)
    (data content : List Byte) : State :=
  let i := s.takeMsgId c k
  let m : Message :=
    { id := i.1, ts := ts, tuning := src.tuning, freq := src.freq, ident := src.ident, sub := sub,
      corrected := corrected, data := data, ctl := ctlOf content, auth := false }
  ((i.2.msgOk c k).serviceData c k m data).messageFinal c k m

/-- Bytes of an enveloped message reach the context's envelope (R208). -/
def State.envBytes (s : State) (c : Fin 4) (k : Fin 256) (src : UnitSrc) (start ts sub : Nat) (corrected : Bool)
    (bs : List Byte) : State :=
  (s.envOpen c k start sub src.tuning src.freq src.ident).envAdd c k bs ts src.tuning src.freq src.ident corrected

/-- A whole message under the context's delivery mode. -/
def State.wholeMessage (s : State) (c : Fin 4) (k : Fin 256) (src : UnitSrc) (ts sub : Nat) (corrected : Bool)
    (data content : List Byte) : State :=
  if cxDelivery ((s.sl c).cxOf k) = 0 then s.plainMessage c k src ts sub corrected data content
  else ((s.msgOk c k).envBytes c k src ts ts sub corrected content).envEnd c k false

/-- A message broken by framing, CRC or assembly (R213 to R215, R435). -/
def State.brokenMessage (s : State) (c : Fin 4) (k : Fin 256) : State := (s.msgFail c k).envEnd c k true

/-! ### RDS (R211, R213, R230) -/

/-- Whether a block is valid: its syndrome matches the offset word of its position (R173). -/
def rdsValid (pos : Nat) (b : RdsBlock) : Bool :=
  match pos with
  | 0 => b.offset == 0
  | 1 => b.offset == 1
  | 2 => b.offset == 2 || b.offset == 3
  | _ => b.offset == 4

/-- The group in progress after one more block. -/
def rdsStep (old : List RdsBlock) (pos : Nat) (b : RdsBlock) : List RdsBlock :=
  if pos = 0 then [b] else if old.length = pos then old ++ [b] else []

/-- Information bits and status byte of a block in DATA (R211): bit 6 for one whose syndrome matches no offset word (R173). -/
def rdsBytes (b : RdsBlock) : List Byte :=
  le 2 b.info.toNat ++ [BitVec.ofNat 8
    (min 5 b.corrected + 8 * min 7 b.offset + 64 * b2n (decide (5 < b.offset)))]

/-- A complete group: blocks A, B, C or C', and D. -/
structure RdsGroup where
  a : RdsBlock
  b : RdsBlock
  c : RdsBlock
  d : RdsBlock
  deriving DecidableEq, Repr

/-- The group that four blocks make. -/
def rdsGroup : List RdsBlock → Option RdsGroup
  | [a, b, c, d] => some { a := a, b := b, c := c, d := d }
  | _ => none

def RdsGroup.data (g : RdsGroup) : List Byte :=
  rdsBytes g.a ++ rdsBytes g.b ++ rdsBytes g.c ++ rdsBytes g.d

/-- Whether some block of a group was corrected (R212). -/
def RdsGroup.corrected (g : RdsGroup) : Bool :=
  g.a.corrected != 0 || g.b.corrected != 0 || g.c.corrected != 0 || g.d.corrected != 0

/-- Group type and version, five bits (R210). -/
def RdsGroup.type5 (g : RdsGroup) : Nat := g.b.info.toNat / 2048

/-- Whether a valid block A or C' carries a programme identity (R210). -/
def RdsGroup.hasPi (g : RdsGroup) (pi : Nat) : Bool :=
  pi == 0 || (rdsValid 0 g.a && g.a.info.toNat == pi) || (g.c.offset == 3 && g.c.info.toNat == pi)

/-- A native alert's message: no message ID, the stamp of the unit that completed the change (R232). -/
def nativeMsg (src : UnitSrc) (ts sub : Nat) : Message :=
  { id := 0, ts := ts, tuning := src.tuning, freq := src.freq, ident := src.ident, sub := sub, corrected := false,
    data := [], ctl := [], auth := false }

/-- PTY of a group with a valid block B (R230): two in succession with 31 start an alert, four without end it. -/
def State.ptyStep (s : State) (c : Fin 4) (k : Fin 256) (src : UnitSrc) (b : RdsBlock) : State :=
  let a := ((s.sl c).ctxAt k.val).alert
  let m := nativeMsg src b.ts 0
  if b.info.toNat / 32 % 32 = 31 then
    let s1 := s.modAlert c k (fun a => { a with pty31 := a.pty31 + 1, ptyOther := 0 })
    if 1 ≤ a.pty31 ∧ !a.active then s1.nativeAlert c k m 1 1 m.ident 0 else s1
  else
    let s1 := s.modAlert c k (fun a => { a with pty31 := 0, ptyOther := a.ptyOther + 1 })
    if 3 ≤ a.ptyOther ∧ a.active then s1.nativeAlert c k m 1 0 m.ident 0 else s1

/-- A group of stream 0 in a context of parser 0x01 (R210, R211, R217, R230). A group without a valid block B breaks the
succession of R230. -/
def State.groupOne (s : State) (c : Fin 4) (k : Fin 256) (src : UnitSrc) (g : RdsGroup) (time : Option TimeValue) :
    State :=
  let sel := cxSelector ((s.sl c).cxOf k)
  if !rdsValid 1 g.b then s.modAlert c k (fun a => { a with pty31 := 0, ptyOther := 0 })
  else if !g.hasPi (bitsOf sel 16 16) then s
  else
    let s1 := s.ptyStep c k src g.b
    if !sel.testBit (g.type5 / 2) then s1
    else
      let id := ((s1.sl c).ctxAt k.val).nextId
      let s2 := s1.plainMessage c k src g.a.ts 0 g.corrected g.data g.data
      match time with
      | some v =>
        if g.type5 = 8 then
          s2.timeFinal c k { nativeMsg src g.a.ts 0 with id := id } 2 v g.a.ts 60000
        else s2
      | none => s2

/-- The open ODA message of a context. -/
def State.setOda (s : State) (c : Fin 4) (k : Fin 256) (o : Option OdaOpen) : State :=
  s.modSl c (fun x => x.modCtx k.val (fun y => { y with oda := o }))

/-- The open ODA message is discarded (R213). -/
def State.dropOda (s : State) (c : Fin 4) (k : Fin 256) : State :=
  if ((s.sl c).ctxAt k.val).oda.isSome then (s.setOda c k none).brokenMessage c k else s

/-- A segment's bytes join the ODA message `o`, which may then be whole (R213). -/
def State.odaBytes (s : State) (c : Fin 4) (k : Fin 256) (src : UnitSrc) (o : OdaOpen) (bs : List Byte) (ts : Nat)
    (corrected : Bool) (ctr : Nat) : State :=
  let now := bs.take (o.len - o.bytes.length)
  let o1 : OdaOpen :=
    { o with bytes := o.bytes ++ now, next := (ctr + 1) % 16, corrected := o.corrected || corrected }
  let sealed := cxDelivery ((s.sl c).cxOf k) != 0
  let s1 := if sealed then s.envBytes c k src o.ts ts o.sub corrected now else s
  if o1.bytes.length < o.len then s1.setOda c k (some o1)
  else
    let s2 := s1.setOda c k none
    if sealed then (s2.msgOk c k).envEnd c k false
    else s2.plainMessage c k src o.ts o.sub o1.corrected o1.bytes o1.bytes

/-- One segment of ODA framing (R213). -/
def State.odaSegment (s : State) (c : Fin 4) (k : Fin 256) (src : UnitSrc) (sub : Nat) (g : RdsGroup) : State :=
  let ctr := g.b.info.toNat % 16
  let bytesD := be 2 g.d.info.toNat
  if !(rdsValid 0 g.a && rdsValid 2 g.c && rdsValid 3 g.d) then s.dropOda c k
  else if g.b.info.toNat.testBit 4 then
    let s1 := s.dropOda c k
    let len := g.c.info.toNat
    if len = 0 ∨ 4096 < len then s1.msgFail c k
    else
      s1.odaBytes c k src { len := len, next := 0, bytes := [], ts := g.a.ts, sub := sub, corrected := false }
        bytesD g.a.ts g.corrected ctr
  else
    match ((s.sl c).ctxAt k.val).oda with
    | none => s
    | some o =>
      if ctr ≠ o.next then s.dropOda c k
      else s.odaBytes c k src o (be 2 g.c.info.toNat ++ bytesD) g.a.ts g.corrected ctr

/-- A group in a context of parser 0x02 or 0x03 (R210, R211, R213). -/
def State.groupOda (s : State) (c : Fin 4) (k : Fin 256) (src : UnitSrc) (stream : Nat) (g : RdsGroup)
    (assign : Option (BitVec 16 × BitVec 5)) : State :=
  let p := (s.sl c).cxOf k
  let sel := cxSelector p
  let aid := bitsOf sel 16 16
  let s1 := match assign with
    | some (a, t) =>
      if a.toNat = aid ∧ aid ≠ 0 then
        s.modSl c (fun x => x.modCtx k.val (fun y => { y with odaGroup := some t }))
      else s
    | none => s
  let onStream := if cxParser p = 2 then stream == 0 else stream != 0 && sel.testBit stream
  let typed := cxParser p == 3 && aid == 0 ||
    (match ((s1.sl c).ctxAt k.val).odaGroup with
    | some t => g.type5 == t.toNat
    | none => false)
  if !(rdsValid 1 g.b && onStream && typed) then s1
  else if sel.testBit 0 then s1.odaSegment c k src stream g
  else s1.wholeMessage c k src g.a.ts stream g.corrected g.data g.data

/-- An RDS block in a context (R211): the blocks of its stream's group, and the group once complete. -/
def State.feedRds (s : State) (c : Fin 4) (k : Fin 256) (src : UnitSrc) (stream pos : Nat) (b : RdsBlock)
    (r : Reads) : State :=
  let l := rdsStep (vget ((s.sl c).ctxAt k.val).rds stream []) pos b
  let g := rdsGroup l
  let s1 := s.modSl c (fun x => x.modCtx k.val (fun y =>
    { y with rds := vmod y.rds stream (fun _ => if g.isSome then [] else l) }))
  match g with
  | none => s1
  | some g =>
    if cxParser ((s1.sl c).cxOf k) = 1 then
      if stream = 0 then s1.groupOne c k src g r.time else s1
    else s1.groupOda c k src stream g r.assign

/-! ### APD frames (R214) -/

/-- The parser hunts for SYNC again. -/
def State.setApd (s : State) (c : Fin 4) (k : Fin 256) (a : ApdParse) : State :=
  s.modSl c (fun x => x.modCtx k.val (fun y => { y with apd := a }))

/-- A frame that ended: whole where its CRC is right (R214). -/
def State.apdEnd (s : State) (c : Fin 4) (k : Fin 256) (src : UnitSrc) (bits : List Bool) (len start : Nat) : State :=
  let s1 := s.setApd c k ⟨[], none⟩
  let body := bits.take (8 + 8 * len)
  if crc16Bits body ≠ ofBits (bits.drop (8 + 8 * len)) then s1.brokenMessage c k
  else
    let data := packBits len (body.drop 8)
    if cxDelivery ((s1.sl c).cxOf k) = 0 then s1.plainMessage c k src start 0 false data data
    else (s1.msgOk c k).envEnd c k false

/-- A bit of a frame in progress (R214). -/
def State.apdBit (s : State) (c : Fin 4) (k : Fin 256) (src : UnitSrc) (bits : List Bool) (start ts : Nat) : State :=
  let n := bits.length
  let len := ofBits (bits.take 8)
  if n < 8 then s.setApd c k ⟨[], some (bits, start)⟩
  else if n = 8 ∧ (len = 0 ∨ 64 < len) then (s.setApd c k ⟨[], none⟩).brokenMessage c k
  else if n = 8 + 8 * len + 16 then s.apdEnd c k src bits len start
  else
    let s1 := s.setApd c k ⟨[], some (bits, start)⟩
    if n % 8 = 0 ∧ 8 < n ∧ n ≤ 8 + 8 * len ∧ cxDelivery ((s.sl c).cxOf k) ≠ 0 then
      s1.envBytes c k src start ts 0 false (packBits 1 (bits.drop (n - 8)))
    else s1

/-- An APD bit in a context; one given soft value 0 ends a frame in progress (R214). -/
def State.feedApd (s : State) (c : Fin 4) (k : Fin 256) (src : UnitSrc) (b erased : Bool) (ts : Nat) : State :=
  let a := ((s.sl c).ctxAt k.val).apd
  match a.frame with
  | some (bits, start) =>
    if erased then (s.setApd c k ⟨[], none⟩).brokenMessage c k
    else s.apdBit c k src (bits ++ [b]) start ts
  | none =>
    if erased then s.setApd c k ⟨[], none⟩
    else
      let w := (a.window ++ [(b, ts)]).drop (a.window.length - 15)
      let sel := cxSelector ((s.sl c).cxOf k) % 65536
      let sync := if sel = 0 then 0x2B6D else sel
      if w.length = 16 ∧ ofBits (w.map Prod.fst) = sync then
        s.setApd c k ⟨[], some ([], match w with | p :: _ => p.2 | [] => ts)⟩
      else s.setApd c k ⟨w, none⟩

/-! ### LDB messages (R215) -/

/-- Fields of an LDB header (R186). -/
def ldbVersion (h : DWord) : Nat := bitsOf h.toNat 60 4
def ldbType (h : DWord) : Nat := bitsOf h.toNat 56 4
def ldbNetwork (h : DWord) : Nat := bitsOf h.toNat 40 16
def ldbSeq (h : DWord) : Nat := bitsOf h.toNat 32 8
def ldbLength (h : DWord) : Nat := bitsOf h.toNat 21 11
def ldbMore (h : DWord) : Bool := h.toNat.testBit 16
def ldbHcrc (h : DWord) : Nat := bitsOf h.toNat 0 16

/-- Whether a selector admits a burst (R210). -/
def ldbAdmits (sel : Nat) (h : DWord) : Bool :=
  decide (ldbType h < 4) && sel.testBit (ldbType h) && (sel.testBit 15 || bitsOf sel 16 16 == ldbNetwork h)

/-- Whether a burst continues the open message (R215). -/
def ldbContinues (o : LdbOpen) (h : DWord) (ts len : Nat) : Bool :=
  ldbNetwork h == ldbNetwork o.header && ldbType h == ldbType o.header && ldbSeq h == (o.seq + 1) % 256
    && decide (ts ≤ o.lastTs + secTicks 10) && decide (o.bytes.length + len ≤ 4096)

/-- A burst joins the message `o` (R215). One that brings no byte opens no envelope, unless it ends the message (R435). -/
def State.ldbJoin (s : State) (c : Fin 4) (k : Fin 256) (src : UnitSrc) (o : LdbOpen) (h : DWord)
    (payload : List Byte) (ts : Nat) : State :=
  let o1 : LdbOpen := { o with seq := ldbSeq h, lastTs := ts, bytes := o.bytes ++ payload }
  let sealed := cxDelivery ((s.sl c).cxOf k) != 0
  let s1 := if sealed && !(payload.isEmpty && ldbMore h) then s.envBytes c k src o.ts ts 0 false payload else s
  let set (s : State) (v : Option LdbOpen) : State :=
    s.modSl c (fun x => x.modCtx k.val (fun y => { y with ldb := v }))
  if ldbMore h then set s1 (some o1)
  else
    let s2 := set s1 none
    if sealed then (s2.msgOk c k).envEnd c k false
    else s2.plainMessage c k src o.ts 0 false (be 8 o.header.toNat ++ o1.bytes) o1.bytes

/-- An LDB burst in a context (R215). -/
def State.feedLdb (s : State) (c : Fin 4) (k : Fin 256) (src : UnitSrc) (h : DWord) (payload : List Byte)
    (ts : Nat) : State :=
  let new : LdbOpen := { header := h, seq := ldbSeq h, lastTs := ts, ts := ts, bytes := [] }
  if !ldbAdmits (cxSelector ((s.sl c).cxOf k)) h then s
  else
    match ((s.sl c).ctxAt k.val).ldb with
    | none => s.ldbJoin c k src new h payload ts
    | some o =>
      if ldbContinues o h ts payload.length then s.ldbJoin c k src o h payload ts
      else
        ((s.modSl c (fun x => x.modCtx k.val (fun y => { y with ldb := none }))).brokenMessage c k).ldbJoin c k
          src new h payload ts

/-! ### The other parsers -/

/-- A cluster of FIG 0/19 in a context of parser 0x04 (R230). -/
def State.figAlarm (s : State) (c : Fin 4) (k : Fin 256) (src : UnitSrc) (ts cluster : Nat) (flag : Bool) : State :=
  let a := ((s.sl c).ctxAt k.val).alert
  let m := nativeMsg src ts 0
  if flag then
    if !a.active then s.nativeAlert c k m 2 1 m.ident cluster
    else if a.cluster = cluster then s.modAlert c k (fun a => { a with lastFig := s.real })
    else s
  else if a.active ∧ a.kind = 2 ∧ a.cluster = cluster then s.nativeAlert c k m 2 0 m.ident cluster
  else s

/-- A FIB in a context of parser 0x04 (R210, R211, R217, R230). -/
def State.feedFib (s : State) (c : Fin 4) (k : Fin 256) (src : UnitSrc) (figs : List (List Byte)) (ts : Nat)
    (r : Reads) : State :=
  let sel := cxSelector ((s.sl c).cxOf k)
  let s1 := figs.foldl (fun t fig =>
    if sel.testBit (u8 fig 0 / 32) then t.plainMessage c k src ts 0 false fig fig else t) s
  if !sel.testBit 0 then s1
  else
    let s2 := r.alarms.foldl (fun t a => t.figAlarm c k src ts a.1 a.2) s1
    match r.time with
    | some v =>
      let id := ((s1.sl c).ctxAt k.val).nextId - 1
      s2.timeFinal c k { nativeMsg src ts 0 with id := id } 3 v (Config.figInstant ts) (if v.long then 1 else 60000)
    | none => s2

/-- A FAC or SDC block in a context of parser 0x06 (R210, R211, R217). PRESUMED (ES 201 980): an SDC block stands in the first
transmission frame of its super frame, whose start is therefore its stamp. -/
def State.feedDrmBlock (s : State) (c : Fin 4) (k : Fin 256) (src : UnitSrc) (sdc : Bool) (block : List Byte)
    (ts : Nat) (r : Reads) : State :=
  if !(cxSelector ((s.sl c).cxOf k)).testBit (b2n sdc) then s
  else
    let id := ((s.sl c).ctxAt k.val).nextId
    let s1 := s.plainMessage c k src ts 0 false block block
    match r.time with
    | some v =>
      if sdc then
        s1.timeFinal c k { nativeMsg src ts 0 with id := id } 4 v ts 60000
      else s1
    | none => s1

/-- A minute frame in a context of parser 0x09 (R178, R217). -/
def State.feedMinute (s : State) (c : Fin 4) (k : Fin 256) (src : UnitSrc) (onTime ts : Nat) (ok : Bool)
    (r : Reads) : State :=
  if !ok then s.badMinute c k
  else
    match r.time with
    | some v =>
      let i := (s.msgOk c k).takeMsgId c k
      i.2.timeFinal c k { nativeMsg src ts 0 with id := i.1 } 1 v onTime 0
    | none => s

/-- What a subchannel or stream completes for the address or packet `n` (R211): whole messages, and failed ones counted. -/
def State.feedGroups (s : State) (c : Fin 4) (k : Fin 256) (src : UnitSrc) (ts sub n : Nat)
    (groups : List (Nat × Bool × List Byte)) : State :=
  groups.foldl (fun t g =>
    if g.1 ≠ n then t
    else if g.2.1 then t.wholeMessage c k src ts sub false g.2.2 g.2.2 else t.msgFail c k) s

/-- Whether a unit is one that a context's parser and selector take (R210, R211). -/
def unitFor (p : List Byte) : AirUnit → Bool
  | .audio => false
  | .apdBit _ => cxParser p == 8
  | .rds _ _ _ _ _ => within 1 3 (cxParser p)
  | .fib _ => cxParser p == 4
  | .mscFrame sub groups =>
    cxParser p == 5 && bitsOf (cxSelector p) 10 6 == sub && groups.any (fun g => g.1 == bitsOf (cxSelector p) 0 10)
  | .fac _ => cxParser p == 6
  | .sdc _ => cxParser p == 6
  | .drmFrame stream _ units =>
    cxParser p == 7 && cxSelector p % 4 == stream &&
      (!(cxSelector p).testBit 2 || units.any (fun g => g.1 == bitsOf (cxSelector p) 4 2))
  | .minute _ _ _ => cxParser p == 9
  | .ldb h _ => cxParser p == 10 && ldbAdmits (cxSelector p) h

/-- A unit reaches a context (R208, R211). A faulted context discards and counts it (R401). -/
def State.feedContext (s : State) (c : Fin 4) (k : Fin 256) (src : UnitSrc) (u : HeldUnit) : State :=
  let p := (s.sl c).cxOf k
  let sel := cxSelector p
  if ((s.sl c).ctxAt k.val).faulted then (if unitFor p u.unit then s.msgFail c k else s)
  else
    match u.unit with
    | .audio => s
    | .apdBit soft => if cxParser p = 8 then s.feedApd c k src (decide (0 < soft)) (decide (soft = 0)) u.ts else s
    | .rds stream pos info offset corrected =>
      if within 1 3 (cxParser p) then
        s.feedRds c k src stream.val pos.val
          { info := info, offset := if u.ok then offset else 7, corrected := corrected, ts := u.ts } u.reads
      else s
    | .fib figs => if cxParser p = 4 ∧ u.ok then s.feedFib c k src figs u.ts u.reads else s
    | .mscFrame sub groups =>
      if cxParser p = 5 ∧ bitsOf sel 10 6 = sub then s.feedGroups c k src u.ts sub (bitsOf sel 0 10) groups else s
    | .fac b => if cxParser p = 6 ∧ u.ok then s.feedDrmBlock c k src false b u.ts u.reads else s
    | .sdc b => if cxParser p = 6 ∧ u.ok then s.feedDrmBlock c k src true b u.ts u.reads else s
    | .drmFrame stream data units =>
      if cxParser p ≠ 7 ∨ sel % 4 ≠ stream then s
      else if sel.testBit 2 then s.feedGroups c k src u.ts stream (bitsOf sel 4 2) units
      else s.wholeMessage c k src u.ts stream false data data
    | .minute onTime _ _ => if cxParser p = 9 then s.feedMinute c k src onTime u.ts u.ok u.reads else s
    | .ldb h payload => if cxParser p = 10 ∧ u.ok then s.feedLdb c k src h payload u.ts else s

/-- What a context had open is dropped when its feed changes or at a lock-up (R74, R264). A
plain message that was open counts in MSG_FAIL. -/
def State.resetParser (s : State) (c : Fin 4) (k : Fin 256) : State :=
  let y := (s.sl c).ctxAt k.val
  let busy := y.oda.isSome || y.ldb.isSome || y.apd.frame.isSome
  let s1 := if busy then s.msgFail c k else s
  s1.modSl c (fun x => x.modCtx k.val (fun y =>
    { y with rds := Vector.replicate 4 [], oda := none, apd := ⟨[], none⟩, ldb := none }))

end Sys2Proof.Machine
end

