-- ==== Sys2Proof/Machine/AfFollow.lean ====
section
/-! DEFINITION. Alternative frequencies (R219 to R229): lists, identities, checks, candidates, switches,
speculation and its undo, and the path of a unit from its instance to the contexts. -/

namespace Sys2Proof.Machine

open Sys2Proof

/-! ### Lists and frequencies (R220, R222) -/

/-- The AF method of a profile (R209, R220). -/
def afMethodOf (profile : Nat) : Option Nat :=
  match profile with
  | 3 => some 0
  | 4 => some 1
  | 5 => some 2
  | 6 => some 2
  | 8 => some 3
  | _ => none

/-- The AF_POLICY record of an instance's leading context. -/
def Slice.afPolicy (x : Slice) (n : Nat) : List Byte := (x.find 9 (x.afAt n).lead.val).getD []

/-- The DEMOD record of an instance. -/
def Slice.dmOf (x : Slice) (n : Nat) : List Byte := (x.find 4 n).getD []

/-- The tuning of an instance. -/
def Slice.instTun (x : Slice) (n : Nat) : Nat := dmTuning (x.dmOf n)

/-- The NCO frequency word of a frequency (R222). -/
def hzWord (f : Nat) : Word := BitVec.ofNat 32 (roundDiv (f * 2 ^ 32) 1024000000)

/-- The frequency that a tuning's NCO_FREQ register gives, rounded to 1 Hz. -/
def Slice.regHz (x : Slice) (t : Nat) : Nat := roundDiv ((x.tunAt t).ncoReg.toNat * 1024000000) (2 ^ 32)

/-- The frequencies of a list of pairs without repeats, first appearances kept. -/
def dedupFreq : List (Nat × Nat) → List (Nat × Nat) → List (Nat × Nat)
  | acc, [] => acc.reverse
  | acc, p :: ps => if acc.any (fun q => q.1 == p.1) then dedupFreq acc ps else dedupFreq (p :: acc) ps

/-- The list of an instance (R220): each frequency with the number of the METHODS bit that gave it. -/
def Slice.afAll (x : Slice) (n : Nat) : List (Nat × Nat) :=
  let a := x.afAt n
  let all := (List.range 4).flatMap (fun m =>
    if (afMethods (x.afPolicy n)).testBit m then (vget a.lists m []).map (fun f => (f, m)) else [])
  (dedupFreq [] all).filter (fun e => e.1 != x.regHz (x.instTun n))

/-- The entries of the list that the slice takes (R220). -/
def Slice.afList (x : Slice) (n : Nat) : List (Nat × Nat) := (x.afAll n).take (afMaxCand (x.afPolicy n))

/-- Whether a slice runs in run-ahead mode (R41, R55). -/
def Slice.runAhead (x : Slice) : Bool :=
  match x.inForce with
  | some f => f.concMode == 1
  | none => false

/-! ### Records and retunes (R222, R228) -/

/-- The bits and counters that an AF_EVENT kind sets (R239). -/
def Af.note (a : Af) (kind : Nat) : Af :=
  if kind = 1 then { a with events := raise a.events 0 }
  else if kind = 3 then { a with passed := count 16 1 a.passed }
  else if kind = 4 then { a with events := raise a.events 1, failed := count 16 1 a.failed }
  else if kind = 5 ∨ kind = 8 then { a with events := raise a.events 2, switches := count 16 1 a.switches }
  else if kind = 6 then { a with events := raise a.events 3 }
  else a

/-- An AF_EVENT record (R228). That of kind 0x06 carries the candidate's tuning and is speculative (R226). -/
def State.afEvent (s : State) (c : Fin 4) (n : Fin 48) (kind method cand fromHz toHz qual : Nat) : State :=
  let x := s.sl c
  let a := x.afAt n.val
  let q := x.ctxQueue c a.lead
  let r := s.mkRec 0x20 c.val (if kind = 6 then cand else x.instTun n.val) a.lead.val 0 s.tb x.unlocked
    ([BitVec.ofNat 8 kind, BitVec.ofNat 8 method, BitVec.ofNat 8 n.val, BitVec.ofNat 8 cand] ++ le 4 fromHz
      ++ le 4 toHz ++ le 2 qual ++ le 2 (x.afAll n.val).length)
  let p := if kind = 6 then s.stageSpec c n.val q r else s.stageSeq q r
  p.1.modSl c (fun x => x.modAf n.val (fun a => a.note kind))

/-- A retune of the instance's tuning (R222). -/
def State.retune (s : State) (c : Fin 4) (n : Fin 48) (hz : Nat) : State :=
  s.modSl c (fun x => x.modTun (x.instTun n.val) (fun u => u.writeNco (hzWord hz) s.tb))

/-- AF process `n` changed by `f`. -/
def State.modAfOf (s : State) (c : Fin 4) (n : Fin 48) (f : Af → Af) : State :=
  s.modSl c (fun x => x.modAf n.val f)

/-- Whether the retune of an instance's tuning has taken effect. -/
def Slice.retuned (x : Slice) (n : Nat) : Bool := (x.tunAt (x.instTun n)).ncoPend.isNone

/-! ### Candidates (R224) -/

/-- FIR operations per sample of the candidates that run in a group. -/
def Slice.candLoad (x : Slice) (f : Forme) (g : Nat) : Nat :=
  ((List.range 32).map (fun t => match vget x.candInfo t none with
    | some i => if 8 ≤ t ∧ (t - 8) / 8 = g then (tnTaps (f.tn (dmTuning (f.dm i.key.val))) + 2) / 2 else 0
    | none => 0)).sum

/-- Whether spare tuning `t` may run a candidate of an instance on tuning `u` (R224). -/
def Slice.spareFits (x : Slice) (f : Forme) (u t : Nat) : Bool :=
  let cell := vget x.shadow.firBase t none
  f.spareTunings.testBit t && (vget x.candInfo t none).isNone && !(x.tunAt t).faulted &&
    cell.isSome && !x.err.isolatedFir.any (fun k => cell == some k) &&
    !x.af.toList.any (fun a => a.cand == some (Fin.ofNat 32 t)) &&
    (if u < 8 then decide (t < 8)
    else decide (8 ≤ t) && (t - 8) / 8 == (u - 8) / 8 &&
      decide ((f.groupLoad ((t - 8) / 8) + x.candLoad f ((t - 8) / 8) + (tnTaps (f.tn u) + 2) / 2) * 4 ≤ f.period u))

/-- The cells that candidates hold. -/
def Slice.candCells (x : Slice) : List Nat :=
  x.candInfo.toList.flatMap (fun i => match i with | some i => i.cells | none => [])

/-- The lowest free run of spare cells (R224). -/
def Slice.spareRun (x : Slice) (n : Nat) : Option Nat :=
  freeRun ((List.range 48).filter (fun k =>
    !x.shadow.spare.contains k || x.candCells.contains k || x.err.isolated.contains k)) n

/-- A spare tuning that begins to run a candidate (R224): the settings and the bank in force of the instance's tuning `src`,
the NCO at the candidate's frequency, the chain reset at air time `at_`. -/
def Tuning.candidate (u src : Tuning) (cf : ChainConf) (hz : Nat) (phase0 : Word) (at_ : Nat) : Tuning :=
  ({ u.remove with
      ncoReg := hzWord hz, ncoNow := hzWord hz, bank := src.bank, coef := src.coef, coefCrc := src.coefCrc } : Tuning).resetChain
    cf phase0 at_ false

/-- PSTAT0 and PSTAT1 before the first estimate (R182). -/
def pstatInit (profile : Nat) : Word × Word :=
  match profile with
  | 4 => (0, 0xFFFF)
  | 5 => (0x70, 0xFFFF)
  | 6 => (0x70, 0xFFFF)
  | 7 => (0xFF, 0xFFFF)
  | _ => (0, 0)

/-- A candidate of instance `n` starts on `freq`, where resources are free, at the real time and TB given. -/
def Slice.startCand (x : Slice) (f : Forme) (now tb : Nat) (n : Nat) (e : Nat × Nat) : Slice :=
  let need := profileCells (dmProfile (f.dm n))
  let u := dmTuning (f.dm n)
  let running := x.candInfo.toList.any (fun i => match i with
    | some i => i.key.val == n && i.freq == e.1
    | none => false)
  match (List.range 32).find? (x.spareFits f u), x.spareRun need with
  | some t, some b =>
    if running || (x.afAt n).tried.contains e.1 then x
    else
      let i : CandInfo :=
        { key := Fin.ofNat 48 n, freq := e.1, method := e.2, started := now, tracked := none, lastRead := none,
          verified := false, lastUnit := 0, cells := runOf b need }
      let p := pstatInit (dmProfile (f.dm n))
      let y : Slice := { x with
        candInfo := vmod x.candInfo t (fun _ => some i),
        cands := vmod x.cands t (fun o =>
          { Inst.reset with
            declared := true, state := .search, since := now, events := o.events &&& 0x20, pstat0 := p.1, pstat1 := p.2 }),
        candAcq := vmod x.candAcq t (fun _ => Acq.reset) }
      y.modTun t (fun v => v.candidate (x.tunAt u) (y.confOf f t) e.1 (BitVec.ofNat 32 (tnPhase0 (f.tn u))) (tb + 48))
  | _, _ => x

/-- Candidates of instance `n` started in the order of a list of entries. -/
def Slice.fillInst (x : Slice) (f : Forme) (now tb n : Nat) (l : List (Nat × Nat)) : Slice :=
  if f.concMode = 1 ∧ (x.afAt n).state ≠ .off ∧ !x.clk.coast then l.foldl (fun y e => y.startCand f now tb n e) x
  else x

/-- Candidates started wherever entries and resources are free, in ascending order of key (R224). -/
def Slice.fillAll (x : Slice) (now tb : Nat) : Slice :=
  match x.inForce with
  | none => x
  | some f => (f.keys 4).foldl (fun y n => y.fillInst f now tb n (y.afList n)) x

/-- A candidate stops, and the chain of its tuning: its registers read their reset values but WRITE_REJECT (R180). -/
def Slice.stopCand (x : Slice) (t : Nat) : Slice :=
  { x.modTun t Tuning.remove with
    candInfo := vmod x.candInfo t (fun _ => none),
    cands := vmod x.cands t (fun o => { Inst.reset with events := o.events &&& 0x20 }),
    candAcq := vmod x.candAcq t (fun _ => Acq.reset) }

/-- The entries of a list from the one after `freq` on, around to it. -/
def listAfter (freq : Nat) (l : List (Nat × Nat)) : List (Nat × Nat) :=
  match firstIdx (fun e => e.1 == freq) l 0 with
  | some i => l.drop (i + 1) ++ l.take (i + 1)
  | none => l

/-- A candidate stops and its resources go to the next entries (R224). -/
def Slice.yieldCand (x : Slice) (t now tb : Nat) : Slice :=
  match vget x.candInfo t none, x.inForce with
  | some i, some f =>
    let y := x.stopCand t
    (y.fillInst f now tb i.key.val (listAfter i.freq (y.afList i.key.val))).fillAll now tb
  | _, _ => x.stopCand t

/-- Candidates of instance `n` stop: those whose frequency `keep` does not keep. -/
def Slice.stopCands (x : Slice) (n : Nat) (keep : Nat → Nat → Bool) : Slice :=
  (List.range 32).foldl (fun y t =>
    match vget y.candInfo t none with
    | some i => if i.key.val = n ∧ !keep t i.freq then y.stopCand t else y
    | none => y) x

/-- The candidates whose entries have left the list stop, but for one that feeds the contexts (R224). -/
def Slice.pruneCands (x : Slice) (n : Nat) : Slice :=
  x.stopCands n (fun t f => (x.afAt n).cand == some (Fin.ofNat 32 t) || (x.afList n).any (fun e => e.1 == f))

/-- The candidates of an instance that are in TRACK, with their tunings. -/
def Slice.candsTracking (x : Slice) (n : Nat) : List (Nat × CandInfo) :=
  (List.range 32).filterMap (fun t => match vget x.candInfo t none with
    | some i => if i.key.val = n ∧ (x.candAt t).state = .track then some (t, i) else none
    | none => none)

/-- QUAL_CB of a candidate. -/
def Slice.candQual (x : Slice) (t : Nat) : Int := sext 16 (bf (x.candAt t).quality 0 16)

/-- The candidate with the highest QUAL_CB, the lowest tuning first. -/
def Slice.bestCand (x : Slice) (l : List (Nat × CandInfo)) : Option (Nat × CandInfo) :=
  l.foldl (fun acc p => match acc with
    | none => some p
    | some q => if x.candQual q.1 < x.candQual p.1 then some p else some q) none

/-! ### Units to contexts (R208, R222, R223) -/

/-- The bytes that a held unit counts for. -/
def unitSize : AirUnit → Nat
  | .audio => 0
  | .apdBit _ => 1
  | .rds _ _ _ _ _ => 2
  | .fib figs => (figs.map List.length).sum
  | .mscFrame _ gs => (gs.map (fun g => g.2.2.length)).sum
  | .fac b => b.length
  | .sdc b => b.length
  | .drmFrame _ d us => d.length + (us.map (fun g => g.2.2.length)).sum
  | .minute _ _ _ => 8
  | .ldb _ p => 8 + p.length

/-- The contexts that an instance feeds. -/
def Slice.fedBy (x : Slice) (n : Nat) : List (Fin 256) :=
  match x.inForce with
  | some f => (f.contextsOf n).map (Fin.ofNat 256)
  | none => []

/-- A unit reaches every context of an instance. -/
def State.feedInst (s : State) (c : Fin 4) (n : Nat) (src : UnitSrc) (u : HeldUnit) : State :=
  ((s.sl c).fedBy n).foldl (fun t k => t.feedContext c k src u) s

/-- The source of an instance's own units. -/
def Slice.instSrc (x : Slice) (n : Nat) : UnitSrc :=
  { tuning := Fin.ofNat 32 (x.instTun n), freq := x.tuningHz (x.instTun n), ident := (x.instAt n).ident }

/-- A unit stamped `ts` lost to context `k`: counted with the stamp of the first (R223, R293). -/
def noteShed (k : Fin 256) (ts : Nat) : List (Fin 256 × Nat × Nat) → List (Fin 256 × Nat × Nat)
  | [] => [(k, 1, ts)]
  | (j, n, t) :: l => if j = k then (j, n + 1, t) :: l else (j, n, t) :: noteShed k ts l

/-- Held units dropped from the oldest on until 64 KiB remain (R223): a unit is lost to the contexts that `takers` gives. -/
def Af.trim (takers : HeldUnit → List (Fin 256)) : Nat → Af → Af
  | 0, a => a
  | n + 1, a =>
    if (a.held.map (fun u => u.size)).sum ≤ 65536 then a
    else
      match a.held with
      | [] => a
      | u :: us =>
        Af.trim takers n { a with held := us, heldShed := (takers u).foldl (fun l k => noteShed k u.ts l) a.heldShed }

/-- A unit held (R223). -/
def State.holdUnit (s : State) (c : Fin 4) (n : Fin 48) (u : HeldUnit) : State :=
  let x := s.sl c
  let takers (v : HeldUnit) : List (Fin 256) := (x.fedBy n.val).filter (fun k => unitFor (x.cxOf k) v.unit)
  s.modAfOf c n (fun a => Af.trim takers (a.held.length + 1) { a with held := a.held ++ [u] })

/-- Held units discarded. -/
def Af.discard (a : Af) : Af := { a with held := [], heldShed := [] }

/-- Held units released in order, a SHED record at the point of a drop (R223): every unit lost to a context counts once, on the
queue of that context (R292). -/
def State.releaseHeld (s : State) (c : Fin 4) (n : Fin 48) : State :=
  let x := s.sl c
  let a := x.afAt n.val
  let s1 := a.heldShed.foldl (fun t d => t.gap (x.ctxQueue c d.1) 8 d.2.1 [] d.2.2) s
  a.held.foldl (fun t u => t.feedInst c n.val (x.instSrc n.val) u) (s1.modAfOf c n Af.discard)

/-! ### Checks in steady mode (R222) -/

/-- The next untried entry of the list. -/
def Slice.nextEntry (x : Slice) (n : Nat) : Option (Nat × Nat) :=
  (x.afList n).find? (fun e => !(x.afAt n).tried.contains e.1)

/-- The instance's tuning goes to list entry `e` for a check. -/
def State.tryEntry (s : State) (c : Fin 4) (n : Fin 48) (e : Nat × Nat) : State :=
  (s.retune c n e.1).modAfOf c n (fun a => { a with
    state := .check, tried := a.tried ++ [e.1], checkAt := s.real, checkFreq := e.1, lastRead := none })

/-- A round of checks begins with list entry `e` (R222). -/
def State.beginCheck (s : State) (c : Fin 4) (n : Fin 48) (e : Nat × Nat) : State :=
  (s.afEvent c n 2 e.2 0xFF ((s.sl c).regHz ((s.sl c).instTun n.val)) e.1 0x8000).tryEntry c n e

/-- The instance returns to PRIMARY_HZ (R222). -/
def State.goHome (s : State) (c : Fin 4) (n : Fin 48) : State :=
  let p := ((s.sl c).afAt n.val).primaryHz
  ((s.afEvent c n 7 0xFF 0xFF ((s.sl c).regHz ((s.sl c).instTun n.val)) p 0x8000).retune c n p).modAfOf c n (fun a =>
    { a with homing := false })

/-- The check fails (R222): the next entry, or back to PRIMARY_HZ. COAST (`stop`) ends the round; the tuning goes to PRIMARY_HZ
after the relock. -/
def State.failCheck (s : State) (c : Fin 4) (n : Fin 48) (stop : Bool) : State :=
  let cur := (s.sl c).regHz ((s.sl c).instTun n.val)
  let method := (afMethodOf (dmProfile ((s.sl c).dmOf n.val))).getD 0
  let s1 := (s.modAfOf c n Af.discard).afEvent c n 4 method 0xFF cur ((s.sl c).afAt n.val).checkFreq 0x8000
  match (s1.sl c).nextEntry n.val, stop with
  | some e, false => s1.tryEntry c n e
  | _, _ =>
    let s2 := s1.modAfOf c n (fun a =>
      { a with state := .primary, tried := [], outSince := some s.real, lastRead := none, homing := stop })
    if stop then s2 else s2.goHome c n

/-- The check passes (R222). -/
def State.passCheck (s : State) (c : Fin 4) (n : Fin 48) : State :=
  let a := (s.sl c).afAt n.val
  let method := (afMethodOf (dmProfile ((s.sl c).dmOf n.val))).getD 0
  let s1 := (s.modAfOf c n (fun a => { a with
    state := .primary, primaryHz := a.checkFreq, tried := [], lastSwitch := s.real, outSince := none })).releaseHeld c n
  (s1.afEvent c n 3 method 0xFF a.primaryHz a.checkFreq 0x8000).afEvent c n 5 method 0xFF a.primaryHz
    a.checkFreq 0x8000

/-! ### Speculation (R225 to R227, R257, R264) -/

/-- The open messages of the contexts of an instance end because their feed changes (R264). -/
def State.cutFeed (s : State) (c : Fin 4) (n : Fin 48) : State :=
  ((s.sl c).fedBy n.val).foldl (fun t k => (t.envCut c k Status.rejected).resetParser c k) s

/-- SPECULATIVE set or cleared on the contexts of an instance. -/
def State.setSpec (s : State) (c : Fin 4) (n : Fin 48) (b : Bool) : State :=
  ((s.sl c).fedBy n.val).foldl (fun t k => t.modSl c (fun x => x.modCtx k.val (fun y => { y with spec := b }))) s

/-- A speculative switch to the candidate on tuning `t` (R222, R226). -/
def State.speculate (s : State) (c : Fin 4) (n : Fin 48) (t : Fin 32) (i : CandInfo) : State :=
  let s1 := s.cutFeed c n
  let x := s1.sl c
  let snap := (x.fedBy n.val).map (fun k => (k, (x.ctxAt k.val).alert))
  let cur := x.regHz (x.instTun n.val)
  let s2 := s1.modAfOf c n (fun a => { a with
    specSeqs := [], deferred := [], provisional := [], alerts := snap, held := [], heldShed := [], specTb := s.tb })
  let s3 := s2.afEvent c n 6 i.method t.val cur i.freq (bf (x.candAt t.val).quality 0 16)
  (s3.modAfOf c n (fun a => { a with
    state := .speculative, cand := some t, checkAt := s.real, lastSwitch := s.real })).setSpec c n true

/-- What a deferred effect does at the confirmation (R227). -/
def State.takeDeferred (s : State) (c : Fin 4) (d : Deferred) : State :=
  match d with
  | .msg k m => s.finalMessage c k m
  | .verdict code => s.modSl c (fun x => { x with mac := x.mac.countVerdict code })
  | .time k m kind timeTb airTb resMs => s.timeValue c k m kind.toNat timeTb airTb resMs
  | .native k m code => s.nativeRules c k m code

/-- The timestamp of a deferred effect. -/
def deferredTs : Deferred → Nat
  | .msg _ m => m.ts
  | .verdict _ => 0
  | .time _ m _ _ _ _ => m.ts
  | .native _ m _ => m.ts

/-- Alert audio of the contexts of an instance is routed at the confirmation (R227, R231). -/
def State.routeSpec (s : State) (c : Fin 4) (n : Fin 48) : State :=
  (((s.sl c).fedBy n.val).foldl (fun t k =>
    if t.routes c k then t.modAlert c k (fun a => { a with routed := a.routed || a.active }) else t) s).reroute c

/-- The speculation is confirmed (R222, R227, R257). -/
def State.confirmSpec (s : State) (c : Fin 4) (n : Fin 48) (t : Fin 32) (i : CandInfo) : State :=
  let x := s.sl c
  let a := x.afAt n.val
  let cur := x.regHz (x.instTun n.val)
  let s1 := (s.setSpec c n false).modSl c (fun x => Slice.syncMirror { x with mac := { x.mac with
    replay := a.provisional.foldl (fun l r => putReplay r l) x.mac.replay } })
  let s2 := s1.modAfOf c n (fun a => { a.discard with
    state := .handover, deferred := [], provisional := [], specSeqs := [], alerts := [], lastSwitch := s.real,
    passed := count 16 1 a.passed })
  let s3 := s2.afEvent c n 8 i.method t.val cur i.freq (bf (x.candAt t.val).quality 0 16)
  let s4 := (sortBy deferredTs a.deferred).foldl (fun u d => u.takeDeferred c d) s3
  (s4.routeSpec c n).retune c n i.freq

/-- A SPEC_UNDO record on queue `q` (R229). Where the speculative records there have no numbers yet, the record takes
them up as they leave staging (R286). -/
def State.undoRecord (s : State) (c : Fin 4) (n : Fin 48) (reason ts : Nat) (t : Fin 32) (q : Fin 256)
    (range : Option (Word × Word)) : State :=
  let x := s.sl c
  let a := x.afAt n.val
  let v := range.getD (0, 0)
  let r := s.mkRec 0x21 c.val (x.instTun n.val) a.lead.val 0 ts x.unlocked
    ([BitVec.ofNat 8 n.val, BitVec.ofNat 8 reason, BitVec.ofNat 8 t.val, 0] ++ le 4 v.1.toNat ++ le 4 v.2.toNat
      ++ le 4 (x.tuningHz (x.instTun n.val)) ++ le 8 a.specTb)
  s.stage q { r with spec := some { key := n.val, tb := a.specTb, known := range.isSome } }

/-- The alerts of before the speculation return. -/
def State.restoreAlerts (s : State) (c : Fin 4) (l : List (Fin 256 × AlertState)) : State :=
  (l.foldl (fun t p => t.modAlert c p.1 (fun _ => p.2)) s).reroute c

/-- The speculation is undone (R226): `ts` stamps the SPEC_UNDO records. -/
def State.undoSpec (s : State) (c : Fin 4) (n : Fin 48) (reason ts : Nat) : State :=
  match ((s.sl c).afAt n.val).cand with
  | none => s
  | some t =>
    let s1 := s.cutFeed c n
    let a := (s1.sl c).afAt n.val
    let s2 := s1.modSl c (fun x => x.stopCand t.val)
    let s3 := a.specSeqs.foldl (fun u p => u.undoRecord c n reason ts t p.1 p.2) s2
    let s4 := (s3.setSpec c n false).restoreAlerts c a.alerts
    let s5 := s4.modAfOf c n (fun a => { a with
      state := .primary, cand := none, specSeqs := [], deferred := [], provisional := [], alerts := [],
      undone := count 16 1 a.undone, events := raise a.events 4 })
    (s5.releaseHeld c n).modSl c (fun x => x.fillAll s.real s.tb)

/-! ### Identities and lists (R219, R220) -/

/-- The reference identity is read twice in succession in LEARN (R219, R222). -/
def State.learn (s : State) (c : Fin 4) (n : Fin 48) (id : Nat) : State :=
  let x := s.sl c
  if (x.afAt n.val).lastRead = some id then
    s.modAfOf c n (fun a => { a with
      state := .primary, ref := some id, lastRead := none, primaryHz := x.regHz (x.instTun n.val) })
  else s.modAfOf c n (fun a => { a with lastRead := some id })

/-- An identity read by the instance (R219, R222). -/
def State.instIdent (s : State) (c : Fin 4) (n : Fin 48) (id : Nat) : State :=
  let a := (s.sl c).afAt n.val
  match a.state with
  | .learn => s.learn c n id
  | .check =>
    if !(s.sl c).retuned n.val then s
    else if a.ref ≠ some id then s.failCheck c n false
    else if a.lastRead = some id then s.passCheck c n
    else s.modAfOf c n (fun a => { a with lastRead := some id })
  | _ => s

/-- An identity read by the candidate on tuning `t` (R219, R222, R224). `ts` is the unit's stamp. -/
def State.candIdent (s : State) (c : Fin 4) (t : Fin 32) (i : CandInfo) (id ts : Nat) : State :=
  let n := i.key
  let a := (s.sl c).afAt n.val
  match a.ref with
  | none => s
  | some r =>
    if id ≠ r then
      let s1 := s.modAfOf c n (fun a => { (a.note 4) with tried := a.tried ++ [i.freq] })
      if a.state = .speculative ∧ a.cand = some t then s1.undoSpec c n 1 ts
      else if a.state = .handover ∧ a.cand = some t then s1.modSl c (fun x => x.stopCand t.val)
      else s1.modSl c (fun x => x.yieldCand t.val s.real s.tb)
    else if i.lastRead = some r ∧ !i.verified then
      let s1 := s.modSl c (fun x => { x with candInfo := vmod x.candInfo t.val (fun _ => some { i with verified := true }) })
      if a.state = .speculative ∧ a.cand = some t then s1.confirmSpec c n t { i with verified := true }
      else s1.modAfOf c n (fun a => a.note 3)
    else s.modSl c (fun x => { x with candInfo := vmod x.candInfo t.val (fun _ => some { i with lastRead := some id }) })

/-- A new list of a method (R220). -/
def State.afListNew (s : State) (c : Fin 4) (n : Fin 48) (method : Nat) (l : List Nat) : State :=
  let a := (s.sl c).afAt n.val
  if a.state = .off ∨ vget a.lists method [] = l ∨ !(afMethods ((s.sl c).afPolicy n.val)).testBit method then s
  else
    let s1 := s.modAfOf c n (fun a => { a with
      lists := vmod a.lists method (fun _ => l), tried := if a.state = .check then a.tried else [] })
    let cur := (s1.sl c).regHz ((s1.sl c).instTun n.val)
    (s1.afEvent c n 1 0xFF 0xFF cur cur 0x8000).modSl c (fun x => (x.pruneCands n.val).fillAll s.real s.tb)

/-- What the AF process reads in a unit of an instance or candidate. -/
def State.afRead (s : State) (c : Fin 4) (r : InstRef) (ident : Option Nat) (list : Option (List Nat)) (ts : Nat) :
    State :=
  match r with
  | .inst n =>
    match afMethodOf (dmProfile ((s.sl c).dmOf n.val)) with
    | none => s
    | some m =>
      let s1 := match list with | some l => s.afListNew c n m l | none => s
      match ident with | some id => s1.instIdent c n id | none => s1
  | .cand t =>
    match vget (s.sl c).candInfo t.val none, ident with
    | some i, some id => s.candIdent c t i id ts
    | _, _ => s

/-! ### The path of a unit (R222 to R225) -/

/-- HANDOVER ends (R222): the instance feeds the contexts, the candidate stops. -/
def State.endHandover (s : State) (c : Fin 4) (n : Fin 48) (t : Fin 32) : State :=
  let x := s.sl c
  let s1 := s.modAfOf c n (fun a => { a with
    state := .primary, cand := none, primaryHz := x.regHz (x.instTun n.val), outSince := none, lastRead := none })
  s1.modSl c (fun x => x.yieldCand t.val s.real s.tb)

/-- A unit that an instance hands on in TRACK: to its contexts, into the hold, or nowhere. -/
def State.instUnit (s : State) (c : Fin 4) (n : Fin 48) (u : HeldUnit) : State :=
  let x := s.sl c
  let a := x.afAt n.val
  match a.state, a.cand with
  | .check, _ => s.holdUnit c n u
  | .speculative, _ => s.holdUnit c n u
  | .handover, some t =>
    let last := match vget x.candInfo t.val none with | some i => i.lastUnit | none => 0
    if x.retuned n.val ∧ last < u.ts then (s.endHandover c n t).feedInst c n.val (x.instSrc n.val) u else s
  | _, _ => s.feedInst c n.val (x.instSrc n.val) u

/-- A unit that a candidate hands on: it feeds the contexts in SPECULATIVE and HANDOVER. -/
def State.candUnit (s : State) (c : Fin 4) (t : Fin 32) (u : HeldUnit) : State :=
  match vget (s.sl c).candInfo t.val none with
  | none => s
  | some i =>
    let a := (s.sl c).afAt i.key.val
    if (a.state = .speculative ∨ a.state = .handover) ∧ a.cand = some t then
      let s1 := s.modSl c (fun x =>
        { x with candInfo := vmod x.candInfo t.val (fun _ => some { i with lastUnit := max i.lastUnit u.ts }) })
      s1.feedInst c i.key.val { tuning := t, freq := i.freq, ident := ((s1.sl c).candAt t.val).ident } u
    else s

/-- The identity that a passing unit carries (R220): the PI of a valid block A or C', the NETWORK_ID of a burst, and what the
standards read out of the others. -/
def HeldUnit.ident (u : HeldUnit) : Option Nat :=
  match u.unit with
  | .rds _ _ info offset _ => if u.ok ∧ (offset = 0 ∨ offset = 3) then some info.toNat else none
  | .ldb h _ => some (ldbNetwork h)
  | .fib _ => if u.ok then u.reads.ident else none
  | .fac _ => if u.ok then u.reads.ident else none
  | _ => none

/-- The identity that a unit gives its source for ALERT records: a PI, an EId or a NETWORK_ID (R232). -/
def HeldUnit.alertIdent (u : HeldUnit) : Option Nat :=
  match u.unit with
  | .fac _ => none
  | _ => u.ident

/-- A unit handed on in TRACK: the AF process reads it first, then it goes its way. The AF process has read the NETWORK_ID of a
burst with its header. -/
def State.handUnit (s : State) (c : Fin 4) (r : InstRef) (u : HeldUnit) : State :=
  let s0 := match u.alertIdent with
    | some v => s.modSl c (fun x => match r with
      | .inst n => x.modInst n.val (fun i => { i with ident := v })
      | .cand t => x.modCand t.val (fun i => { i with ident := v }))
    | none => s
  let id := match u.unit with | .ldb _ _ => none | _ => u.ident
  let s1 := if u.ok then s0.afRead c r id u.reads.list u.ts else s0
  match r with
  | .inst n => s1.instUnit c n u
  | .cand t => s1.candUnit c t u

/-- An instance or candidate leaves TRACK (R222, R230): native alerts end, a speculation is undone. -/
def State.leftTrack (s : State) (c : Fin 4) (r : InstRef) : State :=
  match r with
  | .inst n =>
    let s1 := ((s.sl c).fedBy n.val).foldl (fun t k =>
      let x := t.sl c
      let a := (x.ctxAt k.val).alert
      if a.active ∧ (a.kind = 1 ∨ a.kind = 2) then
        t.nativeAlert c k (nativeMsg (x.instSrc n.val) s.tb 0) a.kind.toNat 0 (x.instAt n.val).ident a.cluster
      else t) s
    s1.modAfOf c n (fun a => { a with outSince := match a.outSince with | some v => some v | none => some s.real })
  | .cand t =>
    match vget (s.sl c).candInfo t.val none with
    | some i =>
      let a := (s.sl c).afAt i.key.val
      if a.state = .speculative ∧ a.cand = some t then s.undoSpec c i.key 3 s.tb else s
    | none => s

/-! ### Rows -/

/-- AF_CHECK_START (R222): in steady mode the instance has been out of TRACK for HOLD_MS. -/
def execAfCheckStart (c : Fin 4) (n : Fin 48) (s : State) : Host.Outcome State Fault Refusal :=
  run s fun s =>
    let x := s.sl c
    let a := x.afAt n.val
    let waited := match a.outSince with
      | some t => decide (t + msTicks (afHoldMs (x.afPolicy n.val)) ≤ s.real)
      | none => false
    if !x.live ∨ x.runAhead ∨ x.clk.coast ∨ a.state ≠ .primary ∨ (x.instAt n.val).state = .track ∨ !waited then s
    else
      match x.nextEntry n.val with
      | some e => s.beginCheck c n e
      | none => s

/-- AF_CHECK_TIMEOUT (R222): CHECK_MS has passed. -/
def execAfCheckTimeout (c : Fin 4) (n : Fin 48) (s : State) : Host.Outcome State Fault Refusal :=
  run s fun s =>
    let x := s.sl c
    let a := x.afAt n.val
    if !x.live ∨ s.real < a.checkAt + msTicks (afCheckMs (x.afPolicy n.val)) then s
    else if a.state = .check then s.failCheck c n false
    else if a.state = .speculative then s.undoSpec c n 2 s.tb
    else s

/-- Whether HOLD_MS has passed since the last switch (R225). -/
def Slice.switchHeld (x : Slice) (n now : Nat) : Bool :=
  decide ((x.afAt n).lastSwitch + msTicks (afHoldMs (x.afPolicy n)) ≤ now)

/-- AF_SWITCH (R222, R225): the switch condition holds for a verified candidate. -/
def execAfSwitch (c : Fin 4) (n : Fin 48) (s : State) : Host.Outcome State Fault Refusal :=
  run s fun s =>
    let x := s.sl c
    let cur := x.regHz (x.instTun n.val)
    if !x.live ∨ !x.runAhead ∨ x.clk.coast ∨ (x.afAt n.val).state ≠ .primary ∨ !x.switchHeld n.val s.real then s
    else
      match x.bestCand ((x.candsTracking n.val).filter (fun p => p.2.verified)) with
      | none => s
      | some (t, i) =>
        let better := decide (sext 16 (bf (x.instAt n.val).quality 0 16) + afHystCb (x.afPolicy n.val) ≤ x.candQual t)
        if (x.instAt n.val).state = .track ∧ !better then s
        else
          let s1 := (s.afEvent c n 5 i.method t cur i.freq (bf (x.candAt t).quality 0 16)).retune c n i.freq
          s1.modAfOf c n (fun a => { a with
            state := .handover, cand := some (Fin.ofNat 32 t), lastSwitch := s.real })

/-- AF_SPECULATE (R222, R225): the speculation condition holds. -/
def execAfSpeculate (c : Fin 4) (n : Fin 48) (s : State) : Host.Outcome State Fault Refusal :=
  run s fun s =>
    let x := s.sl c
    let tracking := x.candsTracking n.val
    let young := tracking.filter (fun p => !p.2.verified && (match p.2.tracked with
      | some t => decide (s.real ≤ t + msTicks (afCheckMs (x.afPolicy n.val)))
      | none => false))
    if !x.live ∨ !x.runAhead ∨ x.clk.coast ∨ (x.afAt n.val).state ≠ .primary ∨ !x.switchHeld n.val s.real
        ∨ (x.instAt n.val).state = .track ∨ tracking.any (fun p => p.2.verified) then s
    else
      match x.bestCand young with
      | some (t, i) => s.speculate c n (Fin.ofNat 32 t) i
      | none => s

/-- CANDIDATE_ROTATION (R224): where entries outnumber the resources a candidate yields after CHECK_MS, unless it
is the verified best one or feeds the contexts. -/
def execCandidateRotation (c : Fin 4) (t : Fin 32) (s : State) : Host.Outcome State Fault Refusal :=
  run s fun s =>
    let x := s.sl c
    match vget x.candInfo t.val none with
    | none => s
    | some i =>
      let n := i.key.val
      let running := (x.candInfo.toList.filter (fun j => match j with
        | some j => j.key.val == n
        | none => false)).length
      let best : Bool := match x.bestCand ((x.candsTracking n).filter (fun p => p.2.verified)) with
        | some p => p.1 == t.val
        | none => false
      if !x.live ∨ s.real < i.started + msTicks (afCheckMs (x.afPolicy n)) ∨ best ∨ (x.afAt n).cand = some t
          ∨ (x.afList n).length ≤ running then s
      else s.modSl c (fun x => x.yieldCand t.val s.real s.tb)

end Sys2Proof.Machine
end

