-- ==== Sys2Proof/Machine/Demod.lean ====
section
/-! DEFINITION. Demodulator instances (R158 to R182): states, units, measurements, retunes. -/

namespace Sys2Proof.Machine

open Sys2Proof

/-! ### Instances and candidates under one name (R158) -/

/-- The registers of an instance or a candidate. -/
def Slice.demod (x : Slice) : InstRef → Inst
  | .inst n => x.instAt n.val
  | .cand t => x.candAt t.val

def Slice.modDemod (x : Slice) (r : InstRef) (f : Inst → Inst) : Slice :=
  match r with
  | .inst n => x.modInst n.val f
  | .cand t => x.modCand t.val f

/-- The acquirer of an instance or a candidate. -/
def Slice.acqOf (x : Slice) : InstRef → Acq
  | .inst n => vget x.acq n.val Acq.reset
  | .cand t => vget x.candAcq t.val Acq.reset

def Slice.modAcqOf (x : Slice) (r : InstRef) (f : Acq → Acq) : Slice :=
  match r with
  | .inst n => x.modAcq n.val f
  | .cand t => x.modCandAcq t.val f

/-- The DEMOD key that gives an instance or candidate its profile and parameters (R158). -/
def Slice.keyOf (x : Slice) : InstRef → Option Nat
  | .inst n => if (x.instAt n.val).declared then some n.val else none
  | .cand t => (vget x.candInfo t.val none).map (fun i => i.key.val)

/-- Its DEMOD record; empty where it does not exist. -/
def Slice.refRec (x : Slice) (r : InstRef) : List Byte :=
  match x.keyOf r with
  | some n => x.dmOf n
  | none => []

/-- The tuning that it reads. -/
def Slice.refTun (x : Slice) (r : InstRef) : Nat :=
  match r with
  | .inst n => x.instTun n.val
  | .cand t => t.val

/-- Whether an instance or candidate of a running slice exists. -/
def Slice.refLive (x : Slice) (r : InstRef) : Bool := x.live && (x.keyOf r).isSome

/-- The instance or candidate that reads tuning `t`. -/
def Slice.readerOf (x : Slice) (t : Nat) : Option InstRef :=
  match vget x.candInfo t none with
  | some _ => some (.cand (Fin.ofNat 32 t))
  | none => (x.inForce.bind (fun f => (f.instOf t).head?)).map (fun n => .inst (Fin.ofNat 48 n))

/-! ### States (R162) -/

/-- Measurements that have no meaning (R179). -/
def Inst.noMeasure (i : Inst) (profile : Nat) : Inst :=
  let p := pstatInit profile
  { i with pilot := false, freqErr := 0x80000000, clockErr := 0x80000000, level := 0x80008000,
           quality := 0xFFFF8000, pstat0 := p.1, pstat1 := p.2 }

/-- A state entered at real time `now`: the tests of R163 and, on entry to SYNC, the first interval of R179 begin. -/
def Inst.enter (i : Inst) (st : InstState) (now : Nat) : Inst :=
  { i with state := st, since := now, runs := Vector.replicate 4 0, badRun := 0, idle := 0, lowSince := none,
           violations := [], measuredAt := if st = .sync then some now else i.measuredAt,
           clean := if st = .sync ∨ st = .search then 0 else i.clean }

/-- An exit from TRACK counted (R180). -/
def Inst.lose (i : Inst) : Inst :=
  if i.state = .track then { i with losses := count 16 1 i.losses, events := raise i.events 1 } else i

/-- An instance returns to SEARCH (R162). -/
def State.toSearch (s : State) (c : Fin 4) (r : InstRef) : State :=
  let x := s.sl c
  let prof := dmProfile (x.refRec r)
  let s1 := s.modSl c (fun x => x.modDemod r (fun i => (i.lose.enter .search s.real).noMeasure prof))
  if (x.demod r).state = .track then s1.leftTrack c r else s1

/-- An instance or candidate enters TRACK (R162). -/
def State.toTrack (s : State) (c : Fin 4) (r : InstRef) : State :=
  let s1 := s.modSl c (fun x => x.modDemod r (fun i =>
    { (i.enter .track s.real) with locks := count 16 1 i.locks, events := raise i.events 0 }))
  match r with
  | .inst n => s1.modAfOf c n (fun a => { a with outSince := none })
  | .cand t => s1.modSl c (fun x => { x with candInfo := vmod x.candInfo t.val (fun o => o.map (fun i =>
      { i with tracked := match i.tracked with | some v => some v | none => some s.real })) })

/-! ### Criteria (R163, R169) -/

/-- Symbols per second of an LDB instance (R183, R198). -/
def ldbRs (p : List Byte) : Nat := if u8 (dmParams p) 1 = 1 then 9600 else 4800

/-- Stamps that follow one another by `period` ticks, to within `ppm`. -/
def spaced (period ppm : Nat) : List Nat → Bool
  | a :: b :: rest =>
    decide (a < b) && decide ((((b - a : Nat) : Int) - period).natAbs * 1000000 ≤ period * ppm) && spaced period ppm (b :: rest)
  | _ => true

/-- SEARCH_HZ of a time-code instance (R176). -/
def tcSearch (p : List Byte) : Nat := let v := u8 (dmParams p) 1; if v = 0 then 10 else v

/-- The pull-in range of a profile in mHz (R169). -/
def pullIn (p : List Byte) : Nat :=
  match dmProfile p with
  | 1 => 200000
  | 2 => 50000
  | 3 => 30000000
  | 4 => 25000000
  | 5 => 100000
  | 6 => 2000000
  | 7 => 1000 * tcSearch p
  | _ => 0

/-- The tracking range of a profile in mHz (R169, R200). -/
def trackRange (p : List Byte) : Nat :=
  match dmProfile p with
  | 1 => 1000000
  | 2 => 200000
  | 3 => 40000000
  | 4 => 35000000
  | 5 => 150000
  | 6 => 3000000
  | 7 => 50000
  | _ => ldbRs p * 1000 / 6

/-- The clock tracking range of a profile in 0.001 ppm, where it has one (R169, R200). -/
def clockRange (p : List Byte) : Option Nat :=
  match dmProfile p with
  | 1 => none
  | 2 => some 20000000
  | 3 => some 100000
  | 4 => some 100000
  | 7 => some 10000
  | _ => some 200000

/-- Whether an offset or clock lies beyond its tracking range (R169). -/
def beyond (p : List Byte) (offset clock : Int) : Bool :=
  decide (trackRange p < offset.natAbs) || (match clockRange p with | some n => decide (n < clock.natAbs) | none => false)

/-- The frame of a profile in ticks and its clock range in ppm, as the found criterion takes it (R163). PRESUMED (ES 201 980):
a DRM transmission frame lasts 400 ms in modes A to D and 100 ms in mode E. -/
def foundFrame (profile : Nat) : Nat × Nat :=
  match profile with
  | 4 => (msTicks 96, 100)
  | 5 => (msTicks 400, 200)
  | 6 => (msTicks 100, 200)
  | _ => (secTicks 1, 10)

/-- The marks that the found criterion needs (R163). -/
def foundMarks (profile : Nat) : Nat :=
  match profile with
  | 4 => 2
  | 5 => 2
  | 6 => 2
  | 7 => 3
  | _ => 0

/-- Whether a detected DRM mode and occupancy are ones that the instance tests (R163, R175). -/
def drmFits (p : List Byte) (f : Found) : Bool :=
  let q := dmParams p
  if dmProfile p = 5 then
    within 1 4 f.robust && decide (f.occ ≤ 5) && (u8 q 0 == 0 || u8 q 0 == f.robust) && (u8 q 1 == 0xFF || u8 q 1 == f.occ)
  else if dmProfile p = 6 then f.robust == 5 && decide (f.occ ≤ 5)
  else true

/-- The found criterion of a profile (R163). -/
def foundOk (p : List Byte) (f : Found) : Bool :=
  let m := foundFrame (dmProfile p)
  let strong : Bool := match dmProfile p with
    | 1 => decide (300 ≤ f.strength)
    | 2 => decide (300 ≤ f.strength)
    | 3 => decide (80 ≤ f.strength)
    | _ => true
  strong && decide (f.offset.natAbs ≤ pullIn p) && f.marks.length == foundMarks (dmProfile p) && spaced m.1 m.2 f.marks
    && drmFits p f

/-- The stamp of the newest sample that a tuning has handed to its instance. -/
def Tuning.newest (u : Tuning) : Nat := match u.buffer with | w :: _ => w.1 | [] => 0

/-- PSTAT0 as the instance enters SYNC (R182): the DRM mode and occupancy detected, the FORMAT in use. -/
def pstatFound (p : List Byte) (robust occ : Nat) : Word :=
  match dmProfile p with
  | 5 => mkWord [(4, 3, occ), (0, 3, robust)]
  | 6 => mkWord [(4, 3, occ), (0, 3, robust)]
  | 7 => mkWord [(8, 8, u8 (dmParams p) 0), (0, 8, 0xFF)]
  | _ => 0

/-- INSTANCE_FOUND (R162, R163, R166): what the instance finds in SEARCH meets the criterion of its profile, on unerased input.
An LDB instance is found by the sync word that qualifies its trigger (R199). -/
def execInstanceFound (c : Fin 4) (r : InstRef) (s : State) (found : Found := ⟨0, 0, [], 0, 0⟩) :
    Host.Outcome State Fault Refusal :=
  run s fun s =>
    let x := s.sl c
    let p := x.refRec r
    let i := x.demod r
    match x.inForce with
    | none => s
    | some f =>
      let period := (x.confOf f (x.refTun r)).period
      let heard := decide (0 < i.clean) && found.marks.all (fun m =>
        decide (m ≤ (x.tunAt (x.refTun r)).newest) && i.erasedIn period m (m + period) == 0)
      if x.refLive r ∧ !x.clk.coast ∧ i.state = .search ∧ dmProfile p ≠ 8 ∧ heard ∧ foundOk p found then
        s.modSl c (fun x => x.modDemod r (fun i =>
          let j := i.enter .sync s.real
          if dmProfile p = 5 ∨ dmProfile p = 6 then
            { j with robust := found.robust, occ := found.occ, pstat0 := pstatFound p found.robust found.occ }
          else { j with pstat0 := pstatFound p 0 0 }))
      else s

/-- The SYNC limit of a profile in seconds (R163). -/
def syncLimit (profile : Nat) : Nat := ([1, 10, 2, 1, 5, 2, 180] : List Nat).getD (profile - 1) 0

/-- LOSS_S of an LDB instance (R198). -/
def ldbLossS (p : List Byte) : Nat := let v := u16 (dmParams p) 8; if v = 0 then 600 else v

/-- Whether LOSS_S has passed without a passing header (R199). -/
def Slice.ldbLost (x : Slice) (r : InstRef) (now : Nat) : Bool :=
  decide ((x.acqOf r).lastPass + secTicks (ldbLossS (x.refRec r)) ≤ now)

/-- SYNC_LIMIT_EXPIRED (R162, R163, R199). -/
def execSyncLimitExpired (c : Fin 4) (r : InstRef) (s : State) : Host.Outcome State Fault Refusal :=
  run s fun s =>
    let x := s.sl c
    let i := x.demod r
    let prof := dmProfile (x.refRec r)
    let late := if prof = 8 then x.ldbLost r s.real else decide (i.since + secTicks (syncLimit prof) ≤ s.real)
    if x.refLive r ∧ i.state = .sync ∧ late then s.toSearch c r else s

/-- Whether the signal of an instance has been too weak for 1 s (R163). -/
def Inst.weak (i : Inst) (now : Nat) : Bool :=
  match i.lowSince with | some t => decide (t + secTicks 1 ≤ now) | none => false

/-- The loss criterion of an instance at real time `now` (R163); that of LDB is R199's. -/
def Inst.lost (i : Inst) (p : List Byte) (now : Nat) : Bool :=
  match dmProfile p with
  | 1 => i.weak now
  | 2 => decide (16 ≤ (i.violations.filter id).length) || i.weak now
  | 3 => if u8 (dmParams p) 2 % 16 = 0 then i.weak now else decide (secTicks 1 ≤ i.idle)
  | 4 => decide (msTicks 960 ≤ i.idle)
  | 5 => decide (10 ≤ i.badRun)
  | 6 => decide (10 ≤ i.badRun)
  | _ => decide (3 ≤ i.badRun)

/-- The frequency at which a tuning is set, in mHz (R168). -/
def Tuning.setMhz (u : Tuning) : Int := (roundDiv (u.ncoNow.toNat * 1024000000000) (2 ^ 32) : Nat)

/-- INSTANCE_LOSS (R162, R163, R169, R199): the loss criterion is met, or the frequency (mHz) and clock (0.001 ppm) that the
instance tracks now lie beyond the tracking range. -/
def execInstanceLoss (c : Fin 4) (r : InstRef) (tracked : Option (Int × Int)) (s : State) :
    Host.Outcome State Fault Refusal :=
  run s fun s =>
    let x := s.sl c
    let p := x.refRec r
    let lost := if dmProfile p = 8 then x.ldbLost r s.real else (x.demod r).lost p s.real
    let far := match tracked with
      | some (freq, clock) => beyond p (freq - (x.tunAt (x.refTun r)).setMhz) clock
      | none => false
    if !x.refLive r ∨ (x.demod r).state ≠ .track ∨ (!lost ∧ !far) then s
    else
      (if far then s.modSl c (fun x => x.modDemod r (fun i => { i with events := raise i.events 4 })) else s).toSearch c r

/-- A write to INST[n].CTL (R180, R181). -/
def State.writeDemCtl (s : State) (c : Fin 4) (n : Fin 48) (v : Word) : State :=
  let i := (s.sl c).instAt n.val
  let reject := s.modSl c (fun x => x.modInst n.val (fun i => { i with events := raise i.events 5 }))
  if !i.declared then reject
  else if !bit v 0 then s
  else if i.state.busy then s.toSearch c (.inst n)
  else reject

/-- REACQ (R181). -/
def execReacq (c : Fin 4) (n : Fin 48) (s : State) : Host.Outcome State Fault Refusal :=
  run s fun s => s.sliceWrite c (0x80008 + 0x80 * n.val) fun s => s.writeDemCtl c n 1

/-! ### Measurements (R168, R179, R182, R200) -/

/-- The decimal digits of a number after the first; `n` bounds them. -/
def digits : Nat → Nat → Nat
  | 0, _ => 0
  | n + 1, v => if v < 10 then 0 else digits n (v / 10) + 1

/-- A ratio of amplitudes in 0.1 dB, towards zero. -/
def tenthDb (a b : Nat) : Int :=
  if a = 0 ∨ b = 0 then 0
  else if b ≤ a then (digits 20000 (a ^ 200 / b ^ 200) : Nat) else -((digits 20000 (b ^ 200 / a ^ 200) : Nat) : Int)

/-- The gain of a tuning's chain at its centre, from a full-scale sine at the ADC to full scale of its output, in 0.1 dB: the
mixer takes half of 0 dB, R140's CIC gain and the FIR's follow (R139 to R142). -/
def Tuning.gainCb (u : Tuning) (cf : ChainConf) : Int :=
  let h := (firAcc (vget u.coef (b2n u.bank) []) cf.taps (List.replicate cf.taps ⟨1, 0⟩)).re.natAbs
  tenthDb (cf.cic ^ 5 * h) (2 ^ (cf.cicShift + cf.firShift + 9))

/-- A level in 0.1 dBFS at a tuning's output referred to the ANT connector, in 0.1 dBm (R179): through the chain, the setting to
which the gain in force is made up (R117, 31 dB with the LNA on), full scale of the ADC, and the flatness calibration. -/
def Slice.levelDbm (x : Slice) (f : Forme) (t : Nat) (level : Int) : Int :=
  level - (x.tunAt t).gainCb (x.confOf f t) + Config.fullScale x.afe.preselected + x.afe.stepSize 31 / 100
    + Config.flatness (x.tuningHz t)

/-- The listed subchannels of a DAB instance (R174). -/
def dabListed (p : List Byte) : List Nat :=
  (List.range (u8 (dmParams p) 0)).map (fun i => u8 (dmParams p) (4 + 4 * i))

/-- Bits for the places of a list that `ok` accepts. -/
def okBits (lo : Nat) (l : List Nat) (ok : Nat → Bool) : Word :=
  mkWord (l.mapIdx (fun i v => (lo + i, 1, b2n (ok v))))

/-- The choice of detector of an AM instance after 100 ms of a loop phase error (R170): muted above 45° with DETECT 0, the
envelope from above 45° until below 10° with DETECT 1, always the envelope with DETECT 2. -/
def Inst.detect (i : Inst) (p : List Byte) (loop : Nat) : Inst :=
  if dmProfile p ≠ 1 then i
  else
    match u8 (dmParams p) 2 with
    | 0 => { i with deaf := decide (450 < loop), envelope := false }
    | 1 => { i with deaf := false, envelope := if i.envelope then decide (100 ≤ loop) else decide (450 < loop) }
    | _ => { i with deaf := false, envelope := true }

/-- STEREO of an FM instance (R172): automatic, the pilot locked, from a CNR of 30 dB on until below 26 dB. -/
def Inst.stereo (i : Inst) (p : List Byte) (m : Measure) : Bool :=
  u8 (dmParams p) 1 == 1 && m.pilot && decide ((if bit i.pstat0 8 then 260 else 300) ≤ m.quality)

/-- CH_BER from the re-encoding since the last measurement (R182). -/
def Inst.chBer (i : Inst) : Nat :=
  if i.berSeen = 0 then bf i.pstat1 0 16 else min 0xFFFF (i.berErr * 100000 / i.berSeen)

/-- PSTAT0 and PSTAT1 after a measurement (R182). -/
def Inst.pstats (i : Inst) (p : List Byte) (m : Measure) : Word × Word :=
  let q := dmParams p
  let ber := mkWord [(0, 16, i.chBer)]
  let drm := mkWord [(12, 2, bf m.pstat0 12 2), (4, 3, i.occ), (0, 3, i.robust)]
    ||| okBits 8 [0, 1, 2, 3] (fun st => (u8 q 2).testBit st && m.carried.contains st)
  match dmProfile p with
  | 1 => (mkWord [(0, 16, min 1500 (bf m.pstat0 0 16))], mkWord [(0, 1, b2n i.envelope)])
  | 2 => (m.pstat0 &&& 0xFFFF, m.pstat1 &&& 0xFFFF)
  | 3 => (mkWord [(8, 1, b2n (i.stereo p m)), (0, 4, bf m.pstat0 0 4 &&& u8 q 2)], m.pstat1 &&& 0xFFFF)
  | 4 => (okBits 0 (dabListed p) m.carried.contains, ber)
  | 5 => (drm, ber)
  | 6 => (drm, ber)
  | 7 => (mkWord [(8, 8, u8 q 0), (0, 8, bf m.pstat0 0 8)], m.pstat1 &&& 0xFFFF)
  | _ => (0, 0)

/-- Whether the signal of an interval is too weak to hold it (R163). -/
def tooWeak (p : List Byte) (offset strength : Int) : Bool :=
  match dmProfile p with
  | 1 => decide (strength < 240)
  | 2 => decide (strength < 240)
  | 3 => decide (strength < 80) || decide (pullIn p < offset.natAbs)
  | _ => false

/-- When the running interval of 100 ms began. -/
def Inst.measureFrom (i : Inst) : Nat := i.measuredAt.getD i.since

/-- A measurement of the unerased input of an interval taken over (R179): an LDB instance takes its level, quality and offset
from its last passing burst (R200). -/
def Inst.measure (i : Inst) (p : List Byte) (m : Measure) (offset dbm : Int) : Inst :=
  let k := i.detect p m.loop
  let t := k.pstats p m
  let j := { k with pilot := m.pilot, clockErr := BitVec.ofInt 32 m.clockErr, berErr := 0, berSeen := 0,
                    lowSince := if tooWeak p offset m.strength then some (i.lowSince.getD i.measureFrom) else none }
  if dmProfile p = 8 then j
  else
    { j with freqErr := BitVec.ofInt 32 offset, level := mkWord [(16, 16, twos 16 dbm), (0, 16, twos 16 m.level)],
             quality := mkWord [(16, 16, if within 4 6 (dmProfile p) then m.spread else 0xFFFF), (0, 16, twos 16 m.quality)],
             pstat0 := t.1, pstat1 := t.2 }

/-- MEASUREMENT_UPDATE (R168, R169, R179, R182): every 100 ms in SYNC and TRACK. An offset or clock beyond its tracking range
ends TRACK. -/
def execMeasurementUpdate (c : Fin 4) (r : InstRef) (m : Measure) (s : State) : Host.Outcome State Fault Refusal :=
  run s fun s =>
    let x := s.sl c
    let i := x.demod r
    let p := x.refRec r
    let t := x.refTun r
    match x.inForce with
    | none => s
    | some f =>
      if !x.refLive r ∨ (i.state ≠ .sync ∧ i.state ≠ .track) ∨ s.real < i.measureFrom + msTicks 100 then s
      else if i.clean = 0 then
        s.modSl c (fun x => x.modDemod r (fun i => { i with measuredAt := some s.real }))
      else
        let offset := m.freq - (x.tunAt t).setMhz
        let s1 := s.modSl c (fun x => x.modDemod r (fun i =>
          { (i.measure p m offset (x.levelDbm f t m.level)) with measuredAt := some s.real, clean := 0 }))
        if !beyond p offset m.clockErr then s1
        else
          let s2 := s1.modSl c (fun x => x.modDemod r (fun i => { i with events := raise i.events 4 }))
          if i.state = .track then s2.toSearch c r else s2

/-! ### RDS blocks (R173) -/

/-- The remainder of a polynomial of 26 bits by the generator x^10 + x^8 + x^7 + x^5 + x^4 + x^3 + 1. PRESUMED (IEC 62106). -/
def rdsRem : Nat → Nat → Nat
  | 0, v => v
  | n + 1, v => rdsRem n (if v.testBit (n + 10) then Nat.xor v (0x5B9 * 2 ^ n) else v)

/-- The offset words A, B, C, C', D and, with CODE 1, E. PRESUMED (IEC 62106, NRSC-4-B). -/
def rdsOffsets (code : Nat) : List Nat := [0x0FC, 0x198, 0x168, 0x350, 0x1B4] ++ (if code = 1 then [0] else [])

/-- The offset words that a place in the group may have. -/
def rdsExpected (code pos : Nat) : List Nat :=
  (match pos with
  | 0 => [0]
  | 1 => [1]
  | 2 => [2, 3]
  | _ => [4]) ++ (if code = 1 then [5] else [])

/-- Bursts of at most `n` bits within 26, the shortest first, each with its first and last bit in error. -/
def rdsBursts (n : Nat) : List Nat :=
  (List.range n).flatMap (fun l =>
    (List.range (26 - l)).flatMap (fun at_ =>
      if l = 0 then [2 ^ at_] else (List.range (2 ^ (l - 1))).map (fun mid => (2 ^ l + 2 * mid + 1) * 2 ^ at_)))

/-- The longest burst that CORR lets the instance correct (R173). -/
def rdsCorr (corr : Nat) : Nat := if corr = 0 then 0 else if corr = 1 then 2 else 5

/-- The bits set in a number of 26 bits. -/
def ones26 (v : Nat) : Nat := ((List.range 26).filter (fun i => v.testBit i)).length

/-- A received block (R173): its information bits, the offset word found, 6 for none, and the bits corrected. DESIGN CHOICE: an
offset word that fits without correction is taken; else the shortest burst that makes the block fit its place. -/
def rdsDecode (code corr pos bits : Nat) : BitVec 16 × Nat × Nat :=
  let offs := rdsOffsets code
  let fits (v k : Nat) : Bool := rdsRem 16 (Nat.xor v (offs.getD k 0)) == 0
  match (List.range offs.length).find? (fits bits) with
  | some k => (BitVec.ofNat 16 (bits / 1024), k, 0)
  | none =>
    let tries := (rdsBursts (rdsCorr corr)).flatMap (fun e => (rdsExpected code pos).map (fun k => (e, k)))
    match tries.find? (fun t => fits (Nat.xor bits t.1) t.2) with
    | some t => (BitVec.ofNat 16 (Nat.xor bits t.1 / 1024), t.2, ones26 t.1)
    | none => (BitVec.ofNat 16 (bits / 1024), 6, 0)

/-! ### Units (R161 to R163, R171 to R178) -/

/-- Whether an instance with these parameters makes a unit of this kind. An LDB unit follows from its segment (R196). -/
def unitFits (p : List Byte) (u : Heard) : Bool :=
  let streams := u8 (dmParams p) 2
  match dmProfile p, u with
  | 1, .audio _ _ => true
  | 2, .apd _ _ => true
  | 3, .audio _ _ => streams % 16 == 0
  | 3, .rds stream _ _ => streams.testBit stream.val
  | 4, .fib _ => true
  | 4, .mscFrame sub _ => (dabListed p).contains sub
  | 5, .fac _ => true
  | 5, .sdc _ => true
  | 5, .drmFrame st _ _ => decide (st < 4) && streams.testBit st
  | 6, .fac _ => true
  | 6, .sdc _ => true
  | 6, .drmFrame st _ _ => decide (st < 4) && streams.testBit st
  | 7, .second => true
  | 7, .minute _ _ => true
  | _, _ => false

/-- The air time of an estimate on the sample stamps, in 2^-16 ticks (R161): minus SPAN / 2, to the nearest tick. -/
def unitTime (cf : ChainConf) (at_ : Nat) : Nat := roundDiv (2 * at_ - 65536 * cf.span) 131072

/-- RATE_BPS of an APD instance (R171). -/
def apdRate (p : List Byte) : Nat := let v := u16 (dmParams p) 2; if v = 0 then 25 else v

/-- Whether the two halves of an APD bit make a biphase violation (R171). -/
def apdViolation (p : List Byte) (a b : Int) : Bool := u8 (dmParams p) 4 == 0 && decide (0 < a * b)

/-- The soft value of an APD bit (R171): 0 for a violation, and where more than half of its samples are erased (R160). -/
def apdSoft (p : List Byte) (a b : Int) (gone : Bool) : Int :=
  if gone ∨ apdViolation p a b then 0 else clampI (-8) 7 (if u8 (dmParams p) 4 = 0 then a - b else a + b)

/-- Whether more than half of the samples of an APD bit that starts at stamp `at_` are erased (R160). -/
def Inst.bitGone (i : Inst) (p : List Byte) (cf : ChainConf) (at_ : Nat) : Bool :=
  let stop := at_ + 1024000000 / apdRate p
  decide (stop - at_ < 2 * (i.erasedIn cf.period at_ stop) * cf.period)

/-- A unit as the instance makes it of what it hears, whether it passed its air-layer check, and whether it is erased. -/
def Inst.unit (i : Inst) (p : List Byte) (cf : ChainConf) (at_ : Nat) (ok : Bool) : Heard → AirUnit × Bool × Bool
  | .audio _ _ => (.audio, true, false)
  | .apd a b =>
    let gone := i.bitGone p cf (at_ / 65536)
    (.apdBit (apdSoft p a b gone), !apdViolation p a b, gone)
  | .rds stream pos bits =>
    let d := rdsDecode (u8 (dmParams p) 3) (u8 (dmParams p) 4) pos.val bits.toNat
    (.rds stream pos d.1 d.2.1 d.2.2, decide (d.2.1 < 6), false)
  | .fib figs => (.fib figs, ok, false)
  | .mscFrame sub gs => (.mscFrame sub gs, true, false)
  | .fac b => (.fac b, ok, false)
  | .sdc b => (.sdc b, ok, false)
  | .drmFrame st d us => (.drmFrame st d us, true, false)
  | .second => (.audio, true, true)
  | .minute label bits => (.minute (unitTime cf label) bits i.seconds, ok, false)

/-- Consecutive units that must pass in SYNC (R163); 0 for a unit that does not count. -/
def unitsNeeded : AirUnit → Nat
  | .apdBit _ => 32
  | .rds _ _ _ _ _ => 4
  | .fib _ => 1
  | .fac _ => 2
  | .minute _ _ _ => 1
  | _ => 0

/-- The run that a unit belongs to: RDS streams count apart. -/
def unitRun : AirUnit → Nat
  | .rds stream _ _ _ _ => stream.val
  | _ => 0

/-- Whether UNIT_OK and UNIT_FAIL count a unit (R180). -/
def unitCounted : AirUnit → Bool
  | .apdBit _ => true
  | .rds _ _ _ _ _ => true
  | .fib _ => true
  | .fac _ => true
  | .sdc _ => true
  | .minute _ _ _ => true
  | _ => false

/-- A unit counted (R180), in the runs of SYNC, where it is not erased, and in those of TRACK (R163). -/
def Inst.countUnit (i : Inst) (u : AirUnit) (ok gone : Bool) : Inst :=
  let j := if !unitCounted u then i
    else if ok then { i with unitOk := count 32 1 i.unitOk } else { i with unitFail := count 32 1 i.unitFail }
  if unitsNeeded u = 0 ∨ gone then j
  else
    { j with
      runs := vmod j.runs (unitRun u) (fun n => if ok then min 32 (n + 1) else 0),
      badRun := if ok then 0 else min 32 (j.badRun + 1), idle := if ok then 0 else j.idle,
      violations := ((!ok) :: j.violations).take 64 }

/-- Whether what an instance hears ends SYNC (R163): enough units, or for audio the carrier held, with DETECT 0 and 1 at a phase
error below 10°. -/
def Inst.syncDone (i : Inst) (p : List Byte) (u : AirUnit) (ok : Bool) : Heard → Bool
  | .audio held phase =>
    if dmProfile p = 1 then decide (100 ≤ held) && (u8 (dmParams p) 2 == 2 || decide (phase < 100)) else decide (50 ≤ held)
  | _ => ok && unitsNeeded u != 0 && decide (unitsNeeded u ≤ vget i.runs (unitRun u) 0)

/-- A second's start noted (R176); a minute frame takes those noted. -/
def Inst.noteSecond (i : Inst) (ts : Nat) : Heard → Inst
  | .second => { i with seconds := (i.seconds ++ [ts]).drop (i.seconds.length - 60) }
  | .minute _ _ => { i with seconds := [] }
  | _ => i

/-- UNIT_HANDED_ON (R161): what the instance hears makes a unit, stamped by its estimate on the sample stamps, which is counted,
may bring the instance into TRACK, and goes to the contexts. -/
def execUnitHandedOn (c : Fin 4) (r : InstRef) (at_ : Nat) (ok : Bool) (u : Heard) (reads : Reads) (s : State) :
    Host.Outcome State Fault Refusal :=
  run s fun s =>
    let x := s.sl c
    let i := x.demod r
    let p := x.refRec r
    match x.inForce with
    | none => s
    | some f =>
      let t := x.refTun r
      let cf := x.confOf f t
      if !x.refLive r ∨ !unitFits p u ∨ (i.state ≠ .sync ∧ i.state ≠ .track) ∨ (x.tunAt t).newest < at_ / 65536 then s
      else
        let ts := unitTime cf at_
        let d := i.unit p cf at_ ok u
        let s1 := s.modSl c (fun x => x.modDemod r (fun i => (i.countUnit d.1 d.2.1 d.2.2).noteSecond ts u))
        let s2 := if i.state = .sync ∧ ((s1.sl c).demod r).syncDone p d.1 d.2.1 u then s1.toTrack c r else s1
        if ((s2.sl c).demod r).state = .track ∧ u ≠ .second then
          s2.handUnit c r { ts := ts, ok := d.2.1, unit := d.1, reads := reads, size := unitSize d.1 }
        else s2

end Sys2Proof.Machine
end

