-- ==== Sys2Proof/Machine/Ldb.lean ====
section
/-! DEFINITION. LDB acquisition (R190 to R200), BURST records (R205), the trellis decoders (R201 to R204), and
the retune of a tuning (R151, R166). -/

namespace Sys2Proof.Machine

open Sys2Proof

/-! ### Parameters and times (R190, R198) -/

/-- RISE_CB in force. -/
def ldbRise (p : List Byte) : Nat := let v := u16 (dmParams p) 2; if v = 0 then 60 else v

/-- SYNC_THR in force. -/
def ldbSyncThr (p : List Byte) : Nat := let v := u8 (dmParams p) 4; if v = 0 then 192 else v

/-- CAPTURE_DB in force, in 0.1 dB. -/
def ldbCapture (p : List Byte) : Nat := 10 * (let v := u8 (dmParams p) 5; if v = 0 then 6 else v)

/-- REPORT bit 0. -/
def ldbReport (p : List Byte) : Bool := (u8 (dmParams p) 7).testBit 0

/-- The ticks of `n` symbol periods. -/
def symTicks (p : List Byte) (n : Nat) : Nat := n * 1024000000 / ldbRs p

/-- NOISE: none before eight intervals have counted. -/
def Acq.noiseMean (a : Acq) : Option Int := if a.noise.length = 8 then some (a.noise.sum / 8) else none

/-- The trigger threshold (R191). -/
def Acq.riseAt (a : Acq) (p : List Byte) : Option Int := a.noiseMean.map (fun n => n + ldbRise p)

/-- The threshold of the capture condition while a burst is in hand (R192). -/
def Acq.captureAt (a : Acq) (p : List Byte) : Option Int :=
  match a.noiseMean, a.burst with
  | some n, some b => some (n + b.ref + ldbCapture p)
  | _, _ => none

/-- The centre of the search in mHz (R200): the mean offset of the last eight passing headers, within the tracking range. -/
def Acq.centre (a : Acq) (p : List Byte) : Int :=
  if a.offsets = [] then 0
  else clampI (-(trackRange p : Int)) (trackRange p) (a.offsets.sum / a.offsets.length)

/-- The timestamp of a burst's unit: 48 symbol periods before SYNC_TB (R196). -/
def burstTs (p : List Byte) (b : Burst) : Nat := b.syncTb - symTicks p 48

/-- The place of data symbol `j` on the grid of the coded region (R188). -/
def gridPos (j : Nat) : Nat := j + j / 7

/-- When data symbol `j` of a burst ends on the air. -/
def dataEnd (p : List Byte) (b : Burst) (j : Nat) : Nat := b.syncTb + symTicks p (32 + gridPos j + 1)

/-- Payload bytes whose symbols have been on the air by `now` (R188, R205). -/
def burstBytes (p : List Byte) (b : Burst) (now : Nat) : Nat :=
  let m := (now - b.syncTb) * ldbRs p / 1024000000 - 32
  min (ldbLength b.header) ((m - m / 8 - 70) / 8)

/-- Whether an instance or candidate is an LDB one in a state in which the acquirer runs (R199). -/
def Slice.ldbRuns (x : Slice) (r : InstRef) : Bool :=
  x.refLive r && dmProfile (x.refRec r) == 8 && (x.demod r).state.busy

/-- The acquirer of an instance or candidate changed by `f`. -/
def State.modAcquirer (s : State) (c : Fin 4) (r : InstRef) (f : Acq → Acq) : State :=
  s.modSl c (fun x => x.modAcqOf r f)

/-- The acquirer returns to IDLE; the hold of R191 goes on. -/
def Acq.idle (a : Acq) : Acq := { a with acq := .idle, burst := none, rewindow := false, capRun := 0, capAt := none }

/-! ### BURST records (R205) -/

/-- A BURST record. -/
def State.burstRecord (s : State) (c : Fin 4) (r : InstRef) (b : Burst) (outcome cause snr : Nat) (rise : Int)
    (done : Nat) : State :=
  let x := s.sl c
  let p := x.refRec r
  let q := dmBurstQueue p
  if q = 0xFF then s
  else
    let flags := b2n b.passed + 2 * b2n (decide (0 < ldbLength b.header)) + 4 * b2n b.erased + 8 * b2n b.captured
    s.stage (localQ c q) (s.mkRec 0x50 c.val (x.refTun r) 0xFFFF 0 (burstTs p b) x.unlocked
      ([BitVec.ofNat 8 outcome, BitVec.ofNat 8 cause, BitVec.ofNat 8 ((x.keyOf r).getD 0), BitVec.ofNat 8 flags]
        ++ be 8 b.header.toNat ++ le 8 b.syncTb ++ le 2 (twos 16 b.ref) ++ le 2 snr ++ le 4 b.freqErr.toNat
        ++ le 2 (twos 16 rise) ++ le 2 done))

/-- UNIT_FAIL counts a burst that ended after its header had passed (R196). -/
def State.burstFail (s : State) (c : Fin 4) (r : InstRef) : State :=
  s.modSl c (fun x => x.modDemod r (fun i => { i with unitFail := count 32 1 i.unitFail }))

/-- A burst ends aborted (R193, R197): counted, with a record if its header had passed. -/
def State.abortOne (s : State) (c : Fin 4) (r : InstRef) (b : Burst) (cause : Nat) : State :=
  let done := if b.allDemod then ldbLength b.header else burstBytes ((s.sl c).refRec r) b s.tb
  let s1 := if b.passed then (s.burstRecord c r b 4 cause 0x8000 0 done).burstFail c r else s
  s1.modAcquirer c r (fun a => { a with aborted := count 16 1 a.aborted, events := raise a.events 5 })

/-- The burst in hand, whose last symbol has been demodulated, leaves the receiving cell and goes on decoding (R195). -/
def Acq.toTail (a : Acq) (live : Bool) : Acq :=
  { a with tails := a.tails ++ (a.burst.toList.map (fun b => { b with live := live })) }

/-- A burst in hand aborted (R195, R197). One whose last symbol is demodulated goes on decoding outside the
receiving cell for causes 0x01, 0x02 and 0x05; the other causes end those too. -/
def State.abortBurst (s : State) (c : Fin 4) (r : InstRef) (cause : Nat) : State :=
  let x := s.sl c
  let a := x.acqOf r
  let soft := cause == 1 || cause == 2 || cause == 5
  let tracked := (x.demod r).state == .track
  if dmProfile (x.refRec r) ≠ 8 then s
  else
    let s1 := if soft then s
      else (a.tails.foldl (fun t b => t.abortOne c r b cause) s).modAcquirer c r (fun a => { a with tails := [] })
    match a.acq, a.burst with
    | .idle, _ => s1
    | _, some b =>
      if soft && b.allDemod then s1.modAcquirer c r (fun a => (a.toTail tracked).idle)
      else (s1.abortOne c r b cause).modAcquirer c r Acq.idle
    | _, none =>
      s1.modAcquirer c r (fun a => { a.idle with aborted := count 16 1 a.aborted, events := raise a.events 5 })

/-- The segment of the burst with SYNC_TB `tb` is lost (R195, R197, R204): that burst ends, no other. -/
def State.loseBurst (s : State) (c : Fin 4) (r : InstRef) (tb : Nat) : State :=
  let a := (s.sl c).acqOf r
  let gone := a.tails.filter (fun b => b.syncTb == tb)
  let s1 := (gone.foldl (fun t b => t.abortOne c r b 4) s).modAcquirer c r (fun a =>
    { a with tails := a.tails.filter (fun b => b.syncTb != tb) })
  match a.burst with
  | some b => if b.syncTb = tb then (s1.abortOne c r b 4).modAcquirer c r Acq.idle else s1
  | none => s1

/-! ### RSSI windows (R190) -/

/-- One RSSI window that ends at `t`, with the value that it gives: the last RSSI, the run at the trigger threshold, and the hold
of R192. A window without a value neither breaks nor extends a run. -/
def Acq.window (a : Acq) (p : List Byte) (t : Nat) (v : Option Int) : Acq :=
  let b := { a with rssi := v, winStop := some t, recent := (v :: a.recent).take 32 }
  match v with
  | none => b
  | some v =>
    let above (l : Option Int) : Bool := match l with | some n => decide (n ≤ v) | none => false
    let up := above (a.riseAt p)
    let cap := if above (a.captureAt p) then a.capRun + 1 else 0
    { b with
      riseRun := if up then a.riseRun + 1 else 0, lastAbove := if up then some t else a.lastAbove,
      capRun := cap, capAt := if 16 ≤ cap then some t else a.capAt,
      lowest := some (match a.lowest with | some l => min l v | none => v), lastValue := some v }

/-- The RSSI windows of a run with their ends, oldest first. A window of 8 symbol periods that holds an erased sample gives no
value (R160, R190). -/
def Inst.windows (i : Inst) (p : List Byte) (cf : ChainConf) (run : RssiRun) : List (Nat × Option Int) :=
  run.values.mapIdx (fun k v =>
    let stop := run.stop - symTicks p (run.values.length - 1 - k)
    let lo := stop + cf.span / 2 - symTicks p 8
    (stop, if i.erasedIn cf.period lo (stop + cf.span / 2) = 0 then some v else none))

/-- Whether the windows of a run follow those already taken and lie within the input that the instance has read. -/
def Slice.runFits (x : Slice) (f : Forme) (r : InstRef) (run : RssiRun) : Bool :=
  let p := x.refRec r
  let t := x.refTun r
  (match (x.acqOf r).winStop with
  | some w => decide (w + symTicks p run.values.length ≤ run.stop + 1)
  | none => true) && decide (run.stop + (x.confOf f t).span / 2 ≤ (x.tunAt t).newest)

/-- The windows since the last command taken in: a value above the trigger threshold ends a DC trim (R135). -/
def State.takeRun (s : State) (c : Fin 4) (r : InstRef) (run : RssiRun) : State :=
  let x := s.sl c
  match x.inForce with
  | none => s
  | some f =>
    let p := x.refRec r
    let ws := (x.demod r).windows p (x.confOf f (x.refTun r)) run
    let first := run.stop - symTicks p run.values.length
    let s1 := s.modAcquirer c r (fun a =>
      ws.foldl (fun b w => b.window p w.1 w.2) (if a.winStop.isNone then { a with since := first } else a))
    if ((s1.sl c).acqOf r).lastAbove = (x.acqOf r).lastAbove then s1
    else s1.modAfe c (fun a => a.dcRise (x.refTun r))

/-- Whether a command with a run of windows acts: the acquirer runs, and the windows follow those taken. -/
def Slice.runDue (x : Slice) (r : InstRef) (run : RssiRun) : Bool :=
  x.ldbRuns r && (match x.inForce with | some f => x.runFits f r run | none => false)

/-! ### The acquirer (R190 to R193) -/

/-- NOISE_INTERVAL (R190): an interval of 125 ms ends; one in which the acquirer stayed IDLE, with TR_SW in the receive position,
counts. -/
def execNoiseInterval (c : Fin 4) (r : InstRef) (rssi : RssiRun) (s : State) :
    Host.Outcome State Fault Refusal :=
  run s fun s =>
    if !(s.sl c).runDue r rssi then s
    else
      let s1 := s.takeRun c r rssi
      let out := (s1.sl c).tx.trSw
      if rssi.stop < ((s1.sl c).acqOf r).since + msTicks 125 then s1
      else
        s1.modAcquirer c r (fun a =>
          let b := { a with dirty := a.acq != .idle || out, since := rssi.stop, lowest := none }
          match a.lowest with
          | some v => if a.dirty || a.acq != .idle || out then b else { b with noise := (v :: a.noise).take 8 }
          | none => b)

/-- TRIGGER (R191, R193): RSSI has stayed at or above NOISE + RISE_CB for 16 windows; the qualifier window opens. -/
def execTrigger (c : Fin 4) (r : InstRef) (rssi : RssiRun) (s : State) : Host.Outcome State Fault Refusal :=
  run s fun s =>
    if !(s.sl c).runDue r rssi then s
    else
      let s1 := s.takeRun c r rssi
      let a := (s1.sl c).acqOf r
      if a.acq = .idle ∧ !(s1.sl c).tx.trSw ∧ 16 ≤ a.riseRun then
        s1.modAcquirer c r (fun a => { a with
          acq := .triggered, triggers := count 16 1 a.triggers, rewindow := false, dirty := true, trigAt := rssi.stop })
      else s1

/-- The mean RSSI over the last 32 windows that gave a value, in 0.1 dB above NOISE (R190). -/
def Acq.refNow (a : Acq) : Int :=
  let l := a.recent.filterMap id
  if l = [] then 0 else l.sum / l.length - a.noiseMean.getD 0

/-- A burst taken from its sync word (R191, R192, R205). -/
def newBurst (w : SyncWord) (ref : Int) (captured erased : Bool) : Burst :=
  { syncTb := w.syncTb, ref := ref, header := 0, passed := false, length := 0, allDemod := false,
    captured := captured, erased := erased, freqErr := BitVec.ofInt 32 w.freqErr, live := false, asked := false }

/-- When a sync word ends. -/
def syncEnd (p : List Byte) (tb : Nat) : Nat := tb + symTicks p 32

/-- Whether a sync word qualifies (R190, R200): its correlation reaches SYNC_THR and its offset lies within the pull-in range. -/
def Acq.qualifies (a : Acq) (p : List Byte) (w : SyncWord) : Bool :=
  decide (ldbSyncThr p ≤ w.corr) && decide ((w.freqErr - a.centre p).natAbs ≤ ldbRs p * 1000 / 8)

/-- Whether a sync word ends in the qualifier window (R191). -/
def Acq.inWindow (a : Acq) (p : List Byte) (w : SyncWord) : Bool :=
  decide (a.trigAt < syncEnd p w.syncTb) && decide (syncEnd p w.syncTb ≤ a.trigAt + symTicks p 64)

/-- The capture condition (R192). -/
def Acq.captures (a : Acq) (p : List Byte) (w : SyncWord) : Bool :=
  match a.burst, a.capAt with
  | some b, some t =>
    decide (t ≤ syncEnd p w.syncTb) && decide (syncEnd p w.syncTb ≤ t + symTicks p 64) &&
      decide (b.syncTb * ldbRs p + 32 * 1024000000 ≤ w.syncTb * ldbRs p)
  | _, _ => false

/-- Whether the input from the start of a burst's preamble on holds an erased sample (R205). -/
def Slice.burstErased (x : Slice) (r : InstRef) (w : SyncWord) : Bool :=
  match x.inForce with
  | none => false
  | some f =>
    let cf := x.confOf f (x.refTun r)
    let p := x.refRec r
    decide (0 < (x.demod r).erasedIn cf.period (w.syncTb + cf.span / 2 - symTicks p 48) (syncEnd p w.syncTb + cf.span / 2))

/-- The receiving cell takes a burst (R191, R192). -/
def State.takeBurst (s : State) (c : Fin 4) (r : InstRef) (w : SyncWord) (captured : Bool) : State :=
  let erased := (s.sl c).burstErased r w
  s.modAcquirer c r (fun a => { a with
    acq := .header, burst := some (newBurst w a.refNow captured erased), capRun := 0, capAt := none })

/-- SYNC_QUALIFIED (R191 to R193, R199): a qualified sync word qualifies the trigger, or misses a burst in hand where it does not
meet the capture condition. -/
def execSyncQualified (c : Fin 4) (r : InstRef) (w : SyncWord) (s : State) (rssi : RssiRun := ⟨0, []⟩) :
    Host.Outcome State Fault Refusal :=
  run s fun s =>
    if !(s.sl c).runDue r rssi then s
    else
      let s0 := s.takeRun c r rssi
      let x := s0.sl c
      let p := x.refRec r
      let a := x.acqOf r
      if !a.qualifies p w then s0
      else
        let s1 := s0.modAcquirer c r (fun a => { a with lastSync := w.syncTb })
        match a.acq with
        | .idle => s1
        | .triggered =>
          if !a.inWindow p w then s1
          else
            let s2 := s1.takeBurst c r w false
            if (x.demod r).state = .search then
              (s2.modSl c (fun x => x.modDemod r (fun i => i.enter .sync s.real))).modAcquirer c r (fun a =>
                { a with lastPass := s.real })
            else s2
        | _ =>
          if a.captures p w then s0
          else s1.modAcquirer c r (fun a => { a with missed := count 16 1 a.missed, events := raise a.events 4 })

/-- QUALIFIER_WINDOW_CLOSE (R193): the window closes without a qualified sync word; the last RSSI that a window gave decides. -/
def execQualifierWindowClose (c : Fin 4) (r : InstRef) (rssi : RssiRun) (s : State) : Host.Outcome State Fault Refusal :=
  run s fun s =>
    if !(s.sl c).runDue r rssi then s
    else
      let s1 := s.takeRun c r rssi
      let x := s1.sl c
      let a := x.acqOf r
      let p := x.refRec r
      let stop := a.trigAt + symTicks p 64
      if a.acq ≠ .triggered ∨ rssi.stop < stop then s1
      else
        let held := match a.riseAt p, a.lastValue with
          | some n, some v => decide (n ≤ v)
          | _, _ => false
        s1.modAcquirer c r (fun a =>
          let b := { a with falseTrig := if a.rewindow then a.falseTrig else count 16 1 a.falseTrig }
          if held then { b with rewindow := true, trigAt := stop } else b.idle)

/-- CAPTURE (R192, R193, R195): the capture condition holds; the receiving cell drops the burst in hand, unless its
last symbol has been demodulated, and takes the new one. -/
def execCapture (c : Fin 4) (r : InstRef) (rssi : RssiRun) (w : SyncWord) (s : State) :
    Host.Outcome State Fault Refusal :=
  run s fun s =>
    if !(s.sl c).runDue r rssi then s
    else
      let s1 := s.takeRun c r rssi
      let x := s1.sl c
      let p := x.refRec r
      let a := x.acqOf r
      match a.burst with
      | none => s1
      | some b =>
        if !(a.qualifies p w && a.captures p w) then s1
        else
          let tracked := (x.demod r).state == .track
          let s2 :=
            if b.allDemod then s1.modAcquirer c r (fun a => a.toTail tracked)
            else if a.acq = .header then
              s1.modAcquirer c r (fun a => { a with reacquired := count 16 1 a.reacquired, events := raise a.events 2 })
            else
              ((s1.burstRecord c r b 3 0 0x8000 (a.refNow - b.ref) (burstBytes p b (syncEnd p w.syncTb))).burstFail c
                r).modAcquirer c r (fun a => { a with captured := count 16 1 a.captured, events := raise a.events 3 })
          (s2.takeBurst c r w true).modAcquirer c r (fun a => { a with lastSync := w.syncTb })

/-! ### The trellis decoders (R201 to R203) -/

/-- The generators of a block's code (R201). -/
def kindGens : BlockKind → List Nat
  | .header => [gen171, gen133]
  | .payload => [gen171, gen133]
  | .fic => [gen133, gen171, gen145, gen133]
  | .dabMsc => [gen133, gen171, gen145, gen133]
  | _ => [gen133, gen171, gen145, gen133, gen171, gen145]

/-- Whether a profile has blocks of this kind (R201). -/
def kindOf (profile : Nat) : BlockKind → Bool
  | .header => profile == 8
  | .payload => profile == 8
  | .fic => profile == 4
  | .dabMsc => profile == 4
  | _ => profile == 5 || profile == 6

/-- A value received on an OFDM symbol (R160, R165): scaled by the share of its FFT window that is not erased, and 0 where more
than 1/8 is erased, or for DAB more than 1/8 of the symbol before it, to which it is referred. -/
def Inst.ofdmSoft (i : Inst) (cf : ChainConf) (dab : Bool) (w : Nat × Nat) (v : Int) : Int :=
  let n := (w.2 - w.1) / cf.period
  let e := i.erasedIn cf.period w.1 w.2
  let r := if dab then i.erasedIn cf.period (w.1 - 1276000) (w.2 - 1276000) else 0
  if n < 8 * e ∨ n < 8 * r ∨ n = 0 then 0
  else
    let q : Int := v * ((n - e : Nat) : Int)
    q / (n : Int) + (if q % (n : Int) ≠ 0 ∧ Config.roundUp (n - e) v then 1 else 0)

/-- A value received on data symbol `j` of a burst (R160): 0 where more than half of the symbol's samples are erased. -/
def Inst.ldbSoft (i : Inst) (p : List Byte) (cf : ChainConf) (b : Burst) (j : Nat) (v : Int) : Int :=
  let lo := b.syncTb + symTicks p (32 + gridPos j) + cf.span / 2
  let hi := dataEnd p b j + cf.span / 2
  if hi - lo < 2 * i.erasedIn cf.period lo hi * cf.period then 0 else v

/-- The soft values that an instance presents for a block, 0 where punctured (R160, R201). -/
def Slice.presented (x : Slice) (f : Forme) (r : InstRef) (b : Option Burst) (q : SegReq) : List (List Int) :=
  let i := x.demod r
  let cf := x.confOf f q.tuning.val
  let base := match q.kind with | .payload => 70 | _ => 0
  q.soft.mapIdx (fun n step => step.map (fun o => match o, b with
    | none, _ => 0
    | some (_, v), some b => clampI (-8) 7 (i.ldbSoft (x.refRec r) cf b (base + n) v)
    | some (k, v), none =>
      clampI (-8) 7 (i.ofdmSoft cf (q.kind == .fic || q.kind == .dabMsc) (q.windows.getD k (0, 0)) v)))

/-- The values received for a block: a punctured position costs nothing (R203). -/
def segReceived (q : SegReq) : Nat := (q.soft.map (fun l => (l.filterMap id).length)).sum

/-- A block decoded to its end: what the decoders will have given once its segments have run. -/
def decodeAll (gens : List Nat) : Nat → List (Option Int) → List (List Int) → List Bool
  | 0, _, _ => []
  | n + 1, m, soft =>
    if soft = [] then []
    else
      let r := runSegment gens m soft
      r.1 ++ decodeAll gens n r.2.1 r.2.2

/-- The header that decoded bits hold. -/
def headerOf (bits : List Bool) : DWord := BitVec.ofNat 64 (ofBits (bits.take 64))

/-- Whether HCRC of a header is right (R186). -/
def ldbHcrcOk (h : DWord) : Bool := crc16 (be 6 (bitsOf h.toNat 16 48)) == ldbHcrc h

/-- Whether a header passes (R194). -/
def ldbPasses (h : DWord) : Bool := ldbHcrcOk h && ldbVersion h == 1 && decide (ldbLength h ≤ 1024)

/-- The burst for which an LDB instance requests this segment now (R194): the header once its last data symbol, at position 78,
has been demodulated, the payload once the last one of the burst has. -/
def Slice.segBurst (x : Slice) (r : InstRef) (q : SegReq) (now : Nat) : Option Burst :=
  let a := x.acqOf r
  let p := x.refRec r
  match a.burst with
  | none => none
  | some b =>
    let n := ldbLength b.header
    let due : Bool := match q.kind with
      | .header => a.acq == .header && q.soft.length == 70 && decide (dataEnd p b 69 ≤ now)
      | .payload => a.acq == .payload && q.soft.length == 8 * n + 38 && decide (dataEnd p b (8 * n + 107) ≤ now)
      | _ => false
    if due && !b.asked then some b else none

/-- The request of a burst is noted: the last data symbol of a payload, or of a header with LENGTH 0, has been demodulated
(R194, R195). -/
def Burst.ask (b : Burst) (kind : BlockKind) (soft : List (List Int)) : Burst :=
  let h := headerOf (decodeAll (kindGens kind) 1 startMetrics soft)
  { b with asked := true, allDemod := kind == .payload || (ldbPasses h && ldbLength h == 0) }

/-- A block is presented (R201, R202): its request joins those that wait, and its values count in the load. -/
def State.present (s : State) (c : Fin 4) (q : SegReq) : State :=
  let x := s.sl c
  match x.inForce, x.readerOf q.tuning.val with
  | some f, some r =>
    let prof := dmProfile (x.refRec r)
    let t := (x.demod r).state
    let b := if prof = 8 then x.segBurst r q s.tb else none
    if !kindOf prof q.kind ∨ !x.refLive r ∨ q.soft = [] ∨ (prof = 8 ∧ b = none) ∨ (prof ≠ 8 ∧ t ≠ .sync ∧ t ≠ .track) then s
    else
      let soft := x.presented f r b q
      let w : Segment :=
        { tuning := q.tuning, kind := q.kind, burst := (b.map (fun b => b.syncTb)).getD 0, soft := soft,
          metrics := startMetrics, out := [], asked := s.tb }
      let s1 := s.modSl c (fun x => { x with trl := { x.trl with
        wait := x.trl.wait ++ [w], loadNow := x.trl.loadNow + segReceived q } })
      if prof = 8 then
        s1.modAcquirer c r (fun a => { a with burst := a.burst.map (fun b => b.ask q.kind soft) })
      else s1
  | _, _ => s

/-- Whether a decoder runs a segment of tuning `t`. -/
def Trl.runs (k : Trl) (t : Fin 32) : Bool :=
  k.run.toList.any (fun w => match w with | some w => w.tuning == t | none => false)

/-- The first waiting segment of each tuning that has none running: what the arbiter sees (R202). -/
def Trl.requests (k : Trl) : List Segment :=
  (List.finRange 32).filterMap (fun t => if k.runs t then none else k.wait.find? (fun w => w.tuning == t))

/-- One grant of the arbiter on a free decoder (R27, R202). -/
def Trl.grant (t : Trl) (now : Nat) (d : Nat) : Trl :=
  if (vget t.run d none).isSome then t
  else
    match arbPick t.ptr (t.requests.map (fun w => w.tuning.val)) with
    | none => t
    | some i =>
      match firstIdx (fun (w : Segment) => w.tuning.val == i) t.wait 0 with
      | none => t
      | some k =>
        match t.wait[k]? with
        | none => t
        | some w =>
          { t with ptr := arbNext 32 i, run := vmod t.run d (fun _ => some w), wait := dropIdx k t.wait,
                   waitMax := max t.waitMax (sat 16 ((now - w.asked) / 1024)) }

/-- TRELLIS_GRANT (R202): the blocks presented now join those that wait, and free decoders take one segment each. -/
def execTrellisGrant (c : Fin 4) (reqs : List SegReq) (s : State) : Host.Outcome State Fault Refusal :=
  run s fun s =>
    if !(s.sl c).live then s
    else
      (reqs.foldl (fun u q => u.present c q) s).modSl c (fun x => { x with
        err := { x.err with resetting := x.err.resetting.filter (fun e => e.1 != 10) },
        trl := (x.trl.grant s.tb 0).grant s.tb 1 })

/-! ### What a segment decides (R193, R194, R196) -/

/-- The measurements that a passing burst leaves (R200). -/
def Inst.burstMeasure (i : Inst) (level dbm : Int) (snr : Nat) (freqErr : Word) : Inst :=
  { i with quality := mkWord [(16, 16, 0xFFFF), (0, 16, snr)], freqErr := freqErr, pilot := true,
           level := mkWord [(16, 16, twos 16 dbm), (0, 16, twos 16 level)] }

/-- A burst ends with status OK (R193, R196, R200): its record, its measurements and its unit. -/
def State.burstOk (s : State) (c : Fin 4) (r : InstRef) (b : Burst) (payload : List Byte) (snr : Nat) (live : Bool) :
    State :=
  let x := s.sl c
  let p := x.refRec r
  let level := ((x.acqOf r).noiseMean).getD 0 + b.ref
  let dbm := match x.inForce with | some f => x.levelDbm f (x.refTun r) level | none => level
  let s1 := s.modSl c (fun x => x.modDemod r (fun i =>
    ({ i with unitOk := count 32 1 i.unitOk } : Inst).burstMeasure level dbm snr b.freqErr))
  let list := if ldbType b.header = 2 then
      let a := x.afAt ((x.keyOf r).getD 0)
      if a.ref = some (ldbNetwork b.header) then
        some ((List.range (payload.length / 8)).filterMap (fun i =>
          let e := (payload.drop (8 * i)).take 8
          if u8 e 6 = u8 (dmParams p) 0 ∧ u8 e 7 = u8 (dmParams p) 1 then some (b32 e 0) else none))
      else none
    else none
  let u : HeldUnit :=
    { ts := burstTs p b, ok := true, unit := .ldb b.header payload, size := unitSize (.ldb b.header payload),
      reads := { ident := none, list := list, time := none, alarms := [], assign := none } }
  let s2 := if live then s1.handUnit c r u else s1
  s2.burstRecord c r b 0 0 snr 0 payload.length

/-- Where a burst stands whose block completes: in the receiving cell, or beside it (R195). -/
inductive BurstSeat where
  | hand | beside | gone
  deriving DecidableEq, Repr

/-- The burst with SYNC_TB `tb` and its place. -/
def Acq.seat (a : Acq) (tb : Nat) : BurstSeat × Option Burst :=
  match a.tails.find? (fun b => b.syncTb == tb) with
  | some b => (.beside, some b)
  | none =>
    match a.burst with
    | some b => if b.syncTb = tb then (.hand, some b) else (.gone, none)
    | none => (.gone, none)

/-- The burst with SYNC_TB `tb` has ended: it leaves its place. -/
def Acq.leave (a : Acq) (seat : BurstSeat) (tb : Nat) : Acq :=
  match seat with
  | .hand => a.idle
  | _ => { a with tails := a.tails.filter (fun b => b.syncTb != tb) }

/-- A header is decoded (R193, R194, R199). -/
def State.headerDone (s : State) (c : Fin 4) (r : InstRef) (seat : BurstSeat) (b : Burst) (h : DWord) (snr : Nat) : State :=
  let p := (s.sl c).refRec r
  let b1 : Burst := { b with header := h, length := ldbLength h }
  let fail (outcome : Nat) : State :=
    let s1 := s.modAcquirer c r (fun a => { (a.leave seat b.syncTb) with hdrFail := count 16 1 a.hdrFail })
    if ldbReport p then s1.burstRecord c r b1 outcome 0 snr 0 0 else s1
  if !ldbHcrcOk h then fail 1
  else if !ldbPasses h then fail 6
  else
    let b2 : Burst := { b1 with passed := true, asked := false }
    let s1 := s.modAcquirer c r (fun a => { a with
      hdrOk := count 16 1 a.hdrOk, events := raise a.events 0, lastPass := s.real,
      acq := if seat = .hand then .payload else a.acq,
      burst := if seat = .hand then some b2 else a.burst,
      offsets := (sext 32 b.freqErr.toNat :: a.offsets).take 8 })
    let s2 := if ((s1.sl c).demod r).state = .sync then s1.toTrack c r else s1
    let s3 := if ((s2.sl c).demod r).state = .track then
        s2.afRead c r (some (ldbNetwork h)) none (burstTs p b) else s2
    if ldbLength h = 0 then
      (s3.modAcquirer c r (fun a => a.leave seat b.syncTb)).burstOk c r b2 [] snr
        (if seat = .hand then ((s3.sl c).demod r).state == .track else b.live)
    else s3

/-- A payload is decoded (R187, R193). -/
def State.payloadDone (s : State) (c : Fin 4) (r : InstRef) (seat : BurstSeat) (b : Burst) (bytes : List Byte) (snr : Nat) :
    State :=
  let n := ldbLength b.header
  let data := bytes.take n
  let live := if seat = .hand then ((s.sl c).demod r).state == .track else b.live
  let s1 := s.modAcquirer c r (fun a => a.leave seat b.syncTb)
  if crc32 data = ofBe (bytes.drop n) then
    (s1.modAcquirer c r (fun a => { a with payOk := count 16 1 a.payOk, events := raise a.events 1 })).burstOk c r b data snr live
  else
    ((s1.modAcquirer c r (fun a => { a with payFail := count 16 1 a.payFail })).burstRecord c r b 2 0 snr 0 n).burstFail c r

/-- What a decoded block means for the LDB instance that presented it. A burst that was dropped meanwhile needs none. -/
def State.blockDone (s : State) (c : Fin 4) (r : InstRef) (w : Segment) (bits : List Bool) (snr : Nat) : State :=
  let t := ((s.sl c).acqOf r).seat w.burst
  match w.kind, t.2 with
  | .header, some b => s.headerDone c r t.1 b (headerOf bits) snr
  | .payload, some b => s.payloadDone c r t.1 b (packBits (ldbLength b.header + 4) (bits.take (8 * (ldbLength b.header + 4)))) snr
  | _, _ => s

/-- A segment has run (R202): its decisions and the metrics are kept and the next segment of the block is presented, first of
those of its tuning; the next one of the tuning waits from now on. -/
def Trl.proceed (k : Trl) (d now : Nat) (next : Option Segment) (t : Fin 32) : Trl :=
  let k1 := { k with run := vmod k.run d (fun _ => none), segs := vmod k.segs d (count 32 1) }
  match next with
  | some w => { k1 with wait := { w with asked := now } :: k1.wait }
  | none =>
    match firstIdx (fun (w : Segment) => w.tuning == t) k1.wait 0 with
    | some i => { k1 with wait := lmod k1.wait i (fun w => { w with asked := now }) }
    | none => k1

/-- SEGMENT_COMPLETE (R201, R202): decoder `d` ends its segment; with the last one of its block the instance decides what the
block ends. The decisions of OFDM blocks are encoded again for CH_BER (R182). -/
def execSegmentComplete (c : Fin 4) (d : Fin 2) (snr : BitVec 16) (s : State) : Host.Outcome State Fault Refusal :=
  run s fun s =>
    match (s.sl c).trl.run.get d with
    | none => s
    | some w =>
      let v := runSegment (kindGens w.kind) w.metrics w.soft
      let bits := w.out ++ v.1
      let next := if v.2.2 = [] then none else some { w with soft := v.2.2, metrics := v.2.1, out := bits }
      let s1 := s.modSl c (fun x => { x with trl := x.trl.proceed d.val s.tb next w.tuning })
      match (s1.sl c).readerOf w.tuning.val with
      | none => s1
      | some r =>
        if dmProfile ((s1.sl c).refRec r) = 8 then (if next.isNone then s1.blockDone c r w bits snr.toNat else s1)
        else
          let e := reencode (kindGens w.kind) (encoderState 0 w.out) v.1 (w.soft.take v.1.length)
          s1.modSl c (fun x => x.modDemod r (fun i => { i with berErr := i.berErr + e.1, berSeen := i.berSeen + e.2 }))

/-! ### Retunes (R151, R166) -/

/-- What a retune of a tuning does to the instance that reads it (R166, R197). -/
def State.retuneInst (s : State) (c : Fin 4) (r : InstRef) : State :=
  let s1 := (s.abortBurst c r 2).modAcquirer c r (fun a => { a with offsets := [] })
  if ((s1.sl c).demod r).state.busy then s1.toSearch c r else s1

/-- NCO_RETUNE (R151): NCO_FREQ takes effect at the boundary after its write. -/
def execNcoRetune (c : Fin 4) (t : Fin 32) (s : State) : Host.Outcome State Fault Refusal :=
  run s fun s =>
    let x := s.sl c
    let u := x.tunAt t.val
    match x.inForce, u.ncoPend, u.lastTs with
    | some f, some at_, some last =>
      if x.tunRuns t.val ∧ at_ ≤ last then
        let s1 := s.modSl c (fun x => x.modTun t.val (fun u =>
          { u with ncoNow := u.ncoReg, ncoPend := none, unsettled := max u.unsettled ((x.confOf f t.val).settle + 1) }))
        match x.readerOf t.val with
        | some r => s1.retuneInst c r
        | none => s1
      else s
    | _, _, _ => s

/-- The RSSI windows up to now of the acquirer that listens to a tuning (R190). -/
def State.dcRun (s : State) (c : Fin 4) (t : Fin 32) (rssi : RssiRun) : State :=
  match (s.sl c).readerOf t.val with
  | none => s
  | some r => if rssi.values ≠ [] ∧ (s.sl c).runDue r rssi then s.takeRun c r rssi else s

/-- CALBG_DC_TRIM (R134, R135): with no RSSI above the threshold for 2 ms a trim of the tuning starts; its next command ends
it, and the DC correction moves at the next sample boundary. `rssi` are the windows of the acquirer since its last command,
where it has any: a rise among them abandons the trim. -/
def execCalbgDcTrim (c : Fin 4) (t : Fin 32) (di dq : Int) (rssi : RssiRun) (s : State) :
    Host.Outcome State Fault Refusal :=
  run s fun s =>
    let s := s.dcRun c t rssi
    let x := s.sl c
    match x.inForce with
    | none => s
    | some f =>
      if !(s.calBgOn c) || x.clk.coast || !f.feedsLdb t.val || !x.dcQuiet f t.val s.tb then s
      else if x.afe.bgDc.contains t.val then
        (s.modAfe c (fun a => ({ a with bgDc := a.bgDc.filter (fun k => k != t.val) }).bgDone)).modSl c
          (fun x => x.modTun t.val (fun u =>
            { u with dcPend := some ⟨u.dc.re + clampI (-dcLimit) dcLimit di, u.dc.im + clampI (-dcLimit) dcLimit dq⟩ }))
      else s.modAfe c (fun a => { a with bgDc := a.bgDc ++ [t.val] })

end Sys2Proof.Machine
end

