-- ==== Sys2Proof/Machine/Transmit.lean ====
section
/-! DEFINITION. The return-channel transmitter (R298 to R323). -/

namespace Sys2Proof.Machine

open Sys2Proof

/-! ### TX_SEND (R304 to R307) -/

/-- Whether the fields of a TX_SEND body are in range (R304, R305). -/
def txBodyOk (b : List Byte) (now : Nat) : Bool :=
  let auth := (u8 b 0).testBit 0
  decide (u8 b 0 < 4) && decide (u8 b 1 < 4) && (auth || (u8 b 5 == 0 && u8 b 6 == 0)) && decide (u8 b 6 < 4)
    && u8 b 7 == 0 && (u32 b 8 == 0 || within 30000000 470000000 (u32 b 8))
    && (u16 b 12 == 0x7FFF || (decide (-120 ≤ sext 16 (u16 b 12)) && decide (sext 16 (u16 b 12) ≤ 12)))
    && (auth || decide (u16 b 14 ≤ 4096)) && (u64 b 16 == 0 || decide (u64 b 16 ≤ now + 2 ^ 40))

/-- The command as it is taken, before its message is known (R304, R307). -/
def takeTx (c : Fin 4) (cmd : Command) (p : List Byte) (t : Tx) (tokens now : Nat) : TxCmd :=
  let b := cmd.body
  let auth := (u8 b 0).testBit 0
  let atTb := u64 b 16
  let leads := usTicks (txCoexLead p + bf t.paCfg 8 8 + bf t.paCfg 0 8)
  let planned := if atTb = 0 ∨ atTb < now + leads then now else atTb - leads
  let freq := if u32 b 8 = 0 then txFreq p else u32 b 8
  { cmd := cmd.ref, auth := auth, priority := (u8 b 0).testBit 1, type := u8 b 1, network := u16 b 2,
    seq := u8 b 4, label := BitVec.ofNat 8 (u8 b 5), tagLen := u8 b 6, freq := freq,
    level := BitVec.ofNat 16 (if u16 b 12 = 0x7FFF then txLevel p else u16 b 12), atTb := atTb, holdFrom := planned,
    planned := planned, message := slice b 24 (u16 b 14), counter := 0, holdUs := txHoldMax p,
    rampUs := txRampUs p, symrate := if txSymrate p = 1 then 9600 else 4800, coexLead := txCoexLead p,
    trLead := bf t.paCfg 8 8, paLead := bf t.paCfg 0 8, biasMv := bf t.paCfg 16 12,
    gntWait := bf t.coexCfg 0 16, gntIgnore := bit t.coexCfg 31, revMax := bf t.senseCfg 16 12,
    fwdMin := bf t.senseCfg 0 12, tokens := tokens, statusQueue := localQ c (txStatusQueue p),
    change := t.calFreq != freq, late := false, waited := false, abbreviated := false, emitted := false,
    burst := 0, sent := 0, keyup := 0, startTb := 0, endTb := 0, phase := .none, phaseAt := 0, burstAt := 0,
    rampSym := 0, gFrom := 0, cut := false, stage := 0, status := 0, paRose := false, tagging := false, inhibit := false, fwd := 0, rev := 0 }

/-- A command that fails a check: reported, nothing emitted, the state unchanged (R305, R311). -/
def State.txFail (s : State) (c : Fin 4) (k : TxCmd) (status : Nat) : State :=
  (s.modTx c (fun t => t.countEnd status)).txReport c k status

/-- A command that passed its checks (R305, R311): tokens are asked for, a channel change begins. -/
def State.txTake (s : State) (c : Fin 4) (k : TxCmd) : State :=
  let s1 := s.modSl c (fun x =>
    let t := { x.tx with state := .prepare, cmd := some k }
    { x with
      tx := if k.change && t.wantFreq != k.freq then t.tune k.freq else t })
  (if k.tokens = 0 then s1 else s1.ask (txReq c) k.tokens).txCheck c

/-- TX_SEND (R305): the transmitter takes a burst command while it is IDLE or INHIBIT; a synthesiser trim is abandoned
(R135). -/
def execTxSend (c : Fin 4) (s : State) : Host.Outcome State Fault Refusal :=
  run s fun s =>
    let t := (s.sl c).tx
    match (s.sl c).inForce with
    | none => s
    | some f =>
      match f.tx with
      | none => s
      | some p =>
        match s.inHand (localQ c (txCmdQueue p)) 0x50 with
        | none => s
        | some cmd =>
          if t.state ≠ .idle ∧ t.state ≠ .inhibit then s
          else
            let s1 := (s.keep cmd).modAfe c (fun a => a.endSynth s.tb)
            let k := takeTx c cmd p t f.txTokens s.tb
            if t.state = .inhibit then s1.txFail c k Status.paFault
            else if !txBodyOk cmd.body s.tb then s1.txFail c k Status.badParam
            else if !k.auth then s1.txTake c k
            else if 4096 < 10 + k.message.length + 4 * (k.tagLen + 1) then s1.txFail c k Status.length
            else if txGenSlot p = 0xFF then s1.txFail c k Status.keyEmpty
            else
              match s1.askTag c (txGenSlot p) k.label.toNat k.tagLen k.message with
              | (s2, .error code) => s2.txFail c k code
              | (s2, .ok (env, n)) => s2.txTake c { k with message := env, counter := n, tagging := true }

/-! ### Phases of a key-up and a burst (R308 to R310) -/

/-- Whether the command in hand is in a phase and a time after its beginning has come. -/
def State.phaseDue (s : State) (c : Fin 4) (ph : TxPhase) (ticks : TxCmd → Nat) : Option TxCmd :=
  match (s.sl c).tx.cmd with
  | some k => if k.phase = ph ∧ k.phaseAt + ticks k ≤ s.real then some k else none
  | none => none

/-- PLANNED_KEYUP (R307, R311, R316): the key-up begins, waits for the end of a window, or the hold starts. -/
def execPlannedKeyup (c : Fin 4) (s : State) : Host.Outcome State Fault Refusal :=
  run s fun s => s.txCheck c

/-- TX_HOLD_EXPIRED (R302). -/
def execTxHoldExpired (c : Fin 4) (s : State) : Host.Outcome State Fault Refusal :=
  run s fun s =>
    match (s.sl c).tx.cmd with
    | none => s
    | some k =>
      if (s.sl c).tx.state ≠ .prepare ∨ s.txReady c k ∨ s.tb < k.holdFrom + usTicks k.holdUs then s
      else
        let ready := (s.sl c).synthReady k.freq
        let s1 := s.modTx c (fun t => { t with events := raise t.events 2 })
        let s2 := if ready then { s1 with pwr := { s1.pwr with txExpired := count 16 1 s1.pwr.txExpired } } else s1
        s2.endTx c (if ready then Status.budget else Status.synth)

/-- TR_SW_TRANSMIT (R308 step 2, R319): LDB acquisition of the slice stops. -/
def execTrSwTransmit (c : Fin 4) (s : State) : Host.Outcome State Fault Refusal :=
  run s fun s =>
    match s.phaseDue c .req (fun k => usTicks k.coexLead) with
    | none => s
    | some _ =>
      let s1 := (s.modTx c (fun t => { t with trSw := true })).modCmd c (fun k =>
        { k with phase := .tr, phaseAt := k.phaseAt + usTicks k.coexLead })
      let refs : List InstRef := (List.range 48).map (fun n => .inst (Fin.ofNat 48 n))
        ++ (List.range 32).map (fun t => .cand (Fin.ofNat 32 t))
      refs.foldl (fun u r =>
        if (u.sl c).ldbRuns r then (u.abortBurst c r 5).modAcquirer c r (fun a => { a with dirty := true }) else u) s1

/-- The amplifier samples that came with a command (R317, R321). -/
def State.senseMax (s : State) (c : Fin 4) (fwd rev : Nat) : State :=
  (s.modTx c (fun t => { t with sense := if t.paEn then some (fwd, rev) else t.sense })).modCmd c (fun k =>
    { k with fwd := max k.fwd fwd, rev := max k.rev rev })

/-- The amplifier is sampled (R317): its detectors' levels are free values. -/
def State.senseFree (s : State) (c : Fin 4) : State :=
  let w := s.freeWord
  if (s.sl c).tx.paEn then w.2.senseMax c (bf w.1 0 12) (bf w.1 16 12) else s

/-- The windows of a slice with the time up to `now` counted at the present level of the filtered COEX_GNT (R315). -/
def RxWin.account (w : RxWin) (gnt : Bool) (now : Nat) : RxWin :=
  let lo := max w.start w.mark
  { w with ungranted := w.ungranted + (if gnt then 0 else min now w.stop - lo), mark := max w.mark now }

/-- The filtered COEX_GNT changes (R312, R315). -/
def State.setGrant (s : State) (c : Fin 4) (gnt : Bool) : State :=
  s.modTx c (fun t => { t with gnt := gnt, windows := t.windows.map (fun w => w.account t.gnt s.tb) })

/-- PA_EN rises at real tick `now` (R308 step 3), and the amplifier is sampled from then on (R317). -/
def State.paRise (s : State) (c : Fin 4) (now : Nat) : State :=
  ((s.modTx c (fun t => { t with paEn := true })).modCmd c (fun k =>
    { k with phase := .pa, phaseAt := now, paRose := true, stage := 2 })).senseFree c

/-- PA_EN_RISE (R308 step 3, R312): with the grant PA_EN rises, without it the wait begins. -/
def execPaEnRise (c : Fin 4) (s : State) : Host.Outcome State Fault Refusal :=
  run s fun s =>
    match s.phaseDue c .tr (fun k => usTicks k.trLead) with
    | none => s
    | some k =>
      let now := k.phaseAt + usTicks k.trLead
      if !(s.sl c).synthReady k.freq then s.txRelease c Status.synth s.real
      else if (s.sl c).tx.gnt ∨ k.gntIgnore then s.paRise c now
      else s.modCmd c (fun k => { k with phase := .gntWait, phaseAt := now, waited := true })

/-- COEX_GRANT (R312): the filtered COEX_GNT is asserted. -/
def execCoexGrant (c : Fin 4) (s : State) : Host.Outcome State Fault Refusal :=
  run s fun s =>
    let s1 := s.setGrant c true
    match (s.sl c).tx.cmd with
    | some k =>
      if k.phase = .gntWait ∧ (s.sl c).synthReady k.freq then s1.paRise c s.real else s1
    | none => s1

/-- GNT_WAIT_EXPIRED (R312). -/
def execGntWaitExpired (c : Fin 4) (s : State) : Host.Outcome State Fault Refusal :=
  run s fun s =>
    match s.phaseDue c .gntWait (fun k => usTicks k.gntWait) with
    | none => s
    | some _ => s.txRelease c Status.coexDenied s.real

/-- COEX_WITHDRAWN (R312, R313): the filtered COEX_GNT falls. -/
def execCoexWithdrawn (c : Fin 4) (s : State) : Host.Outcome State Fault Refusal :=
  run s fun s =>
    let s1 := s.setGrant c false
    match (s.sl c).tx.cmd with
    | some k =>
      if !k.gntIgnore ∧ (k.phase = .pa ∨ k.phase = .burst ∨ k.phase = .rampDown ∨ k.phase = .gap) then
        s1.txAbort c Status.coexLost
      else s1
    | none => s1

/-- Burst `k.burst` of the message starts at T0, real tick `now` (R308 step 4, R309). -/
def State.startBurst (s : State) (c : Fin 4) (k : TxCmd) (now : Nat) : State :=
  let tb := s.tbOf now
  (((s.modTx c (fun t => { t with state := .on, paBias := k.biasMv })).modCmd c (fun k =>
    { k with phase := .burst, phaseAt := now, burstAt := now, emitted := true, stage := 3,
             startTb := if k.emitted then k.startTb else tb,
             late := k.late || (!k.emitted && k.atTb != 0 && decide (k.atTb < tb)) })).emit
    (.burstStart c tb k.freq k.level k.rampUs k.symrate (k.symbols k.burst))).emit (.paBias c tb k.biasUp)

/-- RAMP_UP (R308 step 4): T0. -/
def execRampUp (c : Fin 4) (s : State) : Host.Outcome State Fault Refusal :=
  run s fun s =>
    match s.phaseDue c .pa (fun k => usTicks k.paLead) with
    | none => s
    | some k =>
      if !(s.sl c).synthReady k.freq then s.txRelease c Status.synth s.real
      else s.startBurst c k (k.phaseAt + usTicks k.paLead)

/-- RAMP_DOWN (R309): the last coded-region symbol has ended; `fwdMv` and `revMv` are the highest samples of the
burst (R321). -/
def execRampDown (c : Fin 4) (fwdMv revMv : BitVec 12) (s : State) : Host.Outcome State Fault Refusal :=
  run s fun s =>
    match s.phaseDue c .burst (fun k => k.symTicks (k.bodySyms k.burst)) with
    | none => s
    | some k =>
      (((s.senseMax c fwdMv.toNat revMv.toNat).modTx c (fun t => { t with paBias := 0 })).modCmd c (fun k =>
        { k with phase := .rampDown, rampSym := k.bodySyms k.burst, gFrom := 2 ^ 80 })).rampOut c
          (k.symAt (k.bodySyms k.burst)) k.rampUs

/-- The end E of the ramp-down field (R185, R309). -/
def TxCmd.endSym (k : TxCmd) : Nat := k.rampSym + k.rampSyms

/-- BURST_END (R309, R310): E. The next burst follows, or the transmitter releases. -/
def execBurstEnd (c : Fin 4) (s : State) : Host.Outcome State Fault Refusal :=
  run s fun s =>
    match s.phaseDue c .rampDown (fun k => k.symTicks k.endSym) with
    | none => s
    | some k =>
      let e := k.symAt k.endSym
      let sent := k.sent + (if k.cut then 0 else 1)
      let s1 := (s.modTx c (fun t => { t with lastRampDown := e })).modCmd c (fun k =>
        { k with endTb := s.tbOf e, sent := sent, phase := .gap, phaseAt := e })
      if k.cut ∨ (s.sl c).tx.cancelReq then s1.txRelease c Status.rejected e
      else if k.burst + 1 < k.total then s1
      else (s1.modCmd c (fun k => { k with stage := 4 })).txRelease c Status.ok e

/-- NEXT_BURST (R310): the next burst of the message, 1,000 µs after E. -/
def execNextBurst (c : Fin 4) (s : State) : Host.Outcome State Fault Refusal :=
  run s fun s =>
    match s.phaseDue c .gap (fun _ => usTicks 1000) with
    | none => s
    | some k =>
      let n : TxCmd := { k with burst := k.burst + 1 }
      (s.modCmd c (fun _ => n)).startBurst c n (k.phaseAt + usTicks 1000)

/-- E' of an abbreviated ramp-down (R309, R310). -/
def State.abbrevEnd (s : State) (c : Fin 4) : State :=
  match s.phaseDue c .abbrev (fun _ => usTicks 8) with
  | none => s
  | some k =>
    let e := k.phaseAt + usTicks 8
    ((s.modTx c (fun t => { t with lastRampDown := e })).modCmd c (fun k => { k with endTb := s.tbOf e })).txRelease c
      k.status.toNat e

/-- TR_SW_RELEASE (R310): TR_SW returns PA_EN_LEAD_US after PA_EN fell. -/
def execTrSwRelease (c : Fin 4) (s : State) : Host.Outcome State Fault Refusal :=
  run s fun s =>
    match s.phaseDue c .paOff (fun k => usTicks k.paLead) with
    | none => s
    | some k =>
      (s.modTx c (fun t => { t with trSw := false })).modCmd c (fun _ =>
        { k with phase := .trOff, phaseAt := k.phaseAt + usTicks k.paLead })

/-- COEX_RELEASE (R310): COEX_REQ falls and the command ends. -/
def execCoexRelease (c : Fin 4) (s : State) : Host.Outcome State Fault Refusal :=
  run s fun s =>
    match s.phaseDue c .trOff (fun k => usTicks k.trLead) with
    | none => s
    | some k => s.endTx c k.status.toNat

/-! ### The synthesiser (R300, R301, R303) -/

/-- DIV of a carrier (R300): the code of the smallest D with f * D at 1.8 GHz or above. -/
def synthDiv (f : Nat) : Nat :=
  if 1800000000 ≤ f * 8 then 0 else if 1800000000 ≤ f * 16 then 1 else if 1800000000 ≤ f * 32 then 2 else 3

/-- INT and FRAC of a carrier (R300): the VCO's multiple of 64 MHz, with 24 fraction bits. -/
def synthWords (f : Nat) : Nat × Nat :=
  let n := roundDiv (f * (8 * 2 ^ synthDiv f) * 2 ^ 24) 64000000
  (n / 2 ^ 24, n % 2 ^ 24)

/-- SYNTH_LOCKED (R301): a channel calibration has ended in lock, at most 300 µs after its start. -/
def execSynthLocked (c : Fin 4) (band : Fin 128) (us : Nat) (s : State) : Host.Outcome State Fault Refusal :=
  run s fun s =>
    let t := (s.sl c).tx
    let vco : Bool := match (s.sl c).afe.calRun with | some r => r.kind == 4 | none => false
    if t.lock ∨ t.wantFreq = 0 ∨ (s.sl c).clk.coast ∨ vco then s
    else
      (s.modTx c (fun t => { t with
        lock := true, calFreq := t.wantFreq, wantFreq := 0, band := band.val, div := synthDiv t.wantFreq,
        vcoInt := (synthWords t.wantFreq).1, vcoFrac := (synthWords t.wantFreq).2, lockUs := sat 10 us })).txCheck c

/-- SYNTH_LOCK_LOSS (R303). -/
def execSynthLockLoss (c : Fin 4) (s : State) : Host.Outcome State Fault Refusal :=
  run s fun s =>
    let t := (s.sl c).tx
    if !t.lock then s
    else
      let s1 := s.modTx c (fun t => { (t.tune t.calFreq) with
        calFreq := 0, events := raise t.events 1,
        lockLoss := if t.paEn then count 8 1 t.lockLoss else t.lockLoss })
      match t.cmd with
      | some k => if k.phase = .none then s1.txCheck c else s1.txAbort c Status.synth
      | none => s1

/-! ### Amplifier protection and the host's requests (R317, R318) -/

/-- Whether samples of 1 µs each, the last one now, make an amplifier fault (R317): PA_REV above REV_MAX_MV in the last
two, or PA_FWD below FWD_MIN_MV in the last 16, all between the end of a ramp-up and the start of its ramp-down. -/
def TxCmd.ampFault (k : TxCmd) (samples : List (BitVec 12 × BitVec 12)) (now : Nat) : Bool :=
  let last (n : Nat) : List (BitVec 12 × BitVec 12) := samples.drop (samples.length - n)
  let high := k.revMax != 0 && decide (2 ≤ samples.length) && (last 2).all (fun v => decide (k.revMax < v.2.toNat))
    && (k.phase != .pa || decide (k.phaseAt + usTicks 1 ≤ now))
  let low := k.fwdMin != 0 && decide (16 ≤ samples.length) && (last 16).all (fun v => decide (v.1.toNat < k.fwdMin))
    && k.phase == .burst && decide (k.burstAt + usTicks (k.rampUs + 15) ≤ now)
  high || low

/-- AMPLIFIER_FAULT (R317): the samples up to now of PA_FWD and PA_REV exceed a threshold while PA_EN is high. -/
def execAmplifierFault (c : Fin 4) (fwdMv revMv : List (BitVec 12)) (s : State) : Host.Outcome State Fault Refusal :=
  run s fun s =>
    let t := (s.sl c).tx
    let samples := fwdMv.zip revMv
    match t.cmd with
    | none => s
    | some k =>
      if !t.paEn ∨ !k.ampFault samples s.real then s
      else
        (((samples.foldl (fun u v => u.senseMax c v.1.toNat v.2.toNat) s).modTx c (fun t => { t with
          paFault := count 8 1 t.paFault, events := raise t.events 5 })).modCmd c (fun k => { k with inhibit := true })).txAbort
            c Status.paFault

/-- CANCEL set (R318). -/
def State.txCancel (s : State) (c : Fin 4) : State :=
  match (s.sl c).tx.cmd with
  | none => s
  | some k =>
    let s1 := s.modTx c (fun t => { t with cancelReq := true })
    match k.phase with
    | .none => s1.endTx c Status.rejected
    | .burst =>
      let n := ceilDiv ((s.real - k.burstAt) * k.symrate) 1024000000
      ((s1.modTx c (fun t => { t with paBias := 0 })).modCmd c (fun k =>
        { k with phase := .rampDown, rampSym := n, gFrom := k.gNow (k.symAt n), cut := true })).rampOut c (k.symAt n)
          k.rampUs
    | .rampDown => s1
    | .gap => s1.txRelease c Status.rejected s.real
    | .abbrev => s1
    | .paOff => s1
    | .trOff => s1
    | _ => s1.txRelease c Status.rejected s.real

/-- FAULT_CLR set (R311, R317): INHIBIT ends. -/
def Tx.faultClear (t : Tx) : Tx := if t.state = .inhibit then { t with state := .idle } else t

/-- A write to TXC.CTL (R323). -/
def State.writeTxCtl (s : State) (c : Fin 4) (v : Word) : State :=
  let s1 := if bit v 1 then s.modTx c Tx.faultClear else s
  if bit v 0 then s1.txCancel c else s1

/-- CANCEL (R318). -/
def execCancel (c : Fin 4) (s : State) : Host.Outcome State Fault Refusal :=
  run s fun s => s.sliceWrite c 0xE0008 (fun s => s.writeTxCtl c 1)

/-- FAULT_CLR (R317). -/
def execFaultClr (c : Fin 4) (s : State) : Host.Outcome State Fault Refusal :=
  run s fun s => s.sliceWrite c 0xE0008 (fun s => s.writeTxCtl c 2)

/-- The MDLL of the slice loses lock (R303, R311, R314). -/
def State.txClockLoss (s : State) (c : Fin 4) : State :=
  let pa := (s.sl c).tx.paEn
  let s1 := s.modTx c (fun t => { t with
    lock := false, calFreq := 0, wantFreq := 0, band := 0xFF,
    clockLoss := if pa then count 8 1 t.clockLoss else t.clockLoss })
  match (s.sl c).tx.cmd with
  | some k => if k.phase = .none then s1.txCheck c else s1.txAbort c Status.clockLoss
  | none => s1

/-- The slice leaves COAST (R301): a burst that waits calibrates its channel. -/
def State.txRelock (s : State) (c : Fin 4) : State :=
  s.modTx c (fun t => match t.cmd with | some k => { (t.tune k.freq) with cmd := some { k with change := true } } | none => t)

/-! ### Priority receive windows (R315, R316) -/

/-- TX_RXWIN (R315). -/
def execTxRxwin (c : Fin 4) (s : State) : Host.Outcome State Fault Refusal :=
  run s fun s =>
    match s.inHand (localQ c 52) 0x51 with
    | none => s
    | some cmd =>
      let b := cmd.body
      if !(s.sl c).up then s.finish cmd Status.rejected []
      else if !within 1000 10000000 (u32 b 8) ∨ 2 ≤ u8 b 12 then s.finish cmd Status.badParam []
      else if 4 ≤ (s.sl c).tx.windows.length then s.finish cmd Status.noResource []
      else
        let start := max s.tb (u64 b 0)
        let w : RxWin :=
          { cmd := cmd.ref, start := start, stop := start + usTicks (u32 b 8), priority := u8 b 12 == 1, opened := false,
            ungranted := 0, mark := s.tb }
        (((s.keep cmd).modTx c (fun t => { t with windows := t.windows ++ [w] })).openWindows c).modTx c Tx.coexPins

/-- RXWIN_OPEN (R315, R316). -/
def execRxwinOpen (c : Fin 4) (s : State) : Host.Outcome State Fault Refusal :=
  run s fun s => (s.openWindows c).modTx c Tx.coexPins

/-- RXWIN_END (R315, R316): the window that ended first completes with the microseconds of it that had no grant, and a
key-up that waited for it goes on. Where that time is no whole number of microseconds, `up` says how it is counted, for which
the manual has no word. -/
def execRxwinEnd (c : Fin 4) (up : Bool) (s : State) : Host.Outcome State Fault Refusal :=
  run s fun s =>
    let ended := (s.sl c).tx.windows.filter (fun w => decide (w.stop ≤ s.tb))
    match (sortBy (fun (w : RxWin) => w.stop) ended).head? with
    | none => s
    | some w =>
      let n := ((w.account (s.sl c).tx.gnt s.tb).ungranted + (if up then 1023 else 0)) / 1024
      let s1 := s.modTx c (fun t => ({ t with
        windows := t.windows.erase w, events := if n = 0 then t.events else raise t.events 6 } : Tx).coexPins)
      (s1.complete w.cmd Status.ok (le 4 n)).txCheck c

end Sys2Proof.Machine
end

