-- ==== Sys2Proof/Machine/Regist.lean ====
section
/-! DEFINITION. Registration: arms (R342 to R344, R347), the registration itself (R342, R345, R346), and its
commands (R365). -/

namespace Sys2Proof.Machine

open Sys2Proof

/-- An EVENTS bit of TRK set (R366). -/
def State.trkEvent (s : State) (i : Nat) : State :=
  { s with trk := { s.trk with events := raise s.trk.events i } }

/-! ### Arms (R344) -/

/-- The places that pending ticks take: those with a TBM source take none (R344). -/
def Trk.places (k : Trk) : Nat := (k.pending.filter (fun e => !e.sources.getLsbD 3)).length

/-- Whether an arm finds a place: it merges, or fewer than eight are taken (R344). -/
def Trk.roomFor (k : Trk) (t : Nat) : Bool :=
  k.pending.any (fun e => e.tick == t) || decide (k.places < 8)

/-- An arm with a place, merged or added (R344). -/
def State.armReg (s : State) (e : PendReg) : State := { s with trk := s.trk.armReg e }

/-- An arm rejected (R344). -/
def State.rejectReg (s : State) : State :=
  { s with trk := { s.trk with
      regRejected := count 8 1 s.trk.regRejected, events := raise s.trk.events 8 } }

/-- The status of an arm from a command or a frame, by the three cases of R344. -/
def State.armCheck (s : State) (t : Nat) : Nat :=
  if t < s.tb + 2 ^ 16 then Status.timeout
  else if s.tb + 2 ^ 40 < t then Status.badParam
  else if !s.trk.roomFor t then Status.noResource
  else Status.ok

/-- The payload of a REG_ARM frame (R352). -/
def regArmPayload (t : Nat) (slices : BitVec 4) (cancel : Bool) : List Byte :=
  be 8 t ++ [BitVec.ofNat 8 slices.toNat, BitVec.ofNat 8 (b2n cancel)] ++ le 6 0

/-- REG_IN_EDGE (R343): a rising edge, stamped with TB now. -/
def execRegInEdge (s : State) : Host.Outcome State Fault Refusal :=
  run s fun s =>
    let mask := BitVec.ofNat 4 (bf s.trk.regCfg 0 4)
    let early := match s.trk.lastRegIn with
      | some t => decide (s.real < t + 1024)
      | none => false
    if mask = 0 then s
    else if early then
      { s with trk := { s.trk with
          regEarly := count 8 1 s.trk.regEarly, events := raise s.trk.events 7 } }
    else
      let tree := bit s.trk.regCfg 31 && s.trk.tree == .crown
      let t := s.tb + (if tree then 2 ^ 20 else 2048)
      let s1 := { s with trk := { s.trk with lastRegIn := some s.real } }
      let s2 := if s1.trk.roomFor t then
          s1.armReg { tick := t, slices := mask, sources := 1, unaligned := false, hops := 0, origin := s.addr }
        else s1.rejectReg
      if tree then (s2.originate .control .downAll 0x12 false 0 (regArmPayload t mask false)).1 else s2

/-! ### Cancels (R347) -/

/-- Whether a pending tick has a source that a cancel removes. -/
def State.cancels (s : State) (t : Nat) : Bool :=
  s.trk.pending.any (fun e => e.tick == t && (e.sources &&& 7) != 0)

/-- A cancel removes every REG_IN, command and frame source of a pending tick (R347): a TBM source stays, for
all four slices. -/
def State.cancelReg (s : State) (t : Nat) : State :=
  let strip (e : PendReg) : PendReg :=
    { e with sources := e.sources &&& 8, slices := 15, unaligned := false, hops := 0, origin := s.addr }
  let after := s.trk.pending.map (fun e => if e.tick = t then strip e else e)
  { s with trk := { s.trk with pending := after.filter (fun e => e.sources != 0) } }

/-! ### The registration (R342, R345, R346) -/

/-- The steps and holds of TB, with those pending. -/
def State.warpsAhead (s : State) : List (Nat × Int) :=
  s.tbm.warps
    ++ (match s.tbm.step with | some p => [(p.point, (p.amount : Int))] | none => [])
    ++ (match s.tbm.holdsAt with | some p => [(p, -((min s.tbm.offset.natAbs (2 ^ 20) : Nat) : Int))] | none => [])

/-- The wide tunings that exist in a slice, those that run a candidate included (R137, R224). -/
def Slice.wides (x : Slice) : List Nat := (List.range 8).filter (fun t => x.tunExists t || (vget x.candInfo t none).isSome)

/-- A slice at a registration whose reset acts at air time `at_` (R342); the instances are handed it with its REG_EDGE sample
(R164, R165). -/
def Slice.register (x : Slice) (at_ : Nat) : Slice :=
  match x.inForce with
  | none => x
  | some f => x.wides.foldl (fun y t => y.armReset f t at_ true) x

/-- Slices as a bit mask. -/
def sliceMask (p : Fin 4 → Bool) : Nat :=
  (allSlices.map (fun c => if p c then 2 ^ c.val else 0)).sum

/-- Tunings as a bit mask. -/
def tunMask (l : List Nat) : Nat := (l.map (fun t => 2 ^ t)).sum

/-- Whether a registration resets slice `c` (R342). -/
def State.registers (s : State) (e : PendReg) (c : Fin 4) : Bool :=
  e.slices.getLsbD c.val && (s.sl c).ctl.state == .running && !(s.sl c).clk.coast

/-- The REG_EVENT record of a registration that took effect at `at_` (R346). -/
def State.regEvent (s : State) (e : PendReg) (at_ : Nat) (late : Bool) : Record :=
  let reset := sliceMask (s.registers e)
  let missed := sliceMask (fun c => e.slices.getLsbD c.val && (s.sl c).clk.coast)
  let wide (c : Fin 4) : Nat := if s.registers e c then tunMask (s.sl c).wides else 0
  let hops := if e.sources.getLsbD 2 then e.hops else 0
  s.mkRec 0x31 0xFF 0xFF 0xFFFF 0 at_ false
    ([BitVec.ofNat 8 e.sources.toNat, BitVec.ofNat 8 (reset + 16 * missed),
      BitVec.ofNat 8 (b2n late + 2 * b2n e.unaligned), BitVec.ofNat 8 hops]
      ++ allSlices.map (fun c => BitVec.ofNat 8 (wide c))
      ++ le 8 e.tick ++ le 8 (airTime s.warpsAhead (at_ + 48) 0) ++ le 3 e.origin ++ le 5 0)

/-- A registration takes effect at tick `at_` (R342, R345). -/
def State.register (s : State) (e : PendReg) (at_ : Nat) (late : Bool) : State :=
  let r := s.regEvent e at_ late
  let s1 := s.modSlices (fun c x => if s.registers e c then x.register (at_ + 48) else x)
  ({ s1 with trk := { s1.trk with
      pending := s1.trk.pending.erase e, regDone := count 16 1 s1.trk.regDone } }).stage 0 r

/-- The earliest pending tick (R366). -/
def Trk.nextReg (k : Trk) : Option PendReg := (sortBy PendReg.tick k.pending).head?

/-- Whether a TB step or hold is pending at TB value `t`. -/
def Tbm.warpAt (t : Tbm) (v : Nat) : Bool :=
  t.holdsAt == some v || (match t.step with | some p => p.point == v | none => false)

/-- REGISTRATION (R342): the tick is reached. One at the point of a step or hold executes with it (R345); a lock-up at or
before the tick comes first (R75). -/
def execRegistration (s : State) : Host.Outcome State Fault Refusal :=
  run s fun s =>
    match s.trk.nextReg with
    | some e =>
      let locks := allSlices.any (fun c => match (s.sl c).lockReady s.tb with
        | some t => decide (t ≤ e.tick)
        | none => false)
      if e.tick ≤ s.tb ∧ !s.tbm.warpAt e.tick ∧ !locks then s.register e e.tick false else s
    | none => s

/-! ### Commands (R347, R365) -/

/-- Whether the module meets the needs of a scope (R347). -/
def State.scopeMet (s : State) (scope : Nat) : Bool :=
  scope == 0 || (s.tbm.origin && (scope != 2 || s.trk.tree == .attached || s.trk.tree == .crown))

/-- A REG_ARM frame sent in a scope (R347). -/
def State.sendRegArm (s : State) (scope t : Nat) (slices : BitVec 4) (cancel : Bool) : State :=
  let p := regArmPayload t slices cancel
  if scope = 1 then (s.originate .control .downAll 0x12 false 0 p).1
  else if scope = 2 then (s.originate .control .up 0x12 true 0 p).1
  else s

/-- TRK_REG_ARM (R347). -/
def execTrkRegArm (s : State) : Host.Outcome State Fault Refusal :=
  run s fun s =>
    match s.inHand 13 0x60 with
    | none => s
    | some cmd =>
      let t := u64 cmd.body 0
      let scope := u8 cmd.body 9
      let slices := BitVec.ofNat 4 (u8 cmd.body 8)
      if 16 ≤ u8 cmd.body 8 ∨ 2 < scope then s.finish cmd Status.badParam []
      else if !s.scopeMet scope then s.finish cmd Status.rejected []
      else if scope ≠ 0 ∧ t < s.tb + 2 ^ 20 then s.finish cmd Status.timeout []
      else if s.armCheck t ≠ Status.ok then s.finish cmd (s.armCheck t) []
      else
        let s1 := s.armReg
          { tick := t, slices := slices, sources := 2, unaligned := false, hops := 0, origin := s.addr }
        (s1.sendRegArm scope t slices false).finish cmd Status.ok []

/-- TRK_REG_CANCEL (R347). -/
def execTrkRegCancel (s : State) : Host.Outcome State Fault Refusal :=
  run s fun s =>
    match s.inHand 13 0x61 with
    | none => s
    | some cmd =>
      let t := u64 cmd.body 0
      let scope := u8 cmd.body 8
      if 2 < scope then s.finish cmd Status.badParam []
      else if !s.scopeMet scope then s.finish cmd Status.rejected []
      else
        ((s.cancelReg t).sendRegArm scope t 0 true).finish cmd Status.ok (le 4 (b2n (s.cancels t)))

end Sys2Proof.Machine
end

