-- ==== Sys2Proof/Machine/Trunk.lean ====
section
/-! DEFINITION. The trunk: ports and the tree (R353 to R357), time (R358), forwarding and classes (R359 to
R361), records and bulk transfers (R363, R364), and the TRK registers that have a row. -/

namespace Sys2Proof.Machine

open Sys2Proof

/-! ### Ports (R354, R369) -/

/-- The requester of a trunk port and its tokens (R369). -/
def portReq (p : Fin 3) : Nat := 6 + p.val
def portTokens : Nat := 4

/-- What only the UPSTREAM port shows (R366). -/
def Port.clearTime (k : Port) : Port :=
  { k with delays := [], offset := none, syncGood := 0, t3 := 0 }

/-- A port that left the tree holds only LINK frames (R355). -/
def Port.linkOnly (k : Port) : Port :=
  let only (l : List Frame) : List Frame := l.filter (fun f => f.dir == .link)
  { k with qControl := only k.qControl, qService := only k.qService, qBulk := only k.qBulk }

/-- A port goes DOWN: its queues are empty and its neighbour is unknown (R354, R366). -/
def Port.goDown (k : Port) : Port :=
  { k.clearTime with
    nbAddr := 0, nbDepth := 0xFF, nbCrown := 0, nbUp := false, nbHeard := false,
    downs := count 16 1 k.downs, qTime := none, qControl := [], qService := [], qBulk := [],
    sending := none, ended := none }

/-- The LEDs of a port's jack (R423): green while the link is up, yellow for 20 ms from each valid frame. -/
def Port.green (k : Port) : Bool := k.link
def Port.yellow (k : Port) (now : Nat) : Bool := k.flashAt.any (fun t => decide (now < t + msTicks 20))

/-- What a change of state does to a port. -/
def Port.enter (k : Port) (new : PortState) : Port :=
  let k1 := if new = .down then k.goDown else if new = .upstream then k else k.clearTime
  let k2 := if new = .upstream ∨ new = .child then k1 else k1.linkOnly
  { k2 with state := new }

/-- A port changes state: PORT_CHANGE, its tokens, and a TOPOLOGY frame from an attached module that still has its
upstream port (R357, R369). -/
def State.setPort (s : State) (p : Fin 3) (new : PortState) : State :=
  let old := (s.port p).state
  if old = new then s
  else
    let nb := (s.port p).nbAddr
    let s1 := (s.modPort p (fun k => k.enter new)).trkEvent 0
    let s2 := if old = .down then s1.ask (portReq p) portTokens
      else if new = .down then s1.releaseAll (portReq p)
      else s1
    if s2.trk.tree = .attached ∧ !(new == .down && s2.trk.upPort == some p) then
      (s2.originate .control .up 0x11 false 0
        ([BitVec.ofNat 8 p.val, BitVec.ofNat 8 old.code, BitVec.ofNat 8 new.code, 0] ++ be 4 nb)).1
    else s2

/-- An ANNOUNCE on one port (R352, R354). -/
def State.announce (s : State) (p : Fin 3) : State :=
  let k := s.trk
  let up := k.upPort == some p
  let flags := b2n up + 2 * b2n (k.tree == .crown) + 4 * b2n (bit k.cfg 2) + 8 * b2n s.tbm.origin
  (s.egress p p.val
    { cls := .control, dir := .link, kind := 0x10, hops := 0, turn := false, dest := 0, src := s.addr,
      payload := be 3 k.crown ++ [BitVec.ofNat 8 k.depth, BitVec.ofNat 8 flags, BitVec.ofNat 8 p.val]
        ++ be 4 (Config.serial.toNat % 2 ^ 32) ++ le 2 0,
      ingress := 0, crc := none }).1

/-- An ANNOUNCE on every port that is not DOWN (R354). -/
def State.announceAll (s : State) : State :=
  allPorts.foldl (fun t p => if (t.port p).state = .down then t else t.announce p) s

/-! ### The tree (R355 to R357) -/

/-- The class of a port that is not UPSTREAM, by its neighbour's ANNOUNCE (R355). -/
def Port.class (k : Port) : PortState := if k.nbUp then .child else .standby

/-- A node becomes DETACHED (R356). -/
def State.detach (s : State) : State :=
  if s.trk.tree ≠ .attached then s
  else
    let up := s.trk.upPort
    let s1 := ({ s with trk := { s.trk with
      tree := .detached, depth := 0xFF, upPort := none, crown := 0, detachedAt := s.real,
      canAttach := false } }).trkEvent 1
    let s2 := match up with
      | some p => if (s1.port p).state = PortState.upstream then s1.setPort p (s1.port p).class else s1
      | none => s1
    let s3 := allPorts.foldl (fun t p =>
      if (t.port p).state = .child then t.modPort p (fun k => { k with qTime := none }) else t) s2
    (s3.loseSource 2).announceAll

/-- Whether a port of a DETACHED node is a candidate (R355). -/
def State.candidate (s : State) (p : Fin 3) : Bool :=
  (s.port p).state == .standby && (s.port p).nbHeard && decide ((s.port p).nbDepth ≤ 62)

/-- The order of ring-of-tree mode among candidates (R355). -/
def State.upKey (s : State) (p : Fin 3) : Nat :=
  ((s.port p).nbCrown * 64 + (s.port p).nbDepth) * 4 + p.val

/-- The port that a node takes as its upstream, if there is one (R355). -/
def State.chooseUp (s : State) : Option (Fin 3) :=
  let pref := bf s.trk.cfg 4 2
  let cands := allPorts.filter (fun p => s.candidate p)
  let preferred := cands.find? (fun p => p.val == pref)
  if bit s.trk.cfg 2 then
    match preferred with
    | some p => some p
    | none => (sortBy s.upKey cands).head?
  else if pref < 3 then preferred
  else
    match s.trk.kept with
    | some k => cands.find? (fun p => p == k)
    | none => cands.head?

/-- A node attaches by a port (R355). -/
def State.attach (s : State) (p : Fin 3) : State :=
  let k := s.port p
  let s1 := ({ s with trk := { s.trk with
    tree := .attached, depth := k.nbDepth + 1, upPort := some p, crown := k.nbCrown, reparent := false,
    kept := if bit s.trk.cfg 2 then s.trk.kept else some p } }).trkEvent 2
  (s1.setPort p .upstream).announceAll

/-- A DETACHED node whose hold has ended attaches if some port allows it (R355, R357). -/
def State.tryAttach (s : State) : State :=
  if s.trk.tree ≠ .detached ∨ !s.trk.canAttach then s
  else
    match s.chooseUp with
    | some p => s.attach p
    | none =>
      let deep := allPorts.any (fun p => (s.port p).state == .standby && (s.port p).nbDepth == 63)
      let any := allPorts.any (fun p => s.candidate p)
      if deep && !any then s.trkEvent 6 else s

/-! ### Receiving and forwarding (R351, R359) -/

/-- A received frame as it goes on from this node. -/
def frameOnward (f : RxFrame) (cls : FrameClass) (kind : Nat) (dir : FrameDir) (hops : Nat)
    (turn : Bool) : Frame :=
  { cls := cls, dir := dir, kind := kind, hops := hops, turn := turn, dest := f.dest.toNat,
    src := f.src.toNat, payload := f.payload, ingress := 0, crc := none }

/-- A frame that no rule of R359 admits. -/
def State.noRoute (s : State) (p : Fin 3) : State :=
  s.modPort p (fun k => { k with noRoute := count 8 1 k.noRoute })

/-- A frame on the upstream port from ingress `p` (R359). -/
def State.forwardUp (s : State) (p : Fin 3) (f : Frame) : State :=
  match s.trk.upPort with
  | some u => (s.egress u p.val f).1
  | none => s

/-- An UP frame (R359). -/
def State.routeUp (s : State) (p : Fin 3) (f : RxFrame) (cls : FrameClass) (kind : Nat)
    (act : State → State) : State :=
  let own := decide (s.addr ≠ 0) && f.dest.toNat == s.addr
  if (s.port p).state ≠ .child then s.noRoute p
  else if s.trk.tree = .crown then
    let s1 := if own || f.dest == 0 then act s else s
    if !f.turn || own then s1
    else (s1.toChildren (some p.val)
      (frameOnward f cls kind (if f.dest = 0 then .downAll else .down) 0 false)).1
  else if own then act s
  else if s.trk.tree ≠ .attached then s.noRoute p
  else if f.hops = 63 then s
  else s.forwardUp p (frameOnward f cls kind .up (f.hops.toNat + 1) f.turn)

/-- A DOWN or DOWN_ALL frame (R359). -/
def State.routeDown (s : State) (p : Fin 3) (f : RxFrame) (cls : FrameClass) (kind : Nat) (all : Bool)
    (act : State → State) : State :=
  let own := decide (s.addr ≠ 0) && f.dest.toNat == s.addr
  if (s.port p).state ≠ .upstream then s.noRoute p
  else
    let s1 := if all || own then act s else s
    if (!all && own) || f.hops == 63 then s1
    else (s1.toChildren (some p.val)
      (frameOnward f cls kind (if all then .downAll else .down) (f.hops.toNat + 1) f.turn)).1

/-- A valid frame is counted and routed, and `act` is what the module does with one that it accepts (R359). A
frame of a length or direction that its kind does not have is discarded (R351, R352). -/
def State.receive (s : State) (p : Fin 3) (f : RxFrame) (cls : FrameClass) (kind : Nat) (ok : Bool)
    (act : State → State) : State :=
  if (s.port p).state = .down then s
  else if !ok || decide (cls.limit < f.payload.length) then
    s.modPort p (fun k => { k with crcErr := count 16 1 k.crcErr })
  else
    let s1 := s.modPort p (fun k =>
      { k with rxCnt := count 32 1 k.rxCnt, heard := s.real, flashAt := some s.real })
    if f.dir = 3 then act s1
    else if f.dir = 0 then s1.routeUp p f cls kind act
    else s1.routeDown p f cls kind (f.dir == 2) act

/-- The class of a CLASS code (R351). -/
def frameClass (n : BitVec 2) : FrameClass :=
  if n = 0 then .time else if n = 1 then .control else if n = 2 then .service else .bulk

/-- A frame that fails its CRC has gone on, cut through by its header, with the CRC that it carries (R360); a frame that
the crown turns is sent store-and-forward and goes nowhere (R359). -/
def State.passBad (s : State) (p : Fin 3) (b : BadFrame) : State :=
  let f := b.frame
  let cls := frameClass b.cls
  let own := decide (s.addr ≠ 0) && f.dest.toNat == s.addr
  let onward (dir : FrameDir) : Frame :=
    { frameOnward f cls b.kind.toNat dir (f.hops.toNat + 1) f.turn with crc := some b.crc }
  let st := (s.port p).state
  if cls = .time ∨ cls.limit < f.payload.length ∨ f.hops = 63 then s
  else if f.dir = 0 then
    if st = .child ∧ s.trk.tree = .attached ∧ !own then s.forwardUp p (onward .up) else s
  else if f.dir = 1 then
    if st = .upstream ∧ !own then (s.toChildren (some p.val) (onward .down)).1 else s
  else if f.dir = 2 then
    if st = .upstream then (s.toChildren (some p.val) (onward .downAll)).1 else s
  else s

/-- FRAME_CRC_ERROR (R351, R360): a frame that fails its CRC comes with what its header gave, one that fails the check of
its header without. -/
def execFrameCrcError (p : Fin 3) (s : State) (f : Option BadFrame := none) : Host.Outcome State Fault Refusal :=
  run s fun s =>
    if (s.port p).state = .down then s
    else
      let s1 := s.modPort p (fun k => { k with crcErr := count 16 1 k.crcErr })
      match f with
      | some b => s1.passBad p b
      | none => s1

/-- ABORTED_STREAM (R350, R360): the copies that were being forwarded, at the egress ports `copies`, are aborted too;
its upstream sends the frame again. -/
def execAbortedStream (p : Fin 3) (s : State) (copies : List (Fin 3) := []) : Host.Outcome State Fault Refusal :=
  run s fun s =>
    if (s.port p).state = .down then s
    else
      copies.foldl (fun t q => t.modPort q (fun k => { k with preempted := count 16 1 k.preempted }))
        (s.modPort p (fun k => { k with aborted := count 16 1 k.aborted }))

/-! ### Links and announcements (R354 to R357) -/

/-- LINK_UP (R354). -/
def execLinkUp (p : Fin 3) (s : State) : Host.Outcome State Fault Refusal :=
  run s fun s =>
    if (s.port p).state = .down ∧ s.mod.ready ∧ s.trk.tree ≠ .disabled then
      ((s.modPort p (fun k => { k with link := true, heard := s.real })).setPort p .probe).announce p
    else s

/-- A port goes DOWN, and a node whose upstream it was detaches (R354, R356). -/
def State.portDown (s : State) (p : Fin 3) : State :=
  let up := s.trk.upPort == some p
  let s1 := s.setPort p .down
  if up then s1.detach else s1

/-- Whether no valid frame has come to a port for `ms` milliseconds (R354). -/
def Port.silent (k : Port) (ms now : Nat) : Bool := decide (k.heard + msTicks ms ≤ now)

/-- LINK_LOST (R354): for 1 ms the signal has been lost, or no valid frame has come to a classified or looped port. -/
def execLinkLost (p : Fin 3) (s : State) (signal : Bool := false) : Host.Outcome State Fault Refusal :=
  run s fun s =>
    if signal then (s.modPort p (fun k => { k with link := false })).portDown p
    else
      match (s.port p).state with
      | .upstream | .child | .standby | .looped => if (s.port p).silent 1 s.real then s.portDown p else s
      | _ => s

/-- PROBE_TIMEOUT (R354): no valid frame for 100 ms. -/
def execProbeTimeout (p : Fin 3) (s : State) : Host.Outcome State Fault Refusal :=
  run s fun s => if (s.port p).state = .probe ∧ (s.port p).silent 100 s.real then s.setPort p .foreign else s

/-- ANNOUNCE_TICK (R354). -/
def execAnnounceTick (s : State) : Host.Outcome State Fault Refusal :=
  run s fun s => s.announceAll

/-- What a neighbour announced, kept with the port (R352). -/
def Port.hear (k : Port) (f : RxFrame) : Port :=
  { k with nbAddr := f.src.toNat, nbDepth := u8 f.payload 3, nbCrown := ofBe (slice f.payload 0 3) % 2 ^ 18,
           nbUp := (u8 f.payload 4).testBit 0, nbHeard := true }

/-- A port classified by its neighbour's ANNOUNCE (R355 to R357). -/
def State.classify (s : State) (p : Fin 3) : State :=
  let k := s.port p
  let member := s.trk.tree == .attached || s.trk.tree == .crown
  if s.trk.upPort = some p then
    if k.nbDepth = 0xFF then s.detach
    else if s.trk.depth = k.nbDepth + 1 ∧ s.trk.crown = k.nbCrown then s
    else ({ s with trk := { s.trk with depth := k.nbDepth + 1, crown := k.nbCrown } }).announceAll
  else if member && k.nbDepth != 0xFF && k.nbCrown != s.trk.crown then (s.trkEvent 5).setPort p .standby
  else s.setPort p k.class

/-- An ANNOUNCE of a neighbour (R354, R357). -/
def State.hearAnnounce (s : State) (p : Fin 3) (f : RxFrame) : State :=
  let st := (s.port p).state
  let mine := b32 f.payload 6 == Config.serial.toNat % 2 ^ 32
  if mine && (st == .probe || st == .foreign) then (s.trkEvent 4).setPort p .looped
  else if st = .looped then s
  else
    let s1 := s.modPort p (fun k => k.hear f)
    let s2 := if !mine && decide (s.addr ≠ 0) && f.src.toNat == s.addr then s1.trkEvent 4 else s1
    (s2.classify p).tryAttach

/-- ANNOUNCE (R355). -/
def execAnnounce (p : Fin 3) (f : RxFrame) (s : State) : Host.Outcome State Fault Refusal :=
  run s fun s =>
    s.receive p f .control 0x10 (f.dir == 3 && decide (12 ≤ f.payload.length)) fun s => s.hearAnnounce p f

/-- TOPOLOGY (R357). -/
def execTopology (p : Fin 3) (f : RxFrame) (s : State) : Host.Outcome State Fault Refusal :=
  run s fun s =>
    s.receive p f .control 0x11 (f.dir == 0 && f.dest == 0 && decide (8 ≤ f.payload.length)) fun s =>
      if s.trk.tree = .crown then
        ({ s with trk := { s.trk with topoCnt := count 16 1 s.trk.topoCnt } }).trkEvent 3
      else s

/-- REPARENT_HOLD_END (R355). -/
def execReparentHoldEnd (s : State) : Host.Outcome State Fault Refusal :=
  run s fun s =>
    if s.trk.tree = .detached ∧ !s.trk.canAttach ∧
        s.trk.detachedAt + msTicks (bf s.trk.cfg 8 4) ≤ s.real then
      let s1 := ({ s with trk := { s.trk with canAttach := true } }).tryAttach
      { s1 with trk := { s1.trk with reparent := false } }
    else s

/-- CTL.REPARENT written 1 (R356, R366): ignored on the crown. -/
def State.startReparent (s : State) : State :=
  match s.trk.tree with
  | .attached => { s.detach with trk := { s.detach.trk with reparent := true } }
  | .detached =>
    { s with trk := { s.trk with reparent := true, canAttach := false, detachedAt := s.real } }
  | _ => s

/-- REPARENT (R356). -/
def execReparent (s : State) : Host.Outcome State Fault Refusal :=
  run s fun s => s.moduleWrite fun s => s.startReparent

/-- A change of ROLE (R353, R354). -/
def State.setRole (s : State) (role : Nat) : State :=
  let s1 := s.detach
  if role = 2 then
    let s2 := allPorts.foldl (fun t p => t.setPort p .down) s1
    { s2 with trk := { s2.trk with tree := .disabled, depth := 0xFF, crown := 0, reparent := false } }
  else if role = 1 then
    ({ s1 with trk := { s1.trk with tree := .crown, depth := 0, crown := s.addr, reparent := false } }).announceAll
  else
    let s2 := if s.trk.tree = .crown then s1.trkEvent 1 else s1
    ({ s2 with trk := { s2.trk with
      tree := .detached, depth := 0xFF, crown := 0, detachedAt := s.real, canAttach := false } }).announceAll

/-- A write to TRK.CFG (R366). -/
def State.writeTrkCfg (s : State) (v : Word) : State :=
  let role := bf v 0 2
  if bf v 8 4 = 0 ∨ role = 3 ∨ (role = 1 ∧ s.addr = 0) then s.trkEvent 10
  else
    let new := mkWord [(8, 4, bf v 8 4), (4, 2, bf v 4 2), (2, 1, bf v 2 1), (0, 2, role)]
    let same := bf s.trk.cfg 2 1 = bf v 2 1 ∧ bf s.trk.cfg 4 2 = bf v 4 2
    let s1 := { s with trk := { s.trk with cfg := new, kept := if same then s.trk.kept else none } }
    if bf s.trk.cfg 0 2 = role then s1 else s1.setRole role

/-- TRK_CFG_WRITE (R353). -/
def execTrkCfgWrite (value : Word) (s : State) : Host.Outcome State Fault Refusal :=
  run s fun s => s.moduleWrite fun s => s.writeTrkCfg value

/-! ### Time over the trunk (R358) -/

/-- The rank that TBM runs on, as STATUS.SOURCE shows it (R109). -/
def Tbm.rank (t : Tbm) : Nat := if t.source ≠ 0 then t.source else if t.timing.isSome then 5 else 0

/-- A SYNC for a CHILD port; T1 is inserted as it leaves (R358). -/
def State.sendSync (s : State) (p : Fin 3) : State :=
  let crown := s.trk.tree == .crown
  let ext := if crown then s.tbm.state == .locked else s.trk.crownExt
  let src := if crown then s.tbm.rank else s.trk.crownSrc
  let k := s.port p
  (s.egress p p.val
    { cls := .time, dir := .link, kind := 0x01, hops := 0, turn := false, dest := 0, src := s.addr,
      payload := le 8 0 ++ be 8 k.t4 ++ [BitVec.ofNat 8 k.t4seq,
        BitVec.ofNat 8 (b2n s.tbm.origin + 2 * b2n ext), BitVec.ofNat 8 src, BitVec.ofNat 8 s.trk.depth],
      ingress := 0, crc := none }).1

/-- A SYNC on each CHILD port of a module that has a path to a crown (R356, R358). -/
def State.syncAll (s : State) : State :=
  if s.trk.tree = .attached ∨ s.trk.tree = .crown then
    allPorts.foldl (fun t p => if (t.port p).state = .child then t.sendSync p else t) s
  else s

/-- TB_EPOCH (R96): `e0` to `e3` are the phase errors that the slices capture, in fine steps. -/
def execTbEpoch (e0 e1 e2 e3 : Int) (s : State) : Host.Outcome State Fault Refusal :=
  run s fun s =>
    if s.tb % 2 ^ 20 = 0 ∧ s.tbm.hold.isNone then (s.clockEpoch e0 e1 e2 e3).syncAll else s

/-- An exchange completed on the upstream port (R358): `t4` is the parent's stamp. Stamps are ticks, DELAY,
OFFSET and ASYM fine steps. -/
def Port.exchange (k : Port) (t4 : Nat) (origin : Bool) : Port :=
  let down : Int := 64 * ((k.t2 : Int) - k.t1)
  let up : Int := 64 * ((t4 : Int) - k.t3)
  let delay := (down + up) / 2
  let off := (down - up - sext 16 (bf k.asym 0 16)) / 2
  let near := decide (0 < k.syncGood) && decide (10 * (off - k.syncFirst).natAbs ≤ 65536)
  { k with
    delays := (delay :: k.delays).take 8, offset := some off,
    syncGood := if !origin then 0 else if near then k.syncGood + 1 else 1,
    syncFirst := if near then k.syncFirst else off }

/-- The stamps of a new SYNC; the DELAY_REQ that answers it takes the next REQ_SEQ. -/
def Port.stampSync (k : Port) (t1 t2 : Nat) : Port :=
  { k with t1 := t1, t2 := t2, t3 := 0, reqSeq := (k.reqSeq + 1) % 256 }

/-- A SYNC of the parent (R358). -/
def State.hearSync (s : State) (p : Fin 3) (f : RxFrame) : State :=
  if (s.port p).state ≠ .upstream then s
  else
    let k := s.port p
    let flags := u8 f.payload 17
    let origin := flags.testBit 0
    let done := decide (k.t3 ≠ 0) && u8 f.payload 16 == k.reqSeq
    let s1 := { s with trk := { s.trk with crownExt := flags.testBit 1, crownSrc := u8 f.payload 18 } }
    let s2 := if done then s1.modPort p (fun k => k.exchange (b64 f.payload 8) origin)
      else if !origin then s1.modPort p (fun k => { k with syncGood := 0 }) else s1
    let s3 := ({ s2 with trk := { s2.trk with timeReal := s.real } }).modPort p (fun k =>
      k.stampSync (b64 f.payload 0) s.tb)
    let s4 := (s3.egress p p.val
      { cls := .time, dir := .link, kind := 0x02, hops := 0, turn := false, dest := 0, src := s.addr,
        payload := BitVec.ofNat 8 (s3.port p).reqSeq :: le 19 0, ingress := 0, crc := none }).1
    match (s4.port p).offset with
    | some off => if done ∧ 4 ≤ (s4.port p).syncGood then s4.qualify 2 (off / 64) else s4
    | none => s4

/-- SYNC (R358). -/
def execSync (p : Fin 3) (f : RxFrame) (s : State) : Host.Outcome State Fault Refusal :=
  run s fun s =>
    s.receive p f .time 0x01 (f.dir == 3 && f.payload.length == 20) fun s => s.hearSync p f

/-- DELAY_REQ (R358): stamped for the child's next SYNC. -/
def execDelayReq (p : Fin 3) (f : RxFrame) (s : State) : Host.Outcome State Fault Refusal :=
  run s fun s =>
    s.receive p f .time 0x02 (f.dir == 3 && f.payload.length == 20) fun s =>
      if (s.port p).state = .child then
        s.modPort p (fun k => { k with t4 := s.tb, t4seq := u8 f.payload 0 })
      else s

/-! ### Registration frames and records (R344, R347, R363) -/

/-- A REG_ARM frame accepted (R344, R347). -/
def State.hearRegArm (s : State) (f : RxFrame) : State :=
  let t := b64 f.payload 0
  if (u8 f.payload 9).testBit 0 then s.cancelReg t
  else if s.armCheck t ≠ Status.ok then s.rejectReg
  else
    s.armReg
      { tick := t, slices := BitVec.ofNat 4 (u8 f.payload 8), sources := 4,
        unaligned := !(s.tbm.state == .locked && s.tbm.source == 2), hops := f.hops.toNat + 1,
        origin := f.src.toNat }

/-- REG_ARM (R344). -/
def execRegArm (p : Fin 3) (f : RxFrame) (s : State) : Host.Outcome State Fault Refusal :=
  run s fun s =>
    s.receive p f .control 0x12 ((f.dir == 2 || (f.dir == 0 && f.turn)) && decide (16 ≤ f.payload.length))
      fun s => s.hearRegArm f

/-- The record that a RECORD frame brings (R363). -/
def recordOf (b : List Byte) : Record :=
  { type := BitVec.ofNat 8 (u8 b 0), flags := BitVec.ofNat 8 (u8 b 1), slice := BitVec.ofNat 8 (u8 b 2),
    tuning := BitVec.ofNat 8 (u8 b 3), context := BitVec.ofNat 16 (u16 b 4),
    msgId := BitVec.ofNat 32 (u32 b 12), ts := u64 b 16, payload := b.drop 32, src := none, raw := some b, spec := none }

/-- RECORD (R363): an accepted record goes on module queue 6. -/
def execRecordFrame (p : Fin 3) (f : RxFrame) (s : State) : Host.Outcome State Fault Refusal :=
  run s fun s =>
    s.receive p f .service 0x30
      ((f.dir == 1 || (f.dir == 0 && (f.turn || f.dest == 0))) && decide (32 ≤ f.payload.length))
      fun s => s.stage 6 (recordOf f.payload)

/-! ### Firmware image objects (R392) -/

/-- The bytes of an image with its header. -/
def FwImage.object (i : FwImage) : List Byte :=
  let h := le 4 0x47574651 ++ le 2 0x7464 ++ [BitVec.ofNat 8 i.major, BitVec.ofNat 8 i.minor]
    ++ le 2 i.patch ++ le 2 0 ++ le 4 i.bytes.length ++ le 4 (crc32 i.bytes) ++ padTo 16 i.build ++ le 24 0
  h ++ le 4 (crc32 h) ++ i.bytes

/-- The image that bytes hold, where they are valid (R392). -/
def parseImage (b : List Byte) : Option FwImage :=
  let n := u32 b 12
  if u32 b 0 = 0x47574651 ∧ u16 b 4 = 0x7464 ∧ n % 4 = 0 ∧ n ≤ 8 * 1024 * 1024 ∧ b.length = 64 + n
      ∧ u32 b 60 = crc32 (b.take 60) ∧ u32 b 16 = crc32 (b.drop 64) then
    some { major := u8 b 6, minor := u8 b 7, patch := u16 b 8, build := slice b 20 16, bytes := b.drop 64 }
  else none

/-- The slot that does not run. -/
def Mod.other (m : Mod) : Fin 2 := if m.image then 0 else 1

/-- The slot that runs. -/
def Mod.running (m : Mod) : Fin 2 := if m.image then 1 else 0

/-! ### Sending an object (R364) -/

/-- The frames of some chunks of an object and the END after them: KIND and payload (R352). -/
def pushFrames (id : Word) (obj dst boot : Nat) (data : List Byte) (round : Nat) (which : List Nat) :
    List (Nat × List Byte) :=
  let meta_ := [BitVec.ofNat 8 obj, BitVec.ofNat 8 dst] ++ be 4 data.length
  which.map (fun n => (0x40, be 4 id.toNat ++ be 2 n ++ meta_ ++ [BitVec.ofNat 8 boot] ++ le 3 0
      ++ slice data (1024 * n) 1024))
    ++ [(0x41, be 4 id.toNat ++ be 2 (ceilDiv data.length 1024) ++ meta_ ++ be 4 (crc32 data)
      ++ [BitVec.ofNat 8 round] ++ le 3 0)]

/-- The ports by which a BULK frame of this module leaves (R359, R364). -/
def State.bulkPorts (s : State) (dest : Nat) : List (Fin 3) :=
  if dest = 0 ∨ s.trk.tree = .crown then allPorts.filter (fun p => (s.port p).state == .child)
  else match s.trk.upPort with
    | some p => [p]
    | none => []

/-- Whether a BULK frame of this size finds room at each of these ports (R361). -/
def State.bulkRoom (s : State) (ports : List (Fin 3)) (n : Nat) : Bool :=
  ports.all (fun p => decide (((s.port p).qBulk.map Frame.size).sum + 16 + n ≤ 16384))

/-- The frames of the push go to their egress queues as these have room; the END starts its wait. -/
def feedFrames (dest : Nat) : List (Nat × List Byte) → State → List (Nat × List Byte) × State
  | [], s => ([], s)
  | (kind, b) :: rest, s =>
    if s.bulkRoom (s.bulkPorts dest) b.length then
      feedFrames dest rest
        (s.originate .bulk (if dest = 0 then .downAll else .up) kind (dest != 0) dest b).1
    else ((kind, b) :: rest, s)

/-- The push in progress goes on sending (R364). -/
def State.feedPush (s : State) : State :=
  match s.trk.push with
  | none => s
  | some u =>
    if u.todo.isEmpty then s
    else
      let r := feedFrames u.dest u.todo s
      let v : Push := { u with todo := r.1, endAt := if r.1.isEmpty then some s.real else none }
      { r.2 with trk := { r.2.trk with push := some v } }

/-- The object that a push sends: none where its source is empty (R364, R396). -/
def State.pushObject (s : State) (obj src : Nat) : Option (List Byte) :=
  if obj = 1 then (vget s.fls.library src none).map (fun e => e.forme)
  else
    (vget s.mod.images (if src = 0 then s.mod.running.val else s.mod.other.val) none).map FwImage.object

/-- The ranges of TRK_PUSH (R365, R396). -/
def pushBodyOk (b : List Byte) : Bool :=
  let w := u32 b 8
  ((u8 b 0 == 1 && decide (u8 b 1 < 64) && decide (u8 b 2 < 64) && decide (u8 b 3 < 16))
      || (u8 b 0 == 0x10 && decide (u8 b 1 < 2)))
    && decide (u32 b 4 < 262144) && (w == 0 || within 100 600000 w)

/-- TRK_PUSH (R364). An object that cannot be read from flash is not sent (R398, R409). -/
def execTrkPush (s : State) (ecc : Option Bool := none) : Host.Outcome State Fault Refusal :=
  run s fun s =>
    match s.inHand 13 0x64 with
    | none => s
    | some cmd =>
      let b := cmd.body
      if !pushBodyOk b then s.finish cmd Status.badParam []
      else if s.trk.push.isSome then s.finish cmd Status.busy []
      else
        match s.pushObject (u8 b 0) (u8 b 1) with
        | none => s.finish cmd Status.noResource []
        | some data =>
          let s := s.eccMaybe ecc (if u8 b 0 = 1 then u8 b 1 else 0xFFFF)
          if ecc = some false then s.finish cmd Status.parity []
          else
          let id := Config.xferId s.free
          let todo := pushFrames id (u8 b 0) (u8 b 2) (u8 b 3) data 0 (List.range (ceilDiv data.length 1024))
          let u : Push :=
            { cmd := cmd.ref, id := id, obj := u8 b 0, dst := u8 b 2, boot := u8 b 3, dest := u32 b 4,
              waitMs := if u32 b 8 = 0 then 2000 else u32 b 8, data := data, round := 0, todo := todo,
              endAt := none, answers := [] }
          let s1 := s.keep cmd
          ({ s1 with free := s1.free + 1, trk := { s1.trk with push := some u } }).feedPush

/-- The chunks that any answer names. -/
def Push.missing (u : Push) : List Nat :=
  (List.range (ceilDiv u.data.length 1024)).filter (fun n => u.answers.any (fun a => a.missing.contains n))

/-- Whether some receiver waits for another round (R364, R396). -/
def Push.again (u : Push) : Bool :=
  !u.missing.isEmpty || u.answers.any (fun a => a.status.toNat == Status.busy)

/-- PUSH_ROUND (R364): WAIT_MS after an END. -/
def execPushRound (s : State) : Host.Outcome State Fault Refusal :=
  run s fun s =>
    match s.trk.push with
    | none => s
    | some u =>
      match u.endAt with
      | none => s
      | some t =>
        if s.real < t + msTicks u.waitMs then s
        else if u.again ∧ u.round < 4 then
          let v : Push :=
            { u with round := u.round + 1, endAt := none,
                     todo := pushFrames u.id u.obj u.dst u.boot u.data (u.round + 1) u.missing,
                     answers := u.answers.map (fun a => { a with missing := [] }) }
          ({ s with trk := { s.trk with push := some v } }).feedPush
        else
          let stored := (u.answers.filter (fun a => a.status.toNat == Status.ok)).length
          ({ s with trk := { s.trk with push := none } }).complete u.cmd Status.ok
            (le 4 u.answers.length ++ le 4 stored ++ [BitVec.ofNat 8 u.round, 0, 0, 0])

/-- An answer noted with the push: the last one of each address counts (R364). -/
def Push.note (u : Push) (a : PushAnswer) : Push :=
  { u with answers := u.answers.filter (fun b => b.addr != a.addr) ++ [a] }

/-- XFER_STATUS (R364). -/
def execXferStatus (p : Fin 3) (f : RxFrame) (s : State) : Host.Outcome State Fault Refusal :=
  run s fun s =>
    let b := f.payload
    s.receive p f .control 0x20
      ((f.dir == 1 || (f.dir == 0 && f.turn)) && decide (8 + 2 * min 32 (b16 b 6) ≤ b.length))
      fun s =>
        match s.trk.push with
        | some u =>
          if u.id.toNat = b32 b 0 then
            let names := (List.range (min 32 (b16 b 6))).map (fun i => b16 b (8 + 2 * i))
            let a : PushAnswer :=
              { addr := f.src.toNat, status := BitVec.ofNat 8 (u8 b 4), missing := names }
            { s with trk := { s.trk with push := some (u.note a) } }
          else s
        | none => s

/-! ### Receiving an object (R364, R396) -/

/-- The answer of a receiver with an address (R364). -/
def State.answer (s : State) (id : Word) (src status : Nat) (missing : List Nat) : State :=
  if s.addr = 0 then s
  else
    (s.originate .control .up 0x20 true src
      (be 4 id.toNat ++ [BitVec.ofNat 8 status, 0] ++ be 2 (missing.take 32).length
        ++ (missing.take 32).flatMap (fun n => be 2 n))).1

/-- The transfer of a sender. -/
def Trk.transfer (k : Trk) (id : Word) (src : Nat) : Option Transfer :=
  k.transfers.find? (fun t => t.id == id && t.src == src)

/-- A transfer put in place of its former state. -/
def State.putTransfer (s : State) (t : Transfer) : State :=
  { s with trk := { s.trk with
      transfers := s.trk.transfers.filter (fun u => !(u.id == t.id && u.src == t.src)) ++ [t] } }

/-- Whether a receiver may open one more transfer (R364). -/
def Trk.mayOpen (k : Trk) : Bool := decide ((k.transfers.filter (fun t => !t.stored)).length < 2)

/-- The transfer that a CHUNK or END frame belongs to, opened where there is none and room for it. -/
def State.openTransfer (s : State) (f : RxFrame) (boot : Nat) : Option Transfer :=
  let b := f.payload
  let id := BitVec.ofNat 32 (b32 b 0)
  match s.trk.transfer id f.src.toNat with
  | some t => some { t with last := s.real }
  | none =>
    if s.trk.mayOpen then
      some { id := id, src := f.src.toNat, obj := u8 b 6, dst := u8 b 7, total := b32 b 8, boot := boot,
             chunks := [], storing := false, stored := false, last := s.real }
    else none

/-- CHUNK (R364): the chunk is stored. -/
def execChunkFrame (p : Fin 3) (f : RxFrame) (s : State) : Host.Outcome State Fault Refusal :=
  run s fun s =>
    s.receive p f .bulk 0x40 ((f.dir != 3) && (f.dir != 0 || f.turn) && decide (16 ≤ f.payload.length))
      fun s =>
        match s.openTransfer f (u8 f.payload 12) with
        | none => s
        | some t =>
          if t.stored ∨ t.storing then s
          else
            let n := b16 f.payload 4
            let rest := t.chunks.filter (fun k => k.1 != n)
            s.putTransfer { t with boot := u8 f.payload 12,
                                   chunks := insertBy Prod.fst (n, f.payload.drop 16) rest }

/-- The chunks that a transfer still lacks. -/
def Transfer.missing (t : Transfer) (n : Nat) : List Nat :=
  (List.range n).filter (fun i => !t.chunks.any (fun k => k.1 == i))

/-- The bytes of the library's entries but one (R83, R85). -/
def State.libraryBytes (s : State) (but : Nat) : Nat :=
  (s.fls.library.toList.mapIdx (fun i e =>
    match e with
    | some e => if i = but then 0 else e.forme.length
    | none => 0)).sum

/-- A complete library object is stored (R85, R364). -/
def State.storePushed (s : State) (t : Transfer) (data : List Byte) : State :=
  match parseForme data none with
  | .error _ => s.answer t.id t.src Status.formeCrc []
  | .ok _ =>
    if h : t.dst < 64 then
      if 4 * 1024 * 1024 < s.libraryBytes t.dst + data.length then s.answer t.id t.src Status.noResource []
      else
        match (s.putTransfer { t with storing := true }).flashWrite (.pool (flashKib data.length))
          (.pushLib t.id t.src ⟨t.dst, h⟩ data (BitVec.ofNat 4 t.boot)) with
        | some s1 => s1
        | none => s.flashDeny.answer t.id t.src Status.budget []
    else s.answer t.id t.src Status.noResource []

/-- A complete firmware object is stored in the image that is not running (R396). -/
def State.storeImage (s : State) (t : Transfer) (data : List Byte) : State :=
  if s.swapping then s.answer t.id t.src Status.busy []
  else
    match (s.putTransfer { t with storing := true }).flashWrite .image
      (.pushImage t.id t.src s.mod.other (parseImage data) ((BitVec.ofNat 8 t.boot).getLsbD 0)) with
    | some s1 =>
      { s1 with mod := { s1.mod with images := vmod s1.mod.images s.mod.other.val (fun _ => none), load := none } }
    | none => s.flashDeny.answer t.id t.src Status.budget []

/-- An END frame accepted (R364). -/
def State.hearEnd (s : State) (f : RxFrame) : State :=
  let b := f.payload
  match s.openTransfer f 0 with
  | none => s.answer (BitVec.ofNat 32 (b32 b 0)) f.src.toNat Status.noResource []
  | some t =>
    if t.stored ∨ t.storing then s
    else
      let s1 := s.putTransfer t
      let lacks := t.missing (b16 b 4)
      let data := t.chunks.flatMap (fun k => k.2)
      if lacks ≠ [] then s1.answer t.id t.src Status.missing lacks
      else if data.length ≠ b32 b 8 ∨ crc32 data ≠ b32 b 12 then s1.answer t.id t.src Status.formeCrc []
      else if t.obj = 1 then s1.storePushed t data
      else if t.obj = 0x10 then s1.storeImage t data
      else s1.answer t.id t.src Status.badParam []

/-- END (R364). -/
def execEndFrame (p : Fin 3) (f : RxFrame) (s : State) : Host.Outcome State Fault Refusal :=
  run s fun s =>
    s.receive p f .bulk 0x41 ((f.dir != 3) && (f.dir != 0 || f.turn) && decide (20 ≤ f.payload.length))
      fun s => s.hearEnd f

/-- TRANSFER_DROP (R364): no frame for 10 s. -/
def execTransferDrop (id : Word) (s : State) : Host.Outcome State Fault Refusal :=
  run s fun s =>
    { s with trk := { s.trk with transfers := s.trk.transfers.filter (fun t =>
        t.id != id || t.stored || t.storing || decide (s.real < t.last + secTicks 10)) } }

/-! ### Egress (R360, R361) -/

/-- The next frame of a class queue under R27: the frame, the queue after it and the ingress index. -/
def pickFrame (ptr : Nat) (q : List Frame) : Option (Frame × List Frame) :=
  match arbPick ptr (q.map (fun f => f.ingress)) with
  | none => none
  | some i =>
    match firstIdx (fun (f : Frame) => f.ingress == i) q 0 with
    | none => none
    | some k => (q[k]?).map (fun f => (f, dropIdx k q))

/-- The next frame that the port starts, classes in strict order; the copy of an ended frame follows the
CONTROL frames for which it was ended (R360). -/
def Port.start (k : Port) : Option (Frame × Port) :=
  let ptr (c : FrameClass) : Nat := vget k.ptr c.code 0
  let next (c : FrameClass) (i : Nat) : Vector Nat 4 := vmod k.ptr c.code (fun _ => arbNext 3 i)
  let control := (pickFrame (ptr .control) k.qControl).map (fun r =>
    (r.1, { k with qControl := r.2, ptr := next .control r.1.ingress }))
  match k.ended with
  | some f =>
    match control with
    | some r => some r
    | none => some (f, { k with ended := none })
  | none =>
    match k.qTime with
    | some f => some (f, { k with qTime := none })
    | none =>
      match control with
      | some r => some r
      | none =>
        match pickFrame (ptr .service) k.qService with
        | some r => some (r.1, { k with qService := r.2, ptr := next .service r.1.ingress })
        | none =>
          (pickFrame (ptr .bulk) k.qBulk).map (fun r =>
            (r.1, { k with qBulk := r.2, ptr := next .bulk r.1.ingress }))

/-- A frame as it starts: a SYNC takes its T1, a DELAY_REQ is stamped T3 (R358). -/
def Port.stamp (k : Port) (f : Frame) (now : Nat) : Port :=
  if f.cls = .time ∧ f.kind = 0x01 then { k with sending := some { f with payload := be 8 now ++ f.payload.drop 8 } }
  else if f.cls = .time ∧ f.kind = 0x02 then { k with sending := some f, t3 := now }
  else { k with sending := some f }

/-- A port starts its next frame. -/
def Port.startNext (k : Port) (now : Nat) : Port :=
  match k.start with
  | some r => r.2.stamp r.1 now
  | none => k

/-- TRUNK_EGRESS (R360): the port starts its next frame, ends the frame in transfer for a CONTROL frame, or
has sent it whole. -/
def execTrunkEgress (p : Fin 3) (s : State) : Host.Outcome State Fault Refusal :=
  run s fun s =>
    let k := s.port p
    match k.sending with
    | none => if k.state = .down then s else s.modPort p (fun k => k.startNext s.tb)
    | some f =>
      if f.cls ≠ .control ∧ k.qControl ≠ [] then
        s.modPort p (fun k =>
          Port.startNext { k with sending := none, ended := some f, preempted := count 16 1 k.preempted } s.tb)
      else
        ((s.modPort p (fun k =>
            { k with sending := none, txCnt := count 32 1 k.txCnt, flashAt := some s.real })).emit
          (.trunk p f.bytes)).feedPush

/-! ### TRK_SAVE and TRK_EXPORT (R353, R362, R365) -/

/-- TRK_SAVE (R353, R397). -/
def execTrkSave (s : State) : Host.Outcome State Fault Refusal :=
  run s fun s =>
    match s.inHand 13 0x62 with
    | none => s
    | some cmd =>
      match (s.keep cmd).flashWrite (.pool 4)
        (.trkSave cmd.ref s.trk.cfg s.trk.addr (vmap (fun k => k.asym) s.trk.ports)) with
      | some s1 => s1
      | none => s.flashDeny.finish cmd Status.budget []

/-- TRK_EXPORT (R362). -/
def execTrkExport (s : State) : Host.Outcome State Fault Refusal :=
  run s fun s =>
    match s.inHand 13 0x63 with
    | none => s
    | some cmd =>
      let b := cmd.body
      if 32 ≤ u8 b 0 ∨ queueIsCmd (qn (u8 b 1)) ∨ 2 ≤ u8 b 2 ∨ 262144 ≤ u32 b 4 then
        s.finish cmd Status.badParam []
      else
        let e : Export := { queue := u8 b 1, enable := u8 b 2 == 1, dest := u32 b 4 }
        ({ s with trk := { s.trk with exports := vmod s.trk.exports (u8 b 0) (fun _ => e) } }).finish
          cmd Status.ok []

end Sys2Proof.Machine
end

