-- ==== Sys2Proof/Machine/Lockup.lean ====
section
/-! DEFINITION. Lock-up: what a new forme changes (R77, R78), what the instant cuts (R74), and what it
brings into force (R73 to R80). -/

namespace Sys2Proof.Machine

open Sys2Proof

/-! ### What changes (R77) -/

/-- What a lock-up changes in a slice: whether the front end, the transmitter and the audio port change, and the
elements of each kind that are changed, added or removed. -/
structure Delta where
  fe : Bool
  tuns : List Nat
  insts : List Nat
  ctxs : List Nat
  tx : Bool
  audio : Bool
  queues : List Nat
  deriving DecidableEq, Repr

/-- Whether a record differs between two formes, is added or is removed. -/
def recDiffers (old : Option Forme) (f : Forme) (ty key : Nat) : Bool :=
  old.bind (fun o => o.find ty key) != f.find ty key

/-- The keys of a type in either forme. -/
def eitherKeys (old : Option Forme) (f : Forme) (ty : Nat) : List Nat :=
  let a := match old with | some o => o.keys ty | none => []
  a ++ (f.keys ty).filter (fun k => !a.contains k)

/-- The payload of a record of the new forme, else of the old one. -/
def eitherRec (old : Option Forme) (f : Forme) (ty key : Nat) : List Byte :=
  match f.find ty key with
  | some p => p
  | none => (old.bind (fun o => o.find ty key)).getD []

/-- Whether the front end changes (R77). -/
def feDiffers (old : Option Forme) (f : Forme) : Bool :=
  match old with
  | some o => slice o.sl 1 2 != slice f.sl 1 2 || slice o.sl 14 2 != slice f.sl 14 2
  | none => true

/-- Whether tuning `t` changes (R77, R78, R401). -/
def Slice.tunDiffers (x : Slice) (old : Option Forme) (f : Forme) (fe : Bool) (t : Nat) : Bool :=
  fe || (x.tunAt t).faulted || recDiffers old f 2 t || recDiffers old f 3 (2 * t)
    || recDiffers old f 3 (2 * t + 1) || (decide (8 ≤ t) && recDiffers old f 13 ((t - 8) / 8))

/-- The first cell that a placement gives an instance. -/
def placeOf (places : List (Nat × Nat)) (n : Nat) : Option Nat := (places.find? (fun p => p.1 == n)).map Prod.snd

/-- Whether instance `n` changes. -/
def Slice.instDiffers (x : Slice) (old : Option Forme) (f : Forme) (places : List (Nat × Nat)) (tuns : List Nat)
    (n : Nat) : Bool :=
  recDiffers old f 4 n || tuns.contains (dmTuning (eitherRec old f 4 n))
    || placeOf places n != vget x.shadow.cellBase n none || (x.instAt n).state == .faulted

/-- Whether context `k` changes. -/
def Slice.ctxDiffers (x : Slice) (old : Option Forme) (f : Forme) (insts : List Nat) (k : Nat) : Bool :=
  recDiffers old f 5 k || recDiffers old f 6 k || recDiffers old f 9 k
    || insts.contains (cxDemod (eitherRec old f 5 k)) || (x.ctxAt k).faulted

/-- Whether a key of either forme satisfies `p` in one of them. -/
def inEither (old : Option Forme) (f : Forme) (ty key : Nat) (p : List Byte → Bool) : Bool :=
  let h (o : Forme) : Bool := match o.find ty key with | some b => p b | none => false
  (match old with | some o => h o | none => false) || h f

/-- What forme `f` changes in slice `x` against the forme in force, under a placement. -/
def Slice.delta (x : Slice) (f : Forme) (places : List (Nat × Nat)) : Delta :=
  let old := x.inForce
  let fe := feDiffers old f
  let tuns := (eitherKeys old f 2).filter (x.tunDiffers old f fe)
  let insts := (eitherKeys old f 4).filter (x.instDiffers old f places tuns)
  let ctxs := (eitherKeys old f 5).filter (x.ctxDiffers old f insts)
  { fe := fe, tuns := tuns, insts := insts, ctxs := ctxs,
    tx := recDiffers old f 10 0 || (match old with | some o => o.txTokens != f.txTokens | none => true),
    audio := recDiffers old f 11 0 || insts.any (fun n => inEither old f 4 n dmAudioOut)
      || ctxs.any (fun k => inEither old f 5 k cxAlert),
    queues := (eitherKeys old f 7).filter (recDiffers old f 7) }

/-- Whether event rule `r` changes. The rules compare with the forme of the shadow store, because a slice reset
keeps their entries (R237). -/
def Slice.ruleDiffers (x : Slice) (f : Forme) (ctxs : List Nat) (r : Nat) : Bool :=
  let old := x.forme
  let p := eitherRec old f 8 r
  let k := ruContext p
  let claim (o : Option Forme) : Bool := match o with | some o => o.evtClaim.testBit (ruPin p) | none => false
  recDiffers old f 8 r || !f.has 8 r || claim old != claim (some f) || recDiffers old f 5 k
    || recDiffers old f 6 k || recDiffers old f 9 k || (x.inForce.isSome && ctxs.contains k)

/-! ### What the instant cuts (R74) -/

/-- A queue that is removed or changed stops after its last whole record (R79); its EN and its sequence numbers
stay. Entries of staging follow a new policy in their numbers (R286). -/
def State.stopQueue (s : State) (f : Forme) (q : Fin 256) (key : Nat) : State :=
  let s1 := match (s.qu q).xfer with
    | some x => s.moveBytes q x.left.length
    | none => s
  let s2 := (s1.closeBuf q true).modQ q (fun k => { k with capWait := false })
  match f.find 7 key with
  | none => s2
  | some p =>
    let was := s2.queueOld q
    if quPolicyOld p && !was then
      s2.modQ q (fun k => { k with
        seq := k.seq - BitVec.ofNat 32 (k.staged.filter (fun e => e.seq.isSome)).length,
        staged := k.staged.map Staged.unnumber })
    else if was && !quPolicyOld p then
      let l := (s2.qu q).staged
      s2.modQ q (fun k => { k with
        staged := l.mapIdx (fun i e => e.number (k.seq + BitVec.ofNat 32 i)),
        seq := k.seq + BitVec.ofNat 32 l.length })
    else s2

/-- Whether the candidate on tuning `t` keeps its spare tuning and its spare cells under forme `f` and a placement. -/
def Slice.candStays (x : Slice) (f : Forme) (places : List (Nat × Nat)) (t : Nat) : Bool :=
  match vget x.candInfo t none with
  | some i =>
    let spare := spareCellsOf f x.err.isolated places
    f.spareTunings.testBit t && f.has 4 i.key.val && i.cells.all (fun k => spare.contains k)
  | none => false

/-- The AF process of instance `n` at a lock-up (R222, R226): a speculation is undone where a fed context or the instance
changes, or its candidate cannot stay; where the leading context changes or goes, the candidates stop. -/
def State.cutAf (s : State) (c : Fin 4) (f : Forme) (places : List (Nat × Nat)) (d : Delta) (now n : Nat) : State :=
  let x := s.sl c
  let a := x.afAt n
  let fed := (x.fedBy n).any (fun k => d.ctxs.contains k.val)
  let gone : Bool := match a.cand with | some t => !x.candStays f places t.val | none => false
  let s1 := if a.state = .speculative ∧ (d.insts.contains n ∨ fed ∨ gone) then
      s.undoSpec c (Fin.ofNat 48 n) (if d.insts.contains n ∨ fed then 4 else 3) now
    else s
  if a.state ≠ .off ∧ (d.ctxs.contains a.lead.val ∨ f.lead n ≠ some a.lead.val) then
    s1.modSl c (fun x => x.stopCands n (fun _ _ => false))
  else s1

/-- An instance that is removed or changed stops: its burst ends with cause 0x03 (R193), its AUDIO record closes,
its candidates stop. -/
def State.cutInst (s : State) (c : Fin 4) (n : Nat) : State :=
  ((s.abortBurst c (.inst (Fin.ofNat 48 n)) 3).closeAudio c n).modSl c (fun x => x.stopCands n (fun _ _ => false))

/-- A context that is removed or changed (R74). -/
def State.cutCtx (s : State) (c : Fin 4) (k : Nat) : State :=
  (s.envCut c (Fin.ofNat 256 k) Status.keyChanged).resetParser c (Fin.ofNat 256 k)

/-- All that the instant `now` cuts in slice `c`, under the forme still in force. -/
def State.cutOld (s : State) (c : Fin 4) (f : Forme) (places : List (Nat × Nat)) (d : Delta) (now : Nat) : State :=
  let x := s.sl c
  let old := x.inForce
  let has (ty k : Nat) : Bool := match old with | some o => o.has ty k | none => false
  let s1 := (List.range 48).foldl (fun t n => t.cutAf c f places d now n) s
  let s2 := (d.tuns.filter (has 2)).foldl (fun t n =>
    let keeps : Bool := match old with
      | some o => !d.queues.contains (tnQueue (o.tn n))
      | none => false
    let u := if keeps then t.closeLater c n (now - 2048) else t.endSamples c n
    match old with
    | some o => if (u.sl c).tunRuns n then
        u.modSl c (fun x => x.modTun n (fun k => k.keepTail (o.conf n) u.tbm.warps (now + 48))) else u
    | none => u) s1
  let s3 := (d.insts.filter (has 4)).foldl (fun t n => t.cutInst c n) s2
  let s4 := (d.ctxs.filter (has 5)).foldl (fun t k => t.cutCtx c k) s3
  let s5 := s4.cancelEntries c x.forme (some f) now (x.ruleDiffers f d.ctxs)
  let s6 := if d.audio then
      ((List.range 48).foldl (fun t n => t.closeAudio c n) s5).endCapture c
    else s5
  let s7 := if d.fe then s6.calCut c Status.rejected else s6
  (d.queues.filter (has 7)).foldl (fun t q => t.stopQueue f (localQ c q) q) s7

/-! ### What comes into force -/

/-- A tuning at a lock-up. -/
def lockTun (f : Forme) (d : Delta) (now t : Nat) (u : Tuning) : Tuning :=
  if !d.tuns.contains t then u else if f.has 2 t then u.load f t now else u.remove

/-- An instance at a lock-up (R162, R180, R182): its EVENTS stay, with LOSS where it leaves TRACK, but for an instance that is
gone. -/
def lockInst (f : Forme) (d : Delta) (real n : Nat) (i : Inst) : Inst :=
  if !d.insts.contains n then i
  else if f.has 4 n then
    let p := pstatInit (dmProfile (f.dm n))
    { Inst.reset with
      declared := true, events := if i.state = .track then raise i.events 1 else i.events, since := real,
      pstat0 := p.1, pstat1 := p.2,
      state := if tnEnable (f.tn (dmTuning (f.dm n))) then .search else .stopped }
  else { Inst.reset with events := i.events &&& 0x20 }

/-- A context at a lock-up (R239): its counters start again, message IDs run on (R401), and EVENTS stay for the driver to
clear, but for a context that is gone. -/
def lockCtx (f : Forme) (d : Delta) (k : Nat) (y : Ctx) : Ctx :=
  if d.ctxs.contains k then
    { Ctx.reset with nextId := y.nextId, events := if f.has 5 k then y.events else 0 }
  else y

/-- The AF process of instance `n` at a lock-up (R222); `hz` is the frequency of its tuning. -/
def lockAf (old : Option Forme) (f : Forme) (d : Delta) (hz : Nat) (n : Nat) (a : Af) : Af :=
  match f.lead n with
  | none => Af.reset
  | some k =>
    if old.bind (fun o => o.lead n) = some k ∧ !d.ctxs.contains k then a
    else { Af.reset with state := .learn, lead := Fin.ofNat 256 k, primaryHz := hz, events := a.events }

/-- The transmitter at a lock-up that changes it (R301, R311). -/
def Tx.lockup (t : Tx) (f : Forme) : Tx :=
  match f.tx with
  | none =>
    if t.cmd.isSome then { t with removed := true, recal := true }
    else { t with state := .disabled, calFreq := 0, wantFreq := 0, lock := false }
  | some p =>
    if t.cmd.isSome then { t with removed := false, recal := true }
    else if t.state = .disabled then { (t.tune (txFreq p)) with state := .idle, calFreq := 0 }
    else { t with calFreq := 0 }

/-- A half of the audio port at a lock-up that changes the port (R339), `now` the instant. A grid goes on with its
next index from the epoch after (R329). -/
def Half.lockup (h : Half) (p : Option (List Byte)) (rx first : Bool) (now real : Nat) : Half :=
  match p with
  | none => { h.empty with state := .off, gate := none, suspect := false, pins := [] }
  | some p =>
    if auMask p rx = 0 then { h.empty with state := .off, gate := none, suspect := false, pins := [] }
    else
      let base := match h.grid with | some g => g.index | none => 0
      { (h.starting (auRate p) real) with grid := some (Grid.start (if first then now else now + 1) base) }

/-- The audio port at a lock-up that changes it. -/
def Sai.lockup (a : Sai) (f : Forme) (first : Bool) (src : Option (Fin 48)) (now real : Nat) : Sai :=
  { a with tx := a.tx.lockup f.audio false first now real, rx := a.rx.lockup f.audio true first now real,
           source := src, srcGate := none, rxAudio := none, missed := 0 }

/-- The grid of an instance with programme audio: a new one where the instance or the port changes (R329). -/
def lockGrid (f : Forme) (d : Delta) (first : Bool) (old : Inst) (now n : Nat) (i : Inst) : Inst :=
  if !dmAudio (f.dm n) ∨ !f.has 4 n then i
  else if !d.insts.contains n ∧ !d.audio then i
  else
    let base := match old.grid with | some g => g.index | none => 0
    let t := if first || !d.audio then now else now + 1
    { i with grid := some (Grid.start t base) }

/-- Candidates that the new forme leaves without their spare tuning or their spare cells stop. -/
def Slice.dropCands (x : Slice) (f : Forme) : Slice :=
  (List.range 32).foldl (fun y t =>
    match vget y.candInfo t none with
    | some i =>
      if f.spareTunings.testBit t && i.cells.all (fun k => y.shadow.spare.contains k) && f.has 4 i.key.val then y
      else (y.stopCand t).modAf i.key.val (fun a =>
        if a.cand = some (Fin.ofNat 32 t) then { a with cand := none, state := .primary } else a)
    | none => y) x

/-- The slice with forme `f` in its shadow store and in force (R72, R405). -/
def Slice.bringForme (x : Slice) (f : Forme) (places : List (Nat × Nat)) : Slice :=
  { x with
    ctl := { x.ctl with state := .running },
    shadow := { x.shadow with
      active := some f, bad := false, lostCrc := none, reload := none, boot := none,
      cellBase := vmapIdx (fun n _ => placeOf places n) x.shadow.cellBase,
      firBase := vmapIdx (fun t _ => placeOf ((placeFir f x.err.isolatedFir).getD []) t) x.shadow.firBase,
      spare := spareCellsOf f x.err.isolated places } }

/-- The receive chain of the slice at the instant (R74, R77). -/
def Slice.bringChain (x : Slice) (f : Forme) (d : Delta) (now real : Nat) : Slice :=
  { x with
    afe := if d.fe then x.afe.lockup f now else x.afe,
    tun := vmapIdx (lockTun f d now) x.tun,
    grpPeak := vmapIdx (fun g _ =>
      loadPm (({ x with tun := vmapIdx (lockTun f d now) x.tun } : Slice).fadeLoad f g 32) (f.period (8 + 8 * g))) x.grpPeak,
    inst := vmapIdx (lockInst f d real) x.inst,
    acq := vmapIdx (fun n a =>
      if d.insts.contains n then { Acq.reset with events := if f.has 4 n then a.events else 0 } else a) x.acq }

/-- The service elements, the transmitter and the audio port at the instant. `old` is the forme that was in force
and `was` the instances under it. -/
def Slice.bringService (x : Slice) (old : Option Forme) (was : Vector Inst 48) (f : Forme) (d : Delta) (now real : Nat) :
    Slice :=
  let first := old.isNone
  let y := { x with
    inst := vmapIdx (fun n i => lockGrid f d first (vget was n Inst.reset) now n i) x.inst,
    ctx := vmapIdx (lockCtx f d) x.ctx,
    mac := { x.mac with replay := x.mac.replay.filter (fun r =>
      f.slotOf r.context.val r.label.toNat == some r.slot.val) },
    tx := if d.tx then x.tx.lockup f else x.tx }
  let z := { y with
    af := vmapIdx (fun n a => lockAf old f d (y.regHz (dmTuning (f.dm n))) n a) y.af,
    sai := if d.audio then y.sai.lockup f first (y.audioSource f) now real else y.sai }
  z.syncMirror.dropCands f

/-- A burst command that waits in a queue which no longer carries burst commands completes with REJECTED_STATE
(R311). -/
def State.dropBursts (s : State) (c : Fin 4) : State :=
  (List.range 7).foldl (fun t i =>
    let q := localQ c (53 + i)
    match t.inHand q 0x50 with
    | some cmd => if t.carries q .tx then t else t.finish cmd Status.rejected []
    | none => t) s

/-- Forme `f` takes effect in slice `c` at TB value `now` (R74): every record before the instant belongs to the old
forme, every one from it on to the new. -/
def State.commitForme (s : State) (c : Fin 4) (f : Forme) (places : List (Nat × Nat)) (now : Nat) : State :=
  let d := (s.sl c).delta f places
  let old := (s.sl c).inForce
  let s1 := s.cutOld c f places d now
  let was := (s1.sl c).inst
  let s2 := s1.modSl c (fun x =>
    ((x.bringForme f places).bringChain f d now s.real).bringService old was f d now s.real)
  let s3 := ((s2.setClaim c f.evtClaim).recheckOffers.reroute c).dropBursts c
  let s4 := s3.modSl c (fun x => x.fillAll s.real now)
  let held := s4.holds (rxReq c)
  if f.rxAsk < held then s4.release (rxReq c) (held - f.rxAsk) else s4

/-! ### The instant (R69, R72 to R76, R82) -/

/-- What fails at the instant, if anything: the base of an amendment (R82), or a check of R69. -/
def State.lockCheck (s : State) (c : Fin 4) (f : Forme) (base : Option Word) : Option FormeErr :=
  let now := match (s.sl c).forme with
    | some a => if (s.sl c).shadow.bad then none else some a.crc
    | none => none
  if base.isSome ∧ base ≠ now then some (Status.conflict, none) else checkForme f (s.checkEnv c)

/-- TYPE and KEY of the record that failed a check (R71). -/
def errResult (e : FormeErr) : List Byte :=
  match e.2 with
  | some (ty, key) => le 2 ty ++ le 2 key
  | none => []

/-- Tokens that a lock-up asked for are given back: the slice keeps the grant of its active forme, or the base
grant (R371, R72). -/
def State.keepGrant (s : State) (c : Fin 4) : State :=
  let keep := match (s.sl c).forme with | some f => f.rxAsk | none => 46
  let held := s.holds (rxReq c)
  let s1 := { s with pwr := { s.pwr with
    want := vmod s.pwr.want (rxReq c) (fun _ => 0), rxAsk := vmod s.pwr.rxAsk c.val (fun _ => .none) } }
  if keep < held then s1.release (rxReq c) (held - keep) else s1

/-- The staged area changed. -/
def State.setArea (s : State) (c : Fin 4) (a : Staged2) : State :=
  s.modSl c (fun x => { x with shadow := { x.shadow with area := a } })

/-- A FORME_LOCKUP that waits completes. -/
def State.lockDone (s : State) (cmd : Option CmdRef) (status : Nat) (result : List Byte) : State :=
  match cmd with
  | some r => s.complete r status result
  | none => s

/-- The pending lock-up of slice `c` takes effect at TB value `now`, or fails (R72). -/
def State.lockStaged (s : State) (c : Fin 4) (f : Forme) (base : Option Word) (cmd : Option CmdRef) (now : Nat) :
    State :=
  match s.lockCheck c f base, placeCells f (s.sl c).err.isolated with
  | some e, _ => ((s.keepGrant c).setArea c (.staged f base)).lockDone cmd e.1 (errResult e)
  | none, none => ((s.keepGrant c).setArea c (.staged f base)).lockDone cmd Status.capacity []
  | none, some places =>
    ((s.commitForme c f places now).setArea c .empty).lockDone cmd Status.ok (le 8 now ++ le 4 f.crc.toNat)

/-- A FAULT for a boot entry that fails its checks (R84). -/
def State.bootFault (s : State) (c : Fin 4) (status entry : Nat) : State :=
  s.fault { status := status, event := 0x13, level := 2, action := 0, block := 0x42, unit := entry,
            detail := entry, slice := c.val }

/-- The forme that a starting slice holds takes effect at TB value `now` (R84): that of its active area, or of its
boot entry, which it then reports where it fails. DESIGN CHOICE: a reload of the active area that fails a check is reported
in the same way, with entry 0xFFFF, and leaves the slice IDLE with its active area empty; R84 speaks of a boot entry only
(log entry 76). -/
def State.lockBoot (s : State) (c : Fin 4) (now : Nat) : State :=
  let x := s.sl c
  let idle (s : State) : State := (s.modSl c (fun x => { x with
    ctl := { x.ctl with state := .idle },
    shadow := { x.shadow with reload := none, boot := none, active := none } })).dropRules c
  let go (s : State) (f : Forme) (entry : Nat) : State :=
    match checkForme f (s.checkEnv c), placeCells f x.err.isolated with
    | some e, _ => (idle (s.bootFault c e.1 entry)).keepGrant c
    | none, none => (idle (s.bootFault c Status.capacity entry)).keepGrant c
    | none, some places => s.commitForme c f places now
  match x.shadow.boot, x.shadow.active with
  | some (e, f, true), _ => go s f e.val
  | some (_, _, false), _ => s
  | none, some f => go s f 0xFFFF
  | none, none => idle s

/-- The lock-up of slice `c` with instant `at_` takes effect at TB value `now`. Entries due before the instant belong to
the old forme (R74). -/
def State.lockNow (s : State) (c : Fin 4) (at_ now : Nat) : State :=
  let s1 := if at_ = 0 then s else s.runEntries c (at_ - 1)
  let x := s1.sl c
  if x.ctl.state = .calibrating then s1.lockBoot c now
  else
    match x.shadow.area with
    | .pending f base _ cmd => s1.lockStaged c f base cmd now
    | _ => s1

/-- Whether something comes before a lock-up of slice `c` at instant `t` and has not been done: another slice's lock-up
at an earlier instant, or at the same one in a lower-numbered slice (R76), or a registration before it (R74). -/
def State.lockBefore (s : State) (c : Fin 4) (t : Nat) : Bool :=
  allSlices.any (fun d => match (s.sl d).lockReady s.tb with
    | some u => decide (u < t) || (u == t && decide (d < c))
    | none => false)
  || (match s.trk.nextReg with
    | some e => decide (e.tick < t) && !s.tbm.warpAt e.tick
    | none => false)

/-- LOCKUP_INSTANT (R74): TB has reached the instant. While the slice's MDLL is unlocked the lock-up waits for the
re-registration (R75); at one instant the lower-numbered slice comes first (R76). -/
def execLockupInstant (c : Fin 4) (s : State) : Host.Outcome State Fault Refusal :=
  run s fun s =>
    match (s.sl c).lockReady s.tb with
    | none => s
    | some t => if s.lockBefore c t then s else s.lockNow c t t

end Sys2Proof.Machine
end

