-- ==== Sys2Proof/Machine/FormeCmds.lean ====
section
/-! DEFINITION. Forme commands on a slice's control queue and library commands on module queue 12
(R71 to R73, R81, R83 to R86). -/

namespace Sys2Proof.Machine

open Sys2Proof

/-! ### The staged area (R72) -/

/-- The valid active forme, which an amendment is merged with (R81, R405). -/
def Slice.mergeBase (x : Slice) : Option Forme := if x.shadow.bad then none else x.forme

/-- A whole forme in the staged area: the checks of R53, the merge of R81 and the checks of R69. The answer is the
area after it, the status and the result. -/
def State.stageForme (s : State) (c : Fin 4) (b : List Byte) : Staged2 × Nat × List Byte :=
  match parseForme b (s.sl c).mergeBase with
  | .error e => (.empty, e.1, errResult e)
  | .ok (f, base) =>
    match checkForme f (s.checkEnv c) with
    | some e => (.empty, e.1, errResult e)
    | none => (.staged f base, Status.ok, le 4 f.crc.toNat)

/-- The bytes of a loading area with a chunk more: the header check as soon as 48 bytes are there, the rest once
TOTAL_LENGTH bytes are. -/
def State.loadChunk (s : State) (c : Fin 4) (b : List Byte) : Staged2 × Nat × List Byte :=
  if b.length < 48 then (.loading b s.real, Status.ok, [])
  else
    match headerCheck b with
    | some code => (.empty, code, [])
    | none => if b.length < u32 b 8 then (.loading b s.real, Status.ok, []) else s.stageForme c b

/-- A command that changes the staged area completes. -/
def State.areaDone (s : State) (c : Fin 4) (cmd : Command) (r : Staged2 × Nat × List Byte) : State :=
  ((s.setArea c r.1).modSl c (fun x => { x with shadow := { x.shadow with timedOut := false } })).finish cmd
    r.2.1 r.2.2

/-- A chunk reaches the staged area (R72). DESIGN CHOICE: a chunk that LOADING discards does not start the 10 s of
"no chunk" again; only one that is stored does (log entry 76). -/
def State.setChunk (s : State) (c : Fin 4) (cmd : Command) (off : Nat) (data : List Byte) : State :=
  let sh := (s.sl c).shadow
  match sh.area with
  | .empty =>
    if off = 0 then s.areaDone c cmd (s.loadChunk c data)
    else if sh.timedOut then s.areaDone c cmd (.empty, Status.timeout, [])
    else s.finish cmd Status.badParam []
  | .loading b _ =>
    if off = 0 then s.finish cmd Status.rejected []
    else if off ≠ b.length then s.finish cmd Status.badParam []
    else s.areaDone c cmd (s.loadChunk c (b ++ data))
  | _ => s.finish cmd Status.rejected []

/-- FORME_SET_CHUNK (R71, R72). -/
def execFormeSetChunk (c : Fin 4) (s : State) : Host.Outcome State Fault Refusal :=
  run s fun s =>
    match s.inHand (localQ c 52) 0x20 with
    | none => s
    | some cmd =>
      let n := u32 cmd.body 4
      if !(s.sl c).up then s.finish cmd Status.rejected []
      else if n % 4 ≠ 0 ∨ n < 4 ∨ 4096 < n then s.finish cmd Status.badParam []
      else s.setChunk c cmd (u32 cmd.body 0) (slice cmd.body 8 n)

/-- The lock-up instant that a FORME_LOCKUP accepted now gets (R73), none where its time is too near. -/
def lockTime (mode atTb now : Nat) : Option Nat :=
  if mode = 0 then some (alignUp (2 ^ 20) (now + 2 ^ 16))
  else if atTb < now + 2 ^ 16 then none else some atTb

/-- The tokens by which the receive grant of a forme exceeds what the slice holds (R371). -/
def State.rxMore (s : State) (c : Fin 4) (f : Forme) : Nat := f.rxAsk - s.holds (rxReq c)

/-- A FORME_LOCKUP accepted: its instant is fixed, and it is PENDING at once where it needs no more tokens. -/
def State.acceptLockup (s : State) (c : Fin 4) (cmd : Command) (f : Forme) (base : Option Word) (t : Nat) : State :=
  let s1 := s.keep cmd
  let more := s.rxMore c f
  if more = 0 then s1.setArea c (.pending f base t (some cmd.ref))
  else
    let s2 := (s1.setArea c (.asking f base t (some cmd.ref))).ask (rxReq c) more
    { s2 with pwr := { s2.pwr with rxAsk := vmod s2.pwr.rxAsk c.val (fun _ => .lockup) } }

/-- FORME_LOCKUP (R71 to R73). -/
def execFormeLockup (c : Fin 4) (s : State) : Host.Outcome State Fault Refusal :=
  run s fun s =>
    match s.inHand (localQ c 52) 0x21 with
    | none => s
    | some cmd =>
      if !(s.sl c).up then s.finish cmd Status.rejected []
      else if 1 < u8 cmd.body 0 then s.finish cmd Status.badParam []
      else
        match (s.sl c).shadow.area with
        | .staged f base =>
          if f.crc.toNat ≠ u32 cmd.body 4 then s.finish cmd Status.rejected []
          else
            match lockTime (u8 cmd.body 0) (u64 cmd.body 8) s.tb with
            | none => s.finish cmd Status.timeout []
            | some t => s.acceptLockup c cmd f base t
        | _ => s.finish cmd Status.rejected []

/-- The staged area cleared: a pending lock-up gives its tokens back and completes with `status` (R72). -/
def State.clearArea (s : State) (c : Fin 4) (status : Nat) : State :=
  match (s.sl c).shadow.area with
  | .asking _ _ _ cmd => ((s.keepGrant c).setArea c .empty).lockDone cmd status []
  | .pending _ _ _ cmd => ((s.keepGrant c).setArea c .empty).lockDone cmd status []
  | _ => s.setArea c .empty

/-- FORME_DISCARD (R72). -/
def execFormeDiscard (c : Fin 4) (s : State) : Host.Outcome State Fault Refusal :=
  run s fun s =>
    match s.inHand (localQ c 52) 0x22 with
    | none => s
    | some cmd =>
      if !(s.sl c).up then s.finish cmd Status.rejected []
      else (s.clearArea c Status.rejected).finish cmd Status.ok []

/-- The code of the staged area's state (log entry 12). -/
def Staged2.code : Staged2 → Nat
  | .empty => 0
  | .loading _ _ => 1
  | .staged _ _ => 2
  | .asking _ _ _ _ => 3
  | .pending _ _ _ _ => 3

/-- FORME_CRC of the staged forme and the pending instant, 0 where there is none. -/
def Staged2.shown : Staged2 → Nat × Nat
  | .empty => (0, 0)
  | .loading _ _ => (0, 0)
  | .staged f _ => (f.crc.toNat, 0)
  | .asking f _ t _ => (f.crc.toNat, t)
  | .pending f _ t _ => (f.crc.toNat, t)

/-- The result of FORME_QUERY (R71). -/
def Shadow.report (h : Shadow) : List Byte :=
  let a := match h.active with
    | some f => (f.crc.toNat, f.generation.toNat, padTo 16 f.name)
    | none => (0, 0, padTo 16 [])
  le 4 h.area.code ++ le 4 a.1 ++ le 4 a.2.1 ++ le 4 h.area.shown.1 ++ le 8 h.area.shown.2 ++ a.2.2
    ++ h.cellBase.toList.map (fun b => BitVec.ofNat 8 (b.getD 0xFF))

/-- FORME_QUERY (R70, R71). -/
def execFormeQuery (c : Fin 4) (s : State) : Host.Outcome State Fault Refusal :=
  run s fun s =>
    match s.inHand (localQ c 52) 0x23 with
    | none => s
    | some cmd =>
      if !(s.sl c).up then s.finish cmd Status.rejected []
      else s.finish cmd Status.ok (s.sl c).shadow.report

/-- STAGING_TIMEOUT (R72): no chunk for 10 s. -/
def execStagingTimeout (c : Fin 4) (s : State) : Host.Outcome State Fault Refusal :=
  run s fun s =>
    match (s.sl c).shadow.area with
    | .loading b last =>
      if s.real < last + secTicks 10 then s
      else
        let s1 := (s.setArea c .empty).modSl c (fun x => { x with shadow := { x.shadow with timedOut := true } })
        s1.fault { status := Status.timeout, event := 0x15, level := 1, action := 0, block := 0x42,
                   detail := b.length, slice := c.val }
    | _ => s

/-! ### The library (R83 to R86) -/

/-- The library entry `n`. -/
def Fls.entry (f : Fls) (n : Nat) : Option LibEntry := vget f.library n none

/-- The forme that a LIB_STORE names: the valid active forme, or the staged one. -/
def Slice.storeSource (x : Slice) (staged : Bool) : Option Forme :=
  if staged then
    match x.shadow.area with
    | .staged f _ => some f
    | .asking f _ _ _ => some f
    | .pending f _ _ _ => some f
    | _ => none
  else x.mergeBase

/-- LIB_STORE (R71, R85): it completes when the entry is written. An ENTRY beyond the 64 entries would exceed them. -/
def execLibStore (s : State) : Host.Outcome State Fault Refusal :=
  run s fun s =>
    match s.inHand 12 0x28 with
    | none => s
    | some cmd =>
      let b := cmd.body
      if h : u8 b 2 < 64 then
        if 4 ≤ u8 b 0 ∨ 2 ≤ u8 b 1 then s.finish cmd Status.badParam []
        else
          match (s.sl (Fin.ofNat 4 (u8 b 0))).storeSource (u8 b 1 == 1) with
          | none => s.finish cmd Status.rejected []
          | some f =>
            let bytes := f.bytes
            if 4 * 1024 * 1024 < s.libraryBytes (u8 b 2) + bytes.length then s.finish cmd Status.noResource []
            else
              match (s.keep cmd).flashWrite (.pool (flashKib bytes.length)) (.libStore cmd.ref ⟨u8 b 2, h⟩ bytes) with
              | some s1 => s1
              | none => s.flashDeny.finish cmd Status.budget []
      else s.finish cmd Status.noResource []

/-- LIB_LOAD (R72, R86). -/
def execLibLoad (s : State) (ecc : Option Bool := none) : Host.Outcome State Fault Refusal :=
  run s fun s =>
    match s.inHand 12 0x29 with
    | none => s
    | some cmd =>
      let b := cmd.body
      let c : Fin 4 := Fin.ofNat 4 (u8 b 1)
      if 64 ≤ u8 b 0 ∨ 4 ≤ u8 b 1 then s.finish cmd Status.badParam []
      else if !(s.sl c).up ∨ (s.sl c).shadow.area ≠ .empty then s.finish cmd Status.rejected []
      else
        match s.fls.entry (u8 b 0) with
        | none => s.finish cmd Status.rejected []
        | some e =>
          let s1 := s.eccMaybe ecc (u8 b 0)
          if ecc = some false then s1.finish cmd Status.parity []
          else s1.areaDone c cmd (s1.loadChunk c e.forme)

/-- LIB_ERASE (R71, R85): it completes when the entry is erased. -/
def execLibErase (s : State) : Host.Outcome State Fault Refusal :=
  run s fun s =>
    match s.inHand 12 0x2A with
    | none => s
    | some cmd =>
      if h : u8 cmd.body 0 < 64 then
        match (s.keep cmd).flashWrite (.pool 4) (.libErase cmd.ref ⟨u8 cmd.body 0, h⟩) with
        | some s1 => s1
        | none => s.flashDeny.finish cmd Status.budget []
      else s.finish cmd Status.badParam []

/-- BOOT of an entry with the bit of slice `c` set or cleared. -/
def LibEntry.setBoot (e : LibEntry) (c : Nat) (on : Bool) : LibEntry :=
  let m := e.boot.toNat
  { e with boot := BitVec.ofNat 4 (if m.testBit c == on then m else m ^^^ 2 ^ c) }

/-- The bit of slice `c` moved to an entry, or cleared everywhere (R83). -/
def Fls.moveBoot (f : Fls) (c : Nat) (entry : Option Nat) : Fls :=
  { f with library := vmapIdx (fun i e => e.map (fun e => e.setBoot c (entry == some i))) f.library }

/-- LIB_BOOT (R71, R83). -/
def execLibBoot (s : State) : Host.Outcome State Fault Refusal :=
  run s fun s =>
    match s.inHand 12 0x2B with
    | none => s
    | some cmd =>
      let c := u8 cmd.body 0
      let e := u8 cmd.body 1
      if 4 ≤ c ∨ (64 ≤ e ∧ e ≠ 0xFF) then s.finish cmd Status.badParam []
      else if e ≠ 0xFF ∧ (s.fls.entry e).isNone then s.finish cmd Status.rejected []
      else
        ({ s with fls := s.fls.moveBoot c (if e = 0xFF then none else some e) }).finish cmd Status.ok []

/-- The bytes that LIB_LIST gives for an entry (R71), all zero where it is empty. -/
def libLine (e : Option LibEntry) : List Byte :=
  match e with
  | none => List.replicate 32 0
  | some e =>
    slice e.forme 24 16 ++ le 4 (u32 e.forme 16) ++ le 4 (u32 e.forme (e.forme.length - 4))
      ++ le 4 e.forme.length ++ [BitVec.ofNat 8 e.boot.toNat, 0, 0, 0]

/-- LIB_LIST (R71). -/
def execLibList (s : State) : Host.Outcome State Fault Refusal :=
  run s fun s =>
    match s.inHand 12 0x2C with
    | none => s
    | some cmd => s.finish cmd Status.ok (s.fls.library.toList.flatMap libLine)

end Sys2Proof.Machine
end

