-- ==== Sys2Proof/Machine/Steps.lean ====
section
/-! DEFINITION. Steps and holds of TB at registration points (R89, R100 to R102, R345), the loss of a slice's
sampling clock and its re-registration (R104 to R107, R167). -/

namespace Sys2Proof.Machine

open Sys2Proof

/-! ### What a step skips (R102) -/

/-- A happening scheduled at a TB value that a step skips. -/
inductive Skipped where
  | lockup (c : Fin 4)
  | entry (c : Fin 4) (e : SchedEntry)
  | burst (c : Fin 4)
  | pulse (pin : Fin 8)
  | reg (e : PendReg)
  deriving DecidableEq, Repr

/-- The order of happenings with one TB value: slices in ascending order, in each the lock-up first, module events
after them (R32, R75). -/
def Skipped.rank : Skipped → Nat
  | .lockup c => 4 * c.val
  | .entry c _ => 4 * c.val + 1
  | .burst c => 4 * c.val + 2
  | .pulse _ => 20
  | .reg _ => 21

/-- Entries of one tick come in order of their rules (R236). -/
def Skipped.rule : Skipped → Nat
  | .entry _ e => e.rule.val
  | _ => 0

/-- All that is scheduled after TB value `p` and before `now`, and the registration at `p` itself, each with its TB
value, in order. -/
def State.skipped (s : State) (p now : Nat) : List (Nat × Skipped) :=
  let cut (t : Nat) : Bool := decide (p < t) && decide (t < now)
  let locks := allSlices.filterMap (fun c => match (s.sl c).lockInstant with
    | some t => if cut t && !(s.sl c).clk.coast then some (t, Skipped.lockup c) else none
    | none => none)
  let entries := allSlices.flatMap (fun c => (s.sch c).entries.filterMap (fun e => match e.due, e.done with
    | some t, none => if cut t then some (t, Skipped.entry c e) else none
    | _, _ => none))
  let bursts := allSlices.filterMap (fun c => match (s.sl c).tx.cmd with
    | some k => if cut k.planned then some (k.planned, Skipped.burst c) else none
    | none => none)
  let pulses := (List.range 8).filterMap (fun i => match (s.evt.get (Fin.ofNat 8 i)).pulse with
    | some (t, _, _) => if cut t then some (t, Skipped.pulse (Fin.ofNat 8 i)) else none
    | none => none)
  let regs := s.trk.pending.filterMap (fun e =>
    if e.tick = p || cut e.tick then some (e.tick, Skipped.reg e) else none)
  sortBy (fun q => (q.1 * 32 + q.2.rank) * 64 + q.2.rule) (locks ++ entries ++ bursts ++ pulses ++ regs)

/-- A skipped happening takes effect at the step, at TB value `now`, where it still stands. -/
def State.takeSkipped (s : State) (p now : Nat) : Skipped → State
  | .lockup c => s.lockNow c (p + 1) now
  | .entry c e =>
    if (s.sch c).entries.contains e then s.executeEntry c e (e.due.getD now) now true else s
  | .burst c => s.txCheck c
  | .pulse pin => s.endPulse pin now
  | .reg e => if s.trk.pending.contains e then s.register e now (decide (p < e.tick)) else s

/-- A re-registration that the step skips takes effect at it. -/
def State.skipRereg (s : State) (p now : Nat) : State :=
  s.modSlices (fun _ x => { x with clk := { x.clk with
    reregAt := x.clk.reregAt.map (fun t => if p < t ∧ t < now then now else t) } })

/-! ### Steps (R89, R100, R101) -/

/-- TB jumps: the tick after the point of a step of `amount` ticks. -/
def Tbm.jump (t : Tbm) (p amount kind : Nat) : Tbm :=
  let now := p + amount + 1
  { t with
    tb := now, step := none, warps := t.warps ++ [(p, (amount : Int))],
    offset := if kind = 0 then t.offset + amount else 0, slewing := false, slewAcc := 0,
    srcOff := vmap (fun o => o + amount) t.srcOff, moved := t.moved + amount,
    origin := t.origin || kind == 2, originAt := if kind = 2 then p else t.originAt,
    events := if kind = 2 then raise (raise t.events 5) 6 else raise t.events 5 }

/-- The pending step takes place at its point (R101): the tick after it, and all that it skips. -/
def State.doStep (s : State) (k : PendStep) : State :=
  let now := k.point + k.amount + 1
  let s1 := { s with real := s.real + 1, tbm := s.tbm.jump k.point k.amount k.kind }
  let s2 := s1.stepRecord k.kind k.source 0 k.point k.amount
  let s3 := if k.kind = 2 then s2.resolveEntries else s2
  let s4 := (s3.skipped k.point now).foldl (fun t q => t.takeSkipped k.point now q.2) s3
  (([0, 1, 2, 3, 4, 5, 6, 7] : List (Fin 8)).foldl (fun t pin => t.endPulse pin (now - 1)) s4).skipRereg k.point now

/-- TB_STEP (R100): TB stands at the registration point of the pending step. -/
def execTbStep (s : State) : Host.Outcome State Fault Refusal :=
  run s fun s =>
    match s.tbm.step with
    | some k => if k.point = s.tb ∧ k.kind ≠ 2 then s.doStep k else s
    | none => s

/-- ORIGIN_CHANGE (R89): the step that gives TB the TAI origin. -/
def execOriginChange (s : State) : Host.Outcome State Fault Refusal :=
  run s fun s =>
    match s.tbm.step with
    | some k => if k.point = s.tb ∧ k.kind = 2 then s.doStep k else s
    | none => s

/-! ### Holds (R100, R101) -/

/-- The ticks of the next hold. -/
def Tbm.holdTicks (t : Tbm) : Nat := min t.offset.toNat (2 ^ 20)

/-- A hold begins at point `p`. -/
def Tbm.startHold (t : Tbm) (p : Nat) : Tbm :=
  let h := t.holdTicks
  { t with
    hold := some { point := p, left := h }, holdsAt := none, offset := t.offset - h,
    srcOff := vmap (fun o => o - h) t.srcOff, moved := t.moved - h, warps := t.warps ++ [(p, -(h : Int))],
    events := raise t.events 5 }

/-- A hold begins at `p` (R100, R102): its record, the next one where the offset needs it, and the registration armed
at `p`. -/
def State.doHold (s : State) (p : Nat) : State :=
  let h := s.tbm.holdTicks
  let rest := (s.tbm.offset - h).toNat
  let s1 := ({ s with tbm := s.tbm.startHold p }).stepRecord 1 s.tbm.source (ceilDiv rest (2 ^ 20)) p h
  let s2 := if rest = 0 then s1
    else ({ s1 with tbm := { s1.tbm with holdsAt := some (p + 2 ^ 30) } }).armTbm (p + 2 ^ 30)
  match s2.trk.pending.find? (fun e => e.tick == p) with
  | some e => s2.register e p false
  | none => s2

/-- TB_HOLD (R100): TB stands at the registration point of the next hold. -/
def execTbHold (s : State) : Host.Outcome State Fault Refusal :=
  run s fun s => if s.tbm.holdsAt = some s.tb then s.doHold s.tb else s

/-! ### Loss of the sampling clock (R104, R167) -/

/-- The clock of a slice at a lock-loss declaration. -/
def Clk.lose (k : Clk) (tb real : Nat) : Clk :=
  { k with
    lock := false, bypass := true, coast := true, aligned := false, goodEpochs := 0, phaseErr := 0,
    events := raise k.events 0, lockLoss := count 16 1 k.lockLoss, lastLoss := tb, declared := tb,
    lastAttempt := real, loadAt := none, reregAt := none }

/-- The units open in an instance at COAST (R167): a block of each enabled RDS stream, a bit, a minute; audio has none, and a burst
is aborted. -/
def openUnits (p : List Byte) (real : Nat) : Nat :=
  match dmProfile p with
  | 1 => 0
  | 2 => 1
  | 3 => ((List.range 4).filter (fun k => (u8 (dmParams p) 2).testBit k)).length
  | 7 => 1
  | 8 => 0
  | n => Config.openUnits n real

/-- An instance at COAST (R167): HOLD; the units open in it count in UNIT_FAIL. -/
def Inst.coast (i : Inst) (p : List Byte) (real : Nat) : Inst :=
  if i.state.busy then
    let n := if i.state = .search then 0 else openUnits p real
    let k := i.enter .hold real
    { k with unitFail := count 32 n k.unitFail }
  else i

/-- An instance or candidate at COAST: its burst is aborted with cause 0x01 (R197), it enters HOLD, and what follows
from its leaving TRACK follows. -/
def State.coastInst (s : State) (c : Fin 4) (r : InstRef) : State :=
  let s1 := (s.abortBurst c r 1).modAcquirer c r (fun a => { a with winStop := none })
  let was := ((s1.sl c).demod r).state
  let real := s1.real
  let s2 := s1.modSl c (fun x => x.modDemod r (fun i => i.coast (x.refRec r) real))
  if was = .track then s2.leftTrack c r else s2

/-- The AF process of an instance at COAST (R222). -/
def State.coastAf (s : State) (c : Fin 4) (n : Fin 48) : State :=
  match ((s.sl c).afAt n.val).state with
  | .check => s.failCheck c n true
  | .speculative => s.undoSpec c n 3 s.tb
  | _ => s

/-- Every tuning of a slice at COAST: its last samples are marked and handed over (R104 step 2, R288). -/
def State.coastChains (s : State) (c : Fin 4) : State :=
  let now := s.tb
  let warps := s.tbm.warps
  let s1 := s.modSl c (fun x => { x with tun := vmapIdx (fun t u =>
    u.suspectFresh (if x.tunRuns t then x.inForce.map (fun f => x.confOf f t) else none) warps now) x.tun })
  (List.range 32).foldl (fun t n => t.endSamples c n) s1

/-- All instances and candidates of a slice. -/
def Slice.refs (x : Slice) : List InstRef :=
  ((List.range 48).filter (fun n => (x.instAt n).declared)).map (fun n => InstRef.inst (Fin.ofNat 48 n))
    ++ ((List.range 32).filter (fun t => (vget x.candInfo t none).isSome)).map (fun t => InstRef.cand (Fin.ofNat 32 t))

/-- The FAULT record of a lock loss (R104 step 5, R434). -/
def State.clockFault (s : State) (c : Fin 4) : State :=
  s.fault { status := Status.clockLoss, event := 0x10, level := 2, action := 0, block := 0x01, slice := c.val }

/-- The MDLL of slice `c` loses lock (R104). -/
def State.loseClock (s : State) (c : Fin 4) : State :=
  let s1 := s.coastChains c
  let s2 := s1.modSl c (fun x =>
    let starting := x.ctl.state == .calibrating && x.shadow.reload.isNone
    { x with clk := x.clk.lose s.tb s.real,
             afe := if starting then { x.afe with calLosses := x.afe.calLosses ++ [s.tb] } else x.afe })
  let s3 := (List.range 48).foldl (fun t n => t.coastAf c (Fin.ofNat 48 n)) s2
  let s4 := (s3.sl c).refs.foldl (fun t r => t.coastInst c r) s3
  ((s4.calCut c Status.clockLoss).txClockLoss c).dropTiming.clockFault c

/-- MDLL_LOCK_LOSS (R104). -/
def execMdllLockLoss (c : Fin 4) (s : State) : Host.Outcome State Fault Refusal :=
  run s fun s => if (s.sl c).timingOk then s.loseClock c else s

/-! ### Re-registration (R106, R107) -/

/-- Output periods between the last delivered sample of a tuning and its first one after a re-registration at `t`
(R107). -/
def Slice.gapLen (x : Slice) (f : Forme) (n t : Nat) : Nat :=
  match (x.tunAt n).lastTs with
  | some l => (t + 48 + (x.confOf f n).skew - l) / (x.confOf f n).period - 1
  | none => 0

/-- The samples that a tuning lost in a clock gap: its indices run on (R107), and a queue that carries its SAMPLES
shows them. -/
def State.sampleGap (s : State) (c : Fin 4) (f : Forme) (t n : Nat) : State :=
  let x := s.sl c
  match (x.tunAt n).lastTs with
  | none => s
  | some l =>
    let lost := x.gapLen f n t
    let s1 := s.modSl c (fun x => x.modTun n (fun u => { u with index := u.index + lost }))
    let q := tnQueue (f.tn n)
    if !f.has 2 n ∨ q = 0xFF ∨ lost = 0 ∨ !x.tunRuns n then s1
    else s1.gap (localQ c q) 4 0 [⟨BitVec.ofNat 8 n, lost, (x.tunAt n).index + lost⟩] (l + f.period n)

/-- Points of a frame grid up to TB value `t` (R329). -/
def Grid.points (g : Grid) (rate t : Nat) : Nat :=
  if t < g.at_ then 0 else ((t - g.at_ + 1) * rate - 1) / 1024000000 + 1

/-- The programme audio that an instance lost in a clock gap that ends at `t`. -/
def State.audioGap (s : State) (c : Fin 4) (f : Forme) (t n : Nat) : State :=
  let x := s.sl c
  let p := f.dm n
  match (x.instAt n).grid with
  | none => s
  | some g =>
    let rate := x.audioRate
    let a := g.points rate x.clk.declared
    let b := g.points rate t
    if !dmAudio p ∨ dmAudioQueue p = 0xFF ∨ b ≤ a ∨ (x.instAt n).state ≠ .hold then s
    else
      let first := ({ g with k := a } : Grid).next rate
      s.gap (localQ c (dmAudioQueue p)) 4 0 [⟨BitVec.ofNat 8 (dmTuning p), b - a, g.base + b⟩] first

/-- The clock of a slice at its re-registration (R106 step 4). -/
def Clk.rejoin (k : Clk) : Clk :=
  { k with coast := false, bypass := false, reregAt := none, suspect := false, events := raise k.events 1 }

/-- The tunings that a forme declares or a candidate runs on. -/
def Slice.chains (x : Slice) (f : Forme) : List Nat :=
  (List.range 32).filter (fun t => f.has 2 t || (vget x.candInfo t none).isSome)

/-- Instances that held through the gap go to SYNC (R167), and every tuning is reset at air time `at_` with REG_EDGE
(R106 step 3). -/
def Slice.rejoin (x : Slice) (at_ real : Nat) : Slice :=
  let wake (i : Inst) : Inst := if i.state == .hold then i.enter .sync real else i
  let y := { x with inst := vmap wake x.inst, cands := vmap wake x.cands }
  match y.inForce with
  | none => y
  | some f => (y.chains f).foldl (fun z t => z.armReset f t at_ true) y

/-- The re-registration of slice `c` at TB value `t`: the gap is reported, a lock-up that waited takes effect (R75),
and the chains start again. A check that COAST ended returns to PRIMARY_HZ (R222). -/
def State.rejoin (s : State) (c : Fin 4) (t : Nat) : State :=
  let s1 := match (s.sl c).inForce with
    | none => s
    | some f =>
      (f.keys 4).foldl (fun u n => u.audioGap c f t n) (((s.sl c).chains f).foldl (fun u n => u.sampleGap c f t n) s)
  let s2 := s1.modSl c (fun x => { x with clk := x.clk.rejoin })
  let s3 := match (s2.sl c).lockInstant with
    | some u => if u ≤ t then s2.lockNow c u t else s2
    | none => s2
  let s4 := (s3.modSl c (fun x => x.rejoin (t + 48) s.real)).txRelock c
  (List.range 48).foldl (fun u n => if ((u.sl c).afAt n).homing then u.goHome c (Fin.ofNat 48 n) else u) s4

/-- RELOCK_REGISTRATION (R106): the slice-local registration is reached. -/
def execRelockRegistration (c : Fin 4) (s : State) : Host.Outcome State Fault Refusal :=
  run s fun s =>
    match (s.sl c).clk.reregAt with
    | some t => if t ≤ s.tb ∧ (s.sl c).clk.lock then s.rejoin c t else s
    | none => s

end Sys2Proof.Machine
end

