-- ==== Sys2Proof/Machine/SliceLife.lean ====
section
/-! DEFINITION. The life of a slice (R21, R35 to R38, R84, R127, R320, R405): stopping its blocks, slice resets, the
self-test and the start-up calibrations. -/

namespace Sys2Proof.Machine

open Sys2Proof

/-! ### Stopping a slice (R21) -/

/-- The AF processes of a slice that stops: a speculation is undone, as a candidate that loses TRACK undoes it. -/
def State.stopAf (s : State) (c : Fin 4) : State :=
  (List.range 48).foldl (fun t n =>
    if ((t.sl c).afAt n).state = .speculative then t.undoSpec c (Fin.ofNat 48 n) 3 t.tb else t) s

/-- The bursts in hand of a slice that stops end with cause 0x06 (R197). -/
def State.stopBursts (s : State) (c : Fin 4) : State :=
  (s.sl c).refs.foldl (fun t r => t.abortBurst c r 6) s

/-- Open SAMPLES and AUDIO records of a slice that stops are closed whole (R21). -/
def State.stopRecords (s : State) (c : Fin 4) : State :=
  let s1 := (List.range 32).foldl (fun t n => t.endSamples c n) s
  ((List.range 48).foldl (fun t n => t.closeAudio c n) s1).endCapture c

/-- Messages open in a slice that stops: an envelope ends with REJECTED_STATE, a plain message is discarded. -/
def State.stopContexts (s : State) (c : Fin 4) : State :=
  (List.range 256).foldl (fun t k =>
    (t.envCut c (Fin.ofNat 256 k) Status.rejected).resetParser c (Fin.ofNat 256 k)) s

/-- The transmitter of a slice that stops: windows and the command in hand end with REJECTED_STATE, or with the
status of the abort that it is ending with (R314). -/
def State.stopTx (s : State) (c : Fin 4) : State :=
  let ws := (s.sl c).tx.windows
  let s1 := s.modTx c (fun t => { t with windows := [] })
  let s2 := ws.foldl (fun t w => t.complete w.cmd Status.rejected (le 4 0)) s1
  match (s2.sl c).tx.cmd with
  | none => s2
  | some k =>
    let ending := (s2.sl c).tx.state == .abort || (s2.sl c).tx.state == .release
    s2.endTx c (if ending then k.status.toNat else Status.rejected)

/-- The DERIVE commands in hand of a slice that stops complete with REJECTED_STATE. -/
def State.stopKeys (s : State) (c : Fin 4) : State :=
  let ops := (s.sl c).mac.ops
  ops.foldl (fun t o => match o.derive with | some cmd => t.complete cmd.ref Status.rejected [] | none => t)
    (s.modSl c (fun x => { x with mac := { x.mac with ops := [] } }))

/-- Every block of a slice stops and its open records are closed (R21). The staged area is cleared and an outstanding
FORME_LOCKUP completes (R72). -/
def State.stopBlocks (s : State) (c : Fin 4) : State :=
  let s1 := (((((s.stopAf c).stopRecords c).stopBursts c).stopContexts c).stopKeys c).stopTx c
  let s2 := (s1.calStop c).clearArea c Status.rejected
  if (s2.sl c).shadow.boot.isSome then s2.keepGrant c else s2

/-! ### A slice in reset -/

/-- CTL in a slice reset: BG_CFG stays with the supervisor, the scrub starts again, and CAP_HIT and CFG_REJECT clear.
DESIGN CHOICE: R40 gives these two bits a value after module reset only (log entry 71). -/
def Ctl.blank (k : Ctl) : Ctl :=
  { k with capHit := false, cfgReject := false, scrubPasses := 0, scrubNext := 0, bgWindow := 0,
           bgGrants := Vector.replicate 16 0 }

/-- The MAC block in a slice reset: the key store, the replay records and the alarms stay (R21, R268). -/
def Mac.blank (m : Mac) : Mac :=
  { Mac.reset with
    slots := m.slots, replay := m.replay, blocked := m.blocked, alarmIn := m.alarmIn, erasing := m.erasing,
    eraseCause := m.eraseCause, erases := m.erases, lastCause := m.lastCause, alarmTb := m.alarmTb }

/-- ERR in a slice reset (R417): the count of slice resets stays, the cells and pages wait for the self-test. -/
def Err.blank (e : Err) : Err :=
  { Err.reset with sliceResets := e.sliceResets, selfTestRetired := e.selfTestRetired }

/-- A slice whose every block is cleared (R21). Its shadow store, key store and cartridge stay. -/
def Slice.blank (x : Slice) : Slice :=
  { x with
    ctl := x.ctl.blank,
    shadow := { Shadow.reset with
      active := x.shadow.active, bad := x.shadow.bad, lostCrc := x.shadow.lostCrc,
      boot := x.shadow.boot.map (fun b => (b.1, b.2.1, false)) },
    clk := Clk.reset, afe := Afe.reset, tun := Vector.replicate 32 Tuning.reset,
    grpPeak := Vector.replicate 3 0, inst := Vector.replicate 48 Inst.reset,
    cands := Vector.replicate 32 Inst.reset, candInfo := Vector.replicate 32 none,
    acq := Vector.replicate 48 Acq.reset, candAcq := Vector.replicate 32 Acq.reset, trl := Trl.reset,
    ctx := Vector.replicate 256 Ctx.reset, af := Vector.replicate 48 Af.reset, mac := x.mac.blank,
    tx := { Tx.reset with gnt := x.tx.gnt }, sai := Sai.reset, err := x.err.blank, sram := [] }

/-- The library entry whose BOOT mask names slice `c` (R83, R84). -/
def Fls.bootEntry (f : Fls) (c : Nat) : Option (Fin 64 × LibEntry) :=
  let n := (List.range 64).find? (fun n => match f.entry n with | some e => e.boot.toNat.testBit c | none => false)
  match n with
  | some n => (f.entry n).map (fun e => (Fin.ofNat 64 n, e))
  | none => none

/-- The forme that a slice reset finds in its shadow store: an invalid one is replaced by the boot entry with the
lost FORME_CRC, if there is one (R405). -/
def State.restoreActive (s : State) (c : Fin 4) : State :=
  let sh := (s.sl c).shadow
  if !sh.bad then s
  else
    let f : Option Forme := match s.fls.bootEntry c.val with
      | some (_, e) =>
        (match parseForme e.forme none with
        | .ok (g, _) => if some g.crc = sh.lostCrc then some g else none
        | .error _ => none)
      | none => none
    s.modSl c (fun x => { x with shadow := { x.shadow with active := f, bad := false, lostCrc := none } })

/-- MOD.EVENTS.BAY_CHANGE (R385). -/
def State.bayChange (s : State) : State := { s with mod := { s.mod with events := raise s.mod.events 3 } }

/-- The registers of the SX5216 mailbox are registers of slice 0 and clear with it (R388). -/
def State.clearWindow (s : State) (c : Fin 4) : State :=
  if c = 0 then { s with mailbox := Mailbox.reset } else s

/-- Slice `c` enters RESET (R21, R37): `cause` is LAST_RESET. -/
def State.enterReset (s : State) (c : Fin 4) (cause : Nat) : State :=
  let s1 := s.modSl c (fun x =>
    let y := x.blank
    { y with ctl := { y.ctl with state := .reset, lastReset := cause } })
  let s2 := { s1 with errm := { s1.errm with faulted := s1.errm.faulted &&& ~~~BitVec.ofNat 4 (2 ^ c.val) } }
  ((s2.clearWindow c).restoreActive c).recheckOffers.dropTiming

/-- Slice `c` enters FAULTED and its registers keep their last values (R35). -/
def State.enterFaulted (s : State) (c : Fin 4) (escalated : Bool) : State :=
  let s1 := s.modSl c (fun x => { x with
    ctl := { x.ctl with state := .faulted, resetReq := false, ranForme := x.ctl.state == .running },
    shadow := { x.shadow with reload := none, boot := none },
    err := { x.err with faultedEsc := escalated } })
  let s2 := if escalated then
      { s1 with errm := { s1.errm with faulted := s1.errm.faulted ||| BitVec.ofNat 4 (2 ^ c.val),
                                       events := raise s1.errm.events 2 } }
    else s1
  s2.recheckOffers.dropTiming

/-- The feed of a slice stays on for the drain of its queues (R394 step 3). -/
def State.enterDrain (s : State) (c : Fin 4) : State :=
  s.modSl c (fun x => { x with ctl := { x.ctl with state := .reset, offAt := s.real } })

/-- The FAULT record of a slice reset that the host asked for (R21). The event table of R414 has no event for it: its
EVENT and its STATUS are free (log entry 31). -/
def State.resetFault (s : State) (c : Fin 4) : State :=
  let w := s.freeWord
  w.2.fault { status := bf w.1 0 8, event := bf w.1 8 8, level := 2, action := 4, block := 0x00, slice := c.val }

/-- What stops a slice: a slice reset with its LAST_RESET code, or the codes of `Tx.resetAfter` beyond them. A
SLICE_RESET written while an entry to FAULTED waited for a ramp-down acts upon it (R38, R399). -/
def State.haltNow (s : State) (c : Fin 4) (k : Nat) : State :=
  let s1 := s.stopBlocks c
  if k = 0xF then
    let s2 := s1.enterFaulted c true
    if (s.sl c).ctl.resetReq then
      ((s2.enterReset c 2).modSl c (fun x => { x with ctl := { x.ctl with resetReq := true } })).resetFault c
    else s2
  else if k = 0xE then (s1.enterReset c (s.sl c).ctl.lastReset).enterDrain c
  else s1.enterReset c k

/-- Slice `c` is stopped. A burst on the air first completes its abbreviated ramp-down (R320). -/
def State.haltSlice (s : State) (c : Fin 4) (k : Nat) : State :=
  if (s.sl c).tx.resetAfter.isSome then s
  else
    let s1 := if (s.sl c).ctl.state = .running then s.txAbort c Status.rejected else s
    match (s1.sl c).tx.cmd with
    | some m =>
      if m.phase = .abbrev then s1.modTx c (fun t => { t with resetAfter := some k })
      else s1.haltNow c k
    | none => s1.haltNow c k

/-- ABBREVIATED_RAMP_END (R309, R320): E' of an abbreviated ramp-down, and the reset that waited for it. -/
def execAbbreviatedRampEnd (c : Fin 4) (s : State) : Host.Outcome State Fault Refusal :=
  run s fun s =>
    let s1 := s.abbrevEnd c
    match (s1.sl c).tx.resetAfter with
    | some k =>
      let air : Bool := match (s1.sl c).tx.cmd with | some m => m.phase == .abbrev | none => false
      if air then s1 else s1.haltNow c k
    | none => s1

/-! ### SLICE_RESET -/

/-- CTL.RESET.SLICE_RESET written 1 (R38): ignored in ABSENT and HELD; a reset that has begun absorbs it. -/
def State.hostReset (s : State) (c : Fin 4) : State :=
  match (s.sl c).ctl.state with
  | .absent => s
  | .held => s
  | .reset => s.modSl c (fun x => { x with ctl := { x.ctl with resetReq := true } })
  | _ =>
    if (s.sl c).ctl.resetReq then s
    else
      let s1 := s.modSl c (fun x => { x with ctl := { x.ctl with resetReq := true } })
      if (s1.sl c).tx.resetAfter.isSome then s1 else (s1.haltSlice c 2).resetFault c

/-- SLICE_RESET (R21, R38). -/
def execSliceReset (c : Fin 4) (s : State) : Host.Outcome State Fault Refusal := run s fun s => s.hostReset c

/-! ### Power-up of a cartridge (R382 steps 7 and 8, R395) -/

/-- A slice whose cartridge is powered up, in RESET with its boot entry to load (R84). `cause` is LAST_RESET. An alarm
source that is active erases before any key is loaded (R268). An entry that fails the checks of R53 leaves the slice to
start IDLE. -/
def State.feedBay (s : State) (c : Fin 4) (cause : Nat) : State :=
  let s1 := s.modSl c (fun x => { x with
    ctl := { x.ctl with feedOn := true, onReq := false, offReq := false, resetReq := false },
    shadow := Shadow.reset, err := { Err.reset with sliceResets := x.err.sliceResets },
    mac := { x.mac.blank with erasing := false } })
  let live := [AlarmSource.tamper, .alarmIn, .overTemp, .underTemp].filter (fun a =>
    (s.sl c).mac.blocked &&& alarmMask a != 0)
  let s2 := live.foldl (fun t a => t.alarmErase c a) (s1.enterReset c cause).bayChange
  match s2.fls.bootEntry c.val with
  | none => s2
  | some (n, e) =>
    match parseForme e.forme none with
    | .error err => s2.bootFault c err.1 n.val
    | .ok (f, _) => s2.modSl c (fun x => { x with shadow := { x.shadow with boot := some (n, f, false) } })

/-! ### Self-test -/

/-- The calibration record in flash of the slice's cartridge (R132). -/
def State.calRecOf (s : State) (c : Fin 4) : CalStore :=
  match (s.sl c).cart with
  | some k => ((s.calStore.find? (fun e => e.1 == k.id)).map Prod.snd).getD CalStore.empty
  | none => CalStore.empty

/-- Bank of a page (R402). -/
def pageBank (p : Nat) : Nat := p % 16

/-- Spare pages left in each bank when these pages are retired. -/
def sparesLeft (pages : List Nat) : Vector Nat 16 :=
  vmapIdx (fun b _ => 4 - (pages.filter (fun p => pageBank p == b)).length) (Vector.replicate 16 4)

/-- A bank that has more failing pages than spare pages. -/
def failingBank (pages : List Nat) : Option Nat :=
  (List.range 16).find? (fun b => decide (4 < (pages.filter (fun p => pageBank p == b)).length))

/-- Slice `c` enters CALIBRATING: the MDLL is locked, the key store is loaded and, where the calibration record holds
a TUNER_FREQ, the tuner search asks for its tokens (R127). -/
def State.enterCalibrating (s : State) (c : Fin 4) (pages : List Nat) : State :=
  let r := s.calRecOf c
  let s1 := s.modSl c (fun x =>
    let y := x.loadKeys
    { y with
      ctl := { y.ctl with state := .calibrating, resetReq := false },
      clk := { y.clk with lock := true },
      afe := { y.afe with tunerFreq := BitVec.ofNat 32 r.tunerFreq },
      err := { y.err with retired := pages, selfTestRetired := pages, spares := sparesLeft pages } })
  if r.tunerFreq = 0 then s1 else s1.ask (tunerReq c) 10

/-- The calibration record of the cartridge in slice `c`, where it cannot be read, is not used (R398, R409). -/
def State.dropCal (s : State) (c : Fin 4) (lost : Bool) : State :=
  match (s.sl c).cart with
  | some k => if lost then { s with calStore := s.calStore.filter (fun e => e.1 != k.id) } else s
  | none => s

/-- SELF_TEST_COMPLETE (R35, R402): `badPages` are the pages that fail, `failed` any other failure; `ecc` tells of the read
of the calibration record (R398). -/
def execSelfTestComplete (c : Fin 4) (badPages : List Nat) (failed : Bool) (s : State)
    (ecc : Option Bool := none) : Host.Outcome State Fault Refusal :=
  run s fun s =>
    let x := s.sl c
    let pages := badPages.eraseDups.filter (fun p => decide (p < 3072))
    if x.ctl.state ≠ .reset ∨ !x.ctl.feedOn ∨ x.ctl.offReq then s
    else if failed ∨ (failingBank pages).isSome then
      let b := (failingBank pages).getD 0xFF
      (s.enterFaulted c false).fault
        { status := Status.parity, event := 0x14, level := 2, action := 5, block := 0x40, bank := b, detail := b,
          slice := c.val }
    else ((s.eccMaybe ecc 0xFFFF).dropCal c (ecc == some false)).enterCalibrating c pages

/-! ### Start-up calibrations (R84, R127) -/

/-- The values that flash holds for a kind, put in force where its start-up calibration fails (R127). -/
def CalStore.fields (r : CalStore) (kind : Nat) : Option (List Int) :=
  if kind = 1 then r.adc.map (fun p => [p.1, p.2])
  else if kind = 2 then r.tuner.map (fun p => [(p.1 : Int), (p.2.1 : Int), (p.2.2 : Int)])
  else if kind = 3 then r.flat
  else none

/-- A kind's values put in force (R127). -/
def State.calUse (s : State) (c : Fin 4) (kind : Nat) (v : List Int) : State :=
  if kind = 5 then
    s.modSl c (fun x => { x with clk := { x.clk with centre := (v.getD 0 0).toNat, ctrl := (v.getD 0 0).toNat } })
  else s.modAfe c (fun a => a.apply kind v s.tb)

/-- One start-up calibration has ended (R127, R132, R133); one that lock loss ended changes nothing and is run again
(R131). -/
def State.startCal (s : State) (c : Fin 4) (o : CalOutcome) : State :=
  let freq := (s.calRecOf c).tunerFreq
  let rec1 (s : State) (flags : Nat) : State :=
    s.stage 4 (s.calRecord c o.kind o.status.toNat 0 flags o.start
      (if calDisturbs o.kind && decide (o.start < o.stop) then o.stop + 32 else o.start) o.fields freq)
  if o.status.toNat = Status.clockLoss then rec1 s 2
  else if o.status = 0 then
    let s1 := s.calUse c o.kind o.fields
    if o.kind = 4 ∨ o.kind = 5 then rec1 s1 0
    else
      let p := s1.calStoreWrite c o.kind o.fields freq
      rec1 p.1 (b2n p.2)
  else
    let s1 := match (s.calRecOf c).fields o.kind with
      | some v => s.calUse c o.kind v
      | none => s
    let s2 := rec1 s1 0
    if o.kind = 1 ∨ o.kind = 3 then
      s2.fault { status := o.status.toNat, event := 0x12, level := 1, action := 0, block := 0x02, unit := o.kind,
                 detail := o.kind, slice := c.val }
    else s2

/-- The lock-up that follows the start-up calibrations (R84): the instant of a FORME_LOCKUP with MODE 0 accepted
now. A boot entry asks for its receive grant; without a forme the slice is IDLE. -/
def State.startForme (s : State) (c : Fin 4) : State :=
  let at_ := alignUp (2 ^ 20) (s.tb + 2 ^ 16)
  let sh := (s.sl c).shadow
  match sh.boot, sh.active with
  | some (n, f, _), _ =>
    let more := s.rxMore c f
    let s1 := s.modSl c (fun x => { x with shadow := { x.shadow with
      reload := some at_, boot := some (n, f, more == 0) } })
    if more = 0 then s1
    else
      let s2 := s1.ask (rxReq c) more
      { s2 with pwr := { s2.pwr with rxAsk := vmod s2.pwr.rxAsk c.val (fun _ => .lockup) } }
  | none, some _ => s.modSl c (fun x => { x with shadow := { x.shadow with reload := some at_ } })
  | none, none => (s.modSl c (fun x => { x with ctl := { x.ctl with state := .idle } })).dropRules c

/-- The kinds that start-up runs, in the order of R127's table: the tuner search where the calibration record holds a
TUNER_FREQ. -/
def CalStore.kinds (r : CalStore) : List Nat := [1, 5, 3, 4] ++ (if r.tunerFreq = 0 then [] else [2])

/-- Whether the outcomes tell how every kind that start-up runs ended (R127, R131): the kinds in order, each with one end that
no lock loss brought, and a kind within which lock was lost ended there with CLOCK_LOSS. -/
def calComplete (kinds : List Nat) (losses : List Nat) (l : List CalOutcome) : Bool :=
  let lost (o : CalOutcome) : Bool := o.status.toNat == Status.clockLoss
  ((l.filter (fun o => !lost o)).map (fun o => o.kind)) == kinds &&
    (l.zip (l.tail)).all (fun p => !lost p.1 || p.1.kind == p.2.kind) && !((l.getLast?.map lost).getD false) &&
    l.all (fun o => if lost o then losses.contains o.stop
      else !losses.any (fun t => decide (o.start < t) && decide (t < o.stop)))

/-- The search of a start-up whose tokens were refused (R124, R127). -/
def calRefused (now : Nat) : CalOutcome :=
  { kind := 2, status := BitVec.ofNat 8 Status.budget, start := now, stop := now, fields := [] }

/-- STARTUP_CALIBRATION_DONE (R84, R127): the outcomes of the kinds in the order of R127's table; the search that was refused
its tokens fails. Requests held since CALIBRATING act after it (R128). `ecc` tells of the read of the boot entry, which is
not used where it cannot be read (R398, R409). -/
def execStartupCalibrationDone (c : Fin 4) (results : List CalOutcome) (s : State)
    (ecc : Option Bool := none) : Host.Outcome State Fault Refusal :=
  run s fun s =>
    let x := s.sl c
    if x.ctl.state ≠ .calibrating ∨ x.shadow.reload.isSome ∨ x.clk.coast then s
    else
      let kinds := (s.calRecOf c).kinds
      let waits := vget s.pwr.want (tunerReq c) 0 ≠ 0
      let all := if kinds.contains 2 ∧ !x.afe.searching then results.filter (fun o => o.kind != 2) ++ [calRefused s.tb]
        else results
      if waits ∨ !calComplete kinds x.afe.calLosses all then s
      else
      let s1 := all.foldl (fun t o => t.startCal c o) s
      let s2 := (s1.modAfe c (fun a => { a with searching := false })).releaseAll (tunerReq c)
      let held := (s2.sl c).afe.calHeld
      let s3 := s2.modAfe c (fun a => { held.foldl (fun (a : Afe) k => a.request k 1 s2.tb) a with calHeld := [], calLosses := [] })
      match (s3.sl c).shadow.boot with
      | some b =>
        let s4 := s3.eccMaybe ecc b.1.val
        if ecc = some false then
          (s4.modSl c (fun x => { x with shadow := { x.shadow with boot := none } })).startForme c
        else s4.startForme c
      | none => s3.startForme c

end Sys2Proof.Machine
end

