-- ==== Sys2Proof/Machine/Errors.lean ====
section
/-! DEFINITION. Detected errors of a slice (R18 to R20, R42, R43, R399 to R406, R418): cells, SRAM pages, blocks,
escalation, and the checks in the background. -/

namespace Sys2Proof.Machine

open Sys2Proof

/-! ### Blocks -/

/-- The BLOCK code of a block (R414). The queue manager has its registers in QMG. -/
def blockCode : SliceBlock → Nat
  | .frontEnd => 0x02 | .tuningChain => 0x03 | .demodulator => 0x08 | .trellis => 0x0A | .acquirer => 0x0B
  | .services => 0x0C | .mac => 0x0D | .queues => 0x85 | .transmitter => 0x0E | .audio => 0x0F

/-- The block of a slice-bus requester (R30). -/
def requesterBlock (i : Nat) : Option SliceBlock :=
  ([.frontEnd, .tuningChain, .demodulator, .trellis, .acquirer, .services, .mac, .queues, .transmitter, .audio] :
    List SliceBlock)[i]?

/-- A slice in which errors are handled (R35, R399). -/
def Slice.running3 (x : Slice) : Bool :=
  (x.ctl.state == .running || x.ctl.state == .idle || x.ctl.state == .calibrating) && x.tx.resetAfter.isNone

def State.modErr (s : State) (c : Fin 4) (f : Err → Err) : State := s.modSl c (fun x => { x with err := f x.err })

/-! ### Faulted elements (R401) -/

/-- A tuning put into the faulted state: it delivers what it has and makes no more samples. -/
def State.faultTuning (s : State) (c : Fin 4) (t : Nat) : State :=
  if !(s.sl c).tunExists t then s
  else (s.endSamples c t).modSl c (fun x => x.modTun t (fun u => { u with faulted := true }))

/-- An instance put into FAULTED (R162). A burst in it ends as one that the hardware lost. -/
def State.faultInst (s : State) (c : Fin 4) (n : Fin 48) : State :=
  let st := ((s.sl c).instAt n.val).state
  if !((s.sl c).instAt n.val).declared ∨ st = .stopped ∨ st = .faulted then s
  else
    let s1 := (s.abortBurst c (.inst n) 4).closeAudio c n.val
    let prof := dmProfile ((s1.sl c).refRec (.inst n))
    let s2 := s1.modSl c (fun x => x.modInst n.val (fun i =>
      let j := (i.lose.enter .faulted s.real).noMeasure prof
      { j with events := raise j.events 3 }))
    if st = .track then s2.leftTrack c (.inst n) else s2

/-- A context put into the faulted state: an open message is discarded, an open envelope ends with PARITY. -/
def State.faultCtx (s : State) (c : Fin 4) (k : Fin 256) : State :=
  if ((s.sl c).find 5 k.val).isNone then s
  else
    ((s.envCut c k Status.parity).resetParser c k).modSl c (fun x =>
      x.modCtx k.val (fun y => { y with faulted := true }))

/-! ### Records lost in staging (R394, R403) -/

/-- Records that an entry of staging stands for. -/
def Staged.lost : Staged → Nat
  | .data _ _ => 1
  | .shed _ h => h.lost

/-- Numbers that an entry had taken beyond its own. -/
def Staged.skip : Staged → Nat
  | .data _ _ => 0
  | .shed _ h => h.seqSkip

/-- The samples that an entry stands for, by source. -/
def Staged.allSrcs : Staged → List SrcCount
  | .data _ r => r.src.toList
  | .shed _ h => h.entries

/-- The SHED record that stands for lost entries of staging: it takes the number of the oldest, where the entries
have numbers, and absorbs SHED records among them (R394). -/
def shedOf (l : List Staged) (causes : Nat) (q : Fin 256) (now : Nat) : Option Staged :=
  match l with
  | [] => none
  | e :: _ =>
    let numbered := (l.filter (fun e => e.seq.isSome)).length
    some (.shed e.seq
      { causes := BitVec.ofNat 8 causes,
        seqSkip := if numbered = 0 then 0 else numbered - 1 + (l.map Staged.skip).sum,
        lost := sat 32 (l.map Staged.lost).sum,
        entries := (l.flatMap Staged.allSrcs).foldl (fun acc e => joinSrc e acc) [],
        slice := BitVec.ofNat 8 (queueSlice q), ts := e.ts, opened := now })

/-- `n` entries of staging from place `first` on are lost; one SHED record stands in their place (R403). -/
def State.loseStaged (s : State) (q : Fin 256) (first n : Nat) : State :=
  let l := (s.qu q).staged
  let gone := (l.drop first).take n
  match shedOf gone 32 q s.tb with
  | none => s
  | some h =>
    (s.modQ q (fun k => { k with staged := l.take first ++ [h] ++ (l.drop first).drop n })).countLost q
      ((gone.filter (fun e => match e with | .data _ _ => true | .shed _ _ => false)).length)

/-! ### Block-local resets (R20) -/

/-- A block-local reset shown in a queue (R20, R292). -/
def State.blockGap (s : State) (c : Fin 4) (q : Nat) (es : List SrcCount) (ts : Nat) : State :=
  if q = 0xFF then s else s.gap (localQ c q) 32 0 es ts

/-- A tuning in a reset of its chain: its configuration is loaded again and its index goes on without a gap (R149); the
SHED record gives the output periods that are lost. -/
def State.resetTuning (s : State) (c : Fin 4) (f : Forme) (t : Nat) : State :=
  let s1 := s.endSamples c t
  let x := s1.sl c
  let runs := x.tunRuns t
  let lost := if runs then x.gapLen f t s.tb else 0
  let idx := (x.tunAt t).index
  let ts := match (x.tunAt t).lastTs with | some l => l + f.period t | none => s.tb
  let s2 := s1.modSl c (fun x => x.modTun t (fun u =>
    if u.faulted then u else u.load f t s.tb))
  if runs then s2.blockGap c (tnQueue (f.tn t)) [⟨BitVec.ofNat 8 t, lost, idx⟩] ts else s2

/-- A block-local reset shown in the record streams of an instance (R20): its AUDIO and BURST records and those of the
contexts that it feeds. -/
def State.gapFed (s : State) (c : Fin 4) (f : Forme) (n : Nat) : State :=
  let p := f.dm n
  let base := match ((s.sl c).instAt n).grid with | some g => g.index | none => 0
  let s1 := if dmAudio p then s.blockGap c (dmAudioQueue p) [⟨BitVec.ofNat 8 (dmTuning p), 0, base⟩] s.tb else s
  let s2 := if dmProfile p = 8 then s1.blockGap c (dmBurstQueue p) [] s.tb else s1
  ((s.sl c).fedBy n).foldl (fun t k => t.gap (localQ c (cxQueue (f.cx k.val))) 32 0 [] t.tb) s2

/-- An instance or candidate in a reset of the demodulator fabric: it searches again. -/
def State.resetInst (s : State) (c : Fin 4) (f : Forme) (r : InstRef) : State :=
  let st := ((s.sl c).demod r).state
  let s1 := s.abortBurst c r 4
  let s2 := match r with
    | .inst n => s1.closeAudio c n.val
    | .cand _ => s1
  let s3 := if st.busy then s2.toSearch c r else s2
  match r with
  | .inst n => if st = .stopped then s3 else s3.gapFed c f n.val
  | .cand _ => s3

/-- Blocks that an instance loses with a segment, as its air-layer check would fail them (R204): the FIBs of a FIC block, three to a
frame's quarter (log entry 82), a FAC block or an SDC block; a main-service frame has no check. -/
def Inst.failBlock (i : Inst) (k : BlockKind) : Inst :=
  match k with
  | .fic => { i with unitFail := count 32 3 i.unitFail }
  | .fac => { i with unitFail := count 32 1 i.unitFail, badRun := min 32 (i.badRun + 1) }
  | .sdc => { i with unitFail := count 32 1 i.unitFail }
  | _ => i

/-- The trellis decoders in a reset (R20, R204): the segments in flight are abandoned, and with them the burst or the block that
each is of; the segments that wait are requested again. `parity` says that an error in their stores is the cause. -/
def State.resetTrellis (s : State) (c : Fin 4) (f : Forme) (parity : Bool) : State :=
  let x := s.sl c
  let lost := x.trl.run.toList.filterMap (fun w => w.bind (fun w => (x.readerOf w.tuning.val).map (fun r => (r, w))))
  let s1 := lost.foldl (fun t p =>
    if dmProfile ((t.sl c).refRec p.1) = 8 then t.loseBurst c p.1 p.2.burst
    else t.modSl c (fun x => x.modDemod p.1 (fun i => i.failBlock p.2.kind))) s
  let s2 := s1.modSl c (fun x => { x with trl := { x.trl with
    ptr := 0, run := Vector.replicate 2 none,
    events := if parity then raise x.trl.events 0 else x.trl.events,
    resets := if parity then count 16 1 x.trl.resets else x.trl.resets } })
  (lost.filterMap (fun p => match p.1 with | .inst n => some n.val | .cand _ => none)).eraseDups.foldl
    (fun t n => t.gapFed c f n) s2

/-- The burst acquirers in a reset: they measure the noise afresh. -/
def State.resetAcquirer (s : State) (c : Fin 4) (f : Forme) : State :=
  let l := (s.sl c).refs.filter (fun r => dmProfile ((s.sl c).refRec r) == 8)
  l.foldl (fun t r =>
    let u := (t.abortBurst c r 4).modAcquirer c r (fun a => { a.idle with
      rssi := none, noise := [], dirty := false, winStop := none, recent := [], riseRun := 0, lowest := none,
      lastValue := none, lastAbove := none })
    match r with
    | .inst n => u.gapFed c f n.val
    | .cand _ => u) s

/-- The service engine in a reset: open messages are lost, AF processes learn again, alerts are forgotten. Counters
and message IDs run on. -/
def State.resetServices (s : State) (c : Fin 4) (f : Forme) : State :=
  let s1 := s.stopAf c
  let s2 := (f.keys 5).foldl (fun t k =>
    ((t.envCut c (Fin.ofNat 256 k) Status.parity).resetParser c (Fin.ofNat 256 k)).modSl c (fun x =>
      x.modCtx k (fun y => { y with alert := AlertState.none, lastTime := none, offered := false, badFrames := 0 }))) s1
  let s3 := s2.modSl c (fun x => { x with af := vmapIdx (fun n (a : Af) =>
    if a.state = .off then a
    else { Af.reset with
      state := .learn, lead := a.lead, events := a.events, primaryHz := x.regHz (x.instTun n), undone := a.undone,
      switches := a.switches, failed := a.failed, passed := a.passed }) x.af })
  ((((f.keys 5).map (fun k => localQ c (cxQueue (f.cx k)))).eraseDups).foldl (fun t q => t.gap q 32 0 [] s.tb)
    s3).recheckOffers.reroute c

/-- The MAC engine in a reset: the operations in hand end with PARITY, the key store stays (R20). -/
def State.resetMac (s : State) (c : Fin 4) (f : Forme) : State :=
  let busy := (f.keys 5).filter (fun k => ((s.sl c).ctxAt k).env.isSome || !((s.sl c).ctxAt k).queued.isEmpty)
  let fed := (f.keys 5).filter (fun k => cxDelivery (f.cx k) != 0)
  let s1 := busy.foldl (fun t k => t.envCut c (Fin.ofNat 256 k) Status.parity) s
  let ops := (s1.sl c).mac.ops
  let s2 := ops.foldl (fun t o => t.endOp c o Status.parity)
    (s1.modSl c (fun x => { x with mac := { x.mac with ptr := 0, busy := 0, ops := [] } }))
  ((fed.map (fun k => localQ c (cxQueue (f.cx k)))).eraseDups).foldl (fun t q => t.gap q 32 0 [] s.tb) s2

/-- The queue manager of the slice in a reset: what is staged is lost, and every queue shows the reset (R20, R292). -/
def State.resetQueues (s : State) (c : Fin 4) (f : Forme) : State :=
  (f.keys 7).foldl (fun t k =>
    let q := localQ c k
    if queueIsCmd q then t
    else if (t.qu q).staged.isEmpty then t.gap q 32 0 [] t.tb
    else t.loseStaged q 0 (t.qu q).staged.length) s

/-- The transmitter in a reset: windows and the command in hand end with REJECTED_STATE, a burst on the air with the
abbreviated ramp-down, and the channel is calibrated again. -/
def State.resetTx (s : State) (c : Fin 4) (f : Forme) : State :=
  let s1 := s.txAbort c Status.rejected
  let air : Bool := match (s1.sl c).tx.cmd with | some m => m.phase == .abbrev | none => false
  let s2 := if air then s1 else s1.stopTx c
  let p := f.tx.getD []
  if f.tx.isNone then s2
  else
    (s2.modTx c (fun t => if t.cmd.isSome then { t with recal := true }
      else ({ t with calFreq := 0, lock := false } : Tx).tune (txFreq p))).blockGap c (txStatusQueue p) [] s.tb

/-- The audio port in a reset: both halves start again (R339). -/
def State.resetAudio (s : State) (c : Fin 4) (f : Forme) : State :=
  match f.audio with
  | none => s
  | some p =>
    let idx := match (s.sl c).sai.rx.grid with | some g => g.index | none => 0
    let s1 := (s.endCapture c).modSl c (fun x =>
      { x with sai := x.sai.lockup f false (x.audioSource f) s.tb s.real })
    if auMask p true = 0 then s1 else s1.blockGap c (auRxQueue p) [⟨0xFE, 0, idx⟩] s.tb

/-- A block of a slice cleared and loaded again from the locked-up forme (R20). Outside RUNNING a block has no
configuration and no work. `event` is the EVENT of the error. -/
def State.resetBlock (s : State) (c : Fin 4) (b : SliceBlock) (event : Nat) : State :=
  let s1 := s.modErr c (fun e => { e with
    events := raise e.events 2, blockResets := count 8 1 e.blockResets,
    resetting := e.resetting.filter (fun p => p.1 != (blockCode b)) ++ [((blockCode b), s.real)] })
  match (s1.sl c).inForce with
  | none =>
    if b = .trellis ∧ event = 0x08 then
      s1.modSl c (fun x => { x with trl := { x.trl with
        ptr := 0, events := raise x.trl.events 0, resets := count 16 1 x.trl.resets } })
    else s1
  | some f =>
    match b with
    | .frontEnd =>
      let s2 := (s1.calCut c Status.rejected).modSl c (fun x => { x with afe := x.afe.lockup f s.tb })
      (f.keys 2).foldl (fun t n => t.resetTuning c f n) s2
    | .tuningChain => (f.keys 2).foldl (fun t n => t.resetTuning c f n) s1
    | .demodulator => (s1.sl c).refs.foldl (fun t r => t.resetInst c f r) s1
    | .trellis => s1.resetTrellis c f (event == 0x08)
    | .acquirer => s1.resetAcquirer c f
    | .services => s1.resetServices c f
    | .mac => s1.resetMac c f
    | .queues => s1.resetQueues c f
    | .transmitter => s1.resetTx c f
    | .audio => s1.resetAudio c f

/-! ### Escalation (R399) -/

/-- A slice-level error (R399): the slice is reset, or after two such resets within 60 s enters FAULTED. `n` is the
count reached, `event` the EVENT of the error behind it. -/
def State.sliceError (s : State) (c : Fin 4) (status event block n : Nat) : State :=
  let x := s.sl c
  if !x.running3 then s
  else
    let recent := x.ctl.escTimes.filter (fun t => decide (s.tb < t + secTicks 60))
    let esc := decide (2 ≤ recent.length)
    let s1 := s.modSl c (fun x => { x with
      ctl := { x.ctl with escTimes := if esc then recent else recent ++ [s.tb] },
      err := if esc then x.err else { x.err with sliceResets := count 8 1 x.err.sliceResets } })
    let s2 := if esc then s1
      else { s1 with errm := { s1.errm with esc := vmod s1.errm.esc c.val (fun n => count 8 1 n) } }
    (s2.fault { status := status, event := 0x09, level := 2, action := if esc then 5 else 4, block := block,
                causeOf := event, detail := n, slice := c.val }).haltSlice c (if esc then 0xF else 3)

/-- A block-level error has been reported: the block is reset, its third reset within 10 s escalates, and so does one
that cannot load from an invalid shadow store (R399, R405). -/
def State.blockError (s : State) (c : Fin 4) (b : SliceBlock) (status event : Nat) : State :=
  let x := s.sl c
  if !x.running3 then s
  else if x.shadow.bad then s.sliceError c status event (blockCode b) 1
  else
    let recent := x.err.blockErrs.filter (fun e => decide (s.tb < e.2 + secTicks 10)) ++ [((blockCode b), s.tb)]
    let n := (recent.filter (fun e => e.1 == (blockCode b))).length
    let s1 := (s.modErr c (fun e => { e with blockErrs := recent })).resetBlock c b event
    if 3 ≤ n then s1.sliceError c status event (blockCode b) n else s1

/-- A cell error counted in its block: the fourth within 1 s escalates (R399). Without a block to reset, the next
level is the slice. -/
def State.countCell (s : State) (c : Fin 4) (b : Option SliceBlock) (event : Nat) : State :=
  let code := match b with | some b => (blockCode b) | none => 0x40
  let recent := (s.sl c).err.cellErrs.filter (fun e => decide (s.tb < e.2 + secTicks 1)) ++ [(code, s.tb)]
  let n := (recent.filter (fun e => e.1 == code)).length
  let s1 := s.modErr c (fun e => { e with cellErrs := recent })
  if n < 4 then s1
  else
    match b with
    | none => s1.sliceError c Status.parity event code n
    | some b =>
      (s1.fault { status := Status.parity, event := 0x09, level := 1, action := 3, block := (blockCode b),
                  causeOf := event, detail := n, slice := c.val }).blockError c b Status.parity event

/-! ### CELL_PARITY -/

/-- The instance that a demodulator cell serves: of a DEMOD record, or a candidate (R19). -/
def Slice.cellUser (x : Slice) (n : Nat) : Option InstRef :=
  let k := (List.range 48).find? (fun k => match vget x.shadow.cellBase k none with
    | some b => (x.instAt k).declared && decide (b ≤ n) && decide (n < b + dmCells (x.dmOf k))
    | none => false)
  match k with
  | some k => some (.inst (Fin.ofNat 48 k))
  | none =>
    ((List.range 32).find? (fun t => match vget x.candInfo t none with
      | some i => i.cells.contains n
      | none => false)).map (fun t => .cand (Fin.ofNat 32 t))

/-- The candidate on tuning `t` stops because what it runs on has failed (R19, R224). -/
def State.failCand (s : State) (c : Fin 4) (t : Fin 32) : State :=
  ((s.abortBurst c (.cand t) 4).leftTrack c (.cand t)).modSl c (fun x => (x.stopCand t.val).fillAll s.real s.tb)

/-- A demodulator cell isolated, and what it serves stopped (R19). -/
def State.isolateCell (s : State) (c : Fin 4) (n : Nat) : State :=
  let x := s.sl c
  let key := match x.cellUser n with
    | some r => (x.keyOf r).getD 0xFF
    | none => 0xFF
  let s1 := s.modSl c (fun x => { x with
    err := { x.err with isolated := x.err.isolated ++ [n], events := raise x.err.events 1,
                        memCnt := count 16 1 x.err.memCnt },
    shadow := { x.shadow with spare := x.shadow.spare.filter (fun k => k != n) } })
  let s2 := match x.cellUser n with
    | some (.inst k) => s1.faultInst c k
    | some (.cand t) => s1.failCand c t
    | none => s1
  (s2.fault { status := Status.parity, event := 0x02, level := 0, action := 1, block := 0x08, unit := n,
              detail := key, slice := c.val }).countCell c (some .demodulator) 0x02

/-- The tuning that a filter cell serves under the placement of the forme in force (R19), one that runs a candidate included. -/
def Slice.filterUser (x : Slice) (n : Nat) : Option Nat :=
  (List.range 32).find? (fun t => vget x.shadow.firBase t none == some n &&
    (x.tunExists t || (vget x.candInfo t none).isSome))

/-- A filter cell isolated, and the tuning that it serves faulted (R19). -/
def State.isolateFilter (s : State) (c : Fin 4) (n : Nat) : State :=
  let s1 := s.modErr c (fun e => { e with
    isolatedFir := e.isolatedFir ++ [n], events := raise e.events 1, memCnt := count 16 1 e.memCnt })
  let owner := ((s.sl c).filterUser n).getD 0xFF
  let s2 := match (s.sl c).filterUser n with
    | some t =>
      if (vget (s1.sl c).candInfo t none).isSome then s1.failCand c (Fin.ofNat 32 t) else s1.faultTuning c t
    | none => s1
  (s2.fault
    { status := Status.parity, event := 0x02, level := 0, action := 1, block := 0x03, unit := n, detail := owner,
      slice := c.val, tuning := owner }).countCell c (some .tuningChain) 0x02

/-- The tuning and the context that a FIFO entry names in its FAULT record. -/
def fifoOwnerIds : FifoOwner → Nat × Nat
  | .tuning t => (t.val, 0xFFFF)
  | .context x => (0xFF, x.val)
  | .nobody => (0xFF, 0xFFFF)

/-- A FIFO entry isolated, and the tuning or context that owns it faulted (R19). -/
def State.isolateFifo (s : State) (c : Fin 4) (b : SliceBlock) (n : Nat) (o : FifoOwner) : State :=
  let s1 := s.modErr c (fun e => { e with
    isolatedFifo := e.isolatedFifo ++ [(blockCode b, n)], events := raise e.events 1, memCnt := count 16 1 e.memCnt })
  let s2 := match o with
    | .tuning t => s1.faultTuning c t.val
    | .context x => s1.faultCtx c x
    | .nobody => s1
  (s2.fault
    { status := Status.parity, event := 0x02, level := 0, action := 1, block := (blockCode b), unit := n,
      detail := (fifoOwnerIds o).1, slice := c.val, tuning := (fifoOwnerIds o).1, ctx := (fifoOwnerIds o).2 }).countCell c (some b) 0x02

/-- CELL_PARITY (R19, R399): a parity error in a cell that is not yet isolated. A parity error in the CTL or ERR block
or in the register FIFO is a slice-level error. -/
def execCellParity (c : Fin 4) (cell : CellRef) (s : State) : Host.Outcome State Fault Refusal :=
  run s fun s =>
    let x := s.sl c
    if !x.running3 then s
    else
      match cell with
      | .demod n => if x.err.isolated.contains n.val then s else s.isolateCell c n.val
      | .filter n => if x.err.isolatedFir.contains n.val then s else s.isolateFilter c n.val
      | .fifo b n o =>
        if x.err.isolatedFifo.contains (blockCode b, n.toNat) then s else s.isolateFifo c b n.toNat o
      | .control e =>
        (s.modErr c (fun e => { e with memCnt := count 16 1 e.memCnt })).sliceError c Status.parity 0x02
          (if e then 0x10 else 0x00) 1

/-! ### SRAM pages (R402, R403) -/

/-- The block that works in a page of this owner. -/
def ownerBlock : PageOwner → Option SliceBlock
  | .buffer _ => some .tuningChain
  | .cellStore _ => some .demodulator
  | .contexts _ => some .services
  | .staging _ _ _ => some .queues
  | .reserve b => some b
  | .host => none
  | .nobody => none

/-- Whether an SRAM range lies in a region that the locked-up forme grants to the host (R46). -/
def Slice.inRegion (x : Slice) (off n : Nat) : Bool :=
  match x.shown with
  | some f => f.regions.any (fun r => decide (r.1 ≤ off) && decide (off + n ≤ r.1 + r.2))
  | none => false

/-- An owner that the forme can have given a page outside its host regions. -/
def Forme.owns (f : Forme) : PageOwner → Bool
  | .buffer t => f.has 2 t.val
  | .cellStore n => f.has 4 n.val
  | .contexts xs => xs.any (fun k => f.has 5 k.val)
  | .staging q _ _ => f.has 7 q.val
  | .reserve _ => true
  | .host => false
  | .nobody => true

/-- The owner of the page of an SRAM offset (R403): a host region, no element without a forme, and elsewhere the
element that the accounting names, whose place the manual leaves open (log entry 73). -/
def Slice.pageOwner (x : Slice) (off : Nat) : PageOwner :=
  match x.shown with
  | none => .nobody
  | some f =>
    if x.inRegion off 1 then .host
    else
      let o := Config.pageOwner f.crc (off / 4096)
      if f.owns o then o else .nobody

/-- Whether the manual says what a read of these bytes returns: the block that owns them has no layout of its own
there. -/
def Slice.sramKnown (x : Slice) (off size : Nat) : Bool :=
  x.ctl.state == .calibrating || x.ctl.state == .idle || x.inRegion off size

/-- The data of a read of SRAM, before parity. -/
def State.sramData (s : State) (c : Fin 4) (off size : Nat) : List Byte × State :=
  let x := s.sl c
  if x.sramKnown off size then (memRead x.sram off size, s)
  else (le size (Config.sramWord s.free).toNat, { s with free := s.free + 1 })

/-- Page `p` retired: a spare page of its bank takes its place, filled with zeros (R402). -/
def Slice.retirePage (x : Slice) (p : Nat) : Slice :=
  { x with
    err := { x.err with
      retired := if x.err.retired.contains p then x.err.retired else x.err.retired ++ [p],
      spares := vmod x.err.spares (pageBank p) (fun n => n - 1), events := raise x.err.events 0,
      badWords := x.err.badWords.filter (fun w => w / 4096 != p) },
    sram := memClear x.sram (4096 * p) (4096 * p + 4096) }

/-- The FAULT record of a retired page for one element. -/
def State.pageFault (s : State) (c : Fin 4) (off : Nat) (kind tuning ctx : Nat) : State :=
  s.fault { status := Status.parity, event := 0x01, level := 0, action := 2, block := 0x40,
            bank := pageBank (off / 4096), unit := off / 4096, addr := off, detail := kind, slice := c.val,
            tuning := tuning, ctx := ctx }

/-- The owner of a retired page handled (R403). -/
def State.ownPage (s : State) (c : Fin 4) (off : Nat) (o : PageOwner) : State :=
  match o with
  | .buffer t => (s.faultTuning c t.val).pageFault c off 0 t.val 0xFFFF
  | .cellStore n => (s.faultInst c n).pageFault c off 1 0xFF 0xFFFF
  | .contexts xs =>
    let there := xs.eraseDups.filter (fun k => ((s.sl c).find 5 k.val).isSome)
    there.foldl (fun t k => (t.faultCtx c k).pageFault c off 2 0xFF k.val) s
  | .staging q first n => (s.loseStaged (localQ c q.val) first n).pageFault c off 3 0xFF 0xFFFF
  | .reserve b =>
    let s1 := s.pageFault c off 4 0xFF 0xFFFF
    if !(s1.sl c).running3 then s1
    else
      (s1.fault
        { status := Status.parity, event := 0x01, level := 1, action := 3, block := (blockCode b),
          bank := pageBank (off / 4096), unit := off / 4096, addr := off, detail := 4, slice := c.val }).blockError c b
        Status.parity 0x01
  | .host => s.pageFault c off 5 0xFF 0xFFFF
  | .nobody => s.pageFault c off 6 0xFF 0xFFFF

/-- A parity error at an SRAM offset (R402): the page is retired, or without a spare page in its bank the error
escalates (R399). -/
def State.sramError (s : State) (c : Fin 4) (off : Nat) (o : PageOwner) : State :=
  let p := off / 4096
  let s1 := s.modErr c (fun e => { e with memCnt := count 16 1 e.memCnt })
  if vget (s.sl c).err.spares (pageBank p) 0 = 0 then
    match (ownerBlock o) with
    | some b =>
      (s1.fault { status := Status.parity, event := 0x09, level := 1, action := 3, block := (blockCode b),
                  bank := pageBank p, unit := p, addr := off, causeOf := 0x01, detail := 1,
                  slice := c.val }).blockError c b Status.parity 0x01
    | none => s1.sliceError c Status.parity 0x01 0x40 1
  else
    let s2 := s1.modSl c (fun x => x.retirePage p)
    (s2.ownPage c off o).countCell c (ownerBlock o) 0x01

/-- A host read of 4 or 8 bytes that meets the parity error at an SRAM offset (R46): its half reads all ones. -/
def State.hostBadRead (s : State) (c : Fin 4) (off size : Nat) : State :=
  let base := if size = 8 then off / 8 * 8 else off / 4 * 4
  let d := s.sramData c base size
  { d.2 with readData := d.1.mapIdx (fun i b => if (base + i) / 4 = off / 4 then 0xFF else b) }

/-- SRAM_PARITY (R46, R402, R403): `owner` is the owner that the forme's accounting gives the page; `hostSize` says that
a host read of that size met the error. -/
def execSramParity (c : Fin 4) (offset : BitVec 24) (owner : PageOwner) (s : State)
    (hostSize : Option Nat := none) : Host.Outcome State Fault Refusal :=
  run s fun s =>
    if !(s.sl c).ctl.state.served ∨ 0xC00000 ≤ offset.toNat then s
    else
      let s1 := match hostSize with
        | some n => s.hostBadRead c offset.toNat n
        | none => s
      s1.sramError c offset.toNat owner

/-! ### TRELLIS_PARITY and BLOCK_RESET_TIMEOUT -/

/-- TRELLIS_PARITY (R204). -/
def execTrellisParity (c : Fin 4) (decoder : Fin 2) (s : State) : Host.Outcome State Fault Refusal :=
  run s fun s =>
    if !(s.sl c).running3 then s
    else
      ((s.modErr c (fun e => { e with memCnt := count 16 1 e.memCnt })).fault
        { status := Status.parity, event := 0x08, level := 1, action := 3, block := 0x0A, detail := decoder.val,
          slice := c.val }).blockError c .trellis Status.parity 0x08

/-- BLOCK_RESET_TIMEOUT (R399): a block-local reset has not completed within 10 µs. -/
def execBlockResetTimeout (c : Fin 4) (block : SliceBlock) (s : State) : Host.Outcome State Fault Refusal :=
  run s fun s =>
    let x := s.sl c
    match x.err.resetting.find? (fun p => p.1 == (blockCode block)) with
    | none => s
    | some p =>
      if s.real < p.2 + usTicks 10 ∨ !x.running3 then s
      else
        ((s.modErr c (fun e => { e with resetting := e.resetting.filter (fun p => p.1 != (blockCode block)) })).fault
          { status := Status.timeout, event := 0x0A, level := 1, action := 4, block := (blockCode block),
            detail := (blockCode block), slice := c.val }).sliceError c Status.timeout 0x0A (blockCode block) 1

/-! ### Slice-bus parity (R400) -/

/-- A slice-bus parity error counted: the third within 1 s is a slice-level error (R399). -/
def State.countBus (s : State) (c : Fin 4) : State :=
  let recent := (s.sl c).err.busErrs.filter (fun t => decide (s.tb < t + secTicks 1)) ++ [s.tb]
  let s1 := s.modErr c (fun e => { e with busErrs := recent })
  if 3 ≤ recent.length then s1.sliceError c Status.parity 0x03 0x41 recent.length else s1

/-- A slice-bus parity error of a requester other than the host (R400). -/
def State.busError (s : State) (c : Fin 4) (requester : Nat) : State :=
  let s1 := s.modErr c (fun e => { e with busCnt := count 16 1 e.busCnt, events := raise e.events 3 })
  let fault (action : Nat) (s : State) : State :=
    s.fault { status := Status.parity, event := 0x03, level := 1, action := action, block := 0x41,
              detail := requester, slice := c.val }
  let s2 := match requesterBlock requester with
    | some b => (fault 3 s1).blockError c b Status.parity 0x03
    | none =>
      if requester = 11 then (fault 0 s1).modErr c (fun e => { e with busRetry := true }) else fault 0 s1
  s2.countBus c

/-! ### Background activities (R42, R43, R404 to R406) -/

/-- A read of an SRAM word whose parity fails (R43, R402): the page is retired and its owner handled. -/
def State.badRead (s : State) (c : Fin 4) (word : Nat) : State :=
  if (s.sl c).err.badWords.contains word then s.sramError c word ((s.sl c).pageOwner word) else s

/-- SCRUB_ACCESS (R42): one access of the parity scrub, at most 30 of a bank in a window of 1,024 FCLK cycles; one more
waits and sets CAP_HIT. An access that failed on the slice bus is repeated once (R400). -/
def execScrubAccess (c : Fin 4) (s : State) : Host.Outcome State Fault Refusal :=
  run s fun s =>
    let k := (s.sl c).ctl
    if !k.state.served ∨ !bit k.bgCfg 0 then s
    else
      let w := s.tb / 4096
      let g := if w = k.bgWindow then k.bgGrants else Vector.replicate 16 0
      let bank := pageBank (k.scrubNext * 8 / 4096)
      let full := decide (30 ≤ vget g bank 0)
      let again := (s.sl c).err.busRetry
      let last := decide (1572864 ≤ k.scrubNext + 1)
      let s1 := s.modSl c (fun x => { x with
        ctl :=
          if full then { x.ctl with bgWindow := w, bgGrants := g, capHit := true }
          else if again then { x.ctl with bgWindow := w, bgGrants := vmod g bank (fun n => n + 1) }
          else { x.ctl with
            bgWindow := w, bgGrants := vmod g bank (fun n => n + 1),
            scrubNext := if last then 0 else x.ctl.scrubNext + 1,
            scrubPasses := if last then (x.ctl.scrubPasses + 1) % 65536 else x.ctl.scrubPasses },
        err := if full then x.err else { x.err with busRetry := false } })
      if full then s1 else s1.badRead c (8 * k.scrubNext)

/-- SHADOW_CHECK (R405): `activeBad` and `stagedBad` say which area fails its CRCs. -/
def execShadowCheck (c : Fin 4) (activeBad stagedBad : Bool) (s : State) : Host.Outcome State Fault Refusal :=
  run s fun s =>
    let x := s.sl c
    let report (area : Nat) (s : State) : State :=
      (s.modErr c (fun e => { e with events := raise e.events 5 })).fault
        { status := Status.formeCrc, event := 0x06, level := 1, action := 0, block := 0x42, detail := area,
          slice := c.val }
    if !x.ctl.state.served then s
    else
      let s1 := if activeBad ∧ !x.shadow.bad ∧ x.forme.isSome then
          report 0 (s.modSl c (fun x => { x with shadow := { x.shadow with
            bad := true, lostCrc := x.forme.map (fun f => f.crc) } }))
        else s
      if stagedBad ∧ x.shadow.area ≠ .empty then report 1 (s1.clearArea c Status.formeCrc) else s1

/-- Whether a bank of a tuning is in force, being faded to, or what a request waits for (R406). -/
def Tuning.bankUsed (u : Tuning) (b : Bool) : Bool :=
  u.bank == b || u.xfade.isSome || u.heldReq == some b || (match u.bankPend with | some p => p.2 == b | none => false)

/-- One coefficient bank whose CRC fails (R406). -/
def State.coefBad (s : State) (c : Fin 4) (t b : Nat) : State :=
  let u := (s.sl c).tunAt t
  let s1 := s.modErr c (fun e => { e with events := raise e.events 6 })
  let s2 := if u.bankUsed (b == 1) then s1.faultTuning c t
    else s1.modSl c (fun x => x.modTun t (fun u =>
      let z := (vget u.coef b []).map (fun _ => (0 : BitVec 20))
      { u with coef := vmod u.coef b (fun _ => z), coefCrc := vmod u.coefCrc b (fun _ => coefCrcOf z) }))
  s2.fault { status := Status.formeCrc, event := 0x07, level := 0, action := 0, block := 0x04,
             detail := 2 * t + b, slice := c.val, tuning := t }

/-- A coefficient word whose bits have changed without a write. -/
def State.coefUpset (s : State) (c : Fin 4) (t : Fin 32) (b : Fin 2) (n : Nat) (m : BitVec 20) : State :=
  s.modSl c (fun x => x.modTun t.val (fun u =>
    { u with coef := vmod u.coef b.val (fun l => lmod l n (fun w => w ^^^ m)) }))

/-- Whether the CRC of a bank of a tuning that makes samples differs from its contents (R406). -/
def Slice.coefWrong (x : Slice) (t b : Nat) : Bool :=
  let u := x.tunAt t
  x.tunExists t && !u.faulted && vget u.coefCrc b 0 != coefCrcOf (vget u.coef b [])

/-- COEF_CRC_CHECK (R406): every bank against its CRC. `upset` lists the words whose bits have changed since the last
check, with the bits. -/
def execCoefCrcCheck (c : Fin 4) (upset : List (Fin 32 × Fin 2 × Nat × BitVec 20)) (s : State) :
    Host.Outcome State Fault Refusal :=
  run s fun s =>
    let s1 := upset.foldl (fun t p => t.coefUpset c p.1 p.2.1 p.2.2.1 p.2.2.2) s
    (List.range 32).foldl (fun t n => [0, 1].foldl (fun t b =>
      if (t.sl c).coefWrong n b then t.coefBad c n b else t) t) s1

/-! ### ERROR_INJECT (R418) -/

/-- A write to ERR.INJECT: the word armed, or an access error beyond the SRAM. -/
def State.writeInject (s : State) (c : Fin 4) (v : Word) : State :=
  let off := 8 * bf v 3 21
  if !bit v 0 then s
  else if 0xC00000 ≤ off then s.recordAccess .bar0 (0x1000000 * (c.val + 1) + 0x10001C) false
  else s.modErr c (fun e => { e with inject := some off })

/-- ERROR_INJECT (R418). -/
def execErrorInject (c : Fin 4) (value : Word) (s : State) : Host.Outcome State Fault Refusal :=
  run s fun s => s.sliceWrite c 0x10001C fun s => s.writeInject c value

end Sys2Proof.Machine
end

