-- ==== Sys2Proof/Machine/Bays.lean ====
section
/-! DEFINITION. The bays: cartridges inserted and removed, powered up and powered down (R2, R35's table, R371, R382,
R394, R395). -/

namespace Sys2Proof.Machine

open Sys2Proof

/-! ### The queues of a slice that loses its cartridge or its power (R394) -/

/-- What a queue still had to deliver, oldest first: the SHED record beside staging, the record in transfer, staging.
A record in transfer of a DROP_OLD queue gives its number back. -/
def Queue.undelivered (k : Queue) (old : Bool) : List Staged × Word :=
  let r := k.recall old
  (r.headShed.toList ++ r.staged, r.seq)

/-- The records of an entry that its SHED record newly counts as lost. -/
def Staged.fresh : Staged → Nat
  | .data _ _ => 1
  | .shed _ _ => 0

/-- A record queue whose slice goes: one SHED record with CAUSES 0x00 stands for all that was staged, and the queue
exists on to deliver it. A queue without staged records ceases to exist. -/
def State.ceaseQueue (s : State) (q : Fin 256) : State :=
  let k := s.qu q
  let p := k.undelivered (s.queueOld q)
  let s1 := s.countLost q (p.1.map Staged.fresh).sum
  let s2 := s1.modQ q (fun k => { k with seq := p.2, staged := [], xfer := none, capWait := false })
  match shedOf p.1 0 q s.tb with
  | some h => s2.modQ q (fun k => { k with headShed := some h, headOnly := true })
  | none => (s2.closeBuf q true).modQ q (fun k => { k with buf := none })

/-- A command queue whose slice goes: its commands are in-flight work of the slice and end without a record. -/
def Queue.dropCommands (k : Queue) : Queue := { k with inHand := none, outstanding := [], held := [] }

/-- Every queue of slice `c` when its cartridge goes. -/
def State.ceaseQueues (s : State) (c : Fin 4) : State :=
  let s1 := (List.range 52).foldl (fun t q =>
    if t.queueDeclared (localQ c q) then t.ceaseQueue (localQ c q) else t) s
  [52, 53, 54, 55, 56, 57, 58, 59].foldl (fun t q => t.modQ (localQ c q) Queue.dropCommands) s1

/-! ### A slice without power -/

/-- The MAC block without a cartridge: the sources that concern every slice stay noted (R266, R268). -/
def Mac.bare (m : Mac) : Mac :=
  { Mac.reset with blocked := m.blocked &&& 15, alarmIn := m.alarmIn }

/-- The blocks of a slice whose feed is off. -/
def Slice.unpowered (x : Slice) : Slice :=
  let y := x.blank
  { y with mac := y.mac.bare, shadow := Shadow.reset, err := Err.reset,
           ctl := { y.ctl with feedOn := false, onReq := false, offReq := false, resetReq := false, escTimes := [] } }

/-- All grants and requests of a slice given back (R371). -/
def State.releaseSlice (s : State) (c : Fin 4) : State :=
  let s1 := ((s.releaseAll (rxReq c)).releaseAll (txReq c)).releaseAll (tunerReq c)
  { s1 with pwr := { s1.pwr with rxAsk := vmod s1.pwr.rxAsk c.val (fun _ => .none) } }

/-- The slice's scheduled events are cancelled and its EVT claims drop low (R237, R394). -/
def State.dropEvents (s : State) (c : Fin 4) : State :=
  s.dropRules c

/-! ### Insertion and power-up -/

/-- The base grant (R369). -/
def baseTokens : Nat := 46

/-- The base grant asked for (R371). -/
def State.askBase (s : State) (c : Fin 4) : State :=
  let s1 := s.ask (rxReq c) baseTokens
  { s1 with pwr := { s1.pwr with rxAsk := vmod s1.pwr.rxAsk c.val (fun _ => .base) } }

/-- A cartridge identifies itself (R2, R36): an SX7464 slice asks for its base grant, any other is held powered down and
reported. -/
def State.identify (s : State) (c : Fin 4) : State :=
  match (s.sl c).cart with
  | none => s
  | some k =>
    let s1 := s.modSl c (fun x => { x with ctl := { x.ctl with part := k.part.toNat, issue := k.issue.toNat } })
    if k.part = 0x7464 then s1.askBase c
    else
      (s1.modSl c (fun x => { x with ctl := { x.ctl with state := .held } })).fault
        { status := Status.rejected, event := 0x16, level := 2, action := 8, block := 0x44, detail := k.part.toNat,
          slice := c.val }

/-- CARTRIDGE_INSERTED (R35's table, R395): into an empty bay. Before the module is ready the cartridge waits for its
place in the start-up (R382 step 7). -/
def execCartridgeInserted (c : Fin 4) (cart : Cartridge) (s : State) : Host.Outcome State Fault Refusal :=
  run s fun s =>
    if (s.sl c).cart.isSome then s
    else
      let s1 := s.modSl c (fun x => { x with cart := some cart, ctl := { x.ctl with present := true } })
      if s.mod.ready then (s1.identify c).bayChange
      else (s1.modSl c (fun x => { x with ctl := { x.ctl with state := .reset } })).bayChange

/-- The bay empties (R35's table): the cartridge's work, its grants and its events go with it. -/
def State.emptyBay (s : State) (c : Fin 4) : State :=
  let s1 := ((s.ceaseQueues c).releaseSlice c).dropEvents c
  let s2 := s1.modSl c (fun x =>
    let y := x.unpowered
    { y with cart := none,
             ctl := { y.ctl with state := .absent, present := false, part := 0, issue := 0 } })
  let s3 := { s2 with errm := { s2.errm with faulted := s2.errm.faulted &&& ~~~BitVec.ofNat 4 (2 ^ c.val) } }
  (s3.clearWindow c).recheckOffers.dropTiming.bayChange

/-- CARTRIDGE_REMOVED (R35's table, R394). -/
def execCartridgeRemoved (c : Fin 4) (s : State) : Host.Outcome State Fault Refusal :=
  run s fun s =>
    if (s.sl c).cart.isNone then s
    else
      let s1 := s.emptyBay c
      if s.mod.ready then
        s1.fault { status := Status.ok, event := 0x17, level := 2, action := 0, block := 0x44, slice := c.val }
      else s1

/-- ON_REQ of MOD.BAY set (R385, R395): a HELD SX7464 cartridge asks for its base grant. -/
def State.bayOn (s : State) (c : Fin 4) : State :=
  let k := (s.sl c).ctl
  if k.state ≠ .held ∨ k.part ≠ 0x7464 ∨ k.onReq then s
  else (s.modSl c (fun x => { x with ctl := { x.ctl with onReq := true } })).askBase c

/-- ON_REQ (R385, R395). -/
def execOnReq (c : Fin 4) (s : State) : Host.Outcome State Fault Refusal :=
  run s fun s => s.moduleWrite fun s => s.bayOn c

/-- OFF_REQ of MOD.BAY set (R385, R394): a burst on the air first completes its abbreviated ramp-down. A slice that is
not powered has nothing to power down. -/
def State.bayOff (s : State) (c : Fin 4) : State :=
  let k := (s.sl c).ctl
  if !k.feedOn ∨ k.offReq then s
  else
    let s1 := s.modSl c (fun x => { x with ctl := { x.ctl with offReq := true } })
    if (s1.sl c).tx.resetAfter.isSome then s1.modTx c (fun t => { t with resetAfter := some 0xE })
    else s1.haltSlice c 0xE

/-- OFF_REQ (R394). -/
def execOffReq (c : Fin 4) (s : State) : Host.Outcome State Fault Refusal :=
  run s fun s => s.moduleWrite fun s => s.bayOff c

/-- Whether a queue of slice `c` still has a record to move. -/
def State.draining (s : State) (c : Fin 4) : Bool :=
  (List.range 52).any (fun q =>
    s.queueDeclared (localQ c q) && ((s.qu (localQ c q)).xfer.isSome || !(s.qu (localQ c q)).staged.isEmpty))

/-- OFF_DRAIN_END (R394 steps 3 to 5): staging is empty, or 100 ms have passed. The cartridge is powered down and the
slice is HELD. -/
def execOffDrainEnd (c : Fin 4) (s : State) : Host.Outcome State Fault Refusal :=
  run s fun s =>
    let k := (s.sl c).ctl
    if !k.offReq ∨ k.state ≠ .reset then s
    else if s.draining c ∧ s.real < k.offAt + msTicks 100 then s
    else
      let s1 := ((s.ceaseQueues c).releaseSlice c).dropEvents c
      let s2 := s1.modSl c (fun x =>
        let y := x.unpowered
        { y with ctl := { y.ctl with state := .held } })
      s2.bayChange

/-- Slice `c` gets its base grant (R371): it leaves ABSENT, HELD or the start-up for RESET. DESIGN CHOICE: R37 names no
LAST_RESET code for a cartridge that ON_REQ powers up in its bay; it gets 0x4, insertion (log entry 71). -/
def State.baseGranted (s : State) (c : Fin 4) : State :=
  let start := (s.sl c).ctl.state == .reset
  s.feedBay c (if !start then 4 else if s.mod.resetCause = 0 then 0 else 1)

/-- Slice `c` is refused its base grant (R35's table): it is HELD. -/
def State.baseRefused (s : State) (c : Fin 4) : State :=
  s.modSl c (fun x => { x with ctl := { x.ctl with state := .held, onReq := false } })

/-- BAY_IDENTIFY (R382 step 7): the cartridge that waits in bay `c` is identified. -/
def execBayIdentify (c : Fin 4) (s : State) : Host.Outcome State Fault Refusal :=
  run s fun s =>
    let x := s.sl c
    let waits := vget s.pwr.rxAsk c.val .none != .none
    if !s.mod.ready ∨ x.ctl.state ≠ .reset ∨ x.ctl.feedOn ∨ waits then s else s.identify c

end Sys2Proof.Machine
end

