-- ==== Sys2Proof/Machine/Power.lean ====
section
/-! DEFINITION. The power steward and the supply (R367 to R380): grant cycles, input classes, the budget and the
auxiliary output. -/

namespace Sys2Proof.Machine

open Sys2Proof

/-- The power block changed. -/
def State.modPwr (s : State) (f : Pwr → Pwr) : State := { s with pwr := f s.pwr }

/-- An event of the power block. -/
def State.pwrEvent (s : State) (i : Nat) : State := s.modPwr (fun p => { p with events := raise p.events i })

/-! ### What a decision leads to -/

/-- Whether a requester waits where its tokens are not free (R369). -/
def reqWaits (i : Nat) : Bool := i == 1 || (decide (10 ≤ i) && decide (i ≤ 13))

/-- The receive chain of slice `c` has its tokens (R371, R72, R84). -/
def State.rxGranted (s : State) (c : Fin 4) : State :=
  let kind := vget s.pwr.rxAsk c.val .none
  let s1 := s.modPwr (fun p => { p with rxAsk := vmod p.rxAsk c.val (fun _ => .none) })
  match kind with
  | .none => s1
  | .base => s1.baseGranted c
  | .lockup =>
    s1.modSl c (fun x => { x with shadow := { x.shadow with
      area := (match x.shadow.area with
        | .asking f base t cmd => .pending f base t cmd
        | a => a),
      boot := x.shadow.boot.map (fun b => (b.1, b.2.1, true)) } })

/-- The receive chain of slice `c` is refused its tokens: a cartridge stays HELD, a FORME_LOCKUP fails, a boot entry
fails its check (R35's table, R71, R84). -/
def State.rxRefused (s : State) (c : Fin 4) : State :=
  let kind := vget s.pwr.rxAsk c.val .none
  let s1 := s.modPwr (fun p => { p with rxAsk := vmod p.rxAsk c.val (fun _ => .none) })
  match kind with
  | .none => s1
  | .base => s1.baseRefused c
  | .lockup =>
    match (s1.sl c).shadow.area, (s1.sl c).shadow.boot with
    | .asking f base _ cmd, _ => ((s1.keepGrant c).setArea c (.staged f base)).lockDone cmd Status.budget []
    | _, some b =>
      (s1.bootFault c Status.budget b.1.val).modSl c (fun x => { x with
        ctl := { x.ctl with state := .idle },
        shadow := { x.shadow with reload := none, boot := none, active := none } })
    | _, none => s1

/-- A request has been granted. -/
def State.granted (s : State) (i : Nat) : State :=
  if i = 1 then { s with fls := { s.fls with running := true } }
  else if i ≤ 5 then s.rxGranted (Fin.ofNat 4 (i - 2))
  else if i ≤ 8 then s
  else if i = 9 then s.modPwr (fun p => { p with aux := .on })
  else if i ≤ 13 then s.txCheck (Fin.ofNat 4 (i - 10))
  else s.modAfe (Fin.ofNat 4 (i - 14)) (fun a => { a with searching := true })

/-- An immediate request has been refused. -/
def State.refusedReq (s : State) (i : Nat) : State :=
  if i ≤ 5 then s.rxRefused (Fin.ofNat 4 (i - 2))
  else if i ≤ 8 then s.portDown (Fin.ofNat 3 (i - 6))
  else if i = 9 then (s.modPwr (fun p => { p with aux := .off })).pwrEvent 5
  else
    let c : Fin 4 := Fin.ofNat 4 (i - 14)
    match (s.sl c).afe.calRun with
    | some r =>
      if r.kind = 2 then
        let was := (s.sl c).afe.calEnd
        (s.calFinish c 2 r.origin Status.budget r.start r.start r.freq false false []).modAfe c (fun a =>
          { a with calEnd := was })
      else s
    | none => s

/-! ### Grant cycles (R372, R373) -/

/-- The tokens of a request, 0 when none waits. -/
def State.wants (s : State) (i : Nat) : Nat := vget s.pwr.want i 0

/-- Whether the tokens of request `i` are free. -/
def Pwr.fits (p : Pwr) (i : Nat) : Bool := decide (p.granted + vget p.want i 0 ≤ p.effective)

/-- Request `i` granted: the pointer of its class moves past it. -/
def Pwr.grant (p : Pwr) (i : Nat) : Pwr :=
  { p with
    held := vmod p.held i (fun h => h + vget p.want i 0), want := vmod p.want i (fun _ => 0),
    ptr := vmod p.ptr (reqClass i) (fun _ => arbNext 18 i) }

/-- Request `i` refused with BUDGET_DENIED (R373). -/
def State.refuse (s : State) (i : Nat) : State :=
  let s1 := (s.powerEvent 1 Status.budget (some i) (s.wants i)).modPwr (fun p =>
    { p with want := vmod p.want i (fun _ => 0), refused := count 16 1 p.refused, events := raise p.events 3 })
  s1.refusedReq i

/-- The requests of one class decided in the order of its pointer. `barred` says that a waiting request stands before
them; the answer says so of what follows. -/
def State.walkClass (cls : Nat) : Nat → List Nat → Bool → State → State × Bool
  | 0, _, barred, s => (s, barred)
  | n + 1, reqs, barred, s =>
    match arbPick (vget s.pwr.ptr cls 0) reqs with
    | none => (s, barred)
    | some i =>
      let rest := reqs.erase i
      if s.wants i = 0 then State.walkClass cls n rest barred s
      else if !barred && s.pwr.fits i then
        State.walkClass cls n rest barred ((s.modPwr (fun p => p.grant i)).granted i)
      else if reqWaits i then State.walkClass cls n rest true s
      else State.walkClass cls n rest barred (s.refuse i)

/-- Releases that arrived since the last cycle are applied; an auxiliary output that was switched off has fallen
(R372, R377). -/
def Pwr.applyReleases (p : Pwr) : Pwr :=
  { p with held := vmapIdx (fun i h => h - vget p.rel i 0) p.held, rel := Vector.replicate 18 0,
           aux := if p.aux = .falling then .off else p.aux }

/-- The requests pending at the start of a cycle. No flash write starts during a swap (R393). -/
def State.pendingReqs (s : State) : List Nat :=
  (List.range 18).filter (fun i => s.wants i != 0 && !(i == 1 && s.swapping))

/-- One grant cycle (R372). -/
def State.grantCycle (s : State) : State :=
  let s1 := s.modPwr Pwr.applyReleases
  let reqs := s1.pendingReqs
  ([0, 1, 2, 3].foldl (fun (t : State × Bool) cls =>
    let l := reqs.filter (fun i => reqClass i == cls)
    State.walkClass cls l.length l t.2 t.1) (s1, false)).1

/-- GRANT_CYCLE (R372). -/
def execGrantCycle (s : State) : Host.Outcome State Fault Refusal := run s State.grantCycle

/-! ### The supply (R367, R374 to R376) -/

/-- Since when a condition has held, at the real time `now` of a measurement. -/
def since (on : Bool) (now : Nat) (was : Option Nat) : Option Nat := if on then some (was.getD now) else none

/-- Whether a condition has held for `ms` milliseconds (R367). -/
def held (was : Option Nat) (ms now : Nat) : Bool := was.any (fun t => decide (t + msTicks ms ≤ now))

/-- INPUT_MEASUREMENT (R367): the input, the DC output and the rails, and since when the input has been below 85 VAC or
120 VDC, at or above them, and at or above 90 VAC or 125 VDC. -/
def execInputMeasurement (m : InputMeas) (s : State) : Host.Outcome State Fault Refusal :=
  run s fun s => s.modPwr (fun p =>
    let rated := if m.ac then 850 else 1200
    let good := if m.ac then 900 else 1250
    { p with
      lowSince := since (decide (m.dv.toNat < rated)) s.real p.lowSince,
      backSince := since (decide (rated ≤ m.dv.toNat)) s.real p.backSince,
      goodSince := since (decide (good ≤ m.dv.toNat)) s.real p.goodSince,
      inputDv := m.dv.toNat, ac := m.ac, freq := if m.ac then m.freq.toNat else 0,
      drawNow := m.draw.toNat, drawPeak := max p.drawPeak m.draw.toNat,
      railMv := vmapIdx (fun i mv => (m.rails[i]?.map (fun r => r.1.toNat)).getD mv) p.railMv,
      railOk := vmapIdx (fun i ok => (m.rails[i]?.map (fun r => r.2)).getD ok) p.railOk })

/-- The effective budget has changed from `was`: lowered below the tokens granted it is over (R374). -/
def State.checkOver (s : State) (was : Nat) : State :=
  if s.pwr.effective < was ∧ s.pwr.effective < s.pwr.granted then (s.pwrEvent 4).powerEvent 7 Status.ok none 0
  else s

/-- A change of the input class with its event and its record (R375, R376). -/
def State.setClass (s : State) (cls : InputClass) (event kind : Nat) : State :=
  let was := s.pwr.effective
  (((s.modPwr (fun p => { p with cls := cls })).pwrEvent event).powerEvent kind Status.ok none 0).checkOver was

/-- BROWN_OUT (R367, R375). -/
def execBrownOut (s : State) : Host.Outcome State Fault Refusal :=
  run s fun s => if s.pwr.cls = .normal ∧ held s.pwr.lowSince 100 s.real then s.setClass .brownOut 0 3 else s

/-- NORMAL_RESTORED (R367, R375). -/
def execNormalRestored (s : State) : Host.Outcome State Fault Refusal :=
  run s fun s => if s.pwr.cls = .brownOut ∧ held s.pwr.goodSince 1000 s.real then s.setClass .normal 2 4 else s

/-- A transmitter whose burst has not begun its key-up ends with BUDGET_DENIED (R376 step 1). -/
def State.txStarve (s : State) (c : Fin 4) : State :=
  match (s.sl c).tx.state with
  | .prepare => s.endTx c Status.budget
  | .wait => s.endTx c Status.budget
  | _ => s

/-- INPUT_LOSS (R376): every waiting request is refused. A flash write that waits asks again once the input returns. -/
def execInputLoss (s : State) : Host.Outcome State Fault Refusal :=
  run s fun s =>
    if s.pwr.cls = .inputLoss then s
    else
      let s1 := allSlices.foldl (fun t c => t.txStarve c) (s.setClass .inputLoss 1 5)
      s1.modPwr (fun p => { p with want := vmod p.want flashReq (fun _ => 0) })

/-- INPUT_RETURN (R367, R376): the input returns while the DC outputs are in regulation; it has not yet been good for
the time that NORMAL asks. -/
def execInputReturn (s : State) : Host.Outcome State Fault Refusal :=
  run s fun s =>
    if s.pwr.cls = .inputLoss ∧ held s.pwr.backSince 100 s.real then
      let s1 := s.setClass .brownOut 2 6
      if s.fls.jobs.isEmpty ∨ s.fls.running then s1 else s1.ask flashReq flashTokens
    else s

/-! ### Registers with a row (R374, R377, R380) -/

/-- A rejected write to a PWR register. -/
def State.pwrReject (s : State) : State := s.pwrEvent 7

/-- A write to PWR.BUDGET (R374, R380). -/
def State.writeBudget (s : State) (v : Word) : State :=
  let ok (lo : Nat) : Bool := decide (240 ≤ bf v lo 10) && decide (bf v lo 10 ≤ 640)
  if !ok 0 || !ok 16 then s.pwrReject
  else
    let w := mkWord [(16, 10, bf v 16 10), (0, 10, bf v 0 10)]
    if w = s.pwr.budget then s
    else
      let was := s.pwr.effective
      ((s.modPwr (fun p => { p with budget := w })).powerEvent 2 Status.ok none 0).checkOver was

/-- BUDGET_WRITE (R374, R380). -/
def execBudgetWrite (value : Word) (s : State) : Host.Outcome State Fault Refusal :=
  run s fun s => s.moduleWrite fun s => s.writeBudget value

/-- The requester of the auxiliary output (R369) and the tokens of a load (R369). -/
def auxReq : Nat := 9
def auxTokens (ma : Nat) : Nat := ceilDiv (33 * ma) 500

/-- A write to PWR.AUX (R377, R380). -/
def State.writeAux (s : State) (v : Word) : State :=
  let en := bit v 31
  let ma := bf v 0 10
  let p := s.pwr
  if (en && ma == 0) || decide (500 < ma) || (p.aux != .off && ma != p.auxMa) then s.pwrReject
  else
    let s1 := s.modPwr (fun p => { p with auxMa := ma })
    match p.aux, en with
    | .off, true => (s1.modPwr (fun p => { p with aux := .requested })).ask auxReq (auxTokens ma)
    | .falling, true => (s1.modPwr (fun p => { p with aux := .requested })).ask auxReq (auxTokens ma)
    | .on, false => (s1.releaseAll auxReq).modPwr (fun p => { p with aux := .falling })
    | .requested, false => (s1.releaseAll auxReq).modPwr (fun p => { p with aux := .falling })
    | _, _ => s1

/-- AUX_WRITE (R377). -/
def execAuxWrite (value : Word) (s : State) : Host.Outcome State Fault Refusal :=
  run s fun s => s.moduleWrite fun s => s.writeAux value

/-- AUX_FAULT (R377): an overload switches the output off. -/
def execAuxFault (s : State) : Host.Outcome State Fault Refusal :=
  run s fun s =>
    if s.pwr.aux = .on then
      (((s.releaseAll auxReq).modPwr (fun p => { p with aux := .off })).pwrEvent 6).powerEvent 8 Status.ok
        (some auxReq) 0
    else s

/-! ### Commands (R379) -/

/-- The requesters that wait, as PENDING shows them. -/
def Pwr.pendingBits (p : Pwr) : Nat := ((List.range 18).map (fun i => if vget p.want i 0 = 0 then 0 else 2 ^ i)).sum

/-- The result of PWR_QUERY. -/
def Pwr.query (p : Pwr) : List Byte :=
  p.held.toList.flatMap (fun n => le 2 n) ++ le 4 p.pendingBits ++ le 2 p.effective ++ le 2 (twos 16 p.free)

/-- PWR_QUERY (R379). -/
def execPwrQuery (s : State) : Host.Outcome State Fault Refusal :=
  run s fun s =>
    match s.inHand 12 0x68 with
    | some cmd => s.finish cmd Status.ok s.pwr.query
    | none => s

/-- PWR_SAVE (R379, R397). -/
def execPwrSave (s : State) : Host.Outcome State Fault Refusal :=
  run s fun s =>
    match s.inHand 12 0x69 with
    | none => s
    | some cmd =>
      match (s.keep cmd).flashWrite (.pool 4) (.pwrSave cmd.ref s.pwr.budget) with
      | some s1 => s1
      | none => s.flashDeny.finish cmd Status.budget []

end Sys2Proof.Machine
end

