-- ==== Sys2Proof/Machine/Firmware.lean ====
section
/-! DEFINITION. Feature negotiation, firmware images, the swap of firmware, and the flash (R387, R391 to R393, R396
to R398). -/

namespace Sys2Proof.Machine

open Sys2Proof

/-! ### Features (R387) -/

/-- The features offered (R387, R391). -/
def feaOffer : Nat → Word
  | 0 => 3
  | _ => 0

/-- A write to FEA.ACCEPT of word `w`: the write of ACCEPT3 commits; after a commit it is discarded. -/
def State.writeAccept (s : State) (w : Nat) (v : Word) : State :=
  if s.fea.committed then { s with fea := { s.fea with events := raise s.fea.events 0 } }
  else
    { s with fea := { s.fea with accept := vmod s.fea.accept w (fun _ => v), committed := w == 3 } }

/-- FEATURE_COMMIT (R387): the write of ACCEPT3. -/
def execFeatureCommit (value : Word) (s : State) : Host.Outcome State Fault Refusal :=
  run s fun s => s.moduleWrite fun s => s.writeAccept 3 value

/-- FEA_SAVE (R387, R397): there must be a committed acceptance to store. -/
def execFeaSave (s : State) : Host.Outcome State Fault Refusal :=
  run s fun s =>
    match s.inHand 14 0x73 with
    | none => s
    | some cmd =>
      if !s.fea.committed then s.finish cmd Status.rejected []
      else
        match (s.keep cmd).flashWrite (.pool 4) (.feaSave cmd.ref s.fea.accept) with
        | some s1 => s1
        | none => s.flashDeny.finish cmd Status.budget []

/-! ### Images (R392) -/

/-- The block of the firmware changed. -/
def State.modMod (s : State) (f : Mod → Mod) : State := { s with mod := f s.mod }

/-- The image of a slot. -/
def Mod.img (m : Mod) (k : Fin 2) : Option FwImage := m.images.get k

/-- MOD.FW of a slot (R385). -/
def FwImage.version (i : FwImage) : Word := mkWord [(24, 8, i.major), (16, 8, i.minor), (0, 16, i.patch)]

/-- MOD.FW of a slot, 0 for an empty or invalid image. -/
def Mod.fw (m : Mod) (k : Fin 2) : Word := match m.img k with | some i => i.version | none => 0

/-- BUILD of a slot. -/
def Mod.build (m : Mod) (k : Fin 2) : List Byte :=
  match m.img k with
  | some i => padTo 16 i.build
  | none => List.replicate 16 0

/-- FW_QUERY (R392). -/
def execFwQuery (s : State) : Host.Outcome State Fault Refusal :=
  run s fun s =>
    match s.inHand 14 0x72 with
    | none => s
    | some cmd =>
      let m := s.mod
      s.finish cmd Status.ok
        (le 4 (m.fw m.running).toNat ++ le 4 (m.fw m.other).toNat ++ m.build m.running ++ m.build m.other
          ++ [BitVec.ofNat 8 (b2n m.selected), 0, 0, 0])

/-- The time after which a load without a further chunk is dropped, as the staged area drops one (R72). -/
def loadTimeout : Nat := secTicks 10

/-- The bytes of the image being loaded, and whether a load timed out. -/
def State.loading (s : State) : Option (List Byte) × Bool :=
  match s.mod.load with
  | some (b, last) => if last + loadTimeout ≤ s.real then (none, true) else (some b, false)
  | none => (none, false)

/-- The header of an image whose length fits a slot (R392). -/
def imageLength (b : List Byte) : Option Nat :=
  if u32 b 0 = 0x47574651 ∧ u32 b 12 ≤ 8 * 1024 * 1024 then some (64 + u32 b 12) else none

/-- The bytes of a load with a chunk more: an image that is complete is written, one that is not valid leaves the slot
empty (R392). `first` says that this chunk erases the slot. -/
def State.loadImage (s : State) (cmd : Command) (b : List Byte) (first : Bool) : State :=
  let s1 := (s.keep cmd).modMod (fun m => { m with load := some (b, s.real) })
  let more (s : State) : State :=
    if first then s.queueJob (.image (some cmd.ref) s.mod.other none []) else s.complete cmd.ref Status.ok []
  let drop (s : State) : State := s.modMod (fun m => { m with load := none })
  if b.length < 64 then more s1
  else
    match imageLength b with
    | none => (drop s1).complete cmd.ref Status.badParam []
    | some n =>
      if b.length < n then more s1
      else
        match parseImage b with
        | none => (drop s1).complete cmd.ref Status.badParam []
        | some i => (drop s1).queueJob (.image (some cmd.ref) s.mod.other (some i) (le 4 (u32 b 16)))

/-- FW_LOAD_CHUNK (R392, R397): the chunks come in order, as those of a forme (R72); the first erases the image and
takes one write of the allowance. -/
def execFwLoadChunk (s : State) : Host.Outcome State Fault Refusal :=
  run s fun s =>
    match s.inHand 14 0x70 with
    | none => s
    | some cmd =>
      let off := u32 cmd.body 0
      let n := u32 cmd.body 4
      let data := slice cmd.body 8 n
      let idle (s : State) : State := s.modMod (fun m => { m with load := none })
      if s.swapping then s
      else if n % 4 ≠ 0 ∨ n < 4 ∨ 4096 < n then s.finish cmd Status.badParam []
      else
        match s.loading with
        | (some b, _) =>
          if off = 0 then s.finish cmd Status.rejected []
          else if off ≠ b.length then s.finish cmd Status.badParam []
          else s.loadImage cmd (b ++ data) false
        | (none, late) =>
          if off ≠ 0 then (idle s).finish cmd (if late then Status.timeout else Status.badParam) []
          else if s.flashDenied .image then s.flashDeny.finish cmd Status.budget []
          else
            ((s.countWrite .image).modMod (fun m => { m with
              images := vmod m.images m.other.val (fun _ => none) })).loadImage cmd data true

/-! ### Swaps (R393) -/

/-- FW_ACTIVATE (R392): only one activation waits at a time. -/
def execFwActivate (s : State) : Host.Outcome State Fault Refusal :=
  run s fun s =>
    match s.inHand 14 0x71 with
    | none => s
    | some cmd =>
      if s.swapping then s
      else
        match s.mod.img s.mod.other, s.mod.img s.mod.running with
        | none, _ => s.finish cmd Status.badParam []
        | some i, r =>
          let major := match r with | some r => r.major | none => i.major
          if i.major ≠ major ∧ !(u8 cmd.body 0).testBit 0 then s.finish cmd Status.rejected []
          else if s.mod.activate.isSome then s.finish cmd Status.rejected []
          else
            (s.keep cmd).modMod (fun m => { m with
              activate := some { cmd := some cmd.ref, atTb := u64 cmd.body 4 } })

/-- A command that ends an activation, where one waits. -/
def State.swapEnd (s : State) (cmd : Option CmdRef) (status : Nat) (result : List Byte) : State :=
  match cmd with
  | some c => s.complete c status result
  | none => s

/-- The swap to the other image starts (R393). Where that image is no longer valid the activation ends. -/
def State.startSwap (s : State) (cmd : Option CmdRef) : State :=
  let s1 := s.modMod (fun m => { m with activate := none, pushed := none })
  if (s1.mod.img s1.mod.other).isNone then s1.swapEnd cmd Status.badParam []
  else s1.modMod (fun m => { m with swapping := some { cmd := cmd, started := s.real } })

/-- SWAP_START (R393): at AT_TB, or at once. -/
def execSwapStart (s : State) : Host.Outcome State Fault Refusal :=
  run s fun s =>
    match s.mod.activate with
    | some a => if s.tb < a.atTb ∨ s.swapping then s else s.startSwap a.cmd
    | none => s

/-- The first TB epoch at least 1 s after a pushed image was stored (R396). -/
def pushedAt (stored : Nat) : Nat := alignUp (2 ^ 20) (stored + secTicks 1)

/-- PUSHED_IMAGE_ACTIVATE (R396): with ALLOW_MAJOR 0. -/
def execPushedImageActivate (s : State) : Host.Outcome State Fault Refusal :=
  run s fun s =>
    match s.mod.pushed with
    | none => s
    | some t =>
      if s.tb < pushedAt t ∨ s.swapping then s
      else
        match s.mod.img s.mod.other, s.mod.img s.mod.running with
        | some i, some r =>
          if i.major = r.major then s.startSwap none else s.modMod (fun m => { m with pushed := none })
        | _, _ => s.modMod (fun m => { m with pushed := none })

/-- What waited for a swap is made: records, then completions (R393). -/
def State.afterSwap (s : State) : State :=
  let recs := s.mod.heldRecs
  let done := s.mod.heldDone
  let s1 := s.modMod (fun m => { m with
    swapping := none, heldRecs := [], heldDone := [], busyWrite := false,
    events := if m.busyWrite then raise m.events 2 else m.events })
  let s2 := recs.foldl (fun t r => t.stage (qn r.1) r.2) s1
  done.foldl (fun t r => t.deliverDone (qn r.1) r.2) s2

/-- SWAP_DONE (R393): the new image serves the registers and becomes SELECTED. -/
def execSwapDone (s : State) : Host.Outcome State Fault Refusal :=
  run s fun s =>
    match s.mod.swapping with
    | none => s
    | some w =>
      let m := s.mod
      let s1 := (s.modMod (fun m => { m with
        image := !m.image, selected := !m.image, fallback := false, events := raise m.events 0 })).afterSwap
      let s2 := s1.swapEnd w.cmd Status.ok
        (le 4 (m.fw m.running).toNat ++ le 4 (m.fw m.other).toNat ++ le 4 ((s.real - w.started) / 1024))
      s2.flashJob (.free 4) (.selected (!m.image))

/-! ### Flash (R397, R398) -/

/-- A library entry written: a forme that replaces another keeps the entry's BOOT mask (R83). -/
def Fls.putEntry (f : Fls) (n : Fin 64) (b : List Byte) : Fls :=
  { f with library := vmod f.library n.val (fun e =>
      some { forme := b, boot := match e with | some e => e.boot | none => 0 }) }

/-- BOOT of a pushed object applied as LIB_BOOT does (R364). -/
def Fls.pushBoot (f : Fls) (n : Fin 64) (boot : BitVec 4) : Fls :=
  [0, 1, 2, 3].foldl (fun f c => if boot.toNat.testBit c then f.moveBoot c (some n.val) else f) f

/-- The transfer of a stored object answers OK (R364). -/
def State.pushStored (s : State) (id : Word) (src : Nat) : State :=
  let s1 := match s.trk.transfer id src with
    | some t => s.putTransfer { t with storing := false, stored := true, chunks := [] }
    | none => s
  (s1.trkEvent 9).answer id src Status.ok []

/-- The transfer of an object that could not be stored. -/
def State.pushFailed (s : State) (id : Word) (src : Nat) (status : Nat) : State :=
  let s1 := match s.trk.transfer id src with
    | some t => s.putTransfer { t with storing := false }
    | none => s
  s1.answer id src status []

/-- The calibration record of a cartridge written (R132). -/
def State.putCal (s : State) (id kind : Nat) (v : List Int) (freq : Nat) : State :=
  let old := ((s.calStore.find? (fun e => e.1 == id)).map Prod.snd).getD CalStore.empty
  { s with calStore := insertBy Prod.fst (id, old.put kind v freq) (s.calStore.filter (fun e => e.1 != id)) }

/-- What a completed program or erase leaves in flash, and what waited for it. -/
def State.jobDone (s : State) (j : FlashJob) : State :=
  let fls (f : Fls → Fls) (s : State) : State := { s with fls := f s.fls }
  match j with
  | .libStore cmd n b =>
    (fls (fun f => f.putEntry n b) s).complete cmd Status.ok (slice b (b.length - 4) 4)
  | .libErase cmd n =>
    (fls (fun f => { f with library := vmod f.library n.val (fun _ => none) }) s).complete cmd Status.ok []
  | .trkSave cmd cfg addr asym =>
    (fls (fun f => { f with trkSaved := some (cfg, addr), asymSaved := asym }) s).complete cmd Status.ok []
  | .pwrSave cmd b => (s.modPwr (fun p => { p with saved := some b })).complete cmd Status.ok []
  | .feaSave cmd a => ({ s with fea := { s.fea with saved := some a } }).complete cmd Status.ok []
  | .image cmd slot img result =>
    (s.modMod (fun m => { m with images := vmod m.images slot.val (fun _ => img) })).swapEnd cmd Status.ok result
  | .selected _ => s
  | .cal id kind v freq => s.putCal id kind v freq
  | .pushLib id src n b boot => (fls (fun f => (f.putEntry n b).pushBoot n boot) s).pushStored id src
  | .pushImage id src slot img boot =>
    let s1 := s.modMod (fun m => { m with images := vmod m.images slot.val (fun _ => img) })
    if img.isNone then s1.pushFailed id src Status.badParam
    else
      (if boot then s1.modMod (fun m => { m with pushed := some s.tb }) else s1).pushStored id src

/-- FLASH_WRITE_DONE (R85, R397): the program or erase that runs has completed. One that `failed` goes on in a spare
block that replaces the block (R398). -/
def execFlashWriteDone (failed : Bool) (s : State) : Host.Outcome State Fault Refusal :=
  run s fun s =>
    if !s.fls.running then s
    else if failed then { s with fls := { s.fls with events := raise s.fls.events 1 } }
    else
      match s.fls.jobs with
      | [] => s
      | j :: rest =>
        let s1 := ({ s with fls := { s.fls with jobs := rest, running := false } }).release flashReq flashTokens
        let s2 := if rest.isEmpty then s1 else s1.ask flashReq flashTokens
        s2.jobDone j

end Sys2Proof.Machine
end

