-- ==== Sys2Proof/Machine/Mailbox.lean ====
section
/-! DEFINITION. The SX5216 command mailbox of slice 0 (R390). -/

namespace Sys2Proof.Machine

open Sys2Proof

/-- A body word of the mailbox. -/
def Mailbox.word (m : Mailbox) (w : Nat) : Word := vget m.body w 0

/-- The bytes of the body from word 2 on, packed from the least significant byte. -/
def Mailbox.tail (m : Mailbox) : List Byte := (m.body.toList.drop 2).flatMap (fun w => le 4 w.toNat)

/-- Whether the body of DERIVE_KEY lies in the ranges of the mailbox. -/
def Mailbox.deriveOk (m : Mailbox) : Bool :=
  let a := m.word 0
  let n := m.word 1
  decide (bf a 0 8 < 16) && decide (bf a 8 8 < 16) && decide (bf n 0 8 + bf n 8 8 ≤ 56)

/-- The SX7464 command that the mailbox holds: its opcode and body, none where the opcode is unknown or a field is out
of range. -/
def Mailbox.build (m : Mailbox) : Option (Nat × List Byte) :=
  let a := m.word 0
  let op := bf m.opcode 0 8
  if op = 0x01 then some (0x30, le 4 (bf a 0 4) ++ le 8 0)
  else if op = 0x02 then some (0x30, le 4 (bf a 0 4) ++ le 4 (m.word 1).toNat ++ le 4 (m.word 2).toNat)
  else if op = 0x03 then some (0x41, le 8 (bf a 0 16))
  else if op = 0x04 then
    if m.deriveOk then
      let l := bf (m.word 1) 0 8
      let k := bf (m.word 1) 8 8
      some (0x40, le 1 (bf a 0 8) ++ le 1 (bf a 8 8) ++ le 1 (bf a 16 1) ++ le 1 (bf a 24 3) ++ le 1 (bf a 28 2)
        ++ le 1 l ++ le 1 k ++ [0] ++ padTo (alignUp 4 (l + k)) (m.tail.take (l + k)))
    else none
  else none

/-- A write to S5_MB_CTL: GO while a command is in hand is discarded and sets REJECT. -/
def Mailbox.writeCtl (m : Mailbox) (v : Word) : Mailbox :=
  let a := if bit v 1 then { m with reject := false } else m
  if !bit v 0 then a
  else if m.go then { a with reject := true }
  else { a with go := true, taken := false }

/-- S5_MB_STATUS. -/
def Mailbox.statusWord (m : Mailbox) : Word :=
  mkWord [(8, 24, if m.go then 0 else m.result), (0, 8, if m.go then Status.busy else m.status.toNat)]

/-- The command in the mailbox, as the control queue takes it next: it has nothing else in hand. -/
def State.mailboxTake (s : State) (op : Nat) : Option Command :=
  let m := s.mailbox
  if !m.go || m.taken || bf m.opcode 0 8 != op || (s.qu 68).inHand.isSome then none
  else
    m.build.map (fun b =>
      { queue := 68, opcode := BitVec.ofNat 8 b.1, tag := BitVec.ofNat 32 (0x52160000 + op), desc := mailboxDesc,
        body := b.2 })

/-- A mailbox command goes to its block. -/
def State.mailboxRun (s : State) (op : Nat) (f : State → Command → State) : State :=
  match s.mailboxTake op with
  | some cmd => f { s with mailbox := { s.mailbox with taken := true } } cmd
  | none => s

/-- CALIBRATE (R390). -/
def execCalibrate (s : State) : Host.Outcome State Fault Refusal :=
  run s fun s => s.mailboxRun 0x01 (fun s cmd => s.takeCal 0 cmd)

/-- CALIBRATE_AT (R390). -/
def execCalibrateAt (s : State) : Host.Outcome State Fault Refusal :=
  run s fun s => s.mailboxRun 0x02 (fun s cmd => s.takeCal 0 cmd)

/-- ERASE_KEYS (R390). -/
def execEraseKeys (s : State) : Host.Outcome State Fault Refusal :=
  run s fun s => s.mailboxRun 0x03 (fun s cmd => s.keyErase 0 cmd)

/-- DERIVE_KEY (R390). -/
def execDeriveKey (s : State) : Host.Outcome State Fault Refusal :=
  run s fun s => s.mailboxRun 0x04 (fun s cmd => s.keyDerive 0 cmd false)

/-- MAILBOX_BAD_OPCODE (R390): an unknown opcode, or a body field out of range, completes at once. -/
def execMailboxBadOpcode (s : State) : Host.Outcome State Fault Refusal :=
  run s fun s =>
    let m := s.mailbox
    if m.go && !m.taken && m.build.isNone then
      { s with mailbox := { m with go := false, status := BitVec.ofNat 8 Status.badParam, result := 0 } }
    else s

end Sys2Proof.Machine
end

