-- ==== Sys2Proof/Machine/RegsSlice.lean ====
section
/-! DEFINITION. The registers of a slice as they read (R36 to R40, R108, R136, R156, R157, R180 to R182, R206,
R207, R239, R269, R323, R341, R417). Each block answers `none` at an offset that holds no register (R8). -/

namespace Sys2Proof.Machine

open Sys2Proof

/-! ### What a slice shows -/

/-- Whether the registers show an element. -/
def Slice.shows (x : Slice) (ty key : Nat) : Bool :=
  match x.shown with
  | some f => f.has ty key
  | none => false

/-- The payload of an element that the registers show. -/
def Slice.showRec (x : Slice) (ty key : Nat) : List Byte :=
  match x.shown with
  | some f => (f.find ty key).getD []
  | none => []

/-! ### CTL and CLK -/

/-- CTL (R36 to R40). -/
def Slice.ctlRead (x : Slice) (o : Nat) : Option Word :=
  match o with
  | 0x0 =>
    some (if x.ctl.state = .absent then 0 else mkWord [(16, 8, x.ctl.issue), (0, 16, x.ctl.part)])
  | 0x4 => some (mkWord [(12, 4, x.ctl.lastReset), (8, 4, ((x.shown.map Forme.concMode).getD 0xF)),
      (0, 4, x.ctl.state.code)])
  | 0x8 => some (mkWord [(0, 1, b2n x.ctl.resetReq)])
  | 0xC => some x.ctl.bgCfg
  | 0x10 => some (mkWord [(17, 1, b2n x.ctl.capHit), (16, 1, b2n x.ctl.cfgReject), (0, 16, x.ctl.scrubPasses)])
  | _ => none

/-- CLK (R108) of a slice; `timing` says that it is the timing slice. -/
def Slice.clkRead (x : Slice) (timing : Bool) (o : Nat) : Option Word :=
  let k := x.clk
  match o with
  | 0x0 => some (mkWord [(5, 1, b2n k.rail), (4, 1, b2n timing), (3, 1, b2n k.aligned), (2, 1, b2n k.coast),
      (1, 1, b2n k.bypass), (0, 1, b2n k.lock)])
  | 0x4 => some k.events
  | 0x8 => some k.cfg
  | 0xC => some (lo32 k.ctrl)
  | 0x10 => some (if k.lock then lo32 (twos 32 k.phaseErr) else 0)
  | 0x14 => some k.phaseTrim
  | 0x18 => some (mkWord [(16, 16, k.relockFail), (0, 16, k.lockLoss)])
  | 0x1C => some (lo32 k.lastLoss)
  | 0x20 => some (hi32 k.lastLoss)
  | _ => none

/-! ### AFE -/

/-- The passband of a preselector band in Hz (R113). -/
def bandEdges : Nat → Nat × Nat
  | 0 => (9000, 1800000)
  | 1 => (1600000, 30000000)
  | 2 => (30000000, 87500000)
  | 3 => (87500000, 108000000)
  | 4 => (108000000, 240000000)
  | _ => (240000000, 470000000)

/-- The size of an NCO step: a step of 2^32 - M tunes to the frequency of M (R139). -/
def ncoSize (w : Word) : Nat := if w.toNat < 2 ^ 31 then w.toNat else 2 ^ 32 - w.toNat

/-- Whether a running tuning's centre frequency lies outside the selected passband (R114). In FAULTED the last value
stays (R35). -/
def Slice.outOfBand (x : Slice) : Bool :=
  let e := bandEdges x.afe.band
  x.afe.preselected && (List.range 32).any (fun t =>
    let f := ncoSize (x.tunAt t).ncoNow * 1024000000
    let runs := match x.shown with
      | some g => g.has 2 t && tnEnable (g.tn t) && !(x.tunAt t).faulted
      | none => false
    runs && (decide (f < e.1 * 2 ^ 32) || decide (e.2 * 2 ^ 32 < f)))

/-- Whether the AGC shows as frozen (R122, R136, R319). -/
def Slice.agcFrozen (x : Slice) : Bool := x.afe.agcMode != some false || x.agcHeld

/-- The calibration kinds that are requested and have not ended (R136). -/
def Afe.calWaiting (a : Afe) (kind : Nat) : Bool :=
  a.calPend.any (fun p => p.kind == kind) || a.calHeld.contains kind ||
    (match a.calRun with
    | some r => r.kind == kind
    | none => false)

/-- Whether an accepted on-request calibration has not ended (R136). -/
def Afe.calBusy (a : Afe) : Bool := !a.calPend.isEmpty || a.calRun.isSome

/-- Seconds since the last mismatch measurement (R136). -/
def Afe.rlAge (a : Afe) (real : Nat) : Nat :=
  match a.measuredAt with
  | some t => sat 16 ((real - t) / secTicks 1)
  | none => 0xFFFF

/-- AFE.STATUS (R136). -/
def Slice.afeStatus (x : Slice) : Word :=
  let a := x.afe
  mkWord [(16, 4, if a.preselected then a.band else 0xF), (8, 5, a.atten), (7, 1, b2n a.preselected),
    (6, 1, b2n a.lnaByp), (5, 1, b2n a.mismatch), (4, 1, b2n (a.bgRun || !a.bgDc.isEmpty)), (3, 1, b2n a.calBusy),
    (2, 1, b2n x.agcFrozen), (1, 1, b2n (a.tunerCircuit && tunerTopo a.tunerNow)), (0, 1, b2n x.outOfBand)]

/-- AFE (R136) at real time `real`. -/
def Slice.afeRead (x : Slice) (real : Nat) (o : Nat) : Option Word :=
  let a := x.afe
  match o with
  | 0x0 => some x.afeStatus
  | 0x4 => some a.events
  | 0x8 => some (mkWord [(8, 1, b2n a.lnaByp), (0, 5, a.atten)])
  | 0xC => some a.agcCfg
  | 0x10 => some a.agcLimits
  | 0x14 => some (if x.unlocked then 0xFFFF else mkWord [(0, 16, a.powerCb)])
  | 0x18 => some a.tuner
  | 0x1C => some a.tunerFreq
  | 0x20 => some a.monCfg
  | 0x24 => some a.monFreq
  | 0x28 => some (mkWord [(16, 16, a.rlAge real), (0, 16, a.rl)])
  | 0x2C => some (mkWord [(3, 1, b2n (a.calWaiting 4)), (2, 1, b2n (a.calWaiting 3)),
      (1, 1, b2n (a.calWaiting 2)), (0, 1, b2n (a.calWaiting 1))])
  | 0x30 => some (mkWord [(16, 16, a.attacks), (0, 16, a.gainSteps)])
  | 0x34 => some (lo32 a.clips)
  | 0x38 => some (mkWord [(16, 16, a.bgAbandoned), (0, 16, a.bgTrims)])
  | _ => none

/-! ### TUN and COEF -/

/-- The reset value of a tuning's register: what one that does not exist reads (R156). -/
def tunAbsent (u : Tuning) (t : Nat) (o : Nat) : Option Word :=
  if o = 0 then some (mkWord [(0, 1, if t < 8 then 0 else 1)])
  else if o = 4 then some (u.events &&& 0x80)
  else if o % 4 = 0 ∧ o ≤ 0x38 then some 0
  else none

/-- TUN[t].STATUS of a tuning that exists. -/
def Tuning.status (u : Tuning) (t : Nat) (coast enable : Bool) : Word :=
  mkWord [(11, 1, b2n (u.heldReq.getD false)), (10, 1, b2n u.heldReq.isSome),
    (9, 1, b2n (match u.xfade with
      | some k => decide (0 < k.made)
      | none => false)),
    (8, 1, b2n u.bank), (4, 1, b2n u.unsettledNow), (3, 1, b2n coast), (2, 1, b2n (enable && !coast)), (1, 1, 1),
    (0, 1, if t < 8 then 0 else 1)]

/-- The registers of tuning `t` (R156). -/
def Slice.tunRead (x : Slice) (t : Nat) (o : Nat) : Option Word :=
  let u := x.tunAt t
  match x.shown with
  | none => tunAbsent u t o
  | some f =>
    if !f.has 2 t then tunAbsent u t o
    else
      let cf := f.conf t
      match o with
      | 0x0 => some (u.status t x.clk.coast (tnEnable (f.tn t)))
      | 0x4 => some u.events
      | 0x8 => some u.ncoReg
      | 0xC => some (lo32 (tnPhase0 (f.tn t)))
      | 0x10 => some (mkWord [(24, 8, cf.taps), (16, 8, cf.fir), (0, 9, cf.cic)])
      | 0x14 => some (mkWord [(0, 16, cf.settle)])
      | 0x18 => some (mkWord [(1, 1, b2n u.target), (0, 1, b2n (u.bankPend.isSome || u.heldReq.isSome))])
      | 0x1C => some (lo32 u.index)
      | 0x20 => some u.indexHi
      | 0x24 => some (mkWord [(16, 16, u.superseded), (0, 16, u.swaps)])
      | 0x28 => some (lo32 u.sats)
      | 0x2C => some (mkWord [(0, 17, cf.period)])
      | 0x30 => some (mkWord [(0, 16, if t < 8 then 0 else cf.skew)])
      | 0x34 => some (mkWord [(8, 5, cf.firShift), (0, 6, cf.cicShift)])
      | 0x38 => some (lo32 cf.span)
      | _ => none

/-- GRP[g].DECIM and GRP[g].LOAD (R156). -/
def Slice.grpRead (x : Slice) (g : Nat) (o : Nat) : Option Word :=
  let f? := x.shown.bind (fun f => if f.has 13 g then some f else none)
  match o with
  | 0x0 => some ((f?.map (fun f => mkWord [(16, 8, f.fir (8 + 8 * g)), (0, 9, f.cic (8 + 8 * g))])).getD 0)
  | 0x4 => some (mkWord [(16, 11, vget x.grpPeak g 0),
      (0, 11, (f?.map (fun f => loadPm (f.groupLoad g) (f.period (8 + 8 * g)))).getD 0)])
  | _ => none

/-- The TUN block: 32 tunings, then three groups. -/
def Slice.tunBlock (x : Slice) (o : Nat) : Option Word :=
  if o < 0x800 then x.tunRead (o / 0x40) (o % 0x40)
  else if 0x1000 ≤ o ∧ o < 0x1030 then x.grpRead ((o - 0x1000) / 0x10) (o % 0x10)
  else none

/-- The COEF block (R157): words beyond the taps of a bank read 0. -/
def Slice.coefRead (x : Slice) (o : Nat) : Option Word :=
  let t := o / 0x2000
  let b := o / 0x1000 % 2
  let i := o % 0x1000 / 4
  if o % 4 = 0 ∧ i < 128 then
    some (if x.shows 2 t then
        BitVec.signExtend 32 (((vget (x.tunAt t).coef b [])[i]?).getD 0)
      else 0)
  else none

/-! ### DEM -/

/-- The code of an instance state (R180). -/
def InstState.code : InstState → Nat
  | .stopped => 0 | .search => 1 | .sync => 2 | .track => 3 | .hold => 4 | .faulted => 5

/-- Whether the measurements of an instance have a meaning in its state (R179). -/
def InstState.measures (t : InstState) : Bool := t == .sync || t == .track || t == .hold

/-- The code of an acquirer state (R207). -/
def AcqState.code : AcqState → Nat
  | .idle => 0 | .triggered => 1 | .header => 2 | .payload => 3

/-- AUDIO_MUTED (R160, R162, R180): programme audio is muted by itself, and outside SYNC and TRACK. -/
def Inst.mutes (i : Inst) (profile : Nat) : Bool :=
  (profile == 1 || profile == 3) && (i.audioMuted || !(i.state == .sync || i.state == .track))

/-- The registers of an instance or candidate that runs (R180 to R182): `cfg` is its CONFIG. -/
def Inst.read (i : Inst) (cfg : Word) (o : Nat) : Option Word :=
  let profile := bf cfg 24 8
  let m := i.state.measures
  let init := pstatInit profile
  let shows := !(i.state == .stopped || i.state == .search)
  match o with
  | 0x0 => some (mkWord [(10, 1, b2n (i.mutes profile)), (9, 1, b2n i.pilot), (8, 1, b2n i.erasing), (0, 4, i.state.code)])
  | 0x4 => some i.events
  | 0x8 => some 0
  | 0xC => some cfg
  | 0x10 => some (if m then i.freqErr else 0x80000000)
  | 0x14 => some (if m then i.clockErr else 0x80000000)
  | 0x18 => some (if m then i.level else 0x80008000)
  | 0x1C => some (if m then i.quality else 0xFFFF8000)
  | 0x20 => some (lo32 i.unitOk)
  | 0x24 => some (lo32 i.unitFail)
  | 0x28 => some (lo32 i.erased)
  | 0x2C => some (mkWord [(16, 16, i.losses), (0, 16, i.locks)])
  | 0x30 => some (if shows then i.pstat0 else init.1)
  | 0x34 => some (if shows then
        (if profile = 1 ∨ profile = 3 then setBf i.pstat1 16 16 (sat 16 i.muted) else i.pstat1)
      else init.2)
  | _ => none

/-- The registers of an instance or candidate that does not run: reset values and WRITE_REJECT (R180). -/
def Inst.readAbsent (i : Inst) (o : Nat) : Option Word :=
  match o with
  | 0x0 => some 0xF
  | 0x4 => some (i.events &&& 0x20)
  | 0xC => some 0x00FFFF00
  | 0x10 => some 0x80000000
  | 0x14 => some 0x80000000
  | 0x18 => some 0x80008000
  | 0x1C => some 0xFFFF8000
  | _ => if o % 4 = 0 ∧ o ≤ 0x34 then some 0 else none

/-- CONFIG of an instance or candidate (R180). -/
def Slice.demConfig (x : Slice) (r : InstRef) : Word :=
  let p := x.refRec r
  let cells : Nat × Nat := match r with
    | .inst n => ((vget x.shadow.cellBase n.val none).getD 0xFF, dmCells p)
    | .cand t => match vget x.candInfo t.val none with
      | some i => (i.cells.headD 0xFF, i.cells.length)
      | none => (0xFF, 0)
  mkWord [(24, 8, dmProfile p), (16, 8, x.refTun r), (8, 8, cells.1), (0, 8, cells.2)]

/-- PSTAT0 and PSTAT1 of an LDB instance or candidate (R200): ACQ and NOISE. -/
def Slice.ldbStat (x : Slice) (r : InstRef) : Nat × Nat :=
  let a := x.acqOf r
  let t := (x.demod r).state
  if t == .stopped || t == .search then (0, 0x8000)
  else (if t.busy then a.acq.code else 7, match a.noiseMean with | some v => twos 16 v | none => 0x8000)

/-- The registers of an instance or candidate. -/
def Slice.demRead (x : Slice) (r : InstRef) (o : Nat) : Option Word :=
  if (x.keyOf r).isNone then (x.demod r).readAbsent o
  else if dmProfile (x.refRec r) = 8 ∧ o = 0x30 then some (mkWord [(0, 4, (x.ldbStat r).1)])
  else if dmProfile (x.refRec r) = 8 ∧ o = 0x34 then some (mkWord [(0, 16, (x.ldbStat r).2)])
  else (x.demod r).read (x.demConfig r) o

/-- DEM.CELL[k]: OWNER and USE of a demodulator cell (R180). -/
def Slice.cellWord (x : Slice) (k : Nat) : Word :=
  if x.err.isolated.contains k then 0xFF03
  else match x.cellUser k with
    | some (.inst n) => mkWord [(8, 8, n.val), (0, 2, 1)]
    | some (.cand t) => mkWord [(8, 8, 0x80 + t.val), (0, 2, 2)]
    | none => if x.shadow.spare.contains k then 0xFF02 else 0xFF00

/-- The instances in TRACK among the `n` from `lo` on, as bits (R180). -/
def Slice.trackBits (x : Slice) (lo n : Nat) : Word :=
  mkWord ((List.range n).map (fun i => (i, 1, b2n ((x.instAt (lo + i)).state == .track))))

/-- The DEM block. -/
def Slice.demBlock (x : Slice) (o : Nat) : Option Word :=
  if o < 0x1800 then x.demRead (.inst (Fin.ofNat 48 (o / 0x80))) (o % 0x80)
  else if 0x2000 ≤ o ∧ o < 0x3000 then x.demRead (.cand (Fin.ofNat 32 ((o - 0x2000) / 0x80))) (o % 0x80)
  else if 0x3000 ≤ o ∧ o < 0x30C0 ∧ o % 4 = 0 then some (x.cellWord ((o - 0x3000) / 4))
  else if o = 0x3100 then some (x.trackBits 0 32)
  else if o = 0x3104 then some (x.trackBits 32 16)
  else none

/-! ### TRL and BST -/

/-- TRL (R206). -/
def Trl.read (t : Trl) (o : Nat) : Option Word :=
  let own (d : Nat) : Nat × Nat := match vget t.run d none with
    | some g => (1, g.tuning.val)
    | none => (0, 0)
  match o with
  | 0x0 => some (mkWord [(24, 5, t.ptr), (13, 1, (own 1).1), (8, 5, (own 1).2), (5, 1, (own 0).1), (0, 5, (own 0).2)])
  | 0x4 => some t.events
  | 0x8 => some (lo32 (vget t.segs 0 0))
  | 0xC => some (lo32 (vget t.segs 1 0))
  | 0x10 => some (mkWord [(16, 11, t.peakPm), (0, 11, t.loadPm)])
  | 0x14 => some (mkWord [(0, 16, t.waitMax)])
  | 0x18 => some (mkWord [(0, 16, t.resets)])
  | _ => none

/-- BST[n] of an LDB instance or candidate (R207); `busy` says that it searches, synchronises or tracks. -/
def Acq.read (a : Acq) (busy : Bool) (o : Nat) : Option Word :=
  let inHand := busy && (a.acq == .header || a.acq == .payload)
  match o with
  | 0x0 => some (mkWord [
      (16, 16, match a.burst with
        | some b => if inHand then twos 16 b.ref else 0
        | none => 0),
      (0, 4, if busy then a.acq.code else 7)])
  | 0x4 => some a.events
  | 0x8 => some (mkWord [
      (16, 16, match a.noiseMean with
        | some v => twos 16 v
        | none => 0x8000),
      (0, 16, match a.rssi with
        | some v => twos 16 v
        | none => 0x8000)])
  | 0xC => some (mkWord [(16, 16, a.falseTrig), (0, 16, a.triggers)])
  | 0x10 => some (mkWord [(16, 16, a.hdrFail), (0, 16, a.hdrOk)])
  | 0x14 => some (mkWord [(16, 16, a.payFail), (0, 16, a.payOk)])
  | 0x18 => some (mkWord [(16, 16, a.missed), (0, 16, a.captured)])
  | 0x1C => some (mkWord [(16, 16, a.aborted), (0, 16, a.reacquired)])
  | 0x20 => some (lo32 a.lastSync)
  | 0x24 => some a.lastSyncHi
  | _ => none

/-- The reset values of BST[n] (R207). -/
def bstAbsent (o : Nat) : Option Word :=
  if o = 0 then some 0xF else if o = 8 then some 0x80008000
  else if o % 4 = 0 ∧ o ≤ 0x24 then some 0 else none

/-- Whether an instance or candidate is an LDB one. -/
def Slice.isLdb (x : Slice) (r : InstRef) : Bool := (x.keyOf r).isSome && dmProfile (x.refRec r) == 8

/-- BST[n] of an instance or candidate. -/
def Slice.bstRead (x : Slice) (r : InstRef) (o : Nat) : Option Word :=
  if x.isLdb r then (x.acqOf r).read (x.demod r).state.busy o else bstAbsent o

/-- The BST block. -/
def Slice.bstBlock (x : Slice) (o : Nat) : Option Word :=
  if o < 0xC00 then x.bstRead (.inst (Fin.ofNat 48 (o / 0x40))) (o % 0x40)
  else if 0x2000 ≤ o ∧ o < 0x2800 then x.bstRead (.cand (Fin.ofNat 32 ((o - 0x2000) / 0x40))) (o % 0x40)
  else none

/-! ### SVC -/

/-- CTX[k] of a context that exists (R239). -/
def Slice.ctxShown (x : Slice) (k : Nat) (o : Nat) : Option Word :=
  let y := x.ctxAt k
  let p := x.showRec 5 k
  let a := x.afAt (cxDemod p)
  let known := a.state != .off && a.lead.val == k && a.ref.isSome
  match o with
  | 0x0 => some (mkWord [(16, 8, cxQueue p), (8, 8, cxParser p), (6, 2, cxDelivery p),
      (4, 1, b2n (x.alertHolder == some (Fin.ofNat 256 k))), (3, 1, b2n y.alert.active), (2, 1, b2n y.spec),
      (1, 1, b2n (!a.held.isEmpty)), (0, 1, 1)])
  | 0x4 => some y.events
  | 0x8 => some (lo32 y.msgOk)
  | 0xC => some (lo32 y.msgFail)
  | 0x10 => some (if known then mkWord [(31, 1, 1), (0, 24, a.ref.getD 0)] else 0)
  | _ => none

/-- CTX[k] (R239). -/
def Slice.ctxRead (x : Slice) (k : Nat) (o : Nat) : Option Word :=
  if x.shows 5 k then x.ctxShown k o
  else if o = 0 then some 0x00FF0000
  else if o % 4 = 0 ∧ o ≤ 0x10 then some 0 else none

/-- The code of an AF state (R239). -/
def AfState.code : AfState → Nat
  | .off => 0 | .learn => 1 | .primary => 2 | .check => 3 | .speculative => 4 | .handover => 5

/-- The tuning whose units feed the contexts of an instance (R222). -/
def Slice.feedTuning (x : Slice) (n : Nat) : Nat :=
  let a := x.afAt n
  match a.cand with
  | some t => if a.state = .speculative ∨ a.state = .handover then t.val else x.instTun n
  | none => x.instTun n

/-- AF[n] (R239). -/
def Slice.afRead (x : Slice) (n : Nat) (o : Nat) : Option Word :=
  let a := x.afAt n
  if a.state = .off then
    (if o = 0 then some 0x0000FF00 else if o % 4 = 0 ∧ o ≤ 0x14 then some 0 else none)
  else match o with
    | 0x0 => some (mkWord [(24, 4, a.state.code), (16, 8, sat 8 (x.afAll n).length), (8, 8, x.feedTuning n),
        (0, 8, a.lead.val)])
    | 0x4 => some a.events
    | 0x8 => some (lo32 (x.tuningHz (x.instTun n)))
    | 0xC => some (lo32 a.primaryHz)
    | 0x10 => some (mkWord [(16, 16, a.undone), (0, 16, a.switches)])
    | 0x14 => some (mkWord [(16, 16, a.failed), (0, 16, a.passed)])
    | _ => none

/-- The levels of the EVT pins as bits. -/
def State.evtLevels (s : State) : Nat :=
  (mkWord ((List.range 8).map (fun i => (i, 1, b2n (vget s.evt i { level := false, pulse := none }).level)))).toNat

/-- The scheduler's registers in the SVC block of slice `c` (R239). -/
def State.svcRead (s : State) (c : Fin 4) (o : Nat) : Option Word :=
  let d := s.sch c
  let h := (s.sl c).alertHolder
  match o with
  | 0x3000 => some (mkWord [(24, 1, b2n h.isSome), (16, 8, (h.map (fun k => k.val)).getD 0),
      (8, 8, d.claim.toNat), (0, 8, s.evtLevels &&& d.claim.toNat)])
  | 0x3004 => some d.events
  | 0x3008 => some d.cfg
  | 0x300C => some (mkWord [(8, 8, (d.entries.filter (fun e => e.done.isSome)).length),
      (0, 8, (d.entries.filter (fun e => e.done.isNone)).length)])
  | 0x3010 => some (mkWord [(16, 16, d.late), (0, 16, d.executed)])
  | 0x3014 => some (mkWord [(16, 16, d.rejected), (0, 16, d.cancelled)])
  | 0x3018 => some (lo32 d.dups)
  | 0x301C => some (lo32 (s.nextDue c))
  | 0x3020 => some d.nextHi
  | _ => none

/-- The SVC block of slice `c`. -/
def State.svcBlock (s : State) (c : Fin 4) (o : Nat) : Option Word :=
  if o < 0x2000 then (s.sl c).ctxRead (o / 0x20) (o % 0x20)
  else if o < 0x2600 then (s.sl c).afRead ((o - 0x2000) / 0x20) (o % 0x20)
  else s.svcRead c o

/-! ### MAC -/

/-- Whether an operation is bound to a slot (R246, R269). -/
def Slice.slotBound (x : Slice) (k : Nat) : Bool :=
  let bound (e : Envelope) : Bool := match e.bound with
    | some b => b.1.val == k && e.verdict.isNone
    | none => false
  x.mac.ops.any (fun o => o.slot.val == k) || x.ctx.toList.any (fun y => y.queued.any bound || (match y.env with
    | some e => bound e
    | none => false))

/-- SLOT[k] (R269). -/
def Slice.slotRead (x : Slice) (k : Nat) (o : Nat) : Option Word :=
  let w := x.slotAt k
  let held := w.state != .empty
  let h (n : Nat) : Nat := if held then n else 0
  match o with
  | 0x0 => some (mkWord [(16, 16, w.generation.toNat), (14, 2, w.eraseCause.toNat), (12, 2, h w.minTag.toNat),
      (10, 1, h (b2n w.aes256)), (7, 3, h w.usage.toNat), (2, 1, b2n (x.slotBound k)), (0, 2, slotStateCode w.state)])
  | 0x4 => some (mkWord [(0, 24, slotKcv w)])
  | 0x8 => some (if held && w.usage.getLsbD 1 then lo32 w.txCounter.toNat else 0)
  | 0xC => some (vget x.mac.ctrHi k 0)
  | _ => none

/-- MAC (R269). -/
def Slice.macRead (x : Slice) (o : Nat) : Option Word :=
  let m := x.mac
  match o with
  | 0x0 => some (mkWord [(16, 7, (m.slots.toList.filter (fun w => w.state != .empty)).length), (8, 1, b2n m.alarmIn),
      (1, 1, b2n (m.blocked != 0)), (0, 1, b2n m.erasing)])
  | 0x4 => some m.events
  | 0x8 => some (mkWord [(16, 11, m.peakPm), (0, 11, m.loadPm)])
  | 0xC => some (lo32 m.pass)
  | 0x10 => some (mkWord [(16, 16, m.replayFail), (0, 16, m.tagFail)])
  | 0x14 => some (mkWord [(16, 16, m.keyFail), (0, 16, m.formatFail)])
  | 0x18 => some (mkWord [(16, 16, m.genFail), (0, 16, m.generated)])
  | 0x1C => some (mkWord [(16, 16, m.erases.toNat), (0, 6, m.lastCause.toNat)])
  | 0x20 => some (lo32 m.alarmTb)
  | 0x24 => some m.alarmHi
  | _ => none

/-- The MAC block with the key-slot status. -/
def Slice.macBlock (x : Slice) (o : Nat) : Option Word :=
  if o < 0x100 then x.macRead o
  else if o < 0x500 then x.slotRead ((o - 0x100) / 0x10) (o % 0x10)
  else none

/-! ### TXC and SAI -/

/-- The code of a transmitter state (R323). -/
def TxState.code : TxState → Nat
  | .disabled => 0 | .idle => 1 | .prepare => 2 | .wait => 3 | .keyup => 4 | .on => 5 | .abort => 6
  | .release => 7 | .inhibit => 8

/-- TXC (R323); `tokens` says that TX_TOKENS are held. -/
def Slice.txcRead (x : Slice) (tokens : Bool) (o : Nat) : Option Word :=
  let t := x.tx
  match o with
  | 0x0 => some (mkWord [(20, 4, t.state.code), (8, 1, b2n t.coexPri), (7, 1, b2n t.gnt), (6, 1, b2n t.coexReq),
      (5, 1, b2n t.trSw), (4, 1, b2n t.paEn), (3, 1, b2n tokens), (2, 1, b2n t.winOpen),
      (1, 1, b2n (t.calFreq != 0 && x.synthReady t.calFreq)), (0, 1, b2n t.lock)])
  | 0x4 => some t.events
  | 0x8 => some (mkWord [(0, 1, b2n t.cancelReq)])
  | 0xC => some t.paCfg
  | 0x10 => some t.coexCfg
  | 0x14 => some t.senseCfg
  | 0x18 => some (match t.sense with
      | some (fwd, rev) => mkWord [(16, 16, rev), (0, 16, fwd)]
      | none => 0xFFFFFFFF)
  | 0x1C => some (mkWord [(16, 8, if t.lock then t.band else 0xFF), (14, 2, t.div), (0, 10, sat 10 t.lockUs)])
  | 0x20 => some (if t.lock then lo32 t.calFreq else 0)
  | 0x24 => some (mkWord [(16, 16, t.failed), (0, 16, t.sent)])
  | 0x28 => some (mkWord [(16, 16, t.synthNotReady), (0, 16, t.coexDenied)])
  | 0x2C => some (mkWord [(24, 8, t.coexLost), (16, 8, t.paFault), (8, 8, t.lockLoss), (0, 8, t.clockLoss)])
  | _ => none

/-- The code of a half state (R341). -/
def HalfState.code : HalfState → Nat
  | .off => 0 | .stopped => 1 | .starting => 2 | .running => 3 | .stopping => 4 | .stalled => 5 | .faulted => 6

/-- The rate that a half has measured, in 0.01 Hz (R332, R341). -/
def Half.measured (h : Half) (master : Bool) (rate : Nat) : Nat :=
  match h.state with
  | .off => 0
  | .stalled => 0
  | .faulted => 0
  | _ =>
    if master then rate * 100
    else match h.stamps.head?, h.stamps.getLast? with
      | some b, some a =>
        if h.measFrom + 2 ^ 30 ≤ b ∧ a < b then roundDiv ((h.stamps.length - 1) * 102400000000) (b - a) else 0
      | _, _ => 0

/-- The rate of a half's reference period, in 0.01 Hz (R335, R341). -/
def Half.refRate (h : Half) : Nat :=
  if h.state = .off ∨ h.refNum = 0 then 0 else roundDiv (102400000000 * h.refDen) h.refNum

/-- SAI (R341). -/
def Slice.saiRead (x : Slice) (o : Nat) : Option Word :=
  let a := x.sai
  let p? := x.shown.bind Forme.audio
  let p := p?.getD []
  let fill (h : Half) (rx : Bool) : Nat := h.fill (maskSlots (auMask p rx)).length
  match o with
  | 0x0 => some (mkWord [(28, 4, a.tx.state.code), (24, 4, a.rx.state.code),
      (16, 8, match a.source with
        | some n => if a.tx.state = .off then 0xFF else n.val
        | none => 0xFF),
      (9, 7, fill a.tx false), (2, 7, fill a.rx true), (1, 1, b2n a.tx.suspect), (0, 1, b2n a.rx.suspect)])
  | 0x4 => some a.events
  | 0x8 => some (mkWord [(3, 1, b2n a.rx.stop), (2, 1, b2n a.rx.start), (1, 1, b2n a.tx.stop), (0, 1, b2n a.tx.start)])
  | 0xC => some (if p?.isSome then
      mkWord [(24, 8, auTxMask p), (16, 8, auRxMask p), (12, 4, auSlots p), (10, 2, auFormat p),
        (9, 1, b2n (auRxMaster p)), (8, 1, b2n (auTxMaster p)), (0, 8, auWord p)] else 0)
  | 0x10 => some (if p?.isSome then mkWord [(24, 8, auZcMs p), (0, 17, auRate p)] else 0)
  | 0x14 => some (lo32 (a.tx.measured (auTxMaster p) (auRate p)))
  | 0x18 => some (lo32 (a.rx.measured (auRxMaster p) (auRate p)))
  | 0x1C => some (lo32 a.tx.refRate)
  | 0x20 => some (lo32 a.rx.refRate)
  | 0x24 => some (mkWord [(16, 16, a.tx.glitch), (0, 16, a.tx.slips)])
  | 0x28 => some (mkWord [(16, 16, a.rx.glitch), (0, 16, a.rx.slips)])
  | 0x2C => some (mkWord [(24, 8, a.tx.xrun), (16, 8, a.rx.xrun), (8, 8, a.tx.stalls), (0, 8, a.rx.stalls)])
  | _ => none

/-! ### ERR -/

/-- The elements of a slice that are faulted now (R417). -/
def Slice.faultedCount (x : Slice) : Nat :=
  (x.tun.toList.filter (fun u => u.faulted)).length
    + (x.inst.toList.filter (fun i => i.state == .faulted)).length
    + (x.ctx.toList.filter (fun y => y.faulted)).length

/-- ERR (R417, R418). -/
def Slice.errRead (x : Slice) (o : Nat) : Option Word :=
  let e := x.err
  match o with
  | 0x0 => some (mkWord [(24, 3, (e.spares.toList.min?).getD 4), (16, 8, sat 8 e.retired.length),
      (1, 1, b2n x.shadow.bad), (0, 1, b2n e.faultedEsc)])
  | 0x4 => some e.events
  | 0x8 => some (mkWord [(16, 16, e.busCnt), (0, 16, e.memCnt)])
  | 0xC => some (mkWord [(8, 8, e.sliceResets), (0, 8, e.blockResets)])
  | 0x10 => some (mkWord [(16, 16, e.unmapped), (0, 16, e.access)])
  | 0x14 => some (e.addr.getD 0)
  | 0x18 => some (mkWord [(16, 16, x.faultedCount), (0, 16, e.isolated.length + e.isolatedFir.length)])
  | 0x1C => some 0
  | _ => none

/-! ### The slice's region (R44) -/

/-- The register at an offset of slice `c` below the SX5216 window, read in a state that serves it. -/
def State.sliceReg (s : State) (c : Fin 4) (o : Nat) : Option Word :=
  let x := s.sl c
  let b := o % 0x10000
  if o < 0x10000 then x.ctlRead b
  else if o < 0x20000 then x.clkRead (s.tbm.timing == some c) b
  else if o < 0x30000 then x.afeRead s.real b
  else if o < 0x40000 then x.tunBlock b
  else if o < 0x80000 then x.coefRead (o - 0x40000)
  else if o < 0xA0000 then x.demBlock (o - 0x80000)
  else if o < 0xB0000 then x.trl.read b
  else if o < 0xC0000 then x.bstBlock b
  else if o < 0xD0000 then s.svcBlock c b
  else if o < 0xE0000 then x.macBlock b
  else if o < 0xF0000 then x.txcRead (decide (0 < s.holds (txReq c))) b
  else if o < 0x100000 then x.saiRead b
  else if o < 0x110000 then x.errRead b
  else none

end Sys2Proof.Machine
end

