-- ==== Sys2Proof/Machine/Startup.lean ====
section
/-! DEFINITION. Module resets and the start-up (R381 to R386, R376, R399, R407, R426, R430). -/

namespace Sys2Proof.Machine

open Sys2Proof

/-! ### Module reset (R381) -/

/-- A slice after a module reset: its cartridge stays in its bay, and the alarm sources that are active stay noted. -/
def Slice.moduleReset (c : Nat) (x : Slice) (cause : Nat) : Slice :=
  let y := Slice.reset c
  { y with
    cart := x.cart,
    mac := { y.mac with blocked := x.mac.blocked, alarmIn := x.mac.alarmIn },
    ctl := { y.ctl with
      state := if x.cart.isSome then .reset else .absent, present := x.cart.isSome,
      lastReset := if cause = 0 then 0 else 1 } }

/-- The firmware after a module reset: the images stay, and so does the selected one as far as it has reached flash. -/
def Mod.afterReset (m : Mod) (jobs : List FlashJob) (cause : Nat) : Mod :=
  let pend := jobs.find? (fun j => match j with | .selected _ => true | _ => false)
  { Mod.reset with
    resetCause := cause, images := m.images, image := m.image,
    selected := match pend with | some (.selected b) => !b | _ => m.selected }

/-- The flash after a module reset: what was written stays, what waited is lost (R85). -/
def Fls.afterReset (f : Fls) : Fls :=
  { Fls.reset with
    log := f.log, imgLog := f.imgLog, library := f.library, asymSaved := f.asymSaved, trkSaved := f.trkSaved }

/-- The steward after a module reset: only a power-up starts in NORMAL (R367). -/
def Pwr.afterReset (p : Pwr) (cause : Nat) : Pwr :=
  { Pwr.reset with saved := p.saved, cls := if cause = 0 then .normal else p.cls }

/-- A module reset (R381): every block starts again but for flash, cartridges and the RTC. -/
def State.moduleReset (s : State) (cause : Nat) : State :=
  { State.reset with
    pending := s.pending, real := s.real, free := s.free, readData := s.readData, out := s.out,
    slices := vmapIdx (fun c x => x.moduleReset c cause) s.slices,
    pwr := s.pwr.afterReset cause,
    mod := s.mod.afterReset s.fls.jobs cause,
    fea := { Fea.reset with saved := s.fea.saved },
    fls := s.fls.afterReset,
    calStore := s.calStore }

/-- A write to MOD.CTL (R386). -/
def State.writeModCtl (s : State) (v : Word) : State :=
  if bf v 16 16 = 0x5A17 ∧ bit v 0 then s.moduleReset 1 else s

/-- MODULE_RESET (R386): the value written to MOD.CTL. -/
def execModuleReset (value : Word) (s : State) : Host.Outcome State Fault Refusal :=
  run s fun s => s.moduleWrite fun s => s.writeModCtl value

/-- WATCHDOG_EXPIRY (R381): outside a swap. -/
def execWatchdogExpiry (s : State) : Host.Outcome State Fault Refusal :=
  run s fun s => if s.swapping ∨ !s.mod.ready then s else s.moduleReset 2

/-- RAIL_COLLAPSE (R376): the module is held in reset. -/
def execRailCollapse (s : State) : Host.Outcome State Fault Refusal :=
  run s fun s => if s.pwr.cls = .inputLoss then s.moduleReset 3 else s

/-- MODRESET (R430): an Update-DR of the access port. -/
def execModreset (value : Word) (s : State) : Host.Outcome State Fault Refusal :=
  run s fun s => if value = 0x5A170001 then s.moduleReset 4 else s.tapInstr 0x22

/-- SWAP_FAIL (R393): the old image restarts, and the module is reset where that fails too. -/
def execSwapFail (oldFails : Bool) (s : State) : Host.Outcome State Fault Refusal :=
  run s fun s =>
    match s.mod.swapping with
    | none => s
    | some w =>
      if oldFails then s.moduleReset 5
      else
        let failed := (s.mod.fw s.mod.other).toNat
        let s1 := (s.modMod (fun m => { m with events := raise m.events 1 })).afterSwap
        (s1.fault { status := Status.timeout, event := 0x1B, level := 3, action := 0, block := 0x90,
                    detail := failed }).swapEnd w.cmd Status.timeout []

/-- SUPERVISOR_ECC_ERROR (R407): an error that cannot be corrected ends in a watchdog reset. -/
def execSupervisorEccError (corrected : Bool) (s : State) : Host.Outcome State Fault Refusal :=
  run s fun s =>
    if corrected then
      { s with errm := { s.errm with supEcc := count 16 1 s.errm.supEcc, events := raise s.errm.events 3 } }
    else s.moduleReset 2

/-! ### Start-up (R382) -/

/-- POWER_UP (R381, R382): the input reaches NORMAL and the module starts with cause 0x0. A module that runs has power. -/
def execPowerUp (s : State) : Host.Outcome State Fault Refusal :=
  run s fun s => if s.mod.ready then s else s.moduleReset 0

/-- Step 3: the boot ROM takes the selected image, or the other one where that is not valid. -/
def Mod.boot (m : Mod) : Option Mod :=
  let slot (b : Bool) : Fin 2 := if b then 1 else 0
  if (m.img (slot m.selected)).isSome then some { m with image := m.selected, fallback := false }
  else if (m.img (slot (!m.selected))).isSome then some { m with image := !m.selected, fallback := true }
  else none

/-- Step 5: the saved values of TRK, PWR and FEA (R353, R366, R379, R383), but for those that cannot be read (R398). -/
def State.loadSaved (s : State) (lost : List FlashObject) : State :=
  let read (o : FlashObject) : Bool := !lost.contains o
  let s1 : State := match s.fls.trkSaved.filter (fun _ => read .trunk) with
    | some (cfg, addr) =>
      let t : State := { s with trk := { s.trk with
        cfg := cfg, addr := addr, detachedAt := s.real,
        ports := vmapIdx (fun i (k : Port) => { k with asym := vget s.fls.asymSaved i 0 }) s.trk.ports } }
      let role := bf cfg 0 2
      let tree : TreeState := if role = 1 then .crown else if role = 2 then .disabled else .detached
      { t with trk := { t.trk with
          tree := tree, depth := if role = 1 then 0 else 0xFF, crown := if role = 1 then t.addr else 0 } }
    | none => { s with trk := { s.trk with detachedAt := s.real } }
  let s2 : State := match s1.pwr.saved.filter (fun _ => read .power) with
    | some b => s1.modPwr (fun p => { p with budget := b })
    | none => s1
  match s2.fea.saved.filter (fun _ => read .features) with
  | some a => { s2 with fea := { s2.fea with accept := a, committed := true, fromFlash := true } }
  | none => s2

/-- The images but for those that cannot be read. -/
def Mod.readable (m : Mod) (lost : List FlashObject) : Mod :=
  { m with images := vmapIdx (fun i v => if lost.contains (.image (i == 1)) then none else v) m.images }

/-- MODULE_READY (R382 steps 3 to 6): flash is mounted, the saved values are loaded, the registers are served and the
reset is reported (R434). `ecc` lists the reads in which the BCH code found errors; an object that it could not correct is
not used (R398, R409). -/
def execModuleReady (s : State) (ecc : List FlashEcc := []) : Host.Outcome State Fault Refusal :=
  run s fun s =>
    let lost := (ecc.filter (fun e => !e.corrected)).map (fun e => e.obj)
    if s.mod.ready ∨ s.pwr.cls = .inputLoss then s
    else
      match (s.mod.readable lost).boot with
      | none => s
      | some m =>
        let s0 := ecc.foldl (fun t e => t.eccRead e.corrected 0xFFFF) s
        let s1 := ({ s0 with mod := { m with ready := true } }).loadSaved lost
        let s2 : State := if m.resetCause = 2 then
            { s1 with errm := { s1.errm with events := raise s1.errm.events 4 } } else s1
        s2.fault { status := Status.ok, event := 0x19, level := 3, action := 6, block := 0x90, detail := m.resetCause }

end Sys2Proof.Machine
end

