-- ==== Sys2Proof/Machine/RegsModule.lean ====
section
/-! DEFINITION. The registers of the module as they read (R109, R297, R366, R380, R385, R391, R398, R419), the SX5216
window (R388 to R390), and what a read of any register of BAR0 gives (R8, R35, R45, R383, R393). -/

namespace Sys2Proof.Machine

open Sys2Proof

/-! ### TBM and TRK -/

/-- The code of a TBM state (R109). -/
def TbmState.code : TbmState → Nat
  | .freerun => 0 | .locked => 1 | .holdover => 2

/-- TBM.STATUS (R109). -/
def Tbm.status (t : Tbm) : Word :=
  mkWord [(20, 1, b2n t.timing.isSome), (19, 1, b2n (t.qualified 4)), (18, 1, b2n (t.qualified 3)),
    (17, 1, b2n (t.qualified 2)), (16, 1, b2n (t.qualified 1)),
    (12, 4, match t.timing with
      | some c => c.val
      | none => 0xF),
    (11, 1, b2n (t.step.isSome || t.holdsAt.isSome)), (10, 1, b2n t.hold.isSome), (9, 1, b2n t.slewing),
    (8, 1, b2n t.origin), (4, 3, t.rank), (0, 2, t.state.code)]

/-- TBM (R109). -/
def Tbm.read (t : Tbm) (o : Nat) : Option Word :=
  match o with
  | 0x0 => some (lo32 t.tb)
  | 0x4 => some t.tbHi
  | 0x8 => some t.status
  | 0xC => some t.cfg
  | 0x10 => some t.slewLimit
  | 0x14 => some (lo32 (twos 64 t.offset))
  | 0x18 => some t.offHi
  | 0x1C => some t.refDelay
  | 0x20 => some t.tcDelay
  | 0x24 => some 0
  | 0x28 => some 0
  | 0x2C => some t.events
  | 0x30 => some (mkWord [(16, 16, t.ppsIgnored), (0, 16, t.ppsAccepted)])
  | 0x34 => some t.holdoverCfg
  | 0x38 => some t.utcOffset
  | _ => none

/-- The code of a tree state (R366). -/
def TreeState.code : TreeState → Nat
  | .detached => 0 | .attached => 1 | .crown => 2 | .disabled => 3

/-- TRK.P[p] (R366). -/
def Port.read (k : Port) (o : Nat) : Option Word :=
  let up := k.state == .upstream
  match o with
  | 0x0 => some (mkWord [(4, 1, b2n k.link), (0, 4, k.state.code)])
  | 0x4 => some (mkWord [(24, 8, k.nbDepth), (0, 18, k.nbAddr)])
  | 0x8 => some (if up && !k.delays.isEmpty then lo32 (twos 32 (k.delays.sum / k.delays.length)) else 0xFFFFFFFF)
  | 0xC => some (match k.offset with
      | some v => if up then lo32 (twos 32 (clampI (-2147483648) 2147483647 v)) else 0x80000000
      | none => 0x80000000)
  | 0x10 => some k.asym
  | 0x14 => some (lo32 k.rxCnt)
  | 0x18 => some (lo32 k.txCnt)
  | 0x1C => some (mkWord [(16, 16, k.crcErr), (0, 16, k.aborted)])
  | 0x20 => some (mkWord [(24, 8, k.dropControl), (16, 8, k.dropService), (8, 8, k.dropBulk), (0, 8, k.noRoute)])
  | 0x24 => some (mkWord [(16, 16, k.preempted), (0, 16, k.downs)])
  | _ => none

/-- TRK (R366). -/
def Trk.read (k : Trk) (o : Nat) : Option Word :=
  match o with
  | 0x0 => some (mkWord [(16, 4, k.places), (8, 8, k.depth),
      (6, 2, match k.upPort with
        | some p => p.val
        | none => 3),
      (0, 2, k.tree.code)])
  | 0x4 => some k.events
  | 0x8 => some k.cfg
  | 0xC => some k.addr
  | 0x10 => some (mkWord [(0, 1, b2n k.reparent)])
  | 0x14 => some k.regCfg
  | 0x18 => some (mkWord [(24, 8, k.regEarly), (16, 8, k.regRejected), (0, 16, k.regDone)])
  | 0x1C => some (lo32 ((k.nextReg.map (fun e => e.tick)).getD 0))
  | 0x20 => some k.regNextHi
  | 0x24 => some (mkWord [(0, 18, k.crown)])
  | 0x28 => some (mkWord [(0, 16, k.topoCnt)])
  | 0x2C => some (mkWord [(16, 16, k.expDropped), (0, 16, k.expSent)])
  | _ =>
    if 0x100 ≤ o ∧ o < 0x1C0 then (vget k.ports ((o - 0x100) / 0x40) Port.reset).read (o % 0x40) else none

/-! ### PWR, MOD, FEA, FLS and ERRM -/

/-- PWR (R380). -/
def Pwr.read (p : Pwr) (o : Nat) : Option Word :=
  match o with
  | 0x0 => some (lo32 p.pendingBits)
  | 0x4 => some p.events
  | 0x8 => some p.budget
  | 0xC => some (mkWord [(31, 1, b2n (decide (p.effective < p.granted))), (29, 2, p.cls.code), (16, 10, p.effective),
      (0, 10, p.granted)])
  | 0x10 => some (mkWord [(31, 1, b2n (p.aux == .on)), (0, 10, p.auxMa)])
  | 0x14 => some (mkWord [(31, 1, b2n p.ac), (24, 7, p.freq), (0, 16, p.inputDv)])
  | 0x18 => some (mkWord [(16, 16, p.drawPeak), (0, 16, p.drawNow)])
  | 0x1C => some (mkWord [(16, 16, p.txExpired), (0, 16, p.refused)])
  | _ =>
    if o % 4 ≠ 0 then none
    else if 0x20 ≤ o ∧ o < 0x68 then
      some (mkWord [(16, 10, vget p.want ((o - 0x20) / 4) 0), (0, 10, vget p.held ((o - 0x20) / 4) 0)])
    else if 0x80 ≤ o ∧ o < 0xA0 then
      some (mkWord [(31, 1, b2n (vget p.railOk ((o - 0x80) / 4) false)), (0, 16, vget p.railMv ((o - 0x80) / 4) 0)])
    else none

/-- MOD.STATUS (R385). -/
def Mod.status (m : Mod) : Word :=
  mkWord [(12, 4, m.resetCause), (4, 1, b2n m.swapping.isSome), (3, 1, b2n m.fallback), (2, 1, b2n m.selected),
    (1, 1, b2n m.image), (0, 1, b2n m.ready)]

/-- MOD.ID (R385): the issue is loaded at the start-up. -/
def Mod.idWord (m : Mod) : Word := mkWord [(16, 16, 0x7464), (8, 8, if m.ready then Config.hwIssue.toNat else 0)]

/-- MOD.BAY[c] (R385). -/
def Slice.bayWord (x : Slice) : Word :=
  mkWord [(9, 1, b2n x.ctl.onReq), (8, 1, b2n x.ctl.offReq), (1, 1, b2n x.ctl.feedOn), (0, 1, b2n x.ctl.present)]

/-- MOD (R385, R386). -/
def State.modRead (s : State) (o : Nat) : Option Word :=
  match o with
  | 0x0 => some s.mod.idWord
  | 0x4 => some (((s.mod.images.get s.mod.running).map FwImage.version).getD 0)
  | 0x8 => some (((s.mod.images.get s.mod.other).map FwImage.version).getD 0)
  | 0xC => some s.mod.status
  | 0x10 => some s.mod.events
  | 0x14 => some 0
  | 0x18 => some (lo32 Config.serial.toNat)
  | 0x1C => some (hi32 Config.serial.toNat)
  | 0x20 => some (s.sl 0).bayWord
  | 0x24 => some (s.sl 1).bayWord
  | 0x28 => some (s.sl 2).bayWord
  | 0x2C => some (s.sl 3).bayWord
  | _ => none

/-- FEA.ACTIVE[w] (R387). -/
def Fea.active (f : Fea) (w : Nat) : Word := if f.committed then vget f.accept w 0 &&& feaOffer w else 0

/-- FEA (R391). -/
def Fea.read (f : Fea) (o : Nat) : Option Word :=
  if o % 4 ≠ 0 then none
  else if o < 0x10 then some (feaOffer (o / 4))
  else if o < 0x20 then some (vget f.accept (o / 4 - 4) 0)
  else if o < 0x30 then some (f.active (o / 4 - 8))
  else if o = 0x30 then some (mkWord [(1, 1, b2n f.fromFlash), (0, 1, b2n f.committed)])
  else if o = 0x34 then some f.events
  else none

/-- FLS (R398). -/
def State.flsRead (s : State) (o : Nat) : Option Word :=
  match o with
  | 0x0 => some (mkWord [(1, 2, min 3 (4 - s.imagesUsed)), (0, 1, b2n s.fls.running)])
  | 0x4 => some s.fls.events
  | 0x8 => some s.fls.limit
  | 0xC => some (mkWord [(0, 16, sat 16 s.flashUsed)])
  | 0x10 => some Config.flashWear
  | 0x14 => some (mkWord [(16, 16, s.fls.uncorrected), (0, 16, s.fls.corrected)])
  | _ => none

/-- ERRM (R419). -/
def Errm.read (e : Errm) (o : Nat) : Option Word :=
  match o with
  | 0x0 => some (mkWord [(0, 4, e.faulted.toNat)])
  | 0x4 => some e.events
  | 0x8 => some (mkWord [(16, 16, e.unmapped), (0, 16, e.access)])
  | 0xC => some (e.addr.getD 0)
  | 0x10 => some (mkWord [(0, 16, e.supEcc)])
  | 0x14 => some (mkWord [(16, 16, e.lost), (0, 16, e.made)])
  | 0x18 => some (mkWord [(24, 8, vget e.esc 3 0), (16, 8, vget e.esc 2 0), (8, 8, vget e.esc 1 0), (0, 8, vget e.esc 0 0)])
  | _ => none

/-! ### QMG -/

/-- Q[q].STATUS (R297). -/
def State.queueStatus (s : State) (q : Fin 256) : Word :=
  let k := s.qu q
  let cmd := queueIsCmd q
  let rec' := s.queueExists q && !cmd
  mkWord [
    (16, 8, match queueOwner q with
      | some (c, _) => c.val
      | none => 0xFF),
    (10, 2, if rec' then s.queueClass q else 3), (9, 1, b2n (rec' && s.queueOld q)), (8, 1, b2n cmd),
    (4, 1, b2n (!k.held.isEmpty)),
    (3, 1, b2n (k.headShed.isSome || k.staged.any (fun e => match e with
      | .shed _ _ => true
      | .data _ _ => false))),
    (2, 1, b2n (s.queueActive q)), (1, 1, b2n (s.queueExists q)),
    (0, 1, b2n (match k.buf with
      | some b => decide (0 < b.nrec)
      | none => false))]

/-- Q[q] (R297). -/
def State.queueRead (s : State) (q : Fin 256) (o : Nat) : Option Word :=
  let k := s.qu q
  match o with
  | 0x0 => some (mkWord [(1, 1, b2n k.flush), (0, 1, b2n k.en)])
  | 0x4 => some (s.queueStatus q)
  | 0x8 => some k.ringLo
  | 0xC => some k.ringHi
  | 0x10 => some k.ringCfg
  | 0x14 => some k.irq
  | 0x18 => some k.events
  | 0x1C => some k.seq
  | 0x20 => some k.shedCnt
  | 0x24 => some (mkWord [(16, 16, k.prod.toNat), (0, 16, k.cons.toNat)])
  | 0x28 => some (mkWord [(16, 16, k.peak), (0, 16, k.fill)])
  | _ => none

/-- The QMG block (R296, R297). -/
def State.qmgRead (s : State) (o : Nat) : Option Word :=
  let m := s.qmg
  if o < 0x4000 then s.queueRead (qn (o / 0x40)) (o % 0x40)
  else if 0xE000 ≤ o ∧ o < 0xE400 ∧ o % 4 = 0 then some (vget m.msixTable ((o - 0xE000) / 4) 0)
  else match o with
    | 0x8000 => some (if m.linkUp then mkWord [(8, 4, m.linkWidth), (4, 4, m.linkSpeed), (0, 1, 1)] else 0)
    | 0x8004 => some m.events
    | 0x8008 => some m.dmaWeight
    | 0x800C => some m.rawCap
    | 0x8010 => some m.blkIrq
    | 0x8014 => some (vget m.dmaKb 0 0)
    | 0x8018 => some (vget m.dmaKb 1 0)
    | 0x801C => some (vget m.dmaKb 2 0)
    | 0x8020 => some m.hostResets
    | 0xF000 => some (lo32 m.msixPba.toNat)
    | 0xF004 => some (hi32 m.msixPba.toNat)
    | _ => none

/-! ### The SX5216 window (R388 to R390) -/

/-- The slice offset that an alias of the window reaches (R389). -/
def windowAlias (o : Nat) : Option Nat :=
  if 0x100 ≤ o ∧ o < 0x200 ∧ o % 4 = 0 then
    some (0x30000 + 0x40 * ((o - 0x100) / 0x10) + ([0x0, 0x8, 0x18, 0x14] : List Nat).getD (o % 0x10 / 4) 0)
  else if 0x200 ≤ o ∧ o < 0x300 ∧ o % 4 = 0 then
    some (0xB0000 + 0x40 * ((o - 0x200) / 0x10) + ([0x0, 0x4, 0x8, 0x10] : List Nat).getD (o % 0x10 / 4) 0)
  else if 0x400 ≤ o ∧ o < 0x440 ∧ o % 4 = 0 then some (0xD0100 + 0x10 * ((o - 0x400) / 4))
  else match o with
    | 0x10 => some 0x4
    | 0x14 => some 0x8
    | 0x20 => some 0x10000
    | 0x24 => some 0x10004
    | 0x30 => some 0x20000
    | 0x34 => some 0x20004
    | 0x38 => some 0x20008
    | 0x3C => some 0x2000C
    | 0x40 => some 0x2002C
    | 0x44 => some 0x20038
    | 0x48 => some 0x20028
    | 0x300 => some 0xE0000
    | 0x304 => some 0xE0004
    | 0x308 => some 0xE0008
    | 0x30C => some 0xE001C
    | _ => none

/-- The registers of the window that are no aliases of slice registers. -/
def State.windowOwn (s : State) (o : Nat) : Option Word :=
  let m := s.mailbox
  match o with
  | 0x0 => some 0x52160001
  | 0x4 => some (s.fea.active 0)
  | 0x800 => some m.opcode
  | 0x804 => some (mkWord [(1, 1, b2n m.reject), (0, 1, b2n m.go)])
  | 0x808 => some m.statusWord
  | _ => if 0x810 ≤ o ∧ o < 0x850 ∧ o % 4 = 0 then some (m.word ((o - 0x810) / 4)) else none

/-- The register of slice 0 or of the window itself that an offset of the window reaches. -/
def State.windowRead (s : State) (o : Nat) : Option Word :=
  match windowAlias o with
  | some k => s.sliceReg 0 k
  | none => s.windowOwn o

/-! ### A read of BAR0 -/

/-- What module registers read before step 6 of the start-up, and those of the supervisor during a swap (R393). -/
def busyPattern : Word := 0xB5B5B5B5

/-- The register at an address of the module region (R44). -/
def State.moduleReg (s : State) (a : Nat) : Option Word :=
  let o := a % 0x10000
  match a / 0x10000 with
  | 0 => s.modRead o
  | 1 => s.fea.read o
  | 2 => s.pwr.read o
  | 3 => s.tbm.read o
  | 4 => s.trk.read o
  | 5 => s.qmgRead o
  | 6 => s.flsRead o
  | 7 => s.errm.read o
  | _ => none

/-- Whether a module register at this address answers with the BUSY pattern (R383, R393): MOD.ID and MOD.STATUS never
do, and QMG only before step 6. An offset that no register occupies reads 0 at all times (R8). -/
def State.busyAt (s : State) (a : Nat) : Bool :=
  (s.moduleReg a).isSome && a != 0x0 && a != 0xC &&
    (!s.mod.ready || (s.swapping && !(decide (0x50000 ≤ a) && decide (a < 0x60000))))

/-- Whether an offset of slice `c` lies in the window while it exists (R45). -/
def State.inWindow (s : State) (c : Fin 4) (o : Nat) : Bool :=
  c == 0 && s.feature 1 && decide (0x110000 ≤ o) && decide (o < 0x120000)

/-- The register at an offset of slice `c`, or none where no block occupies it (R35, R44, R45). -/
def State.sliceRegOrWindow (s : State) (c : Fin 4) (o : Nat) : Option Word :=
  if s.inWindow c o then s.windowRead (o - 0x110000) else s.sliceReg c o

/-- The slice and the offset in it of an address in a slice's region (R6, R44). -/
def sliceAt (a : Nat) : Option (Fin 4 × Nat) :=
  if 0x1000000 ≤ a ∧ a < 0x5000000 then some (Fin.ofNat 4 (a / 0x1000000 - 1), a % 0x1000000) else none

/-- Whether an offset of a slice is served in every slice state (R35): CTL, and in the window the aliases of CTL and of
FEA.ACTIVE (R388). -/
def State.ctlOffset (s : State) (c : Fin 4) (o : Nat) : Bool :=
  decide (o < 0x10000) || (s.inWindow c o && (o == 0x110004 || o == 0x110010 || o == 0x110014))

/-- What an aligned 32-bit read of BAR0 outside the SRAM windows returns (R8, R35, R383, R393). -/
def State.regRead (s : State) (a : Nat) : Word :=
  match sliceAt a with
  | some (c, o) =>
    if s.inWindow c o && o == 0x110004 && s.busyAt 0x10020 then busyPattern
    else if (s.sl c).ctl.state.served || s.ctlOffset c o then (s.sliceRegOrWindow c o).getD 0 else 0
  | none => if s.busyAt a then busyPattern else (s.moduleReg a).getD 0

end Sys2Proof.Machine
end

