-- ==== Sys2Proof/Machine/Access.lean ====
section
/-! DEFINITION. Reads and writes of BAR0 and BAR2 (R7 to R11, R33 to R35, R44 to R46, R91, R282, R383, R393, R436): the
side effects of reads, writes with their range checks, the slice SRAM windows, and the access port's register access
(R428). -/

namespace Sys2Proof.Machine

open Sys2Proof

/-! ### Side effects of reads: RC fields clear, LO registers latch (R10, R91) -/

/-- The effect of reading TUN[t] (R156). -/
def Tuning.readFx (u : Tuning) (o : Nat) : Tuning :=
  match o with
  | 0x1C => { u with indexHi := hi32 u.index }
  | 0x24 => { u with superseded := 0, swaps := 0 }
  | 0x28 => { u with sats := 0 }
  | _ => u

/-- The effect of reading INST[n] or CAND[t] (R180, R182). -/
def Inst.readFx (i : Inst) (o : Nat) : Inst :=
  match o with
  | 0x20 => { i with unitOk := 0 }
  | 0x24 => { i with unitFail := 0 }
  | 0x28 => { i with erased := 0 }
  | 0x2C => { i with locks := 0, losses := 0 }
  | 0x34 => { i with muted := 0 }
  | _ => i

/-- The effect of reading BST[n] (R207). -/
def Acq.readFx (a : Acq) (o : Nat) : Acq :=
  match o with
  | 0xC => { a with falseTrig := 0, triggers := 0 }
  | 0x10 => { a with hdrFail := 0, hdrOk := 0 }
  | 0x14 => { a with payFail := 0, payOk := 0 }
  | 0x18 => { a with missed := 0, captured := 0 }
  | 0x1C => { a with aborted := 0, reacquired := 0 }
  | 0x20 => { a with lastSyncHi := hi32 a.lastSync }
  | _ => a

/-- The effect of reading TRL (R206). -/
def Trl.readFx (t : Trl) (o : Nat) : Trl :=
  match o with
  | 0x8 => { t with segs := vmod t.segs 0 (fun _ => 0) }
  | 0xC => { t with segs := vmod t.segs 1 (fun _ => 0) }
  | 0x14 => { t with waitMax := 0 }
  | 0x18 => { t with resets := 0 }
  | _ => t

/-- The effect of reading AFE (R136). -/
def Afe.readFx (a : Afe) (o : Nat) : Afe :=
  match o with
  | 0x30 => { a with attacks := 0, gainSteps := 0 }
  | 0x34 => { a with clips := 0 }
  | 0x38 => { a with bgAbandoned := 0, bgTrims := 0 }
  | _ => a

/-- The effect of reading CTX[k] (R239). -/
def Ctx.readFx (y : Ctx) (o : Nat) : Ctx :=
  match o with
  | 0x8 => { y with msgOk := 0 }
  | 0xC => { y with msgFail := 0 }
  | _ => y

/-- The effect of reading AF[n] (R239). -/
def Af.readFx (a : Af) (o : Nat) : Af :=
  match o with
  | 0x10 => { a with undone := 0, switches := 0 }
  | 0x14 => { a with failed := 0, passed := 0 }
  | _ => a

/-- The effect of reading the scheduler's registers (R239); `next` is the value of NEXT_TB. -/
def Sched.readFx (d : Sched) (next : Nat) (o : Nat) : Sched :=
  match o with
  | 0x3010 => { d with late := 0, executed := 0 }
  | 0x3014 => { d with rejected := 0, cancelled := 0 }
  | 0x3018 => { d with dups := 0 }
  | 0x301C => { d with nextHi := hi32 next }
  | _ => d

/-- The effect of reading the MAC block (R269). -/
def Mac.readFx (m : Mac) (o : Nat) : Mac :=
  match o with
  | 0xC => { m with pass := 0 }
  | 0x10 => { m with replayFail := 0, tagFail := 0 }
  | 0x14 => { m with keyFail := 0, formatFail := 0 }
  | 0x18 => { m with genFail := 0, generated := 0 }
  | 0x20 => { m with alarmHi := hi32 m.alarmTb }
  | _ =>
    if 0x100 ≤ o ∧ o < 0x500 ∧ o % 0x10 = 8 then
      let k := (o - 0x100) / 0x10
      let w := vget m.slots k KeySlot.fresh
      let v := if w.state != .empty && w.usage.getLsbD 1 then hi32 w.txCounter.toNat else 0
      { m with ctrHi := vmod m.ctrHi k (fun _ => v) }
    else m

/-- The effect of reading TXC (R323). -/
def Tx.readFx (t : Tx) (o : Nat) : Tx :=
  match o with
  | 0x24 => { t with failed := 0, sent := 0 }
  | 0x28 => { t with synthNotReady := 0, coexDenied := 0 }
  | 0x2C => { t with coexLost := 0, paFault := 0, lockLoss := 0, clockLoss := 0 }
  | _ => t

/-- The effect of reading SAI (R341). -/
def Sai.readFx (a : Sai) (o : Nat) : Sai :=
  match o with
  | 0x24 => { a with tx := { a.tx with glitch := 0, slips := 0 } }
  | 0x28 => { a with rx := { a.rx with glitch := 0, slips := 0 } }
  | 0x2C => { a with tx := { a.tx with xrun := 0, stalls := 0 }, rx := { a.rx with xrun := 0, stalls := 0 } }
  | _ => a

/-- The effect of reading ERR (R417). -/
def Err.readFx (e : Err) (o : Nat) : Err :=
  match o with
  | 0x8 => { e with busCnt := 0, memCnt := 0 }
  | 0xC => { e with sliceResets := 0, blockResets := 0 }
  | 0x10 => { e with unmapped := 0, access := 0, addr := none }
  | _ => e

/-- The effect of reading an offset of a slice below its SVC block. -/
def Slice.readFxLow (x : Slice) (o : Nat) : Slice :=
  if o = 0x10018 then { x with clk := { x.clk with relockFail := 0, lockLoss := 0 } }
  else if o < 0x20000 then x
  else if o < 0x30000 then { x with afe := x.afe.readFx (o - 0x20000) }
  else if o < 0x30800 then
    (if x.shows 2 ((o - 0x30000) / 0x40) then x.modTun ((o - 0x30000) / 0x40) (fun u => u.readFx (o % 0x40)) else x)
  else if 0x80000 ≤ o ∧ o < 0x81800 then x.modInst ((o - 0x80000) / 0x80) (fun i => i.readFx (o % 0x80))
  else if 0x82000 ≤ o ∧ o < 0x83000 then x.modCand ((o - 0x82000) / 0x80) (fun i => i.readFx (o % 0x80))
  else if 0xA0000 ≤ o ∧ o < 0xB0000 then { x with trl := x.trl.readFx (o - 0xA0000) }
  else if 0xB0000 ≤ o ∧ o < 0xB0C00 then x.modAcq ((o - 0xB0000) / 0x40) (fun a => a.readFx (o % 0x40))
  else if 0xB2000 ≤ o ∧ o < 0xB2800 then x.modCandAcq ((o - 0xB2000) / 0x40) (fun a => a.readFx (o % 0x40))
  else x

/-- The effect of reading an offset of a slice from its SVC block on. -/
def Slice.readFxHigh (x : Slice) (o : Nat) : Slice :=
  if o < 0xC2000 then x.modCtx ((o - 0xC0000) / 0x20) (fun y => y.readFx (o % 0x20))
  else if o < 0xC2600 then x.modAf ((o - 0xC2000) / 0x20) (fun a => a.readFx (o % 0x20))
  else if o < 0xD0000 then x
  else if o < 0xE0000 then { x with mac := x.mac.readFx (o - 0xD0000) }
  else if o < 0xF0000 then { x with tx := x.tx.readFx (o - 0xE0000) }
  else if o < 0x100000 then { x with sai := x.sai.readFx (o - 0xF0000) }
  else if o < 0x110000 then { x with err := x.err.readFx (o - 0x100000) }
  else x

/-- The effect of reading an offset of slice `c` below the window. -/
def State.sliceReadFx (s : State) (c : Fin 4) (o : Nat) : State :=
  if o < 0xC0000 then s.modSl c (fun x => x.readFxLow o)
  else if 0xC3000 ≤ o ∧ o < 0xD0000 then s.modSch c (fun d => d.readFx (s.nextDue c) (o - 0xC0000))
  else s.modSl c (fun x => x.readFxHigh o)

/-- The effect of reading TBM (R91, R109). -/
def Tbm.readFx (t : Tbm) (o : Nat) : Tbm :=
  match o with
  | 0x0 => { t with tbHi := hi32 t.tb }
  | 0x14 => { t with offHi := hi32 (twos 64 t.offset) }
  | 0x30 => { t with ppsIgnored := 0, ppsAccepted := 0 }
  | _ => t

/-- The effect of reading TRK.P[p] (R366). -/
def Port.readFx (k : Port) (o : Nat) : Port :=
  match o with
  | 0x14 => { k with rxCnt := 0 }
  | 0x18 => { k with txCnt := 0 }
  | 0x1C => { k with crcErr := 0, aborted := 0 }
  | 0x20 => { k with dropControl := 0, dropService := 0, dropBulk := 0, noRoute := 0 }
  | 0x24 => { k with preempted := 0, downs := 0 }
  | _ => k

/-- The effect of reading TRK (R366). -/
def Trk.readFx (k : Trk) (o : Nat) : Trk :=
  match o with
  | 0x18 => { k with regEarly := 0, regRejected := 0, regDone := 0 }
  | 0x1C => { k with regNextHi := hi32 ((k.nextReg.map (fun e => e.tick)).getD 0) }
  | 0x28 => { k with topoCnt := 0 }
  | 0x2C => { k with expDropped := 0, expSent := 0 }
  | _ =>
    if 0x100 ≤ o ∧ o < 0x1C0 then
      { k with ports := vmod k.ports ((o - 0x100) / 0x40) (fun p => p.readFx (o % 0x40)) }
    else k

/-- The effect of reading ERRM (R419). -/
def Errm.readFx (e : Errm) (o : Nat) : Errm :=
  match o with
  | 0x8 => { e with unmapped := 0, access := 0, addr := none }
  | 0x10 => { e with supEcc := 0 }
  | 0x14 => { e with lost := 0, made := 0 }
  | 0x18 => { e with esc := Vector.replicate 4 0 }
  | _ => e

/-- The effect of reading QMG (R297). -/
def State.qmgReadFx (s : State) (o : Nat) : State :=
  if o < 0x4000 then (if o % 0x40 = 0x20 then s.modQ (qn (o / 0x40)) (fun k => { k with shedCnt := 0 }) else s)
  else match o with
    | 0x8014 => { s with qmg := { s.qmg with dmaKb := vmod s.qmg.dmaKb 0 (fun _ => 0) } }
    | 0x8018 => { s with qmg := { s.qmg with dmaKb := vmod s.qmg.dmaKb 1 (fun _ => 0) } }
    | 0x801C => { s with qmg := { s.qmg with dmaKb := vmod s.qmg.dmaKb 2 (fun _ => 0) } }
    | 0x8020 => { s with qmg := { s.qmg with hostResets := 0 } }
    | _ => s

/-- The effect of reading an address of the module region. -/
def State.moduleReadFx (s : State) (a : Nat) : State :=
  let o := a % 0x10000
  match a / 0x10000 with
  | 2 => if o = 0x1C then s.modPwr (fun p => { p with refused := 0, txExpired := 0 }) else s
  | 3 => { s with tbm := s.tbm.readFx o }
  | 4 => { s with trk := s.trk.readFx o }
  | 5 => s.qmgReadFx o
  | 6 => if o = 0x14 then { s with fls := { s.fls with uncorrected := 0, corrected := 0 } } else s
  | 7 => { s with errm := s.errm.readFx o }
  | _ => s

/-- The effect of an aligned 32-bit read of BAR0 outside the SRAM windows: none where the register is not served. -/
def State.regReadFx (s : State) (a : Nat) : State :=
  match sliceAt a with
  | some (c, o) =>
    if !(s.sl c).ctl.state.served then s
    else if s.inWindow c o then
      (match windowAlias (o - 0x110000) with
      | some k => s.sliceReadFx 0 k
      | none => s)
    else s.sliceReadFx c o
  | none => if s.busyAt a then s else s.moduleReadFx a

/-! ### Writes of slice registers -/

/-- A write to CTL.BG_CFG (R39). -/
def Ctl.writeBg (k : Ctl) (v : Word) : Ctl :=
  if bf v 8 8 = 0 ∨ 64 < bf v 8 8 then { k with cfgReject := true }
  else { k with bgCfg := mkWord [(8, 8, bf v 8 8), (0, 1, bf v 0 1)] }

/-- A write to CTL (R38 to R40). -/
def State.ctlWrite (s : State) (c : Fin 4) (o : Nat) (v : Word) : State :=
  match o with
  | 0x8 => if bit v 0 then s.hostReset c else s
  | 0xC =>
    s.modSl c (fun x => { x with ctl := x.ctl.writeBg v })
  | 0x10 =>
    s.modSl c (fun x => { x with ctl := { x.ctl with
      capHit := x.ctl.capHit && !bit v 17, cfgReject := x.ctl.cfgReject && !bit v 16 } })
  | _ => s

/-- A write to CLK (R96, R108): in manual mode the control value is MANUAL_CTRL, but for one that is `frozen`. -/
def Clk.write (k : Clk) (frozen : Bool) (o : Nat) (v : Word) : Clk :=
  match o with
  | 0x4 => { k with events := w1c k.events v }
  | 0x8 => { k with cfg := v &&& 0x00FFFFF1, ctrl := if bit v 0 && !frozen then bf v 8 16 else k.ctrl }
  | 0x14 => { k with phaseTrim := v &&& 0xFFFF }
  | _ => k

/-- Whether a frequency field holds 0 or a value in its range (R136). -/
def freqOk (lo hi : Nat) (v : Word) : Bool := v == 0 || (decide (lo ≤ v.toNat) && decide (v.toNat ≤ hi))

/-- A rejected write to AFE (R136). -/
def Afe.reject (a : Afe) : Afe := { a with events := raise a.events 6 }

/-- A write to AFE but for CAL_REQ (R120, R122, R123, R136). -/
def Afe.write (a : Afe) (o : Nat) (v : Word) (now : Nat) : Afe :=
  match o with
  | 0x4 => { a with events := w1c a.events v }
  | 0x8 => a.writeGain v now
  | 0xC => a.writeAgcCfg v now
  | 0x10 =>
    if bf v 8 5 < bf v 0 5 then a.reject else { a with agcLimits := mkWord [(8, 5, bf v 8 5), (0, 5, bf v 0 5)] }
  | 0x18 => a.writeTuner v now
  | 0x1C => if freqOk 9000 30000000 v then { a with tunerFreq := v } else a.reject
  | 0x20 => if bf v 24 8 = 0 ∨ 400 < bf v 0 16 then a.reject else { a with monCfg := v &&& 0xFFC0FFFF }
  | 0x24 => if freqOk 9000 470000000 v then { a with monFreq := v } else a.reject
  | _ => a

/-- A write to the AFE block. -/
def State.afeWrite (s : State) (c : Fin 4) (o : Nat) (v : Word) : State :=
  if o = 0x2C then
    ([0, 1, 2, 3] : List Nat).foldl (fun t i =>
      if bit v i then t.calReq c (([1, 2, 3, 4] : List Nat).getD i 1) else t) s
  else s.modAfe c (fun a => a.write o v s.tb)

/-- A write to the TUN block (R151, R152, R156). -/
def State.tunBlockWrite (s : State) (c : Fin 4) (o : Nat) (v : Word) : State :=
  if o < 0x800 then
    match o % 0x40 with
    | 0x4 => s.modSl c (fun x => x.modTun (o / 0x40) (fun u => { u with events := w1c u.events v }))
    | 0x8 => s.tunWrite c (o / 0x40) (fun u => u.writeNco v s.tb)
    | 0x18 => s.tunWrite c (o / 0x40) (fun u => u.writeBank v s.tb)
    | _ => s.tunWrite c (o / 0x40) id
  else s

/-- A write to the DEM block (R180, R181). -/
def State.demWrite (s : State) (c : Fin 4) (o : Nat) (v : Word) : State :=
  let x := s.sl c
  if o < 0x1800 then
    let n : Fin 48 := Fin.ofNat 48 (o / 0x80)
    match o % 0x80 with
    | 0x4 => s.modSl c (fun x => x.modInst n.val (fun i => { i with events := w1c i.events v }))
    | 0x8 => s.writeDemCtl c n v
    | _ =>
      if (x.keyOf (.inst n)).isSome then s
      else s.modSl c (fun x => x.modInst n.val (fun i => { i with events := raise i.events 5 }))
  else if 0x2000 ≤ o ∧ o < 0x3000 then
    let t : Fin 32 := Fin.ofNat 32 ((o - 0x2000) / 0x80)
    match o % 0x80 with
    | 0x4 => s.modSl c (fun x => x.modCand t.val (fun i => { i with events := w1c i.events v }))
    | k =>
      if (x.keyOf (.cand t)).isSome && k != 0x8 then s
      else s.modSl c (fun x => x.modCand t.val (fun i => { i with events := raise i.events 5 }))
  else s

/-- A write to the BST block (R207): EVENTS of an LDB instance or candidate. -/
def Slice.bstWrite (x : Slice) (o : Nat) (v : Word) : Slice :=
  if o % 0x40 ≠ 4 then x
  else if o < 0xC00 then x.modAcq (o / 0x40) (fun a => { a with events := w1c a.events v })
  else x.modCandAcq ((o - 0x2000) / 0x40) (fun a => { a with events := w1c a.events v })

/-- A write to the SVC block (R239). -/
def State.svcWrite (s : State) (c : Fin 4) (o : Nat) (v : Word) : State :=
  if o < 0x2000 then
    (if o % 0x20 = 4 then
      s.modSl c (fun x => x.modCtx (o / 0x20) (fun y => { y with events := w1c y.events v })) else s)
  else if o < 0x2600 then
    (if o % 0x20 = 4 then
      s.modSl c (fun x => x.modAf ((o - 0x2000) / 0x20) (fun a => { a with events := w1c a.events v })) else s)
  else if o = 0x3004 then s.modSch c (fun d => { d with events := w1c d.events v })
  else if o = 0x3008 then s.writeSvcCfg c v
  else s

/-- A rejected write to TXC (R323). -/
def Tx.reject (t : Tx) : Tx := { t with events := raise t.events 7 }

/-- A write to TXC but for CTL (R323). -/
def Tx.write (t : Tx) (o : Nat) (v : Word) : Tx :=
  match o with
  | 0x4 => { t with events := w1c t.events v }
  | 0xC =>
    if 3300 < bf v 16 12 ∨ bf v 8 8 < 5 ∨ 200 < bf v 8 8 ∨ bf v 0 8 < 2 ∨ 100 < bf v 0 8 then t.reject
    else { t with paCfg := v &&& 0x8FFFFFFF }
  | 0x10 => if 10000 < bf v 0 16 then t.reject else { t with coexCfg := v &&& 0x8000FFFF }
  | 0x14 => if 2500 < bf v 16 12 ∨ 2500 < bf v 0 12 then t.reject else { t with senseCfg := v &&& 0x0FFF0FFF }
  | _ => t

/-- A write to a register of slice `c` below the window, in a state that serves it. -/
def State.sliceRegWrite (s : State) (c : Fin 4) (o : Nat) (v : Word) : State :=
  let b := o % 0x10000
  if o < 0x10000 then s.ctlWrite c b v
  else if o < 0x20000 then s.modSl c (fun x => { x with clk := x.clk.write (s.ctrlFrozen c) b v })
  else if o < 0x30000 then s.afeWrite c b v
  else if o < 0x40000 then s.tunBlockWrite c b v
  else if o < 0x80000 then
    s.modSl c (fun x => x.writeCoef ((o - 0x40000) / 0x2000) (o / 0x1000 % 2) (o % 0x1000 / 4) v)
  else if o < 0xA0000 then s.demWrite c (o - 0x80000) v
  else if o < 0xB0000 then
    (if b = 4 then s.modSl c (fun x => { x with trl := { x.trl with events := w1c x.trl.events v } }) else s)
  else if o < 0xC0000 then s.modSl c (fun x => x.bstWrite b v)
  else if o < 0xD0000 then s.svcWrite c b v
  else if o < 0xE0000 then
    (if b = 4 then s.modSl c (fun x => { x with mac := { x.mac with events := w1c x.mac.events v } }) else s)
  else if o < 0xF0000 then (if b = 8 then s.writeTxCtl c v else s.modTx c (fun t => t.write b v))
  else if o < 0x100000 then
    (if b = 8 then s.writeSaiCtl c v
     else if b = 4 then s.modSai c (fun a => { a with events := w1c a.events v }) else s)
  else if b = 0x1C then s.writeInject c v
  else if b = 4 then s.modErr c (fun e => { e with events := w1c e.events v })
  else s

/-- A write to a register of the window that is no alias (R389, R390). -/
def State.windowOwnWrite (s : State) (o : Nat) (v : Word) : State :=
  match o with
  | 0x800 => { s with mailbox := { s.mailbox with opcode := v &&& 0xFF } }
  | 0x804 => { s with mailbox := s.mailbox.writeCtl v }
  | _ =>
    if 0x810 ≤ o ∧ o < 0x850 then
      { s with mailbox := { s.mailbox with body := vmod s.mailbox.body ((o - 0x810) / 4) (fun _ => v) } }
    else s

/-- An aligned 32-bit write to an offset of slice `c` outside its SRAM window (R8, R35). -/
def State.sliceWriteAt (s : State) (c : Fin 4) (o : Nat) (v : Word) : State :=
  let a := 0x1000000 * (c.val + 1) + o
  if (s.sliceRegOrWindow c o).isNone then s.recordAccess .bar0 a true
  else if !((s.sl c).ctl.state.served || s.ctlOffset c o) then s.recordAccess .bar0 a false
  else if s.inWindow c o then
    match windowAlias (o - 0x110000) with
    | some k => s.sliceRegWrite 0 k v
    | none => s.windowOwnWrite (o - 0x110000) v
  else s.sliceRegWrite c o v

/-! ### Writes of module registers -/

/-- A write to MOD (R385, R386). -/
def State.modRegWrite (s : State) (o : Nat) (v : Word) : State :=
  if o = 0x10 then s.modMod (fun m => { m with events := w1c m.events v })
  else if o = 0x14 then s.writeModCtl v
  else if 0x20 ≤ o ∧ o < 0x30 then
    let c : Fin 4 := Fin.ofNat 4 ((o - 0x20) / 4)
    let s1 := if bit v 9 then s.bayOn c else s
    if bit v 8 then s1.bayOff c else s1
  else s

/-- A write to FEA (R387, R391). -/
def State.feaWrite (s : State) (o : Nat) (v : Word) : State :=
  if 0x10 ≤ o ∧ o < 0x20 then s.writeAccept (o / 4 - 4) v
  else if o = 0x34 then { s with fea := { s.fea with events := w1c s.fea.events v } }
  else s

/-- A write to PWR (R380). -/
def State.pwrWrite (s : State) (o : Nat) (v : Word) : State :=
  match o with
  | 0x4 => s.modPwr (fun p => { p with events := w1c p.events v })
  | 0x8 => s.writeBudget v
  | 0x10 => s.writeAux v
  | _ => s

/-- A write to TBM (R109). -/
def State.tbmWrite (s : State) (o : Nat) (v : Word) : State :=
  match o with
  | 0xC => s.writeTbmCfg v
  | 0x10 => { s with tbm := { s.tbm with slewLimit := v &&& 0xFFFFFF, replan := true } }
  | 0x1C => { s with tbm := { s.tbm with refDelay := v } }
  | 0x20 => { s with tbm := { s.tbm with tcDelay := v &&& 0xFFFF } }
  | 0x24 => { s with tbm := { s.tbm with todLo := v } }
  | 0x28 => s.writeTod v
  | 0x2C => { s with tbm := { s.tbm with events := w1c s.tbm.events v } }
  | 0x34 =>
    if bf v 0 8 = 0 ∨ 168 < bf v 0 8 then s else { s with tbm := { s.tbm with holdoverCfg := v &&& 0xFF } }
  | 0x38 => { s with tbm := { s.tbm with utcOffset := v &&& 0xFF } }
  | _ => s

/-- A write to TRK (R366). -/
def State.trkWrite (s : State) (o : Nat) (v : Word) : State :=
  match o with
  | 0x4 => { s with trk := { s.trk with events := w1c s.trk.events v } }
  | 0x8 => s.writeTrkCfg v
  | 0xC =>
    if bf v 0 18 = 0 ∧ bf s.trk.cfg 0 2 = 1 then s.trkEvent 10
    else
      let s1 := { s with trk := { s.trk with addr := mkWord [(0, 18, bf v 0 18)] } }
      if s.trk.tree = .crown then ({ s1 with trk := { s1.trk with crown := bf v 0 18 } }).announceAll else s1
  | 0x10 => if bit v 0 then s.startReparent else s
  | 0x14 => { s with trk := { s.trk with regCfg := v &&& 0x8000000F } }
  | _ =>
    if 0x100 ≤ o ∧ o < 0x1C0 ∧ o % 0x40 = 0x10 then
      { s with trk := { s.trk with
          ports := vmod s.trk.ports ((o - 0x100) / 0x40) (fun k => { k with asym := v &&& 0xFFFF }) } }
    else s

/-- A write to FLS (R398). -/
def State.flsWrite (s : State) (o : Nat) (v : Word) : State :=
  match o with
  | 0x4 => { s with fls := { s.fls with events := w1c s.fls.events v } }
  | 0x8 =>
    if bf v 0 16 < 1024 ∨ 8192 < bf v 0 16 then { s with fls := { s.fls with events := raise s.fls.events 3 } }
    else { s with fls := { s.fls with limit := v &&& 0xFFFF } }
  | _ => s

/-- A write to Q[q].CTL (R278, R283, R297): EN first, then FLUSH. -/
def State.queueCtl (s : State) (q : Fin 256) (v : Word) : State :=
  let s1 := if bit v 0 then s.enableQueue q else s.disableQueue q
  if bit v 1 then s1.flushQueue q else s1

/-- A write to a ring register of a queue, which only a disabled queue takes (R283). -/
def Queue.ringWrite (k : Queue) (o : Nat) (v : Word) : Queue :=
  let rej := { k with events := raise k.events 5 }
  match o with
  | 0x8 => if k.en then rej else { k with ringLo := v &&& 0xFFFFF000 }
  | 0xC => if k.en then rej else { k with ringHi := v }
  | _ =>
    if bf v 0 5 < 4 ∨ 16 < bf v 0 5 ∨ (k.en ∧ (bf v 0 5 ≠ bf k.ringCfg 0 5 ∨ bf v 8 8 ≠ bf k.ringCfg 8 8)) then rej
    else { k with ringCfg := v &&& 0xFFFFFF1F }

/-- A write to Q[q].IRQ (R296, R297): a slice queue rejects the block-event vectors. -/
def Queue.irqWrite (k : Queue) (q : Fin 256) (v : Word) : Queue :=
  if (queueOwner q).isSome ∧ bf v 0 6 < 4 then { k with events := raise k.events 5 }
  else { k with irq := v &&& 0x803FFF3F }

/-- A write to a register of queue `q` (R297). -/
def State.queueWrite (s : State) (q : Fin 256) (o : Nat) (v : Word) : State :=
  match o with
  | 0x0 => s.queueCtl q v
  | 0x8 => s.modQ q (fun k => k.ringWrite o v)
  | 0xC => s.modQ q (fun k => k.ringWrite o v)
  | 0x10 => s.modQ q (fun k => k.ringWrite o v)
  | 0x14 => s.modQ q (fun k => k.irqWrite q v)
  | 0x18 => s.modQ q (fun k => { k with events := w1c k.events v })
  | _ => s

/-- A write to a word of the MSI-X table (R296): a vector that is unmasked sends its pending message. -/
def State.msixWrite (s : State) (i : Nat) (v : Word) : State :=
  let w := if i % 4 = 3 then v &&& 1 else if i % 4 = 0 then v &&& 0xFFFFFFFC else v
  let s1 := { s with qmg := { s.qmg with msixTable := vmod s.qmg.msixTable i (fun _ => w) } }
  if i % 4 = 3 ∧ !bit v 0 ∧ s.qmg.msixPba.getLsbD (i / 4) then
    { s1 with qmg := { s1.qmg with msixPba := s1.qmg.msixPba &&& ~~~BitVec.ofNat 64 (2 ^ (i / 4)) },
              out := s1.out ++ [.msix (i / 4)] }
  else s1

/-- A rejected write to a global register of QMG (R297). -/
def Qmg.reject (m : Qmg) : Qmg := { m with events := raise m.events 4 }

/-- A write to a global register of QMG (R297). -/
def Qmg.write (m : Qmg) (o : Nat) (v : Word) : Qmg :=
  match o with
  | 0x8004 => { m with events := w1c m.events v }
  | 0x8008 =>
    if bf v 0 8 = 0 ∨ bf v 8 8 = 0 ∨ bf v 16 8 = 0 ∨ bf v 0 8 < bf v 8 8 + bf v 16 8 then m.reject
    else { m with dmaWeight := v &&& 0xFFFFFF }
  | 0x800C => if bf v 0 11 < 100 ∨ 1200 < bf v 0 11 then m.reject else { m with rawCap := mkWord [(0, 11, bf v 0 11)] }
  | 0x8010 => { m with blkIrq := v &&& 0xF }
  | _ => m

/-- A write to the QMG block. -/
def State.qmgRegWrite (s : State) (o : Nat) (v : Word) : State :=
  if o < 0x4000 then s.queueWrite (qn (o / 0x40)) (o % 0x40) v
  else if 0xE000 ≤ o ∧ o < 0xE400 then s.msixWrite ((o - 0xE000) / 4) v
  else { s with qmg := s.qmg.write o v }

/-- A write to a register of the module region, where the module takes it. -/
def State.moduleRegWrite (s : State) (a : Nat) (v : Word) : State :=
  let o := a % 0x10000
  match a / 0x10000 with
  | 0 => s.modRegWrite o v
  | 1 => s.feaWrite o v
  | 2 => s.pwrWrite o v
  | 3 => s.tbmWrite o v
  | 4 => s.trkWrite o v
  | 5 => s.qmgRegWrite o v
  | 6 => s.flsWrite o v
  | _ => if o = 4 then { s with errm := { s.errm with events := w1c s.errm.events v } } else s

/-- An aligned 32-bit write to BAR0 outside the SRAM windows. -/
def State.regWrite (s : State) (a : Nat) (v : Word) : State :=
  match sliceAt a with
  | some (c, o) => s.sliceWriteAt c o v
  | none =>
    if (s.moduleReg a).isNone then s.recordAccess .bar0 a true
    else if a / 0x10000 = 5 then s.qmgWrite (fun s => s.moduleRegWrite a v)
    else if a = 0x0 ∨ a = 0xC then s
    else s.moduleWrite (fun s => s.moduleRegWrite a v)

/-! ### The slice SRAM window (R46, R402, R418) -/

/-- The SRAM offset that an address in a slice's window reaches. -/
def sramAt (a : Nat) : Option (Fin 4 × Nat) :=
  match sliceAt a with
  | some (c, o) => if 0x400000 ≤ o then some (c, o - 0x400000) else none
  | none => none

/-- Whether the size and alignment of an access to the SRAM window are accepted. -/
def sramSizeOk (off size : Nat) : Bool := (size == 4 && off % 4 == 0) || (size == 8 && off % 8 == 0)

/-- A read of the SRAM window: an affected half reads all ones, and the error is handled (R402). -/
def State.sramRead (s : State) (c : Fin 4) (off size : Nat) : State :=
  if !sramSizeOk off size then
    { (s.recordAccess .bar0 (0x1000000 * (c.val + 1) + 0x400000 + off) false) with readData := List.replicate size 0 }
  else if !(s.sl c).ctl.state.served then { s with readData := List.replicate size 0 }
  else
    let d := s.sramData c off size
    let word := off / 8 * 8
    let bad := (s.sl c).err.badWords.contains word
    let v := if bad && off == word then List.replicate 4 0xFF ++ d.1.drop 4 else d.1
    let s1 := { d.2 with readData := v }
    if bad then s1.badRead c word else s1

/-- What a write of an SRAM word leaves of its parity (R418): the armed word is stored with a wrong parity of byte 0, and
a write of byte 0 makes that parity right again. -/
def Err.wordWritten (e : Err) (off : Nat) : Err :=
  let word := off / 8 * 8
  if e.inject = some word then
    { e with inject := none, badWords := if e.badWords.contains word then e.badWords else e.badWords ++ [word] }
  else if off = word then { e with badWords := e.badWords.filter (fun w => w != word) }
  else e

/-- A write of the SRAM window: it lands in IDLE or in a host region, and is an access error elsewhere. -/
def State.sramWrite (s : State) (c : Fin 4) (off size : Nat) (v : DWord) : State :=
  let x := s.sl c
  if sramSizeOk off size && (x.ctl.state == .idle || x.inRegion off size) then
    s.modSl c (fun x => { x with sram := memWrite x.sram off (le size v.toNat), err := x.err.wordWritten off })
  else s.recordAccess .bar0 (0x1000000 * (c.val + 1) + 0x400000 + off) false

/-! ### Accesses of the two BARs -/

/-- The aligned registers that a read touches (R436). -/
def touched (a size : Nat) : List Nat := (List.range ((a % 4 + size + 3) / 4)).map (fun i => a / 4 * 4 + 4 * i)

/-- The registers of a read in ascending order, each read with its side effects; the bytes come with the state. -/
def readRegs : List Nat → State → List Byte × State
  | [], s => ([], s)
  | a :: as, s =>
    let r := readRegs as (s.regReadFx a)
    (le 4 (s.regRead a).toNat ++ r.1, r.2)

/-- A read of `size` bytes of BAR0; `readData` holds what it returns. -/
def State.readBar0 (s : State) (a size : Nat) : State :=
  match sramAt a with
  | some (c, off) => s.sramRead c off size
  | none =>
    let r := readRegs (touched a size) s
    { r.2 with readData := slice r.1 (a % 4) size }

/-- Whether a write of 64 bits is taken: the MSI-X table and the PBA (R296). -/
def msixWide (a size : Nat) : Bool :=
  size == 8 && a % 8 == 0 && ((decide (0x5E000 ≤ a) && decide (a < 0x5E400)) || a == 0x5F000)

/-- A write of `size` bytes of BAR0 (R7, R46). -/
def State.writeBar0 (s : State) (a size : Nat) (v : DWord) : State :=
  match sramAt a with
  | some (c, off) => s.sramWrite c off size v
  | none =>
    if msixWide a size then (s.regWrite a (lo32 v.toNat)).regWrite (a + 4) (hi32 v.toNat)
    else if size ≠ 4 ∨ a % 4 ≠ 0 then s.recordAccess .bar0 a false
    else s.regWrite a (lo32 v.toNat)

/-- A read of BAR2 (R282): PRODUCER and CONSUMER of a queue. -/
def State.readBar2 (s : State) (a size : Nat) : State :=
  let o := a % 0x10000
  if size ≠ 4 ∨ o % 4 ≠ 0 then { (s.recordAccess .bar2 o false) with readData := List.replicate size 0 }
  else
    let k := s.qu (qn (o / 0x100))
    let v := if o % 0x100 = 0 then k.prod.toNat else if o % 0x100 = 4 then k.cons.toNat else 0
    { s with readData := le 4 v }

/-- The register bridge has granted the host or the access port (R428): the pointer moves past it. -/
def State.bridged (s : State) (host : Bool) : State :=
  { s with tap := { s.tap with bridge := if host then 1 else 0 } }

/-! ### Rows -/

/-- REGISTER_WRITE (R7, R10): a write of any size to BAR0. -/
def execRegisterWrite (addr : Word) (size : Nat) (value : DWord) (s : State) : Host.Outcome State Fault Refusal :=
  run s fun s => (s.writeBar0 addr.toNat size value).bridged true

/-- RC_READ (R10): an aligned 32-bit read. -/
def execRcRead (addr : Word) (s : State) : Host.Outcome State Fault Refusal :=
  run s fun s => (s.readBar0 (addr.toNat / 4 * 4) 4).bridged true

/-- LATCH_READ (R91): an aligned 32-bit read. -/
def execLatchRead (addr : Word) (s : State) : Host.Outcome State Fault Refusal :=
  run s fun s => (s.readBar0 (addr.toNat / 4 * 4) 4).bridged true

/-- WIDE_READ (R436, R282): a read of any size and alignment. -/
def execWideRead (bar : Bar) (addr : Word) (size : Nat) (s : State) : Host.Outcome State Fault Refusal :=
  run s fun s =>
    match bar with
    | .bar0 => (s.readBar0 addr.toNat size).bridged true
    | .bar2 => s.readBar2 addr.toNat size

/-- SRAM_WINDOW_ACCESS (R46). -/
def execSramWindowAccess (write : Bool) (addr : Word) (size : Nat) (value : DWord) (s : State) :
    Host.Outcome State Fault Refusal :=
  run s fun s =>
    match sramAt addr.toNat with
    | some (c, off) => (if write then s.sramWrite c off size value else s.sramRead c off size).bridged true
    | none => s

/-- The bytes of a host read from address `a` with the affected 32-bit halves all ones (R400). -/
def spoil (a : Nat) (low high : Bool) (bs : List Byte) : List Byte :=
  bs.mapIdx (fun i b => if (if (a + i) / 4 % 2 = 0 then low else high) then 0xFF else b)

/-- A host transfer to the SRAM window or a register of slice `c` that meets a slice-bus parity error (R30, R400): an
affected half of a read is all ones, a write is discarded and is an access error. A read has reached its register, with
the side effects of the read. -/
def State.hostBusError (s : State) (c : Fin 4) (write : Bool) (a size : Nat) (low high : Bool) : State :=
  match sliceAt a with
  | some (k, _) =>
    if k ≠ c then s
    else if write then (s.recordAccess .bar0 a false).busError c 10
    else
      let s1 := s.readBar0 a size
      ({ s1 with readData := spoil a low high s1.readData }).busError c 10
  | none => s

/-- BUS_PARITY (R400): a host transfer is a read or write of `size` bytes at `addr`. -/
def execBusParity (c : Fin 4) (requester : Fin 12) (write : Bool) (addr : Word) (low high : Bool)
    (s : State) (size : Nat := 4) : Host.Outcome State Fault Refusal :=
  run s fun s =>
    if !(s.sl c).running3 then s
    else if requester.val = 10 then s.hostBusError c write addr.toNat size low high
    else s.busError c requester.val

/-- REGACC (R428): CMD bits 7:1 other than 0 are an access error. -/
def execRegacc (addr : Word) (data : Word) (cmd : Byte) (s : State) : Host.Outcome State Fault Refusal :=
  run s fun s =>
    let s0 := s.tapInstr 0x20
    if cmd.toNat / 2 ≠ 0 then s0.recordAccess .bar0 addr.toNat false
    else
      let s1 := if cmd.getLsbD 0 then s0.writeBar0 addr.toNat 4 (BitVec.setWidth 64 data) else s0.readBar0 addr.toNat 4
      let d := if cmd.getLsbD 0 then data else lo32 (ofLe s1.readData)
      let t : Tap := { s1.tap with regAddr := addr, regWrite := cmd.getLsbD 0, regData := d, regStatus := 0 }
      ({ s1 with readData := s.readData, tap := t }).captureDr.bridged false

/-- TAP_RESET (R426). -/
def execTapReset (s : State) : Host.Outcome State Fault Refusal := run s fun s => s.tapInstr 0x02

/-- EXTEST (R426): the boundary-scan cells drive the pins until another instruction is in force. -/
def execExtest (on : Bool) (cells : BitVec 114) (s : State) : Host.Outcome State Fault Refusal :=
  run s fun s =>
    if on then ({ s with tap := { s.tap with ir := 0x00, extest := true }, bsr := cells }).captureDr else s.tapInstr 0xFF

end Sys2Proof.Machine
end

