-- ==== Sys2Proof/Machine/Telemetry.lean ====
section
/-! DEFINITION. Telemetry (R290): the loads of the last 100 ms (R206, R269) and the TELEMETRY records. -/

namespace Sys2Proof.Machine

open Sys2Proof

/-- The end of an interval of 100 ms for the trellis decoders (R206): 1,600,000 soft values are full load. -/
def Trl.tick (t : Trl) : Trl :=
  let pm := min 2047 (ceilDiv t.loadNow 1600)
  { t with loadPm := pm, peakPm := max t.peakPm pm, loadNow := 0 }

/-- The end of an interval of 100 ms for the MAC engine (R269): 25,600,000 cycles of FCLK are full load. -/
def Mac.tick (m : Mac) : Mac :=
  let pm := min 2047 (ceilDiv m.busy 25600)
  { m with loadPm := pm, peakPm := max m.peakPm pm, busy := 0 }

/-- One entry: its item, its index and a register value. -/
def teleEntry (item index : Nat) (v : Word) : List Byte := le 2 item ++ le 2 index ++ le 4 v.toNat

/-- A TELEMETRY payload of these entries. -/
def telePayload (es : List (List Byte)) : List Byte := le 2 es.length ++ le 2 0 ++ le 4 100 ++ es.flatten

/-- STAGE of every active record queue among these. -/
def State.stageEntries (s : State) (qs : List (Fin 256)) : List (List Byte) :=
  (qs.filter (fun q => !queueIsCmd q && s.queueActive q)).map (fun q =>
    teleEntry 0x30 q.val ((s.queueRead q 0x28).getD 0))

/-- The entries of a slice. -/
def State.sliceEntries (s : State) (c : Fin 4) : List (List Byte) :=
  let x := s.sl c
  let insts := (List.range 48).filter (fun n => (x.instAt n).state == .sync || (x.instAt n).state == .track)
  insts.flatMap (fun n =>
      ([(1, 0x18), (2, 0x1C), (3, 0x10), (4, 0x14)] : List (Nat × Nat)).map (fun e =>
        teleEntry e.1 n ((x.demRead (.inst (Fin.ofNat 48 n)) e.2).getD 0)))
    ++ [teleEntry 0x10 0 ((x.afeRead s.real 0x14).getD 0), teleEntry 0x11 0 ((x.afeRead s.real 0x28).getD 0),
        teleEntry 0x12 0 ((x.clkRead false 0x10).getD 0), teleEntry 0x13 0 ((x.trl.read 0x10).getD 0),
        teleEntry 0x14 0 ((x.macRead 0x8).getD 0)]
    ++ s.stageEntries ((List.range 52).map (localQ c))

/-- The entries of the module: `temps` are its eight sensors in 0.1 °C. -/
def State.moduleEntries (s : State) (temps : List Int) : List (List Byte) :=
  s.stageEntries ((List.range 12).map qn)
    ++ (List.range 8).map (fun i => teleEntry 0x100 i (lo32 (twos 32 (temps.getD i 0))))
    ++ (List.range 8).map (fun i => teleEntry 0x101 i (lo32 (vget s.pwr.railMv i 0)))

/-- The TELEMETRY record of slice `c`, which is IDLE or RUNNING. -/
def State.sliceTelemetry (s : State) (c : Fin 4) : State :=
  if (s.sl c).up then
    s.stage 5 (s.mkRec 0x61 c.val 0xFF 0xFFFF 0 s.tb (s.sl c).unlocked (telePayload (s.sliceEntries c)))
  else s

/-- TELEMETRY_TICK (R290): the module's record is not made during a swap (R393). -/
def execTelemetryTick (temps : List Int) (s : State) : Host.Outcome State Fault Refusal :=
  run s fun s =>
    if !s.mod.ready then s
    else
      let s1 := s.modSlices (fun _ x => { x with trl := x.trl.tick, mac := x.mac.tick })
      let s2 := if s1.swapping then s1
        else s1.stage 5 (s1.mkRec 0x61 0xFF 0xFF 0xFFFF 0 s1.tb false (telePayload (s1.moduleEntries temps)))
      allSlices.foldl (fun t c => t.sliceTelemetry c) s2

end Sys2Proof.Machine
end

