-- ==== Sys2Proof/Machine/Dispatch.lean ====
section
/-! DEFINITION. The effect of every command on everything but the queue. -/

namespace Sys2Proof.Machine

open Sys2Proof

/-- The meaning of a command. -/
def exec (i : Instr) (s : State) : Host.Outcome State Fault Refusal :=
  match i with
  | .registerWrite addr size value => Sys2Proof.Machine.execRegisterWrite addr size value s
  | .rcRead addr => Sys2Proof.Machine.execRcRead addr s
  | .latchRead addr => Sys2Proof.Machine.execLatchRead addr s
  | .wideRead bar addr size => Sys2Proof.Machine.execWideRead bar addr size s
  | .sramWindowAccess write addr size value => Sys2Proof.Machine.execSramWindowAccess write addr size value s
  | .cartridgeInserted c cart => Sys2Proof.Machine.execCartridgeInserted c cart s
  | .cartridgeRemoved c => Sys2Proof.Machine.execCartridgeRemoved c s
  | .selfTestComplete c badPages failed ecc => Sys2Proof.Machine.execSelfTestComplete c badPages failed s ecc
  | .startupCalibrationDone c results ecc => Sys2Proof.Machine.execStartupCalibrationDone c results s ecc
  | .sliceReset c => Sys2Proof.Machine.execSliceReset c s
  | .cellParity c cell => Sys2Proof.Machine.execCellParity c cell s
  | .sramParity c offset owner hostSize => Sys2Proof.Machine.execSramParity c offset owner s hostSize
  | .busParity c requester write addr low high size => Sys2Proof.Machine.execBusParity c requester write addr low high s size
  | .trellisParity c decoder => Sys2Proof.Machine.execTrellisParity c decoder s
  | .blockResetTimeout c block => Sys2Proof.Machine.execBlockResetTimeout c block s
  | .supervisorEccError corrected => Sys2Proof.Machine.execSupervisorEccError corrected s
  | .scrubAccess c => Sys2Proof.Machine.execScrubAccess c s
  | .shadowCheck c activeBad stagedBad => Sys2Proof.Machine.execShadowCheck c activeBad stagedBad s
  | .coefCrcCheck c upset => Sys2Proof.Machine.execCoefCrcCheck c upset s
  | .slotCheck c upset => Sys2Proof.Machine.execSlotCheck c upset s
  | .telemetryTick temps => Sys2Proof.Machine.execTelemetryTick temps s
  | .formeSetChunk c => Sys2Proof.Machine.execFormeSetChunk c s
  | .formeLockup c => Sys2Proof.Machine.execFormeLockup c s
  | .formeDiscard c => Sys2Proof.Machine.execFormeDiscard c s
  | .formeQuery c => Sys2Proof.Machine.execFormeQuery c s
  | .libStore => Sys2Proof.Machine.execLibStore s
  | .libLoad ecc => Sys2Proof.Machine.execLibLoad s ecc
  | .libErase => Sys2Proof.Machine.execLibErase s
  | .libBoot => Sys2Proof.Machine.execLibBoot s
  | .libList => Sys2Proof.Machine.execLibList s
  | .stagingTimeout c => Sys2Proof.Machine.execStagingTimeout c s
  | .lockupInstant c => Sys2Proof.Machine.execLockupInstant c s
  | .tbEpoch e0 e1 e2 e3 => Sys2Proof.Machine.execTbEpoch e0 e1 e2 e3 s
  | .ppsEdge refinGood => Sys2Proof.Machine.execPpsEdge refinGood s
  | .refinLost => Sys2Proof.Machine.execRefinLost s
  | .ppsLost => Sys2Proof.Machine.execPpsLost s
  | .trunkTimeLost => Sys2Proof.Machine.execTrunkTimeLost s
  | .clockTimeLost => Sys2Proof.Machine.execClockTimeLost s
  | .switchHoldExpired => Sys2Proof.Machine.execSwitchHoldExpired s
  | .holdoverEnd => Sys2Proof.Machine.execHoldoverEnd s
  | .tbmCfgWrite value => Sys2Proof.Machine.execTbmCfgWrite value s
  | .todSet value => Sys2Proof.Machine.execTodSet value s
  | .tbStep => Sys2Proof.Machine.execTbStep s
  | .tbHold => Sys2Proof.Machine.execTbHold s
  | .holdEnd => Sys2Proof.Machine.execHoldEnd s
  | .originChange => Sys2Proof.Machine.execOriginChange s
  | .mdllLockLoss c => Sys2Proof.Machine.execMdllLockLoss c s
  | .relockAttempt c ok => Sys2Proof.Machine.execRelockAttempt c ok s
  | .relocked c => Sys2Proof.Machine.execRelocked c s
  | .relockRegistration c => Sys2Proof.Machine.execRelockRegistration c s
  | .afeGainWrite c value => Sys2Proof.Machine.execAfeGainWrite c value s
  | .gainApply c => Sys2Proof.Machine.execGainApply c s
  | .agcWindowEnd c powerCb => Sys2Proof.Machine.execAgcWindowEnd c powerCb s
  | .attack c clips => Sys2Proof.Machine.execAttack c s clips
  | .agcRelease c => Sys2Proof.Machine.execAgcRelease c s
  | .agcCfgWrite c value => Sys2Proof.Machine.execAgcCfgWrite c value s
  | .tunerWrite c value => Sys2Proof.Machine.execTunerWrite c value s
  | .mismatchMeasurement c rl => Sys2Proof.Machine.execMismatchMeasurement c rl s
  | .calReqAdc c => Sys2Proof.Machine.execCalReqAdc c s
  | .calReqTuner c => Sys2Proof.Machine.execCalReqTuner c s
  | .calReqFlat c => Sys2Proof.Machine.execCalReqFlat c s
  | .calReqVco c => Sys2Proof.Machine.execCalReqVco c s
  | .calRequest c => Sys2Proof.Machine.execCalRequest c s
  | .calIntervalStart c => Sys2Proof.Machine.execCalIntervalStart c s
  | .calIntervalEnd c result => Sys2Proof.Machine.execCalIntervalEnd c result s
  | .calbgDcTrim c t di dq rssi => Sys2Proof.Machine.execCalbgDcTrim c t di dq rssi s
  | .calbgSynthTrim c abandoned => Sys2Proof.Machine.execCalbgSynthTrim c abandoned s
  | .ncoFreqWrite c t value => Sys2Proof.Machine.execNcoFreqWrite c t value s
  | .ncoRetune c t => Sys2Proof.Machine.execNcoRetune c t s
  | .bankSwapRequest c t target => Sys2Proof.Machine.execBankSwapRequest c t target s
  | .bankSwap c t => Sys2Proof.Machine.execBankSwap c t s
  | .xfadeEnd c t => Sys2Proof.Machine.execXfadeEnd c t s
  | .coefWrite c t b k value => Sys2Proof.Machine.execCoefWrite c t b k value s
  | .instanceFound c r found => Sys2Proof.Machine.execInstanceFound c r s found
  | .syncLimitExpired c r => Sys2Proof.Machine.execSyncLimitExpired c r s
  | .instanceLoss c r tracked => Sys2Proof.Machine.execInstanceLoss c r tracked s
  | .reacq c n => Sys2Proof.Machine.execReacq c n s
  | .measurementUpdate c r m => Sys2Proof.Machine.execMeasurementUpdate c r m s
  | .unitHandedOn c r at_ ok u reads => Sys2Proof.Machine.execUnitHandedOn c r at_ ok u reads s
  | .noiseInterval c r rssi => Sys2Proof.Machine.execNoiseInterval c r rssi s
  | .trigger c r rssi => Sys2Proof.Machine.execTrigger c r rssi s
  | .syncQualified c r w rssi => Sys2Proof.Machine.execSyncQualified c r w s rssi
  | .qualifierWindowClose c r rssi => Sys2Proof.Machine.execQualifierWindowClose c r rssi s
  | .capture c r rssi w => Sys2Proof.Machine.execCapture c r rssi w s
  | .trellisGrant c reqs => Sys2Proof.Machine.execTrellisGrant c reqs s
  | .segmentComplete c d snr => Sys2Proof.Machine.execSegmentComplete c d snr s
  | .afCheckStart c n => Sys2Proof.Machine.execAfCheckStart c n s
  | .afCheckTimeout c n => Sys2Proof.Machine.execAfCheckTimeout c n s
  | .afSwitch c n => Sys2Proof.Machine.execAfSwitch c n s
  | .afSpeculate c n => Sys2Proof.Machine.execAfSpeculate c n s
  | .candidateRotation c t => Sys2Proof.Machine.execCandidateRotation c t s
  | .alertTimeout c x => Sys2Proof.Machine.execAlertTimeout c x s
  | .entryDue c => Sys2Proof.Machine.execEntryDue c s
  | .pulseEnd pin => Sys2Proof.Machine.execPulseEnd pin s
  | .doneEntryExpiry c => Sys2Proof.Machine.execDoneEntryExpiry c s
  | .svcCfgWrite c value => Sys2Proof.Machine.execSvcCfgWrite c value s
  | .macBlockGrant c parity split => Sys2Proof.Machine.execMacBlockGrant c parity s split
  | .mirrorCommit c => Sys2Proof.Machine.execMirrorCommit c s
  | .keyload packet => Sys2Proof.Machine.execKeyload packet s
  | .keyDerive c parity => Sys2Proof.Machine.execKeyDerive c parity s
  | .keyErase c => Sys2Proof.Machine.execKeyErase c s
  | .tamperLoopOpen => Sys2Proof.Machine.execTamperLoopOpen s
  | .alarmInAsserted => Sys2Proof.Machine.execAlarmInAsserted s
  | .overTemperature => Sys2Proof.Machine.execOverTemperature s
  | .underTemperature => Sys2Proof.Machine.execUnderTemperature s
  | .sliceSupplyMonitor c => Sys2Proof.Machine.execSliceSupplyMonitor c s
  | .clockGlitch c => Sys2Proof.Machine.execClockGlitch c s
  | .mirrorEraseDone c => Sys2Proof.Machine.execMirrorEraseDone c s
  | .loadsUnblocked c src => Sys2Proof.Machine.execLoadsUnblocked c src s
  | .doorbellProducer offset size value => Sys2Proof.Machine.execDoorbellProducer offset size value s
  | .queueEnable q => Sys2Proof.Machine.execQueueEnable q s
  | .queueDisable q => Sys2Proof.Machine.execQueueDisable q s
  | .flush q => Sys2Proof.Machine.execFlush q s
  | .descriptorFetch q addr len => Sys2Proof.Machine.execDescriptorFetch q addr len s
  | .dmaReadError q timeout ecrc => Sys2Proof.Machine.execDmaReadError q timeout ecrc s
  | .poisonedWrite ecrc => Sys2Proof.Machine.execPoisonedWrite ecrc s
  | .flushUsExpired q => Sys2Proof.Machine.execFlushUsExpired q s
  | .dmaGrant => Sys2Proof.Machine.execDmaGrant s
  | .rawCapWindow => Sys2Proof.Machine.execRawCapWindow s
  | .irqHoldoffEnd q => Sys2Proof.Machine.execIrqHoldoffEnd q s
  | .commandFetch q opcode tag bodyLen body => Sys2Proof.Machine.execCommandFetch q opcode tag bodyLen body s
  | .nop q => Sys2Proof.Machine.execNop q s
  | .heldCompletionRelease q => Sys2Proof.Machine.execHeldCompletionRelease q s
  | .hostPortReset => Sys2Proof.Machine.execHostPortReset s
  | .hostPortResetExit width speed mps => Sys2Proof.Machine.execHostPortResetExit width speed mps s
  | .txSend c => Sys2Proof.Machine.execTxSend c s
  | .txRxwin c => Sys2Proof.Machine.execTxRxwin c s
  | .rxwinOpen c => Sys2Proof.Machine.execRxwinOpen c s
  | .rxwinEnd c up => Sys2Proof.Machine.execRxwinEnd c up s
  | .synthLocked c band us => Sys2Proof.Machine.execSynthLocked c band us s
  | .synthLockLoss c => Sys2Proof.Machine.execSynthLockLoss c s
  | .txHoldExpired c => Sys2Proof.Machine.execTxHoldExpired c s
  | .plannedKeyup c => Sys2Proof.Machine.execPlannedKeyup c s
  | .trSwTransmit c => Sys2Proof.Machine.execTrSwTransmit c s
  | .paEnRise c => Sys2Proof.Machine.execPaEnRise c s
  | .rampUp c => Sys2Proof.Machine.execRampUp c s
  | .rampDown c fwdMv revMv => Sys2Proof.Machine.execRampDown c fwdMv revMv s
  | .burstEnd c => Sys2Proof.Machine.execBurstEnd c s
  | .nextBurst c => Sys2Proof.Machine.execNextBurst c s
  | .abbreviatedRampEnd c => Sys2Proof.Machine.execAbbreviatedRampEnd c s
  | .trSwRelease c => Sys2Proof.Machine.execTrSwRelease c s
  | .coexRelease c => Sys2Proof.Machine.execCoexRelease c s
  | .coexGrant c => Sys2Proof.Machine.execCoexGrant c s
  | .gntWaitExpired c => Sys2Proof.Machine.execGntWaitExpired c s
  | .coexWithdrawn c => Sys2Proof.Machine.execCoexWithdrawn c s
  | .amplifierFault c fwdMv revMv => Sys2Proof.Machine.execAmplifierFault c fwdMv revMv s
  | .cancel c => Sys2Proof.Machine.execCancel c s
  | .faultClr c => Sys2Proof.Machine.execFaultClr c s
  | .frameStart c rx bits samples => Sys2Proof.Machine.execFrameStart c rx bits samples s
  | .gridFrame c frames => Sys2Proof.Machine.execGridFrame c frames s
  | .stall c rx => Sys2Proof.Machine.execStall c rx s
  | .bclkOverrate c rx => Sys2Proof.Machine.execBclkOverrate c rx s
  | .gateTimeout c rx => Sys2Proof.Machine.execGateTimeout c rx s
  | .txStart c => Sys2Proof.Machine.execTxStart c s
  | .txStop c => Sys2Proof.Machine.execTxStop c s
  | .rxStart c => Sys2Proof.Machine.execRxStart c s
  | .rxStop c => Sys2Proof.Machine.execRxStop c s
  | .regInEdge => Sys2Proof.Machine.execRegInEdge s
  | .registration => Sys2Proof.Machine.execRegistration s
  | .trkRegArm => Sys2Proof.Machine.execTrkRegArm s
  | .trkRegCancel => Sys2Proof.Machine.execTrkRegCancel s
  | .trkSave => Sys2Proof.Machine.execTrkSave s
  | .trkExport => Sys2Proof.Machine.execTrkExport s
  | .trkPush ecc => Sys2Proof.Machine.execTrkPush s ecc
  | .pushRound => Sys2Proof.Machine.execPushRound s
  | .transferDrop id => Sys2Proof.Machine.execTransferDrop id s
  | .sync p f => Sys2Proof.Machine.execSync p f s
  | .delayReq p f => Sys2Proof.Machine.execDelayReq p f s
  | .announce p f => Sys2Proof.Machine.execAnnounce p f s
  | .announceTick => Sys2Proof.Machine.execAnnounceTick s
  | .topology p f => Sys2Proof.Machine.execTopology p f s
  | .regArm p f => Sys2Proof.Machine.execRegArm p f s
  | .xferStatus p f => Sys2Proof.Machine.execXferStatus p f s
  | .recordFrame p f => Sys2Proof.Machine.execRecordFrame p f s
  | .chunkFrame p f => Sys2Proof.Machine.execChunkFrame p f s
  | .endFrame p f => Sys2Proof.Machine.execEndFrame p f s
  | .abortedStream p copies => Sys2Proof.Machine.execAbortedStream p s copies
  | .linkUp p => Sys2Proof.Machine.execLinkUp p s
  | .linkLost p signal => Sys2Proof.Machine.execLinkLost p s signal
  | .probeTimeout p => Sys2Proof.Machine.execProbeTimeout p s
  | .reparentHoldEnd => Sys2Proof.Machine.execReparentHoldEnd s
  | .reparent => Sys2Proof.Machine.execReparent s
  | .trkCfgWrite value => Sys2Proof.Machine.execTrkCfgWrite value s
  | .grantCycle => Sys2Proof.Machine.execGrantCycle s
  | .inputMeasurement m => Sys2Proof.Machine.execInputMeasurement m s
  | .brownOut => Sys2Proof.Machine.execBrownOut s
  | .normalRestored => Sys2Proof.Machine.execNormalRestored s
  | .inputLoss => Sys2Proof.Machine.execInputLoss s
  | .inputReturn => Sys2Proof.Machine.execInputReturn s
  | .railCollapse => Sys2Proof.Machine.execRailCollapse s
  | .budgetWrite value => Sys2Proof.Machine.execBudgetWrite value s
  | .auxWrite value => Sys2Proof.Machine.execAuxWrite value s
  | .auxFault => Sys2Proof.Machine.execAuxFault s
  | .pwrQuery => Sys2Proof.Machine.execPwrQuery s
  | .pwrSave => Sys2Proof.Machine.execPwrSave s
  | .powerUp => Sys2Proof.Machine.execPowerUp s
  | .moduleReset value => Sys2Proof.Machine.execModuleReset value s
  | .watchdogExpiry => Sys2Proof.Machine.execWatchdogExpiry s
  | .moduleReady ecc => Sys2Proof.Machine.execModuleReady s ecc
  | .bayIdentify c => Sys2Proof.Machine.execBayIdentify c s
  | .featureCommit value => Sys2Proof.Machine.execFeatureCommit value s
  | .feaSave => Sys2Proof.Machine.execFeaSave s
  | .fwLoadChunk => Sys2Proof.Machine.execFwLoadChunk s
  | .fwActivate => Sys2Proof.Machine.execFwActivate s
  | .fwQuery => Sys2Proof.Machine.execFwQuery s
  | .swapStart => Sys2Proof.Machine.execSwapStart s
  | .swapDone => Sys2Proof.Machine.execSwapDone s
  | .swapFail oldFails => Sys2Proof.Machine.execSwapFail oldFails s
  | .pushedImageActivate => Sys2Proof.Machine.execPushedImageActivate s
  | .onReq c => Sys2Proof.Machine.execOnReq c s
  | .offReq c => Sys2Proof.Machine.execOffReq c s
  | .offDrainEnd c => Sys2Proof.Machine.execOffDrainEnd c s
  | .calibrate => Sys2Proof.Machine.execCalibrate s
  | .calibrateAt => Sys2Proof.Machine.execCalibrateAt s
  | .eraseKeys => Sys2Proof.Machine.execEraseKeys s
  | .deriveKey => Sys2Proof.Machine.execDeriveKey s
  | .mailboxBadOpcode => Sys2Proof.Machine.execMailboxBadOpcode s
  | .errorInject c value => Sys2Proof.Machine.execErrorInject c value s
  | .regacc addr data cmd => Sys2Proof.Machine.execRegacc addr data cmd s
  | .modreset value => Sys2Proof.Machine.execModreset value s
  | .tapReset => Sys2Proof.Machine.execTapReset s
  | .extest on cells => Sys2Proof.Machine.execExtest on cells s
  | .sampleDelivered c t codes => Sys2Proof.Machine.execSampleDelivered c t codes s
  | .frameCrcError p f => Sys2Proof.Machine.execFrameCrcError p s f
  | .trunkEgress p => Sys2Proof.Machine.execTrunkEgress p s
  | .flashWriteDone failed => Sys2Proof.Machine.execFlashWriteDone failed s

end Sys2Proof.Machine
end

