-- ==== Sys2Proof/Machine/Tick.lean ====
section
/-! DEFINITION. One tick of time (R88, R99, R101). -/

namespace Sys2Proof.Machine

open Sys2Proof

/-- Ticks of the source between two corrections of one tick while TB slews at 2,048 ticks per second (R99). -/
def slewSpan : Nat := 500000

/-- TB, the rate word and the remaining offset after one tick without a hold: a slew makes up one tick in
every `slewSpan` (R99), never on a multiple of 2^20. -/
def Tbm.count (t : Tbm) : Tbm :=
  if t.slewing then
    if t.offset = 0 then { t with tb := t.tb + 1, slewing := false, slewAcc := 0 }
    else if slewSpan ≤ t.slewAcc + 1 ∧ (t.tb + 1) % 2 ^ 20 ≠ 0 then
      if 0 < t.offset then
        { t with slewAcc := 0, offset := t.offset - 1, srcOff := vmap (fun o => o - 1) t.srcOff,
                 moved := t.moved - 1 }
      else { t with tb := t.tb + 2, slewAcc := 0, offset := t.offset + 1,
                    srcOff := vmap (fun o => o + 1) t.srcOff, moved := t.moved + 1 }
    else { t with tb := t.tb + 1, slewAcc := t.slewAcc + 1 }
  else { t with tb := t.tb + 1 }

/-- One real tick of TB: TB counts it, except during a hold (R88, R101). -/
def Tbm.tick (t : Tbm) : Tbm :=
  match t.hold with
  | some h => if h.left = 0 then t.count else { t with hold := some { h with left := h.left - 1 } }
  | none => t.count

/-- What one real tick brings: a hold that is due begins, and the tick after the point of a step is the step. -/
def State.pass (s : State) : State :=
  let s1 := if s.tbm.holdsAt = some s.tb then s.doHold s.tb else s
  match s1.tbm.step with
  | some k =>
    if k.point = s1.tb then s1.doStep k else { s1 with real := s1.real + 1, tbm := s1.tbm.tick }
  | none => { s1 with real := s1.real + 1, tbm := s1.tbm.tick }

/-- Each microsecond the transmitters sample their amplifiers (R317). -/
def State.senseTick (s : State) : State :=
  if s.real % 1024 = 0 then allSlices.foldl (fun t c => t.senseFree c) s else s

/-- One real tick (log entry 3). -/
def tick (s : State) : State :=
  { blockIrqs s ((({ s with out := [] } : State).pass).senseTick) with pending := s.pending }

end Sys2Proof.Machine
end

