-- ==== Sys2Proof/Safety.lean ====
section
/-! DEFINITION. The terms in which claims speak: two states that differ only in what has left the module, a
change that stays in one slice, and the invariants of a safe run. -/

namespace Sys2Proof.Machine

open Sys2Proof

/-- `t` and `u` are the same machine: they may differ in the outward effects of the last command and in the
interrupt messages that wait for an unmasked vector (R296), and in nothing else. -/
def SameMachine (t u : State) : Prop :=
  ∃ o p, t = { u with out := o, qmg := { u.qmg with msixPba := p } }

/-- Slice `d` of `t` is as in `s` for every `d` but `c`. -/
def OtherSlices (c : Fin 4) (s t : State) : Prop := ∀ d, d ≠ c → t.sl d = s.sl d

/-- The slice SRAM of every slice reads as before. -/
def SameSram (s t : State) : Prop := ∀ c a, memGet (t.sl c).sram a = memGet (s.sl c).sram a

/-- Every slice SRAM has its canonical form. -/
def SramWf (s : State) : Prop := ∀ c, Memory.wf (s.sl c).sram = true

/-- On `s`, command `i` answers with the state that `f` makes of `s`: `f` starts without outward effects of an
earlier command, and what `i` sends is left open, as in `SameMachine`. -/
def Does (i : Instr) (s : State) (f : State → State) : Prop :=
  ∃ t, exec i s = .next t ∧ SameMachine t { f { s with out := [] } with pending := s.pending }

/-- On `s`, command `i` answers with a state of which `p` holds. -/
def Gives (i : Instr) (s : State) (p : State → Prop) : Prop := ∃ t, exec i s = .next t ∧ p t

end Sys2Proof.Machine
end

