-- ==== Sys2Proof/Certificates/Slice0/Obligations.lean ====
section
/-! DEFINITION. The statements for the provers. -/

open Sys2Proof Sys2Proof.Machine

/-! ### The block as a whole -/

/-- A step takes the command at the front of the queue and is `exec` of it on the state with the queue's rest. The
queue of waiting commands is the model's own (log entry 3). -/
def Obligations.StepRunsFront : Prop :=
  ∀ (c : Instr) (cs : List Instr) (s : State),
    step { s with pending := c :: cs } = exec c { s with pending := cs }

/-- Every command of the table completes: on every state and operands it answers a next state, and it neither adds to
the queue nor takes from it. So every step answers a next state, with one command fewer in the queue (log entry 3). -/
def Obligations.StepTakesOneCommand : Prop :=
  (∀ (i : Instr) (s : State), ∃ t, exec i s = .next t ∧ t.pending = s.pending)
  ∧ ∀ s : State, ∃ t, step s = .next t ∧ t.pending = s.pending.tail

/-- On an empty queue, where no slew, hold or step of TB is due, a step is one tick: real time and TB advance by one
and nothing else changes. The model's choice (log entry 3). -/
def Obligations.IdleStepIsATick : Prop :=
  ∀ s : State, s.pending = [] → s.tbm.slewing = false → s.tbm.hold = none → s.tbm.holdsAt = none → s.tbm.step = none →
    ∃ t, step s = .next t ∧ SameMachine t { s with real := s.real + 1, tbm := { s.tbm with tb := s.tbm.tb + 1 } }

/-- The state after module reset: what the manual states of each block. That an SX7464 cartridge sits in every bay is the
model's choice (log entry 6). -/
def Obligations.ResetState : Prop :=
  let s := State.reset
  s.pending = [] ∧ s.mod.ready = false ∧ s.fea.committed = false ∧ s.tap.ir = 0x02 ∧ s.tbm.state = .freerun
    ∧ s.tbm.origin = false ∧ s.trk.tree = .detached ∧ s.pwr.held.toList.sum = 40 ∧ vget s.pwr.held 0 0 = 40
    ∧ ∀ c, (s.sl c).ctl.state = .reset ∧ (s.sl c).ctl.feedOn = false ∧ (s.sl c).sram = [] ∧ (s.sl c).clk.lock = false
      ∧ (s.sl c).tx.state = .disabled ∧ (s.sl c).forme = none ∧ ∀ k, ((s.sl c).slotAt k).state = .empty

/-- After reset every slice SRAM has its canonical form. -/
def Obligations.SramFormAtReset : Prop := SramWf State.reset

/-- From every state whose slice SRAMs have their canonical form, every step leads to such a state. -/
def Obligations.SramFormKept : Prop := ∀ s t : State, SramWf s → step s = .next t → SramWf t

/-- Every command leaves every byte of every slice SRAM as it was, but for those named here: accesses by address,
errors that retire a page or reset a slice, resets, and changes of a cartridge or its power. -/
def Obligations.SramFrame : Prop :=
  ∀ (i : Instr) (s t : State), exec i s = .next t →
    match i with
    | .registerWrite _ _ _ | .rcRead _ | .latchRead _ | .wideRead _ _ _ | .sramWindowAccess _ _ _ _ | .regacc _ _ _
    | .cartridgeRemoved _ | .offReq _ | .offDrainEnd _ | .grantCycle | .sliceReset _ | .abbreviatedRampEnd _
    | .cellParity _ _ | .sramParity _ _ _ _ | .busParity _ _ _ _ _ _ _ | .trellisParity _ _ | .blockResetTimeout _ _
    | .scrubAccess _ | .supervisorEccError _ | .moduleReset _ | .modreset _ | .watchdogExpiry | .railCollapse
    | .swapFail _ | .powerUp => True
    | _ => SameSram s t

/-! ### Registers and memory of a slice -/

/-- R39, R40: a write of BG_CFG with BURST in 1 to 64 puts BURST and ENABLE in force and reserved bits read 0; any other
write leaves the register as it is and sets CFG_REJECT. Nothing else changes but the turn of the register bridge. -/
def Obligations.WriteBgCfg : Prop :=
  ∀ (c : Fin 4) (addr : Word) (v : DWord) (s : State), addr.toNat = 0x1000000 * (c.val + 1) + 0xC →
    let w := lo32 v.toNat
    Does (.registerWrite addr 4 v) s (fun s => { s.modSl c (fun x => { x with ctl := (
        if 1 ≤ bf w 8 8 ∧ bf w 8 8 ≤ 64 then
          { x.ctl with bgCfg := mkWord [(8, 8, bf w 8 8), (0, 1, bf w 0 1)] }
        else { x.ctl with cfgReject := true }) }) with
      tap := { s.tap with bridge := 1 } })

/-- R10: a write to an EVENTS register clears the bits written 1 and leaves the others, here for CLK.EVENTS and
MAC.EVENTS of a slice whose registers are served. -/
def Obligations.WriteOneClears : Prop :=
  ∀ (c : Fin 4) (addr : Word) (v : DWord) (s : State), (s.sl c).ctl.state.served = true →
    (addr.toNat = 0x1000000 * (c.val + 1) + 0x10004 →
      Does (.registerWrite addr 4 v) s (fun s => { s.modSl c (fun x => { x with clk := { x.clk with
          events := x.clk.events &&& ~~~lo32 v.toNat } }) with tap := { s.tap with bridge := 1 } }))
    ∧ (addr.toNat = 0x1000000 * (c.val + 1) + 0xD0004 →
      Does (.registerWrite addr 4 v) s (fun s => { s.modSl c (fun x => { x with mac := { x.mac with
          events := x.mac.events &&& ~~~lo32 v.toNat } }) with tap := { s.tap with bridge := 1 } }))

/-- R7, R415: a write of another size or alignment to the registers of a slice that serves them changes no register; it is
counted in ERR.ACCESS and its address latched. -/
def Obligations.MalformedWriteIsCounted : Prop :=
  ∀ (c : Fin 4) (addr : Word) (o size : Nat) (v : DWord) (s : State),
    addr.toNat = 0x1000000 * (c.val + 1) + o → o < 0x400000 → (size ≠ 4 ∨ o % 4 ≠ 0) →
    (s.sl c).ctl.state.served = true →
    Does (.registerWrite addr size v) s (fun s => { s.modSl c (fun x => { x with err := { x.err with
        access := min (x.err.access + 1) 0xFFFF, events := x.err.events ||| 0x80,
        addr := some (x.err.addr.getD addr) } }) with tap := { s.tap with bridge := 1 } })

/-- R7, R10, R91, R282, R436: what a read of any size returns, and the clearing and latching that it brings. -/
def Obligations.ReadsThatClearAndLatch : Prop :=
  (∀ (c : Fin 4) (addr : Word) (s : State), addr.toNat = 0x1000000 * (c.val + 1) + 0x100008 →
    (s.sl c).ctl.state.served = true →
    Does (.rcRead addr) s (fun s => { s.modSl c (fun x => { x with err := { x.err with busCnt := 0, memCnt := 0 } }) with
      readData := le 4 (mkWord [(16, 16, (s.sl c).err.busCnt), (0, 16, (s.sl c).err.memCnt)]).toNat,
      tap := { s.tap with bridge := 1 } }))
  ∧ (∀ s : State, s.mod.ready = true → s.mod.swapping = none →
    Does (.latchRead 0x30000) s (fun s => { s with
      readData := le 4 (lo32 s.tbm.tb).toNat, tbm := { s.tbm with tbHi := hi32 s.tbm.tb },
      tap := { s.tap with bridge := 1 } }))
  ∧ (∀ (q : Fin 256) (addr : Word) (s : State),
    (addr.toNat = 0x100 * q.val → Does (.wideRead .bar2 addr 4) s (fun s => { s with
      readData := le 4 (s.qu q).prod.toNat }))
    ∧ (addr.toNat = 0x100 * q.val + 4 → Does (.wideRead .bar2 addr 4) s (fun s => { s with
      readData := le 4 (s.qu q).cons.toNat }))
    ∧ (∀ o, addr.toNat = 0x100 * q.val + o → 8 ≤ o → o < 0x100 → o % 4 = 0 →
      Does (.wideRead .bar2 addr 4) s (fun s => { s with readData := [0, 0, 0, 0] }))
    ∧ (∀ size, addr.toNat < 0x10000 → (size ≠ 4 ∨ addr.toNat % 4 ≠ 0) →
      Does (.wideRead .bar2 addr size) s (fun s => { s with
        readData := List.replicate size 0,
        errm := { s.errm with access := min (s.errm.access + 1) 0xFFFF, events := s.errm.events ||| 1,
                              addr := some (s.errm.addr.getD (BitVec.ofNat 32 (addr.toNat + 2 ^ 31))) } })))
  ∧ (∀ (addr : Word) (s : State), sramAt addr.toNat = none →
    (∀ size, Gives (.wideRead .bar0 addr size) s (fun t => t.readData.length = size ∧ t.tap.bridge = 1
      ∧ t.slices.toList.map (fun x => x.sram) = s.slices.toList.map (fun x => x.sram)))
    ∧ (addr.toNat % 4 = 0 →
      Gives (.wideRead .bar0 addr 4) s (fun t => t.readData = le 4 (s.regRead addr.toNat).toNat)
      ∧ ∀ n, sramAt (addr.toNat + 4) = none → addr.toNat + 4 < 4294967296 → s.qmg.blkIrq = 0 →
        Gives (.wideRead .bar0 addr (4 + n)) s (fun t => ∃ u, exec (.wideRead .bar0 addr 4) s = .next u
          ∧ Gives (.wideRead .bar0 (addr + 4) n) u (fun v => t.readData = u.readData ++ v.readData
            ∧ t.slices = v.slices ∧ t.queues = v.queues ∧ t.tbm = v.tbm ∧ t.trk = v.trk ∧ t.mod = v.mod
            ∧ t.errm = v.errm ∧ t.tap = v.tap))))

/-- R7, R46: a write of an aligned word lands in the SRAM of an IDLE slice, and a read returns it; outside IDLE and the host
regions a write is an access error; a read of another size or alignment returns 0 and is an access error. -/
def Obligations.SramWindow : Prop :=
  ∀ (c : Fin 4) (addr : Word) (off size : Nat) (v : DWord) (s : State),
    addr.toNat = 0x1000000 * (c.val + 1) + 0x400000 + off → off < 0xC00000 → (s.sl c).ctl.state.served = true →
    let ok := (size = 4 ∧ off % 4 = 0) ∨ (size = 8 ∧ off % 8 = 0)
    let error (s : State) : State := { s.modSl c (fun x => { x with err := { x.err with
      access := min (x.err.access + 1) 0xFFFF, events := x.err.events ||| 0x80,
      addr := some (x.err.addr.getD addr) } }) with tap := { s.tap with bridge := 1 } }
    (ok → (s.sl c).ctl.state = .idle → (s.sl c).err.badWords = [] →
      let read (s : State) : State := { s with
        readData := (List.range size).map (fun i => memGet (s.sl c).sram (off + i)), tap := { s.tap with bridge := 1 } }
      Does (.sramWindowAccess false addr size v) s read ∧ Does (.wideRead .bar0 addr size) s read)
    ∧ (ok → (s.sl c).ctl.state = .idle → (s.sl c).err.inject = none → SramWf s →
      Gives (.sramWindowAccess true addr size v) s (fun t =>
        (∀ i, i < size → memGet (t.sl c).sram (off + i) = (le size v.toNat).getD i 0)
        ∧ (∀ a, (a < off ∨ off + size ≤ a) → memGet (t.sl c).sram a = memGet (s.sl c).sram a)
        ∧ t.sl c = { s.sl c with sram := (t.sl c).sram, err := { (s.sl c).err with badWords :=
            ((s.sl c).err.badWords.filter (fun w => !(decide (off % 8 = 0) && w == off))) } }
        ∧ OtherSlices c s t ∧ t.queues = s.queues ∧ t.readData = s.readData ∧ t.errm = s.errm))
    ∧ (ok → (s.sl c).ctl.state ≠ .idle → (s.sl c).inRegion off size = false →
      Does (.sramWindowAccess true addr size v) s error)
    ∧ (¬ok → Does (.sramWindowAccess true addr size v) s error
      ∧ Does (.sramWindowAccess false addr size v) s (fun s => { error s with readData := List.replicate size 0 })
      ∧ Does (.wideRead .bar0 addr size) s (fun s => { error s with readData := List.replicate size 0 }))

/-! ### Cartridges, power and the start of a slice -/

/-- R2, R371, R395: what a cartridge brings when it is inserted, when it is identified, and when the host asks for its
power. -/
def Obligations.BayGetsCartridge : Prop :=
  ∀ (c : Fin 4) (k : Cartridge) (s : State),
    let ask (s : State) : State := { s with pwr := { s.pwr with
      want := vmod s.pwr.want (2 + c.val) (fun _ => 46), rxAsk := vmod s.pwr.rxAsk c.val (fun _ => .base) } }
    let change (s : State) : State := { s with mod := { s.mod with events := s.mod.events ||| 8 } }
    ((s.sl c).cart = none → s.mod.ready = true → k.part = 0x7464 →
      Does (.cartridgeInserted c k) s (fun s => change (ask (s.modSl c (fun x => { x with
        cart := some k, ctl := { x.ctl with present := true, part := k.part.toNat, issue := k.issue.toNat } })))))
    ∧ ((s.sl c).cart = none → s.mod.ready = true → k.part ≠ 0x7464 →
      Does (.cartridgeInserted c k) s (fun s => change ((s.modSl c (fun x => { x with
        cart := some k, ctl := { x.ctl with
          present := true, part := k.part.toNat, issue := k.issue.toNat, state := .held } })).fault
        { status := 0x02, event := 0x16, level := 2, action := 8, block := 0x44, detail := k.part.toNat,
          slice := c.val })))
    ∧ ((s.sl c).cart = none → s.mod.ready = false →
      Does (.cartridgeInserted c k) s (fun s => change (s.modSl c (fun x => { x with
        cart := some k, ctl := { x.ctl with present := true, state := .reset } }))))
    ∧ ((s.sl c).cart = some k → k.part = 0x7464 → s.mod.ready = true → (s.sl c).ctl.state = .reset →
      (s.sl c).ctl.feedOn = false → vget s.pwr.rxAsk c.val .none = .none →
      Does (.bayIdentify c) s (fun s => ask (s.modSl c (fun x => { x with
        ctl := { x.ctl with part := k.part.toNat, issue := k.issue.toNat } }))))
    ∧ (s.mod.ready = true → s.mod.swapping = none → (s.sl c).ctl.state = .held → (s.sl c).ctl.part = 0x7464 →
      (s.sl c).ctl.onReq = false →
      Does (.onReq c) s (fun s => ask (s.modSl c (fun x => { x with ctl := { x.ctl with onReq := true } }))))

/-- R35, R371, R394: what a bay is left with when its cartridge is removed, when the host powers it down, and when the
drain of its queues ends. -/
def Obligations.BayLosesCartridge : Prop :=
  ∀ (c : Fin 4) (s : State),
    let released (t : State) : Prop := ∀ i, (i = 2 + c.val ∨ i = 10 + c.val ∨ i = 14 + c.val) →
      vget t.pwr.want i 0 = 0 ∧ vget t.pwr.rel i 0 = vget s.pwr.held i 0
    ((s.sl c).cart ≠ none → Gives (.cartridgeRemoved c) s (fun t =>
      (t.sl c).ctl.state = .absent ∧ (t.sl c).cart = none ∧ (t.sl c).ctl.present = false ∧ (t.sl c).ctl.part = 0
        ∧ (t.sl c).ctl.issue = 0 ∧ (t.sl c).ctl.feedOn = false ∧ (t.sl c).sram = [] ∧ released t
        ∧ t.mod.events = s.mod.events ||| 8 ∧ t.tap = s.tap ∧ t.fea = s.fea ∧ t.calStore = s.calStore))
    ∧ (s.mod.ready = true → s.mod.swapping = none → (s.sl c).ctl.feedOn = true → (s.sl c).ctl.offReq = false →
      (s.sl c).tx.resetAfter = none → (s.sl c).tx.cmd = none → Gives (.offReq c) s (fun t =>
        (t.sl c).ctl.state = .reset ∧ (t.sl c).ctl.offReq = true ∧ (t.sl c).ctl.offAt = s.real
          ∧ (t.sl c).ctl.lastReset = (s.sl c).ctl.lastReset ∧ (t.sl c).cart = (s.sl c).cart ∧ (t.sl c).sram = []))
    ∧ ((s.sl c).ctl.offReq = true → (s.sl c).ctl.state = .reset →
      (s.draining c = false ∨ (s.sl c).ctl.offAt + 100 * 1024000 ≤ s.real) → Gives (.offDrainEnd c) s (fun t =>
        (t.sl c).ctl.state = .held ∧ (t.sl c).ctl.feedOn = false ∧ (t.sl c).ctl.offReq = false
          ∧ (t.sl c).cart = (s.sl c).cart ∧ (t.sl c).sram = [] ∧ released t ∧ t.mod.events = s.mod.events ||| 8))

/-- R35, R84, R127, R402: the self-test and the start-up calibrations end. -/
def Obligations.SliceStarts : Prop :=
  ∀ (c : Fin 4) (s : State),
    (∀ (bad : List Nat) (ecc : Option Bool), (s.sl c).ctl.state = .reset → (s.sl c).ctl.feedOn = true → (s.sl c).ctl.offReq = false →
      let pages := bad.eraseDups.filter (fun p => decide (p < 3072))
      ((∀ b, b < 16 → (pages.filter (fun p => p % 16 == b)).length ≤ 4) →
        Gives (.selfTestComplete c bad false ecc) s (fun t =>
          (t.sl c).ctl.state = .calibrating ∧ (t.sl c).ctl.resetReq = false ∧ (t.sl c).clk.lock = true
            ∧ (t.sl c).err.retired = pages
            ∧ (∀ b, b < 16 → vget (t.sl c).err.spares b 0 = 4 - (pages.filter (fun p => p % 16 == b)).length)
            ∧ OtherSlices c s t ∧ (t.sl c).sram = (s.sl c).sram))
      ∧ Gives (.selfTestComplete c bad true ecc) s (fun t => (t.sl c).ctl.state = .faulted ∧ (t.sl c).sram = (s.sl c).sram))
    ∧ (∀ (results : List CalOutcome) (ecc : Option Bool), (s.sl c).ctl.state = .calibrating → (s.sl c).shadow.reload = none →
      (s.sl c).clk.coast = false → vget s.pwr.want (14 + c.val) 0 = 0 →
      let kinds := (s.calRecOf c).kinds
      let all := if kinds.contains 2 && !(s.sl c).afe.searching then
        results.filter (fun o => o.kind != 2) ++ [calRefused s.tb] else results
      let boots := (s.sl c).shadow.boot ≠ none ∧ ecc ≠ some false
      (calComplete kinds (s.sl c).afe.calLosses all = false → Does (.startupCalibrationDone c results ecc) s id)
      ∧ (calComplete kinds (s.sl c).afe.calLosses all = true →
        (¬boots → (s.sl c).shadow.active = none → Gives (.startupCalibrationDone c results ecc) s (fun t =>
          (t.sl c).ctl.state = .idle ∧ (t.sl c).afe.searching = false ∧ (t.sl c).afe.calHeld = []
            ∧ vget t.pwr.rel (14 + c.val) 0 = vget s.pwr.held (14 + c.val) 0))
        ∧ ((boots ∨ (s.sl c).shadow.active ≠ none) → Gives (.startupCalibrationDone c results ecc) s (fun t =>
          (t.sl c).ctl.state = .calibrating ∧ (t.sl c).afe.searching = false
            ∧ (t.sl c).shadow.reload = some (alignUp 1048576 (s.tb + 65536))))))

/-- R21, R38: what a slice reset clears, what survives it, and that the other slices do not change, but for the control of
their clocks where TBM loses a source (R95, R103). -/
def Obligations.SliceResetClears : Prop :=
  ∀ (c : Fin 4) (s : State),
    let k := (s.sl c).ctl
    ((k.state = .calibrating ∨ k.state = .idle ∨ k.state = .running ∨ k.state = .faulted) → k.resetReq = false →
      (s.sl c).tx.resetAfter = none → (s.sl c).tx.cmd = none → (s.sl c).shadow.bad = false →
      Gives (.sliceReset c) s (fun t =>
        (t.sl c).ctl.state = .reset ∧ (t.sl c).ctl.lastReset = 2 ∧ (t.sl c).ctl.resetReq = true ∧ (t.sl c).sram = []
          ∧ (t.sl c).inst = Vector.replicate 48 Inst.reset ∧ (t.sl c).tx.state = .disabled
          ∧ (t.sl c).shadow.active = (s.sl c).shadow.active ∧ (t.sl c).mac.slots = (s.sl c).mac.slots
          ∧ (t.sl c).cart = (s.sl c).cart
          ∧ ∀ d, d ≠ c → t.sl d = { s.sl d with clk := (t.sl d).clk }))
    ∧ (k.state = .reset → k.offReq = false →
      Does (.sliceReset c) s (fun s => s.modSl c (fun x => { x with ctl := { x.ctl with resetReq := true } })))
    ∧ ((k.state = .absent ∨ k.state = .held) → Does (.sliceReset c) s id)

/-! ### Errors and the background -/

/-- R19, R402: the isolation of a cell and the retirement of an SRAM page. -/
def Obligations.CellAndPageErrors : Prop :=
  ∀ (c : Fin 4) (s : State),
    (∀ n : Fin 48, (s.sl c).running3 = true → (s.sl c).err.isolated.contains n.val = false → (s.sl c).err.cellErrs = [] →
      Gives (.cellParity c (.demod n)) s (fun t =>
        (t.sl c).err.isolated = (s.sl c).err.isolated ++ [n.val]
          ∧ (t.sl c).shadow.spare.contains n.val = false
          ∧ (t.sl c).err.memCnt = min ((s.sl c).err.memCnt + 1) 0xFFFF ∧ (t.sl c).err.events = (s.sl c).err.events ||| 2
          ∧ (t.sl c).ctl.state = (s.sl c).ctl.state))
    ∧ (∀ (off : BitVec 24) (o : PageOwner) (host : Option Nat), (s.sl c).ctl.state.served = true → off.toNat < 0xC00000 →
      (o = .host ∨ o = .nobody) → 0 < vget (s.sl c).err.spares (off.toNat / 4096 % 16) 0 →
      (s.sl c).err.cellErrs = [] →
      let p := off.toNat / 4096
      Gives (.sramParity c off o host) s (fun t =>
        (t.sl c).err.retired.contains p = true
          ∧ vget (t.sl c).err.spares (p % 16) 0 = vget (s.sl c).err.spares (p % 16) 0 - 1
          ∧ (∀ a, memGet (t.sl c).sram a = if a / 4096 = p then 0 else memGet (s.sl c).sram a)
          ∧ (t.sl c).err.memCnt = min ((s.sl c).err.memCnt + 1) 0xFFFF ∧ (t.sl c).err.events = (s.sl c).err.events ||| 1
          ∧ (t.sl c).ctl = (s.sl c).ctl ∧ OtherSlices c s t))

/-- R20, R204, R399, R400: a block-level error resets its block, and a block reset that does not end escalates to the
slice. -/
def Obligations.BlockErrors : Prop :=
  ∀ (c : Fin 4) (s : State),
    ((s.sl c).running3 = true → (s.sl c).ctl.state ≠ .running → (s.sl c).shadow.bad = false →
      (s.sl c).err.blockErrs = [] →
      (∀ d : Fin 2, Gives (.trellisParity c d) s (fun t =>
        (t.sl c).err.blockResets = min ((s.sl c).err.blockResets + 1) 0xFF
          ∧ (t.sl c).err.memCnt = min ((s.sl c).err.memCnt + 1) 0xFFFF
          ∧ (t.sl c).err.blockErrs = [(0x0A, s.tb)] ∧ (t.sl c).ctl = (s.sl c).ctl ∧ (t.sl c).sram = (s.sl c).sram
          ∧ t.errm.made = min (s.errm.made + 1) 0xFFFF))
      ∧ ((s.sl c).err.busErrs = [] → ∀ (a : Word) (n : Nat) (w lo hi : Bool),
        Gives (.busParity c 0 w a lo hi n) s (fun t =>
        (t.sl c).err.busCnt = min ((s.sl c).err.busCnt + 1) 0xFFFF ∧ (t.sl c).err.busErrs = [s.tb]
          ∧ (t.sl c).err.blockResets = min ((s.sl c).err.blockResets + 1) 0xFF
          ∧ (t.sl c).err.blockErrs = [(0x02, s.tb)] ∧ (t.sl c).ctl = (s.sl c).ctl ∧ (t.sl c).sram = (s.sl c).sram)))
    ∧ (∀ b began, (s.sl c).running3 = true → (s.sl c).err.resetting = [(blockCode b, began)] → began + 10 * 1024 ≤ s.real →
      (s.sl c).ctl.escTimes = [] → (s.sl c).tx.cmd = none → Gives (.blockResetTimeout c b) s (fun t =>
        (t.sl c).ctl.state = .reset ∧ (t.sl c).ctl.lastReset = 3 ∧ (t.sl c).ctl.escTimes = [s.tb] ∧ (t.sl c).sram = []
          ∧ (t.sl c).err.sliceResets = min ((s.sl c).err.sliceResets + 1) 0xFF))

/-- R42, R244, R405, R406, R418: the checks in the background and error injection. -/
def Obligations.BackgroundChecks : Prop :=
  ∀ (c : Fin 4) (s : State), (s.sl c).ctl.state.served = true →
    (let k := (s.sl c).ctl
     let w := s.tb / 4096
     let g := if w = k.bgWindow then k.bgGrants else Vector.replicate 16 0
     let bank := k.scrubNext * 8 / 4096 % 16
     let word := 8 * k.scrubNext
     let took (x : Slice) : Slice := { x with
       ctl := { x.ctl with
         bgWindow := w, bgGrants := vmod g bank (fun n => n + 1),
         scrubNext := if x.err.busRetry then x.ctl.scrubNext
           else if x.ctl.scrubNext < 1572863 then x.ctl.scrubNext + 1 else 0,
         scrubPasses := if x.err.busRetry ∨ x.ctl.scrubNext < 1572863 then x.ctl.scrubPasses
           else (x.ctl.scrubPasses + 1) % 65536 },
       err := { x.err with busRetry := false } }
     (bit k.bgCfg 0 = false → Does (.scrubAccess c) s id)
     ∧ (bit k.bgCfg 0 = true →
       (vget g bank 0 < 30 → (s.sl c).err.badWords.contains word = false →
         Does (.scrubAccess c) s (fun s => s.modSl c took))
       ∧ (vget g bank 0 < 30 → (s.sl c).err.badWords.contains word = true → (s.sl c).err.cellErrs = [] →
         0 < vget (s.sl c).err.spares bank 0 →
         ((s.sl c).pageOwner word = .host ∨ (s.sl c).pageOwner word = .nobody) → Gives (.scrubAccess c) s (fun t =>
           (t.sl c).ctl = (took (s.sl c)).ctl ∧ (t.sl c).err.retired.contains (word / 4096) = true
           ∧ vget (t.sl c).err.spares bank 0 = vget (s.sl c).err.spares bank 0 - 1
           ∧ (t.sl c).err.memCnt = min ((s.sl c).err.memCnt + 1) 0xFFFF ∧ OtherSlices c s t))
       ∧ (30 ≤ vget g bank 0 → Does (.scrubAccess c) s (fun s => s.modSl c (fun x => { x with ctl := { x.ctl with
         bgWindow := w, bgGrants := g, capHit := true } })))))
    ∧ (let lost (f : Forme) (s : State) : State := (s.modSl c (fun x => { x with
         shadow := { x.shadow with bad := true, lostCrc := some f.crc },
         err := { x.err with events := x.err.events ||| 0x20 } })).fault
         { status := 0x30, event := 0x06, level := 1, action := 0, block := 0x42, detail := 0, slice := c.val }
       (∀ f, (s.sl c).shadow.active = some f → (s.sl c).shadow.bad = false →
         Does (.shadowCheck c true false) s (lost f)
         ∧ ((s.sl c).shadow.area = .empty → Does (.shadowCheck c true true) s (lost f)))
       ∧ (∀ f base, (s.sl c).shadow.area = .staged f base →
         Does (.shadowCheck c false true) s (fun s => (s.modSl c (fun x => { x with
           shadow := { x.shadow with area := .empty }, err := { x.err with events := x.err.events ||| 0x20 } })).fault
           { status := 0x30, event := 0x06, level := 1, action := 0, block := 0x42, detail := 1, slice := c.val }))
       ∧ Does (.shadowCheck c false false) s id)
    ∧ (∀ upset : List (Fin 32 × Fin 2 × Nat × BitVec 20),
      let u := upset.foldl (fun t p => t.coefUpset c p.1 p.2.1 p.2.2.1 p.2.2.2) s
      ((∀ t b, t < 32 → b < 2 → (u.sl c).coefWrong t b = false) → Does (.coefCrcCheck c upset) s (fun s =>
        upset.foldl (fun t p => t.coefUpset c p.1 p.2.1 p.2.2.1 p.2.2.2) s))
      ∧ ∀ (t : Fin 32) (b : Fin 2), (∀ n m, n < 32 → m < 2 → (u.sl c).coefWrong n m = decide (n = t.val ∧ m = b.val)) →
        (((s.sl c).tunAt t.val).bankUsed (b.val == 1) = false → Gives (.coefCrcCheck c upset) s (fun v =>
          (vget ((v.sl c).tunAt t.val).coef b.val [1]).all (fun w => w == 0) = true
            ∧ (v.sl c).err.events = (s.sl c).err.events ||| 0x40 ∧ ((v.sl c).tunAt t.val).faulted = false))
        ∧ (((s.sl c).tunAt t.val).bankUsed (b.val == 1) = true → Gives (.coefCrcCheck c upset) s (fun v =>
          ((v.sl c).tunAt t.val).faulted = true ∧ (v.sl c).err.events = (s.sl c).err.events ||| 0x40)))
    ∧ (∀ upset : List (Fin 64 × Fin 48 × Byte),
      let after (x : Slice) : Slice := upset.foldl (fun x u => x.modSlot u.1.val (fun w => slotUpset w u.2.1 u.2.2)) x
      ((∀ j, j < 64 → slotGood ((after (s.sl c)).slotAt j) = true) →
        Does (.slotCheck c upset) s (fun s => s.modSl c after))
      ∧ ∀ k : Fin 64, (∀ j, j < 64 → slotGood ((after (s.sl c)).slotAt j) = decide (j ≠ k.val)) →
        Gives (.slotCheck c upset) s (fun u => ((u.sl c).slotAt k.val).state = .empty
          ∧ ((u.sl c).slotAt k.val).eraseCause = 3 ∧ (u.sl c).mac.events.toNat.testBit 1 = true
          ∧ ∀ j, j ≠ k.val → ((u.sl c).slotAt j) = (after (s.sl c)).slotAt j))
    ∧ (∀ v : Word, bit v 0 = true → 8 * bf v 3 21 < 0xC00000 → Does (.errorInject c v) s (fun s => s.modSl c (fun x =>
        { x with err := { x.err with inject := some (8 * bf v 3 21) } })))
    ∧ (∀ temps : List Int, (s.mod.ready = false → Does (.telemetryTick temps) s id) ∧ (s.mod.ready = true →
      Gives (.telemetryTick temps) s (fun t => ∀ d,
        (t.sl d).trl.loadPm = min 2047 (((s.sl d).trl.loadNow + 1599) / 1600) ∧ (t.sl d).trl.loadNow = 0
        ∧ (t.sl d).mac.loadPm = min 2047 (((s.sl d).mac.busy + 25599) / 25600) ∧ (t.sl d).mac.busy = 0
        ∧ (t.sl d).ctl = (s.sl d).ctl ∧ (t.sl d).sram = (s.sl d).sram)
      ∧ (s.mod.swapping = none → (∀ d, (s.sl d).up = false) → Does (.telemetryTick temps) s (fun s =>
        let u := s.modSlices (fun _ x => { x with trl := x.trl.tick, mac := x.mac.tick })
        u.stage 5 (u.mkRec 0x61 0xFF 0xFF 0xFFFF 0 u.tb false (telePayload (u.moduleEntries temps)))))))

/-! ### Formes -/

/-- R71, R72: chunks of a forme, and the end of a loading that stands still. -/
def Obligations.FormeChunks : Prop :=
  ∀ (c : Fin 4) (s : State),
    (∀ cmd, s.inHand (localQ c 52) 0x20 = some cmd → (s.sl c).up = true →
      let off := u32 cmd.body 0
      let n := u32 cmd.body 4
      n % 4 = 0 → 4 ≤ n → n ≤ 4096 →
      ((s.sl c).shadow.area = .empty → off = 0 → n < 48 →
        Does (.formeSetChunk c) s (fun s => (s.modSl c (fun x => { x with shadow := { x.shadow with
          area := .loading (slice cmd.body 8 n) s.real, timedOut := false } })).finish cmd 0x00 []))
      ∧ (∀ b last, (s.sl c).shadow.area = .loading b last → off ≠ 0 → off ≠ b.length →
        Does (.formeSetChunk c) s (fun s => s.finish cmd 0x03 []))
      ∧ (∀ f base, (s.sl c).shadow.area = .staged f base →
        Does (.formeSetChunk c) s (fun s => s.finish cmd 0x02 [])))
    ∧ (∀ b last, (s.sl c).shadow.area = .loading b last → last + 10240000000 ≤ s.real →
      Does (.stagingTimeout c) s (fun s => (s.modSl c (fun x => { x with shadow := { x.shadow with
        area := .empty, timedOut := true } })).fault
        { status := 0x06, event := 0x15, level := 1, action := 0, block := 0x42, detail := b.length, slice := c.val }))

/-- R70 to R73: the lock-up of a staged forme, its discard, and the query. -/
def Obligations.FormeLockupAndQuery : Prop :=
  ∀ (c : Fin 4) (s : State), (s.sl c).up = true →
    (∀ cmd f base, s.inHand (localQ c 52) 0x21 = some cmd → (s.sl c).shadow.area = .staged f base →
      u8 cmd.body 0 = 0 → u32 cmd.body 4 = f.crc.toNat →
      let at_ := alignUp 1048576 (s.tb + 65536)
      (f.rxAsk ≤ s.holds (2 + c.val) → Does (.formeLockup c) s (fun s => (s.keep cmd).modSl c (fun x => { x with
        shadow := { x.shadow with area := .pending f base at_ (some cmd.ref) } })))
      ∧ (s.holds (2 + c.val) < f.rxAsk → Gives (.formeLockup c) s (fun t =>
        (t.sl c).shadow.area = .asking f base at_ (some cmd.ref) ∧ vget t.pwr.rxAsk c.val .none = .lockup
          ∧ vget t.pwr.want (2 + c.val) 0 = f.rxAsk - s.holds (2 + c.val) ∧ (t.sl c).ctl = (s.sl c).ctl)))
    ∧ (∀ cmd f base, s.inHand (localQ c 52) 0x22 = some cmd → (s.sl c).shadow.area = .staged f base →
      Does (.formeDiscard c) s (fun s => (s.modSl c (fun x => { x with shadow := { x.shadow with
        area := .empty } })).finish cmd 0x00 []))
    ∧ (∀ cmd f, s.inHand (localQ c 52) 0x23 = some cmd → (s.sl c).shadow.active = some f →
      (s.sl c).shadow.area = .empty →
      Does (.formeQuery c) s (fun s => s.finish cmd 0x00
        (le 4 0 ++ le 4 f.crc.toNat ++ le 4 f.generation.toNat ++ le 4 0 ++ le 8 0 ++ padTo 16 f.name
          ++ (s.sl c).shadow.cellBase.toList.map (fun b => BitVec.ofNat 8 (b.getD 0xFF)))))

/-- R69, R72, R74: a pending lock-up takes effect whole, or not at all. -/
def Obligations.LockupTakesEffect : Prop :=
  ∀ (c : Fin 4) (s : State) f base at_ cmd, (s.sl c).shadow.area = .pending f base at_ cmd → (s.sl c).up = true →
    at_ ≤ s.tb → (s.sl c).clk.coast = false → s.lockBefore c at_ = false →
    (∀ places, s.lockCheck c f base = none → placeCells f (s.sl c).err.isolated = some places →
      Gives (.lockupInstant c) s (fun t => (t.sl c).ctl.state = .running ∧ (t.sl c).shadow.active = some f
        ∧ (t.sl c).shadow.area = .empty ∧ (t.sl c).shadow.bad = false ∧ (t.sl c).shadow.reload = none
        ∧ (t.sl c).sram = (s.sl c).sram))
    ∧ (s.lockCheck c f base ≠ none → Gives (.lockupInstant c) s (fun t =>
        (t.sl c).shadow = { (s.sl c).shadow with area := .staged f base } ∧ (t.sl c).ctl = (s.sl c).ctl
          ∧ (t.sl c).sram = (s.sl c).sram ∧ OtherSlices c s t))

/-- R71, R83, R85, R86: the forme library. -/
def Obligations.LibraryCommands : Prop :=
  ∀ (cmd : Command) (s : State),
    let b := cmd.body
    (s.inHand 12 0x28 = some cmd → ∀ f, u8 b 0 < 4 → u8 b 1 = 0 → u8 b 2 < 64 →
      (s.sl (Fin.ofNat 4 (u8 b 0))).mergeBase = some f → s.libraryBytes (u8 b 2) + f.bytes.length ≤ 4194304 →
      s.flashUsed + flashKib f.bytes.length ≤ bf s.fls.limit 0 16 →
      Gives .libStore s (fun t => t.fls.jobs = s.fls.jobs ++ [.libStore cmd.ref (Fin.ofNat 64 (u8 b 2)) f.bytes]
        ∧ t.fls.library = s.fls.library ∧ cmd.ref ∈ (t.qu cmd.queue).outstanding ∧ t.slices = s.slices))
    ∧ (s.inHand 12 0x2A = some cmd → u8 b 0 < 64 → s.flashUsed + 4 ≤ bf s.fls.limit 0 16 →
      Gives .libErase s (fun t => t.fls.jobs = s.fls.jobs ++ [.libErase cmd.ref (Fin.ofNat 64 (u8 b 0))]
        ∧ t.fls.library = s.fls.library ∧ cmd.ref ∈ (t.qu cmd.queue).outstanding ∧ t.slices = s.slices))
    ∧ (s.inHand 12 0x29 = some cmd → ∀ (c : Fin 4) e f base, u8 b 0 < 64 → u8 b 1 = c.val →
      s.fls.entry (u8 b 0) = some e → (s.sl c).up = true → (s.sl c).shadow.area = .empty →
      parseForme e.forme (s.sl c).mergeBase = .ok (f, base) → checkForme f (s.checkEnv c) = none →
      let staged (s : State) : State := (s.modSl c (fun x => { x with shadow := { x.shadow with
        area := .staged f base, timedOut := false } })).finish cmd 0x00 (le 4 f.crc.toNat)
      Does (.libLoad none) s staged
      ∧ Does (.libLoad (some true)) s (fun s => staged { s with fls := { s.fls with
          corrected := min (s.fls.corrected + 1) 0xFFFF } })
      ∧ Gives (.libLoad (some false)) s (fun t => t.slices = s.slices ∧ (t.qu cmd.queue).inHand = none
          ∧ t.fls.uncorrected = min (s.fls.uncorrected + 1) 0xFFFF))
    ∧ (s.inHand 12 0x2B = some cmd → u8 b 0 < 4 →
      (u8 b 1 = 0xFF ∨ (u8 b 1 < 64 ∧ s.fls.entry (u8 b 1) ≠ none)) →
      Gives .libBoot s (fun t => ∀ i, i < 64 → ∀ e, t.fls.entry i = some e →
        e.boot.toNat.testBit (u8 b 0) = decide (i = u8 b 1)
          ∧ ∃ o, s.fls.entry i = some o ∧ e.forme = o.forme
            ∧ ∀ d, d < 4 → d ≠ u8 b 0 → e.boot.toNat.testBit d = o.boot.toNat.testBit d))
    ∧ (s.inHand 12 0x2C = some cmd → Does .libList s (fun s =>
        s.finish cmd 0x00 (s.fls.library.toList.flatMap libLine))
      ∧ (libLine none).length = 32 ∧ ∀ e : LibEntry, 40 ≤ e.forme.length → (libLine (some e)).length = 32)

/-! ### Clocks and the timebase -/

/-- R92, R93, R95, R96, R98: a TB epoch, and the loss of a source. -/
def Obligations.EpochAndSources : Prop :=
  ∀ s : State,
    (∀ e0 e1 e2 e3 : Int, s.tb % 1048576 = 0 → s.tbm.hold = none → Gives (.tbEpoch e0 e1 e2 e3) s (fun t =>
      t.tbm.timing = allSlices.find? (fun c => (s.sl c).timingOk)
      ∧ ∀ c, (s.sl c).ctl.state.served = true →
        ((s.sl c).clk.lock = false → (t.sl c).clk.phaseErr = 0)
        ∧ ((s.sl c).clk.lock = true →
          (t.sl c).clk.phaseErr = max (-2147483648) (min 2147483647 (([e0, e1, e2, e3] : List Int).getD c.val 0))
          ∧ (bit (s.sl c).clk.cfg 0 = true → t.tbm.timing ≠ some c → (t.sl c).clk.ctrl = bf (s.sl c).clk.cfg 8 16))))
    ∧ (let holdover (r : Nat) (t : State) : Prop := t.tbm.qualified r = false ∧ t.tbm.state = .holdover
        ∧ t.tbm.lost = r ∧ t.tbm.source = 0 ∧ t.tbm.holdSince = s.real ∧ t.tbm.events.toNat.testBit 1 = true
        ∧ t.tbm.tb = s.tbm.tb
      s.tbm.state = .locked → s.tbm.qualified s.tbm.source = true →
      (∀ r, 1 ≤ r → r ≤ 4 → r ≠ s.tbm.source → s.tbm.qualified r = false) →
      (s.tbm.source = 1 → Gives .refinLost s (holdover 1))
      ∧ (s.tbm.source = 1 → s.tbm.ppsExpect ≠ none → s.tbm.ppsLast + 2048000000 ≤ s.real →
        Gives .ppsLost s (fun t => holdover 1 t ∧ t.tbm.ppsExpect = none ∧ t.tbm.events.toNat.testBit 4 = true))
      ∧ (s.tbm.source = 2 → (s.trk.upPort = none ∨ s.trk.timeReal + 256000000 ≤ s.real) → Gives .trunkTimeLost s (holdover 2)))
    ∧ (s.tbm.state = .holdover → s.tbm.holdSince + 3600 * 1024000000 * bf s.tbm.holdoverCfg 0 8 ≤ s.real →
      Does .holdoverEnd s (fun s => { s with tbm := { s.tbm with
        state := .freerun, lost := 0, events := s.tbm.events ||| 4 } }))

/-- R93 to R95, R109, R110: edges of PPS_IN, the choice of a source, CFG and TOD_SET. -/
def Obligations.TimeSelection : Prop :=
  ∀ s : State,
    (∀ good : Bool,
      let near := ∃ x, s.tbm.ppsExpect = some x ∧ x ≤ s.real + 102400 ∧ (ppsOffset ((s.real : Int) - x)).natAbs ≤ 102400
      (s.tbm.qualified 1 = true → ¬near → Does (.ppsEdge good) s (fun s => { s with tbm := { s.tbm with
        ppsIgnored := min (s.tbm.ppsIgnored + 1) 0xFFFF, events := s.tbm.events ||| 8 } }))
      ∧ ((s.tbm.qualified 1 = false ∨ near) → s.tbm.origin = true → s.tbm.tod = none → Gives (.ppsEdge good) s (fun t =>
        t.tbm.ppsAccepted = min (s.tbm.ppsAccepted + 1) 0xFFFF ∧ t.tbm.ppsLast = s.real
          ∧ t.tbm.ppsExpect = some (s.real + 1024000000) ∧ vget t.tbm.srcOff 0 0 = ppsOffset s.ppsTb
          ∧ t.tbm.tb = s.tbm.tb)))
    ∧ (∀ r, s.tbm.best = some r → s.tbm.state = .locked → r < s.tbm.source →
      vget s.tbm.since (r - 1) 0 + 1024000000 * bf s.tbm.cfg 16 8 ≤ s.real →
      Gives .switchHoldExpired s (fun t => t.tbm.source = r ∧ t.tbm.state = .locked ∧ t.tbm.tb = s.tbm.tb))
    ∧ (∀ (c : Fin 4) (k : Fin 256), ((s.sl c).ctxAt k.val).offered = true →
      timeRank (cxParser (((s.sl c).find 5 k.val).getD [])) = 4 →
      ((s.sl c).ctxAt k.val).timeReal + 614400000000 ≤ s.real →
      Gives .clockTimeLost s (fun t => ((t.sl c).ctxAt k.val).offered = false ∧ t.tbm.tb = s.tbm.tb))
    ∧ (s.mod.ready = true → s.mod.swapping = none →
      (∀ v : Word, bf v 8 4 = bf s.tbm.cfg 8 4 → bit s.tbm.cfg 12 = true → bf v 4 4 = bf s.tbm.cfg 4 4 →
        Does (.tbmCfgWrite v) s (fun s => { s with tbm := { s.tbm with
          cfg := mkWord [(16, 8, bf v 16 8), (12, 1, 1), (8, 4, bf v 8 4), (4, 4, bf v 4 4), (0, 1, bf v 0 1)],
          replan := s.tbm.replan || bf v 0 1 != bf s.tbm.cfg 0 1 } }))
      ∧ (∀ v : Word, s.tbm.origin = false → s.tbm.step = none → s.ppsPresent = false →
        let value := v.toNat * 4294967296 + s.tbm.todLo.toNat
        (s.tb < value → Gives (.todSet v) s (fun t => t.tbm.tb = s.tbm.tb ∧ t.tbm.step = some
          { point := alignUp 1073741824 (s.tb + 1048576), amount := value - s.tb, kind := 2, source := 0, todSet := true }))
        ∧ (value ≤ s.tb → Does (.todSet v) s (fun s => { s with tbm := { s.tbm with
            events := s.tbm.events ||| 0x80 } }))))

/-- R89, R100, R101: steps and holds of TB. -/
def Obligations.StepsAndHolds : Prop :=
  ∀ s : State,
    (∀ k, s.tbm.step = some k → k.point = s.tb →
      let jumped (t : State) : Prop := t.tbm.tb = k.point + k.amount + 1 ∧ t.real = s.real + 1
        ∧ t.tbm.warps = s.tbm.warps ++ [(k.point, (k.amount : Int))]
      (k.kind ≠ 2 → Gives .tbStep s (fun t => jumped t ∧ t.tbm.origin = s.tbm.origin))
      ∧ (k.kind = 2 → Gives .originChange s (fun t => jumped t ∧ t.tbm.origin = true ∧ t.tbm.originAt = k.point
        ∧ t.tbm.events.toNat.testBit 6 = true)))
    ∧ (s.tbm.holdsAt = some s.tb → 0 < s.tbm.offset →
      let h := min s.tbm.offset.toNat 1048576
      Gives .tbHold s (fun t => t.tbm.tb = s.tbm.tb ∧ t.real = s.real ∧ t.tbm.hold = some { point := s.tb, left := h }
        ∧ t.tbm.offset = s.tbm.offset - h ∧ t.tbm.events.toNat.testBit 5 = true
        ∧ t.tbm.holdsAt = (if s.tbm.offset ≤ 1048576 then none else some (s.tb + 1073741824))))
    ∧ (∀ p, s.tbm.hold = some { point := p, left := 0 } →
      Does .holdEnd s (fun s => { s with tbm := { s.tbm with hold := none } }))

/-- R104 to R106: a slice loses its sampling clock, relocks and re-registers. -/
def Obligations.ClockLossAndReturn : Prop :=
  ∀ (c : Fin 4) (s : State),
    ((s.sl c).timingOk = true → Gives (.mdllLockLoss c) s (fun t =>
      (t.sl c).clk.lock = false ∧ (t.sl c).clk.bypass = true ∧ (t.sl c).clk.coast = true
        ∧ (t.sl c).clk.lockLoss = min ((s.sl c).clk.lockLoss + 1) 0xFFFF ∧ (t.sl c).clk.declared = s.tb
        ∧ (t.sl c).clk.lastLoss = s.tb ∧ (t.sl c).ctl = (s.sl c).ctl ∧ (t.sl c).sram = (s.sl c).sram ∧ t.tbm.tb = s.tbm.tb))
    ∧ ((s.sl c).ctl.state.served = true → (s.sl c).clk.lock = false →
      (∀ ok : Bool, (s.sl c).clk.loadAt = none → (s.sl c).clk.lastAttempt + 10240000 ≤ s.real →
        Does (.relockAttempt c ok) s (fun s => s.modSl c (fun x => { x with clk := { x.clk with
          lastAttempt := s.real,
          relockFail := if ok then x.clk.relockFail else min (x.clk.relockFail + 1) 0xFFFF } })))
      ∧ ((s.sl c).clk.coast = true → Does (.relocked c) s (fun s => s.modSl c (fun x => { x with clk := { x.clk with
          lock := true, loadAt := some (alignUp 1048576 (s.tb + 1)) } }))))
    ∧ (∀ at_, (s.sl c).clk.reregAt = some at_ → at_ ≤ s.tb → (s.sl c).clk.lock = true →
      Gives (.relockRegistration c) s (fun t =>
        (t.sl c).clk.coast = false ∧ (t.sl c).clk.bypass = false ∧ (t.sl c).clk.reregAt = none
        ∧ (t.sl c).clk.suspect = false ∧ (t.sl c).clk.events = (s.sl c).clk.events ||| 2 ∧ (t.sl c).clk.lock = true
        ∧ (t.sl c).sram = (s.sl c).sram))

/-! ### The front end and calibration -/

/-- R117, R118, R120, R122, R123, R136: writes of the front end's registers, in a slice that serves them. -/
def Obligations.GainWrites : Prop :=
  ∀ (c : Fin 4) (v : Word) (s : State), (s.sl c).ctl.state.served = true →
    let a := (s.sl c).afe
    let put (f : Afe → Afe) (s : State) : State := s.modSl c (fun x => { x with afe := f x.afe })
    let step (a : Afe) : Afe := { a with
      gainSteps := min (a.gainSteps + 1) 0xFFFF, disturbed := a.disturbed ++ [(s.tb, s.tb + 33)], quietSince := s.tb,
      windowDirty := true }
    (a.agcMode = some true → Does (.afeGainWrite c v) s (put (fun a => { a with
        gainPend := a.gainPend ++ [(s.tb + 1024, bf v 0 5, bit v 8)] })))
    ∧ (a.agcMode ≠ some true → Does (.afeGainWrite c v) s (put (fun a => { a with events := a.events ||| 0x20 })))
    ∧ (∀ at_ d b rest, a.gainPend = (at_, d, b) :: rest → a.agcMode = some true → at_ ≤ s.tb →
      Does (.gainApply c) s (put (fun a =>
        if a.atten = d ∧ a.lnaByp = b then { a with gainPend := rest }
        else ({ (step a) with gainPend := rest, atten := d, lnaByp := b } : Afe).regain s.tb)))
    ∧ ((1 ≤ bf v 16 8 ∧ 1 ≤ bf v 12 4 ∧ 1 ≤ bf v 8 4 ∧ 6 ≤ bf v 0 6 ∧ bf v 0 6 ≤ 40) →
      let w := mkWord [(31, 1, bf v 31 1), (16, 8, bf v 16 8), (12, 4, bf v 12 4), (8, 4, bf v 8 4), (0, 6, bf v 0 6)]
      Does (.agcCfgWrite c v) s (put (fun a =>
        if bit a.agcCfg 31 = true ∧ bit v 31 = false then { a with agcCfg := w, acquire := true, quietSince := s.tb }
        else { a with agcCfg := w })))
    ∧ ((bf v 16 8 = 0 ∨ bf v 12 4 = 0 ∨ bf v 8 4 = 0 ∨ bf v 0 6 < 6 ∨ 40 < bf v 0 6) →
      Does (.agcCfgWrite c v) s (put (fun a => { a with events := a.events ||| 0x40 })))
    ∧ ((a.preselected = false ∨ a.band ≤ 1) → Does (.tunerWrite c v) s (put (fun a =>
        { (step a) with tuner := v &&& 0x3FFFF, tunerNow := v &&& 0x3FFFF })))
    ∧ ((a.preselected = true ∧ 1 < a.band) → Does (.tunerWrite c v) s (put (fun a =>
        { a with tuner := v &&& 0x3FFFF })))

/-- R121, R122: the rules of the AGC. -/
def Obligations.AgcRules : Prop :=
  ∀ (c : Fin 4) (s : State), (s.sl c).ctl.state = .running → (s.sl c).afe.agcMode = some false →
    let a := (s.sl c).afe
    let limit (d : Int) : Nat := (max (a.minAtten : Int) (min a.maxAtten d)).toNat
    (∀ p : BitVec 16, (s.sl c).clk.coast = false → a.windowStart + 102400 ≤ s.tb →
      let stop := a.windowStart + 102400
      let seen (a : Afe) : Afe := { a with powerCb := p.toNat, windowDirty := false, windowStart := stop }
      let clean := a.windowSpoilt stop = false
      let quiet := if 10 * (a.target + a.hyst) < p.toNat then a.quietSince else stop
      (a.windowSpoilt stop = true → Does (.agcWindowEnd c p) s (fun s => s.modSl c (fun x => { x with afe := seen x.afe })))
      ∧ (clean → (s.sl c).agcHeld = true → Does (.agcWindowEnd c p) s (fun s => s.modSl c (fun x => { x with
          afe := { (seen x.afe) with quietSince := quiet } })))
      ∧ (clean → (s.sl c).agcHeld = false → a.acquire = true → Gives (.agcWindowEnd c p) s (fun t =>
          (t.sl c).afe.acquire = false ∧ (t.sl c).afe.powerCb = p.toNat ∧ (t.sl c).tun = (s.sl c).tun ∧ OtherSlices c s t))
      ∧ (clean → (s.sl c).agcHeld = false → a.acquire = false → 10 * ((a.target : Int) - a.hyst) ≤ p.toNat →
          Does (.agcWindowEnd c p) s (fun s => s.modSl c (fun x => { x with
            afe := { (seen x.afe) with quietSince := quiet } })))
      ∧ (clean → (s.sl c).agcHeld = false → a.acquire = false → (p.toNat : Int) < 10 * ((a.target : Int) - a.hyst) →
        a.atten < a.maxAtten → Gives (.agcWindowEnd c p) s (fun t =>
          (t.sl c).afe.atten = limit (a.atten + (10 * (a.target : Int) - p.toNat + 9) / 10)
            ∧ (t.sl c).afe.lnaByp = a.lnaByp ∧ (t.sl c).afe.powerCb = p.toNat ∧ (t.sl c).tun = (s.sl c).tun
            ∧ OtherSlices c s t)))
    ∧ ((s.sl c).agcHeld = false →
      (∀ clips, attackDue clips s.tb = true → (∀ t, a.lastAttack = some t → t + 10240 ≤ s.tb) →
        Gives (.attack c clips) s (fun t =>
        (t.sl c).afe.atten = limit (a.atten + a.attackDb) ∧ (t.sl c).afe.lnaByp = a.lnaByp
          ∧ (t.sl c).afe.attacks = min (a.attacks + 1) 0xFFFF ∧ (t.sl c).afe.lastAttack = some s.tb
          ∧ (t.sl c).afe.events = a.events ||| 1 ∧ (t.sl c).tun = (s.sl c).tun ∧ OtherSlices c s t))
      ∧ (a.quietSince + bf a.agcCfg 16 8 * 10240000 ≤ s.tb → s.tb < a.windowStart + 102400 →
        (a.lnaByp = true → Gives (.agcRelease c) s (fun t => (t.sl c).afe.lnaByp = false ∧ (t.sl c).afe.atten = a.atten
          ∧ (t.sl c).afe.gainSteps = min (a.gainSteps + 1) 0xFFFF ∧ (t.sl c).tun = (s.sl c).tun ∧ OtherSlices c s t))
        ∧ (a.lnaByp = false → a.minAtten < a.atten → Gives (.agcRelease c) s (fun t =>
          (t.sl c).afe.lnaByp = false ∧ (t.sl c).afe.atten = a.atten - 1
          ∧ (t.sl c).afe.gainSteps = min (a.gainSteps + 1) 0xFFFF ∧ (t.sl c).tun = (s.sl c).tun ∧ OtherSlices c s t))
        ∧ (a.lnaByp = false → a.atten ≤ a.minAtten → Does (.agcRelease c) s (fun s => s.modSl c (fun x =>
            { x with afe := { x.afe with quietSince := s.tb } })))))

/-- R128, R129: requests for calibration. -/
def Obligations.CalibrationRequests : Prop :=
  ∀ (c : Fin 4) (s : State),
    let request (i : Instr) (k : Nat) : Prop :=
      ((s.sl c).up = true → (s.sl c).afe.calPend = [] → (s.sl c).afe.calRun = none →
        Does i s (fun s => s.modSl c (fun x => { x with afe := { x.afe with
          calPend := [{ kind := k, origin := 1, at_ := s.tb }] } })))
      ∧ ((s.sl c).ctl.state = .calibrating → (s.sl c).afe.calHeld.contains k = false →
        Does i s (fun s => s.modSl c (fun x => { x with afe := { x.afe with calHeld := x.afe.calHeld ++ [k] } })))
    request (.calReqAdc c) 1 ∧ request (.calReqTuner c) 2 ∧ request (.calReqFlat c) 3 ∧ request (.calReqVco c) 4
    ∧ (∀ cmd, s.inHand (localQ c 52) 0x30 = some cmd → (s.sl c).up = true →
      (1 ≤ u8 cmd.body 0 → u8 cmd.body 0 ≤ 15 → (s.sl c).afe.calPend = [] → (s.sl c).afe.calRun = none →
        Gives (.calRequest c) s (fun t =>
          (∀ k, (t.sl c).afe.calPend.any (fun p => p.kind == k) = (decide (1 ≤ k ∧ k ≤ 4) && (u8 cmd.body 0).testBit (k - 1)))
          ∧ (t.sl c).afe.calCmds = (s.sl c).afe.calCmds ++ [
            { cmd := cmd.ref, status := 0,
              left := ([1, 2, 3, 4] : List Nat).filter (fun k => (u8 cmd.body 0).testBit (k - 1)) }]
          ∧ (t.qu cmd.queue).inHand = none ∧ cmd.ref ∈ (t.qu cmd.queue).outstanding ∧ OtherSlices c s t))
      ∧ ((u8 cmd.body 0 = 0 ∨ 15 < u8 cmd.body 0) → Does (.calRequest c) s (fun s => s.finish cmd 0x03 [])))

/-- R124 to R126, R129, R130: calibration intervals, and the mismatch monitor. -/
def Obligations.CalibrationIntervals : Prop :=
  ∀ (c : Fin 4) (s : State),
    (∀ p, s.tb % 1048576 = 0 → (s.sl c).up = true → (s.sl c).afe.calRun = none → (s.sl c).clk.coast = false →
      (∀ t, (s.sl c).afe.calEnd = some t → t + 51200000 ≤ s.tb) → (s.sl c).calNext s.tb = some p →
      let started (s : State) : State := s.modSl c (fun x => { x with afe := { x.afe with
        calPend := x.afe.calPend.filter (fun q => q.kind != p.kind),
        calRun := some { kind := p.kind, origin := p.origin, start := s.tb, freq := x.afe.tunerFreq.toNat } } })
      (p.kind ≠ 2 → Does (.calIntervalStart c) s started)
      ∧ (p.kind = 2 → (s.sl c).afe.searchOk = true →
        Does (.calIntervalStart c) s (fun s => (started s).ask (14 + c.val) 10)))
    ∧ (∀ (r : CalOutcome) origin start freq,
      (s.sl c).afe.calRun = some { kind := 1, origin := origin, start := start, freq := freq } →
      r.kind = 1 → start < s.tb → (s.sl c).afe.calPend = [] → Gives (.calIntervalEnd c r) s (fun t =>
        (t.sl c).afe.calRun = none ∧ (t.sl c).afe.calEnd = some s.tb ∧ (t.sl c).afe.events = (s.sl c).afe.events ||| 8
        ∧ (t.sl c).afe.zeroed = (s.sl c).afe.zeroed ++ [(start, s.tb)]
        ∧ (t.sl c).afe.disturbed = (s.sl c).afe.disturbed ++ [(start, s.tb + 32)]
        ∧ (r.status = 0 → (t.sl c).afe.adcOffset = r.fields.getD 0 0 ∧ (t.sl c).afe.adcGain = r.fields.getD 1 0)
        ∧ (r.status ≠ 0 → (t.sl c).afe.adcOffset = (s.sl c).afe.adcOffset ∧ (t.sl c).afe.adcGain = (s.sl c).afe.adcGain)
        ∧ (t.sl c).ctl = (s.sl c).ctl ∧ OtherSlices c s t))
    ∧ (∀ rl : BitVec 16, (s.sl c).monitorDue s.real = true →
      let thresh := bf (s.sl c).afe.monCfg 0 16
      Gives (.mismatchMeasurement c rl) s (fun t =>
        (t.sl c).afe.rl = rl.toNat ∧ (t.sl c).afe.measuredAt = some s.real
        ∧ (t.sl c).afe.mismatch = (if rl.toNat < thresh then true
            else if thresh + 10 ≤ rl.toNat then false else (s.sl c).afe.mismatch)
        ∧ (t.sl c).afe.events = (if rl.toNat < thresh ∧ (s.sl c).afe.mismatch = false then (s.sl c).afe.events ||| 2
            else if thresh + 10 ≤ rl.toNat ∧ (s.sl c).afe.mismatch = true then (s.sl c).afe.events ||| 4
            else (s.sl c).afe.events)
        ∧ (t.sl c).afe.atten = (s.sl c).afe.atten ∧ OtherSlices c s t))

/-- R134, R135: the trims of CAL_BG. -/
def Obligations.BackgroundTrims : Prop :=
  ∀ (c : Fin 4) (s : State), s.calBgOn c = true →
    (∀ (f : Forme) (t : Fin 32) (di dq : Int), (s.sl c).inForce = some f → f.feedsLdb t.val = true → (s.sl c).clk.coast = false →
      let clip (v : Int) : Int := max (-2048) (min 2048 v)
      let none_ : RssiRun := ⟨0, []⟩
      ((s.sl c).dcQuiet f t.val s.tb = true →
        ((s.sl c).afe.bgDc.contains t.val = false → Does (.calbgDcTrim c t di dq none_) s (fun s => s.modSl c (fun x =>
          { x with afe := { x.afe with bgDc := x.afe.bgDc ++ [t.val] } })))
        ∧ ((s.sl c).afe.bgDc.contains t.val = true → Does (.calbgDcTrim c t di dq none_) s (fun s => s.modSl c (fun x =>
          { (x.modTun t.val (fun u => { u with dcPend := some ⟨u.dc.re + clip di, u.dc.im + clip dq⟩ })) with
            afe := { x.afe with bgDc := x.afe.bgDc.filter (fun k => k != t.val),
                                bgTrims := min (x.afe.bgTrims + 1) 0xFFFF } }))))
      ∧ ((s.sl c).dcQuiet f t.val s.tb = false → Does (.calbgDcTrim c t di dq none_) s id)
      ∧ (∀ (r : InstRef) (rssi : RssiRun), (s.sl c).readerOf t.val = some r → rssi.values ≠ [] → (s.sl c).runDue r rssi = true →
        ((s.takeRun c r rssi).sl c).dcQuiet f t.val s.tb = false →
        Does (.calbgDcTrim c t di dq rssi) s (fun s => s.takeRun c r rssi)))
    ∧ (∀ abandoned : Bool,
      ((s.sl c).afe.bgRun = false → (s.sl c).tx.state = .idle → (s.sl c).tx.cmd = none →
        (s.sl c).tx.lastRampDown + 204800 ≤ s.real →
        Does (.calbgSynthTrim c abandoned) s (fun s => s.modSl c (fun x => { x with afe := { x.afe with
          bgRun := true, bgStart := s.tb } })))
      ∧ ((s.sl c).afe.bgRun = true → Does (.calbgSynthTrim c abandoned) s (fun s => s.modSl c (fun x => { x with afe := (
          if abandoned = true ∧ s.tb < x.afe.bgStart + 102400 then { x.afe with
            bgRun := false, bgAbandoned := min (x.afe.bgAbandoned + 1) 0xFFFF, events := x.afe.events ||| 0x10 }
          else { x.afe with bgRun := false, bgTrims := min (x.afe.bgTrims + 1) 0xFFFF }) }))))

/-! ### Tunings -/

/-- R146 to R150: one output sample of a tuning. -/
def Obligations.SampleAdvancesTuning : Prop :=
  ∀ (c : Fin 4) (t : Fin 32) (codes : List Int) (f : Forme) (s : State), (s.sl c).inForce = some f →
    let u := (s.sl c).tunAt t.val
    let n := u.chain.nextOut ((s.sl c).confOf f t.val)
    let ts := airTime s.tbm.warps u.chain.at_ n
    u.resetAt = [] → u.tails = [] → (s.sl c).tunRuns t.val = true → (s.sl c).clk.coast = false → u.boundaryDue = false →
    u.chain.n ≤ n → codes.length = n + 1 - u.chain.n → (∀ v, v ∈ codes → -8192 ≤ v ∧ v ≤ 8191) → (ts : Int) ≤ (s.sl c).airNow s.tb →
    Gives (.sampleDelivered c t codes) s (fun r =>
      let w := (r.sl c).tunAt t.val
      w.index = u.index + 1 ∧ w.lastTs = some ts ∧ w.regEdge = false ∧ w.unsettled = u.unsettled - 1
        ∧ w.ncoNow = u.ncoNow ∧ w.bank = u.bank ∧ w.chain.at_ = u.chain.at_ ∧ w.chain.n = n + 1
        ∧ (r.sl c).ctl = (s.sl c).ctl ∧ (r.sl c).clk = (s.sl c).clk ∧ OtherSlices c s r)

/-- R151, R155, R157: writes of the oscillator and of the coefficients, in a slice that serves its registers. -/
def Obligations.NcoAndCoefficients : Prop :=
  ∀ (c : Fin 4) (t : Fin 32) (s : State), (s.sl c).ctl.state.served = true →
    let u := (s.sl c).tunAt t.val
    let put (f : Tuning → Tuning) (s : State) : State := s.modSl c (fun x => { x with tun := vmod x.tun t.val f })
    (∀ v : Word,
      ((s.sl c).tunExists t.val = true → Does (.ncoFreqWrite c t v) s (put (fun u =>
        { u with ncoReg := v, ncoPend := some (s.tb + 1024) })))
      ∧ ((s.sl c).tunExists t.val = false → Does (.ncoFreqWrite c t v) s (put (fun u =>
        { u with events := u.events ||| 0x80 }))))
    ∧ (∀ f at_ last, (s.sl c).inForce = some f → u.ncoPend = some at_ → u.lastTs = some last → at_ ≤ last →
      (s.sl c).tunRuns t.val = true →
      ((s.sl c).readerOf t.val = none → Does (.ncoRetune c t) s (put (fun u => { u with
        ncoNow := u.ncoReg, ncoPend := none, unsettled := max u.unsettled (((s.sl c).confOf f t.val).settle + 1) })))
      ∧ (∀ n, (s.sl c).readerOf t.val = some (.inst n) → ((s.sl c).instAt n.val).state = .sync →
        Gives (.ncoRetune c t) s (fun r =>
          let w := (r.sl c).tunAt t.val
          w.ncoNow = u.ncoReg ∧ w.ncoPend = none ∧ w.index = u.index ∧ ((r.sl c).instAt n.val).state = .search
            ∧ (r.sl c).ctl = (s.sl c).ctl ∧ (r.sl c).sram = (s.sl c).sram)))
    ∧ (∀ (b : Fin 2) (k : Fin 128) (v : Word) f, (s.sl c).inForce = some f → (s.sl c).tunExists t.val = true →
      let free := k.val < coefWords (tnTaps (f.tn t.val)) ∧ u.xfade = none ∧ b2n u.bank ≠ b.val
      let l := lmod (vget u.coef b.val []) k.val (fun _ => BitVec.ofNat 20 (bf v 0 20))
      (free → Does (.coefWrite c t b k v) s (put (fun u => { u with
        coef := vmod u.coef b.val (fun _ => l), coefCrc := vmod u.coefCrc b.val (fun _ => coefCrcOf l) })))
      ∧ (¬free → Does (.coefWrite c t b k v) s (put (fun u => { u with events := u.events ||| 4 }))))

/-- R152, R153: swaps of the coefficient banks. -/
def Obligations.BankSwaps : Prop :=
  ∀ (c : Fin 4) (t : Fin 32) (s : State),
    let u := (s.sl c).tunAt t.val
    let put (f : Tuning → Tuning) (s : State) : State := s.modSl c (fun x => { x with tun := vmod x.tun t.val f })
    ((s.sl c).tunExists t.val = true → ∀ target : Bool,
      (u.xfade = none → u.bankPend = none → Does (.bankSwapRequest c t target) s (put (fun u =>
        { u with target := target, bankPend := some (s.tb + 1024, target) })))
      ∧ (u.xfade = none → u.bankPend ≠ none → Does (.bankSwapRequest c t target) s (put (fun u =>
        { u with target := target, bankPend := some (s.tb + 1024, target),
                 superseded := min (u.superseded + 1) 0xFFFF, events := u.events ||| 8 })))
      ∧ (u.xfade ≠ none → u.heldReq = none → Does (.bankSwapRequest c t target) s (put (fun u =>
        { u with target := target, heldReq := some target }))))
    ∧ (∀ f at_ target last, (s.sl c).inForce = some f → u.bankPend = some (at_, target) → u.lastTs = some last →
      at_ ≤ last → u.xfade = none → (s.sl c).tunRuns t.val = true →
      (target = u.bank → Does (.bankSwap c t) s (put (fun u => { u with bankPend := none, events := u.events ||| 0x20 })))
      ∧ (target ≠ u.bank → tnXfade (f.tn t.val) = 0 → Does (.bankSwap c t) s (put (fun u =>
        { u with bankPend := none, bank := target, swaps := min (u.swaps + 1) 0xFFFF, events := u.events ||| 0x10 }))))
    ∧ (∀ f k, (s.sl c).inForce = some f → u.xfade = some k → k.len ≤ k.made → u.heldReq = none →
      Does (.xfadeEnd c t) s (put (fun u => { u with xfade := none })))

/-! ### Demodulator instances, bursts and services -/

/-- R161 to R163, R168, R169, R179, R180, R182: the states of an instance or candidate of a running slice. -/
def Obligations.InstanceStates : Prop :=
  ∀ (c : Fin 4) (r : InstRef) (s : State) (f : Forme), (s.sl c).inForce = some f → (s.sl c).refLive r = true →
    let pl := (s.sl c).refRec r
    let p := dmProfile pl
    let i := (s.sl c).demod r
    let period := ((s.sl c).confOf f ((s.sl c).refTun r)).period
    let newest := ((s.sl c).tunAt ((s.sl c).refTun r)).newest
    let put (f : Inst → Inst) (s : State) : State := s.modSl c (fun x => x.modDemod r f)
    let search (i : Inst) : Inst := { i with
      state := .search, since := s.real, runs := Vector.replicate 4 0, badRun := 0, idle := 0, lowSince := none,
      violations := [], clean := 0, pilot := false, freqErr := 0x80000000, clockErr := 0x80000000, level := 0x80008000,
      quality := 0xFFFF8000, pstat0 := (pstatInit p).1, pstat1 := (pstatInit p).2 }
    (∀ fd : Found, (s.sl c).clk.coast = false → i.state = .search → p ≠ 8 → 0 < i.clean → foundOk pl fd = true →
      (∀ m, m ∈ fd.marks → m ≤ newest ∧ i.erasedIn period m (m + period) = 0) →
      let sync (i : Inst) : Inst := { i with
        state := .sync, since := s.real, runs := Vector.replicate 4 0, badRun := 0, idle := 0, lowSince := none,
        violations := [], measuredAt := some s.real, clean := 0 }
      ((p = 5 ∨ p = 6) → Does (.instanceFound c r fd) s (put (fun i => { (sync i) with
        robust := fd.robust, occ := fd.occ, pstat0 := pstatFound pl fd.robust fd.occ })))
      ∧ (p ≠ 5 → p ≠ 6 → Does (.instanceFound c r fd) s (put (fun i => { (sync i) with pstat0 := pstatFound pl 0 0 }))))
    ∧ (1 ≤ p → p ≤ 7 → i.state = .sync →
      i.since + 1024000000 * ([1, 10, 2, 1, 5, 2, 180] : List Nat).getD (p - 1) 0 ≤ s.real →
      Does (.syncLimitExpired c r) s (put search))
    ∧ (∀ n : Fin 48, r = .inst n → p ≠ 8 → i.state = .track →
      (∀ k, k ∈ (s.sl c).fedBy n.val → ((s.sl c).ctxAt k.val).alert.active = false) →
      let left (bits : Word) (s : State) : State := (put (fun i => search { i with
          losses := min (i.losses + 1) 0xFFFF, events := i.events ||| bits }) s).modSl c
        (fun x => x.modAf n.val (fun a => { a with outSince := some (a.outSince.getD s.real) }))
      (i.lost pl s.real = true → Does (.instanceLoss c r none) s (left 2))
      ∧ (∀ freq clock : Int, beyond pl (freq - ((s.sl c).tunAt ((s.sl c).refTun r)).setMhz) clock = true →
        Does (.instanceLoss c r (some (freq, clock))) s (left 0x12)))
    ∧ (i.state = .track → p ≠ 8 → i.lost pl s.real = false → Does (.instanceLoss c r none) s id)
    ∧ (∀ n : Fin 48, r = .inst n →
      (i.declared = true → i.state = .sync → Does (.reacq c n) s (put search))
      ∧ ((i.declared = false ∨ i.state.busy = false) → Does (.reacq c n) s (put (fun i =>
          { i with events := i.events ||| 0x20 }))))
    ∧ (∀ m : Measure, (i.state = .sync ∨ i.state = .track) → i.measureFrom + 102400000 ≤ s.real →
      let offset := m.freq - ((s.sl c).tunAt ((s.sl c).refTun r)).setMhz
      (i.clean = 0 → Does (.measurementUpdate c r m) s (put (fun i => { i with measuredAt := some s.real })))
      ∧ (0 < i.clean → beyond pl offset m.clockErr = false → Gives (.measurementUpdate c r m) s (fun t =>
        let j := (t.sl c).demod r
        j.pilot = m.pilot ∧ j.clockErr = BitVec.ofInt 32 m.clockErr ∧ j.measuredAt = some s.real ∧ j.clean = 0
        ∧ j.state = i.state ∧ j.unitOk = i.unitOk ∧ j.unitFail = i.unitFail ∧ j.events = i.events
        ∧ (p ≠ 8 → j.freqErr = BitVec.ofInt 32 offset ∧ j.level = mkWord [
            (16, 16, twos 16 ((s.sl c).levelDbm f ((s.sl c).refTun r) m.level)), (0, 16, twos 16 m.level)])
        ∧ OtherSlices c s t ∧ (t.sl c).tun = (s.sl c).tun))
      ∧ (0 < i.clean → beyond pl offset m.clockErr = true → Gives (.measurementUpdate c r m) s (fun t =>
        (i.state = .track → ((t.sl c).demod r).state = .search)
        ∧ (i.state = .sync → ((t.sl c).demod r).state = .sync ∧ ((t.sl c).demod r).events = i.events ||| 0x10))))
    ∧ (∀ at_ figs reads, p = 4 → i.state = .sync → at_ / 65536 ≤ newest →
      Does (.unitHandedOn c r at_ false (.fib figs) reads) s (put (fun i => { i with
        unitFail := min (i.unitFail + 1) 0xFFFFFFFF, runs := vmod i.runs 0 (fun _ => 0), badRun := min 32 (i.badRun + 1),
        violations := (true :: i.violations).take 64 }))
      ∧ (∀ n : Fin 48, r = .inst n → reads.ident = none → reads.list = none →
        ((s.sl c).afAt n.val).state = .primary → (s.sl c).fedBy n.val = [] →
        Does (.unitHandedOn c r at_ true (.fib figs) reads) s (fun s => (put (fun i => { i with
            state := .track, since := s.real, runs := Vector.replicate 4 0, badRun := 0, idle := 0, lowSince := none,
            violations := [], unitOk := min (i.unitOk + 1) 0xFFFFFFFF,
            locks := min (i.locks + 1) 0xFFFF, events := i.events ||| 1 }) s).modSl c
          (fun x => x.modAf n.val (fun a => { a with outSince := none })))))

/-- R190 to R194, R201, R202: an LDB acquirer, and the trellis decoders. -/
def Obligations.BurstAcquisition : Prop :=
  ∀ (c : Fin 4) (r : InstRef) (s : State),
    let p := (s.sl c).refRec r
    let put (f : Acq → Acq) (s : State) : State := s.modSl c (fun x => x.modAcqOf r f)
    (∀ run : RssiRun, (s.sl c).runDue r run = true →
      let u := s.takeRun c r run
      let a := (u.sl c).acqOf r
      let took (f : Acq → Acq) (s : State) : State := put f (s.takeRun c r run)
      (a.acq = .idle → (s.sl c).tx.trSw = false →
        (run.stop < a.since + 128000000 → Does (.noiseInterval c r run) s (fun s => s.takeRun c r run))
        ∧ (∀ v, a.since + 128000000 ≤ run.stop → a.lowest = some v →
          Does (.noiseInterval c r run) s (took (fun b => { b with
            noise := if a.dirty then b.noise else (v :: b.noise).take 8, dirty := false, since := run.stop, lowest := none }))))
      ∧ (a.acq = .idle → (s.sl c).tx.trSw = false →
        (16 ≤ a.riseRun → Does (.trigger c r run) s (took (fun b => { b with
          acq := .triggered, triggers := min (b.triggers + 1) 0xFFFF, rewindow := false, dirty := true,
          trigAt := run.stop })))
        ∧ (a.riseRun < 16 → Does (.trigger c r run) s (fun s => s.takeRun c r run)))
      ∧ (∀ w : SyncWord,
        let fresh (captured : Bool) (b : Acq) : Acq := { b with
          lastSync := w.syncTb, acq := .header, burst := some (newBurst w b.refNow captured ((u.sl c).burstErased r w)),
          capRun := 0, capAt := none }
        (a.qualifies p w = false → Does (.syncQualified c r w run) s (fun s => s.takeRun c r run))
        ∧ (a.qualifies p w = true → a.acq = .triggered → a.inWindow p w = true →
          (((s.sl c).demod r).state ≠ .search → Does (.syncQualified c r w run) s (took (fresh false)))
          ∧ (((s.sl c).demod r).state = .search → Gives (.syncQualified c r w run) s (fun t =>
            ((t.sl c).demod r).state = .sync ∧ (t.sl c).acqOf r = { (fresh false a) with lastPass := s.real })))
        ∧ (a.qualifies p w = true → (a.acq = .header ∨ a.acq = .payload) → a.captures p w = false →
          Does (.syncQualified c r w run) s (took (fun b => { b with
            lastSync := w.syncTb, missed := min (b.missed + 1) 0xFFFF, events := b.events ||| 0x10 })))
        ∧ (∀ b, a.burst = some b → a.qualifies p w = true → a.captures p w = true → b.allDemod = false →
          (a.acq = .header → Does (.capture c r run w) s (took (fun a => { (fresh true a) with
            reacquired := min (a.reacquired + 1) 0xFFFF, events := a.events ||| 4 })))
          ∧ (a.acq = .payload → Gives (.capture c r run w) s (fun t => (t.sl c).acqOf r = { (fresh true a) with
            captured := min (a.captured + 1) 0xFFFF, events := a.events ||| 8 }))))
      ∧ (a.acq = .triggered →
        let stop := a.trigAt + symTicks p 64
        let held := (match a.riseAt p, a.lastValue with
          | some n, some v => decide (n ≤ v)
          | _, _ => false) = true
        let counted := if a.rewindow then a.falseTrig else min (a.falseTrig + 1) 0xFFFF
        (run.stop < stop → Does (.qualifierWindowClose c r run) s (fun s => s.takeRun c r run))
        ∧ (stop ≤ run.stop → ¬held → Does (.qualifierWindowClose c r run) s (took (fun b => { b with
            falseTrig := counted, acq := .idle, burst := none, rewindow := false, capRun := 0, capAt := none })))
        ∧ (stop ≤ run.stop → held → Does (.qualifierWindowClose c r run) s (took (fun b => { b with
            falseTrig := counted, rewindow := true, trigAt := stop })))))
    ∧ (∀ (q : SegReq) (f : Forme), (s.sl c).inForce = some f → (s.sl c).readerOf q.tuning.val = some r →
      (s.sl c).refLive r = true → q.soft ≠ [] → kindOf (dmProfile p) q.kind = true →
      (s.sl c).trl.wait = [] → (s.sl c).trl.run = Vector.replicate 2 none →
      let b := if dmProfile p = 8 then (s.sl c).segBurst r q s.tb else none
      (dmProfile p = 8 → b ≠ none) →
      (dmProfile p ≠ 8 → ((s.sl c).demod r).state = .sync ∨ ((s.sl c).demod r).state = .track) →
      Gives (.trellisGrant c [q]) s (fun t =>
        let w : Segment := {
          tuning := q.tuning, kind := q.kind, burst := (b.map (fun b => b.syncTb)).getD 0,
          soft := (s.sl c).presented f r b q, metrics := startMetrics, out := [], asked := s.tb }
        vget (t.sl c).trl.run 0 none = some w ∧ vget (t.sl c).trl.run 1 none = none ∧ (t.sl c).trl.wait = []
        ∧ (t.sl c).trl.loadNow = (s.sl c).trl.loadNow + segReceived q ∧ (t.sl c).trl.ptr = (q.tuning.val + 1) % 32
        ∧ OtherSlices c s t))
    ∧ (∀ (d : Fin 2) (w : Segment) (snr : BitVec 16), (s.sl c).trl.run.get d = some w →
      let v := runSegment (kindGens w.kind) w.metrics w.soft
      let bits := w.out ++ v.1
      let next := if v.2.2 = [] then none else some { w with soft := v.2.2, metrics := v.2.1, out := bits }
      let freed (s : State) : State := s.modSl c (fun x => { x with trl := x.trl.proceed d.val s.tb next w.tuning })
      ((s.sl c).readerOf w.tuning.val = none → Does (.segmentComplete c d snr) s freed)
      ∧ ((s.sl c).readerOf w.tuning.val = some r → dmProfile p = 8 → v.2.2 ≠ [] → Does (.segmentComplete c d snr) s freed)
      ∧ ((s.sl c).readerOf w.tuning.val = some r → dmProfile p ≠ 8 → Gives (.segmentComplete c d snr) s (fun t =>
        (t.sl c).trl = (s.sl c).trl.proceed d.val s.tb next w.tuning ∧ (t.sl c).acq = (s.sl c).acq
        ∧ ((t.sl c).demod r).state = ((s.sl c).demod r).state ∧ OtherSlices c s t))
      ∧ (∀ (n : Fin 48) b, (s.sl c).readerOf w.tuning.val = some r → r = .inst n → dmProfile p = 8 → v.2.2 = [] →
        w.kind = .header → ((s.sl c).acqOf r).seat w.burst = (.hand, some b) →
        let h := headerOf bits
        (ldbHcrcOk h = false → ldbReport p = false →
          Does (.segmentComplete c d snr) s (fun s => put (fun a => { a with
            acq := .idle, burst := none, rewindow := false, capRun := 0, capAt := none,
            hdrFail := min (a.hdrFail + 1) 0xFFFF }) (freed s)))
        ∧ (ldbHcrcOk h = true → ldbVersion h = 1 → 0 < ldbLength h → ldbLength h ≤ 1024 →
          ((s.sl c).instAt n.val).state = .track → ((s.sl c).afAt n.val).state = .primary →
          Gives (.segmentComplete c d snr) s (fun t =>
            let a := (s.sl c).acqOf r
            (t.sl c).acqOf r = { a with
              hdrOk := min (a.hdrOk + 1) 0xFFFF, events := a.events ||| 1, lastPass := s.real, acq := .payload,
              burst := some { b with header := h, length := ldbLength h, passed := true, asked := false },
              offsets := (sext 32 b.freqErr.toNat :: a.offsets).take 8 }
            ∧ (t.sl c).trl = (s.sl c).trl.proceed d.val s.tb next w.tuning ∧ OtherSlices c s t))))

/-- R222 to R226: checks, switches and candidates. -/
def Obligations.AlternativeFrequencies : Prop :=
  ∀ (c : Fin 4) (n : Fin 48) (s : State),
    let x := s.sl c
    let a := x.afAt n.val
    let held (ms at_ : Nat) : Prop := at_ + 1024000 * ms ≤ s.real
    let tuned (hz : Nat) (t : State) : Prop := ((t.sl c).tunAt (x.instTun n.val)).ncoReg = hzWord hz
      ∧ ((t.sl c).tunAt (x.instTun n.val)).ncoPend = some (s.tb + 1024)
    x.live = true → x.instTun n.val < 32 →
      (∀ e at_, x.runAhead = false → x.clk.coast = false → a.state = .primary → (x.instAt n.val).state ≠ .track →
        a.outSince = some at_ → held (afHoldMs (x.afPolicy n.val)) at_ → x.nextEntry n.val = some e →
        Gives (.afCheckStart c n) s (fun t =>
          let b := (t.sl c).afAt n.val
          b.state = .check ∧ b.checkFreq = e.1 ∧ b.checkAt = s.real ∧ b.tried = a.tried ++ [e.1] ∧ b.lastRead = none
          ∧ b.primaryHz = a.primaryHz ∧ tuned e.1 t ∧ (t.sl c).inst = x.inst ∧ (t.sl c).ctx = x.ctx))
      ∧ (a.state = .check → held (afCheckMs (x.afPolicy n.val)) a.checkAt → x.nextEntry n.val = none →
        Gives (.afCheckTimeout c n) s (fun t =>
          let b := (t.sl c).afAt n.val
          b.state = .primary ∧ b.held = [] ∧ b.tried = [] ∧ b.outSince = some s.real
          ∧ b.failed = min (a.failed + 1) 0xFFFF ∧ tuned a.primaryHz t ∧ (t.sl c).inst = x.inst))
      ∧ (∀ t i, x.runAhead = true → x.clk.coast = false → a.state = .primary →
        held (afHoldMs (x.afPolicy n.val)) a.lastSwitch → t < 32 →
        (x.bestCand ((x.candsTracking n.val).filter (fun p => p.2.verified)) = some (t, i) →
          (x.instAt n.val).state ≠ .track → Gives (.afSwitch c n) s (fun t' =>
            let b := (t'.sl c).afAt n.val
            b.state = .handover ∧ (b.cand.map (fun k => k.val)) = some t ∧ b.lastSwitch = s.real
            ∧ b.switches = min (a.switches + 1) 0xFFFF ∧ tuned i.freq t' ∧ (t'.sl c).candInfo = x.candInfo))
        ∧ ((x.candsTracking n.val).any (fun p => p.2.verified) = false → (x.instAt n.val).state ≠ .track →
          x.fedBy n.val = [] →
          x.bestCand ((x.candsTracking n.val).filter (fun p => match p.2.tracked with
            | some v => decide (s.real ≤ v + 1024000 * afCheckMs (x.afPolicy n.val))
            | none => false)) = some (t, i) →
          Gives (.afSpeculate c n) s (fun t' =>
            let b := (t'.sl c).afAt n.val
            b.state = .speculative ∧ (b.cand.map (fun k => k.val)) = some t ∧ b.specTb = s.tb ∧ b.held = []
            ∧ (t'.sl c).tun = x.tun ∧ (t'.sl c).candInfo = x.candInfo)))
      ∧ (∀ (t : Fin 32) i, vget x.candInfo t.val none = some i → i.key = n → a.cand ≠ some t →
        held (afCheckMs (x.afPolicy n.val)) i.started →
        x.bestCand ((x.candsTracking n.val).filter (fun p => p.2.verified)) = none →
        (x.candInfo.toList.filter (fun j => match j with | some j => j.key.val == n.val | none => false)).length
          < (x.afList n.val).length →
        Gives (.candidateRotation c t) s (fun t' =>
          (∀ j, vget (t'.sl c).candInfo t.val none = some j → j.started = s.real)
          ∧ (∀ k, k < 32 → k ≠ t.val → (∀ f, x.inForce = some f → f.spareTunings.testBit k = false) →
            (t'.sl c).tunAt k = x.tunAt k)
          ∧ (t'.sl c).inst = x.inst ∧ (t'.sl c).ctx = x.ctx ∧ OtherSlices c s t'))

/-- R230, R231, R235, R236, R239: scheduled entries, the end of an alert, and SVC.CFG. -/
def Obligations.EventsAndAlerts : Prop :=
  ∀ (c : Fin 4) (s : State),
    ((s.sl c).lockReady s.tb = some 0 → Does (.entryDue c) s id)
    ∧ (∀ n, ((s.sl c).lockReady s.tb = some (n + 1) ∨ (s.sl c).lockReady s.tb = none ∧ n = s.tb) →
      ((s.sch c).dueBy n = [] → Does (.entryDue c) s id)
      ∧ ((s.sch c).executed ≤ 0xFFFF → Gives (.entryDue c) s (fun t =>
        (t.sch c).executed = min ((s.sch c).executed + ((s.sch c).dueBy n).length) 0xFFFF))
      ∧ (∀ u e, (s.sch c).dueBy n = [(u, e)] → Gives (.entryDue c) s (fun t =>
        (t.evt.get e.pin).level = decide (e.action ≠ 2)
        ∧ (t.evt.get e.pin).pulse = (if e.action = 1 ∨ e.action = 2 then none else some (u + 1024 * e.pulseUs, c, e.rule))
        ∧ (t.sch c).entries = (s.sch c).entries.map (fun x => if x = e then { e with done := some u } else x)
        ∧ (t.sch c).executed = min ((s.sch c).executed + 1) 0xFFFF
        ∧ (t.sch c).late = (if e.late then min ((s.sch c).late + 1) 0xFFFF else (s.sch c).late)
        ∧ t.slices.toList.map (fun x => x.sram) = s.slices.toList.map (fun x => x.sram))))
    ∧ (∀ (pin : Fin 8) u k r, (s.evt.get pin).pulse = some (u, k, r) →
      (s.pinEntryBefore pin (min u s.tb) = true → Does (.pulseEnd pin) s id)
      ∧ (s.tb < u → Does (.pulseEnd pin) s id)
      ∧ (u ≤ s.tb → s.pinEntryBefore pin u = false → Gives (.pulseEnd pin) s (fun t =>
        (t.evt.get pin).level = false ∧ (t.evt.get pin).pulse = none
        ∧ (s.tap.extest = false → t.evtPins.toNat.testBit pin.val = false)
        ∧ (∀ q, q ≠ pin → t.evt.get q = s.evt.get q) ∧ t.slices = s.slices ∧ t.sched = s.sched)))
    ∧ (∀ pin : Fin 8, (s.evt.get pin).pulse = none → Does (.pulseEnd pin) s id)
    ∧ Does (.doneEntryExpiry c) s (fun s => s.modSch c (fun d => { d with entries := d.entries.filter (fun e =>
        match e.done with
        | some v => decide (s.tb < max e.at_ v + 1024000000 * bf d.cfg 0 16)
        | none => true) }))
    ∧ (∀ cells : BitVec 114, Does (.extest true cells) s (fun s =>
        { s with tap := { s.tap with ir := 0x00, extest := true, dr := cells.toNat }, bsr := cells })
      ∧ (let freed (ir : Byte) (dr : Nat) (t : State) : Prop :=
          t.tap = { s.tap with ir := ir, extest := false, dr := dr } ∧ t.evt = s.evt ∧ t.bsr = s.bsr ∧ t.slices = s.slices
            ∧ (s.tap.extest = true → ∀ pin : Fin 8, t.evtPins.toNat.testBit pin.val = (s.evt.get pin).level)
            ∧ (s.tap.extest = false → t.evtPins = s.evtPins)
        Gives (.extest false cells) s (freed 0xFF 0) ∧ Gives .tapReset s (freed 0x02 idcode.toNat)))
    ∧ (∀ k : Fin 256, (s.sl c).live = true → ((s.sl c).ctxAt k.val).alert.active = true →
      ((s.sl c).ctxAt k.val).alert.kind = 2 → ((s.sl c).ctxAt k.val).alert.lastFig + 2048000000 ≤ s.real →
      Gives (.alertTimeout c k) s (fun t =>
        ((t.sl c).ctxAt k.val).alert.active = false ∧ ((t.sl c).ctxAt k.val).alert.routed = false
        ∧ ((t.sl c).ctxAt k.val).events = ((s.sl c).ctxAt k.val).events ||| 4 ∧ (t.sl c).inst = (s.sl c).inst))
    ∧ ((s.sl c).ctl.state.served = true → ∀ v : Word,
      (3600 < bf v 0 16 → Does (.svcCfgWrite c v) s (fun s => s.modSch c (fun d =>
        { d with events := d.events ||| 0x20 })))
      ∧ (bf v 0 16 ≤ 3600 → bit v 31 = false → Does (.svcCfgWrite c v) s (fun s => s.modSch c (fun d =>
        { d with cfg := v &&& 0x8000FFFF })))
      ∧ (bf v 0 16 ≤ 3600 → bit v 31 = true → Gives (.svcCfgWrite c v) s (fun t =>
        (t.sch c).cfg = v &&& 0x8000FFFF ∧ (∀ k, k < 256 → ((t.sl c).ctxAt k).alert.routed = false)
        ∧ ((s.sl c).inForce.isSome = true → (t.sl c).sai.alertCtx = none))))

/-! ### Keys and authentication -/

/-- R243, R247 to R251, R390: keys come into the slots and leave them. -/
def Obligations.KeyCommands : Prop :=
  ∀ s : State,
    let unverifying (c : Fin 4) : Prop := ∀ k, k < 256 → ∀ e, ((s.sl c).ctxAt k).front = some e → e.bound = none
    let unbound (c : Fin 4) : Prop := (s.sl c).mac.ops = [] ∧ unverifying c
    let loaded (c : Fin 4) (n : Nat) (key : List Byte) (use minTag : Nat) (t : State) : Prop :=
      let w := (s.sl c).slotAt n
      let v := (t.sl c).slotAt n
      v.key = key ∧ v.usage.toNat = use ∧ v.minTag.toNat = minTag ∧ v.state = .valid ∧ v.txCounter = 0
        ∧ v.generation = (if w.generation = 0xFFFF then 1 else w.generation + 1)
        ∧ (∀ m, m < 64 → m ≠ n → (t.sl c).slotAt m = (s.sl c).slotAt m)
        ∧ (t.sl c).mac.replay = (s.sl c).mac.replay.filter (fun r => r.slot.val != n)
        ∧ (t.sl c).mac.events = (s.sl c).mac.events ||| 4
        ∧ (∀ k, (t.sl c).cart = some k → k.slots = (t.sl c).mac.slots.toList ∧ k.replay = (t.sl c).mac.replay)
        ∧ OtherSlices c s t
    let erased (c : Fin 4) (mask : Nat) (t : State) : Prop := ∀ m, m < 64 →
      let w := (s.sl c).slotAt m
      let v := (t.sl c).slotAt m
      if mask.testBit m then v.state = .empty ∧ v.key = List.replicate w.key.length 0 ∧ v.usage = 0 ∧ v.txCounter = 0
        ∧ v.generation = (if w.generation = 0xFFFF then 1 else w.generation + 1) ∧ v.eraseCause = 1
      else v = w
    (∀ p : List Byte, keyPacketOk p = false → Gives (.keyload p) s (fun t =>
      t.tap.keyload.head? = some 0x03 ∧ t.tap.ir = 0x21 ∧ t.slices = s.slices ∧ t.queues = s.queues))
    ∧ (∀ p c, keyPacketOk p = true → u8 p 0 = c.val → ((s.sl c).ctl.state = .calibrating ∨ (s.sl c).up = true) →
      (s.sl c).mac.blocked = 0 → unbound c → Gives (.keyload p) s (fun t =>
        t.tap.keyload.head? = some 0x00
          ∧ loaded c (u8 p 1) (slice p 8 (if u8 p 2 = 1 then 32 else 16)) (u8 p 3) (u8 p 4) t))
    ∧ (∀ (c : Fin 4) cmd parity, s.inHand (localQ c 52) 0x40 = some cmd → (s.sl c).up = true →
      let b := cmd.body
      let w := (s.sl c).slotAt (u8 b 0)
      (deriveBodyOk b = false → Does (.keyDerive c parity) s (fun s => s.finish cmd 0x03 []))
      ∧ (deriveBodyOk b = true → slotGood w = true → w.state = .empty →
        Does (.keyDerive c parity) s (fun s => s.finish cmd 0x20 []))
      ∧ (deriveBodyOk b = true → slotGood w = true → w.state ≠ .empty → w.usage.getLsbD 2 = false →
        Does (.keyDerive c parity) s (fun s => s.finish cmd 0x27 []))
      ∧ (deriveBodyOk b = true → slotGood w = true → w.state ≠ .empty → w.usage.getLsbD 2 = true → (s.sl c).mac.blocked = 0 →
        (parity = false → Does (.keyDerive c parity) s (fun s => (s.keep cmd).modSl c (fun x => { x with
          mac := { x.mac with ops := x.mac.ops ++ [
            { slot := Fin.ofNat 64 (u8 b 0), generation := w.generation, left := deriveBlocks b, derive := some cmd }] } })))
        ∧ (parity = true → Gives (.keyDerive c parity) s (fun t => t.slices = s.slices ∧ (t.qu cmd.queue).inHand = none))))
    ∧ (∀ (c : Fin 4) (o : MacOp) cmd split, (s.sl c).macReqs = [256] → (s.sl c).mac.ops = [o] → o.derive = some cmd →
      slotGood ((s.sl c).slotAt o.slot.val) = true → deriveBodyOk cmd.body = true →
      let b := cmd.body
      let w := (s.sl c).slotAt o.slot.val
      let cost := if w.aes256 then 20 else 16
      (1 < o.left → Does (.macBlockGrant c false split) s (fun s => s.modSl c (fun x => { x with mac := { x.mac with
        ptr := 0, busy := x.mac.busy + cost, ops := [{ o with left := o.left - 1 }] } })))
      ∧ (o.left ≤ 1 → unverifying c → Gives (.macBlockGrant c false split) s (fun t => (t.sl c).mac.ops = []
          ∧ (t.sl c).mac.busy = (s.sl c).mac.busy + cost
          ∧ loaded c (u8 b 1) (kdfKey w.key (slice b 8 (u8 b 5)) (slice b (8 + u8 b 5) (u8 b 6)) (u8 b 2 == 1))
              (u8 b 3) (u8 b 4) t)))
    ∧ (∀ (c : Fin 4) cmd, s.inHand (localQ c 52) 0x41 = some cmd → (s.sl c).up = true → unbound c →
      Gives (.keyErase c) s (fun t => erased c (u64 cmd.body 0) t ∧ (t.qu cmd.queue).inHand = none ∧ OtherSlices c s t))
    ∧ (s.mailbox.go = true → s.mailbox.taken = false → (s.qu 68).inHand = none → (s.sl 0).up = true → unbound 0 →
      (bf s.mailbox.opcode 0 8 = 3 → Gives .eraseKeys s (fun t =>
        erased 0 (bf (s.mailbox.word 0) 0 16) t ∧ t.mailbox.go = false ∧ t.mailbox.status = 0 ∧ OtherSlices 0 s t))
      ∧ (bf s.mailbox.opcode 0 8 = 4 → s.mailbox.deriveOk = true →
        let w := (s.sl 0).slotAt (bf (s.mailbox.word 0) 0 8)
        slotGood w = true →
        bf (s.mailbox.word 0) 0 8 ≠ bf (s.mailbox.word 0) 8 8 → 1 ≤ bf (s.mailbox.word 0) 24 3 →
        1 ≤ bf (s.mailbox.word 1) 0 8 → bf (s.mailbox.word 1) 0 8 ≤ 32 → bf (s.mailbox.word 1) 8 8 ≤ 32 →
        (w.state = .empty →
          Gives .deriveKey s (fun t => t.mailbox.go = false ∧ t.mailbox.status = 0x20 ∧ t.slices = s.slices))
        ∧ (w.state ≠ .empty → w.usage.getLsbD 2 = true → (s.sl 0).mac.blocked = 0 → Gives .deriveKey s (fun t =>
          t.mailbox.go = true ∧ t.mailbox.taken = true ∧ (t.sl 0).mac.slots = (s.sl 0).mac.slots
          ∧ (t.sl 0).mac.ops.length = (s.sl 0).mac.ops.length + 1
          ∧ (∀ o, (t.sl 0).mac.ops.getLast? = some o → o.slot.val = bf (s.mailbox.word 0) 0 8 ∧ o.derive.isSome = true)
          ∧ OtherSlices 0 s t))))

/-- R266 to R269: the alarms of the key store. -/
def Obligations.KeyAlarms : Prop :=
  ∀ s : State,
    let alarmed (c : Fin 4) (bit : Nat) (wide : Bool) (t : State) : Prop :=
      let m := (s.sl c).mac
      let n := (t.sl c).mac
      if 2 ≤ (s.sl c).ctl.state.code ∧ (s.sl c).cart.isSome then
        n.blocked = m.blocked ||| BitVec.ofNat 6 (2 ^ bit) ∧ n.erasing = true ∧ n.lastCause = BitVec.ofNat 6 (2 ^ bit)
          ∧ n.eraseCause = (if m.erasing then m.eraseCause ||| BitVec.ofNat 6 (2 ^ bit) else BitVec.ofNat 6 (2 ^ bit))
          ∧ n.alarmTb = s.tb ∧ n.erases.toNat = min (m.erases.toNat + 1) 0xFFFF ∧ n.events = m.events ||| 1
          ∧ (∀ k, (t.sl c).cart = some k → k.marker = true)
          ∧ ((s.sl c).ctl.state.served = true → n.replay = []
            ∧ ∀ i, i < 64 → ((t.sl c).slotAt i).state = .empty ∧ ((t.sl c).slotAt i).eraseCause = 2
              ∧ ((t.sl c).slotAt i).key = List.replicate ((s.sl c).slotAt i).key.length 0)
      else n.blocked = (if wide then m.blocked ||| BitVec.ofNat 6 (2 ^ bit) else m.blocked) ∧ n.slots = m.slots
    let unbound (c : Fin 4) : Prop := (s.sl c).mac.ops = []
      ∧ ∀ k, k < 256 → ∀ e, ((s.sl c).ctxAt k).front = some e → e.bound = none
    ((∀ c, unbound c) →
      Gives .tamperLoopOpen s (fun t => ∀ c, alarmed c 0 true t)
      ∧ Gives .alarmInAsserted s (fun t => ∀ c, alarmed c 1 true t ∧ (t.sl c).mac.alarmIn = true)
      ∧ Gives .overTemperature s (fun t => ∀ c, alarmed c 2 true t)
      ∧ Gives .underTemperature s (fun t => ∀ c, alarmed c 3 true t))
    ∧ (∀ c, unbound c →
      Gives (.sliceSupplyMonitor c) s (fun t => alarmed c 4 false t ∧ OtherSlices c s t)
      ∧ Gives (.clockGlitch c) s (fun t => alarmed c 5 false t ∧ OtherSlices c s t))
    ∧ (∀ c, ((s.sl c).mac.erasing = true → (s.sl c).ctl.state.served = true → Gives (.mirrorEraseDone c) s (fun t =>
        (t.sl c).mac = { (s.sl c).mac with erasing := false }
        ∧ (t.sl c).cart = (s.sl c).cart.map (fun k => { k with
            marker := false, slots := (s.sl c).mac.slots.toList, replay := (s.sl c).mac.replay })))
      ∧ ((s.sl c).mac.erasing = false → Does (.mirrorEraseDone c) s id)
      ∧ ∀ a : AlarmSource, Does (.loadsUnblocked c a) s (fun s => s.modSl c (fun x => { x with mac := { x.mac with
          blocked := x.mac.blocked &&& ~~~alarmMask a, alarmIn := x.mac.alarmIn && decide (a ≠ .alarmIn) } })))

/-- R240, R241, R255, R256, R265: the blocks of a verification, and the commit of a PASS. -/
def Obligations.Verification : Prop :=
  ∀ (c : Fin 4) (s : State),
    let x := s.sl c
    let next (k n : Nat) (m : Mac) : Mac := { m with ptr := (k + 1) % 257, busy := m.busy + n }
    (∀ parity split, x.macReqs = [] → Does (.macBlockGrant c parity split) s id)
    ∧ (∀ (k : Fin 256) e b, x.macReqs = [k.val] → (x.ctxAt k.val).front = some e → e.bound = some b →
      let w := x.slotAt b.1.val
      let cost := if w.aes256 then 20 else 16
      slotGood w = true →
      (∀ split, e.done + 16 < 10 + e.length → Does (.macBlockGrant c false split) s (fun s => s.modSl c (fun x =>
        { x with mac := next k.val cost x.mac, ctx := vmod x.ctx k.val (fun y => y.setFront
            { e with chain := cmacStep w.key e.chain ((e.bytes.drop e.done).take 16), done := e.done + 16 }) })))
      ∧ (10 + e.length ≤ e.done + 16 → (x.ctxAt k.val).spec = false →
        let tag := (cmacLast w.key e.chain ((e.bytes.drop e.done).take (10 + e.length - e.done))).take (e.tagBits / 8)
        (tag = e.bytes.drop (10 + e.length) → Does (.macBlockGrant c false false) s (fun s => s.modSl c (fun x =>
          { x with mac := next k.val cost x.mac, ctx := vmod x.ctx k.val (fun y => y.setFront
              { e with done := 10 + e.length, commit := true }) })))
        ∧ (tag ≠ e.bytes.drop (10 + e.length) → (x.ctxAt k.val).queued = [e] → (x.ctxAt k.val).env = none →
          Gives (.macBlockGrant c false false) s (fun t =>
            (t.sl c).mac = next k.val cost { x.mac with tagFail := min (x.mac.tagFail + 1) 0xFFFF }
            ∧ ((t.sl c).ctxAt k.val).front = none ∧ (t.sl c).cart = x.cart ∧ OtherSlices c s t))))
    ∧ ((∀ k, k < 256 → ∀ e, (x.ctxAt k).front = some e → e.commit = false) → Does (.mirrorCommit c) s id)
    ∧ (∀ (k : Fin 256) e b, (x.ctxAt k.val).queued = [e] → (x.ctxAt k.val).env = none → e.commit = true →
      e.bound = some b → e.ended = true → e.closed = false → (x.ctxAt k.val).spec = false → ctlOf e.payload = [] →
      (∀ j, j < k.val → ∀ d, (x.ctxAt j).front = some d → d.commit = false) →
      Gives (.mirrorCommit c) s (fun t =>
        let r := replayAccept (x.replayOf k (BitVec.ofNat 8 (u8 e.bytes 1)) b.1) e.counter
        (t.sl c).mac = { x.mac with pass := min (x.mac.pass + 1) 0xFFFFFFFF, replay := putReplay r x.mac.replay }
        ∧ (t.sl c).cart = x.cart.map (fun m => { m with
            slots := x.mac.slots.toList, replay := putReplay r x.mac.replay })
        ∧ ((t.sl c).ctxAt k.val).front = none))

/-! ### The host port -/

/-- R276, R278, R282, R283, R296: the host rings, enables, disables and flushes a queue. -/
def Obligations.QueueControl : Prop :=
  ∀ (q : Fin 256) (s : State),
    let k := s.qu q
    let put (f : Queue → Queue) (s : State) : State := s.modQ q f
    (∀ (o : BitVec 16) (size : Nat) (v : Word),
      ((size ≠ 4 ∨ o.toNat % 4 ≠ 0) → Gives (.doorbellProducer o size v) s (fun t => t.queues = s.queues))
      ∧ (o.toNat % 4 = 0 → o.toNat % 256 ≠ 0 → Does (.doorbellProducer o 4 v) s id)
      ∧ (o.toNat = 256 * q.val → s.queueActive q = true → (v - k.cons).toNat ≤ 2 ^ bf k.ringCfg 0 5 →
        Does (.doorbellProducer o 4 v) s (put (fun k => { k with prod := v })))
      ∧ (o.toNat = 256 * q.val → (s.queueActive q = false ∨ 2 ^ bf k.ringCfg 0 5 < (v - k.cons).toNat) →
        Does (.doorbellProducer o 4 v) s (put (fun k => { k with events := k.events ||| 8 }))))
    ∧ (s.mod.ready = true →
      (k.en = true → Does (.queueEnable q) s id)
      ∧ (k.en = false → k.ringLo = 0 → k.ringHi = 0 →
        Does (.queueEnable q) s (put (fun k => { k with events := k.events ||| 0x20 })))
      ∧ (k.en = false → (k.ringLo ≠ 0 ∨ k.ringHi ≠ 0) → (queueIsCmd q = false ∨ s.complOk q = true) →
        Does (.queueEnable q) s (put (fun k => { k with en := true, prod := 0, cons := 0, peak := k.fill })))
      ∧ (k.en = true → k.xfer = none → k.buf = none → Does (.queueDisable q) s (put (fun k =>
          { k with en := false, flush := false, capWait := false })))
      ∧ (k.en = false → Does (.queueDisable q) s id)
      ∧ (queueIsCmd q = true → Does (.flush q) s id)
      ∧ (queueIsCmd q = false → k.xfer ≠ none → Does (.flush q) s (put (fun k => { k with flush := true })))
      ∧ (∀ b, queueIsCmd q = false → k.xfer = none → k.buf = some b → 0 < b.nrec → bit k.irq 31 = false →
        Does (.flush q) s (put (fun k => { k with buf := none, flush := false, events := k.events ||| 1 }))))
    ∧ (∀ b t, k.buf = some b → b.opened = some t →
      (s.real < t + 1024 * bf k.ringCfg 16 16 → Does (.flushUsExpired q) s id)
      ∧ (t + 1024 * bf k.ringCfg 16 16 ≤ s.real → s.qmg.inReset = false → queueIsCmd q = false → k.xfer = none →
        0 < b.nrec → bit k.irq 31 = false → Does (.flushUsExpired q) s (put (fun k =>
          { k with buf := none, flush := false, events := k.events ||| 1 }))))
    ∧ (k.irqOwed = false → Does (.irqHoldoffEnd q) s id)
    ∧ (∀ t, k.irqOwed = true → bit k.irq 31 = true → k.irqLast = some t →
      (t + 1024 * bf k.irq 8 14 ≤ s.real →
        Does (.irqHoldoffEnd q) s (put (fun k => { k with irqLast := some s.real, irqOwed := false })))
      ∧ (s.real < t + 1024 * bf k.irq 8 14 → Does (.irqHoldoffEnd q) s id))

/-- R270, R272, R273, R277, R294, R295: descriptors, the DMA arbiter, and errors of the link. -/
def Obligations.DmaAndLinkErrors : Prop :=
  ∀ (q : Fin 256) (s : State),
    let k := s.qu q
    let put (f : Queue → Queue) (s : State) : State := s.modQ q f
    (s.qmg.inReset = false → queueIsCmd q = false → s.queueActive q = true → k.buf = none → k.prod ≠ k.cons →
      ∀ (a : DWord) (len : Word),
        let good := a.toNat % 64 = 0 ∧ len.toNat % 64 = 0 ∧ 16384 ≤ len.toNat ∧ len.toNat ≤ 4194304
        (good → Does (.descriptorFetch q a len) s (put (fun k => { k with
          cons := k.cons + 1, buf := some
            { addr := a.toNat, len := len.toNat, used := 0, opened := none, nrec := 0, firstSeq := none, firstTs := 0,
              desc := k.cons.toNat % 2 ^ bf k.ringCfg 0 5, srcs := [], lastSeq := 0 } })))
        ∧ (¬good → bit k.irq 31 = false → Does (.descriptorFetch q a len) s (put (fun k => { k with
          cons := k.cons + 1, events := k.events ||| 5 }))))
    ∧ (∀ x, s.qmg.inReset = false → k.xfer = some x → s.qmg.mps < x.left.length → 0 < s.qmg.mps → s.queueClass q < 2 →
      s.qmg.roundClass < 3 →
      (∀ p, s.wantsDma p = decide (p = q)) → (∀ p, (s.qu p).full = false) → Gives .dmaGrant s (fun t =>
        (t.qu q).xfer = some { x with addr := x.addr + s.qmg.mps, left := x.left.drop s.qmg.mps }
        ∧ Output.hostWrite x.addr (x.left.take s.qmg.mps) ∈ t.out
        ∧ (∀ p, p ≠ q → { t.qu p with capWait := false } = { s.qu p with capWait := false })
        ∧ vget t.qmg.dmaPtr (s.queueClass q) 0 = (q.val + 1) % 256 ∧ t.qmg.roundClass = s.queueClass q
        ∧ t.slices = s.slices))
    ∧ (s.tb / 1024000 ≠ s.qmg.rawWindow → Does .rawCapWindow s (fun s => { s with
        qmg := { s.qmg with rawWindow := s.tb / 1024000, rawUsed := 0 },
        queues := vmap (fun k => { k with capWait := false }) s.queues }))
    ∧ (s.tb / 1024000 = s.qmg.rawWindow → Does .rawCapWindow s id)
    ∧ (∀ timeout ecrc : Bool, s.qmg.inReset = false → s.queueActive q = true → k.xfer = none → k.buf = none →
      Does (.dmaReadError q timeout ecrc) s (fun s =>
        let t := put (fun k => { k with
          en := false, flush := false, capWait := false, events := k.events ||| 0x10,
          inHand := k.inHand.filter (fun c => c.desc == 0xFFFFFFFF) }) s
        { t with qmg := { t.qmg with
          events := (s.qmg.events ||| (if timeout then 2 else 0)) ||| (if ecrc then 4 else 0) } }))
    ∧ Does (.poisonedWrite false) s id
    ∧ Does (.poisonedWrite true) s (fun s => { s with qmg := { s.qmg with events := s.qmg.events ||| 4 } })
    ∧ (s.qmg.inReset = false → Gives .hostPortReset s (fun t =>
        t.qmg.inReset = true ∧ t.qmg.hostResets.toNat = min (s.qmg.hostResets.toNat + 1) 0xFFFF ∧ t.slices = s.slices
        ∧ let m := t.qu q
          m.en = false ∧ m.prod = 0 ∧ m.cons = 0 ∧ m.buf = none ∧ m.xfer = none ∧ m.outstanding = k.outstanding
          ∧ m.held = k.held
          ∧ (k.xfer = none → m.seq = k.seq
            ∧ (k.buf = none → m.staged = k.staged ∧ m.headShed = k.headShed)
            ∧ ∀ b, k.buf = some b → 0 < b.nrec → m.staged = k.headShed.toList ++ k.staged ∧ m.headShed.isSome = true)
          ∧ ∀ x, k.xfer = some x → k.buf = none → x.head = false → s.queueOld q = false → m.staged = x.entry :: k.staged))
    ∧ (∀ width speed mps : Nat, s.qmg.inReset = true → width ∈ [1, 2, 4] → speed ∈ [1, 2] → mps ∈ [128, 256] →
      Does (.hostPortResetExit width speed mps) s (fun s => { s with qmg := { s.qmg with
        inReset := false, linkUp := true, linkWidth := width, linkSpeed := speed, mps := mps,
        events := s.qmg.events ||| 1 } }))

/-- R276, R279 to R281: commands of the host, from their descriptor to their COMMAND_DONE. -/
def Obligations.CommandsOfTheHost : Prop :=
  ∀ (q : Fin 256) (s : State),
    (∀ (op : Byte) (tag len : Word) (body : List Byte),
      let cmd : Command := {
        queue := q, opcode := op, tag := tag,
        desc := BitVec.ofNat 32 ((s.qu q).cons.toNat % 2 ^ bf (s.qu q).ringCfg 0 5), body := padTo len.toNat body }
      let took (s : State) : State := s.modQ q (fun k => { k with cons := k.cons + 1 })
      (s.mayFetch q = false → Does (.commandFetch q op tag len body) s id)
      ∧ (s.mayFetch q = true →
        (carrier op.toNat = none → Does (.commandFetch q op tag len body) s (fun s => (took s).complete cmd.ref 3 []))
        ∧ (∀ k, carrier op.toNat = some k →
          ((8192 < len.toNat ∨ len.toNat % 4 ≠ 0) →
            Does (.commandFetch q op tag len body) s (fun s => (took s).complete cmd.ref 3 []))
          ∧ (len.toNat ≤ 8192 → len.toNat % 4 = 0 → s.carries q k = false →
            Does (.commandFetch q op tag len body) s (fun s => (took s).complete cmd.ref 2 []))
          ∧ (len.toNat ≤ 8192 → len.toNat % 4 = 0 → s.carries q k = true →
            (∀ n, bodyLength op.toNat cmd.body = some n → len.toNat ≠ n →
              Does (.commandFetch q op tag len body) s (fun s => (took s).complete cmd.ref 3 []))
            ∧ ((∀ n, bodyLength op.toNat cmd.body = some n → len.toNat = n) →
              Does (.commandFetch q op tag len body) s (fun s => (took s).modQ q (fun k =>
                { k with inHand := some cmd })))))))
    ∧ (∀ cmd, s.inHand q 0x00 = some cmd →
      ((s.qu q).outstanding = [] → Does (.nop q) s (fun s => s.finish cmd 0 []))
      ∧ ((s.qu q).outstanding ≠ [] → Does (.nop q) s (fun s => s.keep cmd)))
    ∧ (∀ r rest, (s.qu q).held = r :: rest → let p := s.complQueue q
      (s.queueDeclared p = true → queueIsCmd p = false → (s.qu p).fits r.size = true → p ≠ q →
        Gives (.heldCompletionRelease q) s (fun t => (t.qu q).held = rest
          ∧ (t.qu p).staged.length = (s.qu p).staged.length + 1 ∧ t.slices = s.slices))
      ∧ ((s.qu p).fits r.size = false → Does (.heldCompletionRelease q) s id))

/-! ### Power -/

/-- R368, R369, R372, R373, R377: a grant cycle. -/
def Obligations.GrantCycles : Prop :=
  ∀ s : State,
    let applied (p : Pwr) : Pwr := { p with
      held := vmapIdx (fun i h => h - vget p.rel i 0) p.held, rel := Vector.replicate 18 0,
      aux := if p.aux = .falling then .off else p.aux }
    let given (i : Nat) (p : Pwr) : Pwr := { p with
      held := vmod p.held i (fun h => h + vget p.want i 0), want := vmod p.want i (fun _ => 0),
      ptr := vmod p.ptr (reqClass i) (fun _ => (i + 1) % 18) }
    ((∀ i, i < 18 → vget s.pwr.want i 0 = 0) → Does .grantCycle s (fun s => { s with pwr := applied s.pwr }))
    ∧ (∀ i, i < 18 → vget s.pwr.want i 0 ≠ 0 → (∀ j, j < 18 → j ≠ i → vget s.pwr.want j 0 = 0) →
      s.mod.swapping = none →
      let free := (applied s.pwr).held.toList.sum + vget s.pwr.want i 0 ≤ s.pwr.effective
      let grant (s : State) : State := { s with pwr := given i (applied s.pwr) }
      (free →
        (i = 1 → Does .grantCycle s (fun s => { grant s with fls := { s.fls with running := true } }))
        ∧ ((6 ≤ i ∧ i ≤ 8) → Does .grantCycle s grant)
        ∧ (i = 9 → Does .grantCycle s (fun s => { s with pwr := { given i (applied s.pwr) with aux := .on } }))
        ∧ (∀ c : Fin 4, i = 14 + c.val → Does .grantCycle s (fun s => (grant s).modSl c (fun x =>
            { x with afe := { x.afe with searching := true } }))))
      ∧ (¬free →
        (i = 1 → Does .grantCycle s (fun s => { s with pwr := applied s.pwr }))
        ∧ (i = 9 → Gives .grantCycle s (fun t => t.pwr = { applied s.pwr with
            want := vmod s.pwr.want 9 (fun _ => 0), refused := min (s.pwr.refused + 1) 0xFFFF,
            events := s.pwr.events ||| 8 ||| 0x20, aux := .off }))))

/-- R367, R368, R374 to R377, R379, R380: the input, the budget and the auxiliary output. -/
def Obligations.PowerInput : Prop :=
  ∀ s : State,
    let put (f : Pwr → Pwr) (s : State) : State := { s with pwr := f s.pwr }
    let classed (k : InputClass) (event : Nat) (want : Vector Nat 18) (t : State) : Prop :=
      let u : Pwr := { s.pwr with cls := k }
      { t.pwr with want := s.pwr.want } = { u with events := (s.pwr.events ||| BitVec.ofNat 32 (2 ^ event)) |||
        (if u.effective < s.pwr.effective ∧ u.effective < s.pwr.granted then 0x10 else 0) }
      ∧ t.pwr.want = want
    (∀ m : InputMeas, Does (.inputMeasurement m) s (put (fun p => { p with
      lowSince := if m.dv.toNat < (if m.ac then 850 else 1200) then some (p.lowSince.getD s.real) else none,
      backSince := if (if m.ac then 850 else 1200) ≤ m.dv.toNat then some (p.backSince.getD s.real) else none,
      goodSince := if (if m.ac then 900 else 1250) ≤ m.dv.toNat then some (p.goodSince.getD s.real) else none,
      inputDv := m.dv.toNat, ac := m.ac, freq := if m.ac then m.freq.toNat else 0,
      drawNow := m.draw.toNat, drawPeak := max p.drawPeak m.draw.toNat,
      railMv := vmapIdx (fun i v => match m.rails[i]? with | some r => r.1.toNat | none => v) p.railMv,
      railOk := vmapIdx (fun i v => match m.rails[i]? with | some r => r.2 | none => v) p.railOk })))
    ∧ (s.pwr.cls = .normal →
      (∀ t, s.pwr.lowSince = some t → t + 102400000 ≤ s.real → Gives .brownOut s (classed .brownOut 0 s.pwr.want))
      ∧ ((∀ t, s.pwr.lowSince = some t → s.real < t + 102400000) → Does .brownOut s id)
      ∧ Does .normalRestored s id ∧ Does .inputReturn s id)
    ∧ (s.pwr.cls = .brownOut →
      (∀ t, s.pwr.goodSince = some t → t + 1024000000 ≤ s.real → Gives .normalRestored s (classed .normal 2 s.pwr.want))
      ∧ ((∀ t, s.pwr.goodSince = some t → s.real < t + 1024000000) → Does .normalRestored s id)
      ∧ Does .brownOut s id ∧ Does .inputReturn s id)
    ∧ (s.pwr.cls = .inputLoss →
      (∀ t, s.pwr.backSince = some t → t + 102400000 ≤ s.real → Gives .inputReturn s (classed .brownOut 2
        (if s.fls.jobs = [] ∨ s.fls.running = true then s.pwr.want else vmod s.pwr.want 1 (fun _ => 6))))
      ∧ ((∀ t, s.pwr.backSince = some t → s.real < t + 102400000) → Does .inputReturn s id)
      ∧ Does .inputLoss s id)
    ∧ (s.pwr.cls ≠ .inputLoss → (∀ c, (s.sl c).tx.state ≠ .prepare ∧ (s.sl c).tx.state ≠ .wait) →
      Gives .inputLoss s (classed .inputLoss 1 (vmod s.pwr.want 1 (fun _ => 0))))
    ∧ (s.mod.ready = true → s.mod.swapping = none →
      (∀ v : Word,
        let ok := 240 ≤ bf v 0 10 ∧ bf v 0 10 ≤ 640 ∧ 240 ≤ bf v 16 10 ∧ bf v 16 10 ≤ 640
        (¬ok → Does (.budgetWrite v) s (put (fun p => { p with events := p.events ||| 0x80 })))
        ∧ (ok → Gives (.budgetWrite v) s (fun t => t.pwr.budget = mkWord [(16, 10, bf v 16 10), (0, 10, bf v 0 10)]
          ∧ t.pwr.held = s.pwr.held ∧ t.pwr.want = s.pwr.want ∧ t.pwr.cls = s.pwr.cls)))
      ∧ (∀ v : Word, let ma := bf v 0 10
        (500 < ma → Does (.auxWrite v) s (put (fun p => { p with events := p.events ||| 0x80 })))
        ∧ (0 < ma → ma ≤ 500 → bit v 31 = true → s.pwr.aux = .off → Does (.auxWrite v) s (put (fun p => { p with
            auxMa := ma, aux := .requested, want := vmod p.want 9 (fun _ => (33 * ma + 499) / 500) })))
        ∧ (ma ≤ 500 → ma = s.pwr.auxMa → bit v 31 = false → s.pwr.aux = .on → Does (.auxWrite v) s (put (fun p => { p with
            aux := .falling, want := vmod p.want 9 (fun _ => 0),
            rel := vmod p.rel 9 (fun _ => vget p.held 9 0) })))))
    ∧ (s.pwr.aux ≠ .on → Does .auxFault s id)
    ∧ (s.pwr.aux = .on → Gives .auxFault s (fun t => t.pwr = { s.pwr with
        aux := .off, events := s.pwr.events ||| 0x40, want := vmod s.pwr.want 9 (fun _ => 0),
        rel := vmod s.pwr.rel 9 (fun _ => vget s.pwr.held 9 0) }))
    ∧ (∀ cmd, s.inHand 12 0x68 = some cmd → Does .pwrQuery s (fun s => s.finish cmd 0
        (s.pwr.held.toList.flatMap (fun n => le 2 n) ++ le 4 s.pwr.pendingBits ++ le 2 s.pwr.effective
          ++ le 2 (twos 16 ((s.pwr.effective : Int) - s.pwr.held.toList.sum)))))
    ∧ (∀ cmd, s.inHand 12 0x69 = some cmd →
      (bf s.fls.limit 0 16 < s.flashUsed + 4 → Does .pwrSave s (fun s =>
        ({ s with fls := { s.fls with events := s.fls.events ||| 1 } }).finish cmd 0x05 []))
      ∧ (s.flashUsed + 4 ≤ bf s.fls.limit 0 16 → Gives .pwrSave s (fun t =>
        t.fls.jobs = s.fls.jobs ++ [.pwrSave cmd.ref s.pwr.budget] ∧ t.flashUsed = s.flashUsed + 4
          ∧ (t.qu cmd.queue).inHand = none ∧ cmd.ref ∈ (t.qu cmd.queue).outstanding)))

/-! ### Module resets, start-up and firmware -/

/-- R376, R381, R382, R386, R393, R407: module resets and the end of the start-up. -/
def Obligations.ModuleResets : Prop :=
  ∀ s : State,
    let restarted (cause : Nat) (t : State) : Prop :=
      t.mod.resetCause = cause ∧ t.mod.ready = false ∧ t.real = s.real ∧ t.tbm = State.reset.tbm
        ∧ t.trk = State.reset.trk ∧ t.queues = State.reset.queues ∧ t.mod.images = s.mod.images
        ∧ t.fls.library = s.fls.library ∧ t.calStore = s.calStore
        ∧ t.pwr.cls = (if cause = 0 then .normal else s.pwr.cls)
        ∧ ∀ c, (t.sl c).cart = (s.sl c).cart ∧ (t.sl c).sram = []
          ∧ (t.sl c).ctl.state = (if (s.sl c).cart.isSome then .reset else .absent)
    (s.mod.ready = false → Gives .powerUp s (restarted 0))
    ∧ (s.mod.ready = true → Does .powerUp s id)
    ∧ (s.mod.ready = true → s.mod.swapping = none →
      Gives .watchdogExpiry s (restarted 2)
      ∧ ∀ v : Word, ((bf v 16 16 = 0x5A17 ∧ bit v 0 = true) → Gives (.moduleReset v) s (restarted 1))
        ∧ (¬(bf v 16 16 = 0x5A17 ∧ bit v 0 = true) → Does (.moduleReset v) s id))
    ∧ (s.pwr.cls = .inputLoss → Gives .railCollapse s (restarted 3))
    ∧ (s.pwr.cls ≠ .inputLoss → Does .railCollapse s id)
    ∧ Gives (.supervisorEccError false) s (restarted 2)
    ∧ Does (.supervisorEccError true) s (fun s => { s with errm := { s.errm with
        supEcc := min (s.errm.supEcc + 1) 0xFFFF, events := s.errm.events ||| 8 } })
    ∧ (∀ w, s.mod.swapping = some w → Gives (.swapFail true) s (restarted 5)
      ∧ Gives (.swapFail false) s (fun t => t.mod.swapping = none ∧ t.mod.image = s.mod.image
        ∧ t.mod.selected = s.mod.selected ∧ t.mod.images = s.mod.images ∧ t.tbm.tb = s.tbm.tb
        ∧ t.mod.events = s.mod.events ||| (if s.mod.busyWrite then 6 else 2)))
    ∧ (s.mod.ready = false → s.pwr.cls ≠ .inputLoss → ∀ m, s.mod.boot = some m → ∀ ecc : List FlashEcc,
      (∀ e, e ∈ ecc → e.corrected = true) →
      Gives (.moduleReady ecc) s (fun t => t.mod.ready = true ∧ (s.fls.corrected + ecc.length ≤ 0xFFFF → t.fls.corrected = s.fls.corrected + ecc.length)
        ∧ t.mod.image = m.image ∧ t.mod.fallback = m.fallback
        ∧ t.mod.resetCause = s.mod.resetCause ∧ t.slices = s.slices ∧ t.tbm = s.tbm
        ∧ (∀ b, s.pwr.saved = some b → t.pwr.budget = b) ∧ (s.pwr.saved = none → t.pwr.budget = s.pwr.budget)
        ∧ (∀ a, s.fea.saved = some a → t.fea.accept = a ∧ t.fea.committed = true)
        ∧ (s.mod.resetCause = 2 → t.errm.events.toNat.testBit 4 = true)))

/-- R387, R392, R393, R396, R397: features, images and swaps. -/
def Obligations.FeaturesAndImages : Prop :=
  ∀ s : State,
    (s.mod.ready = true → s.mod.swapping = none → ∀ v : Word,
      (s.fea.committed = true → Does (.featureCommit v) s (fun s =>
        { s with fea := { s.fea with events := s.fea.events ||| 1 } }))
      ∧ (s.fea.committed = false → Does (.featureCommit v) s (fun s =>
        { s with fea := { s.fea with accept := vmod s.fea.accept 3 (fun _ => v), committed := true } })))
    ∧ (∀ cmd, s.inHand 14 0x73 = some cmd →
      (s.fea.committed = false → Does .feaSave s (fun s => s.finish cmd 0x02 []))
      ∧ (s.fea.committed = true → s.flashUsed + 4 ≤ bf s.fls.limit 0 16 → Gives .feaSave s (fun t =>
        t.fls.jobs = s.fls.jobs ++ [.feaSave cmd.ref s.fea.accept] ∧ (t.qu cmd.queue).inHand = none)))
    ∧ (∀ cmd, s.inHand 14 0x72 = some cmd → Does .fwQuery s (fun s => s.finish cmd 0
        (le 4 (s.mod.fw s.mod.running).toNat ++ le 4 (s.mod.fw s.mod.other).toNat ++ s.mod.build s.mod.running
          ++ s.mod.build s.mod.other ++ [if s.mod.selected then 1 else 0, 0, 0, 0])))
    ∧ (∀ cmd, s.inHand 14 0x70 = some cmd → s.mod.swapping = none →
      let off := u32 cmd.body 0
      let n := u32 cmd.body 4
      ((n % 4 ≠ 0 ∨ n < 4 ∨ 4096 < n) → Does .fwLoadChunk s (fun s => s.finish cmd 0x03 []))
      ∧ (n % 4 = 0 → 4 ≤ n → n ≤ 4096 → s.mod.load = none →
        (off ≠ 0 → Does .fwLoadChunk s (fun s => s.finish cmd 0x03 []))
        ∧ (off = 0 → s.imagesUsed < 4 → (slice cmd.body 8 n).length < 64 → Gives .fwLoadChunk s (fun t =>
          t.mod.load = some (slice cmd.body 8 n, s.real) ∧ t.mod.img s.mod.other = none
          ∧ t.mod.img s.mod.running = s.mod.img s.mod.running ∧ t.imagesUsed = s.imagesUsed + 1
          ∧ t.fls.jobs = s.fls.jobs ++ [.image (some cmd.ref) s.mod.other none []]
          ∧ (t.qu cmd.queue).inHand = none))))
    ∧ (∀ cmd, s.inHand 14 0x71 = some cmd → s.mod.swapping = none →
      (s.mod.img s.mod.other = none → Does .fwActivate s (fun s => s.finish cmd 0x03 []))
      ∧ (∀ i r, s.mod.img s.mod.other = some i → s.mod.img s.mod.running = some r →
        let allowed := i.major = r.major ∨ (u8 cmd.body 0).testBit 0 = true
        (¬allowed → Does .fwActivate s (fun s => s.finish cmd 0x02 []))
        ∧ (allowed → s.mod.activate = none → Does .fwActivate s (fun s =>
          let t := s.keep cmd
          { t with mod := { t.mod with activate := some { cmd := some cmd.ref, atTb := u64 cmd.body 4 } } }))))
    ∧ (s.mod.swapping = none → ∀ i, s.mod.img s.mod.other = some i →
      (∀ a, s.mod.activate = some a →
        (s.tb < a.atTb → Does .swapStart s id)
        ∧ (a.atTb ≤ s.tb → Does .swapStart s (fun s => { s with mod := { s.mod with
            activate := none, pushed := none, swapping := some { cmd := a.cmd, started := s.real } } })))
      ∧ (∀ at_ r, s.mod.pushed = some at_ → s.mod.img s.mod.running = some r → alignUp 1048576 (at_ + 1024000000) ≤ s.tb →
        (i.major = r.major → Does .pushedImageActivate s (fun s => { s with mod := { s.mod with
            activate := none, pushed := none, swapping := some { cmd := none, started := s.real } } }))
        ∧ (i.major ≠ r.major → Does .pushedImageActivate s (fun s => { s with mod := { s.mod with pushed := none } }))))
    ∧ (∀ w, s.mod.swapping = some w → Gives .swapDone s (fun t =>
        t.mod.swapping = none ∧ t.mod.image = !s.mod.image ∧ t.mod.selected = !s.mod.image ∧ t.mod.fallback = false
        ∧ t.mod.images = s.mod.images ∧ t.mod.events = s.mod.events ||| (if s.mod.busyWrite then 5 else 1)
        ∧ t.fls.jobs = s.fls.jobs ++ [.selected (!s.mod.image)] ∧ t.tbm.tb = s.tbm.tb))

/-- R379, R390, R397, R398: the end of a flash write, and the mailbox. -/
def Obligations.FlashAndMailbox : Prop :=
  ∀ s : State,
    (s.fls.running = false → ∀ b, Does (.flashWriteDone b) s id)
    ∧ (s.fls.running = true →
      Does (.flashWriteDone true) s (fun s => { s with fls := { s.fls with events := s.fls.events ||| 2 } })
      ∧ ∀ j, s.fls.jobs = [j] →
        let ended (s : State) : State := { s with
          fls := { s.fls with jobs := [], running := false },
          pwr := { s.pwr with rel := vmod s.pwr.rel 1 (fun n => n + 6) } }
        (∀ b, j = .selected b → Does (.flashWriteDone false) s ended)
        ∧ (∀ cmd b, j = .pwrSave cmd b → Does (.flashWriteDone false) s (fun s =>
          let t := ended s
          ({ t with pwr := { t.pwr with saved := some b } }).complete cmd 0 []))
        ∧ (∀ cmd a, j = .feaSave cmd a → Does (.flashWriteDone false) s (fun s =>
          let t := ended s
          ({ t with fea := { t.fea with saved := some a } }).complete cmd 0 [])))
    ∧ (s.mailbox.go = true → s.mailbox.taken = false →
      let mask := bf (s.mailbox.word 0) 0 4
      let taken (at_ : Nat) (t : State) : Prop := t.mailbox.go = true ∧ t.mailbox.taken = true
        ∧ (∀ k, (t.sl 0).afe.calPend.any (fun p => p.kind == k && p.at_ == at_)
            = (decide (1 ≤ k ∧ k ≤ 4) && mask.testBit (k - 1)))
        ∧ OtherSlices 0 s t
      ((s.qu 68).inHand = none → (s.sl 0).up = true →
        (bf s.mailbox.opcode 0 8 = 1 →
          (mask = 0 → Gives .calibrate s (fun t => t.mailbox.go = false ∧ t.mailbox.status = 3 ∧ t.slices = s.slices))
          ∧ (mask ≠ 0 → (s.sl 0).afe.calPend = [] → (s.sl 0).afe.calRun = none → Gives .calibrate s (taken s.tb)))
        ∧ (bf s.mailbox.opcode 0 8 = 2 → mask ≠ 0 → (s.sl 0).afe.calPend = [] → (s.sl 0).afe.calRun = none →
          let at_ := (s.mailbox.word 2).toNat * 4294967296 + (s.mailbox.word 1).toNat
          s.tb + 65536 ≤ at_ → Gives .calibrateAt s (taken at_)))
      ∧ (s.mailbox.build = none → Does .mailboxBadOpcode s (fun s => { s with mailbox := { s.mailbox with
          go := false, status := 3, result := 0 } })))

/-! ### The return-channel transmitter -/

/-- R302, R305, R308, R311: a burst command is taken, and the steps of its key-up. -/
def Obligations.TxKeyUp : Prop :=
  ∀ (c : Fin 4) (s : State),
    (∀ f p cmd, (s.sl c).inForce = some f → f.tx = some p → s.inHand (localQ c (txCmdQueue p)) 0x50 = some cmd →
      (s.sl c).tx.state = .idle → (s.sl c).tx.lock = false → txBodyOk cmd.body s.tb = true →
      (u8 cmd.body 0).testBit 0 = false → (s.sl c).afe.bgRun = false → 0 < f.txTokens →
      Does (.txSend c) s (fun s =>
        let k := takeTx c cmd p (s.sl c).tx f.txTokens s.tb
        ((s.keep cmd).modSl c (fun x => { x with tx := (
          let t := { x.tx with state := .prepare, cmd := some k }
          if t.calFreq ≠ k.freq ∧ t.wantFreq ≠ k.freq then { t with lock := false, wantFreq := k.freq, band := 0xFF }
          else t) })).ask (10 + c.val) f.txTokens))
    ∧ (∀ k, (s.sl c).tx.cmd = some k →
      (((s.sl c).tx.state = .prepare ∨ (s.sl c).tx.state = .wait) → (s.sl c).synthReady k.freq = true →
        k.tokens ≤ s.holds (10 + c.val) → k.holdFrom ≤ s.tb → (s.sl c).tx.winOpen = false → k.tagging = false →
        Does (.plannedKeyup c) s (fun s => s.modSl c (fun x => { x with tx := { x.tx with
          state := .keyup, coexReq := true, coexPri := k.priority || x.tx.windows.any (fun w => w.opened && w.priority),
          cmd := some { k with phase := .req, phaseAt := s.real, keyup := s.tb, stage := 1 } } })))
      ∧ (k.phase = .req → k.phaseAt + 1024 * k.coexLead ≤ s.real → Gives (.trSwTransmit c) s (fun t =>
        (t.sl c).tx = { (s.sl c).tx with trSw := true, cmd := some { k with
          phase := .tr, phaseAt := k.phaseAt + 1024 * k.coexLead } }
        ∧ (t.sl c).sram = (s.sl c).sram ∧ (t.sl c).ctl = (s.sl c).ctl ∧ (t.sl c).afe = (s.sl c).afe))
      ∧ (k.phase = .tr → k.phaseAt + 1024 * k.trLead ≤ s.real → (s.sl c).synthReady k.freq = true →
        (((s.sl c).tx.gnt = true ∨ k.gntIgnore = true) → Gives (.paEnRise c) s (fun t =>
          (t.sl c).tx = { (s.sl c).tx with paEn := true, sense := (t.sl c).tx.sense, cmd := (t.sl c).tx.cmd }
          ∧ (t.sl c).tx.sense.isSome = true
          ∧ (t.sl c).tx.cmd.map (fun j => { j with fwd := k.fwd, rev := k.rev }) = some { k with
              phase := .pa, phaseAt := k.phaseAt + 1024 * k.trLead, paRose := true, stage := 2 }
          ∧ OtherSlices c s t))
        ∧ ((s.sl c).tx.gnt = false → k.gntIgnore = false →
          Does (.paEnRise c) s (fun s => s.modSl c (fun x => { x with tx := { x.tx with cmd := some { k with
            phase := .gntWait, phaseAt := k.phaseAt + 1024 * k.trLead, waited := true } } }))))
      ∧ (k.phase = .pa → k.phaseAt + 1024 * k.paLead ≤ s.real → (s.sl c).synthReady k.freq = true →
        let t0 := k.phaseAt + 1024 * k.paLead
        let tb0 := s.tbOf t0
        Does (.rampUp c) s (fun s =>
          s.modSl c (fun x => { x with tx := { x.tx with state := .on, paBias := k.biasMv, cmd := some { k with
            phase := .burst, phaseAt := t0, burstAt := t0, emitted := true, stage := 3,
            startTb := if k.emitted then k.startTb else tb0,
            late := k.late || (!k.emitted && k.atTb != 0 && decide (k.atTb < tb0)) } } }))
        ∧ Gives (.rampUp c) s (fun t =>
          Output.burstStart c tb0 k.freq k.level k.rampUs k.symrate (k.symbols k.burst) ∈ t.out)))

/-- R309, R310, R311: the bursts of a message and the release of the pins. -/
def Obligations.TxBursts : Prop :=
  ∀ (c : Fin 4) (s : State) (k : TxCmd), (s.sl c).tx.cmd = some k →
    (∀ fwd rev : BitVec 12, k.phase = .burst → k.phaseAt + k.symTicks (k.bodySyms k.burst) ≤ s.real →
      Does (.rampDown c fwd rev) s (fun s => s.modSl c (fun x => { x with tx := { x.tx with
        paBias := 0, sense := if x.tx.paEn then some (fwd.toNat, rev.toNat) else x.tx.sense,
        cmd := some { k with phase := .rampDown, rampSym := k.bodySyms k.burst, gFrom := 2 ^ 80,
                             fwd := max k.fwd fwd.toNat, rev := max k.rev rev.toNat } } }))
      ∧ Gives (.rampDown c fwd rev) s (fun t =>
        Output.rampDown c (s.tbOf (k.symAt (k.bodySyms k.burst))) k.rampUs ∈ t.out))
    ∧ (k.phase = .rampDown → k.phaseAt + k.symTicks k.endSym ≤ s.real → k.cut = false → (s.sl c).tx.cancelReq = false →
      let e := k.symAt k.endSym
      let ended : TxCmd := { k with endTb := s.tbOf e, sent := k.sent + 1, phaseAt := e }
      (k.burst + 1 < k.total → Does (.burstEnd c) s (fun s => s.modSl c (fun x => { x with tx := { x.tx with
        lastRampDown := e, cmd := some { ended with phase := .gap } } })))
      ∧ (k.total ≤ k.burst + 1 → Does (.burstEnd c) s (fun s => s.modSl c (fun x => { x with tx := { x.tx with
        lastRampDown := e, state := .release, paEn := false, paBias := 0, sense := none, trSw := x.tx.trSw,
        cmd := some { ended with phase := .paOff, stage := 4, status := 0 } } }))))
    ∧ (k.phase = .gap → k.phaseAt + 1024000 ≤ s.real →
        let t0 := k.phaseAt + 1024000
        let tb0 := s.tbOf t0
        Does (.nextBurst c) s (fun s => s.modSl c (fun x => { x with tx := { x.tx with
          state := .on, paBias := k.biasMv, cmd := some { k with
            burst := k.burst + 1, phase := .burst, phaseAt := t0, burstAt := t0, emitted := true, stage := 3,
            startTb := if k.emitted then k.startTb else tb0,
            late := k.late || (!k.emitted && k.atTb != 0 && decide (k.atTb < tb0)) } } })))
    ∧ (k.phase = .paOff → k.phaseAt + 1024 * k.paLead ≤ s.real → Does (.trSwRelease c) s (fun s => s.modSl c (fun x =>
        { x with tx := { x.tx with trSw := false, cmd := some { k with
          phase := .trOff, phaseAt := k.phaseAt + 1024 * k.paLead } } })))
    ∧ (k.phase = .trOff → k.phaseAt + 1024 * k.trLead ≤ s.real → (s.sl c).tx.removed = false → (s.sl c).tx.windows = [] →
      Gives (.coexRelease c) s (fun t => (t.sl c).tx.cmd = none ∧ (t.sl c).tx.coexReq = false ∧ (t.sl c).tx.coexPri = false
        ∧ (t.sl c).tx.state = (if k.inhibit = true then .inhibit else .idle)
        ∧ vget t.pwr.rel (10 + c.val) 0 = vget s.pwr.held (10 + c.val) 0 ∧ vget t.pwr.want (10 + c.val) 0 = 0
        ∧ (k.status = 0 → (t.sl c).tx.sent = min ((s.sl c).tx.sent + 1) 0xFFFF ∧ (t.sl c).tx.failed = (s.sl c).tx.failed)
        ∧ (k.status ≠ 0 → (t.sl c).tx.failed = min ((s.sl c).tx.failed + 1) 0xFFFF)))

/-- R302, R312 to R315, R317, R318: what ends a burst command early. -/
def Obligations.TxAborts : Prop :=
  ∀ (c : Fin 4) (s : State),
    let level (gnt : Bool) (t : Tx) : Tx := { t with
      gnt := gnt, windows := t.windows.map (fun w => { w with
        ungranted := w.ungranted + (if t.gnt then 0 else min s.tb w.stop - max w.start w.mark), mark := max w.mark s.tb }) }
    (∀ k, (s.sl c).tx.cmd = some k → (s.sl c).tx.removed = false →
      ((s.sl c).tx.state = .prepare → s.txReady c k = false → k.holdFrom + 1024 * k.holdUs ≤ s.tb → k.inhibit = false →
        Gives (.txHoldExpired c) s (fun t => (t.sl c).tx.cmd = none ∧ (t.sl c).tx.state = .idle
          ∧ (t.sl c).tx.paEn = (s.sl c).tx.paEn ∧ (t.sl c).tx.trSw = (s.sl c).tx.trSw
          ∧ (t.sl c).tx.events.toNat.testBit 2 = true
          ∧ vget t.pwr.rel (10 + c.val) 0 = vget s.pwr.held (10 + c.val) 0))
      ∧ (k.phase = .gntWait → k.phaseAt + 1024 * k.gntWait ≤ s.real →
        Does (.gntWaitExpired c) s (fun s => s.modSl c (fun x => { x with tx := { x.tx with
          state := .release, paEn := false, paBias := 0, sense := none, trSw := false,
          cmd := some { k with phase := .trOff, phaseAt := s.real, stage := 1, status := 0x11 } } })))
      ∧ (k.phase = .gntWait → (s.sl c).synthReady k.freq = true → Gives (.coexGrant c) s (fun t =>
          (t.sl c).tx = { level true (s.sl c).tx with
            paEn := true, sense := (t.sl c).tx.sense, cmd := (t.sl c).tx.cmd }
          ∧ (t.sl c).tx.sense.isSome = true
          ∧ (t.sl c).tx.cmd.map (fun j => { j with fwd := k.fwd, rev := k.rev }) = some { k with
              phase := .pa, phaseAt := s.real, paRose := true, stage := 2 }
          ∧ OtherSlices c s t))
      ∧ (k.phase = .burst → k.gntIgnore = false → Does (.coexWithdrawn c) s (fun s => s.modSl c (fun x =>
          { x with tx := { level false x.tx with state := .abort, paBias := 0, cmd := some { k with
            gFrom := k.gNow s.real, phase := .abbrev, phaseAt := s.real, stage := 3, abbreviated := true,
            status := 0x12 } } })))
      ∧ (∀ fwd rev, (s.sl c).tx.paEn = true → k.phase = .burst →
        let samples := fwd.zip rev
        (k.ampFault samples s.real = false → Does (.amplifierFault c fwd rev) s id)
        ∧ (k.ampFault samples s.real = true → Gives (.amplifierFault c fwd rev) s (fun t =>
          (t.sl c).tx = { (s.sl c).tx with
            state := .abort, paBias := 0, sense := (samples.getLast?).map (fun v => (v.1.toNat, v.2.toNat)),
            paFault := min ((s.sl c).tx.paFault + 1) 0xFF, events := (s.sl c).tx.events ||| 0x20,
            cmd := (t.sl c).tx.cmd }
          ∧ (t.sl c).tx.cmd.map (fun j => { j with fwd := k.fwd, rev := k.rev }) = some { k with
              gFrom := k.gNow s.real, phase := .abbrev, phaseAt := s.real, stage := 3, abbreviated := true,
              status := 0x13, inhibit := true })))
      ∧ (k.phase = .abbrev → k.phaseAt + 8192 ≤ s.real → (s.sl c).tx.resetAfter = none →
        Does (.abbreviatedRampEnd c) s (fun s => s.modSl c (fun x => { x with tx := { x.tx with
          lastRampDown := k.phaseAt + 8192, state := .release, paEn := false, paBias := 0, sense := none,
          cmd := some { k with
            endTb := s.tbOf (k.phaseAt + 8192), phase := .paOff, phaseAt := k.phaseAt + 8192 } } })))
      ∧ ((s.sl c).ctl.state = .running → k.phase = .none → k.inhibit = false → Gives (.cancel c) s (fun t =>
        (t.sl c).tx.cmd = none ∧ (t.sl c).tx.state = .idle ∧ (t.sl c).tx.paEn = (s.sl c).tx.paEn
          ∧ vget t.pwr.rel (10 + c.val) 0 = vget s.pwr.held (10 + c.val) 0)))
    ∧ ((s.sl c).tx.cmd = none →
      Does (.coexGrant c) s (fun s => s.modSl c (fun x => { x with tx := level true x.tx }))
      ∧ Does (.coexWithdrawn c) s (fun s => s.modSl c (fun x => { x with tx := level false x.tx }))
      ∧ ((s.sl c).ctl.state.served = true → Does (.cancel c) s id))
    ∧ ((s.sl c).ctl.state.served = true → (s.sl c).tx.state = .inhibit →
      Does (.faultClr c) s (fun s => s.modSl c (fun x => { x with tx := { x.tx with state := .idle } })))

/-- R300, R301, R303, R315, R316: the synthesiser's lock, and priority receive windows. -/
def Obligations.TxSynthAndWindows : Prop :=
  ∀ (c : Fin 4) (s : State),
    (∀ (band : Fin 128) (us : Nat), (s.sl c).tx.lock = false → 0 < (s.sl c).tx.wantFreq → (s.sl c).clk.coast = false →
      (s.sl c).afe.calRun = none → (s.sl c).tx.cmd = none →
      Gives (.synthLocked c band us) s (fun t =>
        let f := (s.sl c).tx.wantFreq
        let u := (t.sl c).tx
        u = { (s.sl c).tx with
          lock := true, calFreq := f, wantFreq := 0, band := band.val, div := u.div, vcoInt := u.vcoInt,
          vcoFrac := u.vcoFrac, lockUs := min us 1023 }
        ∧ (30000000 ≤ f → (f * 2 ^ (3 + u.div) ≥ 1800000000 ∨ u.div = 3) ∧ (u.div = 0 ∨ f * 2 ^ (2 + u.div) < 1800000000))
        ∧ u.vcoFrac < 2 ^ 24
        ∧ 2 * ((64000000 * (u.vcoInt * 2 ^ 24 + u.vcoFrac) : Nat) - (f * 2 ^ (3 + u.div) * 2 ^ 24 : Nat) : Int).natAbs ≤ 64000000
        ∧ OtherSlices c s t ∧ (t.sl c).sram = (s.sl c).sram ∧ t.pwr = s.pwr ∧ t.queues = s.queues))
    ∧ ((s.sl c).tx.lock = true → (s.sl c).tx.cmd = none → Does (.synthLockLoss c) s (fun s => s.modSl c (fun x =>
        { x with tx := { x.tx with
          lock := false, wantFreq := x.tx.calFreq, calFreq := 0, band := 0xFF, events := x.tx.events ||| 2,
          lockLoss := if x.tx.paEn then min (x.tx.lockLoss + 1) 0xFF else x.tx.lockLoss } })))
    ∧ (∀ cmd, s.inHand (localQ c 52) 0x51 = some cmd → (s.sl c).up = true → 1000 ≤ u32 cmd.body 8 →
      u32 cmd.body 8 ≤ 10000000 → u8 cmd.body 12 < 2 → (s.sl c).tx.windows.length < 4 → s.tb < u64 cmd.body 0 →
      (∀ w, w ∈ (s.sl c).tx.windows → s.tb < w.start) → (s.sl c).tx.keyed = false →
      Gives (.txRxwin c) s (fun t =>
        (t.sl c).tx.windows = (s.sl c).tx.windows ++ [
          { cmd := cmd.ref, start := u64 cmd.body 0, stop := u64 cmd.body 0 + 1024 * u32 cmd.body 8,
            priority := u8 cmd.body 12 == 1, opened := false, ungranted := 0, mark := s.tb }]
        ∧ (t.qu cmd.queue).inHand = none ∧ cmd.ref ∈ (t.qu cmd.queue).outstanding))
    ∧ ((s.sl c).tx.keyed = false → Does (.rxwinOpen c) s (fun s => s.modSl c (fun x =>
        let ws := x.tx.windows.map (fun w => { w with opened := w.opened || decide (w.start ≤ s.tb) })
        { x with tx := { x.tx with
          windows := ws, coexReq := ws.any (fun w => w.opened), coexPri := ws.any (fun w => w.opened && w.priority) } })))
    ∧ (∀ w up, (s.sl c).tx.windows = [w] → w.stop ≤ s.tb → (s.sl c).tx.cmd = none →
      Does (.rxwinEnd c up) s (fun s =>
        let n := w.ungranted + (if (s.sl c).tx.gnt then 0 else min s.tb w.stop - max w.start w.mark)
        let m := if up then (n + 1023) / 1024 else n / 1024
        (s.modSl c (fun x => { x with tx := { x.tx with
          windows := [], events := if m = 0 then x.tx.events else x.tx.events ||| 0x40,
          coexReq := x.tx.keyed, coexPri := false } })).complete w.cmd 0 (le 4 m)))
    ∧ (∀ w up, (s.sl c).tx.windows = [w] → s.tb < w.stop → Does (.rxwinEnd c up) s id)

/-! ### The serial audio port -/

/-- R331 to R333, R335, R338, R339, R341: the halves of the audio port. -/
def Obligations.AudioHalves : Prop :=
  ∀ (c : Fin 4) (rx : Bool) (s : State) (f : Forme) (p : List Byte), (s.sl c).inForce = some f → f.audio = some p →
    let h := (s.sl c).sai.half rx
    let half (t : State) : Half := (t.sl c).sai.half rx
    let events (t : State) : Word := (t.sl c).sai.events
    let rejects (i : Instr) : Prop := Does i s (fun s => s.modSl c (fun x =>
      { x with sai := { x.sai with events := x.sai.events ||| 0x400 } }))
    (∀ bits samples,
      ((h.state = .off ∨ h.state = .stopped ∨ h.state = .faulted) → Does (.frameStart c rx bits samples) s id)
      ∧ (h.state = .stalled → Gives (.frameStart c rx bits samples) s (fun t =>
          (half t).state = .starting ∧ (half t).edge = s.real ∧ (half t).lastStart = some s.real
          ∧ (bits = auSlots p * auWord p → (half t).suspect = false)
          ∧ (rx = false → (half t).fifo = [])
          ∧ (rx = true → bits = auSlots p * auWord p → (s.sl c).clk.coast = false →
            (half t).fifo = (maskSlots (auRxMask p)).map (fun i => (samples.getD i 0) <<< (32 - auWord p))
            ∧ (half t).fifoTs = [(s.tb, false)])
          ∧ OtherSlices c s t))
      ∧ (rx = true → auMaster p true = true → h.state = .starting → h.draining = false → (s.sl c).clk.coast = false →
          h.fifo.length + (maskSlots (auRxMask p)).length ≤ 64 * (maskSlots (auRxMask p)).length →
          Gives (.frameStart c rx bits samples) s (fun t =>
            (half t).fifo = h.fifo ++ (maskSlots (auRxMask p)).map (fun i => (samples.getD i 0) <<< (32 - auWord p))
            ∧ (half t).fifoTs = h.fifoTs ++ [(s.tb, h.slipped)] ∧ (half t).lastStart = some s.real ∧ (half t).xrun = h.xrun
            ∧ (t.sl c).sai.tx = (s.sl c).sai.tx ∧ OtherSlices c s t)))
    ∧ (∀ g frames, rx = false → (∀ r, r ∈ f.ofType 4 → dmAudio r.payload = false) → (s.sl c).sai.source = none →
        (s.sl c).sai.srcGate = none → (s.sl c).sai.rx.grid = none → h.grid = some g →
        g.at_ + g.k * 1024000000 / auRate p ≤ s.tb → h.active = true → (s.sl c).clk.coast = false →
        let n := (maskSlots (auTxMask p)).length
        h.fifo.length + n ≤ 64 * n → Gives (.gridFrame c frames) s (fun t =>
          (half t).fifo = h.fifo ++ List.replicate n 0 ∧ (half t).fifoTs = h.fifoTs ++ [(s.tb, false)]
          ∧ (half t).grid = some { g with k := g.k + 1 } ∧ (t.sl c).sai.rx = (s.sl c).sai.rx ∧ OtherSlices c s t))
    ∧ (auMaster p rx = false →
      ((s.real - h.edge) * h.refDen < 4 * h.refNum → Does (.stall c rx) s id)
      ∧ (4 * h.refNum ≤ (s.real - h.edge) * h.refDen → (h.state = .starting ∨ h.state = .running) →
        Gives (.stall c rx) s (fun t => half t = { h with
            state := .stalled, gate := none, start := false, draining := false, stalls := min (h.stalls + 1) 0xFF,
            stamps := [], pins := [] }
          ∧ events t = (s.sl c).sai.events ||| (if rx then 0x40 else 0x20) ∧ OtherSlices c s t))
      ∧ (h.state ≠ .off → h.state ≠ .faulted → Gives (.bclkOverrate c rx) s (fun t => half t = { h with
            state := .faulted, fifo := [], fifoTs := [], draining := false, gate := none, start := false, stop := false,
            stamps := [], pins := [] }
          ∧ events t = (s.sl c).sai.events ||| (if rx then 0x100 else 0x80))))
    ∧ (∀ g, h.gate = some g → g.began + 1024000 * auZcMs p ≤ s.real → Gives (.gateTimeout c rx) s (fun t =>
        (half t).gate = none ∧ (half t).state = (if g.opening then .running else .stopped)
        ∧ events t = (s.sl c).sai.events ||| 0x200 ∧ OtherSlices c s t))
    ∧ (let start : Instr := if rx then .rxStart c else .txStart c
      let stop : Instr := if rx then .rxStop c else .txStop c
      ((h.state = .stopped ∨ h.state = .faulted) → Gives start s (fun t =>
        (half t).state = .starting ∧ (half t).start = true ∧ (half t).fifo = [] ∧ (half t).edge = s.real
        ∧ (half t).grid = some (h.grid.getD { at_ := alignUp 1048576 s.tb, k := 0, base := 0 })
        ∧ (half t).refNum = 1024000000 ∧ (half t).refDen = auRate p ∧ OtherSlices c s t))
      ∧ (h.state ≠ .stopped → h.state ≠ .faulted → rejects start)
      ∧ (h.state = .running → Gives stop s (fun t => (half t).state = .stopping ∧ (half t).stop = true
        ∧ (half t).fifo = h.fifo ∧ (∃ g, (half t).gate = some g ∧ g.began = s.real ∧ g.opening = false) ∧ OtherSlices c s t))
      ∧ (h.state = .stalled → Gives stop s (fun t => (half t).state = .stopped ∧ (half t).fifo = [] ∧ OtherSlices c s t))
      ∧ (h.state ≠ .running → h.state ≠ .stalled → rejects stop))

/-! ### Registration and the trunk -/

/-- R342 to R344, R347, R353, R362, R365: arms, cancels and registrations, and the saved and exported settings. -/
def Obligations.Registrations : Prop :=
  ∀ s : State,
    let trk (f : Trk → Trk) (s : State) : State := { s with trk := f s.trk }
    let mask := bf s.trk.regCfg 0 4
    (mask = 0 → Does .regInEdge s id)
    ∧ (∀ t, mask ≠ 0 → s.trk.lastRegIn = some t → s.real < t + 1024 → Does .regInEdge s (trk (fun k =>
        { k with regEarly := min (k.regEarly + 1) 0xFF, events := k.events ||| 0x80 })))
    ∧ (mask ≠ 0 → (∀ t, s.trk.lastRegIn = some t → t + 1024 ≤ s.real) → bit s.trk.regCfg 31 = false →
      (s.trk.roomFor (s.tb + 2048) = true → Does .regInEdge s (trk (fun k =>
        ({ k with lastRegIn := some s.real } : Trk).armReg {
          tick := s.tb + 2048, slices := BitVec.ofNat 4 mask,
          sources := 1, unaligned := false, hops := 0, origin := bf k.addr 0 18 })))
      ∧ (s.trk.roomFor (s.tb + 2048) = false → Does .regInEdge s (trk (fun k => { k with
          lastRegIn := some s.real, regRejected := min (k.regRejected + 1) 0xFF, events := k.events ||| 0x100 }))))
    ∧ (∀ cmd, s.inHand 13 0x60 = some cmd → u8 cmd.body 9 = 0 → u8 cmd.body 8 < 16 →
      let t := u64 cmd.body 0
      (t < s.tb + 65536 → Does .trkRegArm s (fun s => s.finish cmd 0x06 []))
      ∧ (s.tb + 65536 ≤ t → s.tb + 1099511627776 < t → Does .trkRegArm s (fun s => s.finish cmd 0x03 []))
      ∧ (s.tb + 65536 ≤ t → t ≤ s.tb + 1099511627776 →
        (s.trk.roomFor t = false → Does .trkRegArm s (fun s => s.finish cmd 0x04 []))
        ∧ (s.trk.roomFor t = true → Does .trkRegArm s (fun s => (trk (fun k => k.armReg {
            tick := t, slices := BitVec.ofNat 4 (u8 cmd.body 8), sources := 2, unaligned := false, hops := 0,
            origin := bf k.addr 0 18 }) s).finish cmd 0 []))))
    ∧ (∀ (p : Fin 3) (f : RxFrame), (s.port p).state = .upstream → (∀ q, (s.port q).state ≠ .child) → f.dir = 2 →
      16 ≤ f.payload.length → f.payload.length ≤ 256 → (u8 f.payload 9).testBit 0 = false →
      let t := b64 f.payload 0
      s.tb + 65536 ≤ t → t ≤ s.tb + 1099511627776 → s.trk.roomFor t = true → Does (.regArm p f) s (fun s =>
        trk (fun k => k.armReg {
            tick := t, slices := BitVec.ofNat 4 (u8 f.payload 8), sources := 4,
            unaligned := !(decide (s.tbm.state = .locked) && decide (s.tbm.source = 2)), hops := f.hops.toNat + 1,
            origin := f.src.toNat })
          (s.modPort p (fun k => { k with
            rxCnt := min (k.rxCnt + 1) 0xFFFFFFFF, heard := s.real, flashAt := some s.real }))))
    ∧ (∀ cmd, s.inHand 13 0x61 = some cmd → u8 cmd.body 8 = 0 → Gives .trkRegCancel s (fun t =>
        let at_ := u64 cmd.body 0
        (∀ e, e ∈ t.trk.pending → e.tick = at_ → e.sources &&& 7 = 0)
        ∧ t.trk.pending.filter (fun e => e.tick != at_) = s.trk.pending.filter (fun e => e.tick != at_ && e.sources != 0)
        ∧ (t.qu cmd.queue).inHand = none ∧ t.slices = s.slices))
    ∧ (∀ e, s.trk.nextReg = some e → e.tick ≤ s.tb → s.tbm.warpAt e.tick = false →
      (∀ c t, (s.sl c).lockReady s.tb = some t → e.tick < t) → Gives .registration s (fun t =>
        t.trk.pending = s.trk.pending.erase e ∧ t.trk.regDone = min (s.trk.regDone + 1) 0xFFFF
        ∧ ∀ c, t.sl c = if s.registers e c then (s.sl c).register (e.tick + 48) else s.sl c))
    ∧ ((∀ e, s.trk.nextReg = some e → s.tb < e.tick ∨ s.tbm.warpAt e.tick = true
        ∨ ∃ c t, (s.sl c).lockReady s.tb = some t ∧ t ≤ e.tick) → Does .registration s id)
    ∧ (∀ cmd, s.inHand 13 0x62 = some cmd → s.flashUsed + 4 ≤ bf s.fls.limit 0 16 → Gives .trkSave s (fun t =>
        t.fls.jobs = s.fls.jobs ++ [.trkSave cmd.ref s.trk.cfg s.trk.addr (vmap (fun k => k.asym) s.trk.ports)]
        ∧ (t.qu cmd.queue).inHand = none ∧ cmd.ref ∈ (t.qu cmd.queue).outstanding))
    ∧ (∀ cmd, s.inHand 13 0x63 = some cmd →
      let ok := u8 cmd.body 0 < 32 ∧ queueIsCmd (qn (u8 cmd.body 1)) = false ∧ u8 cmd.body 2 < 2 ∧ u32 cmd.body 4 < 262144
      (¬ok → Does .trkExport s (fun s => s.finish cmd 0x03 []))
      ∧ (ok → Does .trkExport s (fun s => (trk (fun k => { k with exports := vmod k.exports (u8 cmd.body 0) (fun _ =>
          { queue := u8 cmd.body 1, enable := decide (u8 cmd.body 2 = 1), dest := u32 cmd.body 4 }) }) s).finish cmd 0 [])))

/-- R350, R351, R353 to R357, R360, R366: the ports and the tree. -/
def Obligations.TrunkLinks : Prop :=
  ∀ (p : Fin 3) (s : State),
    let k := s.port p
    let put (f : Port → Port) (s : State) : State := s.modPort p f
    let received (k : Port) : Port := { k with
      rxCnt := min (k.rxCnt + 1) 0xFFFFFFFF, heard := s.real, flashAt := some s.real }
    let bad (k : Port) : Port := { k with crcErr := min (k.crcErr + 1) 0xFFFF }
    (k.state = .down → (∀ b, Does (.frameCrcError p b) s id) ∧ (∀ copies, Does (.abortedStream p copies) s id)
      ∧ (k.sending = none → Does (.trunkEgress p) s id))
    ∧ (k.state ≠ .down →
      Does (.frameCrcError p none) s (put bad)
      ∧ (∀ b, Does (.frameCrcError p (some b)) s (fun s => (put bad s).passBad p b))
      ∧ (∀ b, b.frame.dir = 3 ∨ b.frame.hops = 63 ∨ b.cls = 0 → Does (.frameCrcError p (some b)) s (put bad))
      ∧ (∀ b, b.frame.dir = 0 → k.state = .child → s.trk.tree = .attached → s.trk.upPort = none →
        Does (.frameCrcError p (some b)) s (put bad))
      ∧ Does (.abortedStream p []) s (put (fun k => { k with aborted := min (k.aborted + 1) 0xFFFF }))
      ∧ (∀ q, q ≠ p → Gives (.abortedStream p [q]) s (fun t =>
        t.port p = { k with aborted := min (k.aborted + 1) 0xFFFF }
        ∧ t.port q = { s.port q with preempted := min ((s.port q).preempted + 1) 0xFFFF }
        ∧ ∀ r, r ≠ p → r ≠ q → t.port r = s.port r)))
    ∧ (k.state = .down → s.mod.ready = true → s.trk.tree = .detached → Gives (.linkUp p) s (fun t =>
        (t.port p).state = .probe ∧ (t.port p).link = true ∧ (t.port p).heard = s.real ∧ t.trk.events = s.trk.events ||| 1
        ∧ vget t.pwr.want (6 + p.val) 0 = 4 ∧ t.trk.tree = .detached ∧ (∀ q, q ≠ p → t.port q = s.port q)))
    ∧ (k.state ≠ .down →
      (s.trk.tree ≠ .attached → Gives (.linkLost p true) s (fun t =>
        (t.port p).state = .down ∧ (t.port p).link = false ∧ (t.port p).nbDepth = 0xFF
        ∧ (t.port p).downs = min (k.downs + 1) 0xFFFF ∧ (t.port p).qControl = []
        ∧ vget t.pwr.want (6 + p.val) 0 = 0 ∧ vget t.pwr.rel (6 + p.val) 0 = vget s.pwr.held (6 + p.val) 0))
      ∧ (s.trk.upPort ≠ some p → Gives (.linkLost p true) s (fun t => (t.port p).state = .down
        ∧ (t.port p).link = false ∧ (t.port p).downs = min (k.downs + 1) 0xFFFF ∧ t.trk.tree = s.trk.tree
        ∧ vget t.pwr.want (6 + p.val) 0 = 0))
      ∧ (s.trk.tree = .attached → s.trk.upPort = some p → s.tbm.qualified 2 = false → Gives (.linkLost p true) s (fun t =>
        (t.port p).state = .down ∧ t.trk.tree = .detached ∧ t.trk.upPort = none ∧ t.trk.depth = 0xFF ∧ t.trk.crown = 0
        ∧ t.trk.detachedAt = s.real ∧ t.trk.canAttach = false ∧ t.trk.events = s.trk.events ||| 3)))
    ∧ (k.state = .down → s.trk.upPort ≠ some p → Does (.linkLost p true) s (put (fun k => { k with link := false })))
    ∧ (k.state = .upstream ∨ k.state = .child ∨ k.state = .standby ∨ k.state = .looped →
      (s.real < k.heard + 1024000 → Does (.linkLost p false) s id)
      ∧ (k.heard + 1024000 ≤ s.real → s.trk.tree ≠ .attached → Gives (.linkLost p false) s (fun t =>
        (t.port p).state = .down ∧ (t.port p).link = k.link ∧ (t.port p).downs = min (k.downs + 1) 0xFFFF)))
    ∧ (k.state = .down ∨ k.state = .probe ∨ k.state = .foreign → Does (.linkLost p false) s id)
    ∧ (k.state = .probe → k.heard + 102400000 ≤ s.real → Gives (.probeTimeout p) s (fun t =>
        (t.port p).state = .foreign ∧ t.trk.events = s.trk.events ||| 1 ∧ t.trk.tree = s.trk.tree))
    ∧ (k.state ≠ .probe ∨ s.real < k.heard + 102400000 → Does (.probeTimeout p) s id)
    ∧ ((∀ q, (s.port q).state = .down) → Does .announceTick s id)
    ∧ (k.state ≠ .down → k.qControl.length < 16 → Gives .announceTick s (fun t =>
        (t.port p).qControl.length = k.qControl.length + 1 ∧ (t.port p).state = k.state ∧ t.slices = s.slices))
    ∧ (∀ f : RxFrame, f.dir = 3 → 12 ≤ f.payload.length → f.payload.length ≤ 256 → s.trk.tree = .detached →
      s.trk.canAttach = false → s.trk.upPort = none → (k.state = .probe ∨ k.state = .foreign) → s.addr = 0 →
      b32 f.payload 6 ≠ Config.serial.toNat % 4294967296 → Gives (.announce p f) s (fun t =>
        (t.port p).state = (if (u8 f.payload 4).testBit 0 then .child else .standby) ∧ (t.port p).nbAddr = f.src.toNat
        ∧ (t.port p).nbDepth = u8 f.payload 3 ∧ (t.port p).nbHeard = true
        ∧ (t.port p).rxCnt = min (k.rxCnt + 1) 0xFFFFFFFF ∧ (t.port p).heard = s.real ∧ t.trk.tree = .detached))
    ∧ (∀ f : RxFrame, f.dir = 0 → f.dest = 0 → f.turn = false → 8 ≤ f.payload.length → f.payload.length ≤ 256 →
      k.state = .child → s.trk.tree = .crown → Does (.topology p f) s (fun s =>
        let t := put received s
        { t with trk := { t.trk with topoCnt := min (t.trk.topoCnt + 1) 0xFFFF, events := t.trk.events ||| 8 } }))
    ∧ (s.trk.tree = .detached → s.trk.canAttach = false → s.trk.detachedAt + 1024000 * bf s.trk.cfg 8 4 ≤ s.real →
      Gives .reparentHoldEnd s (fun t => t.trk.canAttach = true ∧ t.trk.reparent = false
        ∧ (s.chooseUp = none → t.trk.tree = .detached ∧ t.trk.upPort = s.trk.upPort)
        ∧ ∀ q, s.chooseUp = some q → t.trk.tree = .attached ∧ t.trk.upPort = some q
          ∧ t.trk.depth = (s.port q).nbDepth + 1 ∧ t.trk.crown = (s.port q).nbCrown ∧ (t.port q).state = .upstream))
    ∧ (s.mod.ready = true → s.mod.swapping = none →
      (s.trk.tree = .crown → Does .reparent s id)
      ∧ (s.trk.tree = .detached → Does .reparent s (fun s => { s with trk := { s.trk with
          reparent := true, canAttach := false, detachedAt := s.real } }))
      ∧ (s.trk.tree = .attached → s.tbm.qualified 2 = false → Gives .reparent s (fun t => t.trk.tree = .detached ∧ t.trk.reparent = true
          ∧ t.trk.upPort = none ∧ t.trk.depth = 0xFF ∧ t.trk.detachedAt = s.real))
      ∧ ∀ v : Word, let bad := bf v 8 4 = 0 ∨ bf v 0 2 = 3 ∨ (bf v 0 2 = 1 ∧ bf s.trk.addr 0 18 = 0)
        (bad → Does (.trkCfgWrite v) s (fun s => { s with trk := { s.trk with events := s.trk.events ||| 0x400 } }))
        ∧ (¬bad → bf v 0 2 = bf s.trk.cfg 0 2 → Gives (.trkCfgWrite v) s (fun t =>
          t.trk.cfg = mkWord [(8, 4, bf v 8 4), (4, 2, bf v 4 2), (2, 1, bf v 2 1), (0, 2, bf v 0 2)]
          ∧ t.trk.tree = s.trk.tree ∧ t.trk.ports = s.trk.ports))
        ∧ (¬bad → bf v 0 2 = 2 → bf s.trk.cfg 0 2 ≠ 2 → Gives (.trkCfgWrite v) s (fun t =>
          t.trk.tree = .disabled ∧ t.trk.depth = 0xFF ∧ ∀ q, (t.port q).state = .down)))
    ∧ (k.state ≠ .down → k.ended = none → k.qTime = none →
      (∀ f, k.sending = none → k.qControl = [f] → f.cls = .control → Gives (.trunkEgress p) s (fun t =>
        (t.port p).sending = some f ∧ (t.port p).qControl = [] ∧ (t.port p).qService = k.qService
        ∧ vget (t.port p).ptr 1 0 = (f.ingress + 1) % 3))
      ∧ (∀ f, k.sending = some f → k.qControl = [] → s.trk.push = none → Gives (.trunkEgress p) s (fun t =>
        (t.port p).sending = none ∧ (t.port p).txCnt = min (k.txCnt + 1) 0xFFFFFFFF ∧ (t.port p).flashAt = some s.real
        ∧ Output.trunk p f.bytes ∈ t.out ∧ t.slices = s.slices)))

/-- R358, R359, R363 to R365: time, records and bulk transfers over the trunk. -/
def Obligations.TrunkTransfers : Prop :=
  ∀ (p : Fin 3) (s : State),
    let k := s.port p
    let received (s : State) : State := s.modPort p (fun k => { k with
      rxCnt := min (k.rxCnt + 1) 0xFFFFFFFF, heard := s.real, flashAt := some s.real })
    (∀ f : RxFrame, f.dir = 3 → f.payload.length = 20 →
      (k.state = .upstream → k.t3 = 0 → (u8 f.payload 17).testBit 0 = true → Gives (.sync p f) s (fun t =>
        (t.port p).t1 = b64 f.payload 0 ∧ (t.port p).t2 = s.tb ∧ (t.port p).reqSeq = (k.reqSeq + 1) % 256
        ∧ (t.port p).offset = k.offset ∧ (t.port p).rxCnt = min (k.rxCnt + 1) 0xFFFFFFFF
        ∧ (∃ g, (t.port p).qTime = some g ∧ g.kind = 2 ∧ u8 g.payload 0 = (k.reqSeq + 1) % 256)
        ∧ t.trk.crownSrc = u8 f.payload 18 ∧ t.trk.timeReal = s.real ∧ t.tbm = s.tbm))
      ∧ (k.state = .child → Does (.delayReq p f) s (fun s => (received s).modPort p (fun k =>
        { k with t4 := s.tb, t4seq := u8 f.payload 0 }))))
    ∧ (∀ f : RxFrame, f.dir = 1 → k.state = .upstream → f.dest.toNat = s.addr → s.addr ≠ 0 →
      (32 ≤ f.payload.length → f.payload.length ≤ 1500 → Does (.recordFrame p f) s (fun s =>
        (received s).stage 6 (recordOf f.payload)))
      ∧ (∀ u, s.trk.push = some u → u.id.toNat = b32 f.payload 0 → 8 + 2 * min 32 (b16 f.payload 6) ≤ f.payload.length →
        f.payload.length ≤ 256 → Does (.xferStatus p f) s (fun s =>
          let t := received s
          let a : PushAnswer := {
            addr := f.src.toNat, status := BitVec.ofNat 8 (u8 f.payload 4),
            missing := (List.range (min 32 (b16 f.payload 6))).map (fun i => b16 f.payload (8 + 2 * i)) }
          { t with trk := { t.trk with
            push := some { u with answers := u.answers.filter (fun b => b.addr != f.src.toNat) ++ [a] } } })))
    ∧ (∀ cmd, s.inHand 13 0x64 = some cmd →
      let b := cmd.body
      ∀ ecc : Option Bool,
      (pushBodyOk b = false → Does (.trkPush ecc) s (fun s => s.finish cmd 0x03 []))
      ∧ (pushBodyOk b = true → s.trk.push ≠ none → Does (.trkPush ecc) s (fun s => s.finish cmd 0x01 []))
      ∧ (pushBodyOk b = true → s.trk.push = none →
        (s.pushObject (u8 b 0) (u8 b 1) = none → Does (.trkPush ecc) s (fun s => s.finish cmd 0x04 []))
        ∧ (∀ data, s.pushObject (u8 b 0) (u8 b 1) = some data → ecc = some false → Does (.trkPush ecc) s (fun s =>
          (s.eccRead false (if u8 b 0 = 1 then u8 b 1 else 0xFFFF)).finish cmd 0x40 []))
        ∧ (∀ data, s.pushObject (u8 b 0) (u8 b 1) = some data → ecc ≠ some false → Gives (.trkPush ecc) s (fun t =>
          (∃ u, t.trk.push = some u ∧ u.data = data ∧ u.dest = u32 b 4 ∧ u.id = Config.xferId s.free ∧ u.round = 0
            ∧ u.answers = [] ∧ u.waitMs = (if u32 b 8 = 0 then 2000 else u32 b 8))
          ∧ t.free = s.free + 1 ∧ (t.qu cmd.queue).inHand = none ∧ cmd.ref ∈ (t.qu cmd.queue).outstanding))))
    ∧ (s.trk.push = none → Does .pushRound s id)
    ∧ (∀ u t, s.trk.push = some u → u.endAt = some t →
      (s.real < t + 1024000 * u.waitMs → Does .pushRound s id)
      ∧ (t + 1024000 * u.waitMs ≤ s.real → (u.again = false ∨ 4 ≤ u.round) → Does .pushRound s (fun s =>
        ({ s with trk := { s.trk with push := none } }).complete u.cmd 0
          (le 4 u.answers.length ++ le 4 (u.answers.filter (fun (a : PushAnswer) => a.status.toNat == 0)).length
            ++ [BitVec.ofNat 8 u.round, 0, 0, 0]))))
    ∧ (∀ f : RxFrame, f.dir = 2 → k.state = .upstream → (∀ q, (s.port q).state ≠ .child) → f.payload.length ≤ 1040 →
      let id := BitVec.ofNat 32 (b32 f.payload 0)
      (16 ≤ f.payload.length → s.trk.transfer id f.src.toNat = none → s.trk.mayOpen = true →
        Gives (.chunkFrame p f) s (fun t => t.trk.transfer id f.src.toNat = some
            { id := id, src := f.src.toNat, obj := u8 f.payload 6, dst := u8 f.payload 7, total := b32 f.payload 8,
              boot := u8 f.payload 12, chunks := [(b16 f.payload 4, f.payload.drop 16)], storing := false,
              stored := false, last := s.real }
          ∧ (t.port p).rxCnt = min (k.rxCnt + 1) 0xFFFFFFFF ∧ t.fls = s.fls ∧ t.slices = s.slices))
      ∧ (∀ x, 20 ≤ f.payload.length → s.trk.transfer id f.src.toNat = some x → x.stored = false → x.storing = false →
        x.missing (b16 f.payload 4) ≠ [] → Gives (.endFrame p f) s (fun t =>
          t.trk.transfer id f.src.toNat = some { x with last := s.real } ∧ t.fls = s.fls ∧ t.slices = s.slices)))
    ∧ (∀ id : Word, Does (.transferDrop id) s (fun s => { s with trk := { s.trk with
        transfers := s.trk.transfers.filter (fun t =>
          t.id != id || t.stored || t.storing || decide (s.real < t.last + 10240000000)) } }))

/-! ### The access port -/

/-- R91: the coherent read of TB, by the host and by the access port. -/
def Obligations.TbReadCoherent : Prop :=
  (∀ s : State, s.mod.ready = true → s.mod.swapping = none →
    Gives (.latchRead 0x30000) s (fun t => t.readData = le 4 (s.tbm.tb % 2 ^ 32)
      ∧ t.tbm = { s.tbm with tbHi := BitVec.ofNat 32 (s.tbm.tb / 2 ^ 32) })
    ∧ (∀ d : Word, Gives (.regacc 0x30000 d 0) s (fun t => t.tap.regData.toNat = s.tbm.tb % 2 ^ 32 ∧ t.tap.regStatus = 0
        ∧ t.tbm = { s.tbm with tbHi := BitVec.ofNat 32 (s.tbm.tb / 2 ^ 32) }))
    ∧ (∀ d : Word, Gives (.regacc 0x30004 d 0) s (fun t => t.tap.regData = s.tbm.tbHi ∧ t.tap.regStatus = 0
        ∧ t.tbm = s.tbm))
    ∧ Gives (.wideRead .bar0 0x30004 4) s (fun t => t.readData = le 4 s.tbm.tbHi.toNat ∧ t.tbm = s.tbm))
  ∧ State.reset.tbm.tbHi = 0

/-- R430: MODRESET acts on its key alone. -/
def Obligations.ModresetKey : Prop :=
  ∀ s : State,
    Does (.modreset 0x5A170001) s (fun s => s.moduleReset 4)
    ∧ (Gives (.modreset 0x5A170001) s (fun t => t.mod.resetCause = 4 ∧ t.mod.ready = false))
    ∧ ∀ v : Word, v ≠ 0x5A170001 → Gives (.modreset v) s (fun t =>
      t.slices = s.slices ∧ t.queues = s.queues ∧ t.mod = s.mod ∧ t.tbm = s.tbm ∧ t.trk = s.trk ∧ t.pwr = s.pwr
      ∧ t.errm = s.errm ∧ t.fls = s.fls ∧ t.sched = s.sched ∧ t.tap = { s.tap with ir := 0x22, extest := false, dr := 0 })
end

