-- ==== Sys2Proof/Laws/State.lean ====
section
/-! SUPPORT. The laws of the state's updates: what each named update leaves alone, one lemma per field,
and what is read back where it wrote. -/

namespace Sys2Proof.Machine

open Sys2Proof

/-! ### Frames of the named updates -/

@[simp] theorem State.setSl_pending (s : State) (c : Fin 4) (x : Slice) : (s.setSl c x).pending = s.pending := rfl
@[simp] theorem State.setSl_queues (s : State) (c : Fin 4) (x : Slice) : (s.setSl c x).queues = s.queues := rfl
@[simp] theorem State.setSl_qmg (s : State) (c : Fin 4) (x : Slice) : (s.setSl c x).qmg = s.qmg := rfl
@[simp] theorem State.setSl_tbm (s : State) (c : Fin 4) (x : Slice) : (s.setSl c x).tbm = s.tbm := rfl
@[simp] theorem State.setSl_trk (s : State) (c : Fin 4) (x : Slice) : (s.setSl c x).trk = s.trk := rfl
@[simp] theorem State.setSl_pwr (s : State) (c : Fin 4) (x : Slice) : (s.setSl c x).pwr = s.pwr := rfl
@[simp] theorem State.setSl_mod (s : State) (c : Fin 4) (x : Slice) : (s.setSl c x).mod = s.mod := rfl
@[simp] theorem State.setSl_fea (s : State) (c : Fin 4) (x : Slice) : (s.setSl c x).fea = s.fea := rfl
@[simp] theorem State.setSl_fls (s : State) (c : Fin 4) (x : Slice) : (s.setSl c x).fls = s.fls := rfl
@[simp] theorem State.setSl_calStore (s : State) (c : Fin 4) (x : Slice) : (s.setSl c x).calStore = s.calStore := rfl
@[simp] theorem State.setSl_mailbox (s : State) (c : Fin 4) (x : Slice) : (s.setSl c x).mailbox = s.mailbox := rfl
@[simp] theorem State.setSl_errm (s : State) (c : Fin 4) (x : Slice) : (s.setSl c x).errm = s.errm := rfl
@[simp] theorem State.setSl_tap (s : State) (c : Fin 4) (x : Slice) : (s.setSl c x).tap = s.tap := rfl
@[simp] theorem State.setSl_bsr (s : State) (c : Fin 4) (x : Slice) : (s.setSl c x).bsr = s.bsr := rfl
@[simp] theorem State.setSl_sched (s : State) (c : Fin 4) (x : Slice) : (s.setSl c x).sched = s.sched := rfl
@[simp] theorem State.setSl_evt (s : State) (c : Fin 4) (x : Slice) : (s.setSl c x).evt = s.evt := rfl
@[simp] theorem State.setSl_evtPins (s : State) (c : Fin 4) (x : Slice) : (s.setSl c x).evtPins = s.evtPins := rfl
@[simp] theorem State.setSl_real (s : State) (c : Fin 4) (x : Slice) : (s.setSl c x).real = s.real := rfl
@[simp] theorem State.setSl_readData (s : State) (c : Fin 4) (x : Slice) : (s.setSl c x).readData = s.readData := rfl
@[simp] theorem State.setSl_out (s : State) (c : Fin 4) (x : Slice) : (s.setSl c x).out = s.out := rfl
@[simp] theorem State.setSl_free (s : State) (c : Fin 4) (x : Slice) : (s.setSl c x).free = s.free := rfl

@[simp] theorem State.modSl_pending (s : State) (c : Fin 4) (f : Slice → Slice) : (s.modSl c f).pending = s.pending := rfl
@[simp] theorem State.modSl_queues (s : State) (c : Fin 4) (f : Slice → Slice) : (s.modSl c f).queues = s.queues := rfl
@[simp] theorem State.modSl_qmg (s : State) (c : Fin 4) (f : Slice → Slice) : (s.modSl c f).qmg = s.qmg := rfl
@[simp] theorem State.modSl_tbm (s : State) (c : Fin 4) (f : Slice → Slice) : (s.modSl c f).tbm = s.tbm := rfl
@[simp] theorem State.modSl_trk (s : State) (c : Fin 4) (f : Slice → Slice) : (s.modSl c f).trk = s.trk := rfl
@[simp] theorem State.modSl_pwr (s : State) (c : Fin 4) (f : Slice → Slice) : (s.modSl c f).pwr = s.pwr := rfl
@[simp] theorem State.modSl_mod (s : State) (c : Fin 4) (f : Slice → Slice) : (s.modSl c f).mod = s.mod := rfl
@[simp] theorem State.modSl_fea (s : State) (c : Fin 4) (f : Slice → Slice) : (s.modSl c f).fea = s.fea := rfl
@[simp] theorem State.modSl_fls (s : State) (c : Fin 4) (f : Slice → Slice) : (s.modSl c f).fls = s.fls := rfl
@[simp] theorem State.modSl_calStore (s : State) (c : Fin 4) (f : Slice → Slice) : (s.modSl c f).calStore = s.calStore := rfl
@[simp] theorem State.modSl_mailbox (s : State) (c : Fin 4) (f : Slice → Slice) : (s.modSl c f).mailbox = s.mailbox := rfl
@[simp] theorem State.modSl_errm (s : State) (c : Fin 4) (f : Slice → Slice) : (s.modSl c f).errm = s.errm := rfl
@[simp] theorem State.modSl_tap (s : State) (c : Fin 4) (f : Slice → Slice) : (s.modSl c f).tap = s.tap := rfl
@[simp] theorem State.modSl_bsr (s : State) (c : Fin 4) (f : Slice → Slice) : (s.modSl c f).bsr = s.bsr := rfl
@[simp] theorem State.modSl_sched (s : State) (c : Fin 4) (f : Slice → Slice) : (s.modSl c f).sched = s.sched := rfl
@[simp] theorem State.modSl_evt (s : State) (c : Fin 4) (f : Slice → Slice) : (s.modSl c f).evt = s.evt := rfl
@[simp] theorem State.modSl_evtPins (s : State) (c : Fin 4) (f : Slice → Slice) : (s.modSl c f).evtPins = s.evtPins := rfl
@[simp] theorem State.modSl_real (s : State) (c : Fin 4) (f : Slice → Slice) : (s.modSl c f).real = s.real := rfl
@[simp] theorem State.modSl_readData (s : State) (c : Fin 4) (f : Slice → Slice) : (s.modSl c f).readData = s.readData := rfl
@[simp] theorem State.modSl_out (s : State) (c : Fin 4) (f : Slice → Slice) : (s.modSl c f).out = s.out := rfl
@[simp] theorem State.modSl_free (s : State) (c : Fin 4) (f : Slice → Slice) : (s.modSl c f).free = s.free := rfl

@[simp] theorem State.modQ_pending (s : State) (q : Fin 256) (f : Queue → Queue) : (s.modQ q f).pending = s.pending := rfl
@[simp] theorem State.modQ_slices (s : State) (q : Fin 256) (f : Queue → Queue) : (s.modQ q f).slices = s.slices := rfl
@[simp] theorem State.modQ_qmg (s : State) (q : Fin 256) (f : Queue → Queue) : (s.modQ q f).qmg = s.qmg := rfl
@[simp] theorem State.modQ_tbm (s : State) (q : Fin 256) (f : Queue → Queue) : (s.modQ q f).tbm = s.tbm := rfl
@[simp] theorem State.modQ_trk (s : State) (q : Fin 256) (f : Queue → Queue) : (s.modQ q f).trk = s.trk := rfl
@[simp] theorem State.modQ_pwr (s : State) (q : Fin 256) (f : Queue → Queue) : (s.modQ q f).pwr = s.pwr := rfl
@[simp] theorem State.modQ_mod (s : State) (q : Fin 256) (f : Queue → Queue) : (s.modQ q f).mod = s.mod := rfl
@[simp] theorem State.modQ_fea (s : State) (q : Fin 256) (f : Queue → Queue) : (s.modQ q f).fea = s.fea := rfl
@[simp] theorem State.modQ_fls (s : State) (q : Fin 256) (f : Queue → Queue) : (s.modQ q f).fls = s.fls := rfl
@[simp] theorem State.modQ_calStore (s : State) (q : Fin 256) (f : Queue → Queue) : (s.modQ q f).calStore = s.calStore := rfl
@[simp] theorem State.modQ_mailbox (s : State) (q : Fin 256) (f : Queue → Queue) : (s.modQ q f).mailbox = s.mailbox := rfl
@[simp] theorem State.modQ_errm (s : State) (q : Fin 256) (f : Queue → Queue) : (s.modQ q f).errm = s.errm := rfl
@[simp] theorem State.modQ_tap (s : State) (q : Fin 256) (f : Queue → Queue) : (s.modQ q f).tap = s.tap := rfl
@[simp] theorem State.modQ_bsr (s : State) (q : Fin 256) (f : Queue → Queue) : (s.modQ q f).bsr = s.bsr := rfl
@[simp] theorem State.modQ_sched (s : State) (q : Fin 256) (f : Queue → Queue) : (s.modQ q f).sched = s.sched := rfl
@[simp] theorem State.modQ_evt (s : State) (q : Fin 256) (f : Queue → Queue) : (s.modQ q f).evt = s.evt := rfl
@[simp] theorem State.modQ_evtPins (s : State) (q : Fin 256) (f : Queue → Queue) : (s.modQ q f).evtPins = s.evtPins := rfl
@[simp] theorem State.modQ_real (s : State) (q : Fin 256) (f : Queue → Queue) : (s.modQ q f).real = s.real := rfl
@[simp] theorem State.modQ_readData (s : State) (q : Fin 256) (f : Queue → Queue) : (s.modQ q f).readData = s.readData := rfl
@[simp] theorem State.modQ_out (s : State) (q : Fin 256) (f : Queue → Queue) : (s.modQ q f).out = s.out := rfl
@[simp] theorem State.modQ_free (s : State) (q : Fin 256) (f : Queue → Queue) : (s.modQ q f).free = s.free := rfl

@[simp] theorem State.modSch_pending (s : State) (c : Fin 4) (f : Sched → Sched) : (s.modSch c f).pending = s.pending := rfl
@[simp] theorem State.modSch_slices (s : State) (c : Fin 4) (f : Sched → Sched) : (s.modSch c f).slices = s.slices := rfl
@[simp] theorem State.modSch_queues (s : State) (c : Fin 4) (f : Sched → Sched) : (s.modSch c f).queues = s.queues := rfl
@[simp] theorem State.modSch_qmg (s : State) (c : Fin 4) (f : Sched → Sched) : (s.modSch c f).qmg = s.qmg := rfl
@[simp] theorem State.modSch_tbm (s : State) (c : Fin 4) (f : Sched → Sched) : (s.modSch c f).tbm = s.tbm := rfl
@[simp] theorem State.modSch_trk (s : State) (c : Fin 4) (f : Sched → Sched) : (s.modSch c f).trk = s.trk := rfl
@[simp] theorem State.modSch_pwr (s : State) (c : Fin 4) (f : Sched → Sched) : (s.modSch c f).pwr = s.pwr := rfl
@[simp] theorem State.modSch_mod (s : State) (c : Fin 4) (f : Sched → Sched) : (s.modSch c f).mod = s.mod := rfl
@[simp] theorem State.modSch_fea (s : State) (c : Fin 4) (f : Sched → Sched) : (s.modSch c f).fea = s.fea := rfl
@[simp] theorem State.modSch_fls (s : State) (c : Fin 4) (f : Sched → Sched) : (s.modSch c f).fls = s.fls := rfl
@[simp] theorem State.modSch_calStore (s : State) (c : Fin 4) (f : Sched → Sched) : (s.modSch c f).calStore = s.calStore := rfl
@[simp] theorem State.modSch_mailbox (s : State) (c : Fin 4) (f : Sched → Sched) : (s.modSch c f).mailbox = s.mailbox := rfl
@[simp] theorem State.modSch_errm (s : State) (c : Fin 4) (f : Sched → Sched) : (s.modSch c f).errm = s.errm := rfl
@[simp] theorem State.modSch_tap (s : State) (c : Fin 4) (f : Sched → Sched) : (s.modSch c f).tap = s.tap := rfl
@[simp] theorem State.modSch_bsr (s : State) (c : Fin 4) (f : Sched → Sched) : (s.modSch c f).bsr = s.bsr := rfl
@[simp] theorem State.modSch_evt (s : State) (c : Fin 4) (f : Sched → Sched) : (s.modSch c f).evt = s.evt := rfl
@[simp] theorem State.modSch_evtPins (s : State) (c : Fin 4) (f : Sched → Sched) : (s.modSch c f).evtPins = s.evtPins := rfl
@[simp] theorem State.modSch_real (s : State) (c : Fin 4) (f : Sched → Sched) : (s.modSch c f).real = s.real := rfl
@[simp] theorem State.modSch_readData (s : State) (c : Fin 4) (f : Sched → Sched) : (s.modSch c f).readData = s.readData := rfl
@[simp] theorem State.modSch_out (s : State) (c : Fin 4) (f : Sched → Sched) : (s.modSch c f).out = s.out := rfl
@[simp] theorem State.modSch_free (s : State) (c : Fin 4) (f : Sched → Sched) : (s.modSch c f).free = s.free := rfl

@[simp] theorem State.emit_pending (s : State) (o : Output) : (s.emit o).pending = s.pending := rfl
@[simp] theorem State.emit_slices (s : State) (o : Output) : (s.emit o).slices = s.slices := rfl
@[simp] theorem State.emit_queues (s : State) (o : Output) : (s.emit o).queues = s.queues := rfl
@[simp] theorem State.emit_qmg (s : State) (o : Output) : (s.emit o).qmg = s.qmg := rfl
@[simp] theorem State.emit_tbm (s : State) (o : Output) : (s.emit o).tbm = s.tbm := rfl
@[simp] theorem State.emit_trk (s : State) (o : Output) : (s.emit o).trk = s.trk := rfl
@[simp] theorem State.emit_pwr (s : State) (o : Output) : (s.emit o).pwr = s.pwr := rfl
@[simp] theorem State.emit_mod (s : State) (o : Output) : (s.emit o).mod = s.mod := rfl
@[simp] theorem State.emit_fea (s : State) (o : Output) : (s.emit o).fea = s.fea := rfl
@[simp] theorem State.emit_fls (s : State) (o : Output) : (s.emit o).fls = s.fls := rfl
@[simp] theorem State.emit_calStore (s : State) (o : Output) : (s.emit o).calStore = s.calStore := rfl
@[simp] theorem State.emit_mailbox (s : State) (o : Output) : (s.emit o).mailbox = s.mailbox := rfl
@[simp] theorem State.emit_errm (s : State) (o : Output) : (s.emit o).errm = s.errm := rfl
@[simp] theorem State.emit_tap (s : State) (o : Output) : (s.emit o).tap = s.tap := rfl
@[simp] theorem State.emit_bsr (s : State) (o : Output) : (s.emit o).bsr = s.bsr := rfl
@[simp] theorem State.emit_sched (s : State) (o : Output) : (s.emit o).sched = s.sched := rfl
@[simp] theorem State.emit_evt (s : State) (o : Output) : (s.emit o).evt = s.evt := rfl
@[simp] theorem State.emit_evtPins (s : State) (o : Output) : (s.emit o).evtPins = s.evtPins := rfl
@[simp] theorem State.emit_real (s : State) (o : Output) : (s.emit o).real = s.real := rfl
@[simp] theorem State.emit_readData (s : State) (o : Output) : (s.emit o).readData = s.readData := rfl
@[simp] theorem State.emit_free (s : State) (o : Output) : (s.emit o).free = s.free := rfl

@[simp] theorem State.ask_pending (s : State) (i n : Nat) : (s.ask i n).pending = s.pending := rfl
@[simp] theorem State.ask_slices (s : State) (i n : Nat) : (s.ask i n).slices = s.slices := rfl
@[simp] theorem State.ask_queues (s : State) (i n : Nat) : (s.ask i n).queues = s.queues := rfl
@[simp] theorem State.ask_qmg (s : State) (i n : Nat) : (s.ask i n).qmg = s.qmg := rfl
@[simp] theorem State.ask_tbm (s : State) (i n : Nat) : (s.ask i n).tbm = s.tbm := rfl
@[simp] theorem State.ask_trk (s : State) (i n : Nat) : (s.ask i n).trk = s.trk := rfl
@[simp] theorem State.ask_mod (s : State) (i n : Nat) : (s.ask i n).mod = s.mod := rfl
@[simp] theorem State.ask_fea (s : State) (i n : Nat) : (s.ask i n).fea = s.fea := rfl
@[simp] theorem State.ask_fls (s : State) (i n : Nat) : (s.ask i n).fls = s.fls := rfl
@[simp] theorem State.ask_calStore (s : State) (i n : Nat) : (s.ask i n).calStore = s.calStore := rfl
@[simp] theorem State.ask_mailbox (s : State) (i n : Nat) : (s.ask i n).mailbox = s.mailbox := rfl
@[simp] theorem State.ask_errm (s : State) (i n : Nat) : (s.ask i n).errm = s.errm := rfl
@[simp] theorem State.ask_tap (s : State) (i n : Nat) : (s.ask i n).tap = s.tap := rfl
@[simp] theorem State.ask_bsr (s : State) (i n : Nat) : (s.ask i n).bsr = s.bsr := rfl
@[simp] theorem State.ask_sched (s : State) (i n : Nat) : (s.ask i n).sched = s.sched := rfl
@[simp] theorem State.ask_evt (s : State) (i n : Nat) : (s.ask i n).evt = s.evt := rfl
@[simp] theorem State.ask_evtPins (s : State) (i n : Nat) : (s.ask i n).evtPins = s.evtPins := rfl
@[simp] theorem State.ask_real (s : State) (i n : Nat) : (s.ask i n).real = s.real := rfl
@[simp] theorem State.ask_readData (s : State) (i n : Nat) : (s.ask i n).readData = s.readData := rfl
@[simp] theorem State.ask_out (s : State) (i n : Nat) : (s.ask i n).out = s.out := rfl
@[simp] theorem State.ask_free (s : State) (i n : Nat) : (s.ask i n).free = s.free := rfl

@[simp] theorem State.release_pending (s : State) (i n : Nat) : (s.release i n).pending = s.pending := rfl
@[simp] theorem State.release_slices (s : State) (i n : Nat) : (s.release i n).slices = s.slices := rfl
@[simp] theorem State.release_queues (s : State) (i n : Nat) : (s.release i n).queues = s.queues := rfl
@[simp] theorem State.release_qmg (s : State) (i n : Nat) : (s.release i n).qmg = s.qmg := rfl
@[simp] theorem State.release_tbm (s : State) (i n : Nat) : (s.release i n).tbm = s.tbm := rfl
@[simp] theorem State.release_trk (s : State) (i n : Nat) : (s.release i n).trk = s.trk := rfl
@[simp] theorem State.release_mod (s : State) (i n : Nat) : (s.release i n).mod = s.mod := rfl
@[simp] theorem State.release_fea (s : State) (i n : Nat) : (s.release i n).fea = s.fea := rfl
@[simp] theorem State.release_fls (s : State) (i n : Nat) : (s.release i n).fls = s.fls := rfl
@[simp] theorem State.release_calStore (s : State) (i n : Nat) : (s.release i n).calStore = s.calStore := rfl
@[simp] theorem State.release_mailbox (s : State) (i n : Nat) : (s.release i n).mailbox = s.mailbox := rfl
@[simp] theorem State.release_errm (s : State) (i n : Nat) : (s.release i n).errm = s.errm := rfl
@[simp] theorem State.release_tap (s : State) (i n : Nat) : (s.release i n).tap = s.tap := rfl
@[simp] theorem State.release_bsr (s : State) (i n : Nat) : (s.release i n).bsr = s.bsr := rfl
@[simp] theorem State.release_sched (s : State) (i n : Nat) : (s.release i n).sched = s.sched := rfl
@[simp] theorem State.release_evt (s : State) (i n : Nat) : (s.release i n).evt = s.evt := rfl
@[simp] theorem State.release_evtPins (s : State) (i n : Nat) : (s.release i n).evtPins = s.evtPins := rfl
@[simp] theorem State.release_real (s : State) (i n : Nat) : (s.release i n).real = s.real := rfl
@[simp] theorem State.release_readData (s : State) (i n : Nat) : (s.release i n).readData = s.readData := rfl
@[simp] theorem State.release_out (s : State) (i n : Nat) : (s.release i n).out = s.out := rfl
@[simp] theorem State.release_free (s : State) (i n : Nat) : (s.release i n).free = s.free := rfl

@[simp] theorem State.releaseAll_pending (s : State) (i : Nat) : (s.releaseAll i).pending = s.pending := rfl
@[simp] theorem State.releaseAll_slices (s : State) (i : Nat) : (s.releaseAll i).slices = s.slices := rfl
@[simp] theorem State.releaseAll_queues (s : State) (i : Nat) : (s.releaseAll i).queues = s.queues := rfl
@[simp] theorem State.releaseAll_qmg (s : State) (i : Nat) : (s.releaseAll i).qmg = s.qmg := rfl
@[simp] theorem State.releaseAll_tbm (s : State) (i : Nat) : (s.releaseAll i).tbm = s.tbm := rfl
@[simp] theorem State.releaseAll_trk (s : State) (i : Nat) : (s.releaseAll i).trk = s.trk := rfl
@[simp] theorem State.releaseAll_mod (s : State) (i : Nat) : (s.releaseAll i).mod = s.mod := rfl
@[simp] theorem State.releaseAll_fea (s : State) (i : Nat) : (s.releaseAll i).fea = s.fea := rfl
@[simp] theorem State.releaseAll_fls (s : State) (i : Nat) : (s.releaseAll i).fls = s.fls := rfl
@[simp] theorem State.releaseAll_calStore (s : State) (i : Nat) : (s.releaseAll i).calStore = s.calStore := rfl
@[simp] theorem State.releaseAll_mailbox (s : State) (i : Nat) : (s.releaseAll i).mailbox = s.mailbox := rfl
@[simp] theorem State.releaseAll_errm (s : State) (i : Nat) : (s.releaseAll i).errm = s.errm := rfl
@[simp] theorem State.releaseAll_tap (s : State) (i : Nat) : (s.releaseAll i).tap = s.tap := rfl
@[simp] theorem State.releaseAll_bsr (s : State) (i : Nat) : (s.releaseAll i).bsr = s.bsr := rfl
@[simp] theorem State.releaseAll_sched (s : State) (i : Nat) : (s.releaseAll i).sched = s.sched := rfl
@[simp] theorem State.releaseAll_evt (s : State) (i : Nat) : (s.releaseAll i).evt = s.evt := rfl
@[simp] theorem State.releaseAll_evtPins (s : State) (i : Nat) : (s.releaseAll i).evtPins = s.evtPins := rfl
@[simp] theorem State.releaseAll_real (s : State) (i : Nat) : (s.releaseAll i).real = s.real := rfl
@[simp] theorem State.releaseAll_readData (s : State) (i : Nat) : (s.releaseAll i).readData = s.readData := rfl
@[simp] theorem State.releaseAll_out (s : State) (i : Nat) : (s.releaseAll i).out = s.out := rfl
@[simp] theorem State.releaseAll_free (s : State) (i : Nat) : (s.releaseAll i).free = s.free := rfl

/-! ### Reading back -/

theorem get_set_self {α : Type} {n : Nat} (v : Vector α n) (i : Fin n) (x : α) : (v.set i.val x i.isLt).get i = x := by
  change (v.set i.val x i.isLt)[i.val] = x
  simp

theorem get_set_ne {α : Type} {n : Nat} (v : Vector α n) {i j : Fin n} (x : α) (h : j ≠ i) :
    (v.set i.val x i.isLt).get j = v.get j := by
  have h' : i.val ≠ j.val := fun e => h (Fin.ext e.symm)
  change (v.set i.val x i.isLt)[j.val] = v[j.val]
  simp [h']

theorem set_get_self {α : Type} {n : Nat} (v : Vector α n) (i : Fin n) : v.set i.val (v.get i) i.isLt = v := by
  change v.set i.val v[i.val] i.isLt = v
  simp

@[simp] theorem State.sl_setSl (s : State) (c : Fin 4) (x : Slice) : (s.setSl c x).sl c = x :=
  get_set_self s.slices c x

theorem State.sl_setSl_ne (s : State) (x : Slice) {c d : Fin 4} (h : d ≠ c) :
    (s.setSl c x).sl d = s.sl d :=
  get_set_ne s.slices x h

@[simp] theorem State.sl_modSl (s : State) (c : Fin 4) (f : Slice → Slice) : (s.modSl c f).sl c = f (s.sl c) :=
  State.sl_setSl s c _

theorem State.sl_modSl_ne (s : State) (f : Slice → Slice) {c d : Fin 4} (h : d ≠ c) :
    (s.modSl c f).sl d = s.sl d :=
  State.sl_setSl_ne s _ h

@[simp] theorem State.setSl_setSl (s : State) (c : Fin 4) (x y : Slice) :
    (s.setSl c x).setSl c y = s.setSl c y := by
  simp [State.setSl]

@[simp] theorem State.setSl_sl (s : State) (c : Fin 4) : s.setSl c (s.sl c) = s := by
  simp only [State.setSl, State.sl, set_get_self]

@[simp] theorem State.modSl_modSl (s : State) (c : Fin 4) (f g : Slice → Slice) :
    (s.modSl c f).modSl c g = s.modSl c (fun x => g (f x)) := by
  simp [State.modSl]

@[simp] theorem State.qu_modQ (s : State) (q : Fin 256) (f : Queue → Queue) : (s.modQ q f).qu q = f (s.qu q) :=
  get_set_self s.queues q _

theorem State.qu_modQ_ne (s : State) (f : Queue → Queue) {q r : Fin 256} (h : r ≠ q) :
    (s.modQ q f).qu r = s.qu r :=
  get_set_ne s.queues _ h

@[simp] theorem State.sch_modSch (s : State) (c : Fin 4) (f : Sched → Sched) : (s.modSch c f).sch c = f (s.sch c) :=
  get_set_self s.sched c _

theorem State.sch_modSch_ne (s : State) (f : Sched → Sched) {c d : Fin 4} (h : d ≠ c) :
    (s.modSch c f).sch d = s.sch d :=
  get_set_ne s.sched _ h

@[simp] theorem State.sl_modQ (s : State) (q : Fin 256) (f : Queue → Queue) (c : Fin 4) : (s.modQ q f).sl c = s.sl c := rfl
@[simp] theorem State.sl_modSch (s : State) (d : Fin 4) (f : Sched → Sched) (c : Fin 4) : (s.modSch d f).sl c = s.sl c := rfl
@[simp] theorem State.sl_emit (s : State) (o : Output) (c : Fin 4) : (s.emit o).sl c = s.sl c := rfl
@[simp] theorem State.sl_ask (s : State) (i n : Nat) (c : Fin 4) : (s.ask i n).sl c = s.sl c := rfl
@[simp] theorem State.sl_release (s : State) (i n : Nat) (c : Fin 4) : (s.release i n).sl c = s.sl c := rfl
@[simp] theorem State.sl_releaseAll (s : State) (i : Nat) (c : Fin 4) : (s.releaseAll i).sl c = s.sl c := rfl
@[simp] theorem State.qu_modSl (s : State) (c : Fin 4) (f : Slice → Slice) (q : Fin 256) : (s.modSl c f).qu q = s.qu q := rfl
@[simp] theorem State.qu_setSl (s : State) (c : Fin 4) (x : Slice) (q : Fin 256) : (s.setSl c x).qu q = s.qu q := rfl
@[simp] theorem State.qu_emit (s : State) (o : Output) (q : Fin 256) : (s.emit o).qu q = s.qu q := rfl
@[simp] theorem State.qu_ask (s : State) (i n : Nat) (q : Fin 256) : (s.ask i n).qu q = s.qu q := rfl
@[simp] theorem State.qu_release (s : State) (i n : Nat) (q : Fin 256) : (s.release i n).qu q = s.qu q := rfl

end Sys2Proof.Machine
end

