-- ==== Sys2Proof/Laws/Run.lean ====
section
/-! SUPPORT. The laws of running a command: what the block-event messages leave alone, and the memory of a
slice's SRAM. -/

namespace Sys2Proof.Machine

open Sys2Proof

/-! ### Block-event messages (R296) -/

/-- `s` after block-event messages: `o` went out and the PBA holds `p`. -/
def State.sent (s : State) (o : List Output) (p : DWord) : State :=
  { s with out := s.out ++ o, qmg := { s.qmg with msixPba := p } }

theorem State.sent_nil (s : State) : s = s.sent [] s.qmg.msixPba := by simp [State.sent]

theorem State.sent_sent (s : State) (o o' : List Output) (p p' : DWord) :
    (s.sent o p).sent o' p' = s.sent (o ++ o') p' := by simp [State.sent]

/-- A message of a vector changes the outward effects or the PBA, nothing else. -/
theorem sendMsix_shape (v : Nat) (s : State) :
    ∃ o p, sendMsix v s = s.sent o p := by
  unfold sendMsix
  split
  · exact ⟨[], s.qmg.msixPba ||| BitVec.ofNat 64 (2 ^ v), by simp [State.sent]⟩
  · exact ⟨[.msix v], s.qmg.msixPba, rfl⟩

/-- The block-event messages of a command change the outward effects and the PBA, nothing else. -/
theorem blockIrqs_shape (old s : State) : ∃ o p, blockIrqs old s = s.sent o p := by
  unfold blockIrqs
  split
  · exact ⟨[], _, s.sent_nil⟩
  · have key : ∀ (l : List Nat) (t : State), (∃ o p, t = s.sent o p) →
        ∃ o p, l.foldl (fun t v =>
          if bit s.qmg.blkIrq v && rose (groupEvents old v) (groupEvents s v) then sendMsix v t else t) t
          = s.sent o p := by
      intro l
      induction l with
      | nil => intro t h; exact h
      | cons v l ih =>
        intro t h
        apply ih
        obtain ⟨o, p, rfl⟩ := h
        dsimp only
        split
        · obtain ⟨o', p', e⟩ := sendMsix_shape v (s.sent o p)
          exact ⟨o ++ o', p', by rw [e, State.sent_sent]⟩
        · exact ⟨o, p, rfl⟩
    exact key _ _ ⟨[], _, s.sent_nil⟩

@[simp] theorem blockIrqs_slices (old s : State) : (blockIrqs old s).slices = s.slices := by
  obtain ⟨o, p, e⟩ := blockIrqs_shape old s; rw [e]; rfl

@[simp] theorem blockIrqs_queues (old s : State) : (blockIrqs old s).queues = s.queues := by
  obtain ⟨o, p, e⟩ := blockIrqs_shape old s; rw [e]; rfl

@[simp] theorem blockIrqs_tbm (old s : State) : (blockIrqs old s).tbm = s.tbm := by
  obtain ⟨o, p, e⟩ := blockIrqs_shape old s; rw [e]; rfl

@[simp] theorem blockIrqs_trk (old s : State) : (blockIrqs old s).trk = s.trk := by
  obtain ⟨o, p, e⟩ := blockIrqs_shape old s; rw [e]; rfl

@[simp] theorem blockIrqs_pwr (old s : State) : (blockIrqs old s).pwr = s.pwr := by
  obtain ⟨o, p, e⟩ := blockIrqs_shape old s; rw [e]; rfl

@[simp] theorem blockIrqs_mod (old s : State) : (blockIrqs old s).mod = s.mod := by
  obtain ⟨o, p, e⟩ := blockIrqs_shape old s; rw [e]; rfl

@[simp] theorem blockIrqs_fea (old s : State) : (blockIrqs old s).fea = s.fea := by
  obtain ⟨o, p, e⟩ := blockIrqs_shape old s; rw [e]; rfl

@[simp] theorem blockIrqs_fls (old s : State) : (blockIrqs old s).fls = s.fls := by
  obtain ⟨o, p, e⟩ := blockIrqs_shape old s; rw [e]; rfl

@[simp] theorem blockIrqs_calStore (old s : State) : (blockIrqs old s).calStore = s.calStore := by
  obtain ⟨o, p, e⟩ := blockIrqs_shape old s; rw [e]; rfl

@[simp] theorem blockIrqs_mailbox (old s : State) : (blockIrqs old s).mailbox = s.mailbox := by
  obtain ⟨o, p, e⟩ := blockIrqs_shape old s; rw [e]; rfl

@[simp] theorem blockIrqs_errm (old s : State) : (blockIrqs old s).errm = s.errm := by
  obtain ⟨o, p, e⟩ := blockIrqs_shape old s; rw [e]; rfl

@[simp] theorem blockIrqs_tap (old s : State) : (blockIrqs old s).tap = s.tap := by
  obtain ⟨o, p, e⟩ := blockIrqs_shape old s; rw [e]; rfl

@[simp] theorem blockIrqs_bsr (old s : State) : (blockIrqs old s).bsr = s.bsr := by
  obtain ⟨o, p, e⟩ := blockIrqs_shape old s; rw [e]; rfl

@[simp] theorem blockIrqs_sched (old s : State) : (blockIrqs old s).sched = s.sched := by
  obtain ⟨o, p, e⟩ := blockIrqs_shape old s; rw [e]; rfl

@[simp] theorem blockIrqs_evt (old s : State) : (blockIrqs old s).evt = s.evt := by
  obtain ⟨o, p, e⟩ := blockIrqs_shape old s; rw [e]; rfl

@[simp] theorem blockIrqs_evtPins (old s : State) : (blockIrqs old s).evtPins = s.evtPins := by
  obtain ⟨o, p, e⟩ := blockIrqs_shape old s; rw [e]; rfl

@[simp] theorem blockIrqs_real (old s : State) : (blockIrqs old s).real = s.real := by
  obtain ⟨o, p, e⟩ := blockIrqs_shape old s; rw [e]; rfl

@[simp] theorem blockIrqs_readData (old s : State) : (blockIrqs old s).readData = s.readData := by
  obtain ⟨o, p, e⟩ := blockIrqs_shape old s; rw [e]; rfl

@[simp] theorem blockIrqs_free (old s : State) : (blockIrqs old s).free = s.free := by
  obtain ⟨o, p, e⟩ := blockIrqs_shape old s; rw [e]; rfl

@[simp] theorem blockIrqs_pending (old s : State) : (blockIrqs old s).pending = s.pending := by
  obtain ⟨o, p, e⟩ := blockIrqs_shape old s; rw [e]; rfl

@[simp] theorem blockIrqs_qmg_linkUp (old s : State) : (blockIrqs old s).qmg.linkUp = s.qmg.linkUp := by
  obtain ⟨o, p, e⟩ := blockIrqs_shape old s; rw [e]; rfl

@[simp] theorem blockIrqs_qmg_linkWidth (old s : State) : (blockIrqs old s).qmg.linkWidth = s.qmg.linkWidth := by
  obtain ⟨o, p, e⟩ := blockIrqs_shape old s; rw [e]; rfl

@[simp] theorem blockIrqs_qmg_linkSpeed (old s : State) : (blockIrqs old s).qmg.linkSpeed = s.qmg.linkSpeed := by
  obtain ⟨o, p, e⟩ := blockIrqs_shape old s; rw [e]; rfl

@[simp] theorem blockIrqs_qmg_mps (old s : State) : (blockIrqs old s).qmg.mps = s.qmg.mps := by
  obtain ⟨o, p, e⟩ := blockIrqs_shape old s; rw [e]; rfl

@[simp] theorem blockIrqs_qmg_inReset (old s : State) : (blockIrqs old s).qmg.inReset = s.qmg.inReset := by
  obtain ⟨o, p, e⟩ := blockIrqs_shape old s; rw [e]; rfl

@[simp] theorem blockIrqs_qmg_events (old s : State) : (blockIrqs old s).qmg.events = s.qmg.events := by
  obtain ⟨o, p, e⟩ := blockIrqs_shape old s; rw [e]; rfl

@[simp] theorem blockIrqs_qmg_dmaWeight (old s : State) : (blockIrqs old s).qmg.dmaWeight = s.qmg.dmaWeight := by
  obtain ⟨o, p, e⟩ := blockIrqs_shape old s; rw [e]; rfl

@[simp] theorem blockIrqs_qmg_rawCap (old s : State) : (blockIrqs old s).qmg.rawCap = s.qmg.rawCap := by
  obtain ⟨o, p, e⟩ := blockIrqs_shape old s; rw [e]; rfl

@[simp] theorem blockIrqs_qmg_blkIrq (old s : State) : (blockIrqs old s).qmg.blkIrq = s.qmg.blkIrq := by
  obtain ⟨o, p, e⟩ := blockIrqs_shape old s; rw [e]; rfl

@[simp] theorem blockIrqs_qmg_dmaBytes (old s : State) : (blockIrqs old s).qmg.dmaBytes = s.qmg.dmaBytes := by
  obtain ⟨o, p, e⟩ := blockIrqs_shape old s; rw [e]; rfl

@[simp] theorem blockIrqs_qmg_dmaKb (old s : State) : (blockIrqs old s).qmg.dmaKb = s.qmg.dmaKb := by
  obtain ⟨o, p, e⟩ := blockIrqs_shape old s; rw [e]; rfl

@[simp] theorem blockIrqs_qmg_hostResets (old s : State) : (blockIrqs old s).qmg.hostResets = s.qmg.hostResets := by
  obtain ⟨o, p, e⟩ := blockIrqs_shape old s; rw [e]; rfl

@[simp] theorem blockIrqs_qmg_roundClass (old s : State) : (blockIrqs old s).qmg.roundClass = s.qmg.roundClass := by
  obtain ⟨o, p, e⟩ := blockIrqs_shape old s; rw [e]; rfl

@[simp] theorem blockIrqs_qmg_roundUsed (old s : State) : (blockIrqs old s).qmg.roundUsed = s.qmg.roundUsed := by
  obtain ⟨o, p, e⟩ := blockIrqs_shape old s; rw [e]; rfl

@[simp] theorem blockIrqs_qmg_dmaPtr (old s : State) : (blockIrqs old s).qmg.dmaPtr = s.qmg.dmaPtr := by
  obtain ⟨o, p, e⟩ := blockIrqs_shape old s; rw [e]; rfl

@[simp] theorem blockIrqs_qmg_rawWindow (old s : State) : (blockIrqs old s).qmg.rawWindow = s.qmg.rawWindow := by
  obtain ⟨o, p, e⟩ := blockIrqs_shape old s; rw [e]; rfl

@[simp] theorem blockIrqs_qmg_rawUsed (old s : State) : (blockIrqs old s).qmg.rawUsed = s.qmg.rawUsed := by
  obtain ⟨o, p, e⟩ := blockIrqs_shape old s; rw [e]; rfl

@[simp] theorem blockIrqs_qmg_msixTable (old s : State) : (blockIrqs old s).qmg.msixTable = s.qmg.msixTable := by
  obtain ⟨o, p, e⟩ := blockIrqs_shape old s; rw [e]; rfl

@[simp] theorem blockIrqs_sl (old s : State) (c : Fin 4) : (blockIrqs old s).sl c = s.sl c := by
  obtain ⟨o, p, e⟩ := blockIrqs_shape old s; rw [e]; rfl

@[simp] theorem blockIrqs_sch (old s : State) (c : Fin 4) : (blockIrqs old s).sch c = s.sch c := by
  obtain ⟨o, p, e⟩ := blockIrqs_shape old s; rw [e]; rfl

@[simp] theorem blockIrqs_qu (old s : State) (q : Fin 256) : (blockIrqs old s).qu q = s.qu q := by
  obtain ⟨o, p, e⟩ := blockIrqs_shape old s; rw [e]; rfl

@[simp] theorem blockIrqs_tb (old s : State) : (blockIrqs old s).tb = s.tb := by
  obtain ⟨o, p, e⟩ := blockIrqs_shape old s; rw [e]; rfl

end Sys2Proof.Machine
end

