-- ==== Sys2Proof/Laws/Access.lean ====
section
/-! SUPPORT. Where an address of BAR0 lies (R6, R44), and the memory of a slice's SRAM (R46). -/

namespace Sys2Proof.Machine

open Sys2Proof

/-! ### Addresses -/

/-- An offset of a slice, as an address. -/
theorem sliceAt_slice (c : Fin 4) {o : Nat} (h : o < 0x1000000) :
    sliceAt (0x1000000 * (c.val + 1) + o) = some (c, o) := by
  have hc := c.isLt
  have hd : (0x1000000 * (c.val + 1) + o) / 0x1000000 - 1 = c.val := by omega
  have hm : (0x1000000 * (c.val + 1) + o) % 0x1000000 = o := by omega
  have hf : Fin.ofNat 4 c.val = c := Fin.ext (by simp [Fin.ofNat, Nat.mod_eq_of_lt hc])
  simp only [sliceAt]
  rw [if_pos (by omega), hd, hm, hf]

/-- An address of the module region is in no slice. -/
theorem sliceAt_module {a : Nat} (h : a < 0x1000000) : sliceAt a = none :=
  if_neg (fun k => absurd h (Nat.not_lt.mpr k.1))

/-- An address in a slice's region is in the SRAM window from offset 0x400000 on. -/
theorem sramAt_of_slice {a : Nat} {c : Fin 4} {o : Nat} (h : sliceAt a = some (c, o)) :
    sramAt a = if 0x400000 ≤ o then some (c, o - 0x400000) else none := by
  unfold sramAt
  rw [h]

theorem sramAt_register {a : Nat} {c : Fin 4} {o : Nat} (h : sliceAt a = some (c, o)) (ho : o < 0x400000) :
    sramAt a = none := by
  rw [sramAt_of_slice h, if_neg (Nat.not_le.mpr ho)]

theorem sramAt_module {a : Nat} (h : sliceAt a = none) : sramAt a = none := by
  unfold sramAt
  rw [h]

/-! ### Accesses of registers -/

/-- An aligned 32-bit write of a slice register. -/
theorem writeBar0_slice (s : State) (v : DWord) {a : Nat} {c : Fin 4} {o : Nat} (h : sliceAt a = some (c, o))
    (ho : o < 0x400000) (ha : a % 4 = 0) : s.writeBar0 a 4 v = s.sliceWriteAt c o (lo32 v.toNat) := by
  unfold State.writeBar0
  rw [sramAt_register h ho]
  have h1 : msixWide a 4 = false := rfl
  dsimp only
  rw [h1, if_neg (by simp), if_neg (by simp [ha])]
  unfold State.regWrite
  rw [h]

/-- An aligned 32-bit write of a module register. -/
theorem writeBar0_module (s : State) (v : DWord) {a : Nat} (h : sliceAt a = none) (ha : a % 4 = 0) :
    s.writeBar0 a 4 v =
      if (s.moduleReg a).isNone then s.recordAccess .bar0 a true
      else if a / 0x10000 = 5 then s.qmgWrite (fun s => s.moduleRegWrite a (lo32 v.toNat))
      else if a = 0x0 ∨ a = 0xC then s
      else s.moduleWrite (fun s => s.moduleRegWrite a (lo32 v.toNat)) := by
  unfold State.writeBar0
  rw [sramAt_module h]
  have h1 : msixWide a 4 = false := rfl
  dsimp only
  rw [h1, if_neg (by simp), if_neg (by simp [ha])]
  unfold State.regWrite
  rw [h]

/-- Four bytes of a register are the register. -/
theorem ofLe_le4 (w : Word) : ofLe (le 4 w.toNat) = w.toNat := by
  have h := w.isLt
  simp only [le, ofLe, BitVec.toNat_ofNat]
  omega

/-- An aligned 32-bit read outside the SRAM windows. -/
theorem readBar0_aligned (s : State) {a : Nat} (h : sramAt a = none) (ha : a % 4 = 0) :
    s.readBar0 a 4 = { s.regReadFx a with readData := le 4 (s.regRead a).toNat } := by
  have h1 : touched a 4 = [a] := by
    have : a / 4 * 4 = a := by omega
    simp [touched, ha, List.range_succ, this]
  have h2 : slice (le 4 (s.regRead a).toNat) 0 4 = le 4 (s.regRead a).toNat := by simp [slice, le]
  unfold State.readBar0
  rw [h]
  simp only [h1, readRegs, List.append_nil, ha, h2]

/-! ### The slice SRAM -/

theorem memWfFrom_mono {m : List Host.Cell} : ∀ {lo lo' : Nat}, lo' ≤ lo → memWfFrom lo m = true → memWfFrom lo' m = true := by
  cases m with
  | nil => intros; rfl
  | cons x m =>
    obtain ⟨b, w⟩ := x
    intro lo lo' h hw
    simp only [memWfFrom, Bool.and_eq_true, decide_eq_true_eq] at hw ⊢
    exact ⟨⟨by omega, hw.1.2⟩, hw.2⟩

/-- A byte written keeps the canonical form. -/
theorem memSet_wfFrom (a : Nat) (v : Byte) : ∀ (m : List Host.Cell) (lo : Nat), lo ≤ a → memWfFrom lo m = true →
    memWfFrom lo (memSet m a v) = true := by
  intro m
  induction m with
  | nil =>
    intro lo h _
    simp only [memSet]
    split
    · rfl
    · rename_i hv
      simp only [memWfFrom, Bool.and_eq_true, decide_eq_true_eq]
      exact ⟨⟨h, by simpa using hv⟩, trivial⟩
  | cons x m ih =>
    obtain ⟨b, w⟩ := x
    intro lo h hw
    simp only [memWfFrom, Bool.and_eq_true, decide_eq_true_eq] at hw
    simp only [memSet]
    split
    · split
      · simp only [memWfFrom, Bool.and_eq_true, decide_eq_true_eq]; exact hw
      · rename_i hlt hv
        simp only [memWfFrom, Bool.and_eq_true, decide_eq_true_eq]
        exact ⟨⟨h, by simpa using hv⟩, ⟨by omega, hw.1.2⟩, hw.2⟩
    · split
      · rename_i hab
        split
        · exact memWfFrom_mono (by omega) hw.2
        · rename_i hv
          simp only [memWfFrom, Bool.and_eq_true, decide_eq_true_eq]
          exact ⟨⟨h, by simpa using hv⟩, by rw [hab]; exact hw.2⟩
      · simp only [memWfFrom, Bool.and_eq_true, decide_eq_true_eq]
        exact ⟨hw.1, ih (b + 1) (by omega) hw.2⟩

theorem memSet_wf (m : List Host.Cell) (a : Nat) (v : Byte) (h : Memory.wf m = true) : Memory.wf (memSet m a v) = true :=
  memSet_wfFrom a v m 0 (Nat.zero_le a) h

theorem memWrite_wf : ∀ (bs : List Byte) (m : List Host.Cell) (a : Nat), Memory.wf m = true →
    Memory.wf (memWrite m a bs) = true := by
  intro bs
  induction bs with
  | nil => intro m a h; exact h
  | cons b bs ih => intro m a h; exact ih _ _ (memSet_wf m a b h)

theorem memClear_wfFrom (p q : Nat) : ∀ (m : List Host.Cell) (lo : Nat), memWfFrom lo m = true →
    memWfFrom lo (memClear m p q) = true := by
  intro m
  induction m with
  | nil => intro lo h; exact h
  | cons x m ih =>
    obtain ⟨b, w⟩ := x
    intro lo hw
    simp only [memWfFrom, Bool.and_eq_true, decide_eq_true_eq] at hw
    have h1 := ih (b + 1) hw.2
    simp only [memClear, List.filter_cons] at h1 ⊢
    split
    · simp only [memWfFrom, Bool.and_eq_true, decide_eq_true_eq]; exact ⟨hw.1, h1⟩
    · exact memWfFrom_mono (by omega) h1

theorem memClear_wf (m : List Host.Cell) (p q : Nat) (h : Memory.wf m = true) : Memory.wf (memClear m p q) = true :=
  memClear_wfFrom p q m 0 h

/-- A canonical memory from `lo` on reads zero below `lo`. -/
theorem memGet_below : ∀ (m : List Host.Cell) (lo a : Nat), memWfFrom lo m = true → a < lo → memGet m a = 0 := by
  intro m
  induction m with
  | nil => intros; rfl
  | cons x m ih =>
    obtain ⟨b, w⟩ := x
    intro lo a hw h
    simp only [memWfFrom, Bool.and_eq_true, decide_eq_true_eq] at hw
    simp only [memGet]
    rw [if_neg (by omega)]
    exact ih (b + 1) a hw.2 (by omega)

/-- A byte written reads back. -/
theorem memGet_memSet_same (a : Nat) (v : Byte) : ∀ (m : List Host.Cell) (lo : Nat), memWfFrom lo m = true →
    memGet (memSet m a v) a = v := by
  intro m
  induction m with
  | nil =>
    intro lo _
    simp only [memSet]
    split
    · rename_i hv; rw [hv]; rfl
    · simp [memGet]
  | cons x m ih =>
    obtain ⟨b, w⟩ := x
    intro lo hw
    simp only [memWfFrom, Bool.and_eq_true, decide_eq_true_eq] at hw
    simp only [memSet]
    split
    · rename_i hlt
      split
      · rename_i hv
        rw [hv]
        simp only [memGet]
        rw [if_neg (by omega)]
        exact memGet_below m (b + 1) a hw.2 (by omega)
      · simp [memGet]
    · split
      · rename_i hab
        split
        · rename_i hv
          rw [hv]
          exact memGet_below m (b + 1) a hw.2 (by omega)
        · simp [memGet]
      · rename_i hne
        simp only [memGet]
        rw [if_neg hne]
        exact ih (b + 1) hw.2

/-- A byte written leaves every other byte alone. -/
theorem memGet_memSet_ne (a k : Nat) (v : Byte) (h : k ≠ a) : ∀ (m : List Host.Cell),
    memGet (memSet m a v) k = memGet m k := by
  intro m
  induction m with
  | nil =>
    simp only [memSet]
    split
    · rfl
    · simp [memGet, h]
  | cons x m ih =>
    obtain ⟨b, w⟩ := x
    simp only [memSet]
    split
    · split
      · rfl
      · simp [memGet, h]
    · split
      · rename_i hab
        split
        · simp only [memGet]; rw [if_neg (by omega)]
        · simp [memGet, hab ▸ h, h]
      · simp only [memGet, ih]

/-- Bytes written leave every byte outside them alone. -/
theorem memGet_memWrite_out (k : Nat) : ∀ (bs : List Byte) (m : List Host.Cell) (a : Nat),
    k < a ∨ a + bs.length ≤ k → memGet (memWrite m a bs) k = memGet m k := by
  intro bs
  induction bs with
  | nil => intros; rfl
  | cons b bs ih =>
    intro m a h
    simp only [List.length_cons] at h
    simp only [memWrite]
    rw [ih _ _ (by omega), memGet_memSet_ne a k b (by omega)]

/-- Bytes written read back. -/
theorem memGet_memWrite_in (i : Nat) : ∀ (bs : List Byte) (m : List Host.Cell) (a : Nat) (h : i < bs.length),
    Memory.wf m = true → memGet (memWrite m a bs) (a + i) = bs[i] := by
  induction i with
  | zero =>
    intro bs m a h hw
    cases bs with
    | nil => simp at h
    | cons b bs =>
      simp only [memWrite, Nat.add_zero, List.getElem_cons_zero]
      rw [memGet_memWrite_out a bs _ _ (Or.inl (by omega))]
      exact memGet_memSet_same a b m 0 hw
  | succ i ih =>
    intro bs m a h hw
    cases bs with
    | nil => simp at h
    | cons b bs =>
      have := ih bs (memSet m a b) (a + 1) (by simpa using h) (memSet_wf m a b hw)
      simp only [memWrite, List.getElem_cons_succ]
      rw [← this]
      congr 1
      omega

end Sys2Proof.Machine
end

