-- ==== Sys2Proof/Laws/Frames/SramsBase.lean ====
section
/-! SUPPORT. The slice SRAMs as one part of the state, and what leaves them alone. -/

set_option Elab.async false

namespace Sys2Proof.Machine

open Sys2Proof

/-- The SRAM of every slice. -/
def State.srams (s : State) (c : Fin 4) : List Host.Cell := (s.sl c).sram

theorem srams_of_slices {a b : State} (h : b.slices = a.slices) : b.srams = a.srams := by
  funext c
  simp only [State.srams, State.sl, h]

/-- The SRAM of every slice of a table of slices. -/
def sramsOf (v : Vector Slice 4) (c : Fin 4) : List Host.Cell := (v.get c).sram

theorem srams_mk {f0 f2 f3 f4 f5 f6 f7 f8 f9 f10 f11 f12 f13 f14 f15 f16 f17 f18 f19 f20 f21} {sl : Vector Slice 4} :
    (State.mk f0 sl f2 f3 f4 f5 f6 f7 f8 f9 f10 f11 f12 f13 f14 f15 f16 f17 f18 f19 f20 f21).srams = sramsOf sl := rfl

theorem sramsOf_slices (s : State) : sramsOf s.slices = s.srams := rfl

theorem srams_setSl (s : State) (c : Fin 4) (x : Slice) (h : x.sram = (s.sl c).sram) : (s.setSl c x).srams = s.srams := by
  funext d
  by_cases e : d = c
  · subst e; simp only [State.srams, State.sl_setSl, h]
  · simp only [State.srams, State.sl_setSl_ne s x e]

theorem srams_modSl (s : State) (c : Fin 4) (f : Slice → Slice) (h : ∀ x, (f x).sram = x.sram) :
    (s.modSl c f).srams = s.srams :=
  srams_setSl s c _ (h _)

theorem srams_ite {p : Prop} [Decidable p] {a b s : State} (ha : a.srams = s.srams) (hb : b.srams = s.srams) :
    (if p then a else b).srams = s.srams := by
  split
  · exact ha
  · exact hb

/-- An iteration whose every round leaves the SRAMs alone. -/
theorem srams_foldl {α : Type} (g : State → α → State) (h : ∀ t a, (g t a).srams = t.srams) (l : List α) (s : State) :
    (l.foldl g s).srams = s.srams := by
  induction l generalizing s with
  | nil => rfl
  | cons a l ih => rw [List.foldl_cons, ih, h]

/-- An iteration over a slice whose every round leaves the SRAM alone. -/
theorem sram_foldl {α : Type} (g : Slice → α → Slice) (h : ∀ t a, (g t a).sram = t.sram) (l : List α) (x : Slice) :
    (l.foldl g x).sram = x.sram := by
  induction l generalizing x with
  | nil => rfl
  | cons a l ih => rw [List.foldl_cons, ih, h]

theorem sram_ite {p : Prop} [Decidable p] {a b x : Slice} (ha : a.sram = x.sram) (hb : b.sram = x.sram) :
    (if p then a else b).sram = x.sram := by
  split
  · exact ha
  · exact hb

theorem modSlices_srams (s : State) (f : Fin 4 → Slice → Slice) (h : ∀ c x, (f c x).sram = x.sram) :
    (s.modSlices f).srams = s.srams :=
  srams_foldl _ (fun t c => srams_modSl t c (f c) (h c)) _ _

theorem blockIrqs_srams (old s : State) : (blockIrqs old s).srams = s.srams := srams_of_slices (blockIrqs_slices old s)

theorem moduleWrite_srams (s : State) (f : State → State) (h : ∀ t, (f t).srams = t.srams) :
    (s.moduleWrite f).srams = s.srams := by
  unfold State.moduleWrite
  split
  · rfl
  · split
    · rfl
    · exact h s

theorem qmgWrite_srams (s : State) (f : State → State) (h : ∀ t, (f t).srams = t.srams) :
    (s.qmgWrite f).srams = s.srams := by
  unfold State.qmgWrite
  split
  · exact h s
  · rfl

theorem sendMsix_srams (v : Nat) (s : State) : (sendMsix v s).srams = s.srams := by
  unfold sendMsix
  split <;> rfl

theorem modQ_srams (s : State) (q : Fin 256) (f : Queue → Queue) : (s.modQ q f).srams = s.srams := rfl
theorem modSch_srams (s : State) (c : Fin 4) (f : Sched → Sched) : (s.modSch c f).srams = s.srams := rfl
theorem emit_srams (s : State) (o : Output) : (s.emit o).srams = s.srams := rfl
theorem ask_srams (s : State) (i n : Nat) : (s.ask i n).srams = s.srams := rfl
theorem release_srams (s : State) (i n : Nat) : (s.release i n).srams = s.srams := rfl
theorem releaseAll_srams (s : State) (i : Nat) : (s.releaseAll i).srams = s.srams := rfl

end Sys2Proof.Machine
end

