-- ==== Sys2Proof/Laws/Frames/SramsOps.lean ====
section
/-! SUPPORT. What the definitions of this file leave unchanged of the slice SRAMs, one lemma each. -/

set_option Elab.async false

namespace Sys2Proof.Machine

open Sys2Proof

theorem Slice.modTun_srams (x : Slice) (t : Nat) (f : Tuning → Tuning) : Slice.sram (Slice.modTun x t f) = Slice.sram x := by
  unfold Slice.modTun
  try dsimp only
  repeat' first
    | with_reducible rfl

theorem Slice.modInst_srams (x : Slice) (n : Nat) (f : Inst → Inst) : Slice.sram (Slice.modInst x n f) = Slice.sram x := by
  unfold Slice.modInst
  try dsimp only
  repeat' first
    | with_reducible rfl

theorem Slice.modCand_srams (x : Slice) (t : Nat) (f : Inst → Inst) : Slice.sram (Slice.modCand x t f) = Slice.sram x := by
  unfold Slice.modCand
  try dsimp only
  repeat' first
    | with_reducible rfl

theorem Slice.modAcq_srams (x : Slice) (n : Nat) (f : Acq → Acq) : Slice.sram (Slice.modAcq x n f) = Slice.sram x := by
  unfold Slice.modAcq
  try dsimp only
  repeat' first
    | with_reducible rfl

theorem Slice.modCandAcq_srams (x : Slice) (t : Nat) (f : Acq → Acq) : Slice.sram (Slice.modCandAcq x t f) = Slice.sram x := by
  unfold Slice.modCandAcq
  try dsimp only
  repeat' first
    | with_reducible rfl

theorem Slice.modCtx_srams (x : Slice) (k : Nat) (f : Ctx → Ctx) : Slice.sram (Slice.modCtx x k f) = Slice.sram x := by
  unfold Slice.modCtx
  try dsimp only
  repeat' first
    | with_reducible rfl

theorem Slice.modAf_srams (x : Slice) (n : Nat) (f : Af → Af) : Slice.sram (Slice.modAf x n f) = Slice.sram x := by
  unfold Slice.modAf
  try dsimp only
  repeat' first
    | with_reducible rfl

theorem Slice.modSlot_srams (x : Slice) (k : Nat) (f : KeySlot → KeySlot) : Slice.sram (Slice.modSlot x k f) = Slice.sram x := by
  unfold Slice.modSlot
  try dsimp only
  repeat' first
    | with_reducible rfl

theorem State.freeWord_srams (s : State) : State.srams (State.freeWord s).2 = State.srams s := by
  unfold State.freeWord
  try dsimp only
  repeat' first
    | with_reducible rfl
    | simp only [srams_mk, sramsOf_slices]

theorem State.recordAccess_srams (s : State) (bar : Bar) (addr : Nat) (unmapped : Bool) : State.srams (State.recordAccess s bar addr unmapped) = State.srams s := by
  unfold State.recordAccess
  try dsimp only
  repeat' first
    | with_reducible rfl
    | (with_reducible refine (srams_modSl _ _ _ (fun _ => ?_)).trans ?_)
    | (with_reducible refine srams_ite ?_ ?_)
    | (with_reducible refine sram_ite ?_ ?_)
    | simp only [srams_mk, sramsOf_slices]
    | split

end Sys2Proof.Machine
end

