-- ==== Sys2Proof/Laws/Frames/SramsTrunkOps.lean ====
section
/-! SUPPORT. What the definitions of this file leave unchanged of the slice SRAMs, one lemma each. -/

set_option Elab.async false

namespace Sys2Proof.Machine

open Sys2Proof

theorem State.modPort_srams (s : State) (p : Fin 3) (f : Port → Port) : State.srams (State.modPort s p f) = State.srams s := by
  unfold State.modPort
  try dsimp only
  repeat' first
    | with_reducible rfl
    | simp only [srams_mk, sramsOf_slices]

theorem State.egress_srams (s : State) (p : Fin 3) (i : Nat) (f : Frame) : State.srams (State.egress s p i f).1 = State.srams s := by
  unfold State.egress
  try dsimp only
  repeat' first
    | with_reducible rfl
    | (with_reducible refine (State.modPort_srams _ _ _).trans ?_)
    | simp only [srams_mk, sramsOf_slices]

theorem State.toChildren_srams (s : State) (i : Option Nat) (f : Frame) : State.srams (State.toChildren s i f).1 = State.srams s := by
  unfold State.toChildren
  have h : ∀ (l : List (Fin 3)) (a : State × Bool), (l.foldl (fun (a : State × Bool) p =>
    if (a.1.port p).state = .child then
      let r := a.1.egress p (i.getD p.val) f
      (r.1, a.2 || r.2)
    else a) a).1.srams = a.1.srams := by
    intro l
    induction l with
    | nil => intro a; rfl
    | cons p l ih =>
      intro a
      rw [List.foldl_cons, ih]
      split
      · exact State.egress_srams _ _ _ _
      · rfl
  exact h _ _

theorem State.originate_srams (s : State) (cls : FrameClass) (dir : FrameDir) (kind : Nat) (turn : Bool) (dest : Nat) (payload : List Byte) : State.srams (State.originate s cls dir kind turn dest payload).1 = State.srams s := by
  unfold State.originate
  extract_lets f
  split
  · split
    · split
      · exact State.egress_srams _ _ _ _
      · rfl
    · split
      · exact State.toChildren_srams _ _ _
      · split
        · rfl
        · exact State.toChildren_srams _ _ _
    · rfl
  · exact State.toChildren_srams _ _ _

end Sys2Proof.Machine
end

