-- ==== Sys2Proof/Laws/Frames/SramsRecords.lean ====
section
/-! SUPPORT. What the definitions of this file leave unchanged of the slice SRAMs, one lemma each. -/

set_option Elab.async false

namespace Sys2Proof.Machine

open Sys2Proof

theorem State.exportRec_srams (s : State) (q : Fin 256) (r : Record) : State.srams (State.exportRec s q r) = State.srams s := by
  unfold State.exportRec
  refine srams_foldl _ (fun t e => ?_) _ _
  dsimp only
  refine srams_ite ?_ rfl
  refine srams_ite (srams_ite ?_ ?_) rfl
  · exact (State.originate_srams _ _ _ _ _ _ _ : _ = t.srams)
  · exact (State.originate_srams _ _ _ _ _ _ _ : _ = t.srams)

theorem State.takeSeq_srams (s : State) (q : Fin 256) : State.srams (State.takeSeq s q).2 = State.srams s := by
  unfold State.takeSeq
  try dsimp only
  repeat' first
    | with_reducible rfl
    | (with_reducible refine (modQ_srams _ _ _).trans ?_)
    | simp only [srams_mk, sramsOf_slices]

theorem State.lossTail_srams (s : State) (q : Fin 256) (causes : Byte) (lost : Nat) (es : List SrcCount) (ts : Nat) : State.srams (State.lossTail s q causes lost es ts) = State.srams s := by
  unfold State.lossTail
  try dsimp only
  repeat' first
    | with_reducible rfl
    | (with_reducible refine (State.takeSeq_srams _ _).trans ?_)
    | (with_reducible refine (modQ_srams _ _ _).trans ?_)
    | (with_reducible refine srams_ite ?_ ?_)
    | simp only [srams_mk, sramsOf_slices]
    | split

theorem State.lossHead_srams (s : State) (q : Fin 256) (causes : Byte) (lost : Nat) (es : List SrcCount) (ts : Nat) : State.srams (State.lossHead s q causes lost es ts) = State.srams s := by
  unfold State.lossHead
  try dsimp only
  repeat' first
    | with_reducible rfl
    | (with_reducible refine (modQ_srams _ _ _).trans ?_)
    | simp only [srams_mk, sramsOf_slices]
    | split

theorem State.lose_srams (s : State) (q : Fin 256) (causes : Byte) (lost : Nat) (es : List SrcCount) (ts : Nat) : State.srams (State.lose s q causes lost es ts) = State.srams s := by
  unfold State.lose
  try dsimp only
  repeat' first
    | with_reducible rfl
    | (with_reducible refine (State.lossHead_srams _ _ _ _ _ _).trans ?_)
    | (with_reducible refine (State.lossTail_srams _ _ _ _ _ _).trans ?_)
    | (with_reducible refine srams_ite ?_ ?_)
    | split

theorem State.countLost_srams (s : State) (q : Fin 256) (n : Nat) : State.srams (State.countLost s q n) = State.srams s := by
  unfold State.countLost
  try dsimp only
  repeat' first
    | with_reducible rfl
    | (with_reducible refine (modQ_srams _ _ _).trans ?_)
    | (with_reducible refine srams_ite ?_ ?_)
    | simp only [srams_mk, sramsOf_slices]
    | split

theorem State.enter_srams (s : State) (q : Fin 256) (r : Record) : State.srams (State.enter s q r) = State.srams s := by
  unfold State.enter
  try dsimp only
  repeat' first
    | with_reducible rfl
    | (with_reducible refine (State.exportRec_srams _ _ _).trans ?_)
    | (with_reducible refine (State.takeSeq_srams _ _).trans ?_)
    | (with_reducible refine (modQ_srams _ _ _).trans ?_)
    | (with_reducible refine srams_ite ?_ ?_)
    | simp only [srams_mk, sramsOf_slices]
    | split

theorem State.makeRoom_srams (need : Nat) (q : Fin 256) : ∀ (n : Nat) (s : State), (State.makeRoom need q n s).srams = s.srams := by
  intro n
  induction n with
  | zero => intro s; rfl
  | succ n ih =>
    intro s
    unfold State.makeRoom
    dsimp only
    refine srams_ite rfl ?_
    split
    · rfl
    · split
      · refine (ih _).trans ?_
        exact (State.countLost_srams _ _ _).trans rfl
      · rfl

theorem State.stage_srams (s : State) (q : Fin 256) (r : Record) : State.srams (State.stage s q r) = State.srams s := by
  unfold State.stage
  try dsimp only
  repeat' first
    | with_reducible rfl
    | (with_reducible refine (State.countLost_srams _ _ _).trans ?_)
    | (with_reducible refine (State.enter_srams _ _ _).trans ?_)
    | (with_reducible refine (State.lossHead_srams _ _ _ _ _ _).trans ?_)
    | (with_reducible refine (State.lossTail_srams _ _ _ _ _ _).trans ?_)
    | (with_reducible refine (State.makeRoom_srams _ _ _ _).trans ?_)
    | (with_reducible refine srams_ite ?_ ?_)
    | split

theorem State.gap_srams (s : State) (q : Fin 256) (cause : Nat) (lost : Nat) (es : List SrcCount) (ts : Nat) : State.srams (State.gap s q cause lost es ts) = State.srams s := by
  unfold State.gap
  try dsimp only
  repeat' first
    | with_reducible rfl
    | (with_reducible refine (State.lose_srams _ _ _ _ _ _).trans ?_)
    | (with_reducible refine srams_ite ?_ ?_)
    | split

theorem State.deliverDone_srams (s : State) (cq : Fin 256) (r : Record) : State.srams (State.deliverDone s cq r) = State.srams s := by
  unfold State.deliverDone
  try dsimp only
  repeat' first
    | with_reducible rfl
    | (with_reducible refine (State.enter_srams _ _ _).trans ?_)
    | (with_reducible refine (modQ_srams _ _ _).trans ?_)
    | (with_reducible refine srams_ite ?_ ?_)
    | simp only [srams_mk, sramsOf_slices]
    | split

theorem State.report_srams (s : State) (c : CmdRef) (status : Nat) (result : List Byte) : State.srams (State.report s c status result) = State.srams s := by
  unfold State.report
  try dsimp only
  repeat' first
    | with_reducible rfl
    | (with_reducible refine (State.deliverDone_srams _ _ _).trans ?_)
    | (with_reducible refine srams_ite ?_ ?_)
    | simp only [srams_mk, sramsOf_slices]
    | split

theorem State.endNops_srams (s : State) (q : Fin 256) : State.srams (State.endNops s q) = State.srams s := by
  unfold State.endNops
  try dsimp only
  repeat' first
    | with_reducible rfl
    | (with_reducible refine (State.report_srams _ _ _ _).trans ?_)
    | (with_reducible refine (modQ_srams _ _ _).trans ?_)
    | (with_reducible refine (srams_foldl _ (fun _ _ => ?_) _ _).trans ?_)
    | (with_reducible refine (sram_foldl _ (fun _ _ => ?_) _ _).trans ?_)
    | simp only [srams_mk, sramsOf_slices]

theorem State.complete_srams (s : State) (c : CmdRef) (status : Nat) (result : List Byte) : State.srams (State.complete s c status result) = State.srams s := by
  unfold State.complete
  try dsimp only
  repeat' first
    | with_reducible rfl
    | (with_reducible refine (State.endNops_srams _ _).trans ?_)
    | (with_reducible refine (State.report_srams _ _ _ _).trans ?_)
    | (with_reducible refine (modQ_srams _ _ _).trans ?_)
    | (with_reducible refine srams_ite ?_ ?_)
    | simp only [srams_mk, sramsOf_slices]
    | split

theorem State.stageOrHold_srams (s : State) (q : Fin 256) (r : Record) : State.srams (State.stageOrHold s q r) = State.srams s := by
  unfold State.stageOrHold
  try dsimp only
  repeat' first
    | with_reducible rfl
    | (with_reducible refine (State.stage_srams _ _ _).trans ?_)
    | (with_reducible refine srams_ite ?_ ?_)
    | simp only [srams_mk, sramsOf_slices]
    | split

theorem State.faultAt_srams (s : State) (i : FaultInfo) (ts : Nat) : State.srams (State.faultAt s i ts) = State.srams s := by
  unfold State.faultAt
  try dsimp only
  repeat' first
    | with_reducible rfl
    | (with_reducible refine (State.stageOrHold_srams _ _ _).trans ?_)
    | (with_reducible refine srams_ite ?_ ?_)
    | simp only [srams_mk, sramsOf_slices]
    | split

theorem State.fault_srams (s : State) (i : FaultInfo) : State.srams (State.fault s i) = State.srams s := by
  unfold State.fault
  try dsimp only
  repeat' first
    | with_reducible rfl
    | (with_reducible refine (State.faultAt_srams _ _ _).trans ?_)

theorem State.powerEvent_srams (s : State) (kind status : Nat) (req : Option Nat) (tokens : Nat) : State.srams (State.powerEvent s kind status req tokens) = State.srams s := by
  unfold State.powerEvent
  try dsimp only
  repeat' first
    | with_reducible rfl
    | (with_reducible refine (State.stageOrHold_srams _ _ _).trans ?_)
    | simp only [srams_mk, sramsOf_slices]
    | split

end Sys2Proof.Machine
end

