-- ==== Sys2Proof/Laws/Frames/SramsFlash.lean ====
section
/-! SUPPORT. What the definitions of this file leave unchanged of the slice SRAMs, one lemma each. -/

set_option Elab.async false

namespace Sys2Proof.Machine

open Sys2Proof

theorem State.eccRead_srams (s : State) (corrected : Bool) (unit : Nat) : State.srams (State.eccRead s corrected unit) = State.srams s := by
  unfold State.eccRead
  try dsimp only
  repeat' first
    | with_reducible rfl
    | (with_reducible refine (State.fault_srams _ _).trans ?_)
    | (with_reducible refine (State.freeWord_srams _).trans ?_)
    | (with_reducible refine srams_ite ?_ ?_)
    | simp only [srams_mk, sramsOf_slices]
    | split

theorem State.eccMaybe_srams (s : State) (ecc : Option Bool) (unit : Nat) : State.srams (State.eccMaybe s ecc unit) = State.srams s := by
  unfold State.eccMaybe
  try dsimp only
  repeat' first
    | with_reducible rfl
    | (with_reducible refine (State.eccRead_srams _ _ _).trans ?_)
    | simp only [srams_mk, sramsOf_slices]
    | split

theorem State.flashDeny_srams (s : State) : State.srams (State.flashDeny s) = State.srams s := by
  unfold State.flashDeny
  try dsimp only
  repeat' first
    | with_reducible rfl
    | simp only [srams_mk, sramsOf_slices]

theorem State.queueJob_srams (s : State) (j : FlashJob) : State.srams (State.queueJob s j) = State.srams s := by
  unfold State.queueJob
  try dsimp only
  repeat' first
    | with_reducible rfl
    | (with_reducible refine (ask_srams _ _ _).trans ?_)
    | (with_reducible refine srams_ite ?_ ?_)
    | simp only [srams_mk, sramsOf_slices]
    | split

theorem State.countWrite_srams (s : State) (cost : FlashCost) : State.srams (State.countWrite s cost) = State.srams s := by
  unfold State.countWrite
  try dsimp only
  repeat' first
    | with_reducible rfl
    | simp only [srams_mk, sramsOf_slices]
    | split

theorem State.flashJob_srams (s : State) (cost : FlashCost) (j : FlashJob) : State.srams (State.flashJob s cost j) = State.srams s := by
  unfold State.flashJob
  try dsimp only
  repeat' first
    | with_reducible rfl
    | (with_reducible refine (State.countWrite_srams _ _).trans ?_)
    | (with_reducible refine (State.queueJob_srams _ _).trans ?_)

end Sys2Proof.Machine
end

