-- ==== Sys2Proof/Laws/Frames/SramsHostPort.lean ====
section
/-! SUPPORT. What the definitions of this file leave unchanged of the slice SRAMs, one lemma each. -/

set_option Elab.async false

namespace Sys2Proof.Machine

open Sys2Proof

theorem State.queueIrq_srams (s : State) (q : Fin 256) : State.srams (State.queueIrq s q) = State.srams s := by
  unfold State.queueIrq
  try dsimp only
  repeat' first
    | with_reducible rfl
    | (with_reducible refine (modQ_srams _ _ _).trans ?_)
    | (with_reducible refine (sendMsix_srams _ _).trans ?_)
    | (with_reducible refine srams_ite ?_ ?_)
    | simp only [srams_mk, sramsOf_slices]
    | split

theorem State.handOver_srams (s : State) (q : Fin 256) (desc status : Nat) : State.srams (State.handOver s q desc status) = State.srams s := by
  unfold State.handOver
  try dsimp only
  repeat' first
    | with_reducible rfl
    | (with_reducible refine (State.queueIrq_srams _ _).trans ?_)
    | (with_reducible refine (modQ_srams _ _ _).trans ?_)
    | (with_reducible refine (emit_srams _ _).trans ?_)
    | simp only [srams_mk, sramsOf_slices]

theorem State.closeBuf_srams (s : State) (q : Fin 256) (early : Bool) : State.srams (State.closeBuf s q early) = State.srams s := by
  unfold State.closeBuf
  try dsimp only
  repeat' first
    | with_reducible rfl
    | (with_reducible refine (State.handOver_srams _ _ _ _).trans ?_)
    | (with_reducible refine (modQ_srams _ _ _).trans ?_)
    | (with_reducible refine srams_ite ?_ ?_)
    | simp only [srams_mk, sramsOf_slices]
    | split

theorem State.recordDone_srams (s : State) (q : Fin 256) (e : Staged) : State.srams (State.recordDone s q e) = State.srams s := by
  unfold State.recordDone
  try dsimp only
  repeat' first
    | with_reducible rfl
    | (with_reducible refine (State.closeBuf_srams _ _ _).trans ?_)
    | (with_reducible refine (modQ_srams _ _ _).trans ?_)
    | (with_reducible refine srams_ite ?_ ?_)
    | (with_reducible refine (srams_foldl _ (fun _ _ => ?_) _ _).trans ?_)
    | (with_reducible refine (sram_foldl _ (fun _ _ => ?_) _ _).trans ?_)
    | simp only [srams_mk, sramsOf_slices]
    | split

theorem State.noteLeaving_srams (s : State) (q : Fin 256) (n : Word) (e : Staged) :
    (s.noteLeaving q n e).1.srams = s.srams := by
  unfold State.noteLeaving
  split
  · split
    · rfl
    · split
      · rfl
      · dsimp only
        refine (modQ_srams _ _ _).trans ?_
        exact srams_modSl s _ _ (fun _ => rfl)
  · rfl

theorem State.startXfer_srams (s : State) (q : Fin 256) : State.srams (State.startXfer s q) = State.srams s := by
  unfold State.startXfer
  split
  · rename_i e b he hb
    extract_lets fromHead s1 p n v s2 e' s3
    have h1 : s1.srams = s.srams := rfl
    clear_value s1
    have hp : p.2.srams = s.srams := by
      simp only [p]
      split
      · exact h1
      · exact (State.takeSeq_srams _ _).trans h1
    clear_value p
    have hv : s2.srams = s.srams := by
      simp only [s2, v]
      split
      · exact (State.noteLeaving_srams _ _ _ _).trans hp
      · exact hp
    clear_value s2 e'
    have h3 : s3.srams = s.srams := by
      simp only [s3]
      split
      · exact (State.exportRec_srams _ _ _).trans ((modQ_srams _ _ _).trans hv)
      · exact srams_ite ((State.exportRec_srams _ _ _).trans hv) hv
    exact (modQ_srams _ _ _).trans h3
  · rfl

theorem State.moveBytes_srams (s : State) (q : Fin 256) (n : Nat) : State.srams (State.moveBytes s q n) = State.srams s := by
  unfold State.moveBytes
  try dsimp only
  repeat' first
    | with_reducible rfl
    | (with_reducible refine (State.recordDone_srams _ _ _).trans ?_)
    | (with_reducible refine (modQ_srams _ _ _).trans ?_)
    | (with_reducible refine (emit_srams _ _).trans ?_)
    | (with_reducible refine srams_ite ?_ ?_)
    | simp only [srams_mk, sramsOf_slices]
    | split

theorem State.closeFull_srams (s : State) : State.srams (State.closeFull s) = State.srams s := by
  unfold State.closeFull
  try dsimp only
  repeat' first
    | with_reducible rfl
    | (with_reducible refine (State.closeBuf_srams _ _ _).trans ?_)
    | (with_reducible refine srams_ite ?_ ?_)
    | (with_reducible refine (srams_foldl _ (fun _ _ => ?_) _ _).trans ?_)
    | (with_reducible refine (sram_foldl _ (fun _ _ => ?_) _ _).trans ?_)
    | split

theorem State.grantDma_srams (s : State) : State.srams (State.grantDma s) = State.srams s := by
  unfold State.grantDma
  try dsimp only
  repeat' first
    | with_reducible rfl
    | (with_reducible refine (State.moveBytes_srams _ _ _).trans ?_)
    | (with_reducible refine (State.startXfer_srams _ _).trans ?_)
    | (with_reducible refine srams_ite ?_ ?_)
    | simp only [srams_mk, sramsOf_slices]
    | split

theorem State.markCapped_srams (s : State) : State.srams (State.markCapped s) = State.srams s := by
  unfold State.markCapped
  try dsimp only
  repeat' first
    | with_reducible rfl
    | (with_reducible refine (modQ_srams _ _ _).trans ?_)
    | (with_reducible refine srams_ite ?_ ?_)
    | (with_reducible refine (srams_foldl _ (fun _ _ => ?_) _ _).trans ?_)
    | (with_reducible refine (sram_foldl _ (fun _ _ => ?_) _ _).trans ?_)
    | simp only [srams_mk, sramsOf_slices]
    | split

theorem State.rollCap_srams (s : State) : State.srams (State.rollCap s) = State.srams s := by
  unfold State.rollCap
  try dsimp only
  repeat' first
    | with_reducible rfl
    | (with_reducible refine srams_ite ?_ ?_)
    | simp only [srams_mk, sramsOf_slices]
    | split

theorem State.enableQueue_srams (s : State) (q : Fin 256) : State.srams (State.enableQueue s q) = State.srams s := by
  unfold State.enableQueue
  try dsimp only
  repeat' first
    | with_reducible rfl
    | (with_reducible refine (modQ_srams _ _ _).trans ?_)
    | (with_reducible refine srams_ite ?_ ?_)
    | simp only [srams_mk, sramsOf_slices]
    | split

theorem State.disableQueue_srams (s : State) (q : Fin 256) : State.srams (State.disableQueue s q) = State.srams s := by
  unfold State.disableQueue
  try dsimp only
  repeat' first
    | with_reducible rfl
    | (with_reducible refine (State.closeBuf_srams _ _ _).trans ?_)
    | (with_reducible refine (State.moveBytes_srams _ _ _).trans ?_)
    | (with_reducible refine (modQ_srams _ _ _).trans ?_)
    | (with_reducible refine srams_ite ?_ ?_)
    | simp only [srams_mk, sramsOf_slices]
    | split

theorem State.flushQueue_srams (s : State) (q : Fin 256) : State.srams (State.flushQueue s q) = State.srams s := by
  unfold State.flushQueue
  try dsimp only
  repeat' first
    | with_reducible rfl
    | (with_reducible refine (State.closeBuf_srams _ _ _).trans ?_)
    | (with_reducible refine (modQ_srams _ _ _).trans ?_)
    | (with_reducible refine srams_ite ?_ ?_)
    | simp only [srams_mk, sramsOf_slices]
    | split

theorem State.accept_srams (s : State) (q : Fin 256) : State.srams (State.accept s q) = State.srams s := by
  unfold State.accept
  try dsimp only
  repeat' first
    | with_reducible rfl
    | (with_reducible refine (modQ_srams _ _ _).trans ?_)
    | simp only [srams_mk, sramsOf_slices]

theorem State.keep_srams (s : State) (c : Command) : State.srams (State.keep s c) = State.srams s := by
  unfold State.keep
  try dsimp only
  repeat' first
    | with_reducible rfl
    | (with_reducible refine (modQ_srams _ _ _).trans ?_)
    | simp only [srams_mk, sramsOf_slices]

theorem State.finish_srams (s : State) (c : Command) (status : Nat) (result : List Byte) : State.srams (State.finish s c status result) = State.srams s := by
  unfold State.finish
  try dsimp only
  repeat' first
    | with_reducible rfl
    | (with_reducible refine (State.accept_srams _ _).trans ?_)
    | (with_reducible refine (State.complete_srams _ _ _ _).trans ?_)

end Sys2Proof.Machine
end

