-- ==== Sys2Proof/Laws/Frames/SramsAfe.lean ====
section
/-! SUPPORT. What the definitions of this file leave unchanged of the slice SRAMs, one lemma each. -/

set_option Elab.async false

namespace Sys2Proof.Machine

open Sys2Proof

theorem State.modAfe_srams (s : State) (c : Fin 4) (f : Afe → Afe) : State.srams (State.modAfe s c f) = State.srams s := by
  unfold State.modAfe
  try dsimp only
  repeat' first
    | with_reducible rfl
    | (with_reducible refine (srams_modSl _ _ _ (fun _ => ?_)).trans ?_)
    | simp only [srams_mk, sramsOf_slices]

theorem State.sliceWrite_srams (s : State) (c : Fin 4) (off : Nat) (f : State → State) (h : ∀ t, (f t).srams = t.srams) :
    (s.sliceWrite c off f).srams = s.srams := by
  unfold State.sliceWrite
  split
  · exact h s
  · exact State.recordAccess_srams _ _ _ _

theorem State.calReq_srams (s : State) (c : Fin 4) (kind : Nat) : State.srams (State.calReq s c kind) = State.srams s := by
  unfold State.calReq
  try dsimp only
  repeat' first
    | with_reducible rfl
    | (with_reducible refine (State.modAfe_srams _ _ _).trans ?_)
    | (with_reducible refine srams_ite ?_ ?_)
    | simp only [srams_mk, sramsOf_slices]
    | split

theorem State.takeCal_srams (s : State) (c : Fin 4) (cmd : Command) : State.srams (State.takeCal s c cmd) = State.srams s := by
  unfold State.takeCal
  try dsimp only
  repeat' first
    | with_reducible rfl
    | (with_reducible refine (State.finish_srams _ _ _ _).trans ?_)
    | (with_reducible refine (State.keep_srams _ _).trans ?_)
    | (with_reducible refine (State.modAfe_srams _ _ _).trans ?_)
    | (with_reducible refine srams_ite ?_ ?_)
    | (with_reducible refine (srams_foldl _ (fun _ _ => ?_) _ _).trans ?_)
    | (with_reducible refine (sram_foldl _ (fun _ _ => ?_) _ _).trans ?_)
    | simp only [srams_mk, sramsOf_slices]
    | split

theorem State.calCommands_srams (s : State) (c : Fin 4) (kind status : Nat) : State.srams (State.calCommands s c kind status) = State.srams s := by
  unfold State.calCommands
  try dsimp only
  repeat' first
    | with_reducible rfl
    | (with_reducible refine (State.complete_srams _ _ _ _).trans ?_)
    | (with_reducible refine (State.modAfe_srams _ _ _).trans ?_)
    | (with_reducible refine srams_ite ?_ ?_)
    | (with_reducible refine (srams_foldl _ (fun _ _ => ?_) _ _).trans ?_)
    | (with_reducible refine (sram_foldl _ (fun _ _ => ?_) _ _).trans ?_)
    | simp only [srams_mk, sramsOf_slices]
    | split

theorem State.calFinish_srams (s : State) (c : Fin 4) (kind origin status start stop freq : Nat) (early notStored : Bool) (v : List Int) : State.srams (State.calFinish s c kind origin status start stop freq early notStored v) = State.srams s := by
  unfold State.calFinish
  try dsimp only
  repeat' first
    | with_reducible rfl
    | (with_reducible refine (State.calCommands_srams _ _ _ _).trans ?_)
    | (with_reducible refine (State.modAfe_srams _ _ _).trans ?_)
    | (with_reducible refine (State.stage_srams _ _ _).trans ?_)
    | (with_reducible refine (releaseAll_srams _ _).trans ?_)
    | (with_reducible refine (srams_modSl _ _ _ (fun _ => ?_)).trans ?_)
    | (with_reducible refine srams_ite ?_ ?_)
    | (with_reducible refine sram_ite ?_ ?_)
    | simp only [srams_mk, sramsOf_slices]
    | split

theorem State.flashWrite_srams {s t : State} {cost : FlashCost} {j : FlashJob} (h : s.flashWrite cost j = some t) :
    t.srams = s.srams := by
  unfold State.flashWrite at h
  split at h
  · exact absurd h (by simp)
  · injection h with h
    rw [← h]
    exact State.flashJob_srams _ _ _

theorem State.calStoreWrite_srams (s : State) (c : Fin 4) (kind : Nat) (v : List Int) (freq : Nat) : State.srams (State.calStoreWrite s c kind v freq).1 = State.srams s := by
  unfold State.calStoreWrite
  try dsimp only
  repeat' first
    | with_reducible rfl
    | (with_reducible refine (State.flashDeny_srams _).trans ?_)
    | (refine (State.flashWrite_srams ‹_›).trans ?_)
    | simp only [srams_mk, sramsOf_slices]
    | split

theorem State.calCut_srams (s : State) (c : Fin 4) (status : Nat) : State.srams (State.calCut s c status) = State.srams s := by
  unfold State.calCut
  try dsimp only
  repeat' first
    | with_reducible rfl
    | (with_reducible refine (State.calFinish_srams _ _ _ _ _ _ _ _ _ _ _).trans ?_)
    | simp only [srams_mk, sramsOf_slices]
    | split

theorem State.calStop_srams (s : State) (c : Fin 4) : State.srams (State.calStop s c) = State.srams s := by
  unfold State.calStop
  try dsimp only
  repeat' first
    | with_reducible rfl
    | (with_reducible refine (State.complete_srams _ _ _ _).trans ?_)
    | (with_reducible refine (State.modAfe_srams _ _ _).trans ?_)
    | (with_reducible refine (releaseAll_srams _ _).trans ?_)
    | (with_reducible refine (srams_foldl _ (fun _ _ => ?_) _ _).trans ?_)
    | (with_reducible refine (sram_foldl _ (fun _ _ => ?_) _ _).trans ?_)
    | simp only [srams_mk, sramsOf_slices]

theorem State.mismatchRecord_srams (s : State) (c : Fin 4) (rl : Nat) (edge : Nat) : State.srams (State.mismatchRecord s c rl edge) = State.srams s := by
  unfold State.mismatchRecord
  try dsimp only
  repeat' first
    | with_reducible rfl
    | (with_reducible refine (State.stage_srams _ _ _).trans ?_)

end Sys2Proof.Machine
end

