-- ==== Sys2Proof/Laws/Frames/SramsTunings.lean ====
section
/-! SUPPORT. What the definitions of this file leave unchanged of the slice SRAMs, one lemma each. -/

set_option Elab.async false

namespace Sys2Proof.Machine

open Sys2Proof

theorem Slice.execSwap_srams (x : Slice) (f : Forme) (t : Nat) (target : Bool) : Slice.sram (Slice.execSwap x f t target) = Slice.sram x := by
  unfold Slice.execSwap
  try dsimp only
  repeat' first
    | with_reducible rfl
    | (with_reducible refine (Slice.modTun_srams _ _ _).trans ?_)
    | (with_reducible refine sram_ite ?_ ?_)
    | split

theorem Slice.handReset_srams (x : Slice) (f : Forme) (warps : List (Nat × Int)) (t at_ : Nat) : Slice.sram (Slice.handReset x f warps t at_) = Slice.sram x := by
  unfold Slice.handReset
  try dsimp only
  repeat' first
    | with_reducible rfl
    | (with_reducible refine (Slice.modCand_srams _ _ _).trans ?_)
    | (with_reducible refine (Slice.modInst_srams _ _ _).trans ?_)
    | (with_reducible refine sram_ite ?_ ?_)
    | (with_reducible refine (sram_foldl _ (fun _ _ => ?_) _ _).trans ?_)
    | split

theorem Slice.applyReset_srams (x : Slice) (f : Forme) (t at_ : Nat) (edge : Bool) : Slice.sram (Slice.applyReset x f t at_ edge) = Slice.sram x := by
  unfold Slice.applyReset
  try dsimp only
  repeat' first
    | with_reducible rfl
    | (with_reducible refine (Slice.execSwap_srams _ _ _ _).trans ?_)
    | (with_reducible refine (Slice.modTun_srams _ _ _).trans ?_)
    | split

theorem Slice.armReset_srams (x : Slice) (f : Forme) (t at_ : Nat) (edge : Bool) : Slice.sram (Slice.armReset x f t at_ edge) = Slice.sram x := by
  unfold Slice.armReset
  try dsimp only
  repeat' first
    | with_reducible rfl
    | (with_reducible refine (Slice.applyReset_srams _ _ _ _ _).trans ?_)
    | (with_reducible refine (Slice.modTun_srams _ _ _).trans ?_)
    | (with_reducible refine sram_ite ?_ ?_)
    | split

theorem State.closeSamples_srams (s : State) (c : Fin 4) (t : Nat) : State.srams (State.closeSamples s c t) = State.srams s := by
  unfold State.closeSamples
  try dsimp only
  repeat' first
    | with_reducible rfl
    | (with_reducible refine (Slice.modTun_srams _ _ _).trans ?_)
    | (with_reducible refine (State.stage_srams _ _ _).trans ?_)
    | (with_reducible refine (srams_modSl _ _ _ (fun _ => ?_)).trans ?_)
    | simp only [srams_mk, sramsOf_slices]
    | split

theorem Slice.hear_srams (x : Slice) (f : Forme) (t ts : Nat) (w : DWord) : Slice.sram (Slice.hear x f t ts w) = Slice.sram x := by
  unfold Slice.hear
  try dsimp only
  repeat' first
    | with_reducible rfl
    | (with_reducible refine (Slice.modAcq_srams _ _ _).trans ?_)
    | (with_reducible refine (Slice.modCand_srams _ _ _).trans ?_)
    | (with_reducible refine (Slice.modCandAcq_srams _ _ _).trans ?_)
    | (with_reducible refine (Slice.modInst_srams _ _ _).trans ?_)
    | (with_reducible refine sram_ite ?_ ?_)
    | (with_reducible refine (sram_foldl _ (fun _ _ => ?_) _ _).trans ?_)
    | split

theorem State.readSample_srams (s : State) (c : Fin 4) (t : Nat) (ts : Nat) (w : DWord) (idx : Nat) : State.srams (State.readSample s c t ts w idx) = State.srams s := by
  unfold State.readSample
  try dsimp only
  repeat' first
    | with_reducible rfl
    | (with_reducible refine (Slice.hear_srams _ _ _ _ _).trans ?_)
    | (with_reducible refine (Slice.modTun_srams _ _ _).trans ?_)
    | (with_reducible refine (State.closeSamples_srams _ _ _).trans ?_)
    | (with_reducible refine (srams_modSl _ _ _ (fun _ => ?_)).trans ?_)
    | (with_reducible refine srams_ite ?_ ?_)
    | (with_reducible refine sram_ite ?_ ?_)
    | simp only [srams_mk, sramsOf_slices]
    | split

theorem State.releaseFresh_srams (s : State) (c : Fin 4) (t : Nat) (upto : Nat) : State.srams (State.releaseFresh s c t upto) = State.srams s := by
  unfold State.releaseFresh
  have h : ∀ (l : List (Nat × DWord)) (a : State × Nat), (l.foldl (fun (a : State × Nat) (p : Nat × DWord) =>
      (a.1.readSample c t p.1 p.2 a.2, a.2 + 1)) a).1.srams = a.1.srams := by
    intro l
    induction l with
    | nil => intro a; rfl
    | cons p l ih =>
      intro a
      rw [List.foldl_cons, ih]
      exact State.readSample_srams _ _ _ _ _ _
  exact (h _ _).trans (srams_modSl _ _ _ (fun _ => rfl))

theorem State.stageClosing_srams (s : State) (c : Fin 4) (t : Nat) (k : Closing) : State.srams (State.stageClosing s c t k) = State.srams s := by
  unfold State.stageClosing
  try dsimp only
  repeat' first
    | with_reducible rfl
    | (with_reducible refine (State.stage_srams _ _ _).trans ?_)

theorem State.releaseClosing_srams (s : State) (c : Fin 4) (t upto : Nat) : State.srams (State.releaseClosing s c t upto) = State.srams s := by
  unfold State.releaseClosing
  try dsimp only
  repeat' first
    | with_reducible rfl
    | (with_reducible refine (Slice.modTun_srams _ _ _).trans ?_)
    | (with_reducible refine (State.stageClosing_srams _ _ _ _).trans ?_)
    | (with_reducible refine (srams_modSl _ _ _ (fun _ => ?_)).trans ?_)
    | (with_reducible refine (srams_foldl _ (fun _ _ => ?_) _ _).trans ?_)
    | (with_reducible refine (sram_foldl _ (fun _ _ => ?_) _ _).trans ?_)
    | simp only [srams_mk, sramsOf_slices]

theorem State.endSamples_srams (s : State) (c : Fin 4) (t : Nat) : State.srams (State.endSamples s c t) = State.srams s := by
  unfold State.endSamples
  try dsimp only
  repeat' first
    | with_reducible rfl
    | (with_reducible refine (State.closeSamples_srams _ _ _).trans ?_)
    | (with_reducible refine (State.releaseClosing_srams _ _ _ _).trans ?_)
    | (with_reducible refine (State.releaseFresh_srams _ _ _ _).trans ?_)
    | (with_reducible refine (srams_foldl _ (fun _ _ => ?_) _ _).trans ?_)
    | (with_reducible refine (sram_foldl _ (fun _ _ => ?_) _ _).trans ?_)

theorem State.closeLater_srams (s : State) (c : Fin 4) (t upto : Nat) : State.srams (State.closeLater s c t upto) = State.srams s := by
  unfold State.closeLater
  try dsimp only
  repeat' first
    | with_reducible rfl
    | (with_reducible refine (Slice.modTun_srams _ _ _).trans ?_)
    | (with_reducible refine (State.endSamples_srams _ _ _).trans ?_)
    | (with_reducible refine (State.releaseFresh_srams _ _ _ _).trans ?_)
    | (with_reducible refine (srams_modSl _ _ _ (fun _ => ?_)).trans ?_)
    | (with_reducible refine srams_ite ?_ ?_)
    | (with_reducible refine sram_ite ?_ ?_)
    | simp only [srams_mk, sramsOf_slices]
    | split

theorem Slice.resetsDue_srams (f : Forme) (warps : List (Nat × Int)) (t : Nat) : ∀ (l : List (Nat × Bool)) (x : Slice),
    (Slice.resetsDue f warps t l x).sram = x.sram := by
  intro l
  induction l with
  | nil => intro x; rfl
  | cons a l ih =>
    intro x
    obtain ⟨n, e⟩ := a
    unfold Slice.resetsDue
    dsimp only
    refine sram_ite ?_ rfl
    refine (ih _).trans ((Slice.applyReset_srams _ _ _ _ _).trans ?_)
    exact sram_ite ((Slice.handReset_srams _ _ _ _ _).trans rfl) rfl

theorem Slice.resetDue_srams (x : Slice) (f : Forme) (warps : List (Nat × Int)) (t : Nat) : Slice.sram (Slice.resetDue x f warps t) = Slice.sram x := by
  unfold Slice.resetDue
  try dsimp only
  repeat' first
    | with_reducible rfl
    | (with_reducible refine (Slice.resetsDue_srams _ _ _ _ _).trans ?_)

theorem State.watchAdc_srams (s : State) (c : Fin 4) (codes : List Int) : State.srams (State.watchAdc s c codes) = State.srams s := by
  unfold State.watchAdc
  try dsimp only
  repeat' first
    | with_reducible rfl
    | (with_reducible refine (State.modAfe_srams _ _ _).trans ?_)
    | (with_reducible refine srams_ite ?_ ?_)
    | split

theorem State.tunWrite_srams (s : State) (c : Fin 4) (t : Nat) (f : Tuning → Tuning) : State.srams (State.tunWrite s c t f) = State.srams s := by
  unfold State.tunWrite
  try dsimp only
  repeat' first
    | with_reducible rfl
    | (with_reducible refine (Slice.modTun_srams _ _ _).trans ?_)
    | (with_reducible refine (srams_modSl _ _ _ (fun _ => ?_)).trans ?_)
    | (with_reducible refine srams_ite ?_ ?_)
    | (with_reducible refine sram_ite ?_ ?_)
    | simp only [srams_mk, sramsOf_slices]
    | split

theorem Slice.writeCoef_srams (x : Slice) (t b i : Nat) (v : Word) : Slice.sram (Slice.writeCoef x t b i v) = Slice.sram x := by
  unfold Slice.writeCoef
  try dsimp only
  repeat' first
    | with_reducible rfl
    | (with_reducible refine (Slice.modTun_srams _ _ _).trans ?_)
    | (with_reducible refine sram_ite ?_ ?_)
    | split

end Sys2Proof.Machine
end

