-- ==== Sys2Proof/Laws/Frames/SramsAudio.lean ====
section
/-! SUPPORT. What the definitions of this file leave unchanged of the slice SRAMs, one lemma each. -/

set_option Elab.async false

namespace Sys2Proof.Machine

open Sys2Proof

theorem State.modSai_srams (s : State) (c : Fin 4) (f : Sai → Sai) : State.srams (State.modSai s c f) = State.srams s := by
  unfold State.modSai
  try dsimp only
  repeat' first
    | with_reducible rfl
    | (with_reducible refine (srams_modSl _ _ _ (fun _ => ?_)).trans ?_)
    | simp only [srams_mk, sramsOf_slices]

theorem State.closeCapture_srams (s : State) (c : Fin 4) : State.srams (State.closeCapture s c) = State.srams s := by
  unfold State.closeCapture
  try dsimp only
  repeat' first
    | with_reducible rfl
    | (with_reducible refine (State.modSai_srams _ _ _).trans ?_)
    | (with_reducible refine (State.stage_srams _ _ _).trans ?_)
    | (with_reducible refine srams_ite ?_ ?_)
    | simp only [srams_mk, sramsOf_slices]
    | split

theorem State.closeAudio_srams (s : State) (c : Fin 4) (n : Nat) : State.srams (State.closeAudio s c n) = State.srams s := by
  unfold State.closeAudio
  try dsimp only
  repeat' first
    | with_reducible rfl
    | (with_reducible refine (Slice.modInst_srams _ _ _).trans ?_)
    | (with_reducible refine (State.stage_srams _ _ _).trans ?_)
    | (with_reducible refine (srams_modSl _ _ _ (fun _ => ?_)).trans ?_)
    | (with_reducible refine srams_ite ?_ ?_)
    | (with_reducible refine sram_ite ?_ ?_)
    | simp only [srams_mk, sramsOf_slices]
    | split

theorem State.instGrid_srams (s : State) (c : Fin 4) (n : Nat) (p : List Byte) (frames : List AudioFrame) : State.srams (State.instGrid s c n p frames) = State.srams s := by
  unfold State.instGrid
  try dsimp only
  repeat' first
    | with_reducible rfl
    | (with_reducible refine (Slice.modInst_srams _ _ _).trans ?_)
    | (with_reducible refine (State.closeAudio_srams _ _ _).trans ?_)
    | (with_reducible refine (srams_modSl _ _ _ (fun _ => ?_)).trans ?_)
    | (with_reducible refine srams_ite ?_ ?_)
    | (with_reducible refine sram_ite ?_ ?_)
    | simp only [srams_mk, sramsOf_slices]
    | split

theorem State.txGridPoint_srams (s : State) (c : Fin 4) (p : List Byte) (frames : List AudioFrame) : State.srams (State.txGridPoint s c p frames) = State.srams s := by
  unfold State.txGridPoint
  try dsimp only
  repeat' first
    | with_reducible rfl
    | (with_reducible refine (State.modSai_srams _ _ _).trans ?_)
    | (with_reducible refine srams_ite ?_ ?_)
    | simp only [srams_mk, sramsOf_slices]
    | split

theorem State.rxPop_srams (s : State) (c : Fin 4) (n idx rate : Nat) : State.srams (State.rxPop s c n idx rate) = State.srams s := by
  unfold State.rxPop
  try dsimp only
  repeat' first
    | with_reducible rfl
    | (with_reducible refine (State.closeCapture_srams _ _).trans ?_)
    | (with_reducible refine (State.modSai_srams _ _ _).trans ?_)
    | (with_reducible refine srams_ite ?_ ?_)
    | simp only [srams_mk, sramsOf_slices]
    | split

theorem State.captureGap_srams (s : State) (c : Fin 4) (p : List Byte) (resume : Nat) : State.srams (State.captureGap s c p resume) = State.srams s := by
  unfold State.captureGap
  try dsimp only
  repeat' first
    | with_reducible rfl
    | (with_reducible refine (State.closeCapture_srams _ _).trans ?_)
    | (with_reducible refine (State.gap_srams _ _ _ _ _ _).trans ?_)
    | (with_reducible refine (State.modSai_srams _ _ _).trans ?_)
    | (with_reducible refine srams_ite ?_ ?_)
    | simp only [srams_mk, sramsOf_slices]
    | split

theorem State.endCapture_srams (s : State) (c : Fin 4) : State.srams (State.endCapture s c) = State.srams s := by
  unfold State.endCapture
  try dsimp only
  repeat' first
    | with_reducible rfl
    | (with_reducible refine (State.captureGap_srams _ _ _ _).trans ?_)
    | (with_reducible refine (State.closeCapture_srams _ _).trans ?_)
    | simp only [srams_mk, sramsOf_slices]
    | split

theorem State.rxGridPoint_srams (s : State) (c : Fin 4) (p : List Byte) (g : Grid) : State.srams (State.rxGridPoint s c p g) = State.srams s := by
  unfold State.rxGridPoint
  try dsimp only
  repeat' first
    | with_reducible rfl
    | (with_reducible refine (State.captureGap_srams _ _ _ _).trans ?_)
    | (with_reducible refine (State.closeCapture_srams _ _).trans ?_)
    | (with_reducible refine (State.modSai_srams _ _ _).trans ?_)
    | (with_reducible refine (State.rxPop_srams _ _ _ _ _).trans ?_)
    | (with_reducible refine srams_ite ?_ ?_)
    | simp only [srams_mk, sramsOf_slices]
    | split

theorem State.rxGrid_srams (s : State) (c : Fin 4) (p : List Byte) : State.srams (State.rxGrid s c p) = State.srams s := by
  unfold State.rxGrid
  try dsimp only
  repeat' first
    | with_reducible rfl
    | (with_reducible refine (State.rxGridPoint_srams _ _ _ _).trans ?_)
    | (with_reducible refine srams_ite ?_ ?_)
    | simp only [srams_mk, sramsOf_slices]
    | split

theorem State.txGrid_srams (s : State) (c : Fin 4) (p : List Byte) (frames : List AudioFrame) : State.srams (State.txGrid s c p frames) = State.srams s := by
  unfold State.txGrid
  try dsimp only
  repeat' first
    | with_reducible rfl
    | (with_reducible refine (State.modSai_srams _ _ _).trans ?_)
    | (with_reducible refine (State.txGridPoint_srams _ _ _ _).trans ?_)
    | (with_reducible refine srams_ite ?_ ?_)
    | simp only [srams_mk, sramsOf_slices]
    | split

theorem State.writeSaiCtl_srams (s : State) (c : Fin 4) (v : Word) : State.srams (State.writeSaiCtl s c v) = State.srams s := by
  unfold State.writeSaiCtl
  try dsimp only
  repeat' first
    | with_reducible rfl
    | (with_reducible refine (State.modSai_srams _ _ _).trans ?_)
    | (with_reducible refine (State.sliceWrite_srams _ _ _ _).trans ?_)
    | (with_reducible refine (State.sliceWrite_srams _ _ _ _ (fun _ => ?_)).trans ?_)

end Sys2Proof.Machine
end

