-- ==== Sys2Proof/Laws/Frames/SramsSched.lean ====
section
/-! SUPPORT. What the definitions of this file leave unchanged of the slice SRAMs, one lemma each. -/

set_option Elab.async false

namespace Sys2Proof.Machine

open Sys2Proof

theorem State.setPin_srams (s : State) (pin : Fin 8) (level : Bool) : State.srams (State.setPin s pin level) = State.srams s := by
  unfold State.setPin
  try dsimp only
  repeat' first
    | with_reducible rfl
    | (with_reducible refine (emit_srams _ _).trans ?_)
    | (with_reducible refine srams_ite ?_ ?_)
    | simp only [srams_mk, sramsOf_slices]
    | split

theorem State.captureDr_srams (s : State) : State.srams (State.captureDr s) = State.srams s := by
  unfold State.captureDr
  try dsimp only
  repeat' first
    | with_reducible rfl
    | simp only [srams_mk, sramsOf_slices]

theorem State.tapInstr_srams (s : State) (ir : Byte) : State.srams (State.tapInstr s ir) = State.srams s := by
  unfold State.tapInstr
  try dsimp only
  repeat' first
    | with_reducible rfl
    | (with_reducible refine (State.captureDr_srams _).trans ?_)
    | (with_reducible refine (State.setPin_srams _ _ _).trans ?_)
    | (with_reducible refine srams_ite ?_ ?_)
    | (with_reducible refine (srams_foldl _ (fun _ _ => ?_) _ _).trans ?_)
    | (with_reducible refine (sram_foldl _ (fun _ _ => ?_) _ _).trans ?_)
    | simp only [srams_mk, sramsOf_slices]
    | split

theorem State.setPulse_srams (s : State) (pin : Fin 8) (p : Option (Nat × Fin 4 × Fin 64)) : State.srams (State.setPulse s pin p) = State.srams s := by
  unfold State.setPulse
  try dsimp only
  repeat' first
    | with_reducible rfl
    | simp only [srams_mk, sramsOf_slices]

theorem State.schedRecord_srams (s : State) (c : Fin 4) (f : Option Forme) (e : SchedEntry) (outcome code ts : Nat) : State.srams (State.schedRecord s c f e outcome code ts) = State.srams s := by
  unfold State.schedRecord
  try dsimp only
  repeat' first
    | with_reducible rfl
    | (with_reducible refine (State.stage_srams _ _ _).trans ?_)
    | (with_reducible refine srams_ite ?_ ?_)
    | simp only [srams_mk, sramsOf_slices]
    | split

theorem State.rejectEntry_srams (s : State) (c : Fin 4) (f : Option Forme) (e : SchedEntry) (code : Nat) : State.srams (State.rejectEntry s c f e code) = State.srams s := by
  unfold State.rejectEntry
  try dsimp only
  repeat' first
    | with_reducible rfl
    | (with_reducible refine (State.schedRecord_srams _ _ _ _ _ _ _).trans ?_)
    | (with_reducible refine (modSch_srams _ _ _).trans ?_)
    | (with_reducible refine srams_ite ?_ ?_)
    | simp only [srams_mk, sramsOf_slices]
    | split

theorem State.addEntry_srams (s : State) (c : Fin 4) (f : Option Forme) (e : SchedEntry) : State.srams (State.addEntry s c f e) = State.srams s := by
  unfold State.addEntry
  try dsimp only
  repeat' first
    | with_reducible rfl
    | (with_reducible refine (State.rejectEntry_srams _ _ _ _ _).trans ?_)
    | (with_reducible refine (State.schedRecord_srams _ _ _ _ _ _ _).trans ?_)
    | (with_reducible refine (modSch_srams _ _ _).trans ?_)
    | (with_reducible refine srams_ite ?_ ?_)
    | simp only [srams_mk, sramsOf_slices]
    | split

theorem State.applyRules_srams (s : State) (c : Fin 4) (k : Fin 256) (auth : Bool) (cls code group at_ : Nat) (msgId : Word) (msgTs : Nat) : State.srams (State.applyRules s c k auth cls code group at_ msgId msgTs) = State.srams s := by
  unfold State.applyRules
  try dsimp only
  repeat' first
    | with_reducible rfl
    | (with_reducible refine (State.addEntry_srams _ _ _ _).trans ?_)
    | (with_reducible refine srams_ite ?_ ?_)
    | (with_reducible refine (srams_foldl _ (fun _ _ => ?_) _ _).trans ?_)
    | (with_reducible refine (sram_foldl _ (fun _ _ => ?_) _ _).trans ?_)
    | simp only [srams_mk, sramsOf_slices]
    | split

theorem State.resolveEntries_srams (s : State) : State.srams (State.resolveEntries s) = State.srams s := by
  unfold State.resolveEntries
  try dsimp only
  repeat' first
    | with_reducible rfl
    | (with_reducible refine (State.rejectEntry_srams _ _ _ _ _).trans ?_)
    | (with_reducible refine (modSch_srams _ _ _).trans ?_)
    | (with_reducible refine srams_ite ?_ ?_)
    | (with_reducible refine (srams_foldl _ (fun _ _ => ?_) _ _).trans ?_)
    | (with_reducible refine (sram_foldl _ (fun _ _ => ?_) _ _).trans ?_)
    | simp only [srams_mk, sramsOf_slices]
    | split

theorem State.pinAction_srams (s : State) (c : Fin 4) (e : SchedEntry) (due : Nat) : State.srams (State.pinAction s c e due) = State.srams s := by
  unfold State.pinAction
  try dsimp only
  repeat' first
    | with_reducible rfl
    | (with_reducible refine (State.setPin_srams _ _ _).trans ?_)
    | (with_reducible refine (State.setPulse_srams _ _ _).trans ?_)
    | (with_reducible refine srams_ite ?_ ?_)
    | split

theorem State.endPulse_srams (s : State) (pin : Fin 8) (t : Nat) : State.srams (State.endPulse s pin t) = State.srams s := by
  unfold State.endPulse
  try dsimp only
  repeat' first
    | with_reducible rfl
    | (with_reducible refine (State.setPin_srams _ _ _).trans ?_)
    | (with_reducible refine (State.setPulse_srams _ _ _).trans ?_)
    | (with_reducible refine srams_ite ?_ ?_)
    | simp only [srams_mk, sramsOf_slices]
    | split

theorem State.executeEntry_srams (s : State) (c : Fin 4) (e : SchedEntry) (due doneTb : Nat) (skipped : Bool) : State.srams (State.executeEntry s c e due doneTb skipped) = State.srams s := by
  unfold State.executeEntry
  try dsimp only
  repeat' first
    | with_reducible rfl
    | (with_reducible refine (State.endPulse_srams _ _ _).trans ?_)
    | (with_reducible refine (State.pinAction_srams _ _ _ _).trans ?_)
    | (with_reducible refine (State.schedRecord_srams _ _ _ _ _ _ _).trans ?_)
    | (with_reducible refine (modSch_srams _ _ _).trans ?_)
    | (with_reducible refine srams_ite ?_ ?_)
    | simp only [srams_mk, sramsOf_slices]
    | split

theorem State.runEntries_srams (s : State) (c : Fin 4) (t : Nat) : State.srams (State.runEntries s c t) = State.srams s := by
  unfold State.runEntries
  try dsimp only
  repeat' first
    | with_reducible rfl
    | (with_reducible refine (State.executeEntry_srams _ _ _ _ _ _).trans ?_)
    | (with_reducible refine (srams_foldl _ (fun _ _ => ?_) _ _).trans ?_)
    | (with_reducible refine (sram_foldl _ (fun _ _ => ?_) _ _).trans ?_)

theorem State.cancelEntries_srams (s : State) (c : Fin 4) (f keeps : Option Forme) (now : Nat) (p : Nat → Bool) : State.srams (State.cancelEntries s c f keeps now p) = State.srams s := by
  unfold State.cancelEntries
  try dsimp only
  repeat' first
    | with_reducible rfl
    | (with_reducible refine (State.schedRecord_srams _ _ _ _ _ _ _).trans ?_)
    | (with_reducible refine (State.setPin_srams _ _ _).trans ?_)
    | (with_reducible refine (State.setPulse_srams _ _ _).trans ?_)
    | (with_reducible refine (modSch_srams _ _ _).trans ?_)
    | (with_reducible refine srams_ite ?_ ?_)
    | (with_reducible refine (srams_foldl _ (fun _ _ => ?_) _ _).trans ?_)
    | (with_reducible refine (sram_foldl _ (fun _ _ => ?_) _ _).trans ?_)
    | simp only [srams_mk, sramsOf_slices]
    | split

theorem State.setClaim_srams (s : State) (c : Fin 4) (claim : Nat) : State.srams (State.setClaim s c claim) = State.srams s := by
  unfold State.setClaim
  try dsimp only
  repeat' first
    | with_reducible rfl
    | (with_reducible refine (State.setPin_srams _ _ _).trans ?_)
    | (with_reducible refine (State.setPulse_srams _ _ _).trans ?_)
    | (with_reducible refine (modSch_srams _ _ _).trans ?_)
    | (with_reducible refine srams_ite ?_ ?_)
    | (with_reducible refine (srams_foldl _ (fun _ _ => ?_) _ _).trans ?_)
    | (with_reducible refine (sram_foldl _ (fun _ _ => ?_) _ _).trans ?_)
    | simp only [srams_mk, sramsOf_slices]
    | split

theorem State.dropRules_srams (s : State) (c : Fin 4) : State.srams (State.dropRules s c) = State.srams s := by
  unfold State.dropRules
  try dsimp only
  repeat' first
    | with_reducible rfl
    | (with_reducible refine (State.cancelEntries_srams _ _ _ _ _ _).trans ?_)
    | (with_reducible refine (State.setClaim_srams _ _ _).trans ?_)

end Sys2Proof.Machine
end

