-- ==== Sys2Proof/Laws/Frames/SramsTimebase.lean ====
section
/-! SUPPORT. What the definitions of this file leave unchanged of the slice SRAMs, one lemma each. -/

set_option Elab.async false

namespace Sys2Proof.Machine

open Sys2Proof

theorem State.armTbm_srams (s : State) (p : Nat) : State.srams (State.armTbm s p) = State.srams s := by
  unfold State.armTbm
  try dsimp only
  repeat' first
    | with_reducible rfl
    | simp only [srams_mk, sramsOf_slices]

theorem State.unarmTbm_srams (s : State) (p : Nat) : State.srams (State.unarmTbm s p) = State.srams s := by
  unfold State.unarmTbm
  try dsimp only
  repeat' first
    | with_reducible rfl
    | (with_reducible refine srams_ite ?_ ?_)
    | simp only [srams_mk, sramsOf_slices]
    | split

theorem State.dropStep_srams (s : State) : State.srams (State.dropStep s) = State.srams s := by
  unfold State.dropStep
  try dsimp only
  repeat' first
    | with_reducible rfl
    | (with_reducible refine (State.unarmTbm_srams _ _).trans ?_)
    | simp only [srams_mk, sramsOf_slices]
    | split

theorem State.decideStep_srams (s : State) (amount kind source : Nat) (todSet : Bool) : State.srams (State.decideStep s amount kind source todSet) = State.srams s := by
  unfold State.decideStep
  try dsimp only
  repeat' first
    | with_reducible rfl
    | (with_reducible refine (State.armTbm_srams _ _).trans ?_)
    | (with_reducible refine (State.dropStep_srams _).trans ?_)
    | simp only [srams_mk, sramsOf_slices]

theorem State.planOffset_srams (s : State) (off : Int) (source : Nat) : State.srams (State.planOffset s off source) = State.srams s := by
  unfold State.planOffset
  try dsimp only
  repeat' first
    | with_reducible rfl
    | (with_reducible refine (State.armTbm_srams _ _).trans ?_)
    | (with_reducible refine (State.decideStep_srams _ _ _ _ _).trans ?_)
    | (with_reducible refine (State.dropStep_srams _).trans ?_)
    | (with_reducible refine srams_ite ?_ ?_)
    | simp only [srams_mk, sramsOf_slices]
    | split

theorem State.correct_srams (s : State) (off : Int) (source : Nat) : State.srams (State.correct s off source) = State.srams s := by
  unfold State.correct
  try dsimp only
  repeat' first
    | with_reducible rfl
    | (with_reducible refine (State.decideStep_srams _ _ _ _ _).trans ?_)
    | (with_reducible refine (State.planOffset_srams _ _ _).trans ?_)
    | (with_reducible refine srams_ite ?_ ?_)
    | split

theorem State.selectSource_srams (s : State) (r : Nat) : State.srams (State.selectSource s r) = State.srams s := by
  unfold State.selectSource
  try dsimp only
  repeat' first
    | with_reducible rfl
    | (with_reducible refine (State.correct_srams _ _ _).trans ?_)
    | (with_reducible refine (modSlices_srams _ _ (fun _ _ => ?_)).trans ?_)
    | (with_reducible refine srams_ite ?_ ?_)
    | (with_reducible refine sram_ite ?_ ?_)
    | simp only [srams_mk, sramsOf_slices]
    | split

theorem State.reconsider_srams (s : State) : State.srams (State.reconsider s) = State.srams s := by
  unfold State.reconsider
  try dsimp only
  repeat' first
    | with_reducible rfl
    | (with_reducible refine (State.selectSource_srams _ _).trans ?_)
    | (with_reducible refine srams_ite ?_ ?_)
    | simp only [srams_mk, sramsOf_slices]
    | split

theorem State.measureSource_srams (s : State) (r : Nat) (off : Int) : State.srams (State.measureSource s r off) = State.srams s := by
  unfold State.measureSource
  try dsimp only
  repeat' first
    | with_reducible rfl
    | (with_reducible refine (State.correct_srams _ _ _).trans ?_)
    | (with_reducible refine srams_ite ?_ ?_)
    | simp only [srams_mk, sramsOf_slices]
    | split

theorem State.qualify_srams (s : State) (r : Nat) (off : Int) : State.srams (State.qualify s r off) = State.srams s := by
  unfold State.qualify
  try dsimp only
  repeat' first
    | with_reducible rfl
    | (with_reducible refine (State.measureSource_srams _ _ _).trans ?_)
    | (with_reducible refine (State.reconsider_srams _).trans ?_)
    | (with_reducible refine srams_ite ?_ ?_)
    | simp only [srams_mk, sramsOf_slices]
    | split

theorem State.enterHoldover_srams (s : State) : State.srams (State.enterHoldover s) = State.srams s := by
  unfold State.enterHoldover
  try dsimp only
  repeat' first
    | with_reducible rfl
    | (with_reducible refine (State.dropStep_srams _).trans ?_)
    | (with_reducible refine (srams_modSl _ _ _ (fun _ => ?_)).trans ?_)
    | (with_reducible refine srams_ite ?_ ?_)
    | (with_reducible refine sram_ite ?_ ?_)
    | simp only [srams_mk, sramsOf_slices]
    | split

theorem State.loseSource_srams (s : State) (r : Nat) : State.srams (State.loseSource s r) = State.srams s := by
  unfold State.loseSource
  try dsimp only
  repeat' first
    | with_reducible rfl
    | (with_reducible refine (State.enterHoldover_srams _).trans ?_)
    | (with_reducible refine (State.reconsider_srams _).trans ?_)
    | (with_reducible refine srams_ite ?_ ?_)
    | simp only [srams_mk, sramsOf_slices]
    | split

theorem State.writeTbmCfg_srams (s : State) (v : Word) : State.srams (State.writeTbmCfg s v) = State.srams s := by
  unfold State.writeTbmCfg
  try dsimp only
  repeat' first
    | with_reducible rfl
    | (with_reducible refine (State.enterHoldover_srams _).trans ?_)
    | (with_reducible refine (State.reconsider_srams _).trans ?_)
    | (with_reducible refine srams_ite ?_ ?_)
    | simp only [srams_mk, sramsOf_slices]
    | split

theorem State.bindTod_srams (s : State) (value : Nat) (e : Int) (source : Nat) : State.srams (State.bindTod s value e source) = State.srams s := by
  unfold State.bindTod
  try dsimp only
  repeat' first
    | with_reducible rfl
    | (with_reducible refine (State.decideStep_srams _ _ _ _ _).trans ?_)
    | (with_reducible refine srams_ite ?_ ?_)
    | simp only [srams_mk, sramsOf_slices]
    | split

theorem State.writeTod_srams (s : State) (hi : Word) : State.srams (State.writeTod s hi) = State.srams s := by
  unfold State.writeTod
  try dsimp only
  repeat' first
    | with_reducible rfl
    | (with_reducible refine (State.bindTod_srams _ _ _ _).trans ?_)
    | (with_reducible refine srams_ite ?_ ?_)
    | simp only [srams_mk, sramsOf_slices]
    | split

theorem State.labelPps_srams (s : State) : State.srams (State.labelPps s) = State.srams s := by
  unfold State.labelPps
  try dsimp only
  repeat' first
    | with_reducible rfl
    | (with_reducible refine (State.bindTod_srams _ _ _ _).trans ?_)
    | (with_reducible refine (State.measureSource_srams _ _ _).trans ?_)
    | (with_reducible refine srams_ite ?_ ?_)
    | simp only [srams_mk, sramsOf_slices]
    | split

theorem State.stepRecord_srams (s : State) (kind source left p amount : Nat) : State.srams (State.stepRecord s kind source left p amount) = State.srams s := by
  unfold State.stepRecord
  try dsimp only
  repeat' first
    | with_reducible rfl
    | (with_reducible refine (State.stage_srams _ _ _).trans ?_)

theorem State.dropTiming_srams (s : State) : State.srams (State.dropTiming s) = State.srams s := by
  unfold State.dropTiming
  try dsimp only
  repeat' first
    | with_reducible rfl
    | (with_reducible refine srams_ite ?_ ?_)
    | simp only [srams_mk, sramsOf_slices]
    | split

theorem State.chooseTiming_srams (s : State) : State.srams (State.chooseTiming s) = State.srams s := by
  unfold State.chooseTiming
  try dsimp only
  repeat' first
    | with_reducible rfl
    | simp only [srams_mk, sramsOf_slices]

theorem State.sliceEpoch_srams (s : State) (c : Fin 4) (e : Int) : State.srams (State.sliceEpoch s c e) = State.srams s := by
  unfold State.sliceEpoch
  try dsimp only
  repeat' first
    | with_reducible rfl
    | (with_reducible refine (State.freeWord_srams _).trans ?_)
    | (with_reducible refine (srams_modSl _ _ _ (fun _ => ?_)).trans ?_)
    | (with_reducible refine srams_ite ?_ ?_)
    | (with_reducible refine sram_ite ?_ ?_)
    | simp only [srams_mk, sramsOf_slices]
    | split

theorem State.replanNow_srams (s : State) : State.srams (State.replanNow s) = State.srams s := by
  unfold State.replanNow
  try dsimp only
  repeat' first
    | with_reducible rfl
    | (with_reducible refine (State.planOffset_srams _ _ _).trans ?_)
    | (with_reducible refine srams_ite ?_ ?_)
    | simp only [srams_mk, sramsOf_slices]
    | split

theorem State.clockEpoch_srams (s : State) (e0 e1 e2 e3 : Int) : State.srams (State.clockEpoch s e0 e1 e2 e3) = State.srams s := by
  unfold State.clockEpoch
  try dsimp only
  repeat' first
    | with_reducible rfl
    | (with_reducible refine (State.chooseTiming_srams _).trans ?_)
    | (with_reducible refine (State.replanNow_srams _).trans ?_)
    | (with_reducible refine (State.sliceEpoch_srams _ _ _).trans ?_)

end Sys2Proof.Machine
end

