-- ==== Sys2Proof/Laws/Frames/SramsService.lean ====
section
/-! SUPPORT. What the definitions of this file leave unchanged of the slice SRAMs, one lemma each. -/

set_option Elab.async false

namespace Sys2Proof.Machine

open Sys2Proof

theorem State.stageSeq_srams (s : State) (q : Fin 256) (r : Record) : State.srams (State.stageSeq s q r).1 = State.srams s := by
  unfold State.stageSeq
  try dsimp only
  repeat' first
    | with_reducible rfl
    | (with_reducible refine (State.stage_srams _ _ _).trans ?_)
    | (with_reducible refine srams_ite ?_ ?_)
    | split

theorem State.stageSpec_srams (s : State) (c : Fin 4) (n : Nat) (q : Fin 256) (r : Record) : State.srams (State.stageSpec s c n q r).1 = State.srams s := by
  unfold State.stageSpec
  try dsimp only
  repeat' first
    | with_reducible rfl
    | (with_reducible refine (Slice.modAf_srams _ _ _).trans ?_)
    | (with_reducible refine (State.stageSeq_srams _ _ _).trans ?_)
    | (with_reducible refine (srams_modSl _ _ _ (fun _ => ?_)).trans ?_)
    | (with_reducible refine srams_ite ?_ ?_)
    | (with_reducible refine sram_ite ?_ ?_)
    | simp only [srams_mk, sramsOf_slices]
    | split

theorem State.ctxStage_srams (s : State) (c : Fin 4) (k : Fin 256) (r : Record) : State.srams (State.ctxStage s c k r).1 = State.srams s := by
  unfold State.ctxStage
  try dsimp only
  repeat' first
    | with_reducible rfl
    | (with_reducible refine (State.stageSeq_srams _ _ _).trans ?_)
    | (with_reducible refine (State.stageSpec_srams _ _ _ _ _).trans ?_)
    | (with_reducible refine srams_ite ?_ ?_)
    | split

theorem State.takeMsgId_srams (s : State) (c : Fin 4) (k : Fin 256) : State.srams (State.takeMsgId s c k).2 = State.srams s := by
  unfold State.takeMsgId
  try dsimp only
  repeat' first
    | with_reducible rfl
    | (with_reducible refine (Slice.modCtx_srams _ _ _).trans ?_)
    | (with_reducible refine (srams_modSl _ _ _ (fun _ => ?_)).trans ?_)
    | simp only [srams_mk, sramsOf_slices]

theorem State.msgFail_srams (s : State) (c : Fin 4) (k : Fin 256) : State.srams (State.msgFail s c k) = State.srams s := by
  unfold State.msgFail
  try dsimp only
  repeat' first
    | with_reducible rfl
    | (with_reducible refine (Slice.modCtx_srams _ _ _).trans ?_)
    | (with_reducible refine (srams_modSl _ _ _ (fun _ => ?_)).trans ?_)
    | simp only [srams_mk, sramsOf_slices]

theorem State.msgOk_srams (s : State) (c : Fin 4) (k : Fin 256) : State.srams (State.msgOk s c k) = State.srams s := by
  unfold State.msgOk
  try dsimp only
  repeat' first
    | with_reducible rfl
    | (with_reducible refine (Slice.modCtx_srams _ _ _).trans ?_)
    | (with_reducible refine (srams_modSl _ _ _ (fun _ => ?_)).trans ?_)
    | simp only [srams_mk, sramsOf_slices]

theorem State.serviceData_srams (s : State) (c : Fin 4) (k : Fin 256) (m : Message) (data : List Byte) : State.srams (State.serviceData s c k m data) = State.srams s := by
  unfold State.serviceData
  try dsimp only
  repeat' first
    | with_reducible rfl
    | (with_reducible refine (State.ctxStage_srams _ _ _ _).trans ?_)

theorem State.takeOffer_srams (s : State) (r : Nat) : State.srams (State.takeOffer s r) = State.srams s := by
  unfold State.takeOffer
  try dsimp only
  repeat' first
    | with_reducible rfl
    | (with_reducible refine (State.loseSource_srams _ _).trans ?_)
    | (with_reducible refine (State.qualify_srams _ _ _).trans ?_)
    | simp only [srams_mk, sramsOf_slices]
    | split

theorem State.timeValue_srams (s : State) (c : Fin 4) (k : Fin 256) (m : Message) (kind timeTb airTb resMs : Nat) : State.srams (State.timeValue s c k m kind timeTb airTb resMs) = State.srams s := by
  unfold State.timeValue
  try dsimp only
  repeat' first
    | with_reducible rfl
    | (with_reducible refine (Slice.modCtx_srams _ _ _).trans ?_)
    | (with_reducible refine (State.ctxStage_srams _ _ _ _).trans ?_)
    | (with_reducible refine (State.takeOffer_srams _ _).trans ?_)
    | (with_reducible refine (srams_modSl _ _ _ (fun _ => ?_)).trans ?_)
    | (with_reducible refine srams_ite ?_ ?_)
    | (with_reducible refine sram_ite ?_ ?_)
    | simp only [srams_mk, sramsOf_slices]
    | split

theorem State.badMinute_srams (s : State) (c : Fin 4) (k : Fin 256) : State.srams (State.badMinute s c k) = State.srams s := by
  unfold State.badMinute
  try dsimp only
  repeat' first
    | with_reducible rfl
    | (with_reducible refine (Slice.modCtx_srams _ _ _).trans ?_)
    | (with_reducible refine (State.takeOffer_srams _ _).trans ?_)
    | (with_reducible refine (srams_modSl _ _ _ (fun _ => ?_)).trans ?_)
    | (with_reducible refine srams_ite ?_ ?_)
    | (with_reducible refine sram_ite ?_ ?_)
    | simp only [srams_mk, sramsOf_slices]
    | split

theorem State.recheckOffers_srams (s : State) : State.srams (State.recheckOffers s) = State.srams s := by
  unfold State.recheckOffers
  try dsimp only
  repeat' first
    | with_reducible rfl
    | (with_reducible refine (State.takeOffer_srams _ _).trans ?_)
    | (with_reducible refine srams_ite ?_ ?_)
    | split

theorem State.reroute_srams (s : State) (c : Fin 4) : State.srams (State.reroute s c) = State.srams s := by
  unfold State.reroute
  try dsimp only
  repeat' first
    | with_reducible rfl
    | (with_reducible refine (State.modSai_srams _ _ _).trans ?_)
    | (with_reducible refine (modSch_srams _ _ _).trans ?_)
    | (with_reducible refine srams_ite ?_ ?_)
    | simp only [srams_mk, sramsOf_slices]
    | split

theorem State.alertRecord_srams (s : State) (c : Fin 4) (k : Fin 256) (m : Message) (kind state level route ident group : Nat) : State.srams (State.alertRecord s c k m kind state level route ident group) = State.srams s := by
  unfold State.alertRecord
  try dsimp only
  repeat' first
    | with_reducible rfl
    | (with_reducible refine (State.ctxStage_srams _ _ _ _).trans ?_)

theorem State.modAlert_srams (s : State) (c : Fin 4) (k : Fin 256) (f : AlertState → AlertState) : State.srams (State.modAlert s c k f) = State.srams s := by
  unfold State.modAlert
  try dsimp only
  repeat' first
    | with_reducible rfl
    | (with_reducible refine (Slice.modCtx_srams _ _ _).trans ?_)
    | (with_reducible refine (srams_modSl _ _ _ (fun _ => ?_)).trans ?_)
    | simp only [srams_mk, sramsOf_slices]

theorem State.alertStart_srams (s : State) (c : Fin 4) (k : Fin 256) (m : Message) (kind level ident group cluster : Nat) : State.srams (State.alertStart s c k m kind level ident group cluster) = State.srams s := by
  unfold State.alertStart
  try dsimp only
  repeat' first
    | with_reducible rfl
    | (with_reducible refine (Slice.modCtx_srams _ _ _).trans ?_)
    | (with_reducible refine (State.alertRecord_srams _ _ _ _ _ _ _ _ _ _).trans ?_)
    | (with_reducible refine (State.modAlert_srams _ _ _ _).trans ?_)
    | (with_reducible refine (State.reroute_srams _ _).trans ?_)
    | (with_reducible refine (srams_modSl _ _ _ (fun _ => ?_)).trans ?_)
    | (with_reducible refine srams_ite ?_ ?_)
    | (with_reducible refine sram_ite ?_ ?_)
    | simp only [srams_mk, sramsOf_slices]
    | split

theorem State.alertEnd_srams (s : State) (c : Fin 4) (k : Fin 256) (m : Message) (kind level ident group : Nat) : State.srams (State.alertEnd s c k m kind level ident group) = State.srams s := by
  unfold State.alertEnd
  try dsimp only
  repeat' first
    | with_reducible rfl
    | (with_reducible refine (Slice.modCtx_srams _ _ _).trans ?_)
    | (with_reducible refine (State.alertRecord_srams _ _ _ _ _ _ _ _ _ _).trans ?_)
    | (with_reducible refine (State.modAlert_srams _ _ _ _).trans ?_)
    | (with_reducible refine (State.reroute_srams _ _).trans ?_)
    | (with_reducible refine (srams_modSl _ _ _ (fun _ => ?_)).trans ?_)
    | (with_reducible refine srams_ite ?_ ?_)
    | (with_reducible refine sram_ite ?_ ?_)
    | simp only [srams_mk, sramsOf_slices]
    | split

theorem State.nativeRules_srams (s : State) (c : Fin 4) (k : Fin 256) (m : Message) (code : Nat) : State.srams (State.nativeRules s c k m code) = State.srams s := by
  unfold State.nativeRules
  try dsimp only
  repeat' first
    | with_reducible rfl
    | (with_reducible refine (State.applyRules_srams _ _ _ _ _ _ _ _ _ _).trans ?_)

theorem State.defer_srams (s : State) (c : Fin 4) (k : Fin 256) (d : Deferred) : State.srams (State.defer s c k d) = State.srams s := by
  unfold State.defer
  try dsimp only
  repeat' first
    | with_reducible rfl
    | (with_reducible refine (Slice.modAf_srams _ _ _).trans ?_)
    | (with_reducible refine (srams_modSl _ _ _ (fun _ => ?_)).trans ?_)
    | simp only [srams_mk, sramsOf_slices]

theorem State.nativeAlert_srams (s : State) (c : Fin 4) (k : Fin 256) (m : Message) (kind code ident cluster : Nat) : State.srams (State.nativeAlert s c k m kind code ident cluster) = State.srams s := by
  unfold State.nativeAlert
  try dsimp only
  repeat' first
    | with_reducible rfl
    | (with_reducible refine (State.alertEnd_srams _ _ _ _ _ _ _ _).trans ?_)
    | (with_reducible refine (State.alertStart_srams _ _ _ _ _ _ _ _ _).trans ?_)
    | (with_reducible refine (State.defer_srams _ _ _ _).trans ?_)
    | (with_reducible refine (State.nativeRules_srams _ _ _ _ _).trans ?_)
    | (with_reducible refine srams_ite ?_ ?_)
    | split

theorem State.controlAlert_srams (s : State) (c : Fin 4) (k : Fin 256) (m : Message) (code group ident : Nat) : State.srams (State.controlAlert s c k m code group ident) = State.srams s := by
  unfold State.controlAlert
  try dsimp only
  repeat' first
    | with_reducible rfl
    | (with_reducible refine (State.alertEnd_srams _ _ _ _ _ _ _ _).trans ?_)
    | (with_reducible refine (State.alertStart_srams _ _ _ _ _ _ _ _ _).trans ?_)
    | (with_reducible refine srams_ite ?_ ?_)
    | split

theorem State.finalMessage_srams (s : State) (c : Fin 4) (k : Fin 256) (m : Message) : State.srams (State.finalMessage s c k m) = State.srams s := by
  unfold State.finalMessage
  try dsimp only
  repeat' first
    | with_reducible rfl
    | (with_reducible refine (State.applyRules_srams _ _ _ _ _ _ _ _ _ _).trans ?_)
    | (with_reducible refine (State.controlAlert_srams _ _ _ _ _ _ _).trans ?_)
    | (with_reducible refine (State.timeValue_srams _ _ _ _ _ _ _ _).trans ?_)
    | (with_reducible refine srams_ite ?_ ?_)
    | split

theorem State.messageFinal_srams (s : State) (c : Fin 4) (k : Fin 256) (m : Message) : State.srams (State.messageFinal s c k m) = State.srams s := by
  unfold State.messageFinal
  try dsimp only
  repeat' first
    | with_reducible rfl
    | (with_reducible refine (State.defer_srams _ _ _ _).trans ?_)
    | (with_reducible refine (State.finalMessage_srams _ _ _ _).trans ?_)
    | (with_reducible refine srams_ite ?_ ?_)
    | split

theorem State.timeFinal_srams (s : State) (c : Fin 4) (k : Fin 256) (m : Message) (kind : Byte) (v : TimeValue) (airTb resMs : Nat) : State.srams (State.timeFinal s c k m kind v airTb resMs) = State.srams s := by
  unfold State.timeFinal
  try dsimp only
  repeat' first
    | with_reducible rfl
    | (with_reducible refine (State.defer_srams _ _ _ _).trans ?_)
    | (with_reducible refine (State.timeValue_srams _ _ _ _ _ _ _ _).trans ?_)
    | (with_reducible refine srams_ite ?_ ?_)
    | split

theorem State.writeSvcCfg_srams (s : State) (c : Fin 4) (v : Word) : State.srams (State.writeSvcCfg s c v) = State.srams s := by
  unfold State.writeSvcCfg
  try dsimp only
  repeat' first
    | with_reducible rfl
    | (with_reducible refine (State.reroute_srams _ _).trans ?_)
    | (with_reducible refine (modSch_srams _ _ _).trans ?_)
    | (with_reducible refine (srams_modSl _ _ _ (fun _ => ?_)).trans ?_)
    | (with_reducible refine srams_ite ?_ ?_)
    | (with_reducible refine sram_ite ?_ ?_)
    | simp only [srams_mk, sramsOf_slices]
    | split

end Sys2Proof.Machine
end

