-- ==== Sys2Proof/Laws/Frames/SramsEnvelope.lean ====
section
/-! SUPPORT. What the definitions of this file leave unchanged of the slice SRAMs, one lemma each. -/

set_option Elab.async false

namespace Sys2Proof.Machine

open Sys2Proof

theorem Slice.syncMirror_srams (x : Slice) : Slice.sram (Slice.syncMirror x) = Slice.sram x := by
  unfold Slice.syncMirror
  try dsimp only
  repeat' first
    | with_reducible rfl

theorem Slice.acceptReplay_srams (x : Slice) (k : Fin 256) (e : Envelope) (slot : Fin 64) : Slice.sram (Slice.acceptReplay x k e slot) = Slice.sram x := by
  unfold Slice.acceptReplay
  try dsimp only
  repeat' first
    | with_reducible rfl
    | (with_reducible refine (Slice.modAf_srams _ _ _).trans ?_)
    | (with_reducible refine (Slice.syncMirror_srams _).trans ?_)
    | (with_reducible refine sram_ite ?_ ?_)
    | split

theorem State.setEnv_srams (s : State) (c : Fin 4) (k : Fin 256) (e : Envelope) : State.srams (State.setEnv s c k e) = State.srams s := by
  unfold State.setEnv
  try dsimp only
  repeat' first
    | with_reducible rfl
    | (with_reducible refine (Slice.modCtx_srams _ _ _).trans ?_)
    | (with_reducible refine (srams_modSl _ _ _ (fun _ => ?_)).trans ?_)

theorem State.countVerdict_srams (s : State) (c : Fin 4) (k : Fin 256) (code : Nat) : State.srams (State.countVerdict s c k code) = State.srams s := by
  unfold State.countVerdict
  try dsimp only
  repeat' first
    | with_reducible rfl
    | (with_reducible refine (State.defer_srams _ _ _ _).trans ?_)
    | (with_reducible refine (srams_modSl _ _ _ (fun _ => ?_)).trans ?_)
    | (with_reducible refine srams_ite ?_ ?_)
    | (with_reducible refine sram_ite ?_ ?_)
    | simp only [srams_mk, sramsOf_slices]
    | split

theorem State.verdictRecord_srams (s : State) (c : Fin 4) (k : Fin 256) (e : Envelope) (code : Nat) : State.srams (State.verdictRecord s c k e code) = State.srams s := by
  unfold State.verdictRecord
  try dsimp only
  repeat' first
    | with_reducible rfl
    | (with_reducible refine (State.ctxStage_srams _ _ _ _).trans ?_)
    | (with_reducible refine srams_ite ?_ ?_)
    | simp only [srams_mk, sramsOf_slices]
    | split

theorem State.fixVerdict_srams (s : State) (c : Fin 4) (k : Fin 256) (e : Envelope) (code : Nat) : State.srams (State.fixVerdict s c k e code) = State.srams s := by
  unfold State.fixVerdict
  try dsimp only
  repeat' first
    | with_reducible rfl
    | (with_reducible refine (State.countVerdict_srams _ _ _ _).trans ?_)
    | (with_reducible refine (State.setEnv_srams _ _ _ _).trans ?_)
    | simp only [srams_mk, sramsOf_slices]

theorem State.endVerdict_srams (s : State) (c : Fin 4) (k : Fin 256) (e : Envelope) (code : Nat) : State.srams (State.endVerdict s c k e code) = State.srams s := by
  unfold State.endVerdict
  try dsimp only
  repeat' first
    | with_reducible rfl
    | (with_reducible refine (State.fixVerdict_srams _ _ _ _ _).trans ?_)
    | (with_reducible refine (State.verdictRecord_srams _ _ _ _ _).trans ?_)
    | simp only [srams_mk, sramsOf_slices]

theorem State.closeEnvelope_srams (s : State) (c : Fin 4) (k : Fin 256) (e : Envelope) (code : Nat) : State.srams (State.closeEnvelope s c k e code) = State.srams s := by
  unfold State.closeEnvelope
  try dsimp only
  repeat' first
    | with_reducible rfl
    | (with_reducible refine (State.messageFinal_srams _ _ _ _).trans ?_)
    | (with_reducible refine (State.serviceData_srams _ _ _ _ _).trans ?_)
    | (with_reducible refine (State.verdictRecord_srams _ _ _ _ _).trans ?_)
    | (with_reducible refine srams_ite ?_ ?_)
    | simp only [srams_mk, sramsOf_slices]
    | split

theorem State.checkHeader_srams (s : State) (c : Fin 4) (k : Fin 256) (e : Envelope) : State.srams (State.checkHeader s c k e) = State.srams s := by
  unfold State.checkHeader
  try dsimp only
  repeat' first
    | with_reducible rfl
    | (with_reducible refine (State.fixVerdict_srams _ _ _ _ _).trans ?_)
    | (with_reducible refine (State.setEnv_srams _ _ _ _).trans ?_)
    | (with_reducible refine srams_ite ?_ ?_)
    | simp only [srams_mk, sramsOf_slices]
    | split

theorem State.proofData_srams (s : State) (c : Fin 4) (k : Fin 256) (e : Envelope) : State.srams (State.proofData s c k e) = State.srams s := by
  unfold State.proofData
  try dsimp only
  repeat' first
    | with_reducible rfl
    | (with_reducible refine (State.ctxStage_srams _ _ _ _).trans ?_)
    | (with_reducible refine (State.setEnv_srams _ _ _ _).trans ?_)
    | (with_reducible refine srams_ite ?_ ?_)
    | simp only [srams_mk, sramsOf_slices]
    | split

theorem State.checkLength_srams (s : State) (c : Fin 4) (k : Fin 256) (e : Envelope) : State.srams (State.checkLength s c k e) = State.srams s := by
  unfold State.checkLength
  try dsimp only
  repeat' first
    | with_reducible rfl
    | (with_reducible refine (State.fixVerdict_srams _ _ _ _ _).trans ?_)
    | (with_reducible refine srams_ite ?_ ?_)
    | split

theorem State.onFront_srams (s : State) (c : Fin 4) (k : Fin 256) (f : State → Envelope → State)
    (h : ∀ t e, (f t e).srams = t.srams) : (s.onFront c k f).srams = s.srams := by
  unfold State.onFront
  split
  · exact h _ _
  · rfl

theorem State.advance_srams (c : Fin 4) (k : Fin 256) : ∀ (n : Nat) (s : State), (State.advance c k n s).srams = s.srams := by
  intro n
  induction n with
  | zero => intro s; rfl
  | succ n ih =>
    intro s
    unfold State.advance
    dsimp only
    have h3 : (((s.onFront c k (fun s e => s.checkHeader c k e)).onFront c k (fun s e => s.proofData c k e)).onFront c k
        (fun s e => s.checkLength c k e)).srams = s.srams :=
      ((State.onFront_srams _ _ _ _ (fun _ _ => State.checkLength_srams _ _ _ _)).trans
        (State.onFront_srams _ _ _ _ (fun _ _ => State.proofData_srams _ _ _ _))).trans
        (State.onFront_srams _ _ _ _ (fun _ _ => State.checkHeader_srams _ _ _ _))
    split
    · exact h3
    · split
      · refine srams_ite ?_ h3
        refine (ih _).trans ?_
        refine (srams_modSl _ _ _ (fun x => ?_)).trans ?_
        · rfl
        exact (State.closeEnvelope_srams _ _ _ _ _).trans h3
      · exact h3

theorem State.settle_srams (s : State) (c : Fin 4) (k : Fin 256) : State.srams (State.settle s c k) = State.srams s := by
  unfold State.settle
  try dsimp only
  repeat' first
    | with_reducible rfl
    | (with_reducible refine (State.advance_srams _ _ _ _).trans ?_)

theorem State.envOpen_srams (s : State) (c : Fin 4) (k : Fin 256) (ts sub : Nat) (tuning : Fin 32) (freq ident : Nat) : State.srams (State.envOpen s c k ts sub tuning freq ident) = State.srams s := by
  unfold State.envOpen
  try dsimp only
  repeat' first
    | with_reducible rfl
    | (with_reducible refine (Slice.modCtx_srams _ _ _).trans ?_)
    | (with_reducible refine (State.takeMsgId_srams _ _ _).trans ?_)
    | (with_reducible refine (srams_modSl _ _ _ (fun _ => ?_)).trans ?_)
    | (with_reducible refine srams_ite ?_ ?_)
    | (with_reducible refine sram_ite ?_ ?_)
    | simp only [srams_mk, sramsOf_slices]
    | split

theorem State.envAdd_srams (s : State) (c : Fin 4) (k : Fin 256) (bs : List Byte) (unitTs : Nat) (tuning : Fin 32) (freq ident : Nat) (corrected : Bool) : State.srams (State.envAdd s c k bs unitTs tuning freq ident corrected) = State.srams s := by
  unfold State.envAdd
  try dsimp only
  repeat' first
    | with_reducible rfl
    | (with_reducible refine (Slice.modCtx_srams _ _ _).trans ?_)
    | (with_reducible refine (State.settle_srams _ _ _).trans ?_)
    | (with_reducible refine (srams_modSl _ _ _ (fun _ => ?_)).trans ?_)
    | (with_reducible refine srams_ite ?_ ?_)
    | (with_reducible refine sram_ite ?_ ?_)
    | simp only [srams_mk, sramsOf_slices]
    | split

theorem State.envEnd_srams (s : State) (c : Fin 4) (k : Fin 256) (failed : Bool) : State.srams (State.envEnd s c k failed) = State.srams s := by
  unfold State.envEnd
  try dsimp only
  repeat' first
    | with_reducible rfl
    | (with_reducible refine (Slice.modCtx_srams _ _ _).trans ?_)
    | (with_reducible refine (State.settle_srams _ _ _).trans ?_)
    | (with_reducible refine (srams_modSl _ _ _ (fun _ => ?_)).trans ?_)
    | simp only [srams_mk, sramsOf_slices]
    | split

theorem State.envCut_srams (s : State) (c : Fin 4) (k : Fin 256) (code : Nat) : State.srams (State.envCut s c k code) = State.srams s := by
  unfold State.envCut
  try dsimp only
  repeat' first
    | with_reducible rfl
    | (with_reducible refine (Slice.modCtx_srams _ _ _).trans ?_)
    | (with_reducible refine (State.countVerdict_srams _ _ _ _).trans ?_)
    | (with_reducible refine (State.verdictRecord_srams _ _ _ _ _).trans ?_)
    | (with_reducible refine (srams_modSl _ _ _ (fun _ => ?_)).trans ?_)
    | (with_reducible refine srams_ite ?_ ?_)
    | (with_reducible refine (srams_foldl _ (fun _ _ => ?_) _ _).trans ?_)
    | (with_reducible refine (sram_foldl _ (fun _ _ => ?_) _ _).trans ?_)
    | (with_reducible refine sram_ite ?_ ?_)
    | simp only [srams_mk, sramsOf_slices]
    | split

theorem State.envPass_srams (s : State) (c : Fin 4) (k : Fin 256) (e : Envelope) (slot : Fin 64) : State.srams (State.envPass s c k e slot) = State.srams s := by
  unfold State.envPass
  try dsimp only
  repeat' first
    | with_reducible rfl
    | (with_reducible refine (Slice.acceptReplay_srams _ _ _ _).trans ?_)
    | (with_reducible refine (State.fixVerdict_srams _ _ _ _ _).trans ?_)
    | (with_reducible refine (State.setEnv_srams _ _ _ _).trans ?_)
    | (with_reducible refine (State.settle_srams _ _ _).trans ?_)
    | (with_reducible refine (srams_modSl _ _ _ (fun _ => ?_)).trans ?_)
    | (with_reducible refine srams_ite ?_ ?_)
    | (with_reducible refine sram_ite ?_ ?_)
    | simp only [srams_mk, sramsOf_slices]
    | split

theorem State.macBlock_srams (s : State) (c : Fin 4) (k : Fin 256) (e : Envelope) (slot : Fin 64) (split : Bool) : State.srams (State.macBlock s c k e slot split) = State.srams s := by
  unfold State.macBlock
  try dsimp only
  repeat' first
    | with_reducible rfl
    | (with_reducible refine (State.envPass_srams _ _ _ _ _).trans ?_)
    | (with_reducible refine (State.fixVerdict_srams _ _ _ _ _).trans ?_)
    | (with_reducible refine (State.setEnv_srams _ _ _ _).trans ?_)
    | (with_reducible refine (State.settle_srams _ _ _).trans ?_)
    | (with_reducible refine srams_ite ?_ ?_)
    | simp only [srams_mk, sramsOf_slices]
    | split

end Sys2Proof.Machine
end

