-- ==== Sys2Proof/Laws/Frames/SramsTxHand.lean ====
section
/-! SUPPORT. What the definitions of this file leave unchanged of the slice SRAMs, one lemma each. -/

set_option Elab.async false

namespace Sys2Proof.Machine

open Sys2Proof

theorem State.modTx_srams (s : State) (c : Fin 4) (f : Tx → Tx) : State.srams (State.modTx s c f) = State.srams s := by
  unfold State.modTx
  try dsimp only
  repeat' first
    | with_reducible rfl
    | (with_reducible refine (srams_modSl _ _ _ (fun _ => ?_)).trans ?_)
    | simp only [srams_mk, sramsOf_slices]

theorem State.modCmd_srams (s : State) (c : Fin 4) (f : TxCmd → TxCmd) : State.srams (State.modCmd s c f) = State.srams s := by
  unfold State.modCmd
  try dsimp only
  repeat' first
    | with_reducible rfl
    | (with_reducible refine (State.modTx_srams _ _ _).trans ?_)
    | simp only [srams_mk, sramsOf_slices]

theorem State.rampOut_srams (s : State) (c : Fin 4) (at_ r : Nat) : State.srams (State.rampOut s c at_ r) = State.srams s := by
  unfold State.rampOut
  try dsimp only
  repeat' first
    | with_reducible rfl
    | (with_reducible refine (emit_srams _ _).trans ?_)
    | simp only [srams_mk, sramsOf_slices]
    | split

theorem State.txReport_srams (s : State) (c : Fin 4) (k : TxCmd) (status : Nat) : State.srams (State.txReport s c k status) = State.srams s := by
  unfold State.txReport
  try dsimp only
  repeat' first
    | with_reducible rfl
    | (with_reducible refine (State.complete_srams _ _ _ _).trans ?_)
    | (with_reducible refine (State.stage_srams _ _ _).trans ?_)
    | (with_reducible refine srams_ite ?_ ?_)
    | split

theorem State.openWindows_srams (s : State) (c : Fin 4) : State.srams (State.openWindows s c) = State.srams s := by
  unfold State.openWindows
  try dsimp only
  repeat' first
    | with_reducible rfl
    | (with_reducible refine (State.modTx_srams _ _ _).trans ?_)
    | (with_reducible refine srams_ite ?_ ?_)
    | simp only [srams_mk, sramsOf_slices]
    | split

theorem State.endTx_srams (s : State) (c : Fin 4) (status : Nat) : State.srams (State.endTx s c status) = State.srams s := by
  unfold State.endTx
  try dsimp only
  repeat' first
    | with_reducible rfl
    | (with_reducible refine (State.modTx_srams _ _ _).trans ?_)
    | (with_reducible refine (State.openWindows_srams _ _).trans ?_)
    | (with_reducible refine (State.txReport_srams _ _ _ _).trans ?_)
    | (with_reducible refine (releaseAll_srams _ _).trans ?_)
    | (with_reducible refine srams_ite ?_ ?_)
    | simp only [srams_mk, sramsOf_slices]
    | split

theorem State.txRelease_srams (s : State) (c : Fin 4) (status now : Nat) : State.srams (State.txRelease s c status now) = State.srams s := by
  unfold State.txRelease
  try dsimp only
  repeat' first
    | with_reducible rfl
    | (with_reducible refine (State.endTx_srams _ _ _).trans ?_)
    | (with_reducible refine (State.modCmd_srams _ _ _).trans ?_)
    | (with_reducible refine (State.modTx_srams _ _ _).trans ?_)
    | (with_reducible refine (release_srams _ _ _).trans ?_)
    | simp only [srams_mk, sramsOf_slices]
    | split

theorem State.abortAgain_srams (s : State) (c : Fin 4) (status : Nat) : State.srams (State.abortAgain s c status) = State.srams s := by
  unfold State.abortAgain
  try dsimp only
  repeat' first
    | with_reducible rfl
    | (with_reducible refine (State.modCmd_srams _ _ _).trans ?_)
    | (with_reducible refine srams_ite ?_ ?_)
    | simp only [srams_mk, sramsOf_slices]
    | split

theorem State.abbreviate_srams (s : State) (c : Fin 4) (status : Nat) : State.srams (State.abbreviate s c status) = State.srams s := by
  unfold State.abbreviate
  try dsimp only
  repeat' first
    | with_reducible rfl
    | (with_reducible refine (State.modCmd_srams _ _ _).trans ?_)
    | (with_reducible refine (State.modTx_srams _ _ _).trans ?_)
    | (with_reducible refine (State.rampOut_srams _ _ _ _).trans ?_)
    | simp only [srams_mk, sramsOf_slices]

theorem State.txAbort_srams (s : State) (c : Fin 4) (status : Nat) : State.srams (State.txAbort s c status) = State.srams s := by
  unfold State.txAbort
  try dsimp only
  repeat' first
    | with_reducible rfl
    | (with_reducible refine (State.abbreviate_srams _ _ _).trans ?_)
    | (with_reducible refine (State.abortAgain_srams _ _ _).trans ?_)
    | (with_reducible refine (State.modCmd_srams _ _ _).trans ?_)
    | (with_reducible refine (State.txRelease_srams _ _ _ _).trans ?_)
    | simp only [srams_mk, sramsOf_slices]
    | split

theorem State.beginKeyup_srams (s : State) (c : Fin 4) : State.srams (State.beginKeyup s c) = State.srams s := by
  unfold State.beginKeyup
  try dsimp only
  repeat' first
    | with_reducible rfl
    | (with_reducible refine (State.modCmd_srams _ _ _).trans ?_)
    | (with_reducible refine (State.modTx_srams _ _ _).trans ?_)
    | simp only [srams_mk, sramsOf_slices]

theorem State.txCheck_srams (s : State) (c : Fin 4) : State.srams (State.txCheck s c) = State.srams s := by
  unfold State.txCheck
  try dsimp only
  repeat' first
    | with_reducible rfl
    | (with_reducible refine (State.beginKeyup_srams _ _).trans ?_)
    | (with_reducible refine (State.modCmd_srams _ _ _).trans ?_)
    | (with_reducible refine (State.modTx_srams _ _ _).trans ?_)
    | (with_reducible refine srams_ite ?_ ?_)
    | (with_reducible refine (srams_foldl _ (fun _ _ => ?_) _ _).trans ?_)
    | (with_reducible refine (sram_foldl _ (fun _ _ => ?_) _ _).trans ?_)
    | simp only [srams_mk, sramsOf_slices]
    | split

end Sys2Proof.Machine
end

