-- ==== Sys2Proof/Laws/Frames/SramsKeys.lean ====
section
/-! SUPPORT. What the definitions of this file leave unchanged of the slice SRAMs, one lemma each. -/

set_option Elab.async false

namespace Sys2Proof.Machine

open Sys2Proof

theorem State.endOp_srams (s : State) (c : Fin 4) (o : MacOp) (code : Nat) : State.srams (State.endOp s c o code) = State.srams s := by
  unfold State.endOp
  try dsimp only
  repeat' first
    | with_reducible rfl
    | (with_reducible refine (State.complete_srams _ _ _ _).trans ?_)
    | (with_reducible refine (State.endTx_srams _ _ _).trans ?_)
    | (with_reducible refine (State.modCmd_srams _ _ _).trans ?_)
    | simp only [srams_mk, sramsOf_slices]
    | split

theorem State.endVerifying_srams (s : State) (c : Fin 4) (slot : Fin 64) (code : Nat) : State.srams (State.endVerifying s c slot code) = State.srams s := by
  unfold State.endVerifying
  try dsimp only
  repeat' first
    | with_reducible rfl
    | (with_reducible refine (State.endVerdict_srams _ _ _ _ _).trans ?_)
    | (with_reducible refine (State.fixVerdict_srams _ _ _ _ _).trans ?_)
    | (with_reducible refine (State.onFront_srams _ _ _ _).trans ?_)
    | (with_reducible refine (State.settle_srams _ _ _).trans ?_)
    | (with_reducible refine (State.onFront_srams _ _ _ _ (fun _ _ => ?_)).trans ?_)
    | (with_reducible refine srams_ite ?_ ?_)
    | (with_reducible refine (srams_foldl _ (fun _ _ => ?_) _ _).trans ?_)
    | (with_reducible refine (sram_foldl _ (fun _ _ => ?_) _ _).trans ?_)
    | simp only [srams_mk, sramsOf_slices]
    | split

theorem State.endBound_srams (s : State) (c : Fin 4) (slot : Fin 64) (code : Nat) : State.srams (State.endBound s c slot code) = State.srams s := by
  unfold State.endBound
  try dsimp only
  repeat' first
    | with_reducible rfl
    | (with_reducible refine (State.endOp_srams _ _ _ _).trans ?_)
    | (with_reducible refine (State.endVerifying_srams _ _ _ _).trans ?_)
    | (with_reducible refine (srams_modSl _ _ _ (fun _ => ?_)).trans ?_)
    | (with_reducible refine (srams_foldl _ (fun _ _ => ?_) _ _).trans ?_)
    | (with_reducible refine (sram_foldl _ (fun _ _ => ?_) _ _).trans ?_)
    | simp only [srams_mk, sramsOf_slices]

theorem State.writeSlot_srams (s : State) (c : Fin 4) (slot : Fin 64) (w : KeySlot) (code : Nat) (mirror : Bool) : State.srams (State.writeSlot s c slot w code mirror) = State.srams s := by
  unfold State.writeSlot
  try dsimp only
  repeat' first
    | with_reducible rfl
    | (with_reducible refine (Slice.syncMirror_srams _).trans ?_)
    | (with_reducible refine (State.endBound_srams _ _ _ _).trans ?_)
    | (with_reducible refine (srams_modSl _ _ _ (fun _ => ?_)).trans ?_)
    | (with_reducible refine srams_ite ?_ ?_)
    | (with_reducible refine sram_ite ?_ ?_)
    | simp only [srams_mk, sramsOf_slices]
    | split

theorem State.loadSlot_srams (s : State) (c : Fin 4) (slot : Fin 64) (key : List Byte) (aes256 : Bool) (usage : BitVec 3) (minTag : BitVec 2) : State.srams (State.loadSlot s c slot key aes256 usage minTag) = State.srams s := by
  unfold State.loadSlot
  try dsimp only
  repeat' first
    | with_reducible rfl
    | (with_reducible refine (State.writeSlot_srams _ _ _ _ _ _).trans ?_)
    | (with_reducible refine (srams_modSl _ _ _ (fun _ => ?_)).trans ?_)
    | simp only [srams_mk, sramsOf_slices]

theorem State.eraseSlot_srams (s : State) (c : Fin 4) (slot : Fin 64) (cause : BitVec 2) (mirror : Bool) : State.srams (State.eraseSlot s c slot cause mirror) = State.srams s := by
  unfold State.eraseSlot
  try dsimp only
  repeat' first
    | with_reducible rfl
    | (with_reducible refine (State.writeSlot_srams _ _ _ _ _ _).trans ?_)

theorem State.eraseMask_srams (s : State) (c : Fin 4) (mask : Nat) (cause : BitVec 2) (mirror : Bool) : State.srams (State.eraseMask s c mask cause mirror) = State.srams s := by
  unfold State.eraseMask
  try dsimp only
  repeat' first
    | with_reducible rfl
    | (with_reducible refine (State.eraseSlot_srams _ _ _ _ _).trans ?_)
    | (with_reducible refine srams_ite ?_ ?_)
    | (with_reducible refine (srams_foldl _ (fun _ _ => ?_) _ _).trans ?_)
    | (with_reducible refine (sram_foldl _ (fun _ _ => ?_) _ _).trans ?_)
    | split

theorem State.loadRefused_srams (s : State) (c : Fin 4) : State.srams (State.loadRefused s c) = State.srams s := by
  unfold State.loadRefused
  try dsimp only
  repeat' first
    | with_reducible rfl
    | (with_reducible refine (srams_modSl _ _ _ (fun _ => ?_)).trans ?_)
    | simp only [srams_mk, sramsOf_slices]

theorem State.bindOp_srams (s : State) (c : Fin 4) (slot : Fin 64) (blocks : Nat) (derive : Option Command) : State.srams (State.bindOp s c slot blocks derive) = State.srams s := by
  unfold State.bindOp
  try dsimp only
  repeat' first
    | with_reducible rfl
    | (with_reducible refine (srams_modSl _ _ _ (fun _ => ?_)).trans ?_)
    | simp only [srams_mk, sramsOf_slices]

theorem State.checkSlot_srams (s : State) (c : Fin 4) (k : Fin 64) : State.srams (State.checkSlot s c k) = State.srams s := by
  unfold State.checkSlot
  try dsimp only
  repeat' first
    | with_reducible rfl
    | (with_reducible refine (State.eraseSlot_srams _ _ _ _ _).trans ?_)
    | (with_reducible refine (State.fault_srams _ _).trans ?_)
    | (with_reducible refine (srams_modSl _ _ _ (fun _ => ?_)).trans ?_)
    | (with_reducible refine srams_ite ?_ ?_)
    | (with_reducible refine sram_ite ?_ ?_)
    | simp only [srams_mk, sramsOf_slices]
    | split

theorem State.keyDone_srams (s : State) (b : List Byte) (status : Nat) : State.srams (State.keyDone s b status) = State.srams s := by
  unfold State.keyDone
  try dsimp only
  repeat' first
    | with_reducible rfl
    | simp only [srams_mk, sramsOf_slices]

theorem State.keyload_srams (s : State) (packet : List Byte) : State.srams (State.keyload s packet) = State.srams s := by
  unfold State.keyload
  try dsimp only
  repeat' first
    | with_reducible rfl
    | (with_reducible refine (State.keyDone_srams _ _ _).trans ?_)
    | (with_reducible refine (State.loadRefused_srams _ _).trans ?_)
    | (with_reducible refine (State.loadSlot_srams _ _ _ _ _ _ _).trans ?_)
    | (with_reducible refine srams_ite ?_ ?_)
    | split

theorem State.keyBusFault_srams (s : State) (c : Fin 4) (slot : Fin 64) (ctx : Nat) : State.srams (State.keyBusFault s c slot ctx) = State.srams s := by
  unfold State.keyBusFault
  try dsimp only
  repeat' first
    | with_reducible rfl
    | (with_reducible refine (State.fault_srams _ _).trans ?_)

theorem State.keyDerive_srams (s : State) (c : Fin 4) (cmd : Command) (parity : Bool) : State.srams (State.keyDerive s c cmd parity) = State.srams s := by
  unfold State.keyDerive
  try dsimp only
  repeat' first
    | with_reducible rfl
    | (with_reducible refine (State.bindOp_srams _ _ _ _ _).trans ?_)
    | (with_reducible refine (State.checkSlot_srams _ _ _).trans ?_)
    | (with_reducible refine (State.finish_srams _ _ _ _).trans ?_)
    | (with_reducible refine (State.keep_srams _ _).trans ?_)
    | (with_reducible refine (State.keyBusFault_srams _ _ _ _).trans ?_)
    | (with_reducible refine (State.loadRefused_srams _ _).trans ?_)
    | (with_reducible refine srams_ite ?_ ?_)
    | split

theorem State.deriveDone_srams (s : State) (c : Fin 4) (parent : Fin 64) (cmd : Command) : State.srams (State.deriveDone s c parent cmd) = State.srams s := by
  unfold State.deriveDone
  try dsimp only
  repeat' first
    | with_reducible rfl
    | (with_reducible refine (State.complete_srams _ _ _ _).trans ?_)
    | (with_reducible refine (State.loadSlot_srams _ _ _ _ _ _ _).trans ?_)

theorem State.keyErase_srams (s : State) (c : Fin 4) (cmd : Command) : State.srams (State.keyErase s c cmd) = State.srams s := by
  unfold State.keyErase
  try dsimp only
  repeat' first
    | with_reducible rfl
    | (with_reducible refine (State.eraseMask_srams _ _ _ _ _).trans ?_)
    | (with_reducible refine (State.finish_srams _ _ _ _).trans ?_)
    | (with_reducible refine srams_ite ?_ ?_)
    | split

theorem State.tagRefused_srams (s : State) (c : Fin 4) : State.srams (State.tagRefused s c) = State.srams s := by
  unfold State.tagRefused
  try dsimp only
  repeat' first
    | with_reducible rfl
    | (with_reducible refine (srams_modSl _ _ _ (fun _ => ?_)).trans ?_)
    | simp only [srams_mk, sramsOf_slices]

theorem State.askTag_srams (s0 : State) (c : Fin 4) (slot label tagLen : Nat) (data : List Byte) : State.srams (State.askTag s0 c slot label tagLen data).1 = State.srams s0 := by
  unfold State.askTag
  try dsimp only
  repeat' first
    | with_reducible rfl
    | (with_reducible refine (Slice.modSlot_srams _ _ _).trans ?_)
    | (with_reducible refine (Slice.syncMirror_srams _).trans ?_)
    | (with_reducible refine (State.bindOp_srams _ _ _ _ _).trans ?_)
    | (with_reducible refine (State.checkSlot_srams _ _ _).trans ?_)
    | (with_reducible refine (State.tagRefused_srams _ _).trans ?_)
    | (with_reducible refine (srams_modSl _ _ _ (fun _ => ?_)).trans ?_)
    | (with_reducible refine srams_ite ?_ ?_)
    | (with_reducible refine sram_ite ?_ ?_)
    | simp only [srams_mk, sramsOf_slices]
    | split

theorem State.tagDone_srams (s : State) (c : Fin 4) (slot : Fin 64) : State.srams (State.tagDone s c slot) = State.srams s := by
  unfold State.tagDone
  try dsimp only
  repeat' first
    | with_reducible rfl
    | (with_reducible refine (State.modCmd_srams _ _ _).trans ?_)
    | (with_reducible refine (State.txCheck_srams _ _).trans ?_)
    | (with_reducible refine (srams_modSl _ _ _ (fun _ => ?_)).trans ?_)
    | simp only [srams_mk, sramsOf_slices]

theorem State.macTurn_srams (s : State) (c : Fin 4) (i : Nat) (slot : Fin 64) : State.srams (State.macTurn s c i slot) = State.srams s := by
  unfold State.macTurn
  try dsimp only
  repeat' first
    | with_reducible rfl
    | (with_reducible refine (srams_modSl _ _ _ (fun _ => ?_)).trans ?_)
    | simp only [srams_mk, sramsOf_slices]

theorem State.opBlock_srams (s : State) (c : Fin 4) (o : MacOp) (parity : Bool) : State.srams (State.opBlock s c o parity) = State.srams s := by
  unfold State.opBlock
  try dsimp only
  repeat' first
    | with_reducible rfl
    | (with_reducible refine (State.deriveDone_srams _ _ _ _).trans ?_)
    | (with_reducible refine (State.endOp_srams _ _ _ _).trans ?_)
    | (with_reducible refine (State.keyBusFault_srams _ _ _ _).trans ?_)
    | (with_reducible refine (State.macTurn_srams _ _ _ _).trans ?_)
    | (with_reducible refine (State.tagDone_srams _ _ _).trans ?_)
    | (with_reducible refine (srams_modSl _ _ _ (fun _ => ?_)).trans ?_)
    | (with_reducible refine srams_ite ?_ ?_)
    | (with_reducible refine sram_ite ?_ ?_)
    | simp only [srams_mk, sramsOf_slices]
    | split

theorem State.alarmErase_srams (s : State) (c : Fin 4) (a : AlarmSource) : State.srams (State.alarmErase s c a) = State.srams s := by
  unfold State.alarmErase
  try dsimp only
  repeat' first
    | with_reducible rfl
    | (with_reducible refine (State.eraseMask_srams _ _ _ _ _).trans ?_)
    | (with_reducible refine (srams_modSl _ _ _ (fun _ => ?_)).trans ?_)
    | (with_reducible refine srams_ite ?_ ?_)
    | (with_reducible refine sram_ite ?_ ?_)
    | simp only [srams_mk, sramsOf_slices]
    | split

theorem State.alarmAll_srams (s : State) (a : AlarmSource) : State.srams (State.alarmAll s a) = State.srams s := by
  unfold State.alarmAll
  try dsimp only
  repeat' first
    | with_reducible rfl
    | (with_reducible refine (State.alarmErase_srams _ _ _).trans ?_)
    | (with_reducible refine (srams_foldl _ (fun _ _ => ?_) _ _).trans ?_)
    | (with_reducible refine (sram_foldl _ (fun _ _ => ?_) _ _).trans ?_)

theorem Slice.loadKeys_srams (x : Slice) : Slice.sram (Slice.loadKeys x) = Slice.sram x := by
  unfold Slice.loadKeys
  try dsimp only
  repeat' first
    | with_reducible rfl
    | (with_reducible refine sram_ite ?_ ?_)
    | split

end Sys2Proof.Machine
end

