-- ==== Sys2Proof/Laws/Frames/SramsParsers.lean ====
section
/-! SUPPORT. What the definitions of this file leave unchanged of the slice SRAMs, one lemma each. -/

set_option Elab.async false

namespace Sys2Proof.Machine

open Sys2Proof

theorem State.plainMessage_srams (s : State) (c : Fin 4) (k : Fin 256) (src : UnitSrc) (ts sub : Nat) (corrected : Bool) (data content : List Byte) : State.srams (State.plainMessage s c k src ts sub corrected data content) = State.srams s := by
  unfold State.plainMessage
  try dsimp only
  repeat' first
    | with_reducible rfl
    | (with_reducible refine (State.messageFinal_srams _ _ _ _).trans ?_)
    | (with_reducible refine (State.msgOk_srams _ _ _).trans ?_)
    | (with_reducible refine (State.serviceData_srams _ _ _ _ _).trans ?_)
    | (with_reducible refine (State.takeMsgId_srams _ _ _).trans ?_)

theorem State.envBytes_srams (s : State) (c : Fin 4) (k : Fin 256) (src : UnitSrc) (start ts sub : Nat) (corrected : Bool) (bs : List Byte) : State.srams (State.envBytes s c k src start ts sub corrected bs) = State.srams s := by
  unfold State.envBytes
  try dsimp only
  repeat' first
    | with_reducible rfl
    | (with_reducible refine (State.envAdd_srams _ _ _ _ _ _ _ _ _).trans ?_)
    | (with_reducible refine (State.envOpen_srams _ _ _ _ _ _ _ _).trans ?_)

theorem State.wholeMessage_srams (s : State) (c : Fin 4) (k : Fin 256) (src : UnitSrc) (ts sub : Nat) (corrected : Bool) (data content : List Byte) : State.srams (State.wholeMessage s c k src ts sub corrected data content) = State.srams s := by
  unfold State.wholeMessage
  try dsimp only
  repeat' first
    | with_reducible rfl
    | (with_reducible refine (State.envBytes_srams _ _ _ _ _ _ _ _ _).trans ?_)
    | (with_reducible refine (State.envEnd_srams _ _ _ _).trans ?_)
    | (with_reducible refine (State.msgOk_srams _ _ _).trans ?_)
    | (with_reducible refine (State.plainMessage_srams _ _ _ _ _ _ _ _ _).trans ?_)
    | (with_reducible refine srams_ite ?_ ?_)
    | split

theorem State.brokenMessage_srams (s : State) (c : Fin 4) (k : Fin 256) : State.srams (State.brokenMessage s c k) = State.srams s := by
  unfold State.brokenMessage
  try dsimp only
  repeat' first
    | with_reducible rfl
    | (with_reducible refine (State.envEnd_srams _ _ _ _).trans ?_)
    | (with_reducible refine (State.msgFail_srams _ _ _).trans ?_)

theorem State.ptyStep_srams (s : State) (c : Fin 4) (k : Fin 256) (src : UnitSrc) (b : RdsBlock) : State.srams (State.ptyStep s c k src b) = State.srams s := by
  unfold State.ptyStep
  try dsimp only
  repeat' first
    | with_reducible rfl
    | (with_reducible refine (State.modAlert_srams _ _ _ _).trans ?_)
    | (with_reducible refine (State.nativeAlert_srams _ _ _ _ _ _ _ _).trans ?_)
    | (with_reducible refine srams_ite ?_ ?_)
    | simp only [srams_mk, sramsOf_slices]
    | split

theorem State.groupOne_srams (s : State) (c : Fin 4) (k : Fin 256) (src : UnitSrc) (g : RdsGroup) (time : Option TimeValue) : State.srams (State.groupOne s c k src g time) = State.srams s := by
  unfold State.groupOne
  try dsimp only
  repeat' first
    | with_reducible rfl
    | (with_reducible refine (State.modAlert_srams _ _ _ _).trans ?_)
    | (with_reducible refine (State.plainMessage_srams _ _ _ _ _ _ _ _ _).trans ?_)
    | (with_reducible refine (State.ptyStep_srams _ _ _ _ _).trans ?_)
    | (with_reducible refine (State.timeFinal_srams _ _ _ _ _ _ _ _).trans ?_)
    | (with_reducible refine srams_ite ?_ ?_)
    | simp only [srams_mk, sramsOf_slices]
    | split

theorem State.setOda_srams (s : State) (c : Fin 4) (k : Fin 256) (o : Option OdaOpen) : State.srams (State.setOda s c k o) = State.srams s := by
  unfold State.setOda
  try dsimp only
  repeat' first
    | with_reducible rfl
    | (with_reducible refine (Slice.modCtx_srams _ _ _).trans ?_)
    | (with_reducible refine (srams_modSl _ _ _ (fun _ => ?_)).trans ?_)
    | simp only [srams_mk, sramsOf_slices]

theorem State.dropOda_srams (s : State) (c : Fin 4) (k : Fin 256) : State.srams (State.dropOda s c k) = State.srams s := by
  unfold State.dropOda
  try dsimp only
  repeat' first
    | with_reducible rfl
    | (with_reducible refine (State.brokenMessage_srams _ _ _).trans ?_)
    | (with_reducible refine (State.setOda_srams _ _ _ _).trans ?_)
    | (with_reducible refine srams_ite ?_ ?_)
    | split

theorem State.odaBytes_srams (s : State) (c : Fin 4) (k : Fin 256) (src : UnitSrc) (o : OdaOpen) (bs : List Byte) (ts : Nat) (corrected : Bool) (ctr : Nat) : State.srams (State.odaBytes s c k src o bs ts corrected ctr) = State.srams s := by
  unfold State.odaBytes
  try dsimp only
  repeat' first
    | with_reducible rfl
    | (with_reducible refine (State.envBytes_srams _ _ _ _ _ _ _ _ _).trans ?_)
    | (with_reducible refine (State.envEnd_srams _ _ _ _).trans ?_)
    | (with_reducible refine (State.msgOk_srams _ _ _).trans ?_)
    | (with_reducible refine (State.plainMessage_srams _ _ _ _ _ _ _ _ _).trans ?_)
    | (with_reducible refine (State.setOda_srams _ _ _ _).trans ?_)
    | (with_reducible refine srams_ite ?_ ?_)
    | simp only [srams_mk, sramsOf_slices]
    | split

theorem State.odaSegment_srams (s : State) (c : Fin 4) (k : Fin 256) (src : UnitSrc) (sub : Nat) (g : RdsGroup) : State.srams (State.odaSegment s c k src sub g) = State.srams s := by
  unfold State.odaSegment
  try dsimp only
  repeat' first
    | with_reducible rfl
    | (with_reducible refine (State.dropOda_srams _ _ _).trans ?_)
    | (with_reducible refine (State.msgFail_srams _ _ _).trans ?_)
    | (with_reducible refine (State.odaBytes_srams _ _ _ _ _ _ _ _ _).trans ?_)
    | (with_reducible refine srams_ite ?_ ?_)
    | simp only [srams_mk, sramsOf_slices]
    | split

theorem State.groupOda_srams (s : State) (c : Fin 4) (k : Fin 256) (src : UnitSrc) (stream : Nat) (g : RdsGroup) (assign : Option (BitVec 16 × BitVec 5)) : State.srams (State.groupOda s c k src stream g assign) = State.srams s := by
  unfold State.groupOda
  try dsimp only
  repeat' first
    | with_reducible rfl
    | (with_reducible refine (Slice.modCtx_srams _ _ _).trans ?_)
    | (with_reducible refine (State.odaSegment_srams _ _ _ _ _ _).trans ?_)
    | (with_reducible refine (State.wholeMessage_srams _ _ _ _ _ _ _ _ _).trans ?_)
    | (with_reducible refine (srams_modSl _ _ _ (fun _ => ?_)).trans ?_)
    | (with_reducible refine srams_ite ?_ ?_)
    | (with_reducible refine sram_ite ?_ ?_)
    | simp only [srams_mk, sramsOf_slices]
    | split

theorem State.feedRds_srams (s : State) (c : Fin 4) (k : Fin 256) (src : UnitSrc) (stream pos : Nat) (b : RdsBlock) (r : Reads) : State.srams (State.feedRds s c k src stream pos b r) = State.srams s := by
  unfold State.feedRds
  try dsimp only
  repeat' first
    | with_reducible rfl
    | (with_reducible refine (Slice.modCtx_srams _ _ _).trans ?_)
    | (with_reducible refine (State.groupOda_srams _ _ _ _ _ _ _).trans ?_)
    | (with_reducible refine (State.groupOne_srams _ _ _ _ _ _).trans ?_)
    | (with_reducible refine (srams_modSl _ _ _ (fun _ => ?_)).trans ?_)
    | (with_reducible refine srams_ite ?_ ?_)
    | (with_reducible refine sram_ite ?_ ?_)
    | simp only [srams_mk, sramsOf_slices]
    | split

theorem State.setApd_srams (s : State) (c : Fin 4) (k : Fin 256) (a : ApdParse) : State.srams (State.setApd s c k a) = State.srams s := by
  unfold State.setApd
  try dsimp only
  repeat' first
    | with_reducible rfl
    | (with_reducible refine (Slice.modCtx_srams _ _ _).trans ?_)
    | (with_reducible refine (srams_modSl _ _ _ (fun _ => ?_)).trans ?_)
    | simp only [srams_mk, sramsOf_slices]

theorem State.apdEnd_srams (s : State) (c : Fin 4) (k : Fin 256) (src : UnitSrc) (bits : List Bool) (len start : Nat) : State.srams (State.apdEnd s c k src bits len start) = State.srams s := by
  unfold State.apdEnd
  try dsimp only
  repeat' first
    | with_reducible rfl
    | (with_reducible refine (State.brokenMessage_srams _ _ _).trans ?_)
    | (with_reducible refine (State.envEnd_srams _ _ _ _).trans ?_)
    | (with_reducible refine (State.msgOk_srams _ _ _).trans ?_)
    | (with_reducible refine (State.plainMessage_srams _ _ _ _ _ _ _ _ _).trans ?_)
    | (with_reducible refine (State.setApd_srams _ _ _ _).trans ?_)
    | (with_reducible refine srams_ite ?_ ?_)
    | split

theorem State.apdBit_srams (s : State) (c : Fin 4) (k : Fin 256) (src : UnitSrc) (bits : List Bool) (start ts : Nat) : State.srams (State.apdBit s c k src bits start ts) = State.srams s := by
  unfold State.apdBit
  try dsimp only
  repeat' first
    | with_reducible rfl
    | (with_reducible refine (State.apdEnd_srams _ _ _ _ _ _ _).trans ?_)
    | (with_reducible refine (State.brokenMessage_srams _ _ _).trans ?_)
    | (with_reducible refine (State.envBytes_srams _ _ _ _ _ _ _ _ _).trans ?_)
    | (with_reducible refine (State.setApd_srams _ _ _ _).trans ?_)
    | (with_reducible refine srams_ite ?_ ?_)
    | split

theorem State.feedApd_srams (s : State) (c : Fin 4) (k : Fin 256) (src : UnitSrc) (b erased : Bool) (ts : Nat) : State.srams (State.feedApd s c k src b erased ts) = State.srams s := by
  unfold State.feedApd
  try dsimp only
  repeat' first
    | with_reducible rfl
    | (with_reducible refine (State.apdBit_srams _ _ _ _ _ _ _).trans ?_)
    | (with_reducible refine (State.brokenMessage_srams _ _ _).trans ?_)
    | (with_reducible refine (State.setApd_srams _ _ _ _).trans ?_)
    | (with_reducible refine srams_ite ?_ ?_)
    | simp only [srams_mk, sramsOf_slices]
    | split

theorem State.ldbJoin_srams (s : State) (c : Fin 4) (k : Fin 256) (src : UnitSrc) (o : LdbOpen) (h : DWord) (payload : List Byte) (ts : Nat) : State.srams (State.ldbJoin s c k src o h payload ts) = State.srams s := by
  unfold State.ldbJoin
  try dsimp only
  repeat' first
    | with_reducible rfl
    | (with_reducible refine (Slice.modCtx_srams _ _ _).trans ?_)
    | (with_reducible refine (State.envBytes_srams _ _ _ _ _ _ _ _ _).trans ?_)
    | (with_reducible refine (State.envEnd_srams _ _ _ _).trans ?_)
    | (with_reducible refine (State.msgOk_srams _ _ _).trans ?_)
    | (with_reducible refine (State.plainMessage_srams _ _ _ _ _ _ _ _ _).trans ?_)
    | (with_reducible refine (srams_modSl _ _ _ (fun _ => ?_)).trans ?_)
    | (with_reducible refine srams_ite ?_ ?_)
    | (with_reducible refine sram_ite ?_ ?_)
    | simp only [srams_mk, sramsOf_slices]
    | split

theorem State.feedLdb_srams (s : State) (c : Fin 4) (k : Fin 256) (src : UnitSrc) (h : DWord) (payload : List Byte) (ts : Nat) : State.srams (State.feedLdb s c k src h payload ts) = State.srams s := by
  unfold State.feedLdb
  try dsimp only
  repeat' first
    | with_reducible rfl
    | (with_reducible refine (Slice.modCtx_srams _ _ _).trans ?_)
    | (with_reducible refine (State.brokenMessage_srams _ _ _).trans ?_)
    | (with_reducible refine (State.ldbJoin_srams _ _ _ _ _ _ _ _).trans ?_)
    | (with_reducible refine (srams_modSl _ _ _ (fun _ => ?_)).trans ?_)
    | (with_reducible refine srams_ite ?_ ?_)
    | (with_reducible refine sram_ite ?_ ?_)
    | simp only [srams_mk, sramsOf_slices]
    | split

theorem State.figAlarm_srams (s : State) (c : Fin 4) (k : Fin 256) (src : UnitSrc) (ts cluster : Nat) (flag : Bool) : State.srams (State.figAlarm s c k src ts cluster flag) = State.srams s := by
  unfold State.figAlarm
  try dsimp only
  repeat' first
    | with_reducible rfl
    | (with_reducible refine (State.modAlert_srams _ _ _ _).trans ?_)
    | (with_reducible refine (State.nativeAlert_srams _ _ _ _ _ _ _ _).trans ?_)
    | (with_reducible refine srams_ite ?_ ?_)
    | simp only [srams_mk, sramsOf_slices]
    | split

theorem State.feedFib_srams (s : State) (c : Fin 4) (k : Fin 256) (src : UnitSrc) (figs : List (List Byte)) (ts : Nat) (r : Reads) : State.srams (State.feedFib s c k src figs ts r) = State.srams s := by
  unfold State.feedFib
  try dsimp only
  repeat' first
    | with_reducible rfl
    | (with_reducible refine (State.figAlarm_srams _ _ _ _ _ _ _).trans ?_)
    | (with_reducible refine (State.plainMessage_srams _ _ _ _ _ _ _ _ _).trans ?_)
    | (with_reducible refine (State.timeFinal_srams _ _ _ _ _ _ _ _).trans ?_)
    | (with_reducible refine srams_ite ?_ ?_)
    | (with_reducible refine (srams_foldl _ (fun _ _ => ?_) _ _).trans ?_)
    | (with_reducible refine (sram_foldl _ (fun _ _ => ?_) _ _).trans ?_)
    | simp only [srams_mk, sramsOf_slices]
    | split

theorem State.feedDrmBlock_srams (s : State) (c : Fin 4) (k : Fin 256) (src : UnitSrc) (sdc : Bool) (block : List Byte) (ts : Nat) (r : Reads) : State.srams (State.feedDrmBlock s c k src sdc block ts r) = State.srams s := by
  unfold State.feedDrmBlock
  try dsimp only
  repeat' first
    | with_reducible rfl
    | (with_reducible refine (State.plainMessage_srams _ _ _ _ _ _ _ _ _).trans ?_)
    | (with_reducible refine (State.timeFinal_srams _ _ _ _ _ _ _ _).trans ?_)
    | (with_reducible refine srams_ite ?_ ?_)
    | simp only [srams_mk, sramsOf_slices]
    | split

theorem State.feedMinute_srams (s : State) (c : Fin 4) (k : Fin 256) (src : UnitSrc) (onTime ts : Nat) (ok : Bool) (r : Reads) : State.srams (State.feedMinute s c k src onTime ts ok r) = State.srams s := by
  unfold State.feedMinute
  try dsimp only
  repeat' first
    | with_reducible rfl
    | (with_reducible refine (State.badMinute_srams _ _ _).trans ?_)
    | (with_reducible refine (State.msgOk_srams _ _ _).trans ?_)
    | (with_reducible refine (State.takeMsgId_srams _ _ _).trans ?_)
    | (with_reducible refine (State.timeFinal_srams _ _ _ _ _ _ _ _).trans ?_)
    | (with_reducible refine srams_ite ?_ ?_)
    | simp only [srams_mk, sramsOf_slices]
    | split

theorem State.feedGroups_srams (s : State) (c : Fin 4) (k : Fin 256) (src : UnitSrc) (ts sub n : Nat) (groups : List (Nat × Bool × List Byte)) : State.srams (State.feedGroups s c k src ts sub n groups) = State.srams s := by
  unfold State.feedGroups
  try dsimp only
  repeat' first
    | with_reducible rfl
    | (with_reducible refine (State.msgFail_srams _ _ _).trans ?_)
    | (with_reducible refine (State.wholeMessage_srams _ _ _ _ _ _ _ _ _).trans ?_)
    | (with_reducible refine srams_ite ?_ ?_)
    | (with_reducible refine (srams_foldl _ (fun _ _ => ?_) _ _).trans ?_)
    | (with_reducible refine (sram_foldl _ (fun _ _ => ?_) _ _).trans ?_)
    | split

theorem State.feedContext_srams (s : State) (c : Fin 4) (k : Fin 256) (src : UnitSrc) (u : HeldUnit) : State.srams (State.feedContext s c k src u) = State.srams s := by
  unfold State.feedContext
  try dsimp only
  repeat' first
    | with_reducible rfl
    | (with_reducible refine (State.feedApd_srams _ _ _ _ _ _ _).trans ?_)
    | (with_reducible refine (State.feedDrmBlock_srams _ _ _ _ _ _ _ _).trans ?_)
    | (with_reducible refine (State.feedFib_srams _ _ _ _ _ _ _).trans ?_)
    | (with_reducible refine (State.feedGroups_srams _ _ _ _ _ _ _ _).trans ?_)
    | (with_reducible refine (State.feedLdb_srams _ _ _ _ _ _ _).trans ?_)
    | (with_reducible refine (State.feedMinute_srams _ _ _ _ _ _ _ _).trans ?_)
    | (with_reducible refine (State.feedRds_srams _ _ _ _ _ _ _ _).trans ?_)
    | (with_reducible refine (State.msgFail_srams _ _ _).trans ?_)
    | (with_reducible refine (State.wholeMessage_srams _ _ _ _ _ _ _ _ _).trans ?_)
    | (with_reducible refine srams_ite ?_ ?_)
    | simp only [srams_mk, sramsOf_slices]
    | split

theorem State.resetParser_srams (s : State) (c : Fin 4) (k : Fin 256) : State.srams (State.resetParser s c k) = State.srams s := by
  unfold State.resetParser
  try dsimp only
  repeat' first
    | with_reducible rfl
    | (with_reducible refine (Slice.modCtx_srams _ _ _).trans ?_)
    | (with_reducible refine (State.msgFail_srams _ _ _).trans ?_)
    | (with_reducible refine (srams_modSl _ _ _ (fun _ => ?_)).trans ?_)
    | (with_reducible refine srams_ite ?_ ?_)
    | (with_reducible refine sram_ite ?_ ?_)
    | simp only [srams_mk, sramsOf_slices]
    | split

end Sys2Proof.Machine
end

