-- ==== Sys2Proof/Laws/Frames/SramsAfFollow.lean ====
section
/-! SUPPORT. What the definitions of this file leave unchanged of the slice SRAMs, one lemma each. -/

set_option Elab.async false

namespace Sys2Proof.Machine

open Sys2Proof

theorem State.afEvent_srams (s : State) (c : Fin 4) (n : Fin 48) (kind method cand fromHz toHz qual : Nat) : State.srams (State.afEvent s c n kind method cand fromHz toHz qual) = State.srams s := by
  unfold State.afEvent
  try dsimp only
  repeat' first
    | with_reducible rfl
    | (with_reducible refine (Slice.modAf_srams _ _ _).trans ?_)
    | (with_reducible refine (State.stageSeq_srams _ _ _).trans ?_)
    | (with_reducible refine (State.stageSpec_srams _ _ _ _ _).trans ?_)
    | (with_reducible refine (srams_modSl _ _ _ (fun _ => ?_)).trans ?_)
    | (with_reducible refine srams_ite ?_ ?_)
    | (with_reducible refine sram_ite ?_ ?_)
    | split

theorem State.retune_srams (s : State) (c : Fin 4) (n : Fin 48) (hz : Nat) : State.srams (State.retune s c n hz) = State.srams s := by
  unfold State.retune
  try dsimp only
  repeat' first
    | with_reducible rfl
    | (with_reducible refine (Slice.modTun_srams _ _ _).trans ?_)
    | (with_reducible refine (srams_modSl _ _ _ (fun _ => ?_)).trans ?_)

theorem State.modAfOf_srams (s : State) (c : Fin 4) (n : Fin 48) (f : Af → Af) : State.srams (State.modAfOf s c n f) = State.srams s := by
  unfold State.modAfOf
  try dsimp only
  repeat' first
    | with_reducible rfl
    | (with_reducible refine (Slice.modAf_srams _ _ _).trans ?_)
    | (with_reducible refine (srams_modSl _ _ _ (fun _ => ?_)).trans ?_)

theorem Slice.startCand_srams (x : Slice) (f : Forme) (now tb : Nat) (n : Nat) (e : Nat × Nat) : Slice.sram (Slice.startCand x f now tb n e) = Slice.sram x := by
  unfold Slice.startCand
  try dsimp only
  repeat' first
    | with_reducible rfl
    | (with_reducible refine (Slice.modTun_srams _ _ _).trans ?_)
    | (with_reducible refine sram_ite ?_ ?_)
    | split

theorem Slice.fillInst_srams (x : Slice) (f : Forme) (now tb n : Nat) (l : List (Nat × Nat)) : Slice.sram (Slice.fillInst x f now tb n l) = Slice.sram x := by
  unfold Slice.fillInst
  try dsimp only
  repeat' first
    | with_reducible rfl
    | (with_reducible refine (Slice.startCand_srams _ _ _ _ _ _).trans ?_)
    | (with_reducible refine sram_ite ?_ ?_)
    | (with_reducible refine (sram_foldl _ (fun _ _ => ?_) _ _).trans ?_)
    | split

theorem Slice.fillAll_srams (x : Slice) (now tb : Nat) : Slice.sram (Slice.fillAll x now tb) = Slice.sram x := by
  unfold Slice.fillAll
  try dsimp only
  repeat' first
    | with_reducible rfl
    | (with_reducible refine (Slice.fillInst_srams _ _ _ _ _ _).trans ?_)
    | (with_reducible refine (sram_foldl _ (fun _ _ => ?_) _ _).trans ?_)
    | split

theorem Slice.stopCand_srams (x : Slice) (t : Nat) : Slice.sram (Slice.stopCand x t) = Slice.sram x := by
  unfold Slice.stopCand
  try dsimp only
  repeat' first
    | with_reducible rfl
    | (with_reducible refine (Slice.modTun_srams _ _ _).trans ?_)

theorem Slice.yieldCand_srams (x : Slice) (t now tb : Nat) : Slice.sram (Slice.yieldCand x t now tb) = Slice.sram x := by
  unfold Slice.yieldCand
  try dsimp only
  repeat' first
    | with_reducible rfl
    | (with_reducible refine (Slice.fillAll_srams _ _ _).trans ?_)
    | (with_reducible refine (Slice.fillInst_srams _ _ _ _ _ _).trans ?_)
    | (with_reducible refine (Slice.stopCand_srams _ _).trans ?_)
    | split

theorem Slice.stopCands_srams (x : Slice) (n : Nat) (keep : Nat → Nat → Bool) : Slice.sram (Slice.stopCands x n keep) = Slice.sram x := by
  unfold Slice.stopCands
  refine sram_foldl _ (fun y t => ?_) _ _
  try dsimp only
  split
  · split
    · rfl
    · rfl
  · rfl

theorem Slice.pruneCands_srams (x : Slice) (n : Nat) : Slice.sram (Slice.pruneCands x n) = Slice.sram x := by
  unfold Slice.pruneCands
  try dsimp only
  repeat' first
    | with_reducible rfl
    | (with_reducible refine (Slice.stopCands_srams _ _ _).trans ?_)

theorem State.feedInst_srams (s : State) (c : Fin 4) (n : Nat) (src : UnitSrc) (u : HeldUnit) : State.srams (State.feedInst s c n src u) = State.srams s := by
  unfold State.feedInst
  try dsimp only
  repeat' first
    | with_reducible rfl
    | (with_reducible refine (State.feedContext_srams _ _ _ _ _).trans ?_)
    | (with_reducible refine (srams_foldl _ (fun _ _ => ?_) _ _).trans ?_)
    | (with_reducible refine (sram_foldl _ (fun _ _ => ?_) _ _).trans ?_)

theorem State.holdUnit_srams (s : State) (c : Fin 4) (n : Fin 48) (u : HeldUnit) : State.srams (State.holdUnit s c n u) = State.srams s := by
  unfold State.holdUnit
  try dsimp only
  repeat' first
    | with_reducible rfl
    | (with_reducible refine (State.modAfOf_srams _ _ _ _).trans ?_)
    | simp only [srams_mk, sramsOf_slices]

theorem State.releaseHeld_srams (s : State) (c : Fin 4) (n : Fin 48) : State.srams (State.releaseHeld s c n) = State.srams s := by
  unfold State.releaseHeld
  try dsimp only
  repeat' first
    | with_reducible rfl
    | (with_reducible refine (State.feedInst_srams _ _ _ _ _).trans ?_)
    | (with_reducible refine (State.gap_srams _ _ _ _ _ _).trans ?_)
    | (with_reducible refine (State.modAfOf_srams _ _ _ _).trans ?_)
    | (with_reducible refine (srams_foldl _ (fun _ _ => ?_) _ _).trans ?_)
    | (with_reducible refine (sram_foldl _ (fun _ _ => ?_) _ _).trans ?_)

theorem State.tryEntry_srams (s : State) (c : Fin 4) (n : Fin 48) (e : Nat × Nat) : State.srams (State.tryEntry s c n e) = State.srams s := by
  unfold State.tryEntry
  try dsimp only
  repeat' first
    | with_reducible rfl
    | (with_reducible refine (State.modAfOf_srams _ _ _ _).trans ?_)
    | (with_reducible refine (State.retune_srams _ _ _ _).trans ?_)
    | simp only [srams_mk, sramsOf_slices]

theorem State.beginCheck_srams (s : State) (c : Fin 4) (n : Fin 48) (e : Nat × Nat) : State.srams (State.beginCheck s c n e) = State.srams s := by
  unfold State.beginCheck
  try dsimp only
  repeat' first
    | with_reducible rfl
    | (with_reducible refine (State.afEvent_srams _ _ _ _ _ _ _ _ _).trans ?_)
    | (with_reducible refine (State.tryEntry_srams _ _ _ _).trans ?_)

theorem State.goHome_srams (s : State) (c : Fin 4) (n : Fin 48) : State.srams (State.goHome s c n) = State.srams s := by
  unfold State.goHome
  try dsimp only
  repeat' first
    | with_reducible rfl
    | (with_reducible refine (State.afEvent_srams _ _ _ _ _ _ _ _ _).trans ?_)
    | (with_reducible refine (State.modAfOf_srams _ _ _ _).trans ?_)
    | (with_reducible refine (State.retune_srams _ _ _ _).trans ?_)
    | simp only [srams_mk, sramsOf_slices]

theorem State.failCheck_srams (s : State) (c : Fin 4) (n : Fin 48) (stop : Bool) : State.srams (State.failCheck s c n stop) = State.srams s := by
  unfold State.failCheck
  try dsimp only
  repeat' first
    | with_reducible rfl
    | (with_reducible refine (State.afEvent_srams _ _ _ _ _ _ _ _ _).trans ?_)
    | (with_reducible refine (State.goHome_srams _ _ _).trans ?_)
    | (with_reducible refine (State.modAfOf_srams _ _ _ _).trans ?_)
    | (with_reducible refine (State.tryEntry_srams _ _ _ _).trans ?_)
    | (with_reducible refine srams_ite ?_ ?_)
    | simp only [srams_mk, sramsOf_slices]
    | split

theorem State.passCheck_srams (s : State) (c : Fin 4) (n : Fin 48) : State.srams (State.passCheck s c n) = State.srams s := by
  unfold State.passCheck
  try dsimp only
  repeat' first
    | with_reducible rfl
    | (with_reducible refine (State.afEvent_srams _ _ _ _ _ _ _ _ _).trans ?_)
    | (with_reducible refine (State.modAfOf_srams _ _ _ _).trans ?_)
    | (with_reducible refine (State.releaseHeld_srams _ _ _).trans ?_)
    | simp only [srams_mk, sramsOf_slices]

theorem State.cutFeed_srams (s : State) (c : Fin 4) (n : Fin 48) : State.srams (State.cutFeed s c n) = State.srams s := by
  unfold State.cutFeed
  try dsimp only
  repeat' first
    | with_reducible rfl
    | (with_reducible refine (State.envCut_srams _ _ _ _).trans ?_)
    | (with_reducible refine (State.resetParser_srams _ _ _).trans ?_)
    | (with_reducible refine (srams_foldl _ (fun _ _ => ?_) _ _).trans ?_)
    | (with_reducible refine (sram_foldl _ (fun _ _ => ?_) _ _).trans ?_)

theorem State.setSpec_srams (s : State) (c : Fin 4) (n : Fin 48) (b : Bool) : State.srams (State.setSpec s c n b) = State.srams s := by
  unfold State.setSpec
  try dsimp only
  repeat' first
    | with_reducible rfl
    | (with_reducible refine (Slice.modCtx_srams _ _ _).trans ?_)
    | (with_reducible refine (srams_modSl _ _ _ (fun _ => ?_)).trans ?_)
    | (with_reducible refine (srams_foldl _ (fun _ _ => ?_) _ _).trans ?_)
    | (with_reducible refine (sram_foldl _ (fun _ _ => ?_) _ _).trans ?_)
    | simp only [srams_mk, sramsOf_slices]

theorem State.speculate_srams (s : State) (c : Fin 4) (n : Fin 48) (t : Fin 32) (i : CandInfo) : State.srams (State.speculate s c n t i) = State.srams s := by
  unfold State.speculate
  try dsimp only
  repeat' first
    | with_reducible rfl
    | (with_reducible refine (State.afEvent_srams _ _ _ _ _ _ _ _ _).trans ?_)
    | (with_reducible refine (State.cutFeed_srams _ _ _).trans ?_)
    | (with_reducible refine (State.modAfOf_srams _ _ _ _).trans ?_)
    | (with_reducible refine (State.setSpec_srams _ _ _ _).trans ?_)
    | simp only [srams_mk, sramsOf_slices]

theorem State.takeDeferred_srams (s : State) (c : Fin 4) (d : Deferred) : State.srams (State.takeDeferred s c d) = State.srams s := by
  unfold State.takeDeferred
  try dsimp only
  repeat' first
    | with_reducible rfl
    | (with_reducible refine (State.finalMessage_srams _ _ _ _).trans ?_)
    | (with_reducible refine (State.nativeRules_srams _ _ _ _ _).trans ?_)
    | (with_reducible refine (State.timeValue_srams _ _ _ _ _ _ _ _).trans ?_)
    | (with_reducible refine (srams_modSl _ _ _ (fun _ => ?_)).trans ?_)
    | simp only [srams_mk, sramsOf_slices]
    | split

theorem State.routeSpec_srams (s : State) (c : Fin 4) (n : Fin 48) : State.srams (State.routeSpec s c n) = State.srams s := by
  unfold State.routeSpec
  try dsimp only
  repeat' first
    | with_reducible rfl
    | (with_reducible refine (State.modAlert_srams _ _ _ _).trans ?_)
    | (with_reducible refine (State.reroute_srams _ _).trans ?_)
    | (with_reducible refine srams_ite ?_ ?_)
    | (with_reducible refine (srams_foldl _ (fun _ _ => ?_) _ _).trans ?_)
    | (with_reducible refine (sram_foldl _ (fun _ _ => ?_) _ _).trans ?_)
    | simp only [srams_mk, sramsOf_slices]
    | split

theorem State.confirmSpec_srams (s : State) (c : Fin 4) (n : Fin 48) (t : Fin 32) (i : CandInfo) : State.srams (State.confirmSpec s c n t i) = State.srams s := by
  unfold State.confirmSpec
  try dsimp only
  repeat' first
    | with_reducible rfl
    | (with_reducible refine (Slice.syncMirror_srams _).trans ?_)
    | (with_reducible refine (State.afEvent_srams _ _ _ _ _ _ _ _ _).trans ?_)
    | (with_reducible refine (State.modAfOf_srams _ _ _ _).trans ?_)
    | (with_reducible refine (State.retune_srams _ _ _ _).trans ?_)
    | (with_reducible refine (State.routeSpec_srams _ _ _).trans ?_)
    | (with_reducible refine (State.setSpec_srams _ _ _ _).trans ?_)
    | (with_reducible refine (State.takeDeferred_srams _ _ _).trans ?_)
    | (with_reducible refine (srams_modSl _ _ _ (fun _ => ?_)).trans ?_)
    | (with_reducible refine (srams_foldl _ (fun _ _ => ?_) _ _).trans ?_)
    | (with_reducible refine (sram_foldl _ (fun _ _ => ?_) _ _).trans ?_)
    | simp only [srams_mk, sramsOf_slices]

theorem State.undoRecord_srams (s : State) (c : Fin 4) (n : Fin 48) (reason ts : Nat) (t : Fin 32) (q : Fin 256) (range : Option (Word × Word)) : State.srams (State.undoRecord s c n reason ts t q range) = State.srams s := by
  unfold State.undoRecord
  try dsimp only
  repeat' first
    | with_reducible rfl
    | (with_reducible refine (State.stage_srams _ _ _).trans ?_)
    | simp only [srams_mk, sramsOf_slices]

theorem State.restoreAlerts_srams (s : State) (c : Fin 4) (l : List (Fin 256 × AlertState)) : State.srams (State.restoreAlerts s c l) = State.srams s := by
  unfold State.restoreAlerts
  try dsimp only
  repeat' first
    | with_reducible rfl
    | (with_reducible refine (State.modAlert_srams _ _ _ _).trans ?_)
    | (with_reducible refine (State.reroute_srams _ _).trans ?_)
    | (with_reducible refine (srams_foldl _ (fun _ _ => ?_) _ _).trans ?_)
    | (with_reducible refine (sram_foldl _ (fun _ _ => ?_) _ _).trans ?_)

theorem State.undoSpec_srams (s : State) (c : Fin 4) (n : Fin 48) (reason ts : Nat) : State.srams (State.undoSpec s c n reason ts) = State.srams s := by
  unfold State.undoSpec
  try dsimp only
  repeat' first
    | with_reducible rfl
    | (with_reducible refine (Slice.fillAll_srams _ _ _).trans ?_)
    | (with_reducible refine (Slice.stopCand_srams _ _).trans ?_)
    | (with_reducible refine (State.cutFeed_srams _ _ _).trans ?_)
    | (with_reducible refine (State.modAfOf_srams _ _ _ _).trans ?_)
    | (with_reducible refine (State.releaseHeld_srams _ _ _).trans ?_)
    | (with_reducible refine (State.restoreAlerts_srams _ _ _).trans ?_)
    | (with_reducible refine (State.setSpec_srams _ _ _ _).trans ?_)
    | (with_reducible refine (State.undoRecord_srams _ _ _ _ _ _ _ _).trans ?_)
    | (with_reducible refine (srams_modSl _ _ _ (fun _ => ?_)).trans ?_)
    | (with_reducible refine (srams_foldl _ (fun _ _ => ?_) _ _).trans ?_)
    | (with_reducible refine (sram_foldl _ (fun _ _ => ?_) _ _).trans ?_)
    | simp only [srams_mk, sramsOf_slices]
    | split

theorem State.learn_srams (s : State) (c : Fin 4) (n : Fin 48) (id : Nat) : State.srams (State.learn s c n id) = State.srams s := by
  unfold State.learn
  try dsimp only
  repeat' first
    | with_reducible rfl
    | (with_reducible refine (State.modAfOf_srams _ _ _ _).trans ?_)
    | (with_reducible refine srams_ite ?_ ?_)
    | simp only [srams_mk, sramsOf_slices]
    | split

theorem State.instIdent_srams (s : State) (c : Fin 4) (n : Fin 48) (id : Nat) : State.srams (State.instIdent s c n id) = State.srams s := by
  unfold State.instIdent
  try dsimp only
  repeat' first
    | with_reducible rfl
    | (with_reducible refine (State.failCheck_srams _ _ _ _).trans ?_)
    | (with_reducible refine (State.learn_srams _ _ _ _).trans ?_)
    | (with_reducible refine (State.modAfOf_srams _ _ _ _).trans ?_)
    | (with_reducible refine (State.passCheck_srams _ _ _).trans ?_)
    | (with_reducible refine srams_ite ?_ ?_)
    | simp only [srams_mk, sramsOf_slices]
    | split

theorem State.candIdent_srams (s : State) (c : Fin 4) (t : Fin 32) (i : CandInfo) (id ts : Nat) : State.srams (State.candIdent s c t i id ts) = State.srams s := by
  unfold State.candIdent
  try dsimp only
  repeat' first
    | with_reducible rfl
    | (with_reducible refine (Slice.stopCand_srams _ _).trans ?_)
    | (with_reducible refine (Slice.yieldCand_srams _ _ _ _).trans ?_)
    | (with_reducible refine (State.confirmSpec_srams _ _ _ _ _).trans ?_)
    | (with_reducible refine (State.modAfOf_srams _ _ _ _).trans ?_)
    | (with_reducible refine (State.undoSpec_srams _ _ _ _ _).trans ?_)
    | (with_reducible refine (srams_modSl _ _ _ (fun _ => ?_)).trans ?_)
    | (with_reducible refine srams_ite ?_ ?_)
    | (with_reducible refine sram_ite ?_ ?_)
    | simp only [srams_mk, sramsOf_slices]
    | split

theorem State.afListNew_srams (s : State) (c : Fin 4) (n : Fin 48) (method : Nat) (l : List Nat) : State.srams (State.afListNew s c n method l) = State.srams s := by
  unfold State.afListNew
  try dsimp only
  repeat' first
    | with_reducible rfl
    | (with_reducible refine (Slice.fillAll_srams _ _ _).trans ?_)
    | (with_reducible refine (Slice.pruneCands_srams _ _).trans ?_)
    | (with_reducible refine (State.afEvent_srams _ _ _ _ _ _ _ _ _).trans ?_)
    | (with_reducible refine (State.modAfOf_srams _ _ _ _).trans ?_)
    | (with_reducible refine (srams_modSl _ _ _ (fun _ => ?_)).trans ?_)
    | (with_reducible refine srams_ite ?_ ?_)
    | (with_reducible refine sram_ite ?_ ?_)
    | simp only [srams_mk, sramsOf_slices]
    | split

theorem State.afRead_srams (s : State) (c : Fin 4) (r : InstRef) (ident : Option Nat) (list : Option (List Nat)) (ts : Nat) : State.srams (State.afRead s c r ident list ts) = State.srams s := by
  unfold State.afRead
  try dsimp only
  repeat' first
    | with_reducible rfl
    | (with_reducible refine (State.afListNew_srams _ _ _ _ _).trans ?_)
    | (with_reducible refine (State.candIdent_srams _ _ _ _ _ _).trans ?_)
    | (with_reducible refine (State.instIdent_srams _ _ _ _).trans ?_)
    | simp only [srams_mk, sramsOf_slices]
    | split

theorem State.endHandover_srams (s : State) (c : Fin 4) (n : Fin 48) (t : Fin 32) : State.srams (State.endHandover s c n t) = State.srams s := by
  unfold State.endHandover
  try dsimp only
  repeat' first
    | with_reducible rfl
    | (with_reducible refine (Slice.yieldCand_srams _ _ _ _).trans ?_)
    | (with_reducible refine (State.modAfOf_srams _ _ _ _).trans ?_)
    | (with_reducible refine (srams_modSl _ _ _ (fun _ => ?_)).trans ?_)
    | simp only [srams_mk, sramsOf_slices]

theorem State.instUnit_srams (s : State) (c : Fin 4) (n : Fin 48) (u : HeldUnit) : State.srams (State.instUnit s c n u) = State.srams s := by
  unfold State.instUnit
  try dsimp only
  repeat' first
    | with_reducible rfl
    | (with_reducible refine (State.endHandover_srams _ _ _ _).trans ?_)
    | (with_reducible refine (State.feedInst_srams _ _ _ _ _).trans ?_)
    | (with_reducible refine (State.holdUnit_srams _ _ _ _).trans ?_)
    | (with_reducible refine srams_ite ?_ ?_)
    | simp only [srams_mk, sramsOf_slices]
    | split

theorem State.candUnit_srams (s : State) (c : Fin 4) (t : Fin 32) (u : HeldUnit) : State.srams (State.candUnit s c t u) = State.srams s := by
  unfold State.candUnit
  try dsimp only
  repeat' first
    | with_reducible rfl
    | (with_reducible refine (State.feedInst_srams _ _ _ _ _).trans ?_)
    | (with_reducible refine (srams_modSl _ _ _ (fun _ => ?_)).trans ?_)
    | (with_reducible refine srams_ite ?_ ?_)
    | (with_reducible refine sram_ite ?_ ?_)
    | simp only [srams_mk, sramsOf_slices]
    | split

theorem State.handUnit_srams (s : State) (c : Fin 4) (r : InstRef) (u : HeldUnit) : State.srams (State.handUnit s c r u) = State.srams s := by
  unfold State.handUnit
  try dsimp only
  repeat' first
    | with_reducible rfl
    | (with_reducible refine (Slice.modCand_srams _ _ _).trans ?_)
    | (with_reducible refine (Slice.modInst_srams _ _ _).trans ?_)
    | (with_reducible refine (State.afRead_srams _ _ _ _ _ _).trans ?_)
    | (with_reducible refine (State.candUnit_srams _ _ _ _).trans ?_)
    | (with_reducible refine (State.instUnit_srams _ _ _ _).trans ?_)
    | (with_reducible refine (srams_modSl _ _ _ (fun _ => ?_)).trans ?_)
    | (with_reducible refine srams_ite ?_ ?_)
    | (with_reducible refine sram_ite ?_ ?_)
    | simp only [srams_mk, sramsOf_slices]
    | split

theorem State.leftTrack_srams (s : State) (c : Fin 4) (r : InstRef) : State.srams (State.leftTrack s c r) = State.srams s := by
  unfold State.leftTrack
  try dsimp only
  repeat' first
    | with_reducible rfl
    | (with_reducible refine (State.modAfOf_srams _ _ _ _).trans ?_)
    | (with_reducible refine (State.nativeAlert_srams _ _ _ _ _ _ _ _).trans ?_)
    | (with_reducible refine (State.undoSpec_srams _ _ _ _ _).trans ?_)
    | (with_reducible refine srams_ite ?_ ?_)
    | (with_reducible refine (srams_foldl _ (fun _ _ => ?_) _ _).trans ?_)
    | (with_reducible refine (sram_foldl _ (fun _ _ => ?_) _ _).trans ?_)
    | simp only [srams_mk, sramsOf_slices]
    | split

end Sys2Proof.Machine
end

