-- ==== Sys2Proof/Laws/Frames/SramsDemod.lean ====
section
/-! SUPPORT. What the definitions of this file leave unchanged of the slice SRAMs, one lemma each. -/

set_option Elab.async false

namespace Sys2Proof.Machine

open Sys2Proof

theorem Slice.modDemod_srams (x : Slice) (r : InstRef) (f : Inst → Inst) : Slice.sram (Slice.modDemod x r f) = Slice.sram x := by
  unfold Slice.modDemod
  try dsimp only
  repeat' first
    | with_reducible rfl
    | (with_reducible refine (Slice.modCand_srams _ _ _).trans ?_)
    | (with_reducible refine (Slice.modInst_srams _ _ _).trans ?_)
    | split

theorem Slice.modAcqOf_srams (x : Slice) (r : InstRef) (f : Acq → Acq) : Slice.sram (Slice.modAcqOf x r f) = Slice.sram x := by
  unfold Slice.modAcqOf
  try dsimp only
  repeat' first
    | with_reducible rfl
    | (with_reducible refine (Slice.modAcq_srams _ _ _).trans ?_)
    | (with_reducible refine (Slice.modCandAcq_srams _ _ _).trans ?_)
    | split

theorem State.toSearch_srams (s : State) (c : Fin 4) (r : InstRef) : State.srams (State.toSearch s c r) = State.srams s := by
  unfold State.toSearch
  try dsimp only
  repeat' first
    | with_reducible rfl
    | (with_reducible refine (Slice.modDemod_srams _ _ _).trans ?_)
    | (with_reducible refine (State.leftTrack_srams _ _ _).trans ?_)
    | (with_reducible refine (srams_modSl _ _ _ (fun _ => ?_)).trans ?_)
    | (with_reducible refine srams_ite ?_ ?_)
    | (with_reducible refine sram_ite ?_ ?_)
    | split

theorem State.toTrack_srams (s : State) (c : Fin 4) (r : InstRef) : State.srams (State.toTrack s c r) = State.srams s := by
  unfold State.toTrack
  try dsimp only
  repeat' first
    | with_reducible rfl
    | (with_reducible refine (Slice.modDemod_srams _ _ _).trans ?_)
    | (with_reducible refine (State.modAfOf_srams _ _ _ _).trans ?_)
    | (with_reducible refine (srams_modSl _ _ _ (fun _ => ?_)).trans ?_)
    | simp only [srams_mk, sramsOf_slices]
    | split

theorem State.writeDemCtl_srams (s : State) (c : Fin 4) (n : Fin 48) (v : Word) : State.srams (State.writeDemCtl s c n v) = State.srams s := by
  unfold State.writeDemCtl
  try dsimp only
  repeat' first
    | with_reducible rfl
    | (with_reducible refine (Slice.modInst_srams _ _ _).trans ?_)
    | (with_reducible refine (State.toSearch_srams _ _ _).trans ?_)
    | (with_reducible refine (srams_modSl _ _ _ (fun _ => ?_)).trans ?_)
    | (with_reducible refine srams_ite ?_ ?_)
    | (with_reducible refine sram_ite ?_ ?_)
    | simp only [srams_mk, sramsOf_slices]
    | split

end Sys2Proof.Machine
end

