-- ==== Sys2Proof/Laws/Frames/SramsLdb.lean ====
section
/-! SUPPORT. What the definitions of this file leave unchanged of the slice SRAMs, one lemma each. -/

set_option Elab.async false

namespace Sys2Proof.Machine

open Sys2Proof

theorem State.modAcquirer_srams (s : State) (c : Fin 4) (r : InstRef) (f : Acq → Acq) : State.srams (State.modAcquirer s c r f) = State.srams s := by
  unfold State.modAcquirer
  try dsimp only
  repeat' first
    | with_reducible rfl
    | (with_reducible refine (Slice.modAcqOf_srams _ _ _).trans ?_)
    | (with_reducible refine (srams_modSl _ _ _ (fun _ => ?_)).trans ?_)

theorem State.burstRecord_srams (s : State) (c : Fin 4) (r : InstRef) (b : Burst) (outcome cause snr : Nat) (rise : Int) (done : Nat) : State.srams (State.burstRecord s c r b outcome cause snr rise done) = State.srams s := by
  unfold State.burstRecord
  try dsimp only
  repeat' first
    | with_reducible rfl
    | (with_reducible refine (State.stage_srams _ _ _).trans ?_)
    | (with_reducible refine srams_ite ?_ ?_)
    | split

theorem State.burstFail_srams (s : State) (c : Fin 4) (r : InstRef) : State.srams (State.burstFail s c r) = State.srams s := by
  unfold State.burstFail
  try dsimp only
  repeat' first
    | with_reducible rfl
    | (with_reducible refine (Slice.modDemod_srams _ _ _).trans ?_)
    | (with_reducible refine (srams_modSl _ _ _ (fun _ => ?_)).trans ?_)
    | simp only [srams_mk, sramsOf_slices]

theorem State.abortOne_srams (s : State) (c : Fin 4) (r : InstRef) (b : Burst) (cause : Nat) : State.srams (State.abortOne s c r b cause) = State.srams s := by
  unfold State.abortOne
  try dsimp only
  repeat' first
    | with_reducible rfl
    | (with_reducible refine (State.burstFail_srams _ _ _).trans ?_)
    | (with_reducible refine (State.burstRecord_srams _ _ _ _ _ _ _ _ _).trans ?_)
    | (with_reducible refine (State.modAcquirer_srams _ _ _ _).trans ?_)
    | (with_reducible refine srams_ite ?_ ?_)
    | simp only [srams_mk, sramsOf_slices]
    | split

theorem State.abortBurst_srams (s : State) (c : Fin 4) (r : InstRef) (cause : Nat) : State.srams (State.abortBurst s c r cause) = State.srams s := by
  unfold State.abortBurst
  try dsimp only
  repeat' first
    | with_reducible rfl
    | (with_reducible refine (State.abortOne_srams _ _ _ _ _).trans ?_)
    | (with_reducible refine (State.modAcquirer_srams _ _ _ _).trans ?_)
    | (with_reducible refine srams_ite ?_ ?_)
    | (with_reducible refine (srams_foldl _ (fun _ _ => ?_) _ _).trans ?_)
    | (with_reducible refine (sram_foldl _ (fun _ _ => ?_) _ _).trans ?_)
    | simp only [srams_mk, sramsOf_slices]
    | split

theorem State.loseBurst_srams (s : State) (c : Fin 4) (r : InstRef) (tb : Nat) : State.srams (State.loseBurst s c r tb) = State.srams s := by
  unfold State.loseBurst
  try dsimp only
  repeat' first
    | with_reducible rfl
    | (with_reducible refine (State.abortOne_srams _ _ _ _ _).trans ?_)
    | (with_reducible refine (State.modAcquirer_srams _ _ _ _).trans ?_)
    | (with_reducible refine srams_ite ?_ ?_)
    | (with_reducible refine (srams_foldl _ (fun _ _ => ?_) _ _).trans ?_)
    | (with_reducible refine (sram_foldl _ (fun _ _ => ?_) _ _).trans ?_)
    | simp only [srams_mk, sramsOf_slices]
    | split

theorem State.takeRun_srams (s : State) (c : Fin 4) (r : InstRef) (run : RssiRun) : State.srams (State.takeRun s c r run) = State.srams s := by
  unfold State.takeRun
  try dsimp only
  repeat' first
    | with_reducible rfl
    | (with_reducible refine (State.modAcquirer_srams _ _ _ _).trans ?_)
    | (with_reducible refine (State.modAfe_srams _ _ _).trans ?_)
    | (with_reducible refine srams_ite ?_ ?_)
    | (with_reducible refine (srams_foldl _ (fun _ _ => ?_) _ _).trans ?_)
    | (with_reducible refine (sram_foldl _ (fun _ _ => ?_) _ _).trans ?_)
    | simp only [srams_mk, sramsOf_slices]
    | split

theorem State.takeBurst_srams (s : State) (c : Fin 4) (r : InstRef) (w : SyncWord) (captured : Bool) : State.srams (State.takeBurst s c r w captured) = State.srams s := by
  unfold State.takeBurst
  try dsimp only
  repeat' first
    | with_reducible rfl
    | (with_reducible refine (State.modAcquirer_srams _ _ _ _).trans ?_)
    | simp only [srams_mk, sramsOf_slices]

theorem State.present_srams (s : State) (c : Fin 4) (q : SegReq) : State.srams (State.present s c q) = State.srams s := by
  unfold State.present
  try dsimp only
  repeat' first
    | with_reducible rfl
    | (with_reducible refine (State.modAcquirer_srams _ _ _ _).trans ?_)
    | (with_reducible refine (ask_srams _ _ _).trans ?_)
    | (with_reducible refine (srams_modSl _ _ _ (fun _ => ?_)).trans ?_)
    | (with_reducible refine srams_ite ?_ ?_)
    | (with_reducible refine sram_ite ?_ ?_)
    | simp only [srams_mk, sramsOf_slices]
    | split

theorem State.burstOk_srams (s : State) (c : Fin 4) (r : InstRef) (b : Burst) (payload : List Byte) (snr : Nat) (live : Bool) : State.srams (State.burstOk s c r b payload snr live) = State.srams s := by
  unfold State.burstOk
  try dsimp only
  repeat' first
    | with_reducible rfl
    | (with_reducible refine (Slice.modDemod_srams _ _ _).trans ?_)
    | (with_reducible refine (State.burstRecord_srams _ _ _ _ _ _ _ _ _).trans ?_)
    | (with_reducible refine (State.handUnit_srams _ _ _ _).trans ?_)
    | (with_reducible refine (srams_modSl _ _ _ (fun _ => ?_)).trans ?_)
    | (with_reducible refine srams_ite ?_ ?_)
    | (with_reducible refine sram_ite ?_ ?_)
    | simp only [srams_mk, sramsOf_slices]
    | split

theorem State.headerDone_srams (s : State) (c : Fin 4) (r : InstRef) (seat : BurstSeat) (b : Burst) (h : DWord) (snr : Nat) : State.srams (State.headerDone s c r seat b h snr) = State.srams s := by
  unfold State.headerDone
  try dsimp only
  repeat' first
    | with_reducible rfl
    | (with_reducible refine (State.afRead_srams _ _ _ _ _ _).trans ?_)
    | (with_reducible refine (State.burstOk_srams _ _ _ _ _ _ _).trans ?_)
    | (with_reducible refine (State.burstRecord_srams _ _ _ _ _ _ _ _ _).trans ?_)
    | (with_reducible refine (State.modAcquirer_srams _ _ _ _).trans ?_)
    | (with_reducible refine (State.toTrack_srams _ _ _).trans ?_)
    | (with_reducible refine srams_ite ?_ ?_)
    | simp only [srams_mk, sramsOf_slices]
    | split

theorem State.payloadDone_srams (s : State) (c : Fin 4) (r : InstRef) (seat : BurstSeat) (b : Burst) (bytes : List Byte) (snr : Nat) : State.srams (State.payloadDone s c r seat b bytes snr) = State.srams s := by
  unfold State.payloadDone
  try dsimp only
  repeat' first
    | with_reducible rfl
    | (with_reducible refine (State.burstFail_srams _ _ _).trans ?_)
    | (with_reducible refine (State.burstOk_srams _ _ _ _ _ _ _).trans ?_)
    | (with_reducible refine (State.burstRecord_srams _ _ _ _ _ _ _ _ _).trans ?_)
    | (with_reducible refine (State.modAcquirer_srams _ _ _ _).trans ?_)
    | (with_reducible refine srams_ite ?_ ?_)
    | simp only [srams_mk, sramsOf_slices]
    | split

theorem State.blockDone_srams (s : State) (c : Fin 4) (r : InstRef) (w : Segment) (bits : List Bool) (snr : Nat) : State.srams (State.blockDone s c r w bits snr) = State.srams s := by
  unfold State.blockDone
  try dsimp only
  repeat' first
    | with_reducible rfl
    | (with_reducible refine (State.headerDone_srams _ _ _ _ _ _ _).trans ?_)
    | (with_reducible refine (State.payloadDone_srams _ _ _ _ _ _ _).trans ?_)
    | simp only [srams_mk, sramsOf_slices]
    | split

theorem State.retuneInst_srams (s : State) (c : Fin 4) (r : InstRef) : State.srams (State.retuneInst s c r) = State.srams s := by
  unfold State.retuneInst
  try dsimp only
  repeat' first
    | with_reducible rfl
    | (with_reducible refine (State.abortBurst_srams _ _ _ _).trans ?_)
    | (with_reducible refine (State.modAcquirer_srams _ _ _ _).trans ?_)
    | (with_reducible refine (State.toSearch_srams _ _ _).trans ?_)
    | (with_reducible refine srams_ite ?_ ?_)
    | simp only [srams_mk, sramsOf_slices]
    | split

theorem State.dcRun_srams (s : State) (c : Fin 4) (t : Fin 32) (rssi : RssiRun) : State.srams (State.dcRun s c t rssi) = State.srams s := by
  unfold State.dcRun
  try dsimp only
  repeat' first
    | with_reducible rfl
    | (with_reducible refine (State.takeRun_srams _ _ _ _).trans ?_)
    | (with_reducible refine srams_ite ?_ ?_)
    | simp only [srams_mk, sramsOf_slices]
    | split

end Sys2Proof.Machine
end

