-- ==== Sys2Proof/Laws/Frames/SramsTransmit.lean ====
section
/-! SUPPORT. What the definitions of this file leave unchanged of the slice SRAMs, one lemma each. -/

set_option Elab.async false

namespace Sys2Proof.Machine

open Sys2Proof

theorem State.txFail_srams (s : State) (c : Fin 4) (k : TxCmd) (status : Nat) : State.srams (State.txFail s c k status) = State.srams s := by
  unfold State.txFail
  try dsimp only
  repeat' first
    | with_reducible rfl
    | (with_reducible refine (State.modTx_srams _ _ _).trans ?_)
    | (with_reducible refine (State.txReport_srams _ _ _ _).trans ?_)

theorem State.txTake_srams (s : State) (c : Fin 4) (k : TxCmd) : State.srams (State.txTake s c k) = State.srams s := by
  unfold State.txTake
  try dsimp only
  repeat' first
    | with_reducible rfl
    | (with_reducible refine (State.txCheck_srams _ _).trans ?_)
    | (with_reducible refine (ask_srams _ _ _).trans ?_)
    | (with_reducible refine (srams_modSl _ _ _ (fun _ => ?_)).trans ?_)
    | (with_reducible refine srams_ite ?_ ?_)
    | (with_reducible refine sram_ite ?_ ?_)
    | simp only [srams_mk, sramsOf_slices]
    | split

theorem State.senseMax_srams (s : State) (c : Fin 4) (fwd rev : Nat) : State.srams (State.senseMax s c fwd rev) = State.srams s := by
  unfold State.senseMax
  try dsimp only
  repeat' first
    | with_reducible rfl
    | (with_reducible refine (State.modCmd_srams _ _ _).trans ?_)
    | (with_reducible refine (State.modTx_srams _ _ _).trans ?_)
    | (with_reducible refine srams_ite ?_ ?_)
    | simp only [srams_mk, sramsOf_slices]
    | split

theorem State.senseFree_srams (s : State) (c : Fin 4) : State.srams (State.senseFree s c) = State.srams s := by
  unfold State.senseFree
  try dsimp only
  repeat' first
    | with_reducible rfl
    | (with_reducible refine (State.freeWord_srams _).trans ?_)
    | (with_reducible refine (State.senseMax_srams _ _ _ _).trans ?_)
    | (with_reducible refine srams_ite ?_ ?_)
    | split

theorem State.setGrant_srams (s : State) (c : Fin 4) (gnt : Bool) : State.srams (State.setGrant s c gnt) = State.srams s := by
  unfold State.setGrant
  try dsimp only
  repeat' first
    | with_reducible rfl
    | (with_reducible refine (State.modTx_srams _ _ _).trans ?_)
    | simp only [srams_mk, sramsOf_slices]

theorem State.paRise_srams (s : State) (c : Fin 4) (now : Nat) : State.srams (State.paRise s c now) = State.srams s := by
  unfold State.paRise
  try dsimp only
  repeat' first
    | with_reducible rfl
    | (with_reducible refine (State.modCmd_srams _ _ _).trans ?_)
    | (with_reducible refine (State.modTx_srams _ _ _).trans ?_)
    | (with_reducible refine (State.senseFree_srams _ _).trans ?_)
    | simp only [srams_mk, sramsOf_slices]

theorem State.startBurst_srams (s : State) (c : Fin 4) (k : TxCmd) (now : Nat) : State.srams (State.startBurst s c k now) = State.srams s := by
  unfold State.startBurst
  try dsimp only
  repeat' first
    | with_reducible rfl
    | (with_reducible refine (State.modCmd_srams _ _ _).trans ?_)
    | (with_reducible refine (State.modTx_srams _ _ _).trans ?_)
    | (with_reducible refine (emit_srams _ _).trans ?_)
    | (with_reducible refine srams_ite ?_ ?_)
    | simp only [srams_mk, sramsOf_slices]
    | split

theorem State.abbrevEnd_srams (s : State) (c : Fin 4) : State.srams (State.abbrevEnd s c) = State.srams s := by
  unfold State.abbrevEnd
  try dsimp only
  repeat' first
    | with_reducible rfl
    | (with_reducible refine (State.modCmd_srams _ _ _).trans ?_)
    | (with_reducible refine (State.modTx_srams _ _ _).trans ?_)
    | (with_reducible refine (State.txRelease_srams _ _ _ _).trans ?_)
    | simp only [srams_mk, sramsOf_slices]
    | split

theorem State.txCancel_srams (s : State) (c : Fin 4) : State.srams (State.txCancel s c) = State.srams s := by
  unfold State.txCancel
  try dsimp only
  repeat' first
    | with_reducible rfl
    | (with_reducible refine (State.endTx_srams _ _ _).trans ?_)
    | (with_reducible refine (State.modCmd_srams _ _ _).trans ?_)
    | (with_reducible refine (State.modTx_srams _ _ _).trans ?_)
    | (with_reducible refine (State.rampOut_srams _ _ _ _).trans ?_)
    | (with_reducible refine (State.txRelease_srams _ _ _ _).trans ?_)
    | simp only [srams_mk, sramsOf_slices]
    | split

theorem State.writeTxCtl_srams (s : State) (c : Fin 4) (v : Word) : State.srams (State.writeTxCtl s c v) = State.srams s := by
  unfold State.writeTxCtl
  try dsimp only
  repeat' first
    | with_reducible rfl
    | (with_reducible refine (State.modTx_srams _ _ _).trans ?_)
    | (with_reducible refine (State.txCancel_srams _ _).trans ?_)
    | (with_reducible refine srams_ite ?_ ?_)
    | split

theorem State.txClockLoss_srams (s : State) (c : Fin 4) : State.srams (State.txClockLoss s c) = State.srams s := by
  unfold State.txClockLoss
  try dsimp only
  repeat' first
    | with_reducible rfl
    | (with_reducible refine (State.modTx_srams _ _ _).trans ?_)
    | (with_reducible refine (State.txAbort_srams _ _ _).trans ?_)
    | (with_reducible refine (State.txCheck_srams _ _).trans ?_)
    | (with_reducible refine srams_ite ?_ ?_)
    | simp only [srams_mk, sramsOf_slices]
    | split

theorem State.txRelock_srams (s : State) (c : Fin 4) : State.srams (State.txRelock s c) = State.srams s := by
  unfold State.txRelock
  try dsimp only
  repeat' first
    | with_reducible rfl
    | (with_reducible refine (State.modTx_srams _ _ _).trans ?_)
    | simp only [srams_mk, sramsOf_slices]
    | split

end Sys2Proof.Machine
end

