-- ==== Sys2Proof/Laws/Frames/SramsRegist.lean ====
section
/-! SUPPORT. What the definitions of this file leave unchanged of the slice SRAMs, one lemma each. -/

set_option Elab.async false

namespace Sys2Proof.Machine

open Sys2Proof

theorem State.trkEvent_srams (s : State) (i : Nat) : State.srams (State.trkEvent s i) = State.srams s := by
  unfold State.trkEvent
  try dsimp only
  repeat' first
    | with_reducible rfl
    | simp only [srams_mk, sramsOf_slices]

theorem State.armReg_srams (s : State) (e : PendReg) : State.srams (State.armReg s e) = State.srams s := by
  unfold State.armReg
  try dsimp only
  repeat' first
    | with_reducible rfl
    | simp only [srams_mk, sramsOf_slices]

theorem State.rejectReg_srams (s : State) : State.srams (State.rejectReg s) = State.srams s := by
  unfold State.rejectReg
  try dsimp only
  repeat' first
    | with_reducible rfl
    | simp only [srams_mk, sramsOf_slices]

theorem State.cancelReg_srams (s : State) (t : Nat) : State.srams (State.cancelReg s t) = State.srams s := by
  unfold State.cancelReg
  try dsimp only
  repeat' first
    | with_reducible rfl
    | (with_reducible refine srams_ite ?_ ?_)
    | simp only [srams_mk, sramsOf_slices]
    | split

theorem Slice.register_srams (x : Slice) (at_ : Nat) : Slice.sram (Slice.register x at_) = Slice.sram x := by
  unfold Slice.register
  try dsimp only
  repeat' first
    | with_reducible rfl
    | (with_reducible refine (Slice.armReset_srams _ _ _ _ _).trans ?_)
    | (with_reducible refine (sram_foldl _ (fun _ _ => ?_) _ _).trans ?_)
    | split

theorem State.register_srams (s : State) (e : PendReg) (at_ : Nat) (late : Bool) : State.srams (State.register s e at_ late) = State.srams s := by
  unfold State.register
  try dsimp only
  repeat' first
    | with_reducible rfl
    | (with_reducible refine (Slice.register_srams _ _).trans ?_)
    | (with_reducible refine (State.stage_srams _ _ _).trans ?_)
    | (with_reducible refine (modSlices_srams _ _ (fun _ _ => ?_)).trans ?_)
    | (with_reducible refine srams_ite ?_ ?_)
    | (with_reducible refine sram_ite ?_ ?_)
    | simp only [srams_mk, sramsOf_slices]
    | split

theorem State.sendRegArm_srams (s : State) (scope t : Nat) (slices : BitVec 4) (cancel : Bool) : State.srams (State.sendRegArm s scope t slices cancel) = State.srams s := by
  unfold State.sendRegArm
  try dsimp only
  repeat' first
    | with_reducible rfl
    | (with_reducible refine (State.originate_srams _ _ _ _ _ _ _).trans ?_)
    | (with_reducible refine srams_ite ?_ ?_)
    | split

end Sys2Proof.Machine
end

