-- ==== Sys2Proof/Laws/Frames/SramsTrunk.lean ====
section
/-! SUPPORT. What the definitions of this file leave unchanged of the slice SRAMs, one lemma each. -/

set_option Elab.async false

namespace Sys2Proof.Machine

open Sys2Proof

theorem State.setPort_srams (s : State) (p : Fin 3) (new : PortState) : State.srams (State.setPort s p new) = State.srams s := by
  unfold State.setPort
  try dsimp only
  repeat' first
    | with_reducible rfl
    | (with_reducible refine (State.modPort_srams _ _ _).trans ?_)
    | (with_reducible refine (State.originate_srams _ _ _ _ _ _ _).trans ?_)
    | (with_reducible refine (State.trkEvent_srams _ _).trans ?_)
    | (with_reducible refine (ask_srams _ _ _).trans ?_)
    | (with_reducible refine (releaseAll_srams _ _).trans ?_)
    | (with_reducible refine srams_ite ?_ ?_)
    | split

theorem State.announce_srams (s : State) (p : Fin 3) : State.srams (State.announce s p) = State.srams s := by
  unfold State.announce
  try dsimp only
  repeat' first
    | with_reducible rfl
    | (with_reducible refine (State.egress_srams _ _ _ _).trans ?_)

theorem State.announceAll_srams (s : State) : State.srams (State.announceAll s) = State.srams s := by
  unfold State.announceAll
  try dsimp only
  repeat' first
    | with_reducible rfl
    | (with_reducible refine (State.announce_srams _ _).trans ?_)
    | (with_reducible refine srams_ite ?_ ?_)
    | (with_reducible refine (srams_foldl _ (fun _ _ => ?_) _ _).trans ?_)
    | (with_reducible refine (sram_foldl _ (fun _ _ => ?_) _ _).trans ?_)
    | split

theorem State.detach_srams (s : State) : State.srams (State.detach s) = State.srams s := by
  unfold State.detach
  try dsimp only
  repeat' first
    | with_reducible rfl
    | (with_reducible refine (State.announceAll_srams _).trans ?_)
    | (with_reducible refine (State.loseSource_srams _ _).trans ?_)
    | (with_reducible refine (State.modPort_srams _ _ _).trans ?_)
    | (with_reducible refine (State.setPort_srams _ _ _).trans ?_)
    | (with_reducible refine (State.trkEvent_srams _ _).trans ?_)
    | (with_reducible refine srams_ite ?_ ?_)
    | (with_reducible refine (srams_foldl _ (fun _ _ => ?_) _ _).trans ?_)
    | (with_reducible refine (sram_foldl _ (fun _ _ => ?_) _ _).trans ?_)
    | simp only [srams_mk, sramsOf_slices]
    | split

theorem State.attach_srams (s : State) (p : Fin 3) : State.srams (State.attach s p) = State.srams s := by
  unfold State.attach
  try dsimp only
  repeat' first
    | with_reducible rfl
    | (with_reducible refine (State.announceAll_srams _).trans ?_)
    | (with_reducible refine (State.setPort_srams _ _ _).trans ?_)
    | (with_reducible refine (State.trkEvent_srams _ _).trans ?_)
    | (with_reducible refine srams_ite ?_ ?_)
    | simp only [srams_mk, sramsOf_slices]
    | split

theorem State.tryAttach_srams (s : State) : State.srams (State.tryAttach s) = State.srams s := by
  unfold State.tryAttach
  try dsimp only
  repeat' first
    | with_reducible rfl
    | (with_reducible refine (State.attach_srams _ _).trans ?_)
    | (with_reducible refine (State.trkEvent_srams _ _).trans ?_)
    | (with_reducible refine srams_ite ?_ ?_)
    | simp only [srams_mk, sramsOf_slices]
    | split

theorem State.noRoute_srams (s : State) (p : Fin 3) : State.srams (State.noRoute s p) = State.srams s := by
  unfold State.noRoute
  try dsimp only
  repeat' first
    | with_reducible rfl
    | (with_reducible refine (State.modPort_srams _ _ _).trans ?_)
    | simp only [srams_mk, sramsOf_slices]

theorem State.forwardUp_srams (s : State) (p : Fin 3) (f : Frame) : State.srams (State.forwardUp s p f) = State.srams s := by
  unfold State.forwardUp
  try dsimp only
  repeat' first
    | with_reducible rfl
    | (with_reducible refine (State.egress_srams _ _ _ _).trans ?_)
    | simp only [srams_mk, sramsOf_slices]
    | split

theorem State.passBad_srams (s : State) (p : Fin 3) (b : BadFrame) : State.srams (State.passBad s p b) = State.srams s := by
  unfold State.passBad
  try dsimp only
  repeat' first
    | with_reducible rfl
    | (with_reducible refine (State.forwardUp_srams _ _ _).trans ?_)
    | (with_reducible refine (State.toChildren_srams _ _ _).trans ?_)
    | (with_reducible refine srams_ite ?_ ?_)
    | simp only [srams_mk, sramsOf_slices]
    | split

theorem State.portDown_srams (s : State) (p : Fin 3) : State.srams (State.portDown s p) = State.srams s := by
  unfold State.portDown
  try dsimp only
  repeat' first
    | with_reducible rfl
    | (with_reducible refine (State.detach_srams _).trans ?_)
    | (with_reducible refine (State.setPort_srams _ _ _).trans ?_)
    | (with_reducible refine srams_ite ?_ ?_)
    | split

theorem State.classify_srams (s : State) (p : Fin 3) : State.srams (State.classify s p) = State.srams s := by
  unfold State.classify
  try dsimp only
  repeat' first
    | with_reducible rfl
    | (with_reducible refine (State.announceAll_srams _).trans ?_)
    | (with_reducible refine (State.detach_srams _).trans ?_)
    | (with_reducible refine (State.setPort_srams _ _ _).trans ?_)
    | (with_reducible refine (State.trkEvent_srams _ _).trans ?_)
    | (with_reducible refine srams_ite ?_ ?_)
    | simp only [srams_mk, sramsOf_slices]
    | split

theorem State.routeUp_srams (s : State) (p : Fin 3) (f : RxFrame) (cls : FrameClass) (kind : Nat) (act : State → State)
    (h : ∀ t, (act t).srams = t.srams) : (s.routeUp p f cls kind act).srams = s.srams := by
  unfold State.routeUp
  dsimp only
  refine srams_ite (State.noRoute_srams _ _) (srams_ite ?_ ?_)
  · refine srams_ite (srams_ite (h s) rfl) ?_
    refine (State.toChildren_srams _ _ _).trans (srams_ite (h s) rfl)
  · refine srams_ite (h s) (srams_ite (State.noRoute_srams _ _) (srams_ite rfl ?_))
    exact State.forwardUp_srams _ _ _

theorem State.routeDown_srams (s : State) (p : Fin 3) (f : RxFrame) (cls : FrameClass) (kind : Nat) (all : Bool)
    (act : State → State) (h : ∀ t, (act t).srams = t.srams) : (s.routeDown p f cls kind all act).srams = s.srams := by
  unfold State.routeDown
  dsimp only
  refine srams_ite (State.noRoute_srams _ _) (srams_ite (srams_ite (h s) rfl) ?_)
  exact (State.toChildren_srams _ _ _).trans (srams_ite (h s) rfl)

theorem State.receive_srams (s : State) (p : Fin 3) (f : RxFrame) (cls : FrameClass) (kind : Nat) (ok : Bool)
    (act : State → State) (h : ∀ t, (act t).srams = t.srams) : (s.receive p f cls kind ok act).srams = s.srams := by
  unfold State.receive
  refine srams_ite rfl (srams_ite rfl ?_)
  dsimp only
  refine srams_ite ((h _).trans rfl) (srams_ite ?_ ?_)
  · exact (State.routeUp_srams _ _ _ _ _ _ h).trans rfl
  · exact (State.routeDown_srams _ _ _ _ _ _ _ h).trans rfl

theorem State.hearAnnounce_srams (s : State) (p : Fin 3) (f : RxFrame) : State.srams (State.hearAnnounce s p f) = State.srams s := by
  unfold State.hearAnnounce
  try dsimp only
  repeat' first
    | with_reducible rfl
    | (with_reducible refine (State.classify_srams _ _).trans ?_)
    | (with_reducible refine (State.modPort_srams _ _ _).trans ?_)
    | (with_reducible refine (State.setPort_srams _ _ _).trans ?_)
    | (with_reducible refine (State.trkEvent_srams _ _).trans ?_)
    | (with_reducible refine (State.tryAttach_srams _).trans ?_)
    | (with_reducible refine srams_ite ?_ ?_)
    | split

theorem State.startReparent_srams (s : State) : State.srams (State.startReparent s) = State.srams s := by
  unfold State.startReparent
  try dsimp only
  repeat' first
    | with_reducible rfl
    | (with_reducible refine (State.detach_srams _).trans ?_)
    | simp only [srams_mk, sramsOf_slices]
    | split

theorem State.setRole_srams (s : State) (role : Nat) : State.srams (State.setRole s role) = State.srams s := by
  unfold State.setRole
  try dsimp only
  repeat' first
    | with_reducible rfl
    | (with_reducible refine (State.announceAll_srams _).trans ?_)
    | (with_reducible refine (State.detach_srams _).trans ?_)
    | (with_reducible refine (State.setPort_srams _ _ _).trans ?_)
    | (with_reducible refine (State.trkEvent_srams _ _).trans ?_)
    | (with_reducible refine srams_ite ?_ ?_)
    | (with_reducible refine (srams_foldl _ (fun _ _ => ?_) _ _).trans ?_)
    | (with_reducible refine (sram_foldl _ (fun _ _ => ?_) _ _).trans ?_)
    | simp only [srams_mk, sramsOf_slices]
    | split

theorem State.writeTrkCfg_srams (s : State) (v : Word) : State.srams (State.writeTrkCfg s v) = State.srams s := by
  unfold State.writeTrkCfg
  try dsimp only
  repeat' first
    | with_reducible rfl
    | (with_reducible refine (State.setRole_srams _ _).trans ?_)
    | (with_reducible refine (State.trkEvent_srams _ _).trans ?_)
    | (with_reducible refine srams_ite ?_ ?_)
    | simp only [srams_mk, sramsOf_slices]
    | split

theorem State.sendSync_srams (s : State) (p : Fin 3) : State.srams (State.sendSync s p) = State.srams s := by
  unfold State.sendSync
  try dsimp only
  repeat' first
    | with_reducible rfl
    | (with_reducible refine (State.egress_srams _ _ _ _).trans ?_)
    | (with_reducible refine srams_ite ?_ ?_)
    | split

theorem State.syncAll_srams (s : State) : State.srams (State.syncAll s) = State.srams s := by
  unfold State.syncAll
  try dsimp only
  repeat' first
    | with_reducible rfl
    | (with_reducible refine (State.sendSync_srams _ _).trans ?_)
    | (with_reducible refine srams_ite ?_ ?_)
    | (with_reducible refine (srams_foldl _ (fun _ _ => ?_) _ _).trans ?_)
    | (with_reducible refine (sram_foldl _ (fun _ _ => ?_) _ _).trans ?_)
    | split

theorem State.hearSync_srams (s : State) (p : Fin 3) (f : RxFrame) : State.srams (State.hearSync s p f) = State.srams s := by
  unfold State.hearSync
  try dsimp only
  repeat' first
    | with_reducible rfl
    | (with_reducible refine (State.egress_srams _ _ _ _).trans ?_)
    | (with_reducible refine (State.modPort_srams _ _ _).trans ?_)
    | (with_reducible refine (State.qualify_srams _ _ _).trans ?_)
    | (with_reducible refine srams_ite ?_ ?_)
    | simp only [srams_mk, sramsOf_slices]
    | split

theorem State.hearRegArm_srams (s : State) (f : RxFrame) : State.srams (State.hearRegArm s f) = State.srams s := by
  unfold State.hearRegArm
  try dsimp only
  repeat' first
    | with_reducible rfl
    | (with_reducible refine (State.armReg_srams _ _).trans ?_)
    | (with_reducible refine (State.cancelReg_srams _ _).trans ?_)
    | (with_reducible refine (State.rejectReg_srams _).trans ?_)
    | (with_reducible refine srams_ite ?_ ?_)
    | split

theorem feedFrames_srams (dest : Nat) : ∀ (l : List (Nat × List Byte)) (s : State),
    (feedFrames dest l s).2.srams = s.srams := by
  intro l
  induction l with
  | nil => intro s; rfl
  | cons x l ih =>
    intro s
    obtain ⟨kind, b⟩ := x
    unfold feedFrames
    split
    · exact (ih _).trans (State.originate_srams _ _ _ _ _ _ _)
    · rfl

theorem State.feedPush_srams (s : State) : State.srams (State.feedPush s) = State.srams s := by
  unfold State.feedPush
  try dsimp only
  repeat' first
    | with_reducible rfl
    | (with_reducible refine (feedFrames_srams _ _ _).trans ?_)
    | (with_reducible refine srams_ite ?_ ?_)
    | simp only [srams_mk, sramsOf_slices]
    | split

theorem State.answer_srams (s : State) (id : Word) (src status : Nat) (missing : List Nat) : State.srams (State.answer s id src status missing) = State.srams s := by
  unfold State.answer
  try dsimp only
  repeat' first
    | with_reducible rfl
    | (with_reducible refine (State.originate_srams _ _ _ _ _ _ _).trans ?_)
    | (with_reducible refine srams_ite ?_ ?_)
    | split

theorem State.putTransfer_srams (s : State) (t : Transfer) : State.srams (State.putTransfer s t) = State.srams s := by
  unfold State.putTransfer
  try dsimp only
  repeat' first
    | with_reducible rfl
    | simp only [srams_mk, sramsOf_slices]

theorem State.storePushed_srams (s : State) (t : Transfer) (data : List Byte) : State.srams (State.storePushed s t data) = State.srams s := by
  unfold State.storePushed
  split
  · exact State.answer_srams _ _ _ _ _
  · split
    · refine srams_ite (State.answer_srams _ _ _ _ _) ?_
      split
      · rename_i s1 h
        exact (State.flashWrite_srams h : s1.srams = _)
      · exact (State.answer_srams _ _ _ _ _).trans (State.flashDeny_srams _)
    · exact State.answer_srams _ _ _ _ _

theorem State.storeImage_srams (s : State) (t : Transfer) (data : List Byte) : State.srams (State.storeImage s t data) = State.srams s := by
  unfold State.storeImage
  refine srams_ite (State.answer_srams _ _ _ _ _) ?_
  split
  · rename_i s1 h
    exact (State.flashWrite_srams h : s1.srams = _)
  · exact (State.answer_srams _ _ _ _ _).trans (State.flashDeny_srams _)

theorem State.hearEnd_srams (s : State) (f : RxFrame) : State.srams (State.hearEnd s f) = State.srams s := by
  unfold State.hearEnd
  try dsimp only
  repeat' first
    | with_reducible rfl
    | (with_reducible refine (State.answer_srams _ _ _ _ _).trans ?_)
    | (with_reducible refine (State.putTransfer_srams _ _).trans ?_)
    | (with_reducible refine (State.storeImage_srams _ _ _).trans ?_)
    | (with_reducible refine (State.storePushed_srams _ _ _).trans ?_)
    | (with_reducible refine srams_ite ?_ ?_)
    | simp only [srams_mk, sramsOf_slices]
    | split

end Sys2Proof.Machine
end

