-- ==== Sys2Proof/Laws/Frames/SramsLockup.lean ====
section
/-! SUPPORT. What the definitions of this file leave unchanged of the slice SRAMs, one lemma each. -/

set_option Elab.async false

namespace Sys2Proof.Machine

open Sys2Proof

theorem State.stopQueue_srams (s : State) (f : Forme) (q : Fin 256) (key : Nat) : State.srams (State.stopQueue s f q key) = State.srams s := by
  unfold State.stopQueue
  try dsimp only
  repeat' first
    | with_reducible rfl
    | (with_reducible refine (State.closeBuf_srams _ _ _).trans ?_)
    | (with_reducible refine (State.moveBytes_srams _ _ _).trans ?_)
    | (with_reducible refine (modQ_srams _ _ _).trans ?_)
    | (with_reducible refine srams_ite ?_ ?_)
    | simp only [srams_mk, sramsOf_slices]
    | split

theorem State.cutAf_srams (s : State) (c : Fin 4) (f : Forme) (places : List (Nat × Nat)) (d : Delta) (now n : Nat) : State.srams (State.cutAf s c f places d now n) = State.srams s := by
  unfold State.cutAf
  try dsimp only
  repeat' first
    | with_reducible rfl
    | (with_reducible refine (Slice.stopCands_srams _ _ _).trans ?_)
    | (with_reducible refine (State.undoSpec_srams _ _ _ _ _).trans ?_)
    | (with_reducible refine (srams_modSl _ _ _ (fun _ => ?_)).trans ?_)
    | (with_reducible refine srams_ite ?_ ?_)
    | (with_reducible refine sram_ite ?_ ?_)
    | simp only [srams_mk, sramsOf_slices]
    | split

theorem State.cutInst_srams (s : State) (c : Fin 4) (n : Nat) : State.srams (State.cutInst s c n) = State.srams s := by
  unfold State.cutInst
  try dsimp only
  repeat' first
    | with_reducible rfl
    | (with_reducible refine (Slice.stopCands_srams _ _ _).trans ?_)
    | (with_reducible refine (State.abortBurst_srams _ _ _ _).trans ?_)
    | (with_reducible refine (State.closeAudio_srams _ _ _).trans ?_)
    | (with_reducible refine (srams_modSl _ _ _ (fun _ => ?_)).trans ?_)

theorem State.cutCtx_srams (s : State) (c : Fin 4) (k : Nat) : State.srams (State.cutCtx s c k) = State.srams s := by
  unfold State.cutCtx
  try dsimp only
  repeat' first
    | with_reducible rfl
    | (with_reducible refine (State.envCut_srams _ _ _ _).trans ?_)
    | (with_reducible refine (State.resetParser_srams _ _ _).trans ?_)

theorem State.cutOld_srams (s : State) (c : Fin 4) (f : Forme) (places : List (Nat × Nat)) (d : Delta) (now : Nat) : State.srams (State.cutOld s c f places d now) = State.srams s := by
  unfold State.cutOld
  try dsimp only
  repeat' first
    | with_reducible rfl
    | (with_reducible refine (Slice.modTun_srams _ _ _).trans ?_)
    | (with_reducible refine (State.calCut_srams _ _ _).trans ?_)
    | (with_reducible refine (State.cancelEntries_srams _ _ _ _ _ _).trans ?_)
    | (with_reducible refine (State.closeAudio_srams _ _ _).trans ?_)
    | (with_reducible refine (State.closeLater_srams _ _ _ _).trans ?_)
    | (with_reducible refine (State.cutAf_srams _ _ _ _ _ _ _).trans ?_)
    | (with_reducible refine (State.cutCtx_srams _ _ _).trans ?_)
    | (with_reducible refine (State.cutInst_srams _ _ _).trans ?_)
    | (with_reducible refine (State.endCapture_srams _ _).trans ?_)
    | (with_reducible refine (State.endSamples_srams _ _ _).trans ?_)
    | (with_reducible refine (State.stopQueue_srams _ _ _ _).trans ?_)
    | (with_reducible refine (srams_modSl _ _ _ (fun _ => ?_)).trans ?_)
    | (with_reducible refine srams_ite ?_ ?_)
    | (with_reducible refine (srams_foldl _ (fun _ _ => ?_) _ _).trans ?_)
    | (with_reducible refine (sram_foldl _ (fun _ _ => ?_) _ _).trans ?_)
    | (with_reducible refine sram_ite ?_ ?_)
    | simp only [srams_mk, sramsOf_slices]
    | split

theorem Slice.dropCands_srams (x : Slice) (f : Forme) : Slice.sram (Slice.dropCands x f) = Slice.sram x := by
  unfold Slice.dropCands
  refine sram_foldl _ (fun y t => ?_) _ _
  try dsimp only
  split
  · split
    · rfl
    · rfl
  · rfl

theorem Slice.bringForme_srams (x : Slice) (f : Forme) (places : List (Nat × Nat)) : Slice.sram (Slice.bringForme x f places) = Slice.sram x := by
  unfold Slice.bringForme
  try dsimp only
  repeat' first
    | with_reducible rfl

theorem Slice.bringChain_srams (x : Slice) (f : Forme) (d : Delta) (now real : Nat) : Slice.sram (Slice.bringChain x f d now real) = Slice.sram x := by
  unfold Slice.bringChain
  try dsimp only
  repeat' first
    | with_reducible rfl
    | (with_reducible refine sram_ite ?_ ?_)
    | split

theorem Slice.bringService_srams (x : Slice) (old : Option Forme) (was : Vector Inst 48) (f : Forme) (d : Delta) (now real : Nat) : Slice.sram (Slice.bringService x old was f d now real) = Slice.sram x := by
  unfold Slice.bringService
  try dsimp only
  repeat' first
    | with_reducible rfl
    | (with_reducible refine (Slice.dropCands_srams _ _).trans ?_)
    | (with_reducible refine (Slice.syncMirror_srams _).trans ?_)
    | (with_reducible refine sram_ite ?_ ?_)
    | split

theorem State.dropBursts_srams (s : State) (c : Fin 4) : State.srams (State.dropBursts s c) = State.srams s := by
  unfold State.dropBursts
  try dsimp only
  repeat' first
    | with_reducible rfl
    | (with_reducible refine (State.finish_srams _ _ _ _).trans ?_)
    | (with_reducible refine srams_ite ?_ ?_)
    | (with_reducible refine (srams_foldl _ (fun _ _ => ?_) _ _).trans ?_)
    | (with_reducible refine (sram_foldl _ (fun _ _ => ?_) _ _).trans ?_)
    | simp only [srams_mk, sramsOf_slices]
    | split

theorem State.commitForme_srams (s : State) (c : Fin 4) (f : Forme) (places : List (Nat × Nat)) (now : Nat) : State.srams (State.commitForme s c f places now) = State.srams s := by
  unfold State.commitForme
  try dsimp only
  repeat' first
    | with_reducible rfl
    | (with_reducible refine (Slice.bringChain_srams _ _ _ _ _).trans ?_)
    | (with_reducible refine (Slice.bringForme_srams _ _ _).trans ?_)
    | (with_reducible refine (Slice.bringService_srams _ _ _ _ _ _ _).trans ?_)
    | (with_reducible refine (Slice.fillAll_srams _ _ _).trans ?_)
    | (with_reducible refine (State.cutOld_srams _ _ _ _ _ _).trans ?_)
    | (with_reducible refine (State.dropBursts_srams _ _).trans ?_)
    | (with_reducible refine (State.recheckOffers_srams _).trans ?_)
    | (with_reducible refine (State.reroute_srams _ _).trans ?_)
    | (with_reducible refine (State.setClaim_srams _ _ _).trans ?_)
    | (with_reducible refine (release_srams _ _ _).trans ?_)
    | (with_reducible refine (srams_modSl _ _ _ (fun _ => ?_)).trans ?_)
    | (with_reducible refine srams_ite ?_ ?_)
    | (with_reducible refine sram_ite ?_ ?_)
    | split

theorem State.keepGrant_srams (s : State) (c : Fin 4) : State.srams (State.keepGrant s c) = State.srams s := by
  unfold State.keepGrant
  try dsimp only
  repeat' first
    | with_reducible rfl
    | (with_reducible refine (release_srams _ _ _).trans ?_)
    | (with_reducible refine srams_ite ?_ ?_)
    | simp only [srams_mk, sramsOf_slices]
    | split

theorem State.setArea_srams (s : State) (c : Fin 4) (a : Staged2) : State.srams (State.setArea s c a) = State.srams s := by
  unfold State.setArea
  try dsimp only
  repeat' first
    | with_reducible rfl
    | (with_reducible refine (srams_modSl _ _ _ (fun _ => ?_)).trans ?_)
    | simp only [srams_mk, sramsOf_slices]

theorem State.lockDone_srams (s : State) (cmd : Option CmdRef) (status : Nat) (result : List Byte) : State.srams (State.lockDone s cmd status result) = State.srams s := by
  unfold State.lockDone
  try dsimp only
  repeat' first
    | with_reducible rfl
    | (with_reducible refine (State.complete_srams _ _ _ _).trans ?_)
    | simp only [srams_mk, sramsOf_slices]
    | split

theorem State.lockStaged_srams (s : State) (c : Fin 4) (f : Forme) (base : Option Word) (cmd : Option CmdRef) (now : Nat) : State.srams (State.lockStaged s c f base cmd now) = State.srams s := by
  unfold State.lockStaged
  try dsimp only
  repeat' first
    | with_reducible rfl
    | (with_reducible refine (State.commitForme_srams _ _ _ _ _).trans ?_)
    | (with_reducible refine (State.keepGrant_srams _ _).trans ?_)
    | (with_reducible refine (State.lockDone_srams _ _ _ _).trans ?_)
    | (with_reducible refine (State.setArea_srams _ _ _).trans ?_)
    | simp only [srams_mk, sramsOf_slices]
    | split

theorem State.bootFault_srams (s : State) (c : Fin 4) (status entry : Nat) : State.srams (State.bootFault s c status entry) = State.srams s := by
  unfold State.bootFault
  try dsimp only
  repeat' first
    | with_reducible rfl
    | (with_reducible refine (State.fault_srams _ _).trans ?_)

theorem State.lockBoot_srams (s : State) (c : Fin 4) (now : Nat) : State.srams (State.lockBoot s c now) = State.srams s := by
  unfold State.lockBoot
  extract_lets x idle go
  have hi : ∀ t, (idle t).srams = t.srams := fun t => (State.dropRules_srams _ _).trans (srams_modSl _ _ _ (fun _ => rfl))
  have hg : ∀ t f e, (go t f e).srams = t.srams := by
    intro t f e
    simp only [go]
    split
    · exact (State.keepGrant_srams _ _).trans ((hi _).trans (State.bootFault_srams _ _ _ _))
    · exact (State.keepGrant_srams _ _).trans ((hi _).trans (State.bootFault_srams _ _ _ _))
    · exact State.commitForme_srams _ _ _ _ _
  clear_value idle go
  split
  · exact hg _ _ _
  · rfl
  · exact hg _ _ _
  · exact hi _

theorem State.lockNow_srams (s : State) (c : Fin 4) (at_ now : Nat) : State.srams (State.lockNow s c at_ now) = State.srams s := by
  unfold State.lockNow
  try dsimp only
  repeat' first
    | with_reducible rfl
    | (with_reducible refine (State.lockBoot_srams _ _ _).trans ?_)
    | (with_reducible refine (State.lockStaged_srams _ _ _ _ _ _).trans ?_)
    | (with_reducible refine (State.runEntries_srams _ _ _).trans ?_)
    | (with_reducible refine srams_ite ?_ ?_)
    | simp only [srams_mk, sramsOf_slices]
    | split

end Sys2Proof.Machine
end

