-- ==== Sys2Proof/Laws/Frames/SramsFormeCmds.lean ====
section
/-! SUPPORT. What the definitions of this file leave unchanged of the slice SRAMs, one lemma each. -/

set_option Elab.async false

namespace Sys2Proof.Machine

open Sys2Proof

theorem State.areaDone_srams (s : State) (c : Fin 4) (cmd : Command) (r : Staged2 × Nat × List Byte) : State.srams (State.areaDone s c cmd r) = State.srams s := by
  unfold State.areaDone
  try dsimp only
  repeat' first
    | with_reducible rfl
    | (with_reducible refine (State.finish_srams _ _ _ _).trans ?_)
    | (with_reducible refine (State.setArea_srams _ _ _).trans ?_)
    | (with_reducible refine (srams_modSl _ _ _ (fun _ => ?_)).trans ?_)
    | simp only [srams_mk, sramsOf_slices]

theorem State.setChunk_srams (s : State) (c : Fin 4) (cmd : Command) (off : Nat) (data : List Byte) : State.srams (State.setChunk s c cmd off data) = State.srams s := by
  unfold State.setChunk
  try dsimp only
  repeat' first
    | with_reducible rfl
    | (with_reducible refine (State.areaDone_srams _ _ _ _).trans ?_)
    | (with_reducible refine (State.finish_srams _ _ _ _).trans ?_)
    | (with_reducible refine srams_ite ?_ ?_)
    | simp only [srams_mk, sramsOf_slices]
    | split

theorem State.acceptLockup_srams (s : State) (c : Fin 4) (cmd : Command) (f : Forme) (base : Option Word) (t : Nat) : State.srams (State.acceptLockup s c cmd f base t) = State.srams s := by
  unfold State.acceptLockup
  try dsimp only
  repeat' first
    | with_reducible rfl
    | (with_reducible refine (State.keep_srams _ _).trans ?_)
    | (with_reducible refine (State.setArea_srams _ _ _).trans ?_)
    | (with_reducible refine (ask_srams _ _ _).trans ?_)
    | (with_reducible refine srams_ite ?_ ?_)
    | simp only [srams_mk, sramsOf_slices]
    | split

theorem State.clearArea_srams (s : State) (c : Fin 4) (status : Nat) : State.srams (State.clearArea s c status) = State.srams s := by
  unfold State.clearArea
  try dsimp only
  repeat' first
    | with_reducible rfl
    | (with_reducible refine (State.keepGrant_srams _ _).trans ?_)
    | (with_reducible refine (State.lockDone_srams _ _ _ _).trans ?_)
    | (with_reducible refine (State.setArea_srams _ _ _).trans ?_)
    | simp only [srams_mk, sramsOf_slices]
    | split

end Sys2Proof.Machine
end

