-- ==== Sys2Proof/Laws/Frames/SramsSteps.lean ====
section
/-! SUPPORT. What the definitions of this file leave unchanged of the slice SRAMs, one lemma each. -/

set_option Elab.async false

namespace Sys2Proof.Machine

open Sys2Proof

theorem State.skipRereg_srams (s : State) (p now : Nat) : State.srams (State.skipRereg s p now) = State.srams s := by
  unfold State.skipRereg
  try dsimp only
  repeat' first
    | with_reducible rfl
    | (with_reducible refine (modSlices_srams _ _ (fun _ _ => ?_)).trans ?_)
    | (with_reducible refine srams_ite ?_ ?_)
    | (with_reducible refine sram_ite ?_ ?_)
    | simp only [srams_mk, sramsOf_slices]
    | split

theorem State.takeSkipped_srams (s : State) (p now : Nat) (k : Skipped) : (s.takeSkipped p now k).srams = s.srams := by
  unfold State.takeSkipped
  split
  · exact State.lockNow_srams _ _ _ _
  · exact srams_ite (State.executeEntry_srams _ _ _ _ _ _) rfl
  · exact State.txCheck_srams _ _
  · exact State.endPulse_srams _ _ _
  · exact srams_ite (State.register_srams _ _ _ _) rfl

theorem State.doStep_srams (s : State) (k : PendStep) : State.srams (State.doStep s k) = State.srams s := by
  unfold State.doStep
  try dsimp only
  repeat' first
    | with_reducible rfl
    | (with_reducible refine (State.endPulse_srams _ _ _).trans ?_)
    | (with_reducible refine (State.resolveEntries_srams _).trans ?_)
    | (with_reducible refine (State.skipRereg_srams _ _ _).trans ?_)
    | (with_reducible refine (State.stepRecord_srams _ _ _ _ _ _).trans ?_)
    | (with_reducible refine (State.takeSkipped_srams _ _ _ _).trans ?_)
    | (with_reducible refine srams_ite ?_ ?_)
    | (with_reducible refine (srams_foldl _ (fun _ _ => ?_) _ _).trans ?_)
    | (with_reducible refine (sram_foldl _ (fun _ _ => ?_) _ _).trans ?_)
    | simp only [srams_mk, sramsOf_slices]
    | split

theorem State.doHold_srams (s : State) (p : Nat) : State.srams (State.doHold s p) = State.srams s := by
  unfold State.doHold
  try dsimp only
  repeat' first
    | with_reducible rfl
    | (with_reducible refine (State.armTbm_srams _ _).trans ?_)
    | (with_reducible refine (State.register_srams _ _ _ _).trans ?_)
    | (with_reducible refine (State.stepRecord_srams _ _ _ _ _ _).trans ?_)
    | (with_reducible refine srams_ite ?_ ?_)
    | simp only [srams_mk, sramsOf_slices]
    | split

theorem State.coastInst_srams (s : State) (c : Fin 4) (r : InstRef) : State.srams (State.coastInst s c r) = State.srams s := by
  unfold State.coastInst
  try dsimp only
  repeat' first
    | with_reducible rfl
    | (with_reducible refine (Slice.modDemod_srams _ _ _).trans ?_)
    | (with_reducible refine (State.abortBurst_srams _ _ _ _).trans ?_)
    | (with_reducible refine (State.leftTrack_srams _ _ _).trans ?_)
    | (with_reducible refine (State.modAcquirer_srams _ _ _ _).trans ?_)
    | (with_reducible refine (srams_modSl _ _ _ (fun _ => ?_)).trans ?_)
    | (with_reducible refine srams_ite ?_ ?_)
    | (with_reducible refine sram_ite ?_ ?_)
    | simp only [srams_mk, sramsOf_slices]
    | split

theorem State.coastAf_srams (s : State) (c : Fin 4) (n : Fin 48) : State.srams (State.coastAf s c n) = State.srams s := by
  unfold State.coastAf
  try dsimp only
  repeat' first
    | with_reducible rfl
    | (with_reducible refine (State.failCheck_srams _ _ _ _).trans ?_)
    | (with_reducible refine (State.undoSpec_srams _ _ _ _ _).trans ?_)
    | simp only [srams_mk, sramsOf_slices]
    | split

theorem State.coastChains_srams (s : State) (c : Fin 4) : State.srams (State.coastChains s c) = State.srams s := by
  unfold State.coastChains
  try dsimp only
  repeat' first
    | with_reducible rfl
    | (with_reducible refine (State.endSamples_srams _ _ _).trans ?_)
    | (with_reducible refine (srams_modSl _ _ _ (fun _ => ?_)).trans ?_)
    | (with_reducible refine srams_ite ?_ ?_)
    | (with_reducible refine (srams_foldl _ (fun _ _ => ?_) _ _).trans ?_)
    | (with_reducible refine (sram_foldl _ (fun _ _ => ?_) _ _).trans ?_)
    | (with_reducible refine sram_ite ?_ ?_)
    | simp only [srams_mk, sramsOf_slices]
    | split

theorem State.clockFault_srams (s : State) (c : Fin 4) : State.srams (State.clockFault s c) = State.srams s := by
  unfold State.clockFault
  try dsimp only
  repeat' first
    | with_reducible rfl
    | (with_reducible refine (State.fault_srams _ _).trans ?_)

theorem State.loseClock_srams (s : State) (c : Fin 4) : State.srams (State.loseClock s c) = State.srams s := by
  unfold State.loseClock
  try dsimp only
  repeat' first
    | with_reducible rfl
    | (with_reducible refine (State.calCut_srams _ _ _).trans ?_)
    | (with_reducible refine (State.clockFault_srams _ _).trans ?_)
    | (with_reducible refine (State.coastAf_srams _ _ _).trans ?_)
    | (with_reducible refine (State.coastChains_srams _ _).trans ?_)
    | (with_reducible refine (State.coastInst_srams _ _ _).trans ?_)
    | (with_reducible refine (State.dropTiming_srams _).trans ?_)
    | (with_reducible refine (State.txClockLoss_srams _ _).trans ?_)
    | (with_reducible refine (srams_modSl _ _ _ (fun _ => ?_)).trans ?_)
    | (with_reducible refine srams_ite ?_ ?_)
    | (with_reducible refine (srams_foldl _ (fun _ _ => ?_) _ _).trans ?_)
    | (with_reducible refine (sram_foldl _ (fun _ _ => ?_) _ _).trans ?_)
    | (with_reducible refine sram_ite ?_ ?_)
    | simp only [srams_mk, sramsOf_slices]
    | split

theorem State.sampleGap_srams (s : State) (c : Fin 4) (f : Forme) (t n : Nat) : State.srams (State.sampleGap s c f t n) = State.srams s := by
  unfold State.sampleGap
  try dsimp only
  repeat' first
    | with_reducible rfl
    | (with_reducible refine (Slice.modTun_srams _ _ _).trans ?_)
    | (with_reducible refine (State.gap_srams _ _ _ _ _ _).trans ?_)
    | (with_reducible refine (srams_modSl _ _ _ (fun _ => ?_)).trans ?_)
    | (with_reducible refine srams_ite ?_ ?_)
    | (with_reducible refine sram_ite ?_ ?_)
    | simp only [srams_mk, sramsOf_slices]
    | split

theorem State.audioGap_srams (s : State) (c : Fin 4) (f : Forme) (t n : Nat) : State.srams (State.audioGap s c f t n) = State.srams s := by
  unfold State.audioGap
  try dsimp only
  repeat' first
    | with_reducible rfl
    | (with_reducible refine (State.gap_srams _ _ _ _ _ _).trans ?_)
    | (with_reducible refine srams_ite ?_ ?_)
    | simp only [srams_mk, sramsOf_slices]
    | split

theorem Slice.rejoin_srams (x : Slice) (at_ real : Nat) : Slice.sram (Slice.rejoin x at_ real) = Slice.sram x := by
  unfold Slice.rejoin
  try dsimp only
  repeat' first
    | with_reducible rfl
    | (with_reducible refine (Slice.armReset_srams _ _ _ _ _).trans ?_)
    | (with_reducible refine sram_ite ?_ ?_)
    | (with_reducible refine (sram_foldl _ (fun _ _ => ?_) _ _).trans ?_)
    | split

theorem State.rejoin_srams (s : State) (c : Fin 4) (t : Nat) : State.srams (State.rejoin s c t) = State.srams s := by
  unfold State.rejoin
  try dsimp only
  repeat' first
    | with_reducible rfl
    | (with_reducible refine (Slice.rejoin_srams _ _ _).trans ?_)
    | (with_reducible refine (State.audioGap_srams _ _ _ _ _).trans ?_)
    | (with_reducible refine (State.goHome_srams _ _ _).trans ?_)
    | (with_reducible refine (State.lockNow_srams _ _ _ _).trans ?_)
    | (with_reducible refine (State.sampleGap_srams _ _ _ _ _).trans ?_)
    | (with_reducible refine (State.txRelock_srams _ _).trans ?_)
    | (with_reducible refine (srams_modSl _ _ _ (fun _ => ?_)).trans ?_)
    | (with_reducible refine srams_ite ?_ ?_)
    | (with_reducible refine (srams_foldl _ (fun _ _ => ?_) _ _).trans ?_)
    | (with_reducible refine (sram_foldl _ (fun _ _ => ?_) _ _).trans ?_)
    | (with_reducible refine sram_ite ?_ ?_)
    | simp only [srams_mk, sramsOf_slices]
    | split

end Sys2Proof.Machine
end

