-- ==== Sys2Proof/Laws/Frames/SramsSliceLife.lean ====
section
/-! SUPPORT. What the definitions of this file leave unchanged of the slice SRAMs, one lemma each. -/

set_option Elab.async false

namespace Sys2Proof.Machine

open Sys2Proof

theorem State.stopAf_srams (s : State) (c : Fin 4) : State.srams (State.stopAf s c) = State.srams s := by
  unfold State.stopAf
  try dsimp only
  repeat' first
    | with_reducible rfl
    | (with_reducible refine (State.undoSpec_srams _ _ _ _ _).trans ?_)
    | (with_reducible refine srams_ite ?_ ?_)
    | (with_reducible refine (srams_foldl _ (fun _ _ => ?_) _ _).trans ?_)
    | (with_reducible refine (sram_foldl _ (fun _ _ => ?_) _ _).trans ?_)
    | split

theorem State.stopBursts_srams (s : State) (c : Fin 4) : State.srams (State.stopBursts s c) = State.srams s := by
  unfold State.stopBursts
  try dsimp only
  repeat' first
    | with_reducible rfl
    | (with_reducible refine (State.abortBurst_srams _ _ _ _).trans ?_)
    | (with_reducible refine (srams_foldl _ (fun _ _ => ?_) _ _).trans ?_)
    | (with_reducible refine (sram_foldl _ (fun _ _ => ?_) _ _).trans ?_)

theorem State.stopRecords_srams (s : State) (c : Fin 4) : State.srams (State.stopRecords s c) = State.srams s := by
  unfold State.stopRecords
  try dsimp only
  repeat' first
    | with_reducible rfl
    | (with_reducible refine (State.closeAudio_srams _ _ _).trans ?_)
    | (with_reducible refine (State.endCapture_srams _ _).trans ?_)
    | (with_reducible refine (State.endSamples_srams _ _ _).trans ?_)
    | (with_reducible refine (srams_foldl _ (fun _ _ => ?_) _ _).trans ?_)
    | (with_reducible refine (sram_foldl _ (fun _ _ => ?_) _ _).trans ?_)

theorem State.stopContexts_srams (s : State) (c : Fin 4) : State.srams (State.stopContexts s c) = State.srams s := by
  unfold State.stopContexts
  try dsimp only
  repeat' first
    | with_reducible rfl
    | (with_reducible refine (State.envCut_srams _ _ _ _).trans ?_)
    | (with_reducible refine (State.resetParser_srams _ _ _).trans ?_)
    | (with_reducible refine (srams_foldl _ (fun _ _ => ?_) _ _).trans ?_)
    | (with_reducible refine (sram_foldl _ (fun _ _ => ?_) _ _).trans ?_)

theorem State.stopTx_srams (s : State) (c : Fin 4) : State.srams (State.stopTx s c) = State.srams s := by
  unfold State.stopTx
  try dsimp only
  repeat' first
    | with_reducible rfl
    | (with_reducible refine (State.complete_srams _ _ _ _).trans ?_)
    | (with_reducible refine (State.endTx_srams _ _ _).trans ?_)
    | (with_reducible refine (State.modTx_srams _ _ _).trans ?_)
    | (with_reducible refine (release_srams _ _ _).trans ?_)
    | (with_reducible refine srams_ite ?_ ?_)
    | (with_reducible refine (srams_foldl _ (fun _ _ => ?_) _ _).trans ?_)
    | (with_reducible refine (sram_foldl _ (fun _ _ => ?_) _ _).trans ?_)
    | simp only [srams_mk, sramsOf_slices]
    | split

theorem State.stopKeys_srams (s : State) (c : Fin 4) : State.srams (State.stopKeys s c) = State.srams s := by
  unfold State.stopKeys
  try dsimp only
  repeat' first
    | with_reducible rfl
    | (with_reducible refine (State.complete_srams _ _ _ _).trans ?_)
    | (with_reducible refine (srams_modSl _ _ _ (fun _ => ?_)).trans ?_)
    | (with_reducible refine (srams_foldl _ (fun _ _ => ?_) _ _).trans ?_)
    | (with_reducible refine (sram_foldl _ (fun _ _ => ?_) _ _).trans ?_)
    | simp only [srams_mk, sramsOf_slices]
    | split

theorem State.stopBlocks_srams (s : State) (c : Fin 4) : State.srams (State.stopBlocks s c) = State.srams s := by
  unfold State.stopBlocks
  try dsimp only
  repeat' first
    | with_reducible rfl
    | (with_reducible refine (State.calStop_srams _ _).trans ?_)
    | (with_reducible refine (State.clearArea_srams _ _ _).trans ?_)
    | (with_reducible refine (State.keepGrant_srams _ _).trans ?_)
    | (with_reducible refine (State.stopAf_srams _ _).trans ?_)
    | (with_reducible refine (State.stopBursts_srams _ _).trans ?_)
    | (with_reducible refine (State.stopContexts_srams _ _).trans ?_)
    | (with_reducible refine (State.stopKeys_srams _ _).trans ?_)
    | (with_reducible refine (State.stopRecords_srams _ _).trans ?_)
    | (with_reducible refine (State.stopTx_srams _ _).trans ?_)
    | (with_reducible refine srams_ite ?_ ?_)
    | split

theorem State.restoreActive_srams (s : State) (c : Fin 4) : State.srams (State.restoreActive s c) = State.srams s := by
  unfold State.restoreActive
  try dsimp only
  repeat' first
    | with_reducible rfl
    | (with_reducible refine (srams_modSl _ _ _ (fun _ => ?_)).trans ?_)
    | (with_reducible refine srams_ite ?_ ?_)
    | (with_reducible refine sram_ite ?_ ?_)
    | simp only [srams_mk, sramsOf_slices]
    | split

theorem State.bayChange_srams (s : State) : State.srams (State.bayChange s) = State.srams s := by
  unfold State.bayChange
  try dsimp only
  repeat' first
    | with_reducible rfl
    | simp only [srams_mk, sramsOf_slices]

theorem State.clearWindow_srams (s : State) (c : Fin 4) : State.srams (State.clearWindow s c) = State.srams s := by
  unfold State.clearWindow
  try dsimp only
  repeat' first
    | with_reducible rfl
    | (with_reducible refine srams_ite ?_ ?_)
    | simp only [srams_mk, sramsOf_slices]
    | split

theorem State.enterFaulted_srams (s : State) (c : Fin 4) (escalated : Bool) : State.srams (State.enterFaulted s c escalated) = State.srams s := by
  unfold State.enterFaulted
  try dsimp only
  repeat' first
    | with_reducible rfl
    | (with_reducible refine (State.dropTiming_srams _).trans ?_)
    | (with_reducible refine (State.recheckOffers_srams _).trans ?_)
    | (with_reducible refine (srams_modSl _ _ _ (fun _ => ?_)).trans ?_)
    | (with_reducible refine srams_ite ?_ ?_)
    | (with_reducible refine sram_ite ?_ ?_)
    | simp only [srams_mk, sramsOf_slices]
    | split

theorem State.enterDrain_srams (s : State) (c : Fin 4) : State.srams (State.enterDrain s c) = State.srams s := by
  unfold State.enterDrain
  try dsimp only
  repeat' first
    | with_reducible rfl
    | (with_reducible refine (srams_modSl _ _ _ (fun _ => ?_)).trans ?_)
    | simp only [srams_mk, sramsOf_slices]

theorem State.resetFault_srams (s : State) (c : Fin 4) : State.srams (State.resetFault s c) = State.srams s := by
  unfold State.resetFault
  try dsimp only
  repeat' first
    | with_reducible rfl
    | (with_reducible refine (State.fault_srams _ _).trans ?_)
    | (with_reducible refine (State.freeWord_srams _).trans ?_)

theorem State.enterCalibrating_srams (s : State) (c : Fin 4) (pages : List Nat) : State.srams (State.enterCalibrating s c pages) = State.srams s := by
  unfold State.enterCalibrating
  try dsimp only
  repeat' first
    | with_reducible rfl
    | (with_reducible refine (Slice.loadKeys_srams _).trans ?_)
    | (with_reducible refine (ask_srams _ _ _).trans ?_)
    | (with_reducible refine (srams_modSl _ _ _ (fun _ => ?_)).trans ?_)
    | (with_reducible refine srams_ite ?_ ?_)
    | (with_reducible refine sram_ite ?_ ?_)
    | simp only [srams_mk, sramsOf_slices]
    | split

theorem State.dropCal_srams (s : State) (c : Fin 4) (lost : Bool) : State.srams (State.dropCal s c lost) = State.srams s := by
  unfold State.dropCal
  try dsimp only
  repeat' first
    | with_reducible rfl
    | (with_reducible refine srams_ite ?_ ?_)
    | simp only [srams_mk, sramsOf_slices]
    | split

theorem State.calUse_srams (s : State) (c : Fin 4) (kind : Nat) (v : List Int) : State.srams (State.calUse s c kind v) = State.srams s := by
  unfold State.calUse
  try dsimp only
  repeat' first
    | with_reducible rfl
    | (with_reducible refine (State.modAfe_srams _ _ _).trans ?_)
    | (with_reducible refine (srams_modSl _ _ _ (fun _ => ?_)).trans ?_)
    | (with_reducible refine srams_ite ?_ ?_)
    | (with_reducible refine sram_ite ?_ ?_)
    | simp only [srams_mk, sramsOf_slices]
    | split

theorem State.startCal_srams (s : State) (c : Fin 4) (o : CalOutcome) : State.srams (State.startCal s c o) = State.srams s := by
  unfold State.startCal
  try dsimp only
  repeat' first
    | with_reducible rfl
    | (with_reducible refine (State.calStoreWrite_srams _ _ _ _ _).trans ?_)
    | (with_reducible refine (State.calUse_srams _ _ _ _).trans ?_)
    | (with_reducible refine (State.fault_srams _ _).trans ?_)
    | (with_reducible refine (State.stage_srams _ _ _).trans ?_)
    | (with_reducible refine srams_ite ?_ ?_)
    | simp only [srams_mk, sramsOf_slices]
    | split

theorem State.startForme_srams (s : State) (c : Fin 4) : State.srams (State.startForme s c) = State.srams s := by
  unfold State.startForme
  try dsimp only
  repeat' first
    | with_reducible rfl
    | (with_reducible refine (State.dropRules_srams _ _).trans ?_)
    | (with_reducible refine (ask_srams _ _ _).trans ?_)
    | (with_reducible refine (srams_modSl _ _ _ (fun _ => ?_)).trans ?_)
    | (with_reducible refine srams_ite ?_ ?_)
    | (with_reducible refine sram_ite ?_ ?_)
    | simp only [srams_mk, sramsOf_slices]
    | split

end Sys2Proof.Machine
end

