-- ==== Sys2Proof/Laws/Frames/SramsErrors.lean ====
section
/-! SUPPORT. What the definitions of this file leave unchanged of the slice SRAMs, one lemma each. -/

set_option Elab.async false

namespace Sys2Proof.Machine

open Sys2Proof

theorem State.modErr_srams (s : State) (c : Fin 4) (f : Err → Err) : State.srams (State.modErr s c f) = State.srams s := by
  unfold State.modErr
  try dsimp only
  repeat' first
    | with_reducible rfl
    | (with_reducible refine (srams_modSl _ _ _ (fun _ => ?_)).trans ?_)
    | simp only [srams_mk, sramsOf_slices]

theorem State.faultTuning_srams (s : State) (c : Fin 4) (t : Nat) : State.srams (State.faultTuning s c t) = State.srams s := by
  unfold State.faultTuning
  try dsimp only
  repeat' first
    | with_reducible rfl
    | (with_reducible refine (Slice.modTun_srams _ _ _).trans ?_)
    | (with_reducible refine (State.endSamples_srams _ _ _).trans ?_)
    | (with_reducible refine (srams_modSl _ _ _ (fun _ => ?_)).trans ?_)
    | (with_reducible refine srams_ite ?_ ?_)
    | (with_reducible refine sram_ite ?_ ?_)
    | simp only [srams_mk, sramsOf_slices]
    | split

theorem State.faultInst_srams (s : State) (c : Fin 4) (n : Fin 48) : State.srams (State.faultInst s c n) = State.srams s := by
  unfold State.faultInst
  try dsimp only
  repeat' first
    | with_reducible rfl
    | (with_reducible refine (Slice.modInst_srams _ _ _).trans ?_)
    | (with_reducible refine (State.abortBurst_srams _ _ _ _).trans ?_)
    | (with_reducible refine (State.closeAudio_srams _ _ _).trans ?_)
    | (with_reducible refine (State.leftTrack_srams _ _ _).trans ?_)
    | (with_reducible refine (srams_modSl _ _ _ (fun _ => ?_)).trans ?_)
    | (with_reducible refine srams_ite ?_ ?_)
    | (with_reducible refine sram_ite ?_ ?_)
    | simp only [srams_mk, sramsOf_slices]
    | split

theorem State.faultCtx_srams (s : State) (c : Fin 4) (k : Fin 256) : State.srams (State.faultCtx s c k) = State.srams s := by
  unfold State.faultCtx
  try dsimp only
  repeat' first
    | with_reducible rfl
    | (with_reducible refine (Slice.modCtx_srams _ _ _).trans ?_)
    | (with_reducible refine (State.envCut_srams _ _ _ _).trans ?_)
    | (with_reducible refine (State.resetParser_srams _ _ _).trans ?_)
    | (with_reducible refine (srams_modSl _ _ _ (fun _ => ?_)).trans ?_)
    | (with_reducible refine srams_ite ?_ ?_)
    | (with_reducible refine sram_ite ?_ ?_)
    | simp only [srams_mk, sramsOf_slices]
    | split

theorem State.loseStaged_srams (s : State) (q : Fin 256) (first n : Nat) : State.srams (State.loseStaged s q first n) = State.srams s := by
  unfold State.loseStaged
  try dsimp only
  repeat' first
    | with_reducible rfl
    | (with_reducible refine (State.countLost_srams _ _ _).trans ?_)
    | (with_reducible refine (modQ_srams _ _ _).trans ?_)
    | simp only [srams_mk, sramsOf_slices]
    | split

theorem State.blockGap_srams (s : State) (c : Fin 4) (q : Nat) (es : List SrcCount) (ts : Nat) : State.srams (State.blockGap s c q es ts) = State.srams s := by
  unfold State.blockGap
  try dsimp only
  repeat' first
    | with_reducible rfl
    | (with_reducible refine (State.gap_srams _ _ _ _ _ _).trans ?_)
    | (with_reducible refine srams_ite ?_ ?_)
    | split

theorem State.resetTuning_srams (s : State) (c : Fin 4) (f : Forme) (t : Nat) : State.srams (State.resetTuning s c f t) = State.srams s := by
  unfold State.resetTuning
  try dsimp only
  repeat' first
    | with_reducible rfl
    | (with_reducible refine (Slice.modTun_srams _ _ _).trans ?_)
    | (with_reducible refine (State.blockGap_srams _ _ _ _ _).trans ?_)
    | (with_reducible refine (State.endSamples_srams _ _ _).trans ?_)
    | (with_reducible refine (srams_modSl _ _ _ (fun _ => ?_)).trans ?_)
    | (with_reducible refine srams_ite ?_ ?_)
    | (with_reducible refine sram_ite ?_ ?_)
    | simp only [srams_mk, sramsOf_slices]
    | split

theorem State.gapFed_srams (s : State) (c : Fin 4) (f : Forme) (n : Nat) : State.srams (State.gapFed s c f n) = State.srams s := by
  unfold State.gapFed
  try dsimp only
  repeat' first
    | with_reducible rfl
    | (with_reducible refine (State.blockGap_srams _ _ _ _ _).trans ?_)
    | (with_reducible refine (State.gap_srams _ _ _ _ _ _).trans ?_)
    | (with_reducible refine srams_ite ?_ ?_)
    | (with_reducible refine (srams_foldl _ (fun _ _ => ?_) _ _).trans ?_)
    | (with_reducible refine (sram_foldl _ (fun _ _ => ?_) _ _).trans ?_)
    | simp only [srams_mk, sramsOf_slices]
    | split

theorem State.resetInst_srams (s : State) (c : Fin 4) (f : Forme) (r : InstRef) : State.srams (State.resetInst s c f r) = State.srams s := by
  unfold State.resetInst
  try dsimp only
  repeat' first
    | with_reducible rfl
    | (with_reducible refine (State.abortBurst_srams _ _ _ _).trans ?_)
    | (with_reducible refine (State.closeAudio_srams _ _ _).trans ?_)
    | (with_reducible refine (State.gapFed_srams _ _ _ _).trans ?_)
    | (with_reducible refine (State.toSearch_srams _ _ _).trans ?_)
    | (with_reducible refine srams_ite ?_ ?_)
    | simp only [srams_mk, sramsOf_slices]
    | split

theorem State.resetTrellis_srams (s : State) (c : Fin 4) (f : Forme) (parity : Bool) : State.srams (State.resetTrellis s c f parity) = State.srams s := by
  unfold State.resetTrellis
  try dsimp only
  repeat' first
    | with_reducible rfl
    | (with_reducible refine (Slice.modDemod_srams _ _ _).trans ?_)
    | (with_reducible refine (State.gapFed_srams _ _ _ _).trans ?_)
    | (with_reducible refine (State.loseBurst_srams _ _ _ _).trans ?_)
    | (with_reducible refine (srams_modSl _ _ _ (fun _ => ?_)).trans ?_)
    | (with_reducible refine srams_ite ?_ ?_)
    | (with_reducible refine (srams_foldl _ (fun _ _ => ?_) _ _).trans ?_)
    | (with_reducible refine (sram_foldl _ (fun _ _ => ?_) _ _).trans ?_)
    | (with_reducible refine sram_ite ?_ ?_)
    | simp only [srams_mk, sramsOf_slices]
    | split

theorem State.resetAcquirer_srams (s : State) (c : Fin 4) (f : Forme) : State.srams (State.resetAcquirer s c f) = State.srams s := by
  unfold State.resetAcquirer
  try dsimp only
  repeat' first
    | with_reducible rfl
    | (with_reducible refine (State.abortBurst_srams _ _ _ _).trans ?_)
    | (with_reducible refine (State.gapFed_srams _ _ _ _).trans ?_)
    | (with_reducible refine (State.modAcquirer_srams _ _ _ _).trans ?_)
    | (with_reducible refine (srams_foldl _ (fun _ _ => ?_) _ _).trans ?_)
    | (with_reducible refine (sram_foldl _ (fun _ _ => ?_) _ _).trans ?_)
    | simp only [srams_mk, sramsOf_slices]
    | split

theorem State.resetServices_srams (s : State) (c : Fin 4) (f : Forme) : State.srams (State.resetServices s c f) = State.srams s := by
  unfold State.resetServices
  try dsimp only
  repeat' first
    | with_reducible rfl
    | (with_reducible refine (Slice.modCtx_srams _ _ _).trans ?_)
    | (with_reducible refine (State.envCut_srams _ _ _ _).trans ?_)
    | (with_reducible refine (State.gap_srams _ _ _ _ _ _).trans ?_)
    | (with_reducible refine (State.recheckOffers_srams _).trans ?_)
    | (with_reducible refine (State.reroute_srams _ _).trans ?_)
    | (with_reducible refine (State.resetParser_srams _ _ _).trans ?_)
    | (with_reducible refine (State.stopAf_srams _ _).trans ?_)
    | (with_reducible refine (srams_modSl _ _ _ (fun _ => ?_)).trans ?_)
    | (with_reducible refine srams_ite ?_ ?_)
    | (with_reducible refine (srams_foldl _ (fun _ _ => ?_) _ _).trans ?_)
    | (with_reducible refine (sram_foldl _ (fun _ _ => ?_) _ _).trans ?_)
    | (with_reducible refine sram_ite ?_ ?_)
    | simp only [srams_mk, sramsOf_slices]
    | split

theorem State.resetMac_srams (s : State) (c : Fin 4) (f : Forme) : State.srams (State.resetMac s c f) = State.srams s := by
  unfold State.resetMac
  try dsimp only
  repeat' first
    | with_reducible rfl
    | (with_reducible refine (State.endOp_srams _ _ _ _).trans ?_)
    | (with_reducible refine (State.envCut_srams _ _ _ _).trans ?_)
    | (with_reducible refine (State.gap_srams _ _ _ _ _ _).trans ?_)
    | (with_reducible refine (srams_modSl _ _ _ (fun _ => ?_)).trans ?_)
    | (with_reducible refine (srams_foldl _ (fun _ _ => ?_) _ _).trans ?_)
    | (with_reducible refine (sram_foldl _ (fun _ _ => ?_) _ _).trans ?_)
    | simp only [srams_mk, sramsOf_slices]

theorem State.resetQueues_srams (s : State) (c : Fin 4) (f : Forme) : State.srams (State.resetQueues s c f) = State.srams s := by
  unfold State.resetQueues
  try dsimp only
  repeat' first
    | with_reducible rfl
    | (with_reducible refine (State.gap_srams _ _ _ _ _ _).trans ?_)
    | (with_reducible refine (State.loseStaged_srams _ _ _ _).trans ?_)
    | (with_reducible refine srams_ite ?_ ?_)
    | (with_reducible refine (srams_foldl _ (fun _ _ => ?_) _ _).trans ?_)
    | (with_reducible refine (sram_foldl _ (fun _ _ => ?_) _ _).trans ?_)
    | split

theorem State.resetTx_srams (s : State) (c : Fin 4) (f : Forme) : State.srams (State.resetTx s c f) = State.srams s := by
  unfold State.resetTx
  try dsimp only
  repeat' first
    | with_reducible rfl
    | (with_reducible refine (State.blockGap_srams _ _ _ _ _).trans ?_)
    | (with_reducible refine (State.modTx_srams _ _ _).trans ?_)
    | (with_reducible refine (State.stopTx_srams _ _).trans ?_)
    | (with_reducible refine (State.txAbort_srams _ _ _).trans ?_)
    | (with_reducible refine srams_ite ?_ ?_)
    | simp only [srams_mk, sramsOf_slices]
    | split

theorem State.resetAudio_srams (s : State) (c : Fin 4) (f : Forme) : State.srams (State.resetAudio s c f) = State.srams s := by
  unfold State.resetAudio
  try dsimp only
  repeat' first
    | with_reducible rfl
    | (with_reducible refine (State.blockGap_srams _ _ _ _ _).trans ?_)
    | (with_reducible refine (State.endCapture_srams _ _).trans ?_)
    | (with_reducible refine (srams_modSl _ _ _ (fun _ => ?_)).trans ?_)
    | (with_reducible refine srams_ite ?_ ?_)
    | (with_reducible refine sram_ite ?_ ?_)
    | simp only [srams_mk, sramsOf_slices]
    | split

theorem State.resetBlock_srams (s : State) (c : Fin 4) (b : SliceBlock) (event : Nat) : State.srams (State.resetBlock s c b event) = State.srams s := by
  unfold State.resetBlock
  try dsimp only
  repeat' first
    | with_reducible rfl
    | (with_reducible refine (State.calCut_srams _ _ _).trans ?_)
    | (with_reducible refine (State.modErr_srams _ _ _).trans ?_)
    | (with_reducible refine (State.resetAcquirer_srams _ _ _).trans ?_)
    | (with_reducible refine (State.resetAudio_srams _ _ _).trans ?_)
    | (with_reducible refine (State.resetInst_srams _ _ _ _).trans ?_)
    | (with_reducible refine (State.resetMac_srams _ _ _).trans ?_)
    | (with_reducible refine (State.resetQueues_srams _ _ _).trans ?_)
    | (with_reducible refine (State.resetServices_srams _ _ _).trans ?_)
    | (with_reducible refine (State.resetTrellis_srams _ _ _ _).trans ?_)
    | (with_reducible refine (State.resetTuning_srams _ _ _ _).trans ?_)
    | (with_reducible refine (State.resetTx_srams _ _ _).trans ?_)
    | (with_reducible refine (srams_modSl _ _ _ (fun _ => ?_)).trans ?_)
    | (with_reducible refine srams_ite ?_ ?_)
    | (with_reducible refine (srams_foldl _ (fun _ _ => ?_) _ _).trans ?_)
    | (with_reducible refine (sram_foldl _ (fun _ _ => ?_) _ _).trans ?_)
    | (with_reducible refine sram_ite ?_ ?_)
    | simp only [srams_mk, sramsOf_slices]
    | split

theorem State.failCand_srams (s : State) (c : Fin 4) (t : Fin 32) : State.srams (State.failCand s c t) = State.srams s := by
  unfold State.failCand
  try dsimp only
  repeat' first
    | with_reducible rfl
    | (with_reducible refine (Slice.fillAll_srams _ _ _).trans ?_)
    | (with_reducible refine (Slice.stopCand_srams _ _).trans ?_)
    | (with_reducible refine (State.abortBurst_srams _ _ _ _).trans ?_)
    | (with_reducible refine (State.leftTrack_srams _ _ _).trans ?_)
    | (with_reducible refine (srams_modSl _ _ _ (fun _ => ?_)).trans ?_)

theorem State.sramData_srams (s : State) (c : Fin 4) (off size : Nat) : State.srams (State.sramData s c off size).2 = State.srams s := by
  unfold State.sramData
  try dsimp only
  repeat' first
    | with_reducible rfl
    | (with_reducible refine srams_ite ?_ ?_)
    | simp only [srams_mk, sramsOf_slices]
    | split

theorem State.pageFault_srams (s : State) (c : Fin 4) (off : Nat) (kind tuning ctx : Nat) : State.srams (State.pageFault s c off kind tuning ctx) = State.srams s := by
  unfold State.pageFault
  try dsimp only
  repeat' first
    | with_reducible rfl
    | (with_reducible refine (State.fault_srams _ _).trans ?_)

theorem State.hostBadRead_srams (s : State) (c : Fin 4) (off size : Nat) : State.srams (State.hostBadRead s c off size) = State.srams s := by
  unfold State.hostBadRead
  try dsimp only
  repeat' first
    | with_reducible rfl
    | (with_reducible refine (State.sramData_srams _ _ _ _).trans ?_)
    | (with_reducible refine srams_ite ?_ ?_)
    | simp only [srams_mk, sramsOf_slices]
    | split

theorem State.coefBad_srams (s : State) (c : Fin 4) (t b : Nat) : State.srams (State.coefBad s c t b) = State.srams s := by
  unfold State.coefBad
  try dsimp only
  repeat' first
    | with_reducible rfl
    | (with_reducible refine (Slice.modTun_srams _ _ _).trans ?_)
    | (with_reducible refine (State.fault_srams _ _).trans ?_)
    | (with_reducible refine (State.faultTuning_srams _ _ _).trans ?_)
    | (with_reducible refine (State.modErr_srams _ _ _).trans ?_)
    | (with_reducible refine (srams_modSl _ _ _ (fun _ => ?_)).trans ?_)
    | (with_reducible refine srams_ite ?_ ?_)
    | (with_reducible refine sram_ite ?_ ?_)
    | simp only [srams_mk, sramsOf_slices]
    | split

theorem State.coefUpset_srams (s : State) (c : Fin 4) (t : Fin 32) (b : Fin 2) (n : Nat) (m : BitVec 20) : State.srams (State.coefUpset s c t b n m) = State.srams s := by
  unfold State.coefUpset
  try dsimp only
  repeat' first
    | with_reducible rfl
    | (with_reducible refine (Slice.modTun_srams _ _ _).trans ?_)
    | (with_reducible refine (srams_modSl _ _ _ (fun _ => ?_)).trans ?_)
    | simp only [srams_mk, sramsOf_slices]

theorem State.writeInject_srams (s : State) (c : Fin 4) (v : Word) : State.srams (State.writeInject s c v) = State.srams s := by
  unfold State.writeInject
  try dsimp only
  repeat' first
    | with_reducible rfl
    | (with_reducible refine (State.modErr_srams _ _ _).trans ?_)
    | (with_reducible refine (State.recordAccess_srams _ _ _ _).trans ?_)
    | (with_reducible refine srams_ite ?_ ?_)
    | simp only [srams_mk, sramsOf_slices]
    | split

end Sys2Proof.Machine
end

