-- ==== Sys2Proof/Laws/Frames/SramsBays.lean ====
section
/-! SUPPORT. What the definitions of this file leave unchanged of the slice SRAMs, one lemma each. -/

set_option Elab.async false

namespace Sys2Proof.Machine

open Sys2Proof

theorem State.ceaseQueue_srams (s : State) (q : Fin 256) : State.srams (State.ceaseQueue s q) = State.srams s := by
  unfold State.ceaseQueue
  try dsimp only
  repeat' first
    | with_reducible rfl
    | (with_reducible refine (State.closeBuf_srams _ _ _).trans ?_)
    | (with_reducible refine (State.countLost_srams _ _ _).trans ?_)
    | (with_reducible refine (modQ_srams _ _ _).trans ?_)
    | simp only [srams_mk, sramsOf_slices]
    | split

theorem State.ceaseQueues_srams (s : State) (c : Fin 4) : State.srams (State.ceaseQueues s c) = State.srams s := by
  unfold State.ceaseQueues
  try dsimp only
  repeat' first
    | with_reducible rfl
    | (with_reducible refine (State.ceaseQueue_srams _ _).trans ?_)
    | (with_reducible refine (modQ_srams _ _ _).trans ?_)
    | (with_reducible refine srams_ite ?_ ?_)
    | (with_reducible refine (srams_foldl _ (fun _ _ => ?_) _ _).trans ?_)
    | (with_reducible refine (sram_foldl _ (fun _ _ => ?_) _ _).trans ?_)
    | split

theorem State.releaseSlice_srams (s : State) (c : Fin 4) : State.srams (State.releaseSlice s c) = State.srams s := by
  unfold State.releaseSlice
  try dsimp only
  repeat' first
    | with_reducible rfl
    | (with_reducible refine (releaseAll_srams _ _).trans ?_)
    | simp only [srams_mk, sramsOf_slices]

theorem State.dropEvents_srams (s : State) (c : Fin 4) : State.srams (State.dropEvents s c) = State.srams s := by
  unfold State.dropEvents
  try dsimp only
  repeat' first
    | with_reducible rfl
    | (with_reducible refine (State.dropRules_srams _ _).trans ?_)

theorem State.askBase_srams (s : State) (c : Fin 4) : State.srams (State.askBase s c) = State.srams s := by
  unfold State.askBase
  try dsimp only
  repeat' first
    | with_reducible rfl
    | (with_reducible refine (ask_srams _ _ _).trans ?_)
    | simp only [srams_mk, sramsOf_slices]

theorem State.identify_srams (s : State) (c : Fin 4) : State.srams (State.identify s c) = State.srams s := by
  unfold State.identify
  try dsimp only
  repeat' first
    | with_reducible rfl
    | (with_reducible refine (State.askBase_srams _ _).trans ?_)
    | (with_reducible refine (State.fault_srams _ _).trans ?_)
    | (with_reducible refine (srams_modSl _ _ _ (fun _ => ?_)).trans ?_)
    | (with_reducible refine srams_ite ?_ ?_)
    | (with_reducible refine sram_ite ?_ ?_)
    | simp only [srams_mk, sramsOf_slices]
    | split

theorem State.bayOn_srams (s : State) (c : Fin 4) : State.srams (State.bayOn s c) = State.srams s := by
  unfold State.bayOn
  try dsimp only
  repeat' first
    | with_reducible rfl
    | (with_reducible refine (State.askBase_srams _ _).trans ?_)
    | (with_reducible refine (srams_modSl _ _ _ (fun _ => ?_)).trans ?_)
    | (with_reducible refine srams_ite ?_ ?_)
    | (with_reducible refine sram_ite ?_ ?_)
    | simp only [srams_mk, sramsOf_slices]
    | split

theorem State.baseRefused_srams (s : State) (c : Fin 4) : State.srams (State.baseRefused s c) = State.srams s := by
  unfold State.baseRefused
  try dsimp only
  repeat' first
    | with_reducible rfl
    | (with_reducible refine (srams_modSl _ _ _ (fun _ => ?_)).trans ?_)
    | simp only [srams_mk, sramsOf_slices]

end Sys2Proof.Machine
end

