-- ==== Sys2Proof/Laws/Frames/SramsPower.lean ====
section
/-! SUPPORT. What the definitions of this file leave unchanged of the slice SRAMs, one lemma each. -/

set_option Elab.async false

namespace Sys2Proof.Machine

open Sys2Proof

theorem State.modPwr_srams (s : State) (f : Pwr → Pwr) : State.srams (State.modPwr s f) = State.srams s := by
  unfold State.modPwr
  try dsimp only
  repeat' first
    | with_reducible rfl
    | simp only [srams_mk, sramsOf_slices]

theorem State.pwrEvent_srams (s : State) (i : Nat) : State.srams (State.pwrEvent s i) = State.srams s := by
  unfold State.pwrEvent
  try dsimp only
  repeat' first
    | with_reducible rfl
    | (with_reducible refine (State.modPwr_srams _ _).trans ?_)
    | simp only [srams_mk, sramsOf_slices]

theorem State.rxRefused_srams (s : State) (c : Fin 4) : State.srams (State.rxRefused s c) = State.srams s := by
  unfold State.rxRefused
  try dsimp only
  repeat' first
    | with_reducible rfl
    | (with_reducible refine (State.baseRefused_srams _ _).trans ?_)
    | (with_reducible refine (State.bootFault_srams _ _ _ _).trans ?_)
    | (with_reducible refine (State.keepGrant_srams _ _).trans ?_)
    | (with_reducible refine (State.lockDone_srams _ _ _ _).trans ?_)
    | (with_reducible refine (State.modPwr_srams _ _).trans ?_)
    | (with_reducible refine (State.setArea_srams _ _ _).trans ?_)
    | (with_reducible refine (srams_modSl _ _ _ (fun _ => ?_)).trans ?_)
    | simp only [srams_mk, sramsOf_slices]
    | split

theorem State.refusedReq_srams (s : State) (i : Nat) : State.srams (State.refusedReq s i) = State.srams s := by
  unfold State.refusedReq
  try dsimp only
  repeat' first
    | with_reducible rfl
    | (with_reducible refine (State.calFinish_srams _ _ _ _ _ _ _ _ _ _ _).trans ?_)
    | (with_reducible refine (State.modAfe_srams _ _ _).trans ?_)
    | (with_reducible refine (State.modPwr_srams _ _).trans ?_)
    | (with_reducible refine (State.portDown_srams _ _).trans ?_)
    | (with_reducible refine (State.pwrEvent_srams _ _).trans ?_)
    | (with_reducible refine (State.rxRefused_srams _ _).trans ?_)
    | (with_reducible refine srams_ite ?_ ?_)
    | simp only [srams_mk, sramsOf_slices]
    | split

theorem State.refuse_srams (s : State) (i : Nat) : State.srams (State.refuse s i) = State.srams s := by
  unfold State.refuse
  try dsimp only
  repeat' first
    | with_reducible rfl
    | (with_reducible refine (State.modPwr_srams _ _).trans ?_)
    | (with_reducible refine (State.powerEvent_srams _ _ _ _ _).trans ?_)
    | (with_reducible refine (State.refusedReq_srams _ _).trans ?_)
    | simp only [srams_mk, sramsOf_slices]

theorem State.checkOver_srams (s : State) (was : Nat) : State.srams (State.checkOver s was) = State.srams s := by
  unfold State.checkOver
  try dsimp only
  repeat' first
    | with_reducible rfl
    | (with_reducible refine (State.powerEvent_srams _ _ _ _ _).trans ?_)
    | (with_reducible refine (State.pwrEvent_srams _ _).trans ?_)
    | (with_reducible refine srams_ite ?_ ?_)
    | split

theorem State.setClass_srams (s : State) (cls : InputClass) (event kind : Nat) : State.srams (State.setClass s cls event kind) = State.srams s := by
  unfold State.setClass
  try dsimp only
  repeat' first
    | with_reducible rfl
    | (with_reducible refine (State.checkOver_srams _ _).trans ?_)
    | (with_reducible refine (State.modPwr_srams _ _).trans ?_)
    | (with_reducible refine (State.powerEvent_srams _ _ _ _ _).trans ?_)
    | (with_reducible refine (State.pwrEvent_srams _ _).trans ?_)
    | simp only [srams_mk, sramsOf_slices]

theorem State.txStarve_srams (s : State) (c : Fin 4) : State.srams (State.txStarve s c) = State.srams s := by
  unfold State.txStarve
  try dsimp only
  repeat' first
    | with_reducible rfl
    | (with_reducible refine (State.endTx_srams _ _ _).trans ?_)
    | simp only [srams_mk, sramsOf_slices]
    | split

theorem State.pwrReject_srams (s : State) : State.srams (State.pwrReject s) = State.srams s := by
  unfold State.pwrReject
  try dsimp only
  repeat' first
    | with_reducible rfl
    | (with_reducible refine (State.pwrEvent_srams _ _).trans ?_)

theorem State.writeBudget_srams (s : State) (v : Word) : State.srams (State.writeBudget s v) = State.srams s := by
  unfold State.writeBudget
  try dsimp only
  repeat' first
    | with_reducible rfl
    | (with_reducible refine (State.checkOver_srams _ _).trans ?_)
    | (with_reducible refine (State.modPwr_srams _ _).trans ?_)
    | (with_reducible refine (State.powerEvent_srams _ _ _ _ _).trans ?_)
    | (with_reducible refine (State.pwrReject_srams _).trans ?_)
    | (with_reducible refine srams_ite ?_ ?_)
    | simp only [srams_mk, sramsOf_slices]
    | split

theorem State.writeAux_srams (s : State) (v : Word) : State.srams (State.writeAux s v) = State.srams s := by
  unfold State.writeAux
  try dsimp only
  repeat' first
    | with_reducible rfl
    | (with_reducible refine (State.modPwr_srams _ _).trans ?_)
    | (with_reducible refine (State.pwrReject_srams _).trans ?_)
    | (with_reducible refine (ask_srams _ _ _).trans ?_)
    | (with_reducible refine (releaseAll_srams _ _).trans ?_)
    | (with_reducible refine srams_ite ?_ ?_)
    | simp only [srams_mk, sramsOf_slices]
    | split

end Sys2Proof.Machine
end

