-- ==== Sys2Proof/Laws/Frames/SramsFirmware.lean ====
section
/-! SUPPORT. What the definitions of this file leave unchanged of the slice SRAMs, one lemma each. -/

set_option Elab.async false

namespace Sys2Proof.Machine

open Sys2Proof

theorem State.writeAccept_srams (s : State) (w : Nat) (v : Word) : State.srams (State.writeAccept s w v) = State.srams s := by
  unfold State.writeAccept
  try dsimp only
  repeat' first
    | with_reducible rfl
    | (with_reducible refine srams_ite ?_ ?_)
    | simp only [srams_mk, sramsOf_slices]
    | split

theorem State.modMod_srams (s : State) (f : Mod → Mod) : State.srams (State.modMod s f) = State.srams s := by
  unfold State.modMod
  try dsimp only
  repeat' first
    | with_reducible rfl
    | simp only [srams_mk, sramsOf_slices]

theorem State.loadImage_srams (s : State) (cmd : Command) (b : List Byte) (first : Bool) : State.srams (State.loadImage s cmd b first) = State.srams s := by
  unfold State.loadImage
  try dsimp only
  repeat' first
    | with_reducible rfl
    | (with_reducible refine (State.complete_srams _ _ _ _).trans ?_)
    | (with_reducible refine (State.keep_srams _ _).trans ?_)
    | (with_reducible refine (State.modMod_srams _ _).trans ?_)
    | (with_reducible refine (State.queueJob_srams _ _).trans ?_)
    | (with_reducible refine srams_ite ?_ ?_)
    | simp only [srams_mk, sramsOf_slices]
    | split

theorem State.swapEnd_srams (s : State) (cmd : Option CmdRef) (status : Nat) (result : List Byte) : State.srams (State.swapEnd s cmd status result) = State.srams s := by
  unfold State.swapEnd
  try dsimp only
  repeat' first
    | with_reducible rfl
    | (with_reducible refine (State.complete_srams _ _ _ _).trans ?_)
    | simp only [srams_mk, sramsOf_slices]
    | split

theorem State.startSwap_srams (s : State) (cmd : Option CmdRef) : State.srams (State.startSwap s cmd) = State.srams s := by
  unfold State.startSwap
  try dsimp only
  repeat' first
    | with_reducible rfl
    | (with_reducible refine (State.modMod_srams _ _).trans ?_)
    | (with_reducible refine (State.swapEnd_srams _ _ _ _).trans ?_)
    | (with_reducible refine srams_ite ?_ ?_)
    | simp only [srams_mk, sramsOf_slices]
    | split

theorem State.afterSwap_srams (s : State) : State.srams (State.afterSwap s) = State.srams s := by
  unfold State.afterSwap
  try dsimp only
  repeat' first
    | with_reducible rfl
    | (with_reducible refine (State.deliverDone_srams _ _ _).trans ?_)
    | (with_reducible refine (State.modMod_srams _ _).trans ?_)
    | (with_reducible refine (State.stage_srams _ _ _).trans ?_)
    | (with_reducible refine srams_ite ?_ ?_)
    | (with_reducible refine (srams_foldl _ (fun _ _ => ?_) _ _).trans ?_)
    | (with_reducible refine (sram_foldl _ (fun _ _ => ?_) _ _).trans ?_)
    | simp only [srams_mk, sramsOf_slices]
    | split

theorem State.pushStored_srams (s : State) (id : Word) (src : Nat) : State.srams (State.pushStored s id src) = State.srams s := by
  unfold State.pushStored
  try dsimp only
  repeat' first
    | with_reducible rfl
    | (with_reducible refine (State.answer_srams _ _ _ _ _).trans ?_)
    | (with_reducible refine (State.putTransfer_srams _ _).trans ?_)
    | (with_reducible refine (State.trkEvent_srams _ _).trans ?_)
    | simp only [srams_mk, sramsOf_slices]
    | split

theorem State.pushFailed_srams (s : State) (id : Word) (src : Nat) (status : Nat) : State.srams (State.pushFailed s id src status) = State.srams s := by
  unfold State.pushFailed
  try dsimp only
  repeat' first
    | with_reducible rfl
    | (with_reducible refine (State.answer_srams _ _ _ _ _).trans ?_)
    | (with_reducible refine (State.putTransfer_srams _ _).trans ?_)
    | simp only [srams_mk, sramsOf_slices]
    | split

theorem State.putCal_srams (s : State) (id kind : Nat) (v : List Int) (freq : Nat) : State.srams (State.putCal s id kind v freq) = State.srams s := by
  unfold State.putCal
  try dsimp only
  repeat' first
    | with_reducible rfl
    | simp only [srams_mk, sramsOf_slices]

theorem State.jobDone_srams (s : State) (j : FlashJob) : State.srams (State.jobDone s j) = State.srams s := by
  unfold State.jobDone
  try dsimp only
  repeat' first
    | with_reducible rfl
    | (with_reducible refine (State.complete_srams _ _ _ _).trans ?_)
    | (with_reducible refine (State.modMod_srams _ _).trans ?_)
    | (with_reducible refine (State.modPwr_srams _ _).trans ?_)
    | (with_reducible refine (State.pushFailed_srams _ _ _ _).trans ?_)
    | (with_reducible refine (State.pushStored_srams _ _ _).trans ?_)
    | (with_reducible refine (State.putCal_srams _ _ _ _ _).trans ?_)
    | (with_reducible refine (State.swapEnd_srams _ _ _ _).trans ?_)
    | (with_reducible refine srams_ite ?_ ?_)
    | simp only [srams_mk, sramsOf_slices]
    | split

end Sys2Proof.Machine
end

