-- ==== Sys2Proof/Laws/Frames/SramsStartup.lean ====
section
/-! SUPPORT. What the definitions of this file leave unchanged of the slice SRAMs, one lemma each. -/

set_option Elab.async false

namespace Sys2Proof.Machine

open Sys2Proof

theorem State.loadSaved_srams (s : State) (lost : List FlashObject) : State.srams (State.loadSaved s lost) = State.srams s := by
  unfold State.loadSaved
  try dsimp only
  repeat' first
    | with_reducible rfl
    | (with_reducible refine (State.modPwr_srams _ _).trans ?_)
    | (with_reducible refine srams_ite ?_ ?_)
    | simp only [srams_mk, sramsOf_slices]
    | split

end Sys2Proof.Machine
end

