-- ==== Sys2Proof/Laws/Frames/SramsAccess.lean ====
section
/-! SUPPORT. What the definitions of this file leave unchanged of the slice SRAMs, one lemma each. -/

set_option Elab.async false

namespace Sys2Proof.Machine

open Sys2Proof

theorem Slice.readFxLow_srams (x : Slice) (o : Nat) : Slice.sram (Slice.readFxLow x o) = Slice.sram x := by
  unfold Slice.readFxLow
  try dsimp only
  repeat' first
    | with_reducible rfl
    | (with_reducible refine (Slice.modAcq_srams _ _ _).trans ?_)
    | (with_reducible refine (Slice.modCand_srams _ _ _).trans ?_)
    | (with_reducible refine (Slice.modCandAcq_srams _ _ _).trans ?_)
    | (with_reducible refine (Slice.modInst_srams _ _ _).trans ?_)
    | (with_reducible refine (Slice.modTun_srams _ _ _).trans ?_)
    | (with_reducible refine sram_ite ?_ ?_)
    | split

theorem Slice.readFxHigh_srams (x : Slice) (o : Nat) : Slice.sram (Slice.readFxHigh x o) = Slice.sram x := by
  unfold Slice.readFxHigh
  try dsimp only
  repeat' first
    | with_reducible rfl
    | (with_reducible refine (Slice.modAf_srams _ _ _).trans ?_)
    | (with_reducible refine (Slice.modCtx_srams _ _ _).trans ?_)
    | (with_reducible refine sram_ite ?_ ?_)
    | split

theorem State.sliceReadFx_srams (s : State) (c : Fin 4) (o : Nat) : State.srams (State.sliceReadFx s c o) = State.srams s := by
  unfold State.sliceReadFx
  try dsimp only
  repeat' first
    | with_reducible rfl
    | (with_reducible refine (Slice.readFxHigh_srams _ _).trans ?_)
    | (with_reducible refine (Slice.readFxLow_srams _ _).trans ?_)
    | (with_reducible refine (modSch_srams _ _ _).trans ?_)
    | (with_reducible refine (srams_modSl _ _ _ (fun _ => ?_)).trans ?_)
    | (with_reducible refine srams_ite ?_ ?_)
    | (with_reducible refine sram_ite ?_ ?_)
    | split

theorem State.qmgReadFx_srams (s : State) (o : Nat) : State.srams (State.qmgReadFx s o) = State.srams s := by
  unfold State.qmgReadFx
  try dsimp only
  repeat' first
    | with_reducible rfl
    | (with_reducible refine (modQ_srams _ _ _).trans ?_)
    | (with_reducible refine srams_ite ?_ ?_)
    | simp only [srams_mk, sramsOf_slices]
    | split

theorem State.moduleReadFx_srams (s : State) (a : Nat) : State.srams (State.moduleReadFx s a) = State.srams s := by
  unfold State.moduleReadFx
  try dsimp only
  repeat' first
    | with_reducible rfl
    | (with_reducible refine (State.modPwr_srams _ _).trans ?_)
    | (with_reducible refine (State.qmgReadFx_srams _ _).trans ?_)
    | (with_reducible refine srams_ite ?_ ?_)
    | simp only [srams_mk, sramsOf_slices]
    | split

theorem State.regReadFx_srams (s : State) (a : Nat) : State.srams (State.regReadFx s a) = State.srams s := by
  unfold State.regReadFx
  try dsimp only
  repeat' first
    | with_reducible rfl
    | (with_reducible refine (State.moduleReadFx_srams _ _).trans ?_)
    | (with_reducible refine (State.sliceReadFx_srams _ _ _).trans ?_)
    | (with_reducible refine srams_ite ?_ ?_)
    | simp only [srams_mk, sramsOf_slices]
    | split

theorem State.afeWrite_srams (s : State) (c : Fin 4) (o : Nat) (v : Word) : State.srams (State.afeWrite s c o v) = State.srams s := by
  unfold State.afeWrite
  try dsimp only
  repeat' first
    | with_reducible rfl
    | (with_reducible refine (State.calReq_srams _ _ _).trans ?_)
    | (with_reducible refine (State.modAfe_srams _ _ _).trans ?_)
    | (with_reducible refine srams_ite ?_ ?_)
    | (with_reducible refine (srams_foldl _ (fun _ _ => ?_) _ _).trans ?_)
    | (with_reducible refine (sram_foldl _ (fun _ _ => ?_) _ _).trans ?_)
    | split

theorem State.tunBlockWrite_srams (s : State) (c : Fin 4) (o : Nat) (v : Word) : State.srams (State.tunBlockWrite s c o v) = State.srams s := by
  unfold State.tunBlockWrite
  try dsimp only
  repeat' first
    | with_reducible rfl
    | (with_reducible refine (Slice.modTun_srams _ _ _).trans ?_)
    | (with_reducible refine (State.tunWrite_srams _ _ _ _).trans ?_)
    | (with_reducible refine (srams_modSl _ _ _ (fun _ => ?_)).trans ?_)
    | (with_reducible refine srams_ite ?_ ?_)
    | (with_reducible refine sram_ite ?_ ?_)
    | simp only [srams_mk, sramsOf_slices]
    | split

theorem State.demWrite_srams (s : State) (c : Fin 4) (o : Nat) (v : Word) : State.srams (State.demWrite s c o v) = State.srams s := by
  unfold State.demWrite
  try dsimp only
  repeat' first
    | with_reducible rfl
    | (with_reducible refine (Slice.modCand_srams _ _ _).trans ?_)
    | (with_reducible refine (Slice.modInst_srams _ _ _).trans ?_)
    | (with_reducible refine (State.writeDemCtl_srams _ _ _ _).trans ?_)
    | (with_reducible refine (srams_modSl _ _ _ (fun _ => ?_)).trans ?_)
    | (with_reducible refine srams_ite ?_ ?_)
    | (with_reducible refine sram_ite ?_ ?_)
    | simp only [srams_mk, sramsOf_slices]
    | split

theorem Slice.bstWrite_srams (x : Slice) (o : Nat) (v : Word) : Slice.sram (Slice.bstWrite x o v) = Slice.sram x := by
  unfold Slice.bstWrite
  try dsimp only
  repeat' first
    | with_reducible rfl
    | (with_reducible refine (Slice.modAcq_srams _ _ _).trans ?_)
    | (with_reducible refine (Slice.modCandAcq_srams _ _ _).trans ?_)
    | (with_reducible refine sram_ite ?_ ?_)
    | split

theorem State.svcWrite_srams (s : State) (c : Fin 4) (o : Nat) (v : Word) : State.srams (State.svcWrite s c o v) = State.srams s := by
  unfold State.svcWrite
  try dsimp only
  repeat' first
    | with_reducible rfl
    | (with_reducible refine (Slice.modAf_srams _ _ _).trans ?_)
    | (with_reducible refine (Slice.modCtx_srams _ _ _).trans ?_)
    | (with_reducible refine (State.writeSvcCfg_srams _ _ _).trans ?_)
    | (with_reducible refine (modSch_srams _ _ _).trans ?_)
    | (with_reducible refine (srams_modSl _ _ _ (fun _ => ?_)).trans ?_)
    | (with_reducible refine srams_ite ?_ ?_)
    | (with_reducible refine sram_ite ?_ ?_)
    | simp only [srams_mk, sramsOf_slices]
    | split

theorem State.windowOwnWrite_srams (s : State) (o : Nat) (v : Word) : State.srams (State.windowOwnWrite s o v) = State.srams s := by
  unfold State.windowOwnWrite
  try dsimp only
  repeat' first
    | with_reducible rfl
    | (with_reducible refine srams_ite ?_ ?_)
    | simp only [srams_mk, sramsOf_slices]
    | split

theorem State.feaWrite_srams (s : State) (o : Nat) (v : Word) : State.srams (State.feaWrite s o v) = State.srams s := by
  unfold State.feaWrite
  try dsimp only
  repeat' first
    | with_reducible rfl
    | (with_reducible refine (State.writeAccept_srams _ _ _).trans ?_)
    | (with_reducible refine srams_ite ?_ ?_)
    | simp only [srams_mk, sramsOf_slices]
    | split

theorem State.pwrWrite_srams (s : State) (o : Nat) (v : Word) : State.srams (State.pwrWrite s o v) = State.srams s := by
  unfold State.pwrWrite
  try dsimp only
  repeat' first
    | with_reducible rfl
    | (with_reducible refine (State.modPwr_srams _ _).trans ?_)
    | (with_reducible refine (State.writeAux_srams _ _).trans ?_)
    | (with_reducible refine (State.writeBudget_srams _ _).trans ?_)
    | simp only [srams_mk, sramsOf_slices]
    | split

theorem State.tbmWrite_srams (s : State) (o : Nat) (v : Word) : State.srams (State.tbmWrite s o v) = State.srams s := by
  unfold State.tbmWrite
  try dsimp only
  repeat' first
    | with_reducible rfl
    | (with_reducible refine (State.writeTbmCfg_srams _ _).trans ?_)
    | (with_reducible refine (State.writeTod_srams _ _).trans ?_)
    | (with_reducible refine srams_ite ?_ ?_)
    | simp only [srams_mk, sramsOf_slices]
    | split

theorem State.trkWrite_srams (s : State) (o : Nat) (v : Word) : State.srams (State.trkWrite s o v) = State.srams s := by
  unfold State.trkWrite
  try dsimp only
  repeat' first
    | with_reducible rfl
    | (with_reducible refine (State.announceAll_srams _).trans ?_)
    | (with_reducible refine (State.startReparent_srams _).trans ?_)
    | (with_reducible refine (State.trkEvent_srams _ _).trans ?_)
    | (with_reducible refine (State.writeTrkCfg_srams _ _).trans ?_)
    | (with_reducible refine srams_ite ?_ ?_)
    | simp only [srams_mk, sramsOf_slices]
    | split

theorem State.flsWrite_srams (s : State) (o : Nat) (v : Word) : State.srams (State.flsWrite s o v) = State.srams s := by
  unfold State.flsWrite
  try dsimp only
  repeat' first
    | with_reducible rfl
    | (with_reducible refine srams_ite ?_ ?_)
    | simp only [srams_mk, sramsOf_slices]
    | split

theorem State.queueCtl_srams (s : State) (q : Fin 256) (v : Word) : State.srams (State.queueCtl s q v) = State.srams s := by
  unfold State.queueCtl
  try dsimp only
  repeat' first
    | with_reducible rfl
    | (with_reducible refine (State.disableQueue_srams _ _).trans ?_)
    | (with_reducible refine (State.enableQueue_srams _ _).trans ?_)
    | (with_reducible refine (State.flushQueue_srams _ _).trans ?_)
    | (with_reducible refine srams_ite ?_ ?_)
    | split

theorem State.queueWrite_srams (s : State) (q : Fin 256) (o : Nat) (v : Word) : State.srams (State.queueWrite s q o v) = State.srams s := by
  unfold State.queueWrite
  try dsimp only
  repeat' first
    | with_reducible rfl
    | (with_reducible refine (State.queueCtl_srams _ _ _).trans ?_)
    | (with_reducible refine (modQ_srams _ _ _).trans ?_)
    | simp only [srams_mk, sramsOf_slices]
    | split

theorem State.msixWrite_srams (s : State) (i : Nat) (v : Word) : State.srams (State.msixWrite s i v) = State.srams s := by
  unfold State.msixWrite
  try dsimp only
  repeat' first
    | with_reducible rfl
    | (with_reducible refine srams_ite ?_ ?_)
    | simp only [srams_mk, sramsOf_slices]
    | split

theorem State.qmgRegWrite_srams (s : State) (o : Nat) (v : Word) : State.srams (State.qmgRegWrite s o v) = State.srams s := by
  unfold State.qmgRegWrite
  try dsimp only
  repeat' first
    | with_reducible rfl
    | (with_reducible refine (State.msixWrite_srams _ _ _).trans ?_)
    | (with_reducible refine (State.queueWrite_srams _ _ _ _).trans ?_)
    | (with_reducible refine srams_ite ?_ ?_)
    | simp only [srams_mk, sramsOf_slices]
    | split

theorem State.readBar2_srams (s : State) (a size : Nat) : State.srams (State.readBar2 s a size) = State.srams s := by
  unfold State.readBar2
  try dsimp only
  repeat' first
    | with_reducible rfl
    | (with_reducible refine (State.recordAccess_srams _ _ _ _).trans ?_)
    | (with_reducible refine srams_ite ?_ ?_)
    | simp only [srams_mk, sramsOf_slices]
    | split

theorem State.bridged_srams (s : State) (host : Bool) : State.srams (State.bridged s host) = State.srams s := by
  unfold State.bridged
  try dsimp only
  repeat' first
    | with_reducible rfl
    | (with_reducible refine srams_ite ?_ ?_)
    | simp only [srams_mk, sramsOf_slices]
    | split

end Sys2Proof.Machine
end

