-- ==== Sys2Proof/Laws/Frames/SramsTelemetry.lean ====
section
/-! SUPPORT. What the definitions of this file leave unchanged of the slice SRAMs, one lemma each. -/

set_option Elab.async false

namespace Sys2Proof.Machine

open Sys2Proof

theorem State.sliceTelemetry_srams (s : State) (c : Fin 4) : State.srams (State.sliceTelemetry s c) = State.srams s := by
  unfold State.sliceTelemetry
  try dsimp only
  repeat' first
    | with_reducible rfl
    | (with_reducible refine (State.stage_srams _ _ _).trans ?_)
    | (with_reducible refine srams_ite ?_ ?_)
    | split

end Sys2Proof.Machine
end

