-- ==== Sys2Proof/Laws/Frames/SramsTick.lean ====
section
/-! SUPPORT. What the definitions of this file leave unchanged of the slice SRAMs, one lemma each. -/

set_option Elab.async false

namespace Sys2Proof.Machine

open Sys2Proof

theorem State.pass_srams (s : State) : State.srams (State.pass s) = State.srams s := by
  unfold State.pass
  dsimp only
  have h : (if s.tbm.holdsAt = some s.tb then s.doHold s.tb else s).srams = s.srams :=
    srams_ite (State.doHold_srams _ _) rfl
  generalize (if s.tbm.holdsAt = some s.tb then s.doHold s.tb else s) = s1 at h
  cases s1.tbm.step with
  | some k =>
    dsimp only
    refine Eq.trans (srams_ite (State.doStep_srams _ _) ?_) h
    simp only [srams_mk, sramsOf_slices]
  | none =>
    simp only [srams_mk, sramsOf_slices]
    exact h

theorem State.senseTick_srams (s : State) : State.srams (State.senseTick s) = State.srams s := by
  unfold State.senseTick
  try dsimp only
  repeat' first
    | with_reducible rfl
    | (with_reducible refine (State.senseFree_srams _ _).trans ?_)
    | (with_reducible refine srams_ite ?_ ?_)
    | (with_reducible refine (srams_foldl _ (fun _ _ => ?_) _ _).trans ?_)
    | (with_reducible refine (sram_foldl _ (fun _ _ => ?_) _ _).trans ?_)
    | split

end Sys2Proof.Machine
end

