-- ==== Sys2Proof/Laws/Frames/SramsStep.lean ====
section
/-! SUPPORT. What the definitions of this file leave unchanged of the slice SRAMs, one lemma each. -/

set_option Elab.async false

namespace Sys2Proof.Machine

open Sys2Proof

theorem State.withFetchWord_srams (s : State) (nbits w : Nat) : State.srams (State.withFetchWord s nbits w) = State.srams s := by
  unfold State.withFetchWord
  try dsimp only
  repeat' first
    | with_reducible rfl
    | simp only [srams_mk, sramsOf_slices]
    | split

end Sys2Proof.Machine
end

