-- ==== Sys2Proof/Laws/Frames/SramsExec.lean ====
section
/-! SUPPORT. The commands that leave the slice SRAMs alone, one lemma each. -/

set_option Elab.async false

namespace Sys2Proof.Machine

open Sys2Proof

/-- A command whose effect leaves the SRAMs alone. -/
theorem run_srams {s t : State} {f : State → State} (h : ∀ u, (f u).srams = u.srams) (e : run s f = .next t) :
    t.srams = s.srams := by
  unfold run at e
  injection e with e
  rw [← e]
  exact ((blockIrqs_srams s _).trans (h _) : _)

theorem State.askTag_fst_srams {s t : State} {c : Fin 4} {a b n : Nat} {m : List Byte} {e : Except Nat (List Byte × Nat)}
    (h : s.askTag c a b n m = (t, e)) : t.srams = s.srams := by
  have k := State.askTag_srams s c a b n m
  rw [h] at k
  exact k

theorem State.mailboxRun_srams (s : State) (op : Nat) (f : State → Command → State) (h : ∀ t c, (f t c).srams = t.srams) :
    (s.mailboxRun op f).srams = s.srams := by
  unfold State.mailboxRun
  split
  · exact (h _ _).trans rfl
  · rfl

theorem execDmaGrant_srams (s : State) (t' : State) (h : execDmaGrant s = .next t') : t'.srams = s.srams := by
  unfold execDmaGrant at h
  refine run_srams (fun u => ?_) h
  clear h
  try dsimp only
  repeat' first
    | with_reducible rfl
    | (with_reducible refine (State.closeFull_srams _).trans ?_)
    | (with_reducible refine (State.grantDma_srams _).trans ?_)
    | (with_reducible refine (State.markCapped_srams _).trans ?_)
    | (with_reducible refine (State.rollCap_srams _).trans ?_)
    | (with_reducible refine srams_ite ?_ ?_)
    | split

theorem execRawCapWindow_srams (s : State) (t' : State) (h : execRawCapWindow s = .next t') : t'.srams = s.srams := by
  unfold execRawCapWindow at h
  refine run_srams (fun u => ?_) h
  clear h
  try dsimp only
  repeat' first
    | with_reducible rfl
    | (with_reducible refine (State.rollCap_srams _).trans ?_)

theorem execIrqHoldoffEnd_srams (q : Fin 256) (s : State) (t' : State) (h : execIrqHoldoffEnd q s = .next t') : t'.srams = s.srams := by
  unfold execIrqHoldoffEnd at h
  refine run_srams (fun u => ?_) h
  clear h
  try dsimp only
  repeat' first
    | with_reducible rfl
    | (with_reducible refine (State.queueIrq_srams _ _).trans ?_)
    | (with_reducible refine srams_ite ?_ ?_)
    | split

theorem execDoorbellProducer_srams (offset : BitVec 16) (size : Nat) (value : Word) (s : State) (t' : State) (h : execDoorbellProducer offset size value s = .next t') : t'.srams = s.srams := by
  unfold execDoorbellProducer at h
  refine run_srams (fun u => ?_) h
  clear h
  try dsimp only
  repeat' first
    | with_reducible rfl
    | (with_reducible refine (State.recordAccess_srams _ _ _ _).trans ?_)
    | (with_reducible refine (modQ_srams _ _ _).trans ?_)
    | (with_reducible refine srams_ite ?_ ?_)
    | simp only [srams_mk, sramsOf_slices]
    | split

theorem execQueueEnable_srams (q : Fin 256) (s : State) (t' : State) (h : execQueueEnable q s = .next t') : t'.srams = s.srams := by
  unfold execQueueEnable at h
  refine run_srams (fun u => ?_) h
  clear h
  try dsimp only
  repeat' first
    | with_reducible rfl
    | (with_reducible refine (State.enableQueue_srams _ _).trans ?_)
    | (with_reducible refine (qmgWrite_srams _ _ (fun _ => ?_)).trans ?_)

theorem execQueueDisable_srams (q : Fin 256) (s : State) (t' : State) (h : execQueueDisable q s = .next t') : t'.srams = s.srams := by
  unfold execQueueDisable at h
  refine run_srams (fun u => ?_) h
  clear h
  try dsimp only
  repeat' first
    | with_reducible rfl
    | (with_reducible refine (State.disableQueue_srams _ _).trans ?_)
    | (with_reducible refine (qmgWrite_srams _ _ (fun _ => ?_)).trans ?_)

theorem execFlush_srams (q : Fin 256) (s : State) (t' : State) (h : execFlush q s = .next t') : t'.srams = s.srams := by
  unfold execFlush at h
  refine run_srams (fun u => ?_) h
  clear h
  try dsimp only
  repeat' first
    | with_reducible rfl
    | (with_reducible refine (State.flushQueue_srams _ _).trans ?_)
    | (with_reducible refine (qmgWrite_srams _ _ (fun _ => ?_)).trans ?_)

theorem execFlushUsExpired_srams (q : Fin 256) (s : State) (t' : State) (h : execFlushUsExpired q s = .next t') : t'.srams = s.srams := by
  unfold execFlushUsExpired at h
  refine run_srams (fun u => ?_) h
  clear h
  try dsimp only
  repeat' first
    | with_reducible rfl
    | (with_reducible refine (State.flushQueue_srams _ _).trans ?_)
    | (with_reducible refine srams_ite ?_ ?_)
    | simp only [srams_mk, sramsOf_slices]
    | split

theorem execDescriptorFetch_srams (q : Fin 256) (addr : DWord) (len : Word) (s : State) (t' : State) (h : execDescriptorFetch q addr len s = .next t') : t'.srams = s.srams := by
  unfold execDescriptorFetch at h
  refine run_srams (fun u => ?_) h
  clear h
  try dsimp only
  repeat' first
    | with_reducible rfl
    | (with_reducible refine (State.handOver_srams _ _ _ _).trans ?_)
    | (with_reducible refine (modQ_srams _ _ _).trans ?_)
    | (with_reducible refine srams_ite ?_ ?_)
    | simp only [srams_mk, sramsOf_slices]
    | split

theorem execDmaReadError_srams (q : Fin 256) (timeout ecrc : Bool) (s : State) (t' : State) (h : execDmaReadError q timeout ecrc s = .next t') : t'.srams = s.srams := by
  unfold execDmaReadError at h
  refine run_srams (fun u => ?_) h
  clear h
  try dsimp only
  repeat' first
    | with_reducible rfl
    | (with_reducible refine (State.disableQueue_srams _ _).trans ?_)
    | (with_reducible refine (modQ_srams _ _ _).trans ?_)
    | (with_reducible refine (emit_srams _ _).trans ?_)
    | (with_reducible refine srams_ite ?_ ?_)
    | simp only [srams_mk, sramsOf_slices]
    | split

theorem execPoisonedWrite_srams (ecrc : Bool) (s : State) (t' : State) (h : execPoisonedWrite ecrc s = .next t') : t'.srams = s.srams := by
  unfold execPoisonedWrite at h
  refine run_srams (fun u => ?_) h
  clear h
  try dsimp only
  repeat' first
    | with_reducible rfl
    | (with_reducible refine (emit_srams _ _).trans ?_)
    | (with_reducible refine srams_ite ?_ ?_)
    | simp only [srams_mk, sramsOf_slices]
    | split

theorem execCommandFetch_srams (q : Fin 256) (opcode : Byte) (tag bodyLen : Word) (body : List Byte) (s : State) (t' : State) (h : execCommandFetch q opcode tag bodyLen body s = .next t') : t'.srams = s.srams := by
  unfold execCommandFetch at h
  refine run_srams (fun u => ?_) h
  clear h
  try dsimp only
  repeat' first
    | with_reducible rfl
    | (with_reducible refine (State.complete_srams _ _ _ _).trans ?_)
    | (with_reducible refine (modQ_srams _ _ _).trans ?_)
    | (with_reducible refine srams_ite ?_ ?_)
    | simp only [srams_mk, sramsOf_slices]
    | split

theorem execNop_srams (q : Fin 256) (s : State) (t' : State) (h : execNop q s = .next t') : t'.srams = s.srams := by
  unfold execNop at h
  refine run_srams (fun u => ?_) h
  clear h
  try dsimp only
  repeat' first
    | with_reducible rfl
    | (with_reducible refine (State.finish_srams _ _ _ _).trans ?_)
    | (with_reducible refine (State.keep_srams _ _).trans ?_)
    | (with_reducible refine srams_ite ?_ ?_)
    | simp only [srams_mk, sramsOf_slices]
    | split

theorem execHeldCompletionRelease_srams (q : Fin 256) (s : State) (t' : State) (h : execHeldCompletionRelease q s = .next t') : t'.srams = s.srams := by
  unfold execHeldCompletionRelease at h
  refine run_srams (fun u => ?_) h
  clear h
  try dsimp only
  repeat' first
    | with_reducible rfl
    | (with_reducible refine (State.enter_srams _ _ _).trans ?_)
    | (with_reducible refine (modQ_srams _ _ _).trans ?_)
    | (with_reducible refine srams_ite ?_ ?_)
    | simp only [srams_mk, sramsOf_slices]
    | split

theorem execHostPortReset_srams (s : State) (t' : State) (h : execHostPortReset s = .next t') : t'.srams = s.srams := by
  unfold execHostPortReset at h
  refine run_srams (fun u => ?_) h
  clear h
  try dsimp only
  repeat' first
    | with_reducible rfl
    | (with_reducible refine srams_ite ?_ ?_)
    | simp only [srams_mk, sramsOf_slices]
    | split

theorem execHostPortResetExit_srams (width speed mps : Nat) (s : State) (t' : State) (h : execHostPortResetExit width speed mps s = .next t') : t'.srams = s.srams := by
  unfold execHostPortResetExit at h
  refine run_srams (fun u => ?_) h
  clear h
  try dsimp only
  repeat' first
    | with_reducible rfl
    | (with_reducible refine srams_ite ?_ ?_)
    | simp only [srams_mk, sramsOf_slices]
    | split

theorem execAfeGainWrite_srams (c : Fin 4) (value : Word) (s : State) (t' : State) (h : execAfeGainWrite c value s = .next t') : t'.srams = s.srams := by
  unfold execAfeGainWrite at h
  refine run_srams (fun u => ?_) h
  clear h
  try dsimp only
  repeat' first
    | with_reducible rfl
    | (with_reducible refine (State.modAfe_srams _ _ _).trans ?_)
    | (with_reducible refine (State.sliceWrite_srams _ _ _ _ (fun _ => ?_)).trans ?_)

theorem execGainApply_srams (c : Fin 4) (s : State) (t' : State) (h : execGainApply c s = .next t') : t'.srams = s.srams := by
  unfold execGainApply at h
  refine run_srams (fun u => ?_) h
  clear h
  try dsimp only
  repeat' first
    | with_reducible rfl
    | (with_reducible refine (State.modAfe_srams _ _ _).trans ?_)
    | (with_reducible refine srams_ite ?_ ?_)
    | simp only [srams_mk, sramsOf_slices]
    | split

theorem execAgcWindowEnd_srams (c : Fin 4) (powerCb : BitVec 16) (s : State) (t' : State) (h : execAgcWindowEnd c powerCb s = .next t') : t'.srams = s.srams := by
  unfold execAgcWindowEnd at h
  refine run_srams (fun u => ?_) h
  clear h
  try dsimp only
  repeat' first
    | with_reducible rfl
    | (with_reducible refine (State.modAfe_srams _ _ _).trans ?_)
    | (with_reducible refine srams_ite ?_ ?_)
    | split

theorem execAttack_srams (c : Fin 4) (s : State) (clips : List Nat := []) (t' : State) (h : execAttack c s clips = .next t') : t'.srams = s.srams := by
  unfold execAttack at h
  refine run_srams (fun u => ?_) h
  clear h
  try dsimp only
  repeat' first
    | with_reducible rfl
    | (with_reducible refine (State.modAfe_srams _ _ _).trans ?_)
    | (with_reducible refine srams_ite ?_ ?_)
    | simp only [srams_mk, sramsOf_slices]
    | split

theorem execAgcRelease_srams (c : Fin 4) (s : State) (t' : State) (h : execAgcRelease c s = .next t') : t'.srams = s.srams := by
  unfold execAgcRelease at h
  refine run_srams (fun u => ?_) h
  clear h
  try dsimp only
  repeat' first
    | with_reducible rfl
    | (with_reducible refine (State.modAfe_srams _ _ _).trans ?_)
    | (with_reducible refine srams_ite ?_ ?_)
    | simp only [srams_mk, sramsOf_slices]
    | split

theorem execAgcCfgWrite_srams (c : Fin 4) (value : Word) (s : State) (t' : State) (h : execAgcCfgWrite c value s = .next t') : t'.srams = s.srams := by
  unfold execAgcCfgWrite at h
  refine run_srams (fun u => ?_) h
  clear h
  try dsimp only
  repeat' first
    | with_reducible rfl
    | (with_reducible refine (State.modAfe_srams _ _ _).trans ?_)
    | (with_reducible refine (State.sliceWrite_srams _ _ _ _ (fun _ => ?_)).trans ?_)

theorem execTunerWrite_srams (c : Fin 4) (value : Word) (s : State) (t' : State) (h : execTunerWrite c value s = .next t') : t'.srams = s.srams := by
  unfold execTunerWrite at h
  refine run_srams (fun u => ?_) h
  clear h
  try dsimp only
  repeat' first
    | with_reducible rfl
    | (with_reducible refine (State.modAfe_srams _ _ _).trans ?_)
    | (with_reducible refine (State.sliceWrite_srams _ _ _ _ (fun _ => ?_)).trans ?_)

theorem execCalReqAdc_srams (c : Fin 4) (s : State) (t' : State) (h : execCalReqAdc c s = .next t') : t'.srams = s.srams := by
  unfold execCalReqAdc at h
  refine run_srams (fun u => ?_) h
  clear h
  try dsimp only
  repeat' first
    | with_reducible rfl
    | (with_reducible refine (State.calReq_srams _ _ _).trans ?_)
    | (with_reducible refine (State.sliceWrite_srams _ _ _ _ (fun _ => ?_)).trans ?_)

theorem execCalReqTuner_srams (c : Fin 4) (s : State) (t' : State) (h : execCalReqTuner c s = .next t') : t'.srams = s.srams := by
  unfold execCalReqTuner at h
  refine run_srams (fun u => ?_) h
  clear h
  try dsimp only
  repeat' first
    | with_reducible rfl
    | (with_reducible refine (State.calReq_srams _ _ _).trans ?_)
    | (with_reducible refine (State.sliceWrite_srams _ _ _ _ (fun _ => ?_)).trans ?_)

theorem execCalReqFlat_srams (c : Fin 4) (s : State) (t' : State) (h : execCalReqFlat c s = .next t') : t'.srams = s.srams := by
  unfold execCalReqFlat at h
  refine run_srams (fun u => ?_) h
  clear h
  try dsimp only
  repeat' first
    | with_reducible rfl
    | (with_reducible refine (State.calReq_srams _ _ _).trans ?_)
    | (with_reducible refine (State.sliceWrite_srams _ _ _ _ (fun _ => ?_)).trans ?_)

theorem execCalReqVco_srams (c : Fin 4) (s : State) (t' : State) (h : execCalReqVco c s = .next t') : t'.srams = s.srams := by
  unfold execCalReqVco at h
  refine run_srams (fun u => ?_) h
  clear h
  try dsimp only
  repeat' first
    | with_reducible rfl
    | (with_reducible refine (State.calReq_srams _ _ _).trans ?_)
    | (with_reducible refine (State.sliceWrite_srams _ _ _ _ (fun _ => ?_)).trans ?_)

theorem execCalRequest_srams (c : Fin 4) (s : State) (t' : State) (h : execCalRequest c s = .next t') : t'.srams = s.srams := by
  unfold execCalRequest at h
  refine run_srams (fun u => ?_) h
  clear h
  try dsimp only
  repeat' first
    | with_reducible rfl
    | (with_reducible refine (State.takeCal_srams _ _ _).trans ?_)
    | simp only [srams_mk, sramsOf_slices]
    | split

theorem execCalIntervalStart_srams (c : Fin 4) (s : State) (t' : State) (h : execCalIntervalStart c s = .next t') : t'.srams = s.srams := by
  unfold execCalIntervalStart at h
  refine run_srams (fun u => ?_) h
  clear h
  try dsimp only
  repeat' first
    | with_reducible rfl
    | (with_reducible refine (State.calFinish_srams _ _ _ _ _ _ _ _ _ _ _).trans ?_)
    | (with_reducible refine (State.modAfe_srams _ _ _).trans ?_)
    | (with_reducible refine (ask_srams _ _ _).trans ?_)
    | (with_reducible refine srams_ite ?_ ?_)
    | simp only [srams_mk, sramsOf_slices]
    | split

theorem execCalIntervalEnd_srams (c : Fin 4) (result : CalOutcome) (s : State) (t' : State) (h : execCalIntervalEnd c result s = .next t') : t'.srams = s.srams := by
  unfold execCalIntervalEnd at h
  refine run_srams (fun u => ?_) h
  clear h
  try dsimp only
  repeat' first
    | with_reducible rfl
    | (with_reducible refine (State.calFinish_srams _ _ _ _ _ _ _ _ _ _ _).trans ?_)
    | (with_reducible refine (State.calStoreWrite_srams _ _ _ _ _).trans ?_)
    | (with_reducible refine (State.modAfe_srams _ _ _).trans ?_)
    | (with_reducible refine srams_ite ?_ ?_)
    | simp only [srams_mk, sramsOf_slices]
    | split

theorem execMismatchMeasurement_srams (c : Fin 4) (rl : BitVec 16) (s : State) (t' : State) (h : execMismatchMeasurement c rl s = .next t') : t'.srams = s.srams := by
  unfold execMismatchMeasurement at h
  refine run_srams (fun u => ?_) h
  clear h
  try dsimp only
  repeat' first
    | with_reducible rfl
    | (with_reducible refine (State.mismatchRecord_srams _ _ _ _).trans ?_)
    | (with_reducible refine (State.modAfe_srams _ _ _).trans ?_)
    | (with_reducible refine srams_ite ?_ ?_)
    | simp only [srams_mk, sramsOf_slices]
    | split

theorem execCalbgSynthTrim_srams (c : Fin 4) (abandoned : Bool) (s : State) (t' : State) (h : execCalbgSynthTrim c abandoned s = .next t') : t'.srams = s.srams := by
  unfold execCalbgSynthTrim at h
  refine run_srams (fun u => ?_) h
  clear h
  try dsimp only
  repeat' first
    | with_reducible rfl
    | (with_reducible refine (State.modAfe_srams _ _ _).trans ?_)
    | (with_reducible refine srams_ite ?_ ?_)
    | simp only [srams_mk, sramsOf_slices]
    | split

theorem execSampleDelivered_srams (c : Fin 4) (t : Fin 32) (codes : List Int) (s : State) (t' : State) (h : execSampleDelivered c t codes s = .next t') : t'.srams = s.srams := by
  unfold execSampleDelivered at h
  refine run_srams (fun u => ?_) h
  clear h
  try dsimp only
  repeat' first
    | with_reducible rfl
    | (with_reducible refine (Slice.modTun_srams _ _ _).trans ?_)
    | (with_reducible refine (Slice.resetDue_srams _ _ _ _).trans ?_)
    | (with_reducible refine (State.releaseClosing_srams _ _ _ _).trans ?_)
    | (with_reducible refine (State.releaseFresh_srams _ _ _ _).trans ?_)
    | (with_reducible refine (State.watchAdc_srams _ _ _).trans ?_)
    | (with_reducible refine (srams_foldl _ (fun _ _ => ?_) _ _).trans ?_)
    | (with_reducible refine (srams_setSl _ _ _ ?_).trans ?_)
    | (with_reducible refine srams_ite ?_ ?_)
    | (with_reducible refine sram_ite ?_ ?_)
    | simp only [srams_mk, sramsOf_slices]
    | split

theorem execNcoFreqWrite_srams (c : Fin 4) (t : Fin 32) (value : Word) (s : State) (t' : State) (h : execNcoFreqWrite c t value s = .next t') : t'.srams = s.srams := by
  unfold execNcoFreqWrite at h
  refine run_srams (fun u => ?_) h
  clear h
  try dsimp only
  repeat' first
    | with_reducible rfl
    | (with_reducible refine (State.tunWrite_srams _ _ _ _).trans ?_)
    | (with_reducible refine (State.sliceWrite_srams _ _ _ _ (fun _ => ?_)).trans ?_)

theorem execBankSwapRequest_srams (c : Fin 4) (t : Fin 32) (target : Bool) (s : State) (t' : State) (h : execBankSwapRequest c t target s = .next t') : t'.srams = s.srams := by
  unfold execBankSwapRequest at h
  refine run_srams (fun u => ?_) h
  clear h
  try dsimp only
  repeat' first
    | with_reducible rfl
    | (with_reducible refine (State.tunWrite_srams _ _ _ _).trans ?_)
    | (with_reducible refine (State.sliceWrite_srams _ _ _ _ (fun _ => ?_)).trans ?_)

theorem execBankSwap_srams (c : Fin 4) (t : Fin 32) (s : State) (t' : State) (h : execBankSwap c t s = .next t') : t'.srams = s.srams := by
  unfold execBankSwap at h
  refine run_srams (fun u => ?_) h
  clear h
  try dsimp only
  repeat' first
    | with_reducible rfl
    | (with_reducible refine (Slice.execSwap_srams _ _ _ _).trans ?_)
    | (with_reducible refine (Slice.modTun_srams _ _ _).trans ?_)
    | (with_reducible refine (srams_setSl _ _ _ ?_).trans ?_)
    | (with_reducible refine srams_ite ?_ ?_)
    | (with_reducible refine sram_ite ?_ ?_)
    | simp only [srams_mk, sramsOf_slices]
    | split

theorem execXfadeEnd_srams (c : Fin 4) (t : Fin 32) (s : State) (t' : State) (h : execXfadeEnd c t s = .next t') : t'.srams = s.srams := by
  unfold execXfadeEnd at h
  refine run_srams (fun u => ?_) h
  clear h
  try dsimp only
  repeat' first
    | with_reducible rfl
    | (with_reducible refine (Slice.execSwap_srams _ _ _ _).trans ?_)
    | (with_reducible refine (Slice.modTun_srams _ _ _).trans ?_)
    | (with_reducible refine (srams_setSl _ _ _ ?_).trans ?_)
    | (with_reducible refine srams_ite ?_ ?_)
    | (with_reducible refine sram_ite ?_ ?_)
    | simp only [srams_mk, sramsOf_slices]
    | split

theorem execCoefWrite_srams (c : Fin 4) (t : Fin 32) (b : Fin 2) (i : Fin 128) (value : Word) (s : State) (t' : State) (h : execCoefWrite c t b i value s = .next t') : t'.srams = s.srams := by
  unfold execCoefWrite at h
  refine run_srams (fun u => ?_) h
  clear h
  try dsimp only
  repeat' first
    | with_reducible rfl
    | (with_reducible refine (Slice.writeCoef_srams _ _ _ _ _).trans ?_)
    | (with_reducible refine (State.sliceWrite_srams _ _ _ _ (fun _ => ?_)).trans ?_)
    | (with_reducible refine (srams_modSl _ _ _ (fun _ => ?_)).trans ?_)

theorem execFrameStart_srams (c : Fin 4) (rx : Bool) (bits : Nat) (samples : List Word) (s : State) (t' : State) (h : execFrameStart c rx bits samples s = .next t') : t'.srams = s.srams := by
  unfold execFrameStart at h
  refine run_srams (fun u => ?_) h
  clear h
  try dsimp only
  repeat' first
    | with_reducible rfl
    | (with_reducible refine (State.modSai_srams _ _ _).trans ?_)
    | (with_reducible refine srams_ite ?_ ?_)
    | simp only [srams_mk, sramsOf_slices]
    | split

theorem execGridFrame_srams (c : Fin 4) (audio : List AudioIn) (s : State) (t' : State) (h : execGridFrame c audio s = .next t') : t'.srams = s.srams := by
  unfold execGridFrame at h
  refine run_srams (fun u => ?_) h
  clear h
  try dsimp only
  repeat' first
    | with_reducible rfl
    | (with_reducible refine (State.instGrid_srams _ _ _ _ _).trans ?_)
    | (with_reducible refine (State.rxGrid_srams _ _ _).trans ?_)
    | (with_reducible refine (State.txGrid_srams _ _ _ _).trans ?_)
    | (with_reducible refine (srams_foldl _ (fun _ _ => ?_) _ _).trans ?_)
    | (with_reducible refine srams_ite ?_ ?_)
    | simp only [srams_mk, sramsOf_slices]
    | split

theorem execStall_srams (c : Fin 4) (rx : Bool) (s : State) (t' : State) (h : execStall c rx s = .next t') : t'.srams = s.srams := by
  unfold execStall at h
  refine run_srams (fun u => ?_) h
  clear h
  try dsimp only
  repeat' first
    | with_reducible rfl
    | (with_reducible refine (State.modSai_srams _ _ _).trans ?_)
    | (with_reducible refine srams_ite ?_ ?_)
    | simp only [srams_mk, sramsOf_slices]
    | split

theorem execBclkOverrate_srams (c : Fin 4) (rx : Bool) (s : State) (t' : State) (h : execBclkOverrate c rx s = .next t') : t'.srams = s.srams := by
  unfold execBclkOverrate at h
  refine run_srams (fun u => ?_) h
  clear h
  try dsimp only
  repeat' first
    | with_reducible rfl
    | (with_reducible refine (State.fault_srams _ _).trans ?_)
    | (with_reducible refine (State.modSai_srams _ _ _).trans ?_)
    | (with_reducible refine srams_ite ?_ ?_)
    | simp only [srams_mk, sramsOf_slices]
    | split

theorem execGateTimeout_srams (c : Fin 4) (rx : Bool) (s : State) (t' : State) (h : execGateTimeout c rx s = .next t') : t'.srams = s.srams := by
  unfold execGateTimeout at h
  refine run_srams (fun u => ?_) h
  clear h
  try dsimp only
  repeat' first
    | with_reducible rfl
    | (with_reducible refine (State.modSai_srams _ _ _).trans ?_)
    | (with_reducible refine srams_ite ?_ ?_)
    | simp only [srams_mk, sramsOf_slices]
    | split

theorem execTxStart_srams (c : Fin 4) (s : State) (t' : State) (h : execTxStart c s = .next t') : t'.srams = s.srams := by
  unfold execTxStart at h
  refine run_srams (fun u => ?_) h
  clear h
  try dsimp only
  repeat' first
    | with_reducible rfl
    | (with_reducible refine (State.writeSaiCtl_srams _ _ _).trans ?_)

theorem execTxStop_srams (c : Fin 4) (s : State) (t' : State) (h : execTxStop c s = .next t') : t'.srams = s.srams := by
  unfold execTxStop at h
  refine run_srams (fun u => ?_) h
  clear h
  try dsimp only
  repeat' first
    | with_reducible rfl
    | (with_reducible refine (State.writeSaiCtl_srams _ _ _).trans ?_)

theorem execRxStart_srams (c : Fin 4) (s : State) (t' : State) (h : execRxStart c s = .next t') : t'.srams = s.srams := by
  unfold execRxStart at h
  refine run_srams (fun u => ?_) h
  clear h
  try dsimp only
  repeat' first
    | with_reducible rfl
    | (with_reducible refine (State.writeSaiCtl_srams _ _ _).trans ?_)

theorem execRxStop_srams (c : Fin 4) (s : State) (t' : State) (h : execRxStop c s = .next t') : t'.srams = s.srams := by
  unfold execRxStop at h
  refine run_srams (fun u => ?_) h
  clear h
  try dsimp only
  repeat' first
    | with_reducible rfl
    | (with_reducible refine (State.writeSaiCtl_srams _ _ _).trans ?_)

theorem execEntryDue_srams (c : Fin 4) (s : State) (t' : State) (h : execEntryDue c s = .next t') : t'.srams = s.srams := by
  unfold execEntryDue at h
  refine run_srams (fun u => ?_) h
  clear h
  try dsimp only
  repeat' first
    | with_reducible rfl
    | (with_reducible refine (State.runEntries_srams _ _ _).trans ?_)
    | (with_reducible refine srams_ite ?_ ?_)
    | simp only [srams_mk, sramsOf_slices]
    | split

theorem execPulseEnd_srams (pin : Fin 8) (s : State) (t' : State) (h : execPulseEnd pin s = .next t') : t'.srams = s.srams := by
  unfold execPulseEnd at h
  refine run_srams (fun u => ?_) h
  clear h
  try dsimp only
  repeat' first
    | with_reducible rfl
    | (with_reducible refine (State.endPulse_srams _ _ _).trans ?_)
    | (with_reducible refine srams_ite ?_ ?_)
    | simp only [srams_mk, sramsOf_slices]
    | split

theorem execDoneEntryExpiry_srams (c : Fin 4) (s : State) (t' : State) (h : execDoneEntryExpiry c s = .next t') : t'.srams = s.srams := by
  unfold execDoneEntryExpiry at h
  refine run_srams (fun u => ?_) h
  clear h
  try dsimp only
  repeat' first
    | with_reducible rfl
    | (with_reducible refine (modSch_srams _ _ _).trans ?_)
    | simp only [srams_mk, sramsOf_slices]
    | split

theorem execRefinLost_srams (s : State) (t' : State) (h : execRefinLost s = .next t') : t'.srams = s.srams := by
  unfold execRefinLost at h
  refine run_srams (fun u => ?_) h
  clear h
  try dsimp only
  repeat' first
    | with_reducible rfl
    | (with_reducible refine (State.loseSource_srams _ _).trans ?_)
    | simp only [srams_mk, sramsOf_slices]

theorem execPpsLost_srams (s : State) (t' : State) (h : execPpsLost s = .next t') : t'.srams = s.srams := by
  unfold execPpsLost at h
  refine run_srams (fun u => ?_) h
  clear h
  try dsimp only
  repeat' first
    | with_reducible rfl
    | (with_reducible refine (State.loseSource_srams _ _).trans ?_)
    | (with_reducible refine srams_ite ?_ ?_)
    | simp only [srams_mk, sramsOf_slices]
    | split

theorem execTrunkTimeLost_srams (s : State) (t' : State) (h : execTrunkTimeLost s = .next t') : t'.srams = s.srams := by
  unfold execTrunkTimeLost at h
  refine run_srams (fun u => ?_) h
  clear h
  try dsimp only
  repeat' first
    | with_reducible rfl
    | (with_reducible refine (State.loseSource_srams _ _).trans ?_)
    | (with_reducible refine srams_ite ?_ ?_)
    | simp only [srams_mk, sramsOf_slices]
    | split

theorem execSwitchHoldExpired_srams (s : State) (t' : State) (h : execSwitchHoldExpired s = .next t') : t'.srams = s.srams := by
  unfold execSwitchHoldExpired at h
  refine run_srams (fun u => ?_) h
  clear h
  try dsimp only
  repeat' first
    | with_reducible rfl
    | (with_reducible refine (State.reconsider_srams _).trans ?_)

theorem execHoldoverEnd_srams (s : State) (t' : State) (h : execHoldoverEnd s = .next t') : t'.srams = s.srams := by
  unfold execHoldoverEnd at h
  refine run_srams (fun u => ?_) h
  clear h
  try dsimp only
  repeat' first
    | with_reducible rfl
    | (with_reducible refine srams_ite ?_ ?_)
    | simp only [srams_mk, sramsOf_slices]
    | split

theorem execTbmCfgWrite_srams (value : Word) (s : State) (t' : State) (h : execTbmCfgWrite value s = .next t') : t'.srams = s.srams := by
  unfold execTbmCfgWrite at h
  refine run_srams (fun u => ?_) h
  clear h
  try dsimp only
  repeat' first
    | with_reducible rfl
    | (with_reducible refine (State.writeTbmCfg_srams _ _).trans ?_)
    | (with_reducible refine (moduleWrite_srams _ _ (fun _ => ?_)).trans ?_)

theorem execTodSet_srams (value : Word) (s : State) (t' : State) (h : execTodSet value s = .next t') : t'.srams = s.srams := by
  unfold execTodSet at h
  refine run_srams (fun u => ?_) h
  clear h
  try dsimp only
  repeat' first
    | with_reducible rfl
    | (with_reducible refine (State.writeTod_srams _ _).trans ?_)
    | (with_reducible refine (moduleWrite_srams _ _ (fun _ => ?_)).trans ?_)

theorem execPpsEdge_srams (refinGood : Bool) (s : State) (t' : State) (h : execPpsEdge refinGood s = .next t') : t'.srams = s.srams := by
  unfold execPpsEdge at h
  refine run_srams (fun u => ?_) h
  clear h
  try dsimp only
  repeat' first
    | with_reducible rfl
    | (with_reducible refine (State.labelPps_srams _).trans ?_)
    | (with_reducible refine (State.qualify_srams _ _ _).trans ?_)
    | (with_reducible refine srams_ite ?_ ?_)
    | simp only [srams_mk, sramsOf_slices]
    | split

theorem execHoldEnd_srams (s : State) (t' : State) (h : execHoldEnd s = .next t') : t'.srams = s.srams := by
  unfold execHoldEnd at h
  refine run_srams (fun u => ?_) h
  clear h
  try dsimp only
  repeat' first
    | with_reducible rfl
    | (with_reducible refine srams_ite ?_ ?_)
    | simp only [srams_mk, sramsOf_slices]
    | split

theorem execRelockAttempt_srams (c : Fin 4) (ok : Bool) (s : State) (t' : State) (h : execRelockAttempt c ok s = .next t') : t'.srams = s.srams := by
  unfold execRelockAttempt at h
  refine run_srams (fun u => ?_) h
  clear h
  try dsimp only
  repeat' first
    | with_reducible rfl
    | (with_reducible refine (srams_modSl _ _ _ (fun _ => ?_)).trans ?_)
    | (with_reducible refine srams_ite ?_ ?_)
    | (with_reducible refine sram_ite ?_ ?_)
    | simp only [srams_mk, sramsOf_slices]
    | split

theorem execRelocked_srams (c : Fin 4) (s : State) (t' : State) (h : execRelocked c s = .next t') : t'.srams = s.srams := by
  unfold execRelocked at h
  refine run_srams (fun u => ?_) h
  clear h
  try dsimp only
  repeat' first
    | with_reducible rfl
    | (with_reducible refine (srams_modSl _ _ _ (fun _ => ?_)).trans ?_)
    | (with_reducible refine srams_ite ?_ ?_)
    | (with_reducible refine sram_ite ?_ ?_)
    | simp only [srams_mk, sramsOf_slices]
    | split

theorem execClockTimeLost_srams (s : State) (t' : State) (h : execClockTimeLost s = .next t') : t'.srams = s.srams := by
  unfold execClockTimeLost at h
  refine run_srams (fun u => ?_) h
  clear h
  try dsimp only
  repeat' first
    | with_reducible rfl
    | (with_reducible refine (State.recheckOffers_srams _).trans ?_)
    | (with_reducible refine (modSlices_srams _ _ (fun _ _ => ?_)).trans ?_)
    | (with_reducible refine srams_ite ?_ ?_)
    | (with_reducible refine sram_ite ?_ ?_)
    | simp only [srams_mk, sramsOf_slices]
    | split

theorem execAlertTimeout_srams (c : Fin 4) (x : Fin 256) (s : State) (t' : State) (h : execAlertTimeout c x s = .next t') : t'.srams = s.srams := by
  unfold execAlertTimeout at h
  refine run_srams (fun u => ?_) h
  clear h
  try dsimp only
  repeat' first
    | with_reducible rfl
    | (with_reducible refine (State.nativeAlert_srams _ _ _ _ _ _ _ _).trans ?_)
    | (with_reducible refine srams_ite ?_ ?_)
    | split

theorem execSvcCfgWrite_srams (c : Fin 4) (value : Word) (s : State) (t' : State) (h : execSvcCfgWrite c value s = .next t') : t'.srams = s.srams := by
  unfold execSvcCfgWrite at h
  refine run_srams (fun u => ?_) h
  clear h
  try dsimp only
  repeat' first
    | with_reducible rfl
    | (with_reducible refine (State.writeSvcCfg_srams _ _ _).trans ?_)
    | (with_reducible refine (State.sliceWrite_srams _ _ _ _ (fun _ => ?_)).trans ?_)

theorem execMirrorCommit_srams (c : Fin 4) (s : State) (t' : State) (h : execMirrorCommit c s = .next t') : t'.srams = s.srams := by
  unfold execMirrorCommit at h
  refine run_srams (fun u => ?_) h
  clear h
  try dsimp only
  repeat' first
    | with_reducible rfl
    | (with_reducible refine (Slice.acceptReplay_srams _ _ _ _).trans ?_)
    | (with_reducible refine (State.fixVerdict_srams _ _ _ _ _).trans ?_)
    | (with_reducible refine (State.settle_srams _ _ _).trans ?_)
    | (with_reducible refine (State.onFront_srams _ _ _ _ (fun _ _ => ?_)).trans ?_)
    | (with_reducible refine (srams_modSl _ _ _ (fun _ => ?_)).trans ?_)
    | simp only [srams_mk, sramsOf_slices]
    | split

theorem execKeyload_srams (packet : List Byte) (s : State) (t' : State) (h : execKeyload packet s = .next t') : t'.srams = s.srams := by
  unfold execKeyload at h
  refine run_srams (fun u => ?_) h
  clear h
  try dsimp only
  repeat' first
    | with_reducible rfl
    | (with_reducible refine (State.captureDr_srams _).trans ?_)
    | (with_reducible refine (State.keyload_srams _ _).trans ?_)
    | (with_reducible refine (State.tapInstr_srams _ _).trans ?_)

theorem execKeyDerive_srams (c : Fin 4) (parity : Bool) (s : State) (t' : State) (h : execKeyDerive c parity s = .next t') : t'.srams = s.srams := by
  unfold execKeyDerive at h
  refine run_srams (fun u => ?_) h
  clear h
  try dsimp only
  repeat' first
    | with_reducible rfl
    | (with_reducible refine (State.keyDerive_srams _ _ _ _).trans ?_)
    | simp only [srams_mk, sramsOf_slices]
    | split

theorem execKeyErase_srams (c : Fin 4) (s : State) (t' : State) (h : execKeyErase c s = .next t') : t'.srams = s.srams := by
  unfold execKeyErase at h
  refine run_srams (fun u => ?_) h
  clear h
  try dsimp only
  repeat' first
    | with_reducible rfl
    | (with_reducible refine (State.keyErase_srams _ _ _).trans ?_)
    | simp only [srams_mk, sramsOf_slices]
    | split

theorem execMacBlockGrant_srams (c : Fin 4) (parity : Bool) (s : State) (split : Bool := false) (t' : State) (h : execMacBlockGrant c parity s split = .next t') : t'.srams = s.srams := by
  unfold execMacBlockGrant at h
  refine run_srams (fun u => ?_) h
  clear h
  try dsimp only
  repeat' first
    | with_reducible rfl
    | (with_reducible refine (State.checkSlot_srams _ _ _).trans ?_)
    | (with_reducible refine (State.fixVerdict_srams _ _ _ _ _).trans ?_)
    | (with_reducible refine (State.keyBusFault_srams _ _ _ _).trans ?_)
    | (with_reducible refine (State.macBlock_srams _ _ _ _ _ _).trans ?_)
    | (with_reducible refine (State.macTurn_srams _ _ _ _).trans ?_)
    | (with_reducible refine (State.opBlock_srams _ _ _ _).trans ?_)
    | (with_reducible refine (State.settle_srams _ _ _).trans ?_)
    | (with_reducible refine srams_ite ?_ ?_)
    | simp only [srams_mk, sramsOf_slices]
    | split

theorem execSlotCheck_srams (c : Fin 4) (upset : List (Fin 64 × Fin 48 × Byte)) (s : State) (t' : State) (h : execSlotCheck c upset s = .next t') : t'.srams = s.srams := by
  unfold execSlotCheck at h
  refine run_srams (fun u => ?_) h
  clear h
  try dsimp only
  repeat' first
    | with_reducible rfl
    | (with_reducible refine (Slice.modSlot_srams _ _ _).trans ?_)
    | (with_reducible refine (State.checkSlot_srams _ _ _).trans ?_)
    | (with_reducible refine (srams_modSl _ _ _ (fun _ => ?_)).trans ?_)
    | (with_reducible refine (srams_foldl _ (fun _ _ => ?_) _ _).trans ?_)
    | (with_reducible refine (sram_foldl _ (fun _ _ => ?_) _ _).trans ?_)
    | (with_reducible refine srams_ite ?_ ?_)
    | (with_reducible refine sram_ite ?_ ?_)
    | split

theorem execTamperLoopOpen_srams (s : State) (t' : State) (h : execTamperLoopOpen s = .next t') : t'.srams = s.srams := by
  unfold execTamperLoopOpen at h
  refine run_srams (fun u => ?_) h
  clear h
  try dsimp only
  repeat' first
    | with_reducible rfl
    | (with_reducible refine (State.alarmAll_srams _ _).trans ?_)

theorem execAlarmInAsserted_srams (s : State) (t' : State) (h : execAlarmInAsserted s = .next t') : t'.srams = s.srams := by
  unfold execAlarmInAsserted at h
  refine run_srams (fun u => ?_) h
  clear h
  try dsimp only
  repeat' first
    | with_reducible rfl
    | (with_reducible refine (State.alarmAll_srams _ _).trans ?_)

theorem execOverTemperature_srams (s : State) (t' : State) (h : execOverTemperature s = .next t') : t'.srams = s.srams := by
  unfold execOverTemperature at h
  refine run_srams (fun u => ?_) h
  clear h
  try dsimp only
  repeat' first
    | with_reducible rfl
    | (with_reducible refine (State.alarmAll_srams _ _).trans ?_)

theorem execUnderTemperature_srams (s : State) (t' : State) (h : execUnderTemperature s = .next t') : t'.srams = s.srams := by
  unfold execUnderTemperature at h
  refine run_srams (fun u => ?_) h
  clear h
  try dsimp only
  repeat' first
    | with_reducible rfl
    | (with_reducible refine (State.alarmAll_srams _ _).trans ?_)

theorem execSliceSupplyMonitor_srams (c : Fin 4) (s : State) (t' : State) (h : execSliceSupplyMonitor c s = .next t') : t'.srams = s.srams := by
  unfold execSliceSupplyMonitor at h
  refine run_srams (fun u => ?_) h
  clear h
  try dsimp only
  repeat' first
    | with_reducible rfl
    | (with_reducible refine (State.alarmErase_srams _ _ _).trans ?_)

theorem execClockGlitch_srams (c : Fin 4) (s : State) (t' : State) (h : execClockGlitch c s = .next t') : t'.srams = s.srams := by
  unfold execClockGlitch at h
  refine run_srams (fun u => ?_) h
  clear h
  try dsimp only
  repeat' first
    | with_reducible rfl
    | (with_reducible refine (State.alarmErase_srams _ _ _).trans ?_)

theorem execMirrorEraseDone_srams (c : Fin 4) (s : State) (t' : State) (h : execMirrorEraseDone c s = .next t') : t'.srams = s.srams := by
  unfold execMirrorEraseDone at h
  refine run_srams (fun u => ?_) h
  clear h
  try dsimp only
  repeat' first
    | with_reducible rfl
    | (with_reducible refine (Slice.syncMirror_srams _).trans ?_)
    | (with_reducible refine (State.faultAt_srams _ _ _).trans ?_)
    | (with_reducible refine (srams_modSl _ _ _ (fun _ => ?_)).trans ?_)
    | (with_reducible refine srams_ite ?_ ?_)
    | (with_reducible refine sram_ite ?_ ?_)
    | simp only [srams_mk, sramsOf_slices]
    | split

theorem execLoadsUnblocked_srams (c : Fin 4) (src : AlarmSource) (s : State) (t' : State) (h : execLoadsUnblocked c src s = .next t') : t'.srams = s.srams := by
  unfold execLoadsUnblocked at h
  refine run_srams (fun u => ?_) h
  clear h
  try dsimp only
  repeat' first
    | with_reducible rfl
    | (with_reducible refine (srams_modSl _ _ _ (fun _ => ?_)).trans ?_)
    | simp only [srams_mk, sramsOf_slices]

theorem execAfCheckStart_srams (c : Fin 4) (n : Fin 48) (s : State) (t' : State) (h : execAfCheckStart c n s = .next t') : t'.srams = s.srams := by
  unfold execAfCheckStart at h
  refine run_srams (fun u => ?_) h
  clear h
  try dsimp only
  repeat' first
    | with_reducible rfl
    | (with_reducible refine (State.beginCheck_srams _ _ _ _).trans ?_)
    | (with_reducible refine srams_ite ?_ ?_)
    | simp only [srams_mk, sramsOf_slices]
    | split

theorem execAfCheckTimeout_srams (c : Fin 4) (n : Fin 48) (s : State) (t' : State) (h : execAfCheckTimeout c n s = .next t') : t'.srams = s.srams := by
  unfold execAfCheckTimeout at h
  refine run_srams (fun u => ?_) h
  clear h
  try dsimp only
  repeat' first
    | with_reducible rfl
    | (with_reducible refine (State.failCheck_srams _ _ _ _).trans ?_)
    | (with_reducible refine (State.undoSpec_srams _ _ _ _ _).trans ?_)
    | (with_reducible refine srams_ite ?_ ?_)
    | split

theorem execAfSwitch_srams (c : Fin 4) (n : Fin 48) (s : State) (t' : State) (h : execAfSwitch c n s = .next t') : t'.srams = s.srams := by
  unfold execAfSwitch at h
  refine run_srams (fun u => ?_) h
  clear h
  try dsimp only
  repeat' first
    | with_reducible rfl
    | (with_reducible refine (State.afEvent_srams _ _ _ _ _ _ _ _ _).trans ?_)
    | (with_reducible refine (State.modAfOf_srams _ _ _ _).trans ?_)
    | (with_reducible refine (State.retune_srams _ _ _ _).trans ?_)
    | (with_reducible refine srams_ite ?_ ?_)
    | simp only [srams_mk, sramsOf_slices]
    | split

theorem execAfSpeculate_srams (c : Fin 4) (n : Fin 48) (s : State) (t' : State) (h : execAfSpeculate c n s = .next t') : t'.srams = s.srams := by
  unfold execAfSpeculate at h
  refine run_srams (fun u => ?_) h
  clear h
  try dsimp only
  repeat' first
    | with_reducible rfl
    | (with_reducible refine (State.speculate_srams _ _ _ _ _).trans ?_)
    | (with_reducible refine srams_ite ?_ ?_)
    | simp only [srams_mk, sramsOf_slices]
    | split

theorem execCandidateRotation_srams (c : Fin 4) (t : Fin 32) (s : State) (t' : State) (h : execCandidateRotation c t s = .next t') : t'.srams = s.srams := by
  unfold execCandidateRotation at h
  refine run_srams (fun u => ?_) h
  clear h
  try dsimp only
  repeat' first
    | with_reducible rfl
    | (with_reducible refine (Slice.yieldCand_srams _ _ _ _).trans ?_)
    | (with_reducible refine (srams_modSl _ _ _ (fun _ => ?_)).trans ?_)
    | (with_reducible refine srams_ite ?_ ?_)
    | (with_reducible refine sram_ite ?_ ?_)
    | simp only [srams_mk, sramsOf_slices]
    | split

theorem execInstanceFound_srams (c : Fin 4) (r : InstRef) (s : State) (found : Found := ⟨0, 0, [], 0, 0⟩) (t' : State) (h : execInstanceFound c r s found = .next t') : t'.srams = s.srams := by
  unfold execInstanceFound at h
  refine run_srams (fun u => ?_) h
  clear h
  try dsimp only
  repeat' first
    | with_reducible rfl
    | (with_reducible refine (Slice.modDemod_srams _ _ _).trans ?_)
    | (with_reducible refine (srams_modSl _ _ _ (fun _ => ?_)).trans ?_)
    | (with_reducible refine srams_ite ?_ ?_)
    | (with_reducible refine sram_ite ?_ ?_)
    | simp only [srams_mk, sramsOf_slices]
    | split

theorem execSyncLimitExpired_srams (c : Fin 4) (r : InstRef) (s : State) (t' : State) (h : execSyncLimitExpired c r s = .next t') : t'.srams = s.srams := by
  unfold execSyncLimitExpired at h
  refine run_srams (fun u => ?_) h
  clear h
  try dsimp only
  repeat' first
    | with_reducible rfl
    | (with_reducible refine (State.toSearch_srams _ _ _).trans ?_)
    | (with_reducible refine srams_ite ?_ ?_)
    | split

theorem execInstanceLoss_srams (c : Fin 4) (r : InstRef) (tracked : Option (Int × Int)) (s : State) (t' : State) (h : execInstanceLoss c r tracked s = .next t') : t'.srams = s.srams := by
  unfold execInstanceLoss at h
  refine run_srams (fun u => ?_) h
  clear h
  try dsimp only
  repeat' first
    | with_reducible rfl
    | (with_reducible refine (Slice.modDemod_srams _ _ _).trans ?_)
    | (with_reducible refine (State.toSearch_srams _ _ _).trans ?_)
    | (with_reducible refine (srams_modSl _ _ _ (fun _ => ?_)).trans ?_)
    | (with_reducible refine srams_ite ?_ ?_)
    | (with_reducible refine sram_ite ?_ ?_)
    | simp only [srams_mk, sramsOf_slices]
    | split

theorem execReacq_srams (c : Fin 4) (n : Fin 48) (s : State) (t' : State) (h : execReacq c n s = .next t') : t'.srams = s.srams := by
  unfold execReacq at h
  refine run_srams (fun u => ?_) h
  clear h
  try dsimp only
  repeat' first
    | with_reducible rfl
    | (with_reducible refine (State.writeDemCtl_srams _ _ _ _).trans ?_)
    | (with_reducible refine (State.sliceWrite_srams _ _ _ _ (fun _ => ?_)).trans ?_)

theorem execMeasurementUpdate_srams (c : Fin 4) (r : InstRef) (m : Measure) (s : State) (t' : State) (h : execMeasurementUpdate c r m s = .next t') : t'.srams = s.srams := by
  unfold execMeasurementUpdate at h
  refine run_srams (fun u => ?_) h
  clear h
  try dsimp only
  repeat' first
    | with_reducible rfl
    | (with_reducible refine (Slice.modDemod_srams _ _ _).trans ?_)
    | (with_reducible refine (State.toSearch_srams _ _ _).trans ?_)
    | (with_reducible refine (srams_modSl _ _ _ (fun _ => ?_)).trans ?_)
    | (with_reducible refine srams_ite ?_ ?_)
    | (with_reducible refine sram_ite ?_ ?_)
    | simp only [srams_mk, sramsOf_slices]
    | split

theorem execUnitHandedOn_srams (c : Fin 4) (r : InstRef) (at_ : Nat) (ok : Bool) (u : Heard) (reads : Reads) (s : State) (t' : State) (h : execUnitHandedOn c r at_ ok u reads s = .next t') : t'.srams = s.srams := by
  unfold execUnitHandedOn at h
  refine run_srams (fun u => ?_) h
  clear h
  try dsimp only
  repeat' first
    | with_reducible rfl
    | (with_reducible refine (Slice.modDemod_srams _ _ _).trans ?_)
    | (with_reducible refine (State.handUnit_srams _ _ _ _).trans ?_)
    | (with_reducible refine (State.toTrack_srams _ _ _).trans ?_)
    | (with_reducible refine (srams_modSl _ _ _ (fun _ => ?_)).trans ?_)
    | (with_reducible refine srams_ite ?_ ?_)
    | (with_reducible refine sram_ite ?_ ?_)
    | simp only [srams_mk, sramsOf_slices]
    | split

theorem execNoiseInterval_srams (c : Fin 4) (r : InstRef) (rssi : RssiRun) (s : State) (t' : State) (h : execNoiseInterval c r rssi s = .next t') : t'.srams = s.srams := by
  unfold execNoiseInterval at h
  refine run_srams (fun u => ?_) h
  clear h
  try dsimp only
  repeat' first
    | with_reducible rfl
    | (with_reducible refine (State.modAcquirer_srams _ _ _ _).trans ?_)
    | (with_reducible refine (State.takeRun_srams _ _ _ _).trans ?_)
    | (with_reducible refine srams_ite ?_ ?_)
    | simp only [srams_mk, sramsOf_slices]
    | split

theorem execTrigger_srams (c : Fin 4) (r : InstRef) (rssi : RssiRun) (s : State) (t' : State) (h : execTrigger c r rssi s = .next t') : t'.srams = s.srams := by
  unfold execTrigger at h
  refine run_srams (fun u => ?_) h
  clear h
  try dsimp only
  repeat' first
    | with_reducible rfl
    | (with_reducible refine (State.modAcquirer_srams _ _ _ _).trans ?_)
    | (with_reducible refine (State.takeRun_srams _ _ _ _).trans ?_)
    | (with_reducible refine srams_ite ?_ ?_)
    | simp only [srams_mk, sramsOf_slices]
    | split

theorem execSyncQualified_srams (c : Fin 4) (r : InstRef) (w : SyncWord) (s : State) (rssi : RssiRun := ⟨0, []⟩) (t' : State) (h : execSyncQualified c r w s rssi = .next t') : t'.srams = s.srams := by
  unfold execSyncQualified at h
  refine run_srams (fun u => ?_) h
  clear h
  try dsimp only
  repeat' first
    | with_reducible rfl
    | (with_reducible refine (Slice.modDemod_srams _ _ _).trans ?_)
    | (with_reducible refine (State.modAcquirer_srams _ _ _ _).trans ?_)
    | (with_reducible refine (State.takeBurst_srams _ _ _ _ _).trans ?_)
    | (with_reducible refine (State.takeRun_srams _ _ _ _).trans ?_)
    | (with_reducible refine (srams_modSl _ _ _ (fun _ => ?_)).trans ?_)
    | (with_reducible refine srams_ite ?_ ?_)
    | (with_reducible refine sram_ite ?_ ?_)
    | simp only [srams_mk, sramsOf_slices]
    | split

theorem execQualifierWindowClose_srams (c : Fin 4) (r : InstRef) (rssi : RssiRun) (s : State) (t' : State) (h : execQualifierWindowClose c r rssi s = .next t') : t'.srams = s.srams := by
  unfold execQualifierWindowClose at h
  refine run_srams (fun u => ?_) h
  clear h
  try dsimp only
  repeat' first
    | with_reducible rfl
    | (with_reducible refine (State.modAcquirer_srams _ _ _ _).trans ?_)
    | (with_reducible refine (State.takeRun_srams _ _ _ _).trans ?_)
    | (with_reducible refine srams_ite ?_ ?_)
    | simp only [srams_mk, sramsOf_slices]
    | split

theorem execCapture_srams (c : Fin 4) (r : InstRef) (rssi : RssiRun) (w : SyncWord) (s : State) (t' : State) (h : execCapture c r rssi w s = .next t') : t'.srams = s.srams := by
  unfold execCapture at h
  refine run_srams (fun u => ?_) h
  clear h
  try dsimp only
  repeat' first
    | with_reducible rfl
    | (with_reducible refine (State.burstFail_srams _ _ _).trans ?_)
    | (with_reducible refine (State.burstRecord_srams _ _ _ _ _ _ _ _ _).trans ?_)
    | (with_reducible refine (State.modAcquirer_srams _ _ _ _).trans ?_)
    | (with_reducible refine (State.takeBurst_srams _ _ _ _ _).trans ?_)
    | (with_reducible refine (State.takeRun_srams _ _ _ _).trans ?_)
    | (with_reducible refine srams_ite ?_ ?_)
    | simp only [srams_mk, sramsOf_slices]
    | split

theorem execTrellisGrant_srams (c : Fin 4) (reqs : List SegReq) (s : State) (t' : State) (h : execTrellisGrant c reqs s = .next t') : t'.srams = s.srams := by
  unfold execTrellisGrant at h
  refine run_srams (fun u => ?_) h
  clear h
  try dsimp only
  repeat' first
    | with_reducible rfl
    | (with_reducible refine (State.present_srams _ _ _).trans ?_)
    | (with_reducible refine (srams_modSl _ _ _ (fun _ => ?_)).trans ?_)
    | (with_reducible refine (srams_foldl _ (fun _ _ => ?_) _ _).trans ?_)
    | (with_reducible refine srams_ite ?_ ?_)
    | (with_reducible refine sram_ite ?_ ?_)
    | simp only [srams_mk, sramsOf_slices]
    | split

theorem execSegmentComplete_srams (c : Fin 4) (d : Fin 2) (snr : BitVec 16) (s : State) (t' : State) (h : execSegmentComplete c d snr s = .next t') : t'.srams = s.srams := by
  unfold execSegmentComplete at h
  refine run_srams (fun u => ?_) h
  clear h
  try dsimp only
  repeat' first
    | with_reducible rfl
    | (with_reducible refine (Slice.modDemod_srams _ _ _).trans ?_)
    | (with_reducible refine (State.blockDone_srams _ _ _ _ _ _).trans ?_)
    | (with_reducible refine (srams_modSl _ _ _ (fun _ => ?_)).trans ?_)
    | (with_reducible refine srams_ite ?_ ?_)
    | (with_reducible refine sram_ite ?_ ?_)
    | simp only [srams_mk, sramsOf_slices]
    | split

theorem execNcoRetune_srams (c : Fin 4) (t : Fin 32) (s : State) (t' : State) (h : execNcoRetune c t s = .next t') : t'.srams = s.srams := by
  unfold execNcoRetune at h
  refine run_srams (fun u => ?_) h
  clear h
  try dsimp only
  repeat' first
    | with_reducible rfl
    | (with_reducible refine (Slice.modTun_srams _ _ _).trans ?_)
    | (with_reducible refine (State.retuneInst_srams _ _ _).trans ?_)
    | (with_reducible refine (srams_modSl _ _ _ (fun _ => ?_)).trans ?_)
    | (with_reducible refine srams_ite ?_ ?_)
    | (with_reducible refine sram_ite ?_ ?_)
    | simp only [srams_mk, sramsOf_slices]
    | split

theorem execCalbgDcTrim_srams (c : Fin 4) (t : Fin 32) (di dq : Int) (rssi : RssiRun) (s : State) (t' : State) (h : execCalbgDcTrim c t di dq rssi s = .next t') : t'.srams = s.srams := by
  unfold execCalbgDcTrim at h
  refine run_srams (fun u => ?_) h
  clear h
  try dsimp only
  repeat' first
    | with_reducible rfl
    | (with_reducible refine (Slice.modTun_srams _ _ _).trans ?_)
    | (with_reducible refine (State.dcRun_srams _ _ _ _).trans ?_)
    | (with_reducible refine (State.modAfe_srams _ _ _).trans ?_)
    | (with_reducible refine (srams_modSl _ _ _ (fun _ => ?_)).trans ?_)
    | (with_reducible refine srams_ite ?_ ?_)
    | (with_reducible refine sram_ite ?_ ?_)
    | simp only [srams_mk, sramsOf_slices]
    | split

theorem execTxSend_srams (c : Fin 4) (s : State) (t' : State) (h : execTxSend c s = .next t') : t'.srams = s.srams := by
  unfold execTxSend at h
  refine run_srams (fun u => ?_) h
  clear h
  try dsimp only
  repeat' first
    | with_reducible rfl
    | (with_reducible refine (State.askTag_srams _ _ _ _ _ _).trans ?_)
    | (with_reducible refine (State.keep_srams _ _).trans ?_)
    | (with_reducible refine (State.modAfe_srams _ _ _).trans ?_)
    | (with_reducible refine (State.txFail_srams _ _ _ _).trans ?_)
    | (with_reducible refine (State.txTake_srams _ _ _).trans ?_)
    | (refine (State.askTag_fst_srams ‹_›).trans ?_)
    | (with_reducible refine srams_ite ?_ ?_)
    | simp only [srams_mk, sramsOf_slices]
    | split

theorem execPlannedKeyup_srams (c : Fin 4) (s : State) (t' : State) (h : execPlannedKeyup c s = .next t') : t'.srams = s.srams := by
  unfold execPlannedKeyup at h
  refine run_srams (fun u => ?_) h
  clear h
  try dsimp only
  repeat' first
    | with_reducible rfl
    | (with_reducible refine (State.txCheck_srams _ _).trans ?_)

theorem execTxHoldExpired_srams (c : Fin 4) (s : State) (t' : State) (h : execTxHoldExpired c s = .next t') : t'.srams = s.srams := by
  unfold execTxHoldExpired at h
  refine run_srams (fun u => ?_) h
  clear h
  try dsimp only
  repeat' first
    | with_reducible rfl
    | (with_reducible refine (State.endTx_srams _ _ _).trans ?_)
    | (with_reducible refine (State.modTx_srams _ _ _).trans ?_)
    | (with_reducible refine srams_ite ?_ ?_)
    | simp only [srams_mk, sramsOf_slices]
    | split

theorem execTrSwTransmit_srams (c : Fin 4) (s : State) (t' : State) (h : execTrSwTransmit c s = .next t') : t'.srams = s.srams := by
  unfold execTrSwTransmit at h
  refine run_srams (fun u => ?_) h
  clear h
  try dsimp only
  repeat' first
    | with_reducible rfl
    | (with_reducible refine (State.abortBurst_srams _ _ _ _).trans ?_)
    | (with_reducible refine (State.modAcquirer_srams _ _ _ _).trans ?_)
    | (with_reducible refine (State.modCmd_srams _ _ _).trans ?_)
    | (with_reducible refine (State.modTx_srams _ _ _).trans ?_)
    | (with_reducible refine (srams_foldl _ (fun _ _ => ?_) _ _).trans ?_)
    | (with_reducible refine srams_ite ?_ ?_)
    | simp only [srams_mk, sramsOf_slices]
    | split

theorem execPaEnRise_srams (c : Fin 4) (s : State) (t' : State) (h : execPaEnRise c s = .next t') : t'.srams = s.srams := by
  unfold execPaEnRise at h
  refine run_srams (fun u => ?_) h
  clear h
  try dsimp only
  repeat' first
    | with_reducible rfl
    | (with_reducible refine (State.modCmd_srams _ _ _).trans ?_)
    | (with_reducible refine (State.paRise_srams _ _ _).trans ?_)
    | (with_reducible refine (State.txRelease_srams _ _ _ _).trans ?_)
    | (with_reducible refine srams_ite ?_ ?_)
    | simp only [srams_mk, sramsOf_slices]
    | split

theorem execCoexGrant_srams (c : Fin 4) (s : State) (t' : State) (h : execCoexGrant c s = .next t') : t'.srams = s.srams := by
  unfold execCoexGrant at h
  refine run_srams (fun u => ?_) h
  clear h
  try dsimp only
  repeat' first
    | with_reducible rfl
    | (with_reducible refine (State.paRise_srams _ _ _).trans ?_)
    | (with_reducible refine (State.setGrant_srams _ _ _).trans ?_)
    | (with_reducible refine srams_ite ?_ ?_)
    | simp only [srams_mk, sramsOf_slices]
    | split

theorem execGntWaitExpired_srams (c : Fin 4) (s : State) (t' : State) (h : execGntWaitExpired c s = .next t') : t'.srams = s.srams := by
  unfold execGntWaitExpired at h
  refine run_srams (fun u => ?_) h
  clear h
  try dsimp only
  repeat' first
    | with_reducible rfl
    | (with_reducible refine (State.txRelease_srams _ _ _ _).trans ?_)
    | simp only [srams_mk, sramsOf_slices]
    | split

theorem execCoexWithdrawn_srams (c : Fin 4) (s : State) (t' : State) (h : execCoexWithdrawn c s = .next t') : t'.srams = s.srams := by
  unfold execCoexWithdrawn at h
  refine run_srams (fun u => ?_) h
  clear h
  try dsimp only
  repeat' first
    | with_reducible rfl
    | (with_reducible refine (State.setGrant_srams _ _ _).trans ?_)
    | (with_reducible refine (State.txAbort_srams _ _ _).trans ?_)
    | (with_reducible refine srams_ite ?_ ?_)
    | simp only [srams_mk, sramsOf_slices]
    | split

theorem execRampUp_srams (c : Fin 4) (s : State) (t' : State) (h : execRampUp c s = .next t') : t'.srams = s.srams := by
  unfold execRampUp at h
  refine run_srams (fun u => ?_) h
  clear h
  try dsimp only
  repeat' first
    | with_reducible rfl
    | (with_reducible refine (State.startBurst_srams _ _ _ _).trans ?_)
    | (with_reducible refine (State.txRelease_srams _ _ _ _).trans ?_)
    | (with_reducible refine srams_ite ?_ ?_)
    | simp only [srams_mk, sramsOf_slices]
    | split

theorem execRampDown_srams (c : Fin 4) (fwdMv revMv : BitVec 12) (s : State) (t' : State) (h : execRampDown c fwdMv revMv s = .next t') : t'.srams = s.srams := by
  unfold execRampDown at h
  refine run_srams (fun u => ?_) h
  clear h
  try dsimp only
  repeat' first
    | with_reducible rfl
    | (with_reducible refine (State.modCmd_srams _ _ _).trans ?_)
    | (with_reducible refine (State.modTx_srams _ _ _).trans ?_)
    | (with_reducible refine (State.rampOut_srams _ _ _ _).trans ?_)
    | (with_reducible refine (State.senseMax_srams _ _ _ _).trans ?_)
    | simp only [srams_mk, sramsOf_slices]
    | split

theorem execBurstEnd_srams (c : Fin 4) (s : State) (t' : State) (h : execBurstEnd c s = .next t') : t'.srams = s.srams := by
  unfold execBurstEnd at h
  refine run_srams (fun u => ?_) h
  clear h
  try dsimp only
  repeat' first
    | with_reducible rfl
    | (with_reducible refine (State.modCmd_srams _ _ _).trans ?_)
    | (with_reducible refine (State.modTx_srams _ _ _).trans ?_)
    | (with_reducible refine (State.txRelease_srams _ _ _ _).trans ?_)
    | (with_reducible refine srams_ite ?_ ?_)
    | simp only [srams_mk, sramsOf_slices]
    | split

theorem execNextBurst_srams (c : Fin 4) (s : State) (t' : State) (h : execNextBurst c s = .next t') : t'.srams = s.srams := by
  unfold execNextBurst at h
  refine run_srams (fun u => ?_) h
  clear h
  try dsimp only
  repeat' first
    | with_reducible rfl
    | (with_reducible refine (State.modCmd_srams _ _ _).trans ?_)
    | (with_reducible refine (State.startBurst_srams _ _ _ _).trans ?_)
    | simp only [srams_mk, sramsOf_slices]
    | split

theorem execTrSwRelease_srams (c : Fin 4) (s : State) (t' : State) (h : execTrSwRelease c s = .next t') : t'.srams = s.srams := by
  unfold execTrSwRelease at h
  refine run_srams (fun u => ?_) h
  clear h
  try dsimp only
  repeat' first
    | with_reducible rfl
    | (with_reducible refine (State.modCmd_srams _ _ _).trans ?_)
    | (with_reducible refine (State.modTx_srams _ _ _).trans ?_)
    | simp only [srams_mk, sramsOf_slices]
    | split

theorem execCoexRelease_srams (c : Fin 4) (s : State) (t' : State) (h : execCoexRelease c s = .next t') : t'.srams = s.srams := by
  unfold execCoexRelease at h
  refine run_srams (fun u => ?_) h
  clear h
  try dsimp only
  repeat' first
    | with_reducible rfl
    | (with_reducible refine (State.endTx_srams _ _ _).trans ?_)
    | simp only [srams_mk, sramsOf_slices]
    | split

theorem execSynthLocked_srams (c : Fin 4) (band : Fin 128) (us : Nat) (s : State) (t' : State) (h : execSynthLocked c band us s = .next t') : t'.srams = s.srams := by
  unfold execSynthLocked at h
  refine run_srams (fun u => ?_) h
  clear h
  try dsimp only
  repeat' first
    | with_reducible rfl
    | (with_reducible refine (State.modTx_srams _ _ _).trans ?_)
    | (with_reducible refine (State.txCheck_srams _ _).trans ?_)
    | (with_reducible refine srams_ite ?_ ?_)
    | simp only [srams_mk, sramsOf_slices]
    | split

theorem execSynthLockLoss_srams (c : Fin 4) (s : State) (t' : State) (h : execSynthLockLoss c s = .next t') : t'.srams = s.srams := by
  unfold execSynthLockLoss at h
  refine run_srams (fun u => ?_) h
  clear h
  try dsimp only
  repeat' first
    | with_reducible rfl
    | (with_reducible refine (State.modTx_srams _ _ _).trans ?_)
    | (with_reducible refine (State.txAbort_srams _ _ _).trans ?_)
    | (with_reducible refine (State.txCheck_srams _ _).trans ?_)
    | (with_reducible refine srams_ite ?_ ?_)
    | simp only [srams_mk, sramsOf_slices]
    | split

theorem execAmplifierFault_srams (c : Fin 4) (fwdMv revMv : List (BitVec 12)) (s : State) (t' : State) (h : execAmplifierFault c fwdMv revMv s = .next t') : t'.srams = s.srams := by
  unfold execAmplifierFault at h
  refine run_srams (fun u => ?_) h
  clear h
  try dsimp only
  repeat' first
    | with_reducible rfl
    | (with_reducible refine (State.modCmd_srams _ _ _).trans ?_)
    | (with_reducible refine (State.modTx_srams _ _ _).trans ?_)
    | (with_reducible refine (State.senseMax_srams _ _ _ _).trans ?_)
    | (with_reducible refine (State.txAbort_srams _ _ _).trans ?_)
    | (with_reducible refine (srams_foldl _ (fun _ _ => ?_) _ _).trans ?_)
    | (with_reducible refine srams_ite ?_ ?_)
    | simp only [srams_mk, sramsOf_slices]
    | split

theorem execCancel_srams (c : Fin 4) (s : State) (t' : State) (h : execCancel c s = .next t') : t'.srams = s.srams := by
  unfold execCancel at h
  refine run_srams (fun u => ?_) h
  clear h
  try dsimp only
  repeat' first
    | with_reducible rfl
    | (with_reducible refine (State.writeTxCtl_srams _ _ _).trans ?_)
    | (with_reducible refine (State.sliceWrite_srams _ _ _ _ (fun _ => ?_)).trans ?_)

theorem execFaultClr_srams (c : Fin 4) (s : State) (t' : State) (h : execFaultClr c s = .next t') : t'.srams = s.srams := by
  unfold execFaultClr at h
  refine run_srams (fun u => ?_) h
  clear h
  try dsimp only
  repeat' first
    | with_reducible rfl
    | (with_reducible refine (State.writeTxCtl_srams _ _ _).trans ?_)
    | (with_reducible refine (State.sliceWrite_srams _ _ _ _ (fun _ => ?_)).trans ?_)

theorem execTxRxwin_srams (c : Fin 4) (s : State) (t' : State) (h : execTxRxwin c s = .next t') : t'.srams = s.srams := by
  unfold execTxRxwin at h
  refine run_srams (fun u => ?_) h
  clear h
  try dsimp only
  repeat' first
    | with_reducible rfl
    | (with_reducible refine (State.finish_srams _ _ _ _).trans ?_)
    | (with_reducible refine (State.keep_srams _ _).trans ?_)
    | (with_reducible refine (State.modTx_srams _ _ _).trans ?_)
    | (with_reducible refine (State.openWindows_srams _ _).trans ?_)
    | (with_reducible refine srams_ite ?_ ?_)
    | simp only [srams_mk, sramsOf_slices]
    | split

theorem execRxwinOpen_srams (c : Fin 4) (s : State) (t' : State) (h : execRxwinOpen c s = .next t') : t'.srams = s.srams := by
  unfold execRxwinOpen at h
  refine run_srams (fun u => ?_) h
  clear h
  try dsimp only
  repeat' first
    | with_reducible rfl
    | (with_reducible refine (State.modTx_srams _ _ _).trans ?_)
    | (with_reducible refine (State.openWindows_srams _ _).trans ?_)

theorem execRxwinEnd_srams (c : Fin 4) (up : Bool) (s : State) (t' : State) (h : execRxwinEnd c up s = .next t') : t'.srams = s.srams := by
  unfold execRxwinEnd at h
  refine run_srams (fun u => ?_) h
  clear h
  try dsimp only
  repeat' first
    | with_reducible rfl
    | (with_reducible refine (State.complete_srams _ _ _ _).trans ?_)
    | (with_reducible refine (State.modTx_srams _ _ _).trans ?_)
    | (with_reducible refine (State.txCheck_srams _ _).trans ?_)
    | (with_reducible refine srams_ite ?_ ?_)
    | simp only [srams_mk, sramsOf_slices]
    | split

theorem execRegInEdge_srams (s : State) (t' : State) (h : execRegInEdge s = .next t') : t'.srams = s.srams := by
  unfold execRegInEdge at h
  refine run_srams (fun u => ?_) h
  clear h
  try dsimp only
  repeat' first
    | with_reducible rfl
    | (with_reducible refine (State.armReg_srams _ _).trans ?_)
    | (with_reducible refine (State.originate_srams _ _ _ _ _ _ _).trans ?_)
    | (with_reducible refine (State.rejectReg_srams _).trans ?_)
    | (with_reducible refine srams_ite ?_ ?_)
    | simp only [srams_mk, sramsOf_slices]
    | split

theorem execRegistration_srams (s : State) (t' : State) (h : execRegistration s = .next t') : t'.srams = s.srams := by
  unfold execRegistration at h
  refine run_srams (fun u => ?_) h
  clear h
  try dsimp only
  repeat' first
    | with_reducible rfl
    | (with_reducible refine (State.register_srams _ _ _ _).trans ?_)
    | (with_reducible refine srams_ite ?_ ?_)
    | simp only [srams_mk, sramsOf_slices]
    | split

theorem execTrkRegArm_srams (s : State) (t' : State) (h : execTrkRegArm s = .next t') : t'.srams = s.srams := by
  unfold execTrkRegArm at h
  refine run_srams (fun u => ?_) h
  clear h
  try dsimp only
  repeat' first
    | with_reducible rfl
    | (with_reducible refine (State.armReg_srams _ _).trans ?_)
    | (with_reducible refine (State.finish_srams _ _ _ _).trans ?_)
    | (with_reducible refine (State.sendRegArm_srams _ _ _ _ _).trans ?_)
    | (with_reducible refine srams_ite ?_ ?_)
    | simp only [srams_mk, sramsOf_slices]
    | split

theorem execTrkRegCancel_srams (s : State) (t' : State) (h : execTrkRegCancel s = .next t') : t'.srams = s.srams := by
  unfold execTrkRegCancel at h
  refine run_srams (fun u => ?_) h
  clear h
  try dsimp only
  repeat' first
    | with_reducible rfl
    | (with_reducible refine (State.cancelReg_srams _ _).trans ?_)
    | (with_reducible refine (State.finish_srams _ _ _ _).trans ?_)
    | (with_reducible refine (State.sendRegArm_srams _ _ _ _ _).trans ?_)
    | (with_reducible refine srams_ite ?_ ?_)
    | simp only [srams_mk, sramsOf_slices]
    | split

theorem execFrameCrcError_srams (p : Fin 3) (s : State) (f : Option BadFrame := none) (t' : State) (h : execFrameCrcError p s f = .next t') : t'.srams = s.srams := by
  unfold execFrameCrcError at h
  refine run_srams (fun u => ?_) h
  clear h
  try dsimp only
  repeat' first
    | with_reducible rfl
    | (with_reducible refine (State.modPort_srams _ _ _).trans ?_)
    | (with_reducible refine (State.passBad_srams _ _ _).trans ?_)
    | (with_reducible refine srams_ite ?_ ?_)
    | simp only [srams_mk, sramsOf_slices]
    | split

theorem execAbortedStream_srams (p : Fin 3) (s : State) (copies : List (Fin 3) := []) (t' : State) (h : execAbortedStream p s copies = .next t') : t'.srams = s.srams := by
  unfold execAbortedStream at h
  refine run_srams (fun u => ?_) h
  clear h
  try dsimp only
  repeat' first
    | with_reducible rfl
    | (with_reducible refine (State.modPort_srams _ _ _).trans ?_)
    | (with_reducible refine (srams_foldl _ (fun _ _ => ?_) _ _).trans ?_)
    | (with_reducible refine srams_ite ?_ ?_)
    | simp only [srams_mk, sramsOf_slices]
    | split

theorem execLinkUp_srams (p : Fin 3) (s : State) (t' : State) (h : execLinkUp p s = .next t') : t'.srams = s.srams := by
  unfold execLinkUp at h
  refine run_srams (fun u => ?_) h
  clear h
  try dsimp only
  repeat' first
    | with_reducible rfl
    | (with_reducible refine (State.announce_srams _ _).trans ?_)
    | (with_reducible refine (State.modPort_srams _ _ _).trans ?_)
    | (with_reducible refine (State.setPort_srams _ _ _).trans ?_)
    | (with_reducible refine srams_ite ?_ ?_)
    | simp only [srams_mk, sramsOf_slices]
    | split

theorem execLinkLost_srams (p : Fin 3) (s : State) (signal : Bool := false) (t' : State) (h : execLinkLost p s signal = .next t') : t'.srams = s.srams := by
  unfold execLinkLost at h
  refine run_srams (fun u => ?_) h
  clear h
  try dsimp only
  repeat' first
    | with_reducible rfl
    | (with_reducible refine (State.modPort_srams _ _ _).trans ?_)
    | (with_reducible refine (State.portDown_srams _ _).trans ?_)
    | (with_reducible refine srams_ite ?_ ?_)
    | simp only [srams_mk, sramsOf_slices]
    | split

theorem execProbeTimeout_srams (p : Fin 3) (s : State) (t' : State) (h : execProbeTimeout p s = .next t') : t'.srams = s.srams := by
  unfold execProbeTimeout at h
  refine run_srams (fun u => ?_) h
  clear h
  try dsimp only
  repeat' first
    | with_reducible rfl
    | (with_reducible refine (State.setPort_srams _ _ _).trans ?_)
    | (with_reducible refine srams_ite ?_ ?_)
    | split

theorem execAnnounceTick_srams (s : State) (t' : State) (h : execAnnounceTick s = .next t') : t'.srams = s.srams := by
  unfold execAnnounceTick at h
  refine run_srams (fun u => ?_) h
  clear h
  try dsimp only
  repeat' first
    | with_reducible rfl
    | (with_reducible refine (State.announceAll_srams _).trans ?_)

theorem execAnnounce_srams (p : Fin 3) (f : RxFrame) (s : State) (t' : State) (h : execAnnounce p f s = .next t') : t'.srams = s.srams := by
  unfold execAnnounce at h
  refine run_srams (fun u => ?_) h
  clear h
  try dsimp only
  repeat' first
    | with_reducible rfl
    | (with_reducible refine (State.hearAnnounce_srams _ _ _).trans ?_)
    | (with_reducible refine (State.receive_srams _ _ _ _ _ _ _ (fun _ => ?_)).trans ?_)

theorem execTopology_srams (p : Fin 3) (f : RxFrame) (s : State) (t' : State) (h : execTopology p f s = .next t') : t'.srams = s.srams := by
  unfold execTopology at h
  refine run_srams (fun u => ?_) h
  clear h
  try dsimp only
  repeat' first
    | with_reducible rfl
    | (with_reducible refine (State.trkEvent_srams _ _).trans ?_)
    | (with_reducible refine (State.receive_srams _ _ _ _ _ _ _ (fun _ => ?_)).trans ?_)
    | (with_reducible refine srams_ite ?_ ?_)
    | simp only [srams_mk, sramsOf_slices]
    | split

theorem execReparentHoldEnd_srams (s : State) (t' : State) (h : execReparentHoldEnd s = .next t') : t'.srams = s.srams := by
  unfold execReparentHoldEnd at h
  refine run_srams (fun u => ?_) h
  clear h
  try dsimp only
  repeat' first
    | with_reducible rfl
    | (with_reducible refine (State.tryAttach_srams _).trans ?_)
    | (with_reducible refine srams_ite ?_ ?_)
    | simp only [srams_mk, sramsOf_slices]
    | split

theorem execReparent_srams (s : State) (t' : State) (h : execReparent s = .next t') : t'.srams = s.srams := by
  unfold execReparent at h
  refine run_srams (fun u => ?_) h
  clear h
  try dsimp only
  repeat' first
    | with_reducible rfl
    | (with_reducible refine (State.startReparent_srams _).trans ?_)
    | (with_reducible refine (moduleWrite_srams _ _ (fun _ => ?_)).trans ?_)

theorem execTrkCfgWrite_srams (value : Word) (s : State) (t' : State) (h : execTrkCfgWrite value s = .next t') : t'.srams = s.srams := by
  unfold execTrkCfgWrite at h
  refine run_srams (fun u => ?_) h
  clear h
  try dsimp only
  repeat' first
    | with_reducible rfl
    | (with_reducible refine (State.writeTrkCfg_srams _ _).trans ?_)
    | (with_reducible refine (moduleWrite_srams _ _ (fun _ => ?_)).trans ?_)

theorem execTbEpoch_srams (e0 e1 e2 e3 : Int) (s : State) (t' : State) (h : execTbEpoch e0 e1 e2 e3 s = .next t') : t'.srams = s.srams := by
  unfold execTbEpoch at h
  refine run_srams (fun u => ?_) h
  clear h
  try dsimp only
  repeat' first
    | with_reducible rfl
    | (with_reducible refine (State.clockEpoch_srams _ _ _ _ _).trans ?_)
    | (with_reducible refine (State.syncAll_srams _).trans ?_)
    | (with_reducible refine srams_ite ?_ ?_)
    | split

theorem execSync_srams (p : Fin 3) (f : RxFrame) (s : State) (t' : State) (h : execSync p f s = .next t') : t'.srams = s.srams := by
  unfold execSync at h
  refine run_srams (fun u => ?_) h
  clear h
  try dsimp only
  repeat' first
    | with_reducible rfl
    | (with_reducible refine (State.hearSync_srams _ _ _).trans ?_)
    | (with_reducible refine (State.receive_srams _ _ _ _ _ _ _ (fun _ => ?_)).trans ?_)

theorem execDelayReq_srams (p : Fin 3) (f : RxFrame) (s : State) (t' : State) (h : execDelayReq p f s = .next t') : t'.srams = s.srams := by
  unfold execDelayReq at h
  refine run_srams (fun u => ?_) h
  clear h
  try dsimp only
  repeat' first
    | with_reducible rfl
    | (with_reducible refine (State.modPort_srams _ _ _).trans ?_)
    | (with_reducible refine (State.receive_srams _ _ _ _ _ _ _ (fun _ => ?_)).trans ?_)
    | (with_reducible refine srams_ite ?_ ?_)
    | simp only [srams_mk, sramsOf_slices]
    | split

theorem execRegArm_srams (p : Fin 3) (f : RxFrame) (s : State) (t' : State) (h : execRegArm p f s = .next t') : t'.srams = s.srams := by
  unfold execRegArm at h
  refine run_srams (fun u => ?_) h
  clear h
  try dsimp only
  repeat' first
    | with_reducible rfl
    | (with_reducible refine (State.hearRegArm_srams _ _).trans ?_)
    | (with_reducible refine (State.receive_srams _ _ _ _ _ _ _ (fun _ => ?_)).trans ?_)

theorem execRecordFrame_srams (p : Fin 3) (f : RxFrame) (s : State) (t' : State) (h : execRecordFrame p f s = .next t') : t'.srams = s.srams := by
  unfold execRecordFrame at h
  refine run_srams (fun u => ?_) h
  clear h
  try dsimp only
  repeat' first
    | with_reducible rfl
    | (with_reducible refine (State.stage_srams _ _ _).trans ?_)
    | (with_reducible refine (State.receive_srams _ _ _ _ _ _ _ (fun _ => ?_)).trans ?_)

theorem execTrkPush_srams (s : State) (ecc : Option Bool := none) (t' : State) (h : execTrkPush s ecc = .next t') : t'.srams = s.srams := by
  unfold execTrkPush at h
  refine run_srams (fun u => ?_) h
  clear h
  try dsimp only
  repeat' first
    | with_reducible rfl
    | (with_reducible refine (State.eccMaybe_srams _ _ _).trans ?_)
    | (with_reducible refine (State.feedPush_srams _).trans ?_)
    | (with_reducible refine (State.finish_srams _ _ _ _).trans ?_)
    | (with_reducible refine (State.keep_srams _ _).trans ?_)
    | (with_reducible refine srams_ite ?_ ?_)
    | simp only [srams_mk, sramsOf_slices]
    | split

theorem execPushRound_srams (s : State) (t' : State) (h : execPushRound s = .next t') : t'.srams = s.srams := by
  unfold execPushRound at h
  refine run_srams (fun u => ?_) h
  clear h
  try dsimp only
  repeat' first
    | with_reducible rfl
    | (with_reducible refine (State.complete_srams _ _ _ _).trans ?_)
    | (with_reducible refine (State.feedPush_srams _).trans ?_)
    | (with_reducible refine srams_ite ?_ ?_)
    | simp only [srams_mk, sramsOf_slices]
    | split

theorem execXferStatus_srams (p : Fin 3) (f : RxFrame) (s : State) (t' : State) (h : execXferStatus p f s = .next t') : t'.srams = s.srams := by
  unfold execXferStatus at h
  refine run_srams (fun u => ?_) h
  clear h
  try dsimp only
  repeat' first
    | with_reducible rfl
    | (with_reducible refine (State.receive_srams _ _ _ _ _ _ _ (fun _ => ?_)).trans ?_)
    | (with_reducible refine srams_ite ?_ ?_)
    | simp only [srams_mk, sramsOf_slices]
    | split

theorem execChunkFrame_srams (p : Fin 3) (f : RxFrame) (s : State) (t' : State) (h : execChunkFrame p f s = .next t') : t'.srams = s.srams := by
  unfold execChunkFrame at h
  refine run_srams (fun u => ?_) h
  clear h
  try dsimp only
  repeat' first
    | with_reducible rfl
    | (with_reducible refine (State.putTransfer_srams _ _).trans ?_)
    | (with_reducible refine (State.receive_srams _ _ _ _ _ _ _ (fun _ => ?_)).trans ?_)
    | (with_reducible refine srams_ite ?_ ?_)
    | simp only [srams_mk, sramsOf_slices]
    | split

theorem execEndFrame_srams (p : Fin 3) (f : RxFrame) (s : State) (t' : State) (h : execEndFrame p f s = .next t') : t'.srams = s.srams := by
  unfold execEndFrame at h
  refine run_srams (fun u => ?_) h
  clear h
  try dsimp only
  repeat' first
    | with_reducible rfl
    | (with_reducible refine (State.hearEnd_srams _ _).trans ?_)
    | (with_reducible refine (State.receive_srams _ _ _ _ _ _ _ (fun _ => ?_)).trans ?_)

theorem execTransferDrop_srams (id : Word) (s : State) (t' : State) (h : execTransferDrop id s = .next t') : t'.srams = s.srams := by
  unfold execTransferDrop at h
  refine run_srams (fun u => ?_) h
  clear h
  try dsimp only
  repeat' first
    | with_reducible rfl
    | simp only [srams_mk, sramsOf_slices]

theorem execTrunkEgress_srams (p : Fin 3) (s : State) (t' : State) (h : execTrunkEgress p s = .next t') : t'.srams = s.srams := by
  unfold execTrunkEgress at h
  refine run_srams (fun u => ?_) h
  clear h
  try dsimp only
  repeat' first
    | with_reducible rfl
    | (with_reducible refine (State.feedPush_srams _).trans ?_)
    | (with_reducible refine (State.modPort_srams _ _ _).trans ?_)
    | (with_reducible refine (emit_srams _ _).trans ?_)
    | (with_reducible refine srams_ite ?_ ?_)
    | simp only [srams_mk, sramsOf_slices]
    | split

theorem execTrkSave_srams (s : State) (t' : State) (h : execTrkSave s = .next t') : t'.srams = s.srams := by
  unfold execTrkSave at h
  refine run_srams (fun u => ?_) h
  clear h
  try dsimp only
  repeat' first
    | with_reducible rfl
    | (with_reducible refine (State.finish_srams _ _ _ _).trans ?_)
    | (with_reducible refine (State.flashDeny_srams _).trans ?_)
    | (with_reducible refine (State.keep_srams _ _).trans ?_)
    | (with_reducible refine (State.flashWrite_srams ‹_›).trans ?_)
    | simp only [srams_mk, sramsOf_slices]
    | split

theorem execTrkExport_srams (s : State) (t' : State) (h : execTrkExport s = .next t') : t'.srams = s.srams := by
  unfold execTrkExport at h
  refine run_srams (fun u => ?_) h
  clear h
  try dsimp only
  repeat' first
    | with_reducible rfl
    | (with_reducible refine (State.finish_srams _ _ _ _).trans ?_)
    | (with_reducible refine srams_ite ?_ ?_)
    | simp only [srams_mk, sramsOf_slices]
    | split

theorem execLockupInstant_srams (c : Fin 4) (s : State) (t' : State) (h : execLockupInstant c s = .next t') : t'.srams = s.srams := by
  unfold execLockupInstant at h
  refine run_srams (fun u => ?_) h
  clear h
  try dsimp only
  repeat' first
    | with_reducible rfl
    | (with_reducible refine (State.lockNow_srams _ _ _ _).trans ?_)
    | (with_reducible refine srams_ite ?_ ?_)
    | simp only [srams_mk, sramsOf_slices]
    | split

theorem execFormeSetChunk_srams (c : Fin 4) (s : State) (t' : State) (h : execFormeSetChunk c s = .next t') : t'.srams = s.srams := by
  unfold execFormeSetChunk at h
  refine run_srams (fun u => ?_) h
  clear h
  try dsimp only
  repeat' first
    | with_reducible rfl
    | (with_reducible refine (State.finish_srams _ _ _ _).trans ?_)
    | (with_reducible refine (State.setChunk_srams _ _ _ _ _).trans ?_)
    | (with_reducible refine srams_ite ?_ ?_)
    | simp only [srams_mk, sramsOf_slices]
    | split

theorem execFormeLockup_srams (c : Fin 4) (s : State) (t' : State) (h : execFormeLockup c s = .next t') : t'.srams = s.srams := by
  unfold execFormeLockup at h
  refine run_srams (fun u => ?_) h
  clear h
  try dsimp only
  repeat' first
    | with_reducible rfl
    | (with_reducible refine (State.acceptLockup_srams _ _ _ _ _ _).trans ?_)
    | (with_reducible refine (State.finish_srams _ _ _ _).trans ?_)
    | (with_reducible refine srams_ite ?_ ?_)
    | simp only [srams_mk, sramsOf_slices]
    | split

theorem execFormeDiscard_srams (c : Fin 4) (s : State) (t' : State) (h : execFormeDiscard c s = .next t') : t'.srams = s.srams := by
  unfold execFormeDiscard at h
  refine run_srams (fun u => ?_) h
  clear h
  try dsimp only
  repeat' first
    | with_reducible rfl
    | (with_reducible refine (State.clearArea_srams _ _ _).trans ?_)
    | (with_reducible refine (State.finish_srams _ _ _ _).trans ?_)
    | (with_reducible refine srams_ite ?_ ?_)
    | simp only [srams_mk, sramsOf_slices]
    | split

theorem execFormeQuery_srams (c : Fin 4) (s : State) (t' : State) (h : execFormeQuery c s = .next t') : t'.srams = s.srams := by
  unfold execFormeQuery at h
  refine run_srams (fun u => ?_) h
  clear h
  try dsimp only
  repeat' first
    | with_reducible rfl
    | (with_reducible refine (State.finish_srams _ _ _ _).trans ?_)
    | (with_reducible refine srams_ite ?_ ?_)
    | simp only [srams_mk, sramsOf_slices]
    | split

theorem execStagingTimeout_srams (c : Fin 4) (s : State) (t' : State) (h : execStagingTimeout c s = .next t') : t'.srams = s.srams := by
  unfold execStagingTimeout at h
  refine run_srams (fun u => ?_) h
  clear h
  try dsimp only
  repeat' first
    | with_reducible rfl
    | (with_reducible refine (State.fault_srams _ _).trans ?_)
    | (with_reducible refine (State.setArea_srams _ _ _).trans ?_)
    | (with_reducible refine (srams_modSl _ _ _ (fun _ => ?_)).trans ?_)
    | (with_reducible refine srams_ite ?_ ?_)
    | (with_reducible refine sram_ite ?_ ?_)
    | simp only [srams_mk, sramsOf_slices]
    | split

theorem execLibStore_srams (s : State) (t' : State) (h : execLibStore s = .next t') : t'.srams = s.srams := by
  unfold execLibStore at h
  refine run_srams (fun u => ?_) h
  clear h
  try dsimp only
  repeat' first
    | with_reducible rfl
    | (with_reducible refine (State.finish_srams _ _ _ _).trans ?_)
    | (with_reducible refine (State.flashDeny_srams _).trans ?_)
    | (with_reducible refine (State.keep_srams _ _).trans ?_)
    | (with_reducible refine (State.flashWrite_srams ‹_›).trans ?_)
    | (with_reducible refine srams_ite ?_ ?_)
    | simp only [srams_mk, sramsOf_slices]
    | split

theorem execLibLoad_srams (s : State) (ecc : Option Bool := none) (t' : State) (h : execLibLoad s ecc = .next t') : t'.srams = s.srams := by
  unfold execLibLoad at h
  refine run_srams (fun u => ?_) h
  clear h
  try dsimp only
  repeat' first
    | with_reducible rfl
    | (with_reducible refine (State.areaDone_srams _ _ _ _).trans ?_)
    | (with_reducible refine (State.eccMaybe_srams _ _ _).trans ?_)
    | (with_reducible refine (State.finish_srams _ _ _ _).trans ?_)
    | (with_reducible refine srams_ite ?_ ?_)
    | simp only [srams_mk, sramsOf_slices]
    | split

theorem execLibErase_srams (s : State) (t' : State) (h : execLibErase s = .next t') : t'.srams = s.srams := by
  unfold execLibErase at h
  refine run_srams (fun u => ?_) h
  clear h
  try dsimp only
  repeat' first
    | with_reducible rfl
    | (with_reducible refine (State.finish_srams _ _ _ _).trans ?_)
    | (with_reducible refine (State.flashDeny_srams _).trans ?_)
    | (with_reducible refine (State.keep_srams _ _).trans ?_)
    | (with_reducible refine (State.flashWrite_srams ‹_›).trans ?_)
    | (with_reducible refine srams_ite ?_ ?_)
    | simp only [srams_mk, sramsOf_slices]
    | split

theorem execLibBoot_srams (s : State) (t' : State) (h : execLibBoot s = .next t') : t'.srams = s.srams := by
  unfold execLibBoot at h
  refine run_srams (fun u => ?_) h
  clear h
  try dsimp only
  repeat' first
    | with_reducible rfl
    | (with_reducible refine (State.finish_srams _ _ _ _).trans ?_)
    | (with_reducible refine srams_ite ?_ ?_)
    | simp only [srams_mk, sramsOf_slices]
    | split

theorem execLibList_srams (s : State) (t' : State) (h : execLibList s = .next t') : t'.srams = s.srams := by
  unfold execLibList at h
  refine run_srams (fun u => ?_) h
  clear h
  try dsimp only
  repeat' first
    | with_reducible rfl
    | (with_reducible refine (State.finish_srams _ _ _ _).trans ?_)
    | simp only [srams_mk, sramsOf_slices]
    | split

theorem execTbStep_srams (s : State) (t' : State) (h : execTbStep s = .next t') : t'.srams = s.srams := by
  unfold execTbStep at h
  refine run_srams (fun u => ?_) h
  clear h
  try dsimp only
  repeat' first
    | with_reducible rfl
    | (with_reducible refine (State.doStep_srams _ _).trans ?_)
    | (with_reducible refine srams_ite ?_ ?_)
    | simp only [srams_mk, sramsOf_slices]
    | split

theorem execOriginChange_srams (s : State) (t' : State) (h : execOriginChange s = .next t') : t'.srams = s.srams := by
  unfold execOriginChange at h
  refine run_srams (fun u => ?_) h
  clear h
  try dsimp only
  repeat' first
    | with_reducible rfl
    | (with_reducible refine (State.doStep_srams _ _).trans ?_)
    | (with_reducible refine srams_ite ?_ ?_)
    | simp only [srams_mk, sramsOf_slices]
    | split

theorem execTbHold_srams (s : State) (t' : State) (h : execTbHold s = .next t') : t'.srams = s.srams := by
  unfold execTbHold at h
  refine run_srams (fun u => ?_) h
  clear h
  try dsimp only
  repeat' first
    | with_reducible rfl
    | (with_reducible refine (State.doHold_srams _ _).trans ?_)
    | (with_reducible refine srams_ite ?_ ?_)
    | split

theorem execMdllLockLoss_srams (c : Fin 4) (s : State) (t' : State) (h : execMdllLockLoss c s = .next t') : t'.srams = s.srams := by
  unfold execMdllLockLoss at h
  refine run_srams (fun u => ?_) h
  clear h
  try dsimp only
  repeat' first
    | with_reducible rfl
    | (with_reducible refine (State.loseClock_srams _ _).trans ?_)
    | (with_reducible refine srams_ite ?_ ?_)
    | split

theorem execRelockRegistration_srams (c : Fin 4) (s : State) (t' : State) (h : execRelockRegistration c s = .next t') : t'.srams = s.srams := by
  unfold execRelockRegistration at h
  refine run_srams (fun u => ?_) h
  clear h
  try dsimp only
  repeat' first
    | with_reducible rfl
    | (with_reducible refine (State.rejoin_srams _ _ _).trans ?_)
    | (with_reducible refine srams_ite ?_ ?_)
    | simp only [srams_mk, sramsOf_slices]
    | split

theorem execSelfTestComplete_srams (c : Fin 4) (badPages : List Nat) (failed : Bool) (s : State) (ecc : Option Bool := none) (t' : State) (h : execSelfTestComplete c badPages failed s ecc = .next t') : t'.srams = s.srams := by
  unfold execSelfTestComplete at h
  refine run_srams (fun u => ?_) h
  clear h
  try dsimp only
  repeat' first
    | with_reducible rfl
    | (with_reducible refine (State.dropCal_srams _ _ _).trans ?_)
    | (with_reducible refine (State.eccMaybe_srams _ _ _).trans ?_)
    | (with_reducible refine (State.enterCalibrating_srams _ _ _).trans ?_)
    | (with_reducible refine (State.enterFaulted_srams _ _ _).trans ?_)
    | (with_reducible refine (State.fault_srams _ _).trans ?_)
    | (with_reducible refine srams_ite ?_ ?_)
    | split

theorem execStartupCalibrationDone_srams (c : Fin 4) (results : List CalOutcome) (s : State) (ecc : Option Bool := none) (t' : State) (h : execStartupCalibrationDone c results s ecc = .next t') : t'.srams = s.srams := by
  unfold execStartupCalibrationDone at h
  refine run_srams (fun u => ?_) h
  clear h
  try dsimp only
  repeat' first
    | with_reducible rfl
    | (with_reducible refine (State.eccMaybe_srams _ _ _).trans ?_)
    | (with_reducible refine (State.modAfe_srams _ _ _).trans ?_)
    | (with_reducible refine (State.startCal_srams _ _ _).trans ?_)
    | (with_reducible refine (State.startForme_srams _ _).trans ?_)
    | (with_reducible refine (releaseAll_srams _ _).trans ?_)
    | (with_reducible refine (srams_modSl _ _ _ (fun _ => ?_)).trans ?_)
    | (with_reducible refine (srams_foldl _ (fun _ _ => ?_) _ _).trans ?_)
    | (with_reducible refine srams_ite ?_ ?_)
    | (with_reducible refine sram_ite ?_ ?_)
    | simp only [srams_mk, sramsOf_slices]
    | split

theorem execShadowCheck_srams (c : Fin 4) (activeBad stagedBad : Bool) (s : State) (t' : State) (h : execShadowCheck c activeBad stagedBad s = .next t') : t'.srams = s.srams := by
  unfold execShadowCheck at h
  refine run_srams (fun u => ?_) h
  clear h
  try dsimp only
  repeat' first
    | with_reducible rfl
    | (with_reducible refine (State.clearArea_srams _ _ _).trans ?_)
    | (with_reducible refine (State.fault_srams _ _).trans ?_)
    | (with_reducible refine (State.modErr_srams _ _ _).trans ?_)
    | (with_reducible refine (srams_modSl _ _ _ (fun _ => ?_)).trans ?_)
    | (with_reducible refine srams_ite ?_ ?_)
    | (with_reducible refine sram_ite ?_ ?_)
    | simp only [srams_mk, sramsOf_slices]
    | split

theorem execCoefCrcCheck_srams (c : Fin 4) (upset : List (Fin 32 × Fin 2 × Nat × BitVec 20)) (s : State) (t' : State) (h : execCoefCrcCheck c upset s = .next t') : t'.srams = s.srams := by
  unfold execCoefCrcCheck at h
  refine run_srams (fun u => ?_) h
  clear h
  try dsimp only
  repeat' first
    | with_reducible rfl
    | (with_reducible refine (State.coefBad_srams _ _ _ _).trans ?_)
    | (with_reducible refine (State.coefUpset_srams _ _ _ _ _ _).trans ?_)
    | (with_reducible refine (srams_foldl _ (fun _ _ => ?_) _ _).trans ?_)
    | (with_reducible refine srams_ite ?_ ?_)
    | split

theorem execErrorInject_srams (c : Fin 4) (value : Word) (s : State) (t' : State) (h : execErrorInject c value s = .next t') : t'.srams = s.srams := by
  unfold execErrorInject at h
  refine run_srams (fun u => ?_) h
  clear h
  try dsimp only
  repeat' first
    | with_reducible rfl
    | (with_reducible refine (State.writeInject_srams _ _ _).trans ?_)
    | (with_reducible refine (State.sliceWrite_srams _ _ _ _ (fun _ => ?_)).trans ?_)

theorem execCartridgeInserted_srams (c : Fin 4) (cart : Cartridge) (s : State) (t' : State) (h : execCartridgeInserted c cart s = .next t') : t'.srams = s.srams := by
  unfold execCartridgeInserted at h
  refine run_srams (fun u => ?_) h
  clear h
  try dsimp only
  repeat' first
    | with_reducible rfl
    | (with_reducible refine (State.bayChange_srams _).trans ?_)
    | (with_reducible refine (State.identify_srams _ _).trans ?_)
    | (with_reducible refine (srams_modSl _ _ _ (fun _ => ?_)).trans ?_)
    | (with_reducible refine srams_ite ?_ ?_)
    | (with_reducible refine sram_ite ?_ ?_)
    | simp only [srams_mk, sramsOf_slices]
    | split

theorem execOnReq_srams (c : Fin 4) (s : State) (t' : State) (h : execOnReq c s = .next t') : t'.srams = s.srams := by
  unfold execOnReq at h
  refine run_srams (fun u => ?_) h
  clear h
  try dsimp only
  repeat' first
    | with_reducible rfl
    | (with_reducible refine (State.bayOn_srams _ _).trans ?_)
    | (with_reducible refine (moduleWrite_srams _ _ (fun _ => ?_)).trans ?_)

theorem execBayIdentify_srams (c : Fin 4) (s : State) (t' : State) (h : execBayIdentify c s = .next t') : t'.srams = s.srams := by
  unfold execBayIdentify at h
  refine run_srams (fun u => ?_) h
  clear h
  try dsimp only
  repeat' first
    | with_reducible rfl
    | (with_reducible refine (State.identify_srams _ _).trans ?_)
    | (with_reducible refine srams_ite ?_ ?_)
    | split

theorem execInputMeasurement_srams (m : InputMeas) (s : State) (t' : State) (h : execInputMeasurement m s = .next t') : t'.srams = s.srams := by
  unfold execInputMeasurement at h
  refine run_srams (fun u => ?_) h
  clear h
  try dsimp only
  repeat' first
    | with_reducible rfl
    | (with_reducible refine (State.modPwr_srams _ _).trans ?_)
    | (with_reducible refine srams_ite ?_ ?_)
    | simp only [srams_mk, sramsOf_slices]
    | split

theorem execBrownOut_srams (s : State) (t' : State) (h : execBrownOut s = .next t') : t'.srams = s.srams := by
  unfold execBrownOut at h
  refine run_srams (fun u => ?_) h
  clear h
  try dsimp only
  repeat' first
    | with_reducible rfl
    | (with_reducible refine (State.setClass_srams _ _ _ _).trans ?_)
    | (with_reducible refine srams_ite ?_ ?_)
    | split

theorem execNormalRestored_srams (s : State) (t' : State) (h : execNormalRestored s = .next t') : t'.srams = s.srams := by
  unfold execNormalRestored at h
  refine run_srams (fun u => ?_) h
  clear h
  try dsimp only
  repeat' first
    | with_reducible rfl
    | (with_reducible refine (State.setClass_srams _ _ _ _).trans ?_)
    | (with_reducible refine srams_ite ?_ ?_)
    | split

theorem execInputLoss_srams (s : State) (t' : State) (h : execInputLoss s = .next t') : t'.srams = s.srams := by
  unfold execInputLoss at h
  refine run_srams (fun u => ?_) h
  clear h
  try dsimp only
  repeat' first
    | with_reducible rfl
    | (with_reducible refine (State.modPwr_srams _ _).trans ?_)
    | (with_reducible refine (State.setClass_srams _ _ _ _).trans ?_)
    | (with_reducible refine (State.txStarve_srams _ _).trans ?_)
    | (with_reducible refine (srams_foldl _ (fun _ _ => ?_) _ _).trans ?_)
    | (with_reducible refine srams_ite ?_ ?_)
    | simp only [srams_mk, sramsOf_slices]
    | split

theorem execInputReturn_srams (s : State) (t' : State) (h : execInputReturn s = .next t') : t'.srams = s.srams := by
  unfold execInputReturn at h
  refine run_srams (fun u => ?_) h
  clear h
  try dsimp only
  repeat' first
    | with_reducible rfl
    | (with_reducible refine (State.setClass_srams _ _ _ _).trans ?_)
    | (with_reducible refine (ask_srams _ _ _).trans ?_)
    | (with_reducible refine srams_ite ?_ ?_)
    | split

theorem execBudgetWrite_srams (value : Word) (s : State) (t' : State) (h : execBudgetWrite value s = .next t') : t'.srams = s.srams := by
  unfold execBudgetWrite at h
  refine run_srams (fun u => ?_) h
  clear h
  try dsimp only
  repeat' first
    | with_reducible rfl
    | (with_reducible refine (State.writeBudget_srams _ _).trans ?_)
    | (with_reducible refine (moduleWrite_srams _ _ (fun _ => ?_)).trans ?_)

theorem execAuxWrite_srams (value : Word) (s : State) (t' : State) (h : execAuxWrite value s = .next t') : t'.srams = s.srams := by
  unfold execAuxWrite at h
  refine run_srams (fun u => ?_) h
  clear h
  try dsimp only
  repeat' first
    | with_reducible rfl
    | (with_reducible refine (State.writeAux_srams _ _).trans ?_)
    | (with_reducible refine (moduleWrite_srams _ _ (fun _ => ?_)).trans ?_)

theorem execAuxFault_srams (s : State) (t' : State) (h : execAuxFault s = .next t') : t'.srams = s.srams := by
  unfold execAuxFault at h
  refine run_srams (fun u => ?_) h
  clear h
  try dsimp only
  repeat' first
    | with_reducible rfl
    | (with_reducible refine (State.modPwr_srams _ _).trans ?_)
    | (with_reducible refine (State.powerEvent_srams _ _ _ _ _).trans ?_)
    | (with_reducible refine (State.pwrEvent_srams _ _).trans ?_)
    | (with_reducible refine (releaseAll_srams _ _).trans ?_)
    | (with_reducible refine srams_ite ?_ ?_)
    | simp only [srams_mk, sramsOf_slices]
    | split

theorem execPwrQuery_srams (s : State) (t' : State) (h : execPwrQuery s = .next t') : t'.srams = s.srams := by
  unfold execPwrQuery at h
  refine run_srams (fun u => ?_) h
  clear h
  try dsimp only
  repeat' first
    | with_reducible rfl
    | (with_reducible refine (State.finish_srams _ _ _ _).trans ?_)
    | simp only [srams_mk, sramsOf_slices]
    | split

theorem execPwrSave_srams (s : State) (t' : State) (h : execPwrSave s = .next t') : t'.srams = s.srams := by
  unfold execPwrSave at h
  refine run_srams (fun u => ?_) h
  clear h
  try dsimp only
  repeat' first
    | with_reducible rfl
    | (with_reducible refine (State.finish_srams _ _ _ _).trans ?_)
    | (with_reducible refine (State.flashDeny_srams _).trans ?_)
    | (with_reducible refine (State.keep_srams _ _).trans ?_)
    | (with_reducible refine (State.flashWrite_srams ‹_›).trans ?_)
    | simp only [srams_mk, sramsOf_slices]
    | split

theorem execFeatureCommit_srams (value : Word) (s : State) (t' : State) (h : execFeatureCommit value s = .next t') : t'.srams = s.srams := by
  unfold execFeatureCommit at h
  refine run_srams (fun u => ?_) h
  clear h
  try dsimp only
  repeat' first
    | with_reducible rfl
    | (with_reducible refine (State.writeAccept_srams _ _ _).trans ?_)
    | (with_reducible refine (moduleWrite_srams _ _ (fun _ => ?_)).trans ?_)

theorem execFeaSave_srams (s : State) (t' : State) (h : execFeaSave s = .next t') : t'.srams = s.srams := by
  unfold execFeaSave at h
  refine run_srams (fun u => ?_) h
  clear h
  try dsimp only
  repeat' first
    | with_reducible rfl
    | (with_reducible refine (State.finish_srams _ _ _ _).trans ?_)
    | (with_reducible refine (State.flashDeny_srams _).trans ?_)
    | (with_reducible refine (State.keep_srams _ _).trans ?_)
    | (with_reducible refine (State.flashWrite_srams ‹_›).trans ?_)
    | (with_reducible refine srams_ite ?_ ?_)
    | simp only [srams_mk, sramsOf_slices]
    | split

theorem execFwQuery_srams (s : State) (t' : State) (h : execFwQuery s = .next t') : t'.srams = s.srams := by
  unfold execFwQuery at h
  refine run_srams (fun u => ?_) h
  clear h
  try dsimp only
  repeat' first
    | with_reducible rfl
    | (with_reducible refine (State.finish_srams _ _ _ _).trans ?_)
    | simp only [srams_mk, sramsOf_slices]
    | split

theorem execFwLoadChunk_srams (s : State) (t' : State) (h : execFwLoadChunk s = .next t') : t'.srams = s.srams := by
  unfold execFwLoadChunk at h
  refine run_srams (fun u => ?_) h
  clear h
  try dsimp only
  repeat' first
    | with_reducible rfl
    | (with_reducible refine (State.countWrite_srams _ _).trans ?_)
    | (with_reducible refine (State.finish_srams _ _ _ _).trans ?_)
    | (with_reducible refine (State.flashDeny_srams _).trans ?_)
    | (with_reducible refine (State.loadImage_srams _ _ _ _).trans ?_)
    | (with_reducible refine (State.modMod_srams _ _).trans ?_)
    | (with_reducible refine srams_ite ?_ ?_)
    | simp only [srams_mk, sramsOf_slices]
    | split

theorem execFwActivate_srams (s : State) (t' : State) (h : execFwActivate s = .next t') : t'.srams = s.srams := by
  unfold execFwActivate at h
  refine run_srams (fun u => ?_) h
  clear h
  try dsimp only
  repeat' first
    | with_reducible rfl
    | (with_reducible refine (State.finish_srams _ _ _ _).trans ?_)
    | (with_reducible refine (State.keep_srams _ _).trans ?_)
    | (with_reducible refine (State.modMod_srams _ _).trans ?_)
    | (with_reducible refine srams_ite ?_ ?_)
    | simp only [srams_mk, sramsOf_slices]
    | split

theorem execSwapStart_srams (s : State) (t' : State) (h : execSwapStart s = .next t') : t'.srams = s.srams := by
  unfold execSwapStart at h
  refine run_srams (fun u => ?_) h
  clear h
  try dsimp only
  repeat' first
    | with_reducible rfl
    | (with_reducible refine (State.startSwap_srams _ _).trans ?_)
    | (with_reducible refine srams_ite ?_ ?_)
    | simp only [srams_mk, sramsOf_slices]
    | split

theorem execPushedImageActivate_srams (s : State) (t' : State) (h : execPushedImageActivate s = .next t') : t'.srams = s.srams := by
  unfold execPushedImageActivate at h
  refine run_srams (fun u => ?_) h
  clear h
  try dsimp only
  repeat' first
    | with_reducible rfl
    | (with_reducible refine (State.modMod_srams _ _).trans ?_)
    | (with_reducible refine (State.startSwap_srams _ _).trans ?_)
    | (with_reducible refine srams_ite ?_ ?_)
    | simp only [srams_mk, sramsOf_slices]
    | split

theorem execSwapDone_srams (s : State) (t' : State) (h : execSwapDone s = .next t') : t'.srams = s.srams := by
  unfold execSwapDone at h
  refine run_srams (fun u => ?_) h
  clear h
  try dsimp only
  repeat' first
    | with_reducible rfl
    | (with_reducible refine (State.afterSwap_srams _).trans ?_)
    | (with_reducible refine (State.flashJob_srams _ _ _).trans ?_)
    | (with_reducible refine (State.modMod_srams _ _).trans ?_)
    | (with_reducible refine (State.swapEnd_srams _ _ _ _).trans ?_)
    | simp only [srams_mk, sramsOf_slices]
    | split

theorem execFlashWriteDone_srams (failed : Bool) (s : State) (t' : State) (h : execFlashWriteDone failed s = .next t') : t'.srams = s.srams := by
  unfold execFlashWriteDone at h
  refine run_srams (fun u => ?_) h
  clear h
  try dsimp only
  repeat' first
    | with_reducible rfl
    | (with_reducible refine (State.jobDone_srams _ _).trans ?_)
    | (with_reducible refine (ask_srams _ _ _).trans ?_)
    | (with_reducible refine (release_srams _ _ _).trans ?_)
    | (with_reducible refine srams_ite ?_ ?_)
    | simp only [srams_mk, sramsOf_slices]
    | split

theorem execCalibrate_srams (s : State) (t' : State) (h : execCalibrate s = .next t') : t'.srams = s.srams := by
  unfold execCalibrate at h
  refine run_srams (fun u => ?_) h
  clear h
  try dsimp only
  repeat' first
    | with_reducible rfl
    | (with_reducible refine (State.takeCal_srams _ _ _).trans ?_)
    | (with_reducible refine (State.mailboxRun_srams _ _ _ (fun _ _ => ?_)).trans ?_)

theorem execCalibrateAt_srams (s : State) (t' : State) (h : execCalibrateAt s = .next t') : t'.srams = s.srams := by
  unfold execCalibrateAt at h
  refine run_srams (fun u => ?_) h
  clear h
  try dsimp only
  repeat' first
    | with_reducible rfl
    | (with_reducible refine (State.takeCal_srams _ _ _).trans ?_)
    | (with_reducible refine (State.mailboxRun_srams _ _ _ (fun _ _ => ?_)).trans ?_)

theorem execEraseKeys_srams (s : State) (t' : State) (h : execEraseKeys s = .next t') : t'.srams = s.srams := by
  unfold execEraseKeys at h
  refine run_srams (fun u => ?_) h
  clear h
  try dsimp only
  repeat' first
    | with_reducible rfl
    | (with_reducible refine (State.keyErase_srams _ _ _).trans ?_)
    | (with_reducible refine (State.mailboxRun_srams _ _ _ (fun _ _ => ?_)).trans ?_)

theorem execDeriveKey_srams (s : State) (t' : State) (h : execDeriveKey s = .next t') : t'.srams = s.srams := by
  unfold execDeriveKey at h
  refine run_srams (fun u => ?_) h
  clear h
  try dsimp only
  repeat' first
    | with_reducible rfl
    | (with_reducible refine (State.keyDerive_srams _ _ _ _).trans ?_)
    | (with_reducible refine (State.mailboxRun_srams _ _ _ (fun _ _ => ?_)).trans ?_)

theorem execMailboxBadOpcode_srams (s : State) (t' : State) (h : execMailboxBadOpcode s = .next t') : t'.srams = s.srams := by
  unfold execMailboxBadOpcode at h
  refine run_srams (fun u => ?_) h
  clear h
  try dsimp only
  repeat' first
    | with_reducible rfl
    | (with_reducible refine srams_ite ?_ ?_)
    | simp only [srams_mk, sramsOf_slices]
    | split

theorem execModuleReady_srams (s : State) (ecc : List FlashEcc := []) (t' : State) (h : execModuleReady s ecc = .next t') : t'.srams = s.srams := by
  unfold execModuleReady at h
  refine run_srams (fun u => ?_) h
  clear h
  try dsimp only
  repeat' first
    | with_reducible rfl
    | (with_reducible refine (State.eccRead_srams _ _ _).trans ?_)
    | (with_reducible refine (State.fault_srams _ _).trans ?_)
    | (with_reducible refine (State.loadSaved_srams _ _).trans ?_)
    | (with_reducible refine (srams_foldl _ (fun _ _ => ?_) _ _).trans ?_)
    | (with_reducible refine srams_ite ?_ ?_)
    | simp only [srams_mk, sramsOf_slices]
    | split

theorem execTapReset_srams (s : State) (t' : State) (h : execTapReset s = .next t') : t'.srams = s.srams := by
  unfold execTapReset at h
  refine run_srams (fun u => ?_) h
  clear h
  try dsimp only
  repeat' first
    | with_reducible rfl
    | (with_reducible refine (State.tapInstr_srams _ _).trans ?_)

theorem execExtest_srams (on : Bool) (cells : BitVec 114) (s : State) (t' : State) (h : execExtest on cells s = .next t') : t'.srams = s.srams := by
  unfold execExtest at h
  refine run_srams (fun u => ?_) h
  clear h
  try dsimp only
  repeat' first
    | with_reducible rfl
    | (with_reducible refine (State.captureDr_srams _).trans ?_)
    | (with_reducible refine (State.tapInstr_srams _ _).trans ?_)
    | (with_reducible refine srams_ite ?_ ?_)
    | simp only [srams_mk, sramsOf_slices]
    | split

theorem execTelemetryTick_srams (temps : List Int) (s : State) (t' : State) (h : execTelemetryTick temps s = .next t') : t'.srams = s.srams := by
  unfold execTelemetryTick at h
  refine run_srams (fun u => ?_) h
  clear h
  try dsimp only
  repeat' first
    | with_reducible rfl
    | (with_reducible refine (State.sliceTelemetry_srams _ _).trans ?_)
    | (with_reducible refine (State.stage_srams _ _ _).trans ?_)
    | (with_reducible refine (modSlices_srams _ _ (fun _ _ => ?_)).trans ?_)
    | (with_reducible refine (srams_foldl _ (fun _ _ => ?_) _ _).trans ?_)
    | (with_reducible refine srams_ite ?_ ?_)
    | (with_reducible refine sram_ite ?_ ?_)
    | simp only [srams_mk, sramsOf_slices]
    | split

end Sys2Proof.Machine
end

