-- ==== Sys2Proof/Laws/Frames/WfBase.lean ====
section
/-! SUPPORT. What keeps the canonical form of the slice SRAMs. -/

set_option Elab.async false

namespace Sys2Proof.Machine

open Sys2Proof

theorem sramWf_of {a b : State} (e : b.srams = a.srams) (h : SramWf a) : SramWf b := by
  intro c
  have k := congrFun e c
  simp only [State.srams] at k
  rw [k]
  exact h c

theorem sramWf_ite {p : Prop} [Decidable p] {a b : State} (ha : SramWf a) (hb : SramWf b) : SramWf (if p then a else b) := by
  split
  · exact ha
  · exact hb

/-- The canonical form of the SRAMs of a table of slices. -/
def SramWfOf (v : Vector Slice 4) : Prop := ∀ c, Memory.wf (v.get c).sram = true

theorem sramWf_mk {f0 f2 f3 f4 f5 f6 f7 f8 f9 f10 f11 f12 f13 f14 f15 f16 f17 f18 f19 f20 f21} {sl : Vector Slice 4} :
    SramWf (State.mk f0 sl f2 f3 f4 f5 f6 f7 f8 f9 f10 f11 f12 f13 f14 f15 f16 f17 f18 f19 f20 f21) ↔ SramWfOf sl :=
  Iff.rfl

theorem sramWfOf_slices (s : State) : SramWfOf s.slices ↔ SramWf s := Iff.rfl

theorem sramWf_setSl {s : State} {c : Fin 4} {x : Slice} (hx : Memory.wf x.sram = true) (h : SramWf s) :
    SramWf (s.setSl c x) := by
  intro d
  by_cases e : d = c
  · subst e; rw [State.sl_setSl]; exact hx
  · rw [State.sl_setSl_ne s x e]; exact h d

theorem sramWf_modSl {s : State} {c : Fin 4} {f : Slice → Slice} (hf : ∀ x, Memory.wf x.sram = true → Memory.wf (f x).sram = true)
    (h : SramWf s) : SramWf (s.modSl c f) :=
  sramWf_setSl (hf _ (h c)) h

theorem sramWf_foldl {α : Type} {g : State → α → State} (hg : ∀ t a, SramWf t → SramWf (g t a)) (l : List α) {s : State}
    (h : SramWf s) : SramWf (l.foldl g s) := by
  induction l generalizing s with
  | nil => exact h
  | cons a l ih => exact ih (hg _ _ h)

theorem sramWf_modSlices {s : State} {f : Fin 4 → Slice → Slice}
    (hf : ∀ c x, Memory.wf x.sram = true → Memory.wf (f c x).sram = true) (h : SramWf s) : SramWf (s.modSlices f) :=
  sramWf_foldl (fun _ c k => sramWf_modSl (hf c) k) _ h

theorem sramWf_moduleWrite {s : State} {f : State → State} (hf : ∀ t, SramWf t → SramWf (f t)) (h : SramWf s) :
    SramWf (s.moduleWrite f) := by
  unfold State.moduleWrite
  split
  · exact h
  · split
    · exact h
    · exact hf s h

theorem sramWf_qmgWrite {s : State} {f : State → State} (hf : ∀ t, SramWf t → SramWf (f t)) (h : SramWf s) :
    SramWf (s.qmgWrite f) := by
  unfold State.qmgWrite
  split
  · exact hf s h
  · exact h

theorem run_sramWf {s t : State} {f : State → State} (hf : ∀ u, SramWf u → SramWf (f u)) (h : SramWf s)
    (e : run s f = .next t) : SramWf t := by
  unfold run at e
  injection e with e
  rw [← e]
  exact sramWf_of (blockIrqs_srams s _) (hf _ h)

theorem sliceWrite_sramWf {s : State} {c : Fin 4} {off : Nat} {f : State → State} (hf : ∀ t, SramWf t → SramWf (f t))
    (h : SramWf s) : SramWf (s.sliceWrite c off f) := by
  unfold State.sliceWrite
  split
  · exact hf s h
  · exact sramWf_of (State.recordAccess_srams _ _ _ _) h

end Sys2Proof.Machine
end

