-- ==== Sys2Proof/Laws/Frames/Wf.lean ====
section
/-! SUPPORT. The operations that may change a slice SRAM keep its canonical form, one lemma each. -/

set_option Elab.async false

namespace Sys2Proof.Machine

open Sys2Proof

theorem Slice.blank_sramWf (x : Slice) : Memory.wf (Slice.blank x).sram = true := rfl

theorem State.enterReset_sramWf (s : State) (c : Fin 4) (cause : Nat) (h : SramWf s) : SramWf (State.enterReset s c cause) := by
  unfold State.enterReset
  try dsimp only
  repeat' first
    | with_reducible assumption
    | (with_reducible refine sramWf_of (State.clearWindow_srams _ _) ?_)
    | (with_reducible refine sramWf_of (State.dropTiming_srams _) ?_)
    | (with_reducible refine sramWf_of (State.recheckOffers_srams _) ?_)
    | (with_reducible refine sramWf_of (State.restoreActive_srams _ _) ?_)
    | (with_reducible refine sramWf_of (srams_modSl _ _ _ (fun _ => rfl)) ?_)
    | (with_reducible refine sramWf_modSl (fun _ _ => ?_) ?_)
    | (exact Slice.blank_sramWf _)
    | (simp only [sramWf_mk, sramWfOf_slices])

theorem State.haltNow_sramWf (s : State) (c : Fin 4) (k : Nat) (h : SramWf s) : SramWf (State.haltNow s c k) := by
  unfold State.haltNow
  try dsimp only
  repeat' first
    | with_reducible assumption
    | (with_reducible refine State.enterReset_sramWf _ _ _ ?_)
    | (with_reducible refine sramWf_of (State.enterDrain_srams _ _) ?_)
    | (with_reducible refine sramWf_of (State.enterFaulted_srams _ _ _) ?_)
    | (with_reducible refine sramWf_of (State.resetFault_srams _ _) ?_)
    | (with_reducible refine sramWf_of (State.stopBlocks_srams _ _) ?_)
    | (with_reducible refine sramWf_of (srams_modSl _ _ _ (fun _ => rfl)) ?_)
    | (with_reducible refine sramWf_modSl (fun _ _ => ?_) ?_)
    | (with_reducible refine sramWf_ite ?_ ?_)
    | (simp only [sramWf_mk, sramWfOf_slices])
    | (split)

theorem State.haltSlice_sramWf (s : State) (c : Fin 4) (k : Nat) (h : SramWf s) : SramWf (State.haltSlice s c k) := by
  unfold State.haltSlice
  try dsimp only
  repeat' first
    | with_reducible assumption
    | (with_reducible refine State.haltNow_sramWf _ _ _ ?_)
    | (with_reducible refine sramWf_of (State.modTx_srams _ _ _) ?_)
    | (with_reducible refine sramWf_of (State.txAbort_srams _ _ _) ?_)
    | (with_reducible refine sramWf_ite ?_ ?_)
    | (simp only [sramWf_mk, sramWfOf_slices])
    | (split)

theorem execAbbreviatedRampEnd_sramWf (c : Fin 4) (s : State) (t' : State) (h : SramWf s) (e : execAbbreviatedRampEnd c s = .next t') : SramWf t' := by
  unfold execAbbreviatedRampEnd at e
  refine run_sramWf (fun u hu => ?_) h e
  clear e
  try dsimp only
  repeat' first
    | with_reducible assumption
    | (with_reducible refine State.haltNow_sramWf _ _ _ ?_)
    | (with_reducible refine sramWf_of (State.abbrevEnd_srams _ _) ?_)
    | (with_reducible refine sramWf_ite ?_ ?_)
    | (simp only [sramWf_mk, sramWfOf_slices])
    | (split)

theorem State.hostReset_sramWf (s : State) (c : Fin 4) (h : SramWf s) : SramWf (State.hostReset s c) := by
  unfold State.hostReset
  try dsimp only
  repeat' first
    | with_reducible assumption
    | (with_reducible refine State.haltSlice_sramWf _ _ _ ?_)
    | (with_reducible refine sramWf_of (State.resetFault_srams _ _) ?_)
    | (with_reducible refine sramWf_of (srams_modSl _ _ _ (fun _ => rfl)) ?_)
    | (with_reducible refine sramWf_modSl (fun _ _ => ?_) ?_)
    | (with_reducible refine sramWf_ite ?_ ?_)
    | (simp only [sramWf_mk, sramWfOf_slices])
    | (split)

theorem execSliceReset_sramWf (c : Fin 4) (s : State) (t' : State) (h : SramWf s) (e : execSliceReset c s = .next t') : SramWf t' := by
  unfold execSliceReset at e
  refine run_sramWf (fun u hu => ?_) h e
  clear e
  try dsimp only
  repeat' first
    | with_reducible assumption
    | (with_reducible refine State.hostReset_sramWf _ _ ?_)

theorem State.feedBay_sramWf (s : State) (c : Fin 4) (cause : Nat) (h : SramWf s) : SramWf (State.feedBay s c cause) := by
  unfold State.feedBay
  try dsimp only
  repeat' first
    | with_reducible assumption
    | (with_reducible refine State.enterReset_sramWf _ _ _ ?_)
    | (with_reducible refine sramWf_of (State.alarmErase_srams _ _ _) ?_)
    | (with_reducible refine sramWf_of (State.bayChange_srams _) ?_)
    | (with_reducible refine sramWf_of (State.bootFault_srams _ _ _ _) ?_)
    | (with_reducible refine sramWf_of (srams_modSl _ _ _ (fun _ => rfl)) ?_)
    | (with_reducible refine sramWf_modSl (fun _ _ => ?_) ?_)
    | (with_reducible refine sramWf_foldl (fun _ _ _ => ?_) _ ?_)
    | (exact Slice.blank_sramWf _)
    | (simp only [sramWf_mk, sramWfOf_slices])
    | (split)

theorem State.sliceError_sramWf (s : State) (c : Fin 4) (status event block n : Nat) (h : SramWf s) : SramWf (State.sliceError s c status event block n) := by
  unfold State.sliceError
  try dsimp only
  repeat' first
    | with_reducible assumption
    | (with_reducible refine State.haltSlice_sramWf _ _ _ ?_)
    | (with_reducible refine sramWf_of (State.fault_srams _ _) ?_)
    | (with_reducible refine sramWf_of (srams_modSl _ _ _ (fun _ => rfl)) ?_)
    | (with_reducible refine sramWf_modSl (fun _ _ => ?_) ?_)
    | (with_reducible refine sramWf_ite ?_ ?_)
    | (simp only [sramWf_mk, sramWfOf_slices])
    | (split)

theorem State.blockError_sramWf (s : State) (c : Fin 4) (b : SliceBlock) (status event : Nat) (h : SramWf s) : SramWf (State.blockError s c b status event) := by
  unfold State.blockError
  try dsimp only
  repeat' first
    | with_reducible assumption
    | (with_reducible refine State.sliceError_sramWf _ _ _ _ _ _ ?_)
    | (with_reducible refine sramWf_of (State.modErr_srams _ _ _) ?_)
    | (with_reducible refine sramWf_of (State.resetBlock_srams _ _ _ _) ?_)
    | (with_reducible refine sramWf_ite ?_ ?_)
    | (simp only [sramWf_mk, sramWfOf_slices])
    | (split)

theorem State.countCell_sramWf (s : State) (c : Fin 4) (b : Option SliceBlock) (event : Nat) (h : SramWf s) : SramWf (State.countCell s c b event) := by
  unfold State.countCell
  try dsimp only
  repeat' first
    | with_reducible assumption
    | (with_reducible refine State.blockError_sramWf _ _ _ _ _ ?_)
    | (with_reducible refine State.sliceError_sramWf _ _ _ _ _ _ ?_)
    | (with_reducible refine sramWf_of (State.fault_srams _ _) ?_)
    | (with_reducible refine sramWf_of (State.modErr_srams _ _ _) ?_)
    | (with_reducible refine sramWf_ite ?_ ?_)
    | (simp only [sramWf_mk, sramWfOf_slices])
    | (split)

theorem State.isolateCell_sramWf (s : State) (c : Fin 4) (n : Nat) (h : SramWf s) : SramWf (State.isolateCell s c n) := by
  unfold State.isolateCell
  try dsimp only
  repeat' first
    | with_reducible assumption
    | (with_reducible refine State.countCell_sramWf _ _ _ _ ?_)
    | (with_reducible refine sramWf_of (State.failCand_srams _ _ _) ?_)
    | (with_reducible refine sramWf_of (State.fault_srams _ _) ?_)
    | (with_reducible refine sramWf_of (State.faultInst_srams _ _ _) ?_)
    | (with_reducible refine sramWf_of (srams_modSl _ _ _ (fun _ => rfl)) ?_)
    | (with_reducible refine sramWf_modSl (fun _ _ => ?_) ?_)
    | (simp only [sramWf_mk, sramWfOf_slices])
    | (split)

theorem State.isolateFilter_sramWf (s : State) (c : Fin 4) (n : Nat) (h : SramWf s) : SramWf (State.isolateFilter s c n) := by
  unfold State.isolateFilter
  try dsimp only
  repeat' first
    | with_reducible assumption
    | (with_reducible refine State.countCell_sramWf _ _ _ _ ?_)
    | (with_reducible refine sramWf_of (State.failCand_srams _ _ _) ?_)
    | (with_reducible refine sramWf_of (State.fault_srams _ _) ?_)
    | (with_reducible refine sramWf_of (State.faultTuning_srams _ _ _) ?_)
    | (with_reducible refine sramWf_of (State.modErr_srams _ _ _) ?_)
    | (with_reducible refine sramWf_ite ?_ ?_)
    | (simp only [sramWf_mk, sramWfOf_slices])
    | (split)

theorem State.isolateFifo_sramWf (s : State) (c : Fin 4) (b : SliceBlock) (n : Nat) (o : FifoOwner) (h : SramWf s) : SramWf (State.isolateFifo s c b n o) := by
  unfold State.isolateFifo
  try dsimp only
  repeat' first
    | with_reducible assumption
    | (with_reducible refine State.countCell_sramWf _ _ _ _ ?_)
    | (with_reducible refine sramWf_of (State.fault_srams _ _) ?_)
    | (with_reducible refine sramWf_of (State.faultCtx_srams _ _ _) ?_)
    | (with_reducible refine sramWf_of (State.faultTuning_srams _ _ _) ?_)
    | (with_reducible refine sramWf_of (State.modErr_srams _ _ _) ?_)
    | (simp only [sramWf_mk, sramWfOf_slices])
    | (split)

theorem execCellParity_sramWf (c : Fin 4) (cell : CellRef) (s : State) (t' : State) (h : SramWf s) (e : execCellParity c cell s = .next t') : SramWf t' := by
  unfold execCellParity at e
  refine run_sramWf (fun u hu => ?_) h e
  clear e
  try dsimp only
  repeat' first
    | with_reducible assumption
    | (with_reducible refine State.isolateCell_sramWf _ _ _ ?_)
    | (with_reducible refine State.isolateFifo_sramWf _ _ _ _ _ ?_)
    | (with_reducible refine State.isolateFilter_sramWf _ _ _ ?_)
    | (with_reducible refine State.sliceError_sramWf _ _ _ _ _ _ ?_)
    | (with_reducible refine sramWf_of (State.modErr_srams _ _ _) ?_)
    | (with_reducible refine sramWf_ite ?_ ?_)
    | (simp only [sramWf_mk, sramWfOf_slices])
    | (split)

theorem Slice.retirePage_sramWf (x : Slice) (p : Nat) (h : Memory.wf x.sram = true) : Memory.wf (Slice.retirePage x p).sram = true := by
  unfold Slice.retirePage
  try dsimp only
  repeat' first
    | with_reducible assumption
    | with_reducible rfl
    | exact memClear_wf _ _ _ h
    | (with_reducible refine sramWf_ite ?_ ?_)
    | (simp only [sramWf_mk, sramWfOf_slices])
    | (split)

theorem State.ownPage_sramWf (s : State) (c : Fin 4) (off : Nat) (o : PageOwner) (h : SramWf s) : SramWf (State.ownPage s c off o) := by
  unfold State.ownPage
  try dsimp only
  repeat' first
    | with_reducible assumption
    | (with_reducible refine State.blockError_sramWf _ _ _ _ _ ?_)
    | (with_reducible refine sramWf_of (State.fault_srams _ _) ?_)
    | (with_reducible refine sramWf_of (State.faultCtx_srams _ _ _) ?_)
    | (with_reducible refine sramWf_of (State.faultInst_srams _ _ _) ?_)
    | (with_reducible refine sramWf_of (State.faultTuning_srams _ _ _) ?_)
    | (with_reducible refine sramWf_of (State.loseStaged_srams _ _ _ _) ?_)
    | (with_reducible refine sramWf_of (State.pageFault_srams _ _ _ _ _ _) ?_)
    | (with_reducible refine sramWf_foldl (fun _ _ _ => ?_) _ ?_)
    | (with_reducible refine sramWf_ite ?_ ?_)
    | (simp only [sramWf_mk, sramWfOf_slices])
    | (split)

theorem State.sramError_sramWf (s : State) (c : Fin 4) (off : Nat) (o : PageOwner) (h : SramWf s) : SramWf (State.sramError s c off o) := by
  unfold State.sramError
  try dsimp only
  repeat' first
    | with_reducible assumption
    | (with_reducible refine Slice.retirePage_sramWf _ _ ?_)
    | (with_reducible refine State.blockError_sramWf _ _ _ _ _ ?_)
    | (with_reducible refine State.countCell_sramWf _ _ _ _ ?_)
    | (with_reducible refine State.ownPage_sramWf _ _ _ _ ?_)
    | (with_reducible refine State.sliceError_sramWf _ _ _ _ _ _ ?_)
    | (with_reducible refine sramWf_of (State.fault_srams _ _) ?_)
    | (with_reducible refine sramWf_of (State.modErr_srams _ _ _) ?_)
    | (with_reducible refine sramWf_of (srams_modSl _ _ _ (fun _ => rfl)) ?_)
    | (with_reducible refine sramWf_modSl (fun _ _ => ?_) ?_)
    | (with_reducible refine sramWf_ite ?_ ?_)
    | (simp only [sramWf_mk, sramWfOf_slices])
    | (split)

theorem execSramParity_sramWf (c : Fin 4) (offset : BitVec 24) (owner : PageOwner) (s : State) (hostSize : Option Nat := none) (t' : State) (h : SramWf s) (e : execSramParity c offset owner s hostSize = .next t') : SramWf t' := by
  unfold execSramParity at e
  refine run_sramWf (fun u hu => ?_) h e
  clear e
  try dsimp only
  repeat' first
    | with_reducible assumption
    | (with_reducible refine State.sramError_sramWf _ _ _ _ ?_)
    | (with_reducible refine sramWf_of (State.hostBadRead_srams _ _ _ _) ?_)
    | (with_reducible refine sramWf_ite ?_ ?_)
    | (simp only [sramWf_mk, sramWfOf_slices])
    | (split)

theorem execTrellisParity_sramWf (c : Fin 4) (decoder : Fin 2) (s : State) (t' : State) (h : SramWf s) (e : execTrellisParity c decoder s = .next t') : SramWf t' := by
  unfold execTrellisParity at e
  refine run_sramWf (fun u hu => ?_) h e
  clear e
  try dsimp only
  repeat' first
    | with_reducible assumption
    | (with_reducible refine State.blockError_sramWf _ _ _ _ _ ?_)
    | (with_reducible refine sramWf_of (State.fault_srams _ _) ?_)
    | (with_reducible refine sramWf_of (State.modErr_srams _ _ _) ?_)
    | (with_reducible refine sramWf_ite ?_ ?_)
    | (simp only [sramWf_mk, sramWfOf_slices])
    | (split)

theorem execBlockResetTimeout_sramWf (c : Fin 4) (block : SliceBlock) (s : State) (t' : State) (h : SramWf s) (e : execBlockResetTimeout c block s = .next t') : SramWf t' := by
  unfold execBlockResetTimeout at e
  refine run_sramWf (fun u hu => ?_) h e
  clear e
  try dsimp only
  repeat' first
    | with_reducible assumption
    | (with_reducible refine State.sliceError_sramWf _ _ _ _ _ _ ?_)
    | (with_reducible refine sramWf_of (State.fault_srams _ _) ?_)
    | (with_reducible refine sramWf_of (State.modErr_srams _ _ _) ?_)
    | (with_reducible refine sramWf_ite ?_ ?_)
    | (simp only [sramWf_mk, sramWfOf_slices])
    | (split)

theorem State.countBus_sramWf (s : State) (c : Fin 4) (h : SramWf s) : SramWf (State.countBus s c) := by
  unfold State.countBus
  try dsimp only
  repeat' first
    | with_reducible assumption
    | (with_reducible refine State.sliceError_sramWf _ _ _ _ _ _ ?_)
    | (with_reducible refine sramWf_of (State.modErr_srams _ _ _) ?_)
    | (with_reducible refine sramWf_ite ?_ ?_)
    | (simp only [sramWf_mk, sramWfOf_slices])
    | (split)

theorem State.busError_sramWf (s : State) (c : Fin 4) (requester : Nat) (h : SramWf s) : SramWf (State.busError s c requester) := by
  unfold State.busError
  try dsimp only
  repeat' first
    | with_reducible assumption
    | (with_reducible refine State.blockError_sramWf _ _ _ _ _ ?_)
    | (with_reducible refine State.countBus_sramWf _ _ ?_)
    | (with_reducible refine sramWf_of (State.fault_srams _ _) ?_)
    | (with_reducible refine sramWf_of (State.modErr_srams _ _ _) ?_)
    | (with_reducible refine sramWf_ite ?_ ?_)
    | (simp only [sramWf_mk, sramWfOf_slices])
    | (split)

theorem State.badRead_sramWf (s : State) (c : Fin 4) (word : Nat) (h : SramWf s) : SramWf (State.badRead s c word) := by
  unfold State.badRead
  try dsimp only
  repeat' first
    | with_reducible assumption
    | (with_reducible refine State.sramError_sramWf _ _ _ _ ?_)
    | (with_reducible refine sramWf_ite ?_ ?_)
    | (split)

theorem execScrubAccess_sramWf (c : Fin 4) (s : State) (t' : State) (h : SramWf s) (e : execScrubAccess c s = .next t') : SramWf t' := by
  unfold execScrubAccess at e
  refine run_sramWf (fun u hu => ?_) h e
  clear e
  try dsimp only
  repeat' first
    | with_reducible assumption
    | (with_reducible refine State.badRead_sramWf _ _ _ ?_)
    | (with_reducible refine sramWf_of (srams_modSl _ _ _ (fun _ => rfl)) ?_)
    | (with_reducible refine sramWf_modSl (fun _ _ => ?_) ?_)
    | (with_reducible refine sramWf_ite ?_ ?_)
    | (simp only [sramWf_mk, sramWfOf_slices])
    | (split)

theorem Slice.unpowered_sramWf (x : Slice) (h : Memory.wf x.sram = true) : Memory.wf (Slice.unpowered x).sram = true := by
  unfold Slice.unpowered
  try dsimp only
  repeat' first
    | with_reducible assumption
    | with_reducible rfl
    | exact memClear_wf _ _ _ h
    | (exact Slice.blank_sramWf _)
    | (simp only [sramWf_mk, sramWfOf_slices])

theorem State.emptyBay_sramWf (s : State) (c : Fin 4) (h : SramWf s) : SramWf (State.emptyBay s c) := by
  unfold State.emptyBay
  try dsimp only
  repeat' first
    | with_reducible assumption
    | (with_reducible refine Slice.unpowered_sramWf _ ?_)
    | (with_reducible refine sramWf_of (State.bayChange_srams _) ?_)
    | (with_reducible refine sramWf_of (State.ceaseQueues_srams _ _) ?_)
    | (with_reducible refine sramWf_of (State.clearWindow_srams _ _) ?_)
    | (with_reducible refine sramWf_of (State.dropEvents_srams _ _) ?_)
    | (with_reducible refine sramWf_of (State.dropTiming_srams _) ?_)
    | (with_reducible refine sramWf_of (State.recheckOffers_srams _) ?_)
    | (with_reducible refine sramWf_of (State.releaseSlice_srams _ _) ?_)
    | (with_reducible refine sramWf_of (srams_modSl _ _ _ (fun _ => rfl)) ?_)
    | (with_reducible refine sramWf_modSl (fun _ _ => ?_) ?_)
    | (simp only [sramWf_mk, sramWfOf_slices])

theorem execCartridgeRemoved_sramWf (c : Fin 4) (s : State) (t' : State) (h : SramWf s) (e : execCartridgeRemoved c s = .next t') : SramWf t' := by
  unfold execCartridgeRemoved at e
  refine run_sramWf (fun u hu => ?_) h e
  clear e
  try dsimp only
  repeat' first
    | with_reducible assumption
    | (with_reducible refine State.emptyBay_sramWf _ _ ?_)
    | (with_reducible refine sramWf_of (State.fault_srams _ _) ?_)
    | (with_reducible refine sramWf_ite ?_ ?_)
    | (split)

theorem State.bayOff_sramWf (s : State) (c : Fin 4) (h : SramWf s) : SramWf (State.bayOff s c) := by
  unfold State.bayOff
  try dsimp only
  repeat' first
    | with_reducible assumption
    | (with_reducible refine State.haltSlice_sramWf _ _ _ ?_)
    | (with_reducible refine sramWf_of (State.modTx_srams _ _ _) ?_)
    | (with_reducible refine sramWf_of (srams_modSl _ _ _ (fun _ => rfl)) ?_)
    | (with_reducible refine sramWf_modSl (fun _ _ => ?_) ?_)
    | (with_reducible refine sramWf_ite ?_ ?_)
    | (simp only [sramWf_mk, sramWfOf_slices])
    | (split)

theorem execOffReq_sramWf (c : Fin 4) (s : State) (t' : State) (h : SramWf s) (e : execOffReq c s = .next t') : SramWf t' := by
  unfold execOffReq at e
  refine run_sramWf (fun u hu => ?_) h e
  clear e
  try dsimp only
  repeat' first
    | with_reducible assumption
    | (with_reducible refine State.bayOff_sramWf _ _ ?_)
    | (with_reducible refine sramWf_moduleWrite (fun _ _ => ?_) ?_)

theorem execOffDrainEnd_sramWf (c : Fin 4) (s : State) (t' : State) (h : SramWf s) (e : execOffDrainEnd c s = .next t') : SramWf t' := by
  unfold execOffDrainEnd at e
  refine run_sramWf (fun u hu => ?_) h e
  clear e
  try dsimp only
  repeat' first
    | with_reducible assumption
    | (with_reducible refine Slice.unpowered_sramWf _ ?_)
    | (with_reducible refine sramWf_of (State.bayChange_srams _) ?_)
    | (with_reducible refine sramWf_of (State.ceaseQueues_srams _ _) ?_)
    | (with_reducible refine sramWf_of (State.dropEvents_srams _ _) ?_)
    | (with_reducible refine sramWf_of (State.releaseSlice_srams _ _) ?_)
    | (with_reducible refine sramWf_of (srams_modSl _ _ _ (fun _ => rfl)) ?_)
    | (with_reducible refine sramWf_modSl (fun _ _ => ?_) ?_)
    | (with_reducible refine sramWf_ite ?_ ?_)
    | (simp only [sramWf_mk, sramWfOf_slices])
    | (split)

theorem State.baseGranted_sramWf (s : State) (c : Fin 4) (h : SramWf s) : SramWf (State.baseGranted s c) := by
  unfold State.baseGranted
  try dsimp only
  repeat' first
    | with_reducible assumption
    | (with_reducible refine State.feedBay_sramWf _ _ _ ?_)
    | (with_reducible refine sramWf_ite ?_ ?_)
    | (split)

theorem State.rxGranted_sramWf (s : State) (c : Fin 4) (h : SramWf s) : SramWf (State.rxGranted s c) := by
  unfold State.rxGranted
  try dsimp only
  repeat' first
    | with_reducible assumption
    | (with_reducible refine State.baseGranted_sramWf _ _ ?_)
    | (with_reducible refine sramWf_of (State.modPwr_srams _ _) ?_)
    | (with_reducible refine sramWf_of (srams_modSl _ _ _ (fun _ => rfl)) ?_)
    | (with_reducible refine sramWf_modSl (fun _ _ => ?_) ?_)
    | (simp only [sramWf_mk, sramWfOf_slices])
    | (split)

theorem State.granted_sramWf (s : State) (i : Nat) (h : SramWf s) : SramWf (State.granted s i) := by
  unfold State.granted
  try dsimp only
  repeat' first
    | with_reducible assumption
    | (with_reducible refine State.rxGranted_sramWf _ _ ?_)
    | (with_reducible refine sramWf_of (State.modAfe_srams _ _ _) ?_)
    | (with_reducible refine sramWf_of (State.modPwr_srams _ _) ?_)
    | (with_reducible refine sramWf_of (State.txCheck_srams _ _) ?_)
    | (with_reducible refine sramWf_ite ?_ ?_)
    | (simp only [sramWf_mk, sramWfOf_slices])
    | (split)

theorem State.walkClass_sramWf (cls : Nat) : ∀ (n : Nat) (reqs : List Nat) (barred : Bool) (s : State),
    SramWf s → SramWf (State.walkClass cls n reqs barred s).1 := by
  intro n
  induction n with
  | zero => intro reqs barred s h; exact h
  | succ n ih =>
    intro reqs barred s h
    unfold State.walkClass
    split
    · exact h
    · dsimp only
      split
      · exact ih _ _ _ h
      · split
        · exact ih _ _ _ (State.granted_sramWf _ _ (sramWf_of rfl h))
        · split
          · exact ih _ _ _ h
          · exact ih _ _ _ (sramWf_of (State.refuse_srams _ _) h)

theorem State.grantCycle_sramWf (s : State) (h : SramWf s) : SramWf (State.grantCycle s) := by
  unfold State.grantCycle
  dsimp only
  have key : ∀ (l : List Nat) (f : Nat → List Nat) (t : State × Bool), SramWf t.1 →
      SramWf (l.foldl (fun (t : State × Bool) cls => State.walkClass cls (f cls).length (f cls) t.2 t.1) t).1 := by
    intro l f
    induction l with
    | nil => intro t k; exact k
    | cons a l ih => intro t k; exact ih _ (State.walkClass_sramWf _ _ _ _ _ k)
  exact key _ (fun cls => (s.modPwr Pwr.applyReleases).pendingReqs.filter (fun i => reqClass i == cls)) _
    (sramWf_of rfl h)

theorem execGrantCycle_sramWf (s : State) (t' : State) (h : SramWf s) (e : execGrantCycle s = .next t') : SramWf t' := by
  unfold execGrantCycle at e
  refine run_sramWf (fun u hu => ?_) h e
  clear e
  try dsimp only
  repeat' first
    | with_reducible assumption
    | (with_reducible refine State.grantCycle_sramWf _ ?_)

theorem Slice.moduleReset_sramWf (c : Nat) (x : Slice) (cause : Nat) : Memory.wf (Slice.moduleReset c x cause).sram = true := rfl

theorem State.moduleReset_sramWf (s : State) (cause : Nat) (_h : SramWf s) : SramWf (State.moduleReset s cause) := by
  unfold State.moduleReset
  simp only [sramWf_mk]
  intro c
  have k : (vmapIdx (fun c x => Slice.moduleReset c x cause) s.slices).get c = Slice.moduleReset c.val (s.slices.get c) cause := by
    change (vmapIdx (fun c x => Slice.moduleReset c x cause) s.slices)[c.val] = _
    simp [vmapIdx, Vector.get]
  rw [k]
  rfl

theorem State.writeModCtl_sramWf (s : State) (v : Word) (h : SramWf s) : SramWf (State.writeModCtl s v) := by
  unfold State.writeModCtl
  try dsimp only
  repeat' first
    | with_reducible assumption
    | (with_reducible refine State.moduleReset_sramWf _ _ ?_)
    | (with_reducible refine sramWf_ite ?_ ?_)
    | (split)

theorem execModuleReset_sramWf (value : Word) (s : State) (t' : State) (h : SramWf s) (e : execModuleReset value s = .next t') : SramWf t' := by
  unfold execModuleReset at e
  refine run_sramWf (fun u hu => ?_) h e
  clear e
  try dsimp only
  repeat' first
    | with_reducible assumption
    | (with_reducible refine State.writeModCtl_sramWf _ _ ?_)
    | (with_reducible refine sramWf_moduleWrite (fun _ _ => ?_) ?_)

theorem execWatchdogExpiry_sramWf (s : State) (t' : State) (h : SramWf s) (e : execWatchdogExpiry s = .next t') : SramWf t' := by
  unfold execWatchdogExpiry at e
  refine run_sramWf (fun u hu => ?_) h e
  clear e
  try dsimp only
  repeat' first
    | with_reducible assumption
    | (with_reducible refine State.moduleReset_sramWf _ _ ?_)
    | (with_reducible refine sramWf_ite ?_ ?_)
    | (split)

theorem execRailCollapse_sramWf (s : State) (t' : State) (h : SramWf s) (e : execRailCollapse s = .next t') : SramWf t' := by
  unfold execRailCollapse at e
  refine run_sramWf (fun u hu => ?_) h e
  clear e
  try dsimp only
  repeat' first
    | with_reducible assumption
    | (with_reducible refine State.moduleReset_sramWf _ _ ?_)
    | (with_reducible refine sramWf_ite ?_ ?_)
    | (split)

theorem execModreset_sramWf (value : Word) (s : State) (t' : State) (h : SramWf s) (e : execModreset value s = .next t') : SramWf t' := by
  unfold execModreset at e
  refine run_sramWf (fun u hu => ?_) h e
  clear e
  try dsimp only
  repeat' first
    | with_reducible assumption
    | (with_reducible refine State.moduleReset_sramWf _ _ ?_)
    | (with_reducible refine sramWf_of (State.tapInstr_srams _ _) ?_)
    | (with_reducible refine sramWf_ite ?_ ?_)
    | (split)

theorem execSwapFail_sramWf (oldFails : Bool) (s : State) (t' : State) (h : SramWf s) (e : execSwapFail oldFails s = .next t') : SramWf t' := by
  unfold execSwapFail at e
  refine run_sramWf (fun u hu => ?_) h e
  clear e
  try dsimp only
  repeat' first
    | with_reducible assumption
    | (with_reducible refine State.moduleReset_sramWf _ _ ?_)
    | (with_reducible refine sramWf_of (State.afterSwap_srams _) ?_)
    | (with_reducible refine sramWf_of (State.fault_srams _ _) ?_)
    | (with_reducible refine sramWf_of (State.modMod_srams _ _) ?_)
    | (with_reducible refine sramWf_of (State.swapEnd_srams _ _ _ _) ?_)
    | (with_reducible refine sramWf_ite ?_ ?_)
    | (simp only [sramWf_mk, sramWfOf_slices])
    | (split)

theorem execSupervisorEccError_sramWf (corrected : Bool) (s : State) (t' : State) (h : SramWf s) (e : execSupervisorEccError corrected s = .next t') : SramWf t' := by
  unfold execSupervisorEccError at e
  refine run_sramWf (fun u hu => ?_) h e
  clear e
  try dsimp only
  repeat' first
    | with_reducible assumption
    | (with_reducible refine State.moduleReset_sramWf _ _ ?_)
    | (with_reducible refine sramWf_ite ?_ ?_)
    | (simp only [sramWf_mk, sramWfOf_slices])
    | (split)

theorem execPowerUp_sramWf (s : State) (t' : State) (h : SramWf s) (e : execPowerUp s = .next t') : SramWf t' := by
  unfold execPowerUp at e
  refine run_sramWf (fun u hu => ?_) h e
  clear e
  try dsimp only
  repeat' first
    | with_reducible assumption
    | (with_reducible refine State.moduleReset_sramWf _ _ ?_)
    | (with_reducible refine sramWf_ite ?_ ?_)
    | (split)

theorem State.ctlWrite_sramWf (s : State) (c : Fin 4) (o : Nat) (v : Word) (h : SramWf s) : SramWf (State.ctlWrite s c o v) := by
  unfold State.ctlWrite
  try dsimp only
  repeat' first
    | with_reducible assumption
    | (with_reducible refine State.hostReset_sramWf _ _ ?_)
    | (with_reducible refine sramWf_of (srams_modSl _ _ _ (fun _ => rfl)) ?_)
    | (with_reducible refine sramWf_modSl (fun _ _ => ?_) ?_)
    | (with_reducible refine sramWf_ite ?_ ?_)
    | (simp only [sramWf_mk, sramWfOf_slices])
    | (split)

theorem State.sliceRegWrite_sramWf (s : State) (c : Fin 4) (o : Nat) (v : Word) (h : SramWf s) : SramWf (State.sliceRegWrite s c o v) := by
  unfold State.sliceRegWrite
  try dsimp only
  repeat' first
    | with_reducible assumption
    | (with_reducible refine State.ctlWrite_sramWf _ _ _ _ ?_)
    | (with_reducible refine sramWf_of (State.afeWrite_srams _ _ _ _) ?_)
    | (with_reducible refine sramWf_of (State.demWrite_srams _ _ _ _) ?_)
    | (with_reducible refine sramWf_of (State.modErr_srams _ _ _) ?_)
    | (with_reducible refine sramWf_of (State.modSai_srams _ _ _) ?_)
    | (with_reducible refine sramWf_of (State.modTx_srams _ _ _) ?_)
    | (with_reducible refine sramWf_of (State.svcWrite_srams _ _ _ _) ?_)
    | (with_reducible refine sramWf_of (State.tunBlockWrite_srams _ _ _ _) ?_)
    | (with_reducible refine sramWf_of (State.writeInject_srams _ _ _) ?_)
    | (with_reducible refine sramWf_of (State.writeSaiCtl_srams _ _ _) ?_)
    | (with_reducible refine sramWf_of (State.writeTxCtl_srams _ _ _) ?_)
    | (rw [Slice.bstWrite_srams])
    | (rw [Slice.writeCoef_srams])
    | (with_reducible refine sramWf_of (srams_modSl _ _ _ (fun _ => rfl)) ?_)
    | (with_reducible refine sramWf_modSl (fun _ _ => ?_) ?_)
    | (with_reducible refine sramWf_ite ?_ ?_)
    | (simp only [sramWf_mk, sramWfOf_slices])
    | (split)

theorem State.sliceWriteAt_sramWf (s : State) (c : Fin 4) (o : Nat) (v : Word) (h : SramWf s) : SramWf (State.sliceWriteAt s c o v) := by
  unfold State.sliceWriteAt
  try dsimp only
  repeat' first
    | with_reducible assumption
    | (with_reducible refine State.sliceRegWrite_sramWf _ _ _ _ ?_)
    | (with_reducible refine sramWf_of (State.recordAccess_srams _ _ _ _) ?_)
    | (with_reducible refine sramWf_of (State.windowOwnWrite_srams _ _ _) ?_)
    | (with_reducible refine sramWf_ite ?_ ?_)
    | (simp only [sramWf_mk, sramWfOf_slices])
    | (split)

theorem State.modRegWrite_sramWf (s : State) (o : Nat) (v : Word) (h : SramWf s) : SramWf (State.modRegWrite s o v) := by
  unfold State.modRegWrite
  try dsimp only
  repeat' first
    | with_reducible assumption
    | (with_reducible refine State.bayOff_sramWf _ _ ?_)
    | (with_reducible refine State.writeModCtl_sramWf _ _ ?_)
    | (with_reducible refine sramWf_of (State.bayOn_srams _ _) ?_)
    | (with_reducible refine sramWf_of (State.modMod_srams _ _) ?_)
    | (with_reducible refine sramWf_ite ?_ ?_)
    | (simp only [sramWf_mk, sramWfOf_slices])
    | (split)

theorem State.moduleRegWrite_sramWf (s : State) (a : Nat) (v : Word) (h : SramWf s) : SramWf (State.moduleRegWrite s a v) := by
  unfold State.moduleRegWrite
  try dsimp only
  repeat' first
    | with_reducible assumption
    | (with_reducible refine State.modRegWrite_sramWf _ _ _ ?_)
    | (with_reducible refine sramWf_of (State.feaWrite_srams _ _ _) ?_)
    | (with_reducible refine sramWf_of (State.flsWrite_srams _ _ _) ?_)
    | (with_reducible refine sramWf_of (State.pwrWrite_srams _ _ _) ?_)
    | (with_reducible refine sramWf_of (State.qmgRegWrite_srams _ _ _) ?_)
    | (with_reducible refine sramWf_of (State.tbmWrite_srams _ _ _) ?_)
    | (with_reducible refine sramWf_of (State.trkWrite_srams _ _ _) ?_)
    | (with_reducible refine sramWf_ite ?_ ?_)
    | (simp only [sramWf_mk, sramWfOf_slices])
    | (split)

theorem State.regWrite_sramWf (s : State) (a : Nat) (v : Word) (h : SramWf s) : SramWf (State.regWrite s a v) := by
  unfold State.regWrite
  try dsimp only
  repeat' first
    | with_reducible assumption
    | (with_reducible refine State.moduleRegWrite_sramWf _ _ _ ?_)
    | (with_reducible refine State.sliceWriteAt_sramWf _ _ _ _ ?_)
    | (with_reducible refine sramWf_of (State.recordAccess_srams _ _ _ _) ?_)
    | (with_reducible refine sramWf_moduleWrite (fun _ _ => ?_) ?_)
    | (with_reducible refine sramWf_qmgWrite (fun _ _ => ?_) ?_)
    | (with_reducible refine sliceWrite_sramWf (fun _ _ => ?_) ?_)
    | (with_reducible refine sramWf_ite ?_ ?_)
    | (simp only [sramWf_mk, sramWfOf_slices])
    | (split)

theorem State.sramRead_sramWf (s : State) (c : Fin 4) (off size : Nat) (h : SramWf s) : SramWf (State.sramRead s c off size) := by
  unfold State.sramRead
  generalize 0x1000000 * (c.val + 1) + 0x400000 + off = a
  split
  · simp only [sramWf_mk, sramWfOf_slices]
    exact sramWf_of (State.recordAccess_srams _ _ _ _) h
  · split
    · simp only [sramWf_mk, sramWfOf_slices]
      exact h
    · have h1 := sramWf_of (State.sramData_srams s c off size) h
      dsimp only
      generalize s.sramData c off size = d at h1
      split
      · refine State.badRead_sramWf _ _ _ ?_
        simp only [sramWf_mk, sramWfOf_slices]
        exact h1
      · simp only [sramWf_mk, sramWfOf_slices]
        exact h1

theorem State.sramWrite_sramWf (s : State) (c : Fin 4) (off size : Nat) (v : DWord) (h : SramWf s) : SramWf (State.sramWrite s c off size v) := by
  unfold State.sramWrite
  try dsimp only
  repeat' first
    | with_reducible assumption
    | (with_reducible refine sramWf_of (State.recordAccess_srams _ _ _ _) ?_)
    | (with_reducible refine sramWf_of (srams_modSl _ _ _ (fun _ => rfl)) ?_)
    | (with_reducible refine sramWf_modSl (fun _ _ => ?_) ?_)
    | (with_reducible refine sramWf_ite ?_ ?_)
    | (exact memWrite_wf _ _ _ ‹_›)
    | (simp only [sramWf_mk, sramWfOf_slices])
    | (split)

theorem readRegs_srams : ∀ (l : List Nat) (s : State), (readRegs l s).2.srams = s.srams := by
  intro l
  induction l with
  | nil => intro s; rfl
  | cons a l ih => intro s; exact (ih _).trans (State.regReadFx_srams _ _)

theorem State.readBar0_sramWf (s : State) (a size : Nat) (h : SramWf s) : SramWf (State.readBar0 s a size) := by
  unfold State.readBar0
  split
  · exact State.sramRead_sramWf _ _ _ _ h
  · exact sramWf_of (readRegs_srams _ _) h

theorem State.writeBar0_sramWf (s : State) (a size : Nat) (v : DWord) (h : SramWf s) : SramWf (State.writeBar0 s a size v) := by
  unfold State.writeBar0
  try dsimp only
  repeat' first
    | with_reducible assumption
    | (with_reducible refine State.regWrite_sramWf _ _ _ ?_)
    | (with_reducible refine State.sramWrite_sramWf _ _ _ _ _ ?_)
    | (with_reducible refine sramWf_of (State.recordAccess_srams _ _ _ _) ?_)
    | (with_reducible refine sramWf_ite ?_ ?_)
    | (simp only [sramWf_mk, sramWfOf_slices])
    | (split)

theorem execRegisterWrite_sramWf (addr : Word) (size : Nat) (value : DWord) (s : State) (t' : State) (h : SramWf s) (e : execRegisterWrite addr size value s = .next t') : SramWf t' := by
  unfold execRegisterWrite at e
  refine run_sramWf (fun u hu => ?_) h e
  clear e
  try dsimp only
  repeat' first
    | with_reducible assumption
    | (with_reducible refine State.writeBar0_sramWf _ _ _ _ ?_)
    | (with_reducible refine sramWf_of (State.bridged_srams _ _) ?_)

theorem execRcRead_sramWf (addr : Word) (s : State) (t' : State) (h : SramWf s) (e : execRcRead addr s = .next t') : SramWf t' := by
  unfold execRcRead at e
  refine run_sramWf (fun u hu => ?_) h e
  clear e
  try dsimp only
  repeat' first
    | with_reducible assumption
    | (with_reducible refine State.readBar0_sramWf _ _ _ ?_)
    | (with_reducible refine sramWf_of (State.bridged_srams _ _) ?_)

theorem execLatchRead_sramWf (addr : Word) (s : State) (t' : State) (h : SramWf s) (e : execLatchRead addr s = .next t') : SramWf t' := by
  unfold execLatchRead at e
  refine run_sramWf (fun u hu => ?_) h e
  clear e
  try dsimp only
  repeat' first
    | with_reducible assumption
    | (with_reducible refine State.readBar0_sramWf _ _ _ ?_)
    | (with_reducible refine sramWf_of (State.bridged_srams _ _) ?_)

theorem execWideRead_sramWf (bar : Bar) (addr : Word) (size : Nat) (s : State) (t' : State) (h : SramWf s) (e : execWideRead bar addr size s = .next t') : SramWf t' := by
  unfold execWideRead at e
  refine run_sramWf (fun u hu => ?_) h e
  clear e
  try dsimp only
  repeat' first
    | with_reducible assumption
    | (with_reducible refine State.readBar0_sramWf _ _ _ ?_)
    | (with_reducible refine sramWf_of (State.bridged_srams _ _) ?_)
    | (with_reducible refine sramWf_of (State.readBar2_srams _ _ _) ?_)
    | (simp only [sramWf_mk, sramWfOf_slices])
    | (split)

theorem execSramWindowAccess_sramWf (write : Bool) (addr : Word) (size : Nat) (value : DWord) (s : State) (t' : State) (h : SramWf s) (e : execSramWindowAccess write addr size value s = .next t') : SramWf t' := by
  unfold execSramWindowAccess at e
  refine run_sramWf (fun u hu => ?_) h e
  clear e
  try dsimp only
  repeat' first
    | with_reducible assumption
    | (with_reducible refine State.sramRead_sramWf _ _ _ _ ?_)
    | (with_reducible refine State.sramWrite_sramWf _ _ _ _ _ ?_)
    | (with_reducible refine sramWf_of (State.bridged_srams _ _) ?_)
    | (with_reducible refine sramWf_ite ?_ ?_)
    | (simp only [sramWf_mk, sramWfOf_slices])
    | (split)

theorem State.hostBusError_sramWf (s : State) (c : Fin 4) (write : Bool) (a size : Nat) (low high : Bool) (h : SramWf s) : SramWf (State.hostBusError s c write a size low high) := by
  unfold State.hostBusError
  try dsimp only
  repeat' first
    | with_reducible assumption
    | (with_reducible refine State.busError_sramWf _ _ _ ?_)
    | (with_reducible refine State.readBar0_sramWf _ _ _ ?_)
    | (with_reducible refine sramWf_of (State.recordAccess_srams _ _ _ _) ?_)
    | (with_reducible refine sramWf_ite ?_ ?_)
    | (simp only [sramWf_mk, sramWfOf_slices])
    | (split)

theorem execBusParity_sramWf (c : Fin 4) (requester : Fin 12) (write : Bool) (addr : Word) (low high : Bool) (s : State) (size : Nat := 4) (t' : State) (h : SramWf s) (e : execBusParity c requester write addr low high s size = .next t') : SramWf t' := by
  unfold execBusParity at e
  refine run_sramWf (fun u hu => ?_) h e
  clear e
  try dsimp only
  repeat' first
    | with_reducible assumption
    | (with_reducible refine State.busError_sramWf _ _ _ ?_)
    | (with_reducible refine State.hostBusError_sramWf _ _ _ _ _ _ _ ?_)
    | (with_reducible refine sramWf_ite ?_ ?_)
    | (split)

theorem execRegacc_sramWf (addr : Word) (data : Word) (cmd : Byte) (s : State) (t' : State) (h : SramWf s) (e : execRegacc addr data cmd s = .next t') : SramWf t' := by
  unfold execRegacc at e
  refine run_sramWf (fun u hu => ?_) h e
  clear e
  try dsimp only
  repeat' first
    | with_reducible assumption
    | (with_reducible refine State.readBar0_sramWf _ _ _ ?_)
    | (with_reducible refine State.writeBar0_sramWf _ _ _ _ ?_)
    | (with_reducible refine sramWf_of (State.bridged_srams _ _) ?_)
    | (with_reducible refine sramWf_of (State.captureDr_srams _) ?_)
    | (with_reducible refine sramWf_of (State.recordAccess_srams _ _ _ _) ?_)
    | (with_reducible refine sramWf_of (State.tapInstr_srams _ _) ?_)
    | (with_reducible refine sramWf_ite ?_ ?_)
    | (simp only [sramWf_mk, sramWfOf_slices])
    | (split)

end Sys2Proof.Machine
end

