-- ==== Sys2Proof/Laws/Machine.lean ====
section
/-! SUPPORT. How a result of `exec` is read off a meaning's effect. -/

namespace Sys2Proof.Machine

open Sys2Proof

/-- A command whose effect gives `u`, but for messages, answers with the machine `u`. -/
theorem run_same {s u : State} {f : State → State} {o : List Output}
    (h : { f { s with out := [] } with pending := s.pending } = { u with out := o }) :
    ∃ t, run s f = .next t ∧ SameMachine t u := by
  refine ⟨_, rfl, ?_⟩
  obtain ⟨o', p, e⟩ := blockIrqs_shape s (f { s with out := [] })
  rw [e]
  generalize f { s with out := [] } = v at h ⊢
  cases v
  cases u
  simp only [State.mk.injEq] at h
  obtain ⟨h1, h2, h3, h4, h5, h6, h7, h8, h9, h10, h11, h12, h13, h14, h15, h16, h17, h18, h19, h20, h21, h22⟩ := h
  subst h1 h2 h3 h4 h5 h6 h7 h8 h9 h10 h11 h12 h13 h14 h15 h16 h17 h18 h19 h20 h22
  exact ⟨_, p, rfl⟩

/-- What a command's effect says of the state but for messages and the queue, its answer says. -/
theorem run_next {s : State} {f : State → State} {P : State → Prop}
    (hP : ∀ t o p l, P t → P { t with out := o, qmg := { t.qmg with msixPba := p }, pending := l })
    (h : P (f { s with out := [] })) : ∃ t, run s f = .next t ∧ P t := by
  refine ⟨_, rfl, ?_⟩
  obtain ⟨o, p, e⟩ := blockIrqs_shape s (f { s with out := [] })
  rw [e]
  exact hP (f { s with out := [] }) ((f { s with out := [] }).out ++ o) p s.pending h

/-- A command whose effect is `f` does what `g` makes, where the two agree. -/
theorem run_does {i : Instr} {s : State} {f g : State → State} (he : exec i s = run s f)
    (h : f { s with out := [] } = g { s with out := [] }) : Does i s g := by
  obtain ⟨t, ht, hs⟩ := run_same (s := s) (f := f) (u := { g { s with out := [] } with pending := s.pending })
    (o := (g { s with out := [] }).out) (by rw [h])
  exact ⟨t, he.trans ht, hs⟩

end Sys2Proof.Machine
end

