-- ==== Sys2Proof/WellFormed.lean ====
section
/-! DEFINITION. Which commands can arrive: what the manual says of the operands of each row. A meaning is
total over every operand all the same; the rows that the manual has an answer for (an access of a wrong
size, R7; a body that is too short, R281) give that answer. -/

namespace Sys2Proof

/-- An access of 1 to 4,096 bytes, the most that one PCI Express transaction carries (R7, R46, R436). -/
def accessSize (n : Nat) : Bool := decide (1 ≤ n) && decide (n ≤ 4096)

/-- A unit as its air layer shapes it: a FIB of at most 30 bytes, 64 sub-channels (R172), four streams of DRM with four
packets each (R174). -/
def Heard.wellFormed : Heard → Bool
  | .fib figs => decide ((figs.map List.length).sum ≤ 30)
  | .mscFrame subch _ => decide (subch < 64)
  | .drmFrame stream _ units => decide (stream < 4) && units.all (fun u => decide (u.1 < 4))
  | .audio _ _ => true
  | .apd _ _ => true
  | .rds _ _ _ => true
  | .fac _ => true
  | .sdc _ => true
  | .second => true
  | .minute _ _ => true

/-- A code block presented whole: at least one step, and LDB blocks of two values a step (R201). -/
def SegReq.wellFormed (r : SegReq) : Bool :=
  decide (0 < r.soft.length) && r.soft.all (fun v => decide (v.length ≤ 6) && v.all (fun o => match o with
    | some (k, x) => decide (-8 ≤ x) && decide (x ≤ 7) && (r.windows.isEmpty || decide (k < r.windows.length))
    | none => true))

/-- A trunk frame carries at most 1,500 bytes of payload in any class (R351). -/
def RxFrame.wellFormed (f : RxFrame) : Bool := decide (f.payload.length ≤ 1500)

/-- A calibration kind (R127, R133). -/
def CalOutcome.wellFormed (r : CalOutcome) : Bool := decide (1 ≤ r.kind) && decide (r.kind ≤ 5)

/-- What a cartridge brings: 64 key slots (R242) and at most 256 replay records (R254). -/
def Cartridge.wellFormed (k : Cartridge) : Bool := k.slots.length == 64 && decide (k.replay.length ≤ 256)

/-- The check of a command's operands. -/
def Instr.wellFormed : Instr → Bool
  | .registerWrite _ size _ => accessSize size
  | .rcRead _ => true
  | .latchRead _ => true
  | .wideRead _ _ size => accessSize size
  | .sramWindowAccess _ _ size _ => accessSize size
  | .cartridgeInserted _ cart => cart.wellFormed
  | .cartridgeRemoved _ => true
  | .selfTestComplete _ badPages _ _ => badPages.all (fun p => decide (p < 3072))
  | .startupCalibrationDone _ results _ => results.all CalOutcome.wellFormed
  | .sliceReset _ => true
  | .cellParity _ _ => true
  | .sramParity _ offset _ hostSize => decide (offset.toNat < 0xC00000) &&
      (match hostSize with | some n => n == 4 || n == 8 | none => true)
  | .busParity _ _ _ _ _ _ size => accessSize size
  | .trellisParity _ _ => true
  | .blockResetTimeout _ _ => true
  | .supervisorEccError _ => true
  | .scrubAccess _ => true
  | .shadowCheck _ _ _ => true
  | .coefCrcCheck _ _ => true
  | .slotCheck _ _ => true
  | .telemetryTick temps => temps.length == 8
  | .formeSetChunk _ => true
  | .formeLockup _ => true
  | .formeDiscard _ => true
  | .formeQuery _ => true
  | .libStore => true
  | .libLoad _ => true
  | .libErase => true
  | .libBoot => true
  | .libList => true
  | .stagingTimeout _ => true
  | .lockupInstant _ => true
  | .tbEpoch _ _ _ _ => true
  | .ppsEdge _ => true
  | .refinLost => true
  | .ppsLost => true
  | .trunkTimeLost => true
  | .clockTimeLost => true
  | .switchHoldExpired => true
  | .holdoverEnd => true
  | .tbmCfgWrite _ => true
  | .todSet _ => true
  | .tbStep => true
  | .tbHold => true
  | .holdEnd => true
  | .originChange => true
  | .mdllLockLoss _ => true
  | .relockAttempt _ _ => true
  | .relocked _ => true
  | .relockRegistration _ => true
  | .afeGainWrite _ _ => true
  | .gainApply _ => true
  | .agcWindowEnd _ _ => true
  | .attack _ _ => true
  | .agcRelease _ => true
  | .agcCfgWrite _ _ => true
  | .tunerWrite _ _ => true
  | .mismatchMeasurement _ _ => true
  | .calReqAdc _ => true
  | .calReqTuner _ => true
  | .calReqFlat _ => true
  | .calReqVco _ => true
  | .calRequest _ => true
  | .calIntervalStart _ => true
  | .calIntervalEnd _ result => result.wellFormed
  | .calbgDcTrim _ _ _ _ _ => true
  | .calbgSynthTrim _ _ => true
  | .ncoFreqWrite _ _ _ => true
  | .ncoRetune _ _ => true
  | .bankSwapRequest _ _ _ => true
  | .bankSwap _ _ => true
  | .xfadeEnd _ _ => true
  | .coefWrite _ _ _ _ _ => true
  | .instanceFound _ _ _ => true
  | .syncLimitExpired _ _ => true
  | .instanceLoss _ _ _ => true
  | .reacq _ _ => true
  | .measurementUpdate _ _ _ => true
  | .unitHandedOn _ _ _ _ u _ => u.wellFormed
  | .noiseInterval _ _ _ => true
  | .trigger _ _ _ => true
  | .syncQualified _ _ _ _ => true
  | .qualifierWindowClose _ _ _ => true
  | .capture _ _ _ _ => true
  | .trellisGrant _ reqs => reqs.all SegReq.wellFormed
  | .segmentComplete _ _ _ => true
  | .afCheckStart _ _ => true
  | .afCheckTimeout _ _ => true
  | .afSwitch _ _ => true
  | .afSpeculate _ _ => true
  | .candidateRotation _ _ => true
  | .alertTimeout _ _ => true
  | .entryDue _ => true
  | .pulseEnd _ => true
  | .doneEntryExpiry _ => true
  | .svcCfgWrite _ _ => true
  | .macBlockGrant _ _ _ => true
  | .mirrorCommit _ => true
  | .keyload packet => packet.length == 44
  | .keyDerive _ _ => true
  | .keyErase _ => true
  | .tamperLoopOpen => true
  | .alarmInAsserted => true
  | .overTemperature => true
  | .underTemperature => true
  | .sliceSupplyMonitor _ => true
  | .clockGlitch _ => true
  | .mirrorEraseDone _ => true
  | .loadsUnblocked _ _ => true
  | .doorbellProducer _ size _ => accessSize size
  | .queueEnable _ => true
  | .queueDisable _ => true
  | .flush _ => true
  | .descriptorFetch _ _ _ => true
  | .dmaReadError _ _ _ => true
  | .poisonedWrite _ => true
  | .flushUsExpired _ => true
  | .dmaGrant => true
  | .rawCapWindow => true
  | .irqHoldoffEnd _ => true
  | .commandFetch _ _ _ bodyLen body => decide (body.length ≤ bodyLen.toNat)
  | .nop _ => true
  | .heldCompletionRelease _ => true
  | .hostPortReset => true
  | .hostPortResetExit width speed mps => [1, 2, 4].contains width && [1, 2].contains speed && [128, 256].contains mps
  | .txSend _ => true
  | .txRxwin _ => true
  | .rxwinOpen _ => true
  | .rxwinEnd _ _ => true
  | .synthLocked _ _ _ => true
  | .synthLockLoss _ => true
  | .txHoldExpired _ => true
  | .plannedKeyup _ => true
  | .trSwTransmit _ => true
  | .paEnRise _ => true
  | .rampUp _ => true
  | .rampDown _ _ _ => true
  | .burstEnd _ => true
  | .nextBurst _ => true
  | .abbreviatedRampEnd _ => true
  | .trSwRelease _ => true
  | .coexRelease _ => true
  | .coexGrant _ => true
  | .gntWaitExpired _ => true
  | .coexWithdrawn _ => true
  | .amplifierFault _ _ _ => true
  | .cancel _ => true
  | .faultClr _ => true
  | .frameStart _ _ _ _ => true
  | .gridFrame _ _ => true
  | .stall _ _ => true
  | .bclkOverrate _ _ => true
  | .gateTimeout _ _ => true
  | .txStart _ => true
  | .txStop _ => true
  | .rxStart _ => true
  | .rxStop _ => true
  | .regInEdge => true
  | .registration => true
  | .trkRegArm => true
  | .trkRegCancel => true
  | .trkSave => true
  | .trkExport => true
  | .trkPush _ => true
  | .pushRound => true
  | .transferDrop _ => true
  | .sync _ f => f.wellFormed
  | .delayReq _ f => f.wellFormed
  | .announce _ f => f.wellFormed
  | .announceTick => true
  | .topology _ f => f.wellFormed
  | .regArm _ f => f.wellFormed
  | .xferStatus _ f => f.wellFormed
  | .recordFrame _ f => f.wellFormed
  | .chunkFrame _ f => f.wellFormed
  | .endFrame _ f => f.wellFormed
  | .abortedStream _ _ => true
  | .linkUp _ => true
  | .linkLost _ _ => true
  | .probeTimeout _ => true
  | .reparentHoldEnd => true
  | .reparent => true
  | .trkCfgWrite _ => true
  | .grantCycle => true
  | .inputMeasurement m => m.rails.length == 8
  | .brownOut => true
  | .normalRestored => true
  | .inputLoss => true
  | .inputReturn => true
  | .railCollapse => true
  | .budgetWrite _ => true
  | .auxWrite _ => true
  | .auxFault => true
  | .pwrQuery => true
  | .pwrSave => true
  | .powerUp => true
  | .moduleReset _ => true
  | .watchdogExpiry => true
  | .moduleReady _ => true
  | .bayIdentify _ => true
  | .featureCommit _ => true
  | .feaSave => true
  | .fwLoadChunk => true
  | .fwActivate => true
  | .fwQuery => true
  | .swapStart => true
  | .swapDone => true
  | .swapFail _ => true
  | .pushedImageActivate => true
  | .onReq _ => true
  | .offReq _ => true
  | .offDrainEnd _ => true
  | .calibrate => true
  | .calibrateAt => true
  | .eraseKeys => true
  | .deriveKey => true
  | .mailboxBadOpcode => true
  | .errorInject _ _ => true
  | .regacc _ _ _ => true
  | .modreset _ => true
  | .tapReset => true
  | .extest _ _ => true
  | .sampleDelivered _ _ codes => codes.all (fun v => decide (-8192 ≤ v) && decide (v ≤ 8191))
  | .frameCrcError _ _ => true
  | .trunkEgress _ => true
  | .flashWriteDone _ => true

end Sys2Proof
end

