-- ==== Sys2Proof/Tests/Slice0.lean ====
section
/-! SUPPORT. Small checks of the model: ill-formed commands that WellFormed refuses, single steps whose results the
manual's worked examples give, and for every obligation with hypotheses the states and operands that meet them. -/

set_option Elab.async false

namespace Sys2Proof.Tests

open Sys2Proof Sys2Proof.Machine

/-! ### States of the checks -/

namespace Base
abbrev r : State := State.reset
def at0 (s : State) (f : Slice → Slice) : State := s.modSl 0 f
def ready : State :=
  { r with mod := { r.mod with ready := true }, fea := { r.fea with committed := true, accept := Vector.replicate 4 0xFFFFFFFF } }
def inState (st : SliceState) : State :=
  ready.modSl 0 (fun x => { x with ctl := { x.ctl with state := st, feedOn := true }, clk := { x.clk with lock := true } })
def idle : State := inState .idle
def running : State := inState .running
def noCart : State :=
  ready.modSl 0 (fun x => { x with cart := none, ctl := { x.ctl with state := .absent, present := false } })
def held : State := ready.modSl 0 (fun x => { x with ctl := { x.ctl with state := .held, part := 0x7464 } })
def fed : State := ready.modSl 0 (fun x => { x with ctl := { x.ctl with feedOn := true } })
def hand (s : State) (q : Fin 256) (op : Byte) (body : List Byte) : State :=
  s.modQ q (fun k => { k with inHand := some ⟨q, op, 7, 3, body⟩ })
def f0 : Forme := { generation := 1, name := [], crc := 0x11223344, recs := [] }
def b (n v : Nat) : List Byte := le n v
def f1recs : List FormeRec :=
  [⟨1, 0, b 1 0 ++ b 1 0 ++ b 1 0 ++ b 1 1 ++ b 4 0 ++ b 1 0 ++ b 1 0xFF ++ b 2 0 ++ b 2 60 ++ b 1 0 ++ b 1 10 ++ b 4 0⟩,
   ⟨2, 0, b 1 0 ++ b 1 1 ++ b 2 31 ++ b 4 100000000 ++ b 4 0 ++ b 2 125 ++ b 1 8 ++ b 1 0 ++ b 2 16 ++ b 2 64 ++ b 1 2 ++ b 1 20 ++ b 1 15 ++ b 1 0⟩,
   ⟨2, 8, b 1 1 ++ b 1 1 ++ b 2 31 ++ b 4 170000000 ++ b 4 0 ++ b 2 0 ++ b 1 0 ++ b 1 0 ++ b 2 0 ++ b 2 16 ++ b 1 0xFF ++ b 1 20 ++ b 1 15 ++ b 1 0⟩,
   ⟨4, 0, b 1 3 ++ b 1 0 ++ b 1 0xFF ++ b 1 3 ++ b 1 1 ++ b 1 0 ++ b 2 8 ++ (b 5 0 ++ b 1 3 ++ b 2 0)⟩,
   ⟨4, 1, b 1 8 ++ b 1 8 ++ b 1 0xFF ++ b 1 2 ++ b 1 0 ++ b 1 0 ++ b 2 12 ++ (b 6 0 ++ b 1 1 ++ b 5 0)⟩,
   ⟨5, 0, b 1 1 ++ b 1 0 ++ b 1 0 ++ b 1 0 ++ b 4 0 ++ b 1 1 ++ b 3 0⟩,
   ⟨5, 1, b 1 10 ++ b 1 1 ++ b 1 1 ++ b 1 1 ++ b 4 0 ++ b 1 0 ++ b 3 0⟩,
   ⟨6, 1, b 2 1 ++ b 2 0 ++ b 1 5 ++ b 1 3 ++ b 2 0⟩,
   ⟨7, 0, b 4 0⟩, ⟨7, 1, b 4 0⟩, ⟨7, 2, b 4 0x20000⟩, ⟨7, 3, b 4 0x10100⟩, ⟨7, 53, b 4 1⟩,
   ⟨8, 0, b 1 0 ++ b 1 1 ++ b 1 3 ++ b 1 0 ++ b 4 0x01000000 ++ b 4 100⟩,
   ⟨9, 0, b 1 1 ++ b 1 4 ++ b 2 30 ++ b 2 1000 ++ b 2 100⟩,
   ⟨10, 0, b 4 170000000 ++ b 1 1 ++ b 1 0 ++ b 2 10 ++ b 2 64 ++ b 2 0 ++ b 2 0 ++ b 1 3 ++ b 1 53 ++ b 1 1 ++ b 3 0⟩,
   ⟨11, 0, b 1 0 ++ b 1 16 ++ b 1 2 ++ b 1 3 ++ b 4 48000 ++ b 1 3 ++ b 1 3 ++ b 2 0 ++ b 1 3 ++ b 3 0⟩,
   ⟨12, 0, b 4 0 ++ b 4 8192⟩,
   ⟨13, 0, b 2 250 ++ b 1 32 ++ b 1 0⟩]
def f1 : Forme := { generation := 9, name := List.replicate 16 0, crc := 0x11223344, recs := f1recs }
def f2 : Forme := ⟨9, List.replicate 16 0, 1540727912,
  (f1recs.take 1).map (fun r => { r with payload := r.payload.set 12 0 })⟩
def f2b : List Byte := [81, 76, 77, 70, 1, 0, 1, 0, 88, 0, 0, 0, 1, 0, 0, 0, 9, 0, 0, 0, 0, 0, 0, 0, 0, 0, 0, 0, 0, 0, 0, 0, 0, 0, 0, 0,
  0, 0, 0, 0, 71, 155, 97, 180, 0, 0, 0, 0, 1, 0, 0, 0, 0, 0, 20, 0, 0, 0, 0, 1, 0, 0, 0, 0, 0, 255, 0, 0, 0, 0, 0, 10,
  0, 0, 0, 0, 253, 19, 190, 163, 70, 69, 78, 68, 104, 164, 213, 91]
def pend : State := at0 idle (fun x => { x with shadow := { x.shadow with area := .pending f2 none 0 none } })
def run1 : State := at0 running (fun x => { x with
  shadow := { x.shadow with active := some f1 }, afe := { x.afe with agcMode := some false },
  tun := vmod x.tun 0 (fun u => { u with ncoReg := 0x19000000, ncoNow := 0x19000000 }),
  inst := vmod (vmod x.inst 0 (fun i => { i with declared := true, state := .search })) 1
    (fun i => { i with declared := true, state := .search }),
  af := vmod (vmod x.af 0 (fun a => { a with state := .learn })) 1 (fun a => { a with state := .primary }),
  tx := { x.tx with state := .idle } })
def nextOf (s : State) (i : Instr) : State := match exec i s with | .next t => { t with out := [] } | _ => s
end Base

namespace Slices
open Base
def cart : Cartridge := Cartridge.fitted 5
def u1 : State := {noCart with mod := r.mod}
def u2 : State := (at0 fed (fun x => {x with ctl := {x.ctl with offReq := true}}))
def calAll : List CalOutcome := [⟨1,0,0,5,[1,2]⟩, ⟨5,0,5,6,[1,2]⟩, ⟨3,0,6,7,[0]⟩, ⟨4,0,7,8,[3,4,5,6,7]⟩]
def u3 : State := (inState .calibrating)
def u4 : State := (at0 (inState .calibrating) (fun x => {x with shadow := {x.shadow with active := some f0}}))
def u5 : State :=
  (at0 {running with real := 99999} (fun x =>
    {x with err := {x.err with resetting := [(blockCode .demodulator, 3)]}}))
def u6 : State := (at0 idle (fun x => {x with ctl := {x.ctl with bgCfg := 0x4001}}))
def u7 : State :=
  (at0 idle (fun x => {x with ctl := {x.ctl with bgCfg := 0x4001, bgGrants := Vector.replicate 16 30}}))
def u8 : State :=
  (at0 idle (fun x => {x with ctl := {x.ctl with bgCfg := 0x4001, scrubNext := 5}, err := {x.err with badWords := [40]}}))
def u9 : State := (at0 idle (fun x => {x with ctl := {x.ctl with bgCfg := 0x4000}}))
def u10 : State := (at0 idle (fun x => {x with shadow := {x.shadow with active := some f0}}))
def u11 : State := (at0 idle (fun x => {x with shadow := {x.shadow with area := .staged f0 none}}))
def coef (b : Bool) : State :=
  at0 running (fun x => {x with shadow := {x.shadow with active := some {f0 with recs := [⟨2,0,[1,1] ++ List.replicate 22 0⟩]}}, tun := vmod x.tun 0 (fun u =>
    {u with coef := Vector.replicate 2 [1,2,3], coefCrc := Vector.replicate 2 (coefCrcOf [1,2,3]), bank := b})})
def u12 : State := (coef false)
def u13 : State := (coef true)
def u14 : State := (inState .faulted)
def u15 : State := {idle with mod := {idle.mod with ready := false}}
def chunk (off n : Nat) (t : List Byte) := le 4 off ++ le 4 n ++ t
def u16 : State := (hand idle (localQ 0 52) 0x20 (chunk 0 8 (le 8 77)))
def u17 : State :=
  (hand (at0 idle (fun x => {x with shadow := {x.shadow with area := .loading (le 8 3) 0}})) (localQ 0 52) 0x20 (chunk 4 8 (le 8 77)))
def u18 : State :=
  (hand (at0 idle (fun x => {x with shadow := {x.shadow with area := .staged f0 none}})) (localQ 0 52) 0x20 (chunk 4 8 (le 8 77)))
def u19 : State :=
  {(at0 idle (fun x => {x with shadow := {x.shadow with area := .loading (le 8 3) 0}})) with real := 10240000000}
def st0 := at0 idle (fun x => {x with shadow := {x.shadow with area := .staged f0 none}})
def lk := le 4 0 ++ le 4 0x11223344
def st1 := { st0 with pwr := { st0.pwr with held := vmod st0.pwr.held 2 (fun _ => 100) } }
def u20 : State := (hand st1 (localQ 0 52) 0x21 lk)
def u21 : State := (hand st0 (localQ 0 52) 0x21 lk)
def u22 : State := (hand st0 (localQ 0 52) 0x22 lk)
def u23 : State :=
  (hand (at0 idle (fun x => {x with shadow := {x.shadow with active := some f0}})) (localQ 0 52) 0x23 [])
end Slices

namespace Clocks
open Base
def cm (q : Fin 256) (op : Byte) (body : List Byte) : Command := ⟨q, op, 7, 3, body⟩
def lib2 : State :=
  {idle with fls := {idle.fls with library := vmod idle.fls.library 5 (fun _ => some ⟨f2b, 0b0101⟩)}}
def u24 : State := (hand lib2 12 0x29 (b 4 0x05))
def pendBad :=
  at0 pend (fun x => {x with shadow := {x.shadow with area := .pending {f1 with recs := []} none 0 none}})
def stg2 := at0 idle (fun x => {x with shadow := {x.shadow with active := some f2}})
def stg := at0 idle (fun x => {x with shadow := {x.shadow with active := some f1}})
def u26 : State := (hand stg2 12 0x28 (b 4 0x050000))
def u27 : State := (hand stg 12 0x2A (b 4 0x05))
def lib1 : State :=
  {idle with fls := {idle.fls with library := vmod idle.fls.library 5 (fun _ => some ⟨f2b, 0b0101⟩)}}
def u28 : State := (hand lib1 12 0x2B (b 4 0x0502))
def u30 : State := (hand lib1 12 0x2C [])
def locked1 : State :=
  {run1 with tbm := {run1.tbm with state := .locked, source := 1, qual := vmod run1.tbm.qual 0 (fun _ => true), ppsExpect := some 5}, real := 2048000000}
def locked2 : State :=
  {run1 with tbm := {run1.tbm with state := .locked, source := 2, qual := vmod run1.tbm.qual 1 (fun _ => true)}}
def hold1 : State := {run1 with tbm := {run1.tbm with state := .holdover, lost := 1}, real := 3600 * 1024000000 * 24}
def pps1 : State := {locked1 with real := 999999999, tbm := {locked1.tbm with origin := true}}
def u31 : State := {pps1 with real := 100}
def sw1 : State :=
  {run1 with real := 10240000000, tbm := {run1.tbm with state := .locked, source := 3, qual := vmod (vmod run1.tbm.qual 2 (fun _ => true)) 0 (fun _ => true)}}
def ct1 : State :=
  at0 {run1 with real := 614400000000} (fun x => {x with ctx := vmod x.ctx 1 (fun y => {y with offered := true})})
def u32 : State := {run1 with tbm := {run1.tbm with cfg := 0x000A1F01}}
def u33 : State := {run1 with tbm := {run1.tbm with todLo := 55}}
def u34 : State := {run1 with tbm := {run1.tbm with todLo := 55, tb := 100}}
def stp (k : Nat) : State :=
  {run1 with tbm := {run1.tbm with tb := 1073741824, step := some {point := 1073741824, amount := 77, kind := k, source := 1, todSet := false}}}
def u35 : State := (stp 0)
def u36 : State := (stp 2)
def u37 : State := {run1 with tbm := {run1.tbm with tb := 1073741824, holdsAt := some 1073741824, offset := 1048577}}
def u39 : State := {run1 with tbm := {run1.tbm with tb := 1073741824, hold := some ⟨1073741824, 0⟩}}
def u40 : State := (at0 run1 (fun x => {x with clk := {x.clk with aligned := true, goodEpochs := 20}}))
def lost1 : State :=
  at0 {run1 with real := 10240000} (fun x => {x with clk := {x.clk with lock := false, coast := true}})
def rr1 : State :=
  at0 run1 (fun x => {x with clk := {x.clk with coast := true, suspect := true, bypass := true, reregAt := some 0}})
def man : State := at0 run1 (fun x => {x with afe := {x.afe with agcMode := some true, gainPend := [(0,7,true)]}})
def u41 : State := (at0 run1 (fun x => {x with afe := {x.afe with preselected := true, band := 2}}))
def agc : State :=
  at0 {run1 with tbm := {run1.tbm with tb := 102400}} (fun x =>
    {x with afe := {x.afe with agcMode := some false, disturbed := [], windowDirty := false, windowStart := 0, atten := 10, acquire := false}})
def u42 : State := (at0 agc (fun x => {x with afe := {x.afe with acquire := true}}))
def u43 : State := (at0 agc (fun x => {x with afe := {x.afe with windowDirty := true}}))
def u44 : State := (at0 agc (fun x => {x with afe := {x.afe with agcCfg := 0x80646310}}))
def rel : State := {agc with tbm := {agc.tbm with tb := 1024000001}}
def relw (f : Afe → Afe) : State :=
  at0 rel (fun x => {x with afe := f {x.afe with windowStart := 1024000000, quietSince := 0}})
def u45 : State := (relw id)
def u46 : State := (relw (fun a => {a with lnaByp := true}))
def u47 : State := (relw (fun a => {a with atten := 0}))
def u48 : State := (inState .calibrating)
def u49 : State := (hand run1 (localQ 0 52) 0x30 (b 4 0x5))
def u50 : State := (hand run1 (localQ 0 52) 0x30 (b 4 0x0))
def ci (k : Nat) : State :=
  at0 {run1 with tbm := {run1.tbm with tb := 0}} (fun x =>
    {x with afe := {x.afe with calPend := [⟨k,1,0⟩], calEnd := none, tuner := 1, tunerNow := 1, tunerFreq := 20000}})
def u52 : State := (ci 1)
def u53 : State := (ci 2)
def ce : State :=
  at0 {run1 with tbm := {run1.tbm with tb := 900}} (fun x =>
    {x with afe := {x.afe with calPend := [], calRun := some ⟨1,1,0,20000⟩}})
def bg := run1
def u54 : State :=
  (at0 {bg with tbm := {bg.tbm with tb := 3000000}} (fun x => {x with afe := {x.afe with bgDc := [8]}}))
def u55 : State := (at0 bg (fun x => {x with afe := {x.afe with bgRun := true}}))
end Clocks

namespace FrontEnd
open Base
def mon : State :=
  at0 run1 (fun x => {x with afe := {x.afe with tunerFreq := 170000, monFreq := 170000, monCfg := 0x0A40003C, mismatch := true, preselected := true}})
def u61 : State := (inState .calibrating)
def u62 : State := (at0 run1 (fun x => {x with acq := vmod x.acq 1 (fun a => {a with lastAbove := some 0})}))
end FrontEnd

namespace Chains
open Base
def smp : State := {run1 with tbm := {run1.tbm with tb := 1048576*2}}
def codes (s : State) :=
  List.replicate (((s.sl 0).tunAt 0).chain.nextOut ((run1.sl 0).confOf f1 0) + 1 - ((s.sl 0).tunAt 0).chain.n) (100 : Int)
def tnw (f : Tuning → Tuning) (s : State := run1) : State := at0 s (fun x => {x with tun := vmod x.tun 0 f})
def nr : State :=
  at0 (tnw (fun u => {u with ncoReg := 5, ncoPend := some 3, lastTs := some 4})) (fun x =>
    {x with shadow := {x.shadow with }})
def nrs : State := at0 nr (fun x => {x with inst := vmod x.inst 0 (fun i => {i with state := .sync})})
def fNoDem : Forme := {f1 with recs := f1.recs.filter (fun r => !(r.type == 4 && r.key == 0))}
def nrn : State := at0 nr (fun x => {x with shadow := {x.shadow with active := some fNoDem}})
def bp : State := tnw (fun u => {u with bankPend := some (2, true), target := true, lastTs := some 4})
def xf : State := tnw (fun u => {u with xfade := some ⟨3, 3⟩})
def fNoX : Forme :=
  {f1 with recs := f1.recs.map (fun r => if r.type == 2 && r.key == 0 then {r with payload := r.payload.set 16 0} else r)}
def u63 : State := (at0 bp (fun x => {x with shadow := {x.shadow with active := some fNoX}}))
def u64 : State := (at0 bp (fun x => {x with tun := vmod x.tun 0 (fun u => {u with bank := true})}))
def ins (f : Inst → Inst) (s : State :=
  run1) (n : Nat := 0) : State := at0 s (fun x => {x with inst := vmod x.inst n f})
def srch := ins (fun i => {i with state := .search})
def sync := {ins (fun i => {i with state := .sync}) with real := 2*1024000000}
def trk := ins (fun i => {i with state := .track})
def heard (s : State) : State :=
  at0 s (fun x => {x with inst := vmod x.inst 0 (fun i =>
    {i with clean := 9}), tun := vmod x.tun 0 (fun u => {u with buffer := [(1000000000000, 0)]})})
def fP (n : Nat) : Forme :=
  {f1 with recs := f1.recs.map (fun r => if r.type == 4 && r.key == 0 then {r with payload := r.payload.set 0 (BitVec.ofNat 8 n)} else r)}
def onF (f : Forme) (s : State) : State := at0 s (fun x => {x with shadow := {x.shadow with active := some f}})
def u65 : State := (heard srch)
def u66 : State := (onF (fP 5) (heard srch))
def lostS : State := {ins (fun i => {i with state := .track, lowSince := some 0}) with real := 2*1024000000}
def u67 : State := (ins (fun i => {i with state := .hold}))
def meas : Measure := ⟨100000000000,2,-300,4,5,6,7,true,8,9,[]⟩
def u68 : State := (heard sync)
def fDabN : Forme := {(fP 4) with recs := (fP 4).recs.filter (fun r => r.type != 5)}
def rd : Reads := ⟨none,none,none,[],none⟩
def dabS : State := onF (fP 4) sync
def dabN : State := at0 (onF fDabN sync) (fun x => {x with af := vmod x.af 0 (fun a => {a with state := .primary})})
def aq (f : Acq → Acq) (s : State := run1) : State := at0 s (fun x => {x with acq := vmod x.acq 1 f})
def fresh8 (s : State) : State :=
  at0 s (fun x => {x with tun := vmod x.tun 8 (fun u => {u with buffer := [(1000000000000, 0)]})})
def noise : State := fresh8 (aq (fun a => {a with noise := List.replicate 8 (-950), dirty := false}))
def lone (v : Int) : RssiRun := ⟨200000000, [v]⟩
def rise : RssiRun := ⟨5000000, List.replicate 16 (-500)⟩
def primed (f : Acq → Acq) (s : State := noise) : State := aq (fun a => f {a with winStop := some 100}) s
def u70 : State := (primed id)
def sw : SyncWord := ⟨500000, 300, 4⟩
def trig (st : InstState) (q : AcqState) (b : Option Burst) : State :=
  at0 (primed (fun a => {a with acq := q, burst := b})) (fun x =>
    {x with inst := vmod x.inst 1 (fun i => {i with state := st})})
def u72 : State := (trig .sync .triggered none)
def u73 : State := (trig .search .triggered none)
def bst : Burst := newBurst ⟨0, 300, 4⟩ (-600) false false
def u74 : State := (trig .sync .header (some bst))
def cap (q : AcqState) (s : State :=
  trig .sync q (some bst)) : State := aq (fun a => {a with capAt := some 50000000}) s
def sw2 : SyncWord := ⟨50000000, 300, 4⟩
def zeros (n : Nat) : List (List Int) := List.replicate n [-7, -7]
def segq : SegReq := ⟨8, .header, List.replicate 70 [none, some (0, -7)], []⟩
def u75 : State := {trig .sync .header (some bst) with tbm := {run1.tbm with tb := 1000000000}}
def run8 (t : Fin 32) (k : BlockKind) (l : List (List Int)) (o : List Bool :=
  []) : State := at0 (trig .sync .header (some bst)) (fun x =>
    {x with trl := {x.trl with run := vmod x.trl.run 0 (fun _ => some ⟨t, k, 0, l, startMetrics, o, 0⟩)}})
def wseg (t : Fin 32) (k : BlockKind) (l : List (List Int)) (o : List Bool :=
  []) : Segment := ⟨t, k, 0, l, startMetrics, o, 0⟩
def hh : DWord := 0x12001200006005bd
def no64 : List Bool := List.replicate 64 false
def bitsOfHeader : List Bool := (be 8 hh.toNat).flatMap bitsOfByte
def seg : State :=
  at0 (run8 8 .header (zeros 6) bitsOfHeader) (fun x =>
    {x with inst := vmod x.inst 1 (fun i => {i with state := .track}), af := vmod x.af 1 (fun a => {a with state := .primary})})
def u76 : State := {noise with tbm := {noise.tbm with tb := 5000000}}
end Chains

namespace Following
open Base
def afm (f : Af → Af) (s : State := run1) : State := at0 s (fun x => {x with af := vmod x.af 0 f})
def af1 : State :=
  {afm (fun a => {a with state := .primary, outSince := some 0, lists := vmod a.lists 0 (fun _ => [99000000, 101000000]), checkAt := 0, lastSwitch := 0}) with real := 1024000*5000}
def af2 : State := afm (fun a => {a with state := .check, tried := [99000000, 101000000]}) af1
def fRA : Forme :=
  {f1 with recs := f1.recs.map (fun r => if r.type == 1 then {r with payload := (r.payload.set 0 1).set 4 2} else r)}
def cinfo (v : Bool) : CandInfo :=
  { key := 0, freq := 99000000, method := 1, started := 0, tracked := some (1024000*4950), lastRead := none, verified := v, lastUnit := 0, cells := [20,21,22] }
def ra (v : Bool) : State :=
  at0 af1 (fun x => {x with shadow := {x.shadow with active := some fRA}, candInfo := vmod x.candInfo 1 (fun _ => some (cinfo v)), cands := vmod x.cands 1 (fun i =>
    {i with state := .track, declared := true}), tun := vmod x.tun 1 (fun _ => x.tunAt 0)})
def u77 : State := (ra true)
def raN : State :=
  at0 (ra false) (fun x => {x with shadow := {x.shadow with active := some {fRA with recs := fRA.recs.filter (fun r => !(r.type == 5 && r.key == 0))}}})
def ent : SchedEntry :=
  { rule := 3, at_ := 5, due := some 10, late := true, done := none, pin := 2, action := 3, pulseUs := 5, context := 1, cls := 0, code := 0, group := 0, msgId := 0, msgTs := 0 }
def sc (e : SchedEntry) : State :=
  {run1 with tbm := {run1.tbm with tb := 100}, sched := vmod run1.sched 0 (fun d =>
    {d with entries := [e], claim := 255})}
def pend0 : State := at0 running (fun x => {x with shadow := {x.shadow with area := .pending f2 none 0 none}})
def u80 : State := (at0 (sc ent) (fun x => {x with shadow := {x.shadow with area := .pending f2 none 51 none}}))
def pul : State :=
  {run1 with evt := vmod run1.evt 2 (fun _ => {level := true, pulse := some (0, 0, 3)}), evtPins := 4}
def u83 : State := {pul with evt := vmod run1.evt 2 (fun _ => {level := true, pulse := some (5, 0, 3)})}
def u84 : State :=
  {(sc {ent with due := some 3}) with evt := vmod run1.evt 2 (fun _ => {level := true, pulse := some (5, 0, 3)})}
def alr : State :=
  {at0 run1 (fun x => {x with ctx := vmod x.ctx 0 (fun y =>
    {y with alert := {y.alert with active := true, kind := 2, lastFig := 0, routed := true}})}) with real := 2048000000}
end Following

namespace Keys
open Base
def cm (q : Fin 256) (op : Byte) (body : List Byte) : Command := ⟨q, op, 7, 3, body⟩
def pk0 : List Byte := b 1 0 ++ b 1 5 ++ b 1 0 ++ b 1 7 ++ b 1 2 ++ b 3 0 ++ b 16 0x123456789 ++ b 16 0
def pk : List Byte := pk0 ++ b 4 4241175344
def kslot (n : Nat) (f : KeySlot → KeySlot) (s : State :=
  run1) : State := at0 s (fun x => {x with mac := {x.mac with slots := vmod x.mac.slots n (fun k => slotSealed (f k))}})
def par : State := kslot 5 (fun k => {k with key := b 16 77, usage := 7, state := .valid, generation := 0xFFFF})
def parR : State := at0 par (fun x => {x with mac := {x.mac with replay := [⟨1,5,9,0,0⟩, ⟨1,5,8,0,0⟩]}})
def der : List Byte := b 1 5 ++ b 1 9 ++ b 1 1 ++ b 1 3 ++ b 1 1 ++ b 1 4 ++ b 1 0 ++ b 1 0 ++ b 4 0x41424344
def u88 : State := (hand parR (localQ 0 52) 0x40 der)
def u89 : State := (hand run1 (localQ 0 52) 0x40 der)
def u90 : State := (hand run1 (localQ 0 52) 0x40 (der.set 0 9))
def u92 : State := (hand (kslot 5 (fun k => {k with usage := 1}) par) (localQ 0 52) 0x40 der)
def dcm : Command := cm (localQ 0 52) 0x40 der
def dop (n : Nat) : MacOp := ⟨5, 0xFFFF, n, some dcm⟩
def drv (n : Nat) : State := at0 parR (fun x => {x with mac := {x.mac with ops := [dop n]}})
def u93 : State := (drv 3)
def u94 : State := (drv 1)
def u95 : State := (hand par (localQ 0 52) 0x41 (b 8 0x21))
def mb (op : Word) (w0 w1 : Word) (s : State :=
  par) : State := {s with mailbox := {s.mailbox with go := true, opcode := op, body := vmod (vmod s.mailbox.body 0 (fun _ => w0)) 1 (fun _ => w1)}}
def u96 : State := (mb 3 0x21 0)
def u97 : State := (mb 4 0x03000906 0x4)
def u98 : State := (mb 4 0x03000905 0x4)
def era : State := at0 par (fun x => {x with mac := {x.mac with erasing := true, blocked := 0x3F, alarmIn := true}})
def env (bytes : List Byte) : Envelope :=
  { id := 5, ts := 5, tuning := 8, freq := 1, ident := 0, sub := 0, corrected := false, bytes := bytes, bound := some (3, 0), chain := List.replicate 16 0, done := 0, ended := true, failed := false, verdict := none, closed := false, commit := false, proofSent := 0, pendTs := 0, proofCount := 0, proofLost := false, firstSeq := none }
def hdrE (n : Nat) : List Byte := [0, 5] ++ be 6 77 ++ be 2 n
def key3 : List Byte := b 16 0x99
def vs (e : Envelope) : State :=
  at0 (kslot 3 (fun k => {k with key := key3, usage := 1, state := .valid}) run1) (fun x =>
    {x with ctx := vmod x.ctx 1 (fun y => {y with queued := [e]})})
def eLong : Envelope := env (hdrE 40 ++ List.replicate 44 9)
def u99 : State := (vs eLong)
def msgS : List Byte := hdrE 5 ++ List.replicate 5 9
def eBad : Envelope := env (msgS ++ [1,2,3,4])
def eGood : Envelope := env (msgS ++ [102, 186, 89, 1])
def u100 : State := (vs eBad)
def u101 : State := (vs eGood)
def eCom : Envelope := {eGood with done := 15, commit := true}
def u102 : State := (vs eCom)
end Keys

namespace Port
open Base
def cm (q : Fin 256) (op : Byte) (body : List Byte) : Command := ⟨q, op, 7, 3, body⟩
def hp : State := {run1 with qmg := {run1.qmg with inReset := false, linkUp := true, linkWidth := 1, linkSpeed := 1}}
def qm (q : Fin 256) (f : Queue → Queue) (s : State := hp) : State := s.modQ q f
def qOn : State := qm 4 (fun k => {k with en := true, ringLo := 0x1000, prod := 3, cons := 1})
def u103 : State := (qm 4 (fun k => {k with ringLo := 0x1000}))
def bufE : OpenBuf :=
  { addr := 0x10000, len := 16384, desc := 1, used := 128, opened := some 0, nrec := 2, firstSeq := some 0, firstTs := 3, srcs := [], lastSeq := 1 }
def qBuf : State := qm 4 (fun k => {k with buf := some bufE}) qOn
def xf : Xfer :=
  { addr := 0x20000, left := List.replicate 200 7, entry := .data (some 3) ⟨1,0,0,0,0,0,0,List.replicate 10 0, none, none, none⟩, head := false }
def qX : State := qm 4 (fun k => {k with xfer := some xf}) qBuf
def u105 : State := {qBuf with real := 1024*5000}
def owe : State :=
  qm 4 (fun k => {k with irqOwed := true, irqLast := some 0, irq := 0x80003200}) {qBuf with real := 1024*5000}
def u106 : State := {owe with real := 100}
def u107 : State := {qX with tbm := {qX.tbm with tb := 1024000*3}}
def cq (q : Fin 256) : State :=
  qm q (fun k => {k with en := true, ringLo := 0x1000, prod := 3, cons := 1, ringCfg := 0x00C80408})
def u108 : State := (cq 12)
def u111 : State := (hand (cq 12) 12 0 [])
def u112 : State := (qm 12 (fun k => {k with outstanding := [⟨12, 0x28, 1, 2⟩]}) (hand (cq 12) 12 0 []))
def rec0 : Record := ⟨0x20,0,0xFF,0xFF,0xFFFF,0,5,List.replicate 16 0,none,none,none⟩
def heldS : State :=
  qm 4 (fun k => {k with en := true}) (qm 12 (fun k =>
    {k with held := [rec0, rec0], ringCfg := 0x00C80408}) (cq 12))
def fullS : State :=
  qm 4 (fun k => {k with staged := List.replicate 16 (.data (some 3) {rec0 with payload := List.replicate 1020 0})}) heldS
end Port

namespace Power
open Base
def cm (q : Fin 256) (op : Byte) (body : List Byte) : Command := ⟨q, op, 7, 3, body⟩
def pw (f : Pwr → Pwr) (s : State := run1) : State := {s with pwr := f s.pwr}
def u113 : State := (pw (fun p => {p with rel := vmod p.rel 0 (fun _ => 3), aux := .falling}))
def wnt (i n : Nat) : State :=
  pw (fun p => {p with want := vmod p.want i (fun _ => n), rel := vmod p.rel 0 (fun _ => 3)})
def u114 : State := (wnt 1 6)
def u115 : State := (wnt 7 4)
def u116 : State := (wnt 9 33)
def u117 : State := (wnt 15 10)
def u118 : State := (wnt 1 600)
def u119 : State := (wnt 9 600)
def pwS (f : Pwr → Pwr) (n : Nat) : State := {pw f with real := n}
def u120 : State := (pwS (fun p => {p with lowSince := some 0}) 102400000)
def bo := pw (fun p => {p with cls := .brownOut, events := 1, held := vmod p.held 2 (fun _ => 300)})
def il := pw (fun p => {p with cls := .inputLoss})
def u122 : State := (pwS (fun p => {p with cls := .brownOut, goodSince := some 0}) 1024000000)
def u123 : State := (pwS (fun p => {p with cls := .inputLoss, backSince := some 0}) 102400000)
def u124 : State := (pw (fun p => {p with aux := .on, auxMa := 100, held := vmod p.held 9 (fun _ => 7)}))
def u125 : State := (hand run1 12 0x68 [])
def u126 : State := (hand run1 12 0x69 [])
def u127 : State := (hand {run1 with fls := {run1.fls with limit := 3}} 12 0x69 [])
def sp : State := {run1 with mod := {run1.mod with swapping := some ⟨some ⟨14,0x71,7,3⟩,0⟩, busyWrite := true}}
def r2 : State :=
  {r with mod := {r.mod with resetCause := 2}, pwr := {r.pwr with saved := some 0x01000100}, fea := {r.fea with saved := some (Vector.replicate 4 7)}}
def u129 : State := {run1 with fea := r.fea}
def u130 : State := (hand run1 14 0x73 [])
def u131 : State := (hand {run1 with fea := r.fea} 14 0x73 [])
def u132 : State := (hand run1 14 0x72 [])
def ch (o n : Nat) := b 4 o ++ b 4 n ++ b 8 99
def u133 : State := (hand run1 14 0x70 (ch 0 8))
def u134 : State := (hand run1 14 0x70 (ch 4 8))
def u135 : State := (hand run1 14 0x70 (ch 4 3))
def im (mj : Nat) : FwImage := {major := mj, minor := 1, patch := 2, build := [], bytes := []}
def two (mj : Nat) : State :=
  {run1 with mod := {run1.mod with images := vmod run1.mod.images 1 (fun _ => some (im mj))}}
def act (v : Nat) := b 4 v ++ b 8 55
def u136 : State := (hand run1 14 0x71 (act 0))
def imr : FwImage := ((vget run1.mod.images 0 none).getD (im 0))
def u137 : State := (hand (two 3) 14 0x71 (act 0))
def u138 : State := (hand (two 4) 14 0x71 (act 0))
def ac (at_ : Nat) : State := let s := two 3; {s with mod := {s.mod with activate := some ⟨none, at_⟩}}
def u140 : State := (ac 5)
def u141 : State := (ac 0)
def ps (mj : Nat) : State :=
  let s := two mj; {s with mod := {s.mod with pushed := some 5}, tbm := {s.tbm with tb := 1025507328}}
def u142 : State := (ps 3)
def u143 : State := (ps 4)
def fj (j : FlashJob) : State := {run1 with fls := {run1.fls with running := true, jobs := [j]}}
def u144 : State := (fj (.selected true))
def u145 : State := (fj (.pwrSave ⟨12,0x69,7,3⟩ 5))
def u146 : State := (fj (.feaSave ⟨14,0x73,7,3⟩ (Vector.replicate 4 3)))
def mb (op w0 w1 : Word) : State :=
  {run1 with mailbox := {run1.mailbox with go := true, opcode := op, body := vmod (vmod run1.mailbox.body 0 (fun _ => w0)) 1 (fun _ => w1)}}
def u147 : State := (mb 1 0 0)
def u148 : State := (mb 1 5 0)
def u149 : State := (mb 2 5 0x20000)
def u150 : State := (mb 9 5 0x20000)
end Power

namespace Radio
open Base
def cm (q : Fin 256) (op : Byte) (body : List Byte) : Command := ⟨q, op, 7, 3, body⟩
def tbs : State := {run1 with tbm := {run1.tbm with tb := 0x5123456789, tbHi := 9}}
def txb (msg : List Byte) : List Byte :=
  b 1 0 ++ b 1 0 ++ b 2 5 ++ b 1 0 ++ b 3 0 ++ b 4 0 ++ b 2 10 ++ b 2 msg.length ++ b 8 0 ++ padTo (alignUp 4 msg.length) msg
def tq : Fin 256 := localQ 0 53
def tS : State := hand run1 tq 0x50 (txb [1,2,3])
def p10 := (f1.tx).getD []
def lockT (s : State) : State :=
  at0 s (fun x => {x with tx := {x.tx with lock := true, calFreq := 170000000, wantFreq := 0, band := 7}})
def lk : State := lockT run1
def tS2 : State := nextOf (hand run1 tq 0x50 (txb [1,2,3])) (.txSend 0)
def tP : State :=
  let s := lockT tS2; {s with pwr := {s.pwr with held := vmod s.pwr.held 10 (fun _ => 60), want := Vector.replicate 18 0}, tbm := {s.tbm with tb := 10000000}, real := 100000000}
def dflt : TxCmd := takeTx 0 (cm tq 0x50 (txb [1,2,3])) p10 (run1.sl 0).tx 60 0
def kOf (s : State) : TxCmd := ((s.sl 0).tx.cmd).getD dflt
def ph (p : TxPhase) (f : TxCmd → TxCmd :=
  id) (s : State := tP) : State := at0 s (fun x =>
    {x with tx := {x.tx with cmd := some (f {kOf tP with phase := p, phaseAt := 100}), paEn := true, state := .on}})
def u152 : State := (ph .req)
def u153 : State := (ph .tr)
def u154 : State := (at0 (ph .tr) (fun x => {x with tx := {x.tx with gnt := true}}))
def u155 : State := (ph .pa)
def late (s : State) : State := {s with tbm := {s.tbm with tb := 10000000000}, real := 20000000000}
def u158 : State := (late (ph .burst))
def rd (f : TxCmd → TxCmd := id) := late (ph .rampDown (fun k => f {k with rampSym := 77, burstAt := 50}))
def long (k : TxCmd) : TxCmd := {k with message := List.replicate 1500 3}
def u159 : State := (late (ph .gap long))
def u160 : State := (late (ph .paOff))
def u161 : State := (late (ph .trOff))
def u163 : State := (late tS2)
def u164 : State := (late (ph .gntWait))
def u165 : State := (ph .gntWait)
def u166 : State := (ph .burst)
def fl := ph .burst (fun k => {k with revMax := 50})
def u167 : State := (late (ph .abbrev))
def u168 : State := (at0 run1 (fun x => {x with tx := {x.tx with state := .inhibit}}))
def wl : State := at0 run1 (fun x => {x with tx := {x.tx with wantFreq := 170000000}})
def rw_ := b 8 5000000 ++ b 4 1000 ++ b 4 1
def u171 : State := (hand run1 (localQ 0 52) 0x51 rw_)
def win : State :=
  at0 run1 (fun x => {x with tx := {x.tx with windows := [⟨⟨68,0x51,7,3⟩, 0, 5000, true, false, 0, 0⟩, ⟨⟨68,0x51,7,3⟩, 9000, 15000, true, false, 0, 0⟩]}})
def win1 : State :=
  late (at0 run1 (fun x => {x with tx := {x.tx with windows := [⟨⟨68,0x51,7,3⟩, 0, 5000, true, true, 7000, 2⟩]}}))
def u172 : State := {win1 with tbm := {run1.tbm with tb := 3000}}
end Radio

namespace Audio
open Base
def cm (q : Fin 256) (op : Byte) (body : List Byte) : Command := ⟨q, op, 7, 3, body⟩
def p11 := (f1.audio).getD []
def sai (rx : Bool) (f : Half → Half) (s : State :=
  run1) : State := at0 {s with tbm := {s.tbm with tb := 5000000}, real := 5000000} (fun x =>
    {x with sai := if rx then {x.sai with rx := f x.sai.rx} else {x.sai with tx := f x.sai.tx}})
def fNoA : Forme :=
  {f1 with recs := f1.recs.map (fun r => if r.type == 4 then {r with payload := (r.payload.set 4 0).set 0 4} else r)}
def ga : State :=
  at0 (sai false (fun h => {h with state := .running, refNum := 1024000000, refDen := 48000, grid := some ⟨0,0,0⟩})) (fun x =>
    {x with shadow := {x.shadow with active := some fNoA}, sai := {x.sai with source := none}})
def fSl : Forme :=
  {f1 with recs := f1.recs.map (fun r => if r.type == 11 then {r with payload := r.payload.set 3 0} else r)}
def p11s := (fSl.audio).getD []
def slv (rx : Bool) (f : Half → Half) : State :=
  at0 (sai rx (fun h => f {h with refNum := 1024000000, refDen := 48000, edge := 0, state := .running})) (fun x =>
    {x with shadow := {x.shadow with active := some fSl}})
def gt (o : Bool) : State :=
  {sai true (fun h => {h with state := .stopping, gate := some ⟨0,o,[],[]⟩}) with real := 20480000}
def hs (rx : Bool) (t : HalfState) : State := sai rx (fun h => {h with state := t})
def u173 : State := (hs true .off)
def u174 : State := (hs true .stalled)
def u176 : State := (sai true (fun h => {h with state := .starting, refNum := 1024000000, refDen := 48000}))
def u177 : State := (slv true id)
def u179 : State := (slv true (fun h => {h with edge := 4999999}))
def u180 : State := (gt true)
def u182 : State := (hs true .stopped)
def u184 : State := (hs false .running)
def u186 : State := {run1 with trk := {run1.trk with regCfg := 0}}
def u187 : State := {run1 with real := 1000, trk := {run1.trk with lastRegIn := some 0}}
def pr (t : Nat) : PendReg := ⟨t, 0xF, 1, false, 0, 0⟩
def full : State := {run1 with trk := {run1.trk with pending := (List.range 16).map (fun i => pr (100000+i))}}
def ra (t m : Nat) := b 8 t ++ b 1 m ++ b 3 0
def u188 : State := (hand run1 13 0x60 (ra 70000 5))
def u189 : State := (hand full 13 0x60 (ra 70000 5))
def u190 : State := (hand run1 13 0x60 (ra 700 5))
def u191 : State := (hand run1 13 0x60 (ra 1099511627777 5))
def prt (p : Fin 3) (f : Port → Port) (s : State := run1) : State := s.modPort p f
def upS : State :=
  prt 1 (fun k => {k with state := .upstream, link := true}) {run1 with trk := {run1.trk with tree := .attached, upPort := some 1, depth := 2}}
def fr (dir : Nat) (dest src : Nat) (pl : List Byte) : RxFrame :=
  ⟨BitVec.ofNat 2 dir, 3, false, BitVec.ofNat 18 dest, BitVec.ofNat 18 src, pl⟩
def pendS : State := {run1 with trk := {run1.trk with pending := [⟨70000,5,7,false,0,0⟩, ⟨80000,5,4,false,0,0⟩]}}
def u192 : State := (hand pendS 13 0x61 (ra 70000 0))
def u193 : State := {pendS with tbm := {pendS.tbm with tb := 70000}}
def u194 : State := (hand run1 13 0x62 [])
def u195 : State := (hand run1 13 0x63 (b 4 0x010203 ++ b 4 5))
def u196 : State := (hand run1 13 0x63 (b 4 0x010C03 ++ b 4 5))
def bf0 (dir hops : Nat) : BadFrame := ⟨1, 5, ⟨BitVec.ofNat 2 dir, BitVec.ofNat 6 hops, false, 77, 9, [1,2]⟩, 8⟩
def chA : State := prt 1 (fun k => {k with state := .child}) {run1 with trk := {run1.trk with tree := .attached}}
def chS : State :=
  prt 1 (fun k => {k with state := .child, link := true, nbAddr := 5}) {run1 with trk := {run1.trk with tree := .crown, depth := 0}}
def pb : State := prt 1 (fun k => {k with state := .probe, link := true})
def u197 : State := {chS with real := 1024000}
def u198 : State := {pb with real := 102400000}
def ann : RxFrame :=
  fr 3 0 9 (be 1 0 ++ be 2 0 ++ be 1 2 ++ be 1 1 ++ be 1 0 ++ be 4 (Config.serial.toNat % 4294967296 + 1) ++ List.replicate 6 0)
def u199 : State := {pb with trk := {pb.trk with addr := 0}}
def det : State :=
  {prt 1 (fun k => {k with state := .foreign, nbHeard := true, nbDepth := 1, nbCrown := 5, nbAddr := 9}) with real := 1024000*1000}
def fc : Frame :=
  { cls := .control, dir := .link, kind := 1, hops := 0, turn := false, dest := 0, src := 3, payload := [1,2,3], ingress := 2, crc := none }
def eg : State := prt 1 (fun k => {k with qControl := [fc]}) upS
def eg2 : State := prt 1 (fun k => {k with sending := some fc}) upS
def sy : RxFrame := fr 3 0 9 (be 8 4000 ++ be 9 0 ++ be 1 1 ++ be 1 3 ++ be 1 0)
def adS : State := {upS with trk := {upS.trk with addr := 77}}
def rcp : List Byte := le 4 44 ++ List.replicate 40 3
def psh : Push :=
  { cmd := ⟨13,0x64,7,3⟩, id := 5, obj := 1, dst := 3, boot := 0, dest := 0, waitMs := 100, data := [1,2], round := 4, todo := [], endAt := some 0, answers := [⟨9,1,[3]⟩, ⟨8,0,[]⟩] }
def pS : State := {adS with trk := {adS.trk with push := some psh}}
def pbd (o s : Nat) : List Byte := b 1 o ++ b 1 s ++ b 1 7 ++ b 1 0 ++ b 4 9 ++ b 4 0
def lib1 : State :=
  {run1 with fls := {run1.fls with library := vmod run1.fls.library 5 (fun _ => some ⟨f2b, 0b0101⟩)}}
def u201 : State := (hand run1 13 0x64 (pbd 5 0))
def u202 : State := (hand pS 13 0x64 (pbd 1 0))
def u203 : State := (hand run1 13 0x64 (pbd 1 0))
def u204 : State := (hand lib1 13 0x64 (pbd 1 5))
def u205 : State := {pS with real := 1024000*100}
def chk_ := be 4 5 ++ be 2 0 ++ be 1 1 ++ be 1 3 ++ be 4 2000 ++ be 1 0 ++ be 3 0 ++ List.replicate 1024 7
def xfr : Transfer :=
  {id := 5, src := 9, obj := 1, dst := 3, total := 2000, boot := 0, chunks := [(0, List.replicate 1024 7)], storing := false, stored := false, last := 0}
def xs : State := {upS with trk := {upS.trk with transfers := [xfr]}}
end Audio

/-! ### Witnesses -/

theorem optAll {α : Type} {o : Option α} {P : α → Prop} [DecidablePred P]
    (h : o.all (fun a => decide (P a)) = true) : ∀ a, o = some a → P a := by
  rintro a rfl
  simpa using h

theorem okOf {α β : Type} {e : Except α β} {b : β} (h : e.toOption = some b) : e = .ok b := by
  cases e <;> simp_all [Except.toOption]

theorem ctxQuiet {x : Slice} {P : Envelope → Prop} (h : x.ctx = Vector.replicate 256 Ctx.reset) (k : Nat)
    (_ : k < 256) : ∀ e, (x.ctxAt k).front = some e → P e := by
  intro e he
  simp [Slice.ctxAt, vget, h, Ctx.front, Ctx.reset] at he


/-- O8: states and operands that meet the hypotheses of each clause. -/
theorem witness_WriteBgCfg : BitVec.toNat (16777228 : Word) = 16777216 + 12 :=
  by decide +kernel

/-- O9: states and operands that meet the hypotheses of each clause. -/
theorem witness_WriteOneClears : (Base.idle.sl (0 : Fin 4)).ctl.state.served = true ∧
    BitVec.toNat (16842756 : Word) = 16777216 + 65540 ∧ BitVec.toNat (17629188 : Word) = 16777216 + 851972 :=
  by decide +kernel

/-- O10: states and operands that meet the hypotheses of each clause. -/
theorem witness_MalformedWriteIsCounted : BitVec.toNat (16842756 : Word) = 16777216 + 65540 ∧ 65540 < 4194304 ∧
    (8 ≠ 4 ∨ 65540 % 4 ≠ 0) ∧ (Base.idle.sl (0 : Fin 4)).ctl.state.served = true :=
  by decide +kernel

/-- O11: states and operands that meet the hypotheses of each clause. -/
theorem witness_ReadsThatClearAndLatch : (BitVec.toNat (17825800 : Word) = 16777216 + 1048584 ∧
    (Base.idle.sl (0 : Fin 4)).ctl.state.served = true ∧ Base.ready.mod.ready = true ∧
    Base.ready.mod.swapping = none ∧ BitVec.toNat (1280 : Word) = 256 * 5 ∧
    BitVec.toNat (1284 : Word) = 256 * 5 + 4 ∧ BitVec.toNat (1296 : Word) = 256 * 5 + 16 ∧ 8 ≤ 16 ∧ 16 < 256 ∧
    16 % 4 = 0 ∧ BitVec.toNat (1282 : Word) < 65536 ∧ (9 ≠ 4 ∨ BitVec.toNat (1282 : Word) % 4 ≠ 0) ∧
    sramAt (BitVec.toNat (196608 : Word)) = none ∧ BitVec.toNat (196608 : Word) % 4 = 0 ∧
    sramAt (BitVec.toNat (196608 : Word) + 4) = none) ∧ (BitVec.toNat (196608 : Word) + 4 < 4294967296 ∧
    Base.ready.qmg.blkIrq = (0 : Word)) :=
  ⟨by decide +kernel, by decide +kernel⟩

/-- O12: states and operands that meet the hypotheses of each clause. -/
theorem witness_SramWindow : (BitVec.toNat (20971528 : Word) = 16777216 + 4194304 + 8 ∧ 8 < 12582912 ∧
    (Base.idle.sl (0 : Fin 4)).ctl.state.served = true ∧ (8 = 4 ∧ 8 % 4 = 0 ∨ 8 = 8 ∧ 8 % 8 = 0) ∧
    (Base.idle.sl (0 : Fin 4)).ctl.state = SliceState.idle ∧ (Base.idle.sl (0 : Fin 4)).err.badWords = [] ∧
    (4 = 4 ∧ 8 % 4 = 0 ∨ 4 = 8 ∧ 8 % 8 = 0) ∧ (Base.idle.sl (0 : Fin 4)).err.inject = none ∧
    (Base.running.sl (0 : Fin 4)).ctl.state.served = true ∧
    (Base.running.sl (0 : Fin 4)).ctl.state ≠ SliceState.idle ∧
    (Base.running.sl (0 : Fin 4)).inRegion 8 4 = false ∧ (¬(2 = 4 ∧ 8 % 4 = 0 ∨ 2 = 8 ∧ 8 % 8 = 0))) ∧
    (SramWf Base.idle) :=
  ⟨by decide +kernel, fun c => by revert c; decide +kernel⟩

/-- O13: states and operands that meet the hypotheses of each clause. -/
theorem witness_BayGetsCartridge : ((Base.noCart.sl (0 : Fin 4)).cart = none ∧ Base.noCart.mod.ready = true ∧
    Slices.cart.part = (29796 : BitVec 16) ∧
    { id := Slices.cart.id, part := (4660 : BitVec 16), issue := Slices.cart.issue, slots := Slices.cart.slots, replay := Slices.cart.replay, marker := Slices.cart.marker, erases := Slices.cart.erases, lastCause := Slices.cart.lastCause : Cartridge }.part ≠ (29796 : BitVec 16) ∧
    (Slices.u1.sl (0 : Fin 4)).cart = none ∧ Slices.u1.mod.ready = false ∧
    (Cartridge.fitted 0).part = (29796 : BitVec 16) ∧ Base.ready.mod.ready = true ∧
    (Base.ready.sl (0 : Fin 4)).ctl.state = SliceState.reset ∧ (Base.ready.sl (0 : Fin 4)).ctl.feedOn = false ∧
    vget Base.ready.pwr.rxAsk 0 RxAsk.none = RxAsk.none ∧ Base.held.mod.ready = true ∧
    Base.held.mod.swapping = none ∧ (Base.held.sl (0 : Fin 4)).ctl.state = SliceState.held ∧
    (Base.held.sl (0 : Fin 4)).ctl.part = 29796) ∧ ((Base.held.sl (0 : Fin 4)).ctl.onReq = false) ∧
    ((Base.ready.sl (0 : Fin 4)).cart = some (Cartridge.fitted 0)) :=
  ⟨by decide +kernel, by decide +kernel, rfl⟩

/-- O14: states and operands that meet the hypotheses of each clause. -/
theorem witness_BayLosesCartridge : (Base.fed.sl (0 : Fin 4)).cart ≠ none ∧ Base.idle.mod.ready = true ∧
    Base.idle.mod.swapping = none ∧ (Base.idle.sl (0 : Fin 4)).ctl.feedOn = true ∧
    (Base.idle.sl (0 : Fin 4)).ctl.offReq = false ∧ (Base.idle.sl (0 : Fin 4)).tx.resetAfter = none ∧
    (Base.idle.sl (0 : Fin 4)).tx.cmd = none ∧ (Slices.u2.sl (0 : Fin 4)).ctl.offReq = true ∧
    (Slices.u2.sl (0 : Fin 4)).ctl.state = SliceState.reset ∧
    (Slices.u2.draining (0 : Fin 4) = false ∨ (Slices.u2.sl (0 : Fin 4)).ctl.offAt + 100 * 1024000 ≤ Slices.u2.real) :=
  by decide +kernel

/-- O15: states and operands that meet the hypotheses of each clause. -/
theorem witness_SliceStarts : ((Base.fed.sl (0 : Fin 4)).ctl.state = SliceState.reset ∧
    (Base.fed.sl (0 : Fin 4)).ctl.feedOn = true ∧ (Base.fed.sl (0 : Fin 4)).ctl.offReq = false ∧
    (∀ (b : Nat), b < 16 → (List.filter (fun p => p % 16 == b) (List.filter (fun p => Decidable.decide (p < 3072)) [1, 17, 5].eraseDups)).length ≤ 4) ∧
    (Slices.u3.sl (0 : Fin 4)).ctl.state = SliceState.calibrating ∧
    (Slices.u3.sl (0 : Fin 4)).shadow.reload = none ∧ (Slices.u3.sl (0 : Fin 4)).clk.coast = false ∧
    vget Slices.u3.pwr.want (14 + 0) 0 = 0 ∧
    (calComplete (Slices.u3.calRecOf (0 : Fin 4)).kinds (Slices.u3.sl (0 : Fin 4)).afe.calLosses (if ((Slices.u3.calRecOf (0 : Fin 4)).kinds.contains 2 && !(Slices.u3.sl (0 : Fin 4)).afe.searching) = true then List.filter (fun o => o.kind != 2) [{ kind := 1, status := (0 : Byte), start := 0, stop := 5, fields := [(1 : Int), (2 : Int)] : CalOutcome }] ++ [calRefused Slices.u3.tb] else [{ kind := 1, status := (0 : Byte), start := 0, stop := 5, fields := [(1 : Int), (2 : Int)] : CalOutcome }]) = false) ∧
    (calComplete (Slices.u3.calRecOf (0 : Fin 4)).kinds (Slices.u3.sl (0 : Fin 4)).afe.calLosses (if ((Slices.u3.calRecOf (0 : Fin 4)).kinds.contains 2 && !(Slices.u3.sl (0 : Fin 4)).afe.searching) = true then List.filter (fun o => o.kind != 2) Slices.calAll ++ [calRefused Slices.u3.tb] else Slices.calAll) = true) ∧
    (¬((Slices.u3.sl (0 : Fin 4)).shadow.boot ≠ none ∧ some false ≠ some false)) ∧
    (Slices.u3.sl (0 : Fin 4)).shadow.active = none ∧
    (Slices.u4.sl (0 : Fin 4)).ctl.state = SliceState.calibrating ∧
    (Slices.u4.sl (0 : Fin 4)).shadow.reload = none ∧ (Slices.u4.sl (0 : Fin 4)).clk.coast = false) ∧
    (vget Slices.u4.pwr.want (14 + 0) 0 = 0 ∧
    (calComplete (Slices.u4.calRecOf (0 : Fin 4)).kinds (Slices.u4.sl (0 : Fin 4)).afe.calLosses (if ((Slices.u4.calRecOf (0 : Fin 4)).kinds.contains 2 && !(Slices.u4.sl (0 : Fin 4)).afe.searching) = true then List.filter (fun o => o.kind != 2) Slices.calAll ++ [calRefused Slices.u4.tb] else Slices.calAll) = true) ∧
    ((Slices.u4.sl (0 : Fin 4)).shadow.boot ≠ none ∧
    none ≠ some false ∨ (Slices.u4.sl (0 : Fin 4)).shadow.active ≠ none)) :=
  ⟨by decide +kernel, by decide +kernel⟩

/-- O16: states and operands that meet the hypotheses of each clause. -/
theorem witness_SliceResetClears : ((Base.idle.sl (0 : Fin 4)).ctl.state = SliceState.calibrating ∨ (Base.idle.sl (0 : Fin 4)).ctl.state = SliceState.idle ∨ (Base.idle.sl (0 : Fin 4)).ctl.state = SliceState.running ∨ (Base.idle.sl (0 : Fin 4)).ctl.state = SliceState.faulted) ∧
    (Base.idle.sl (0 : Fin 4)).ctl.resetReq = false ∧ (Base.idle.sl (0 : Fin 4)).tx.resetAfter = none ∧
    (Base.idle.sl (0 : Fin 4)).tx.cmd = none ∧ (Base.idle.sl (0 : Fin 4)).shadow.bad = false ∧
    (Base.fed.sl (0 : Fin 4)).ctl.state = SliceState.reset ∧ (Base.fed.sl (0 : Fin 4)).ctl.offReq = false ∧
    ((Base.held.sl (0 : Fin 4)).ctl.state = SliceState.absent ∨ (Base.held.sl (0 : Fin 4)).ctl.state = SliceState.held) :=
  by decide +kernel

/-- O17: states and operands that meet the hypotheses of each clause. -/
theorem witness_CellAndPageErrors : (Base.running.sl (0 : Fin 4)).running3 = true ∧
    (Base.running.sl (0 : Fin 4)).err.isolated.contains 3 = false ∧
    (Base.running.sl (0 : Fin 4)).err.cellErrs = [] ∧ (Base.running.sl (0 : Fin 4)).ctl.state.served = true ∧
    BitVec.toNat (4100 : BitVec 24) < 12582912 ∧
    (PageOwner.host = PageOwner.host ∨ PageOwner.host = PageOwner.nobody) ∧
    0 < vget (Base.running.sl (0 : Fin 4)).err.spares (BitVec.toNat (4100 : BitVec 24) / 4096 % 16) 0 :=
  by decide +kernel

/-- O18: states and operands that meet the hypotheses of each clause. -/
theorem witness_BlockErrors : (Base.idle.sl (0 : Fin 4)).running3 = true ∧
    (Base.idle.sl (0 : Fin 4)).ctl.state ≠ SliceState.running ∧ (Base.idle.sl (0 : Fin 4)).shadow.bad = false ∧
    (Base.idle.sl (0 : Fin 4)).err.blockErrs = [] ∧ (Base.idle.sl (0 : Fin 4)).err.busErrs = [] ∧
    (Slices.u5.sl (0 : Fin 4)).running3 = true ∧
    (Slices.u5.sl (0 : Fin 4)).err.resetting = [(blockCode SliceBlock.demodulator, 3)] ∧
    3 + 10 * 1024 ≤ Slices.u5.real ∧ (Slices.u5.sl (0 : Fin 4)).ctl.escTimes = [] ∧
    (Slices.u5.sl (0 : Fin 4)).tx.cmd = none :=
  by decide +kernel

/-- O19: states and operands that meet the hypotheses of each clause. -/
theorem witness_BackgroundChecks : ((Slices.u6.sl (0 : Fin 4)).ctl.state.served = true ∧
    bit (Slices.u6.sl (0 : Fin 4)).ctl.bgCfg 0 = true ∧
    (vget (if Slices.u6.tb / 4096 = (Slices.u6.sl (0 : Fin 4)).ctl.bgWindow then (Slices.u6.sl (0 : Fin 4)).ctl.bgGrants else Vector.replicate 16 0) ((Slices.u6.sl (0 : Fin 4)).ctl.scrubNext * 8 / 4096 % 16) 0 < 30) ∧
    (Slices.u6.sl (0 : Fin 4)).err.badWords.contains (8 * (Slices.u6.sl (0 : Fin 4)).ctl.scrubNext) = false ∧
    (Slices.u7.sl (0 : Fin 4)).ctl.state.served = true ∧ bit (Slices.u7.sl (0 : Fin 4)).ctl.bgCfg 0 = true ∧
    (30 ≤ vget (if Slices.u7.tb / 4096 = (Slices.u7.sl (0 : Fin 4)).ctl.bgWindow then (Slices.u7.sl (0 : Fin 4)).ctl.bgGrants else Vector.replicate 16 0) ((Slices.u7.sl (0 : Fin 4)).ctl.scrubNext * 8 / 4096 % 16) 0) ∧
    (Slices.u8.sl (0 : Fin 4)).ctl.state.served = true ∧ bit (Slices.u8.sl (0 : Fin 4)).ctl.bgCfg 0 = true ∧
    (vget (if Slices.u8.tb / 4096 = (Slices.u8.sl (0 : Fin 4)).ctl.bgWindow then (Slices.u8.sl (0 : Fin 4)).ctl.bgGrants else Vector.replicate 16 0) ((Slices.u8.sl (0 : Fin 4)).ctl.scrubNext * 8 / 4096 % 16) 0 < 30) ∧
    (Slices.u8.sl (0 : Fin 4)).err.badWords.contains (8 * (Slices.u8.sl (0 : Fin 4)).ctl.scrubNext) = true ∧
    (Slices.u8.sl (0 : Fin 4)).err.cellErrs = [] ∧
    0 < vget (Slices.u8.sl (0 : Fin 4)).err.spares ((Slices.u8.sl (0 : Fin 4)).ctl.scrubNext * 8 / 4096 % 16) 0 ∧
    ((Slices.u8.sl (0 : Fin 4)).pageOwner (8 * (Slices.u8.sl (0 : Fin 4)).ctl.scrubNext) = PageOwner.host ∨ (Slices.u8.sl (0 : Fin 4)).pageOwner (8 * (Slices.u8.sl (0 : Fin 4)).ctl.scrubNext) = PageOwner.nobody) ∧
    (Slices.u9.sl (0 : Fin 4)).ctl.state.served = true) ∧ (bit (Slices.u9.sl (0 : Fin 4)).ctl.bgCfg 0 = false ∧
    (Slices.u10.sl (0 : Fin 4)).ctl.state.served = true ∧
    (Slices.u10.sl (0 : Fin 4)).shadow.active = some Base.f0 ∧ (Slices.u10.sl (0 : Fin 4)).shadow.bad = false ∧
    (Slices.u10.sl (0 : Fin 4)).shadow.area = Staged2.empty ∧
    (Slices.u11.sl (0 : Fin 4)).ctl.state.served = true ∧
    (Slices.u11.sl (0 : Fin 4)).shadow.area = Staged2.staged Base.f0 none ∧
    (Base.idle.sl (0 : Fin 4)).ctl.state.served = true ∧ (Slices.u12.sl (0 : Fin 4)).ctl.state.served = true ∧
    ((Slices.u12.sl (0 : Fin 4)).tunAt 0).bankUsed (1 == 1) = false ∧
    (Slices.u13.sl (0 : Fin 4)).ctl.state.served = true ∧
    ((Slices.u13.sl (0 : Fin 4)).tunAt 0).bankUsed (1 == 1) = true ∧
    (∀ (j : Nat), j < 64 → slotGood ((List.foldl (fun (x : Slice) (u : Fin 64 × Fin 48 × Byte) => x.modSlot (↑u.fst : Nat) fun w => slotUpset w u.snd.fst u.snd.snd) (Base.idle.sl (0 : Fin 4)) []).slotAt j) = true) ∧
    (∀ (j : Nat), j < 64 → slotGood ((List.foldl (fun (x : Slice) (u : Fin 64 × Fin 48 × Byte) => x.modSlot (↑u.fst : Nat) fun w => slotUpset w u.snd.fst u.snd.snd) (Base.idle.sl (0 : Fin 4)) [((7 : Fin 64), (3 : Fin 48), (1 : Byte))]).slotAt j) = Decidable.decide (j ≠ 7)) ∧
    bit (2049 : Word) 0 = true) ∧ (8 * bf (2049 : Word) 3 21 < 12582912 ∧ Base.idle.mod.ready = true ∧
    (Slices.u14.sl (0 : Fin 4)).ctl.state.served = true ∧ Slices.u14.mod.ready = true ∧
    Slices.u14.mod.swapping = none ∧ (∀ (d : Fin 4), (Slices.u14.sl d).up = false) ∧
    (Slices.u15.sl (0 : Fin 4)).ctl.state.served = true ∧ Slices.u15.mod.ready = false) ∧
    ((∀ (t b : Nat), t < 32 → b < 2 → ((List.foldl (fun (t : State) (p : Fin 32 × Fin 2 × Nat × BitVec 20) => t.coefUpset (0 : Fin 4) p.fst p.snd.fst p.snd.snd.fst p.snd.snd.snd) Slices.u12 [((0 : Fin 32), (1 : Fin 2), 1, (0 : BitVec 20))]).sl (0 : Fin 4)).coefWrong t b = false)) ∧
    ((∀ (n m : Nat), n < 32 → m < 2 → ((List.foldl (fun (t : State) (p : Fin 32 × Fin 2 × Nat × BitVec 20) => t.coefUpset (0 : Fin 4) p.fst p.snd.fst p.snd.snd.fst p.snd.snd.snd) Slices.u12 [((0 : Fin 32), (1 : Fin 2), 1, (4 : BitVec 20))]).sl (0 : Fin 4)).coefWrong n m = Decidable.decide (n = 0 ∧
    m = 1))) ∧
    ((∀ (n m : Nat), n < 32 → m < 2 → ((List.foldl (fun (t : State) (p : Fin 32 × Fin 2 × Nat × BitVec 20) => t.coefUpset (0 : Fin 4) p.fst p.snd.fst p.snd.snd.fst p.snd.snd.snd) Slices.u13 [((0 : Fin 32), (1 : Fin 2), 1, (4 : BitVec 20))]).sl (0 : Fin 4)).coefWrong n m = Decidable.decide (n = 0 ∧
    m = 1))) :=
  ⟨by decide +kernel, by decide +kernel, by decide +kernel, by intro t b ht hb; interval_cases t <;> interval_cases b <;> decide +kernel, by intro t b ht hb; interval_cases t <;> interval_cases b <;> decide +kernel, by intro t b ht hb; interval_cases t <;> interval_cases b <;> decide +kernel⟩

/-- O20: states and operands that meet the hypotheses of each clause. -/
theorem witness_FormeChunks : (Slices.u16.inHand (localQ (0 : Fin 4) 52) 32 = some { queue := localQ (0 : Fin 4) 52, opcode := (32 : Byte), tag := (7 : Word), desc := (3 : Word), body := Slices.chunk 0 8 (le 8 77) : Command } ∧
    (Slices.u16.sl (0 : Fin 4)).up = true ∧
    u32 { queue := localQ (0 : Fin 4) 52, opcode := (32 : Byte), tag := (7 : Word), desc := (3 : Word), body := Slices.chunk 0 8 (le 8 77) : Command }.body 4 % 4 = 0 ∧
    4 ≤ u32 { queue := localQ (0 : Fin 4) 52, opcode := (32 : Byte), tag := (7 : Word), desc := (3 : Word), body := Slices.chunk 0 8 (le 8 77) : Command }.body 4 ∧
    u32 { queue := localQ (0 : Fin 4) 52, opcode := (32 : Byte), tag := (7 : Word), desc := (3 : Word), body := Slices.chunk 0 8 (le 8 77) : Command }.body 4 ≤ 4096 ∧
    (Slices.u16.sl (0 : Fin 4)).shadow.area = Staged2.empty ∧
    u32 { queue := localQ (0 : Fin 4) 52, opcode := (32 : Byte), tag := (7 : Word), desc := (3 : Word), body := Slices.chunk 0 8 (le 8 77) : Command }.body 0 = 0 ∧
    u32 { queue := localQ (0 : Fin 4) 52, opcode := (32 : Byte), tag := (7 : Word), desc := (3 : Word), body := Slices.chunk 0 8 (le 8 77) : Command }.body 4 < 48 ∧
    Slices.u17.inHand (localQ (0 : Fin 4) 52) 32 = some { queue := localQ (0 : Fin 4) 52, opcode := (32 : Byte), tag := (7 : Word), desc := (3 : Word), body := Slices.chunk 4 8 (le 8 77) : Command } ∧
    (Slices.u17.sl (0 : Fin 4)).up = true ∧
    u32 { queue := localQ (0 : Fin 4) 52, opcode := (32 : Byte), tag := (7 : Word), desc := (3 : Word), body := Slices.chunk 4 8 (le 8 77) : Command }.body 4 % 4 = 0 ∧
    4 ≤ u32 { queue := localQ (0 : Fin 4) 52, opcode := (32 : Byte), tag := (7 : Word), desc := (3 : Word), body := Slices.chunk 4 8 (le 8 77) : Command }.body 4 ∧
    u32 { queue := localQ (0 : Fin 4) 52, opcode := (32 : Byte), tag := (7 : Word), desc := (3 : Word), body := Slices.chunk 4 8 (le 8 77) : Command }.body 4 ≤ 4096 ∧
    (Slices.u17.sl (0 : Fin 4)).shadow.area = Staged2.loading (le 8 3) 0 ∧
    u32 { queue := localQ (0 : Fin 4) 52, opcode := (32 : Byte), tag := (7 : Word), desc := (3 : Word), body := Slices.chunk 4 8 (le 8 77) : Command }.body 0 ≠ 0) ∧
    (u32 { queue := localQ (0 : Fin 4) 52, opcode := (32 : Byte), tag := (7 : Word), desc := (3 : Word), body := Slices.chunk 4 8 (le 8 77) : Command }.body 0 ≠ (le 8 3).length ∧
    Slices.u18.inHand (localQ (0 : Fin 4) 52) 32 = some { queue := localQ (0 : Fin 4) 52, opcode := (32 : Byte), tag := (7 : Word), desc := (3 : Word), body := Slices.chunk 4 8 (le 8 77) : Command } ∧
    (Slices.u18.sl (0 : Fin 4)).up = true ∧
    (Slices.u18.sl (0 : Fin 4)).shadow.area = Staged2.staged Base.f0 none ∧
    (Slices.u19.sl (0 : Fin 4)).shadow.area = Staged2.loading (le 8 3) 0 ∧ 0 + 10240000000 ≤ Slices.u19.real) :=
  ⟨by decide +kernel, by decide +kernel⟩

/-- O21: states and operands that meet the hypotheses of each clause. -/
theorem witness_FormeLockupAndQuery : ((Slices.u20.sl (0 : Fin 4)).up = true ∧
    Slices.u20.inHand (localQ (0 : Fin 4) 52) 33 = some { queue := localQ (0 : Fin 4) 52, opcode := (33 : Byte), tag := (7 : Word), desc := (3 : Word), body := Slices.lk : Command } ∧
    (Slices.u20.sl (0 : Fin 4)).shadow.area = Staged2.staged Base.f0 none ∧
    u8 { queue := localQ (0 : Fin 4) 52, opcode := (33 : Byte), tag := (7 : Word), desc := (3 : Word), body := Slices.lk : Command }.body 0 = 0 ∧
    u32 { queue := localQ (0 : Fin 4) 52, opcode := (33 : Byte), tag := (7 : Word), desc := (3 : Word), body := Slices.lk : Command }.body 4 = BitVec.toNat Base.f0.crc ∧
    Base.f0.rxAsk ≤ Slices.u20.holds (2 + 0) ∧ (Slices.u21.sl (0 : Fin 4)).up = true ∧
    Slices.u21.inHand (localQ (0 : Fin 4) 52) 33 = some { queue := localQ (0 : Fin 4) 52, opcode := (33 : Byte), tag := (7 : Word), desc := (3 : Word), body := Slices.lk : Command } ∧
    (Slices.u21.sl (0 : Fin 4)).shadow.area = Staged2.staged Base.f0 none ∧
    Slices.u21.holds (2 + 0) < Base.f0.rxAsk ∧ (Slices.u22.sl (0 : Fin 4)).up = true ∧
    Slices.u22.inHand (localQ (0 : Fin 4) 52) 34 = some { queue := localQ (0 : Fin 4) 52, opcode := (34 : Byte), tag := (7 : Word), desc := (3 : Word), body := Slices.lk : Command } ∧
    (Slices.u22.sl (0 : Fin 4)).shadow.area = Staged2.staged Base.f0 none ∧
    (Slices.u23.sl (0 : Fin 4)).up = true ∧
    Slices.u23.inHand (localQ (0 : Fin 4) 52) 35 = some { queue := localQ (0 : Fin 4) 52, opcode := (35 : Byte), tag := (7 : Word), desc := (3 : Word), body := [] : Command }) ∧
    ((Slices.u23.sl (0 : Fin 4)).shadow.active = some Base.f0 ∧
    (Slices.u23.sl (0 : Fin 4)).shadow.area = Staged2.empty) :=
  ⟨by decide +kernel, by decide +kernel⟩

/-- O22: states and operands that meet the hypotheses of each clause. -/
theorem witness_LockupTakesEffect : (Base.pend.sl (0 : Fin 4)).shadow.area = Staged2.pending Base.f2 none 0 none ∧
    (Base.pend.sl (0 : Fin 4)).up = true ∧ 0 ≤ Base.pend.tb ∧ (Base.pend.sl (0 : Fin 4)).clk.coast = false ∧
    Base.pend.lockBefore (0 : Fin 4) 0 = false ∧ Base.pend.lockCheck (0 : Fin 4) Base.f2 none = none ∧
    placeCells Base.f2 (Base.pend.sl (0 : Fin 4)).err.isolated = some [] ∧
    (Clocks.pendBad.sl (0 : Fin 4)).shadow.area = Staged2.pending { generation := Base.f1.generation, name := Base.f1.name, crc := Base.f1.crc, recs := [] : Forme } none 0 none ∧
    (Clocks.pendBad.sl (0 : Fin 4)).up = true ∧ 0 ≤ Clocks.pendBad.tb ∧
    (Clocks.pendBad.sl (0 : Fin 4)).clk.coast = false ∧ Clocks.pendBad.lockBefore (0 : Fin 4) 0 = false ∧
    Clocks.pendBad.lockCheck (0 : Fin 4) { generation := Base.f1.generation, name := Base.f1.name, crc := Base.f1.crc, recs := [] : Forme } none ≠ none :=
  by decide +kernel

/-- O23: states and operands that meet the hypotheses of each clause. -/
theorem witness_LibraryCommands : (Clocks.u24.inHand (12 : Fin 256) 41 = some (Clocks.cm (12 : Fin 256) (41 : Byte) (Base.b 4 5)) ∧
    u8 (Clocks.cm (12 : Fin 256) (41 : Byte) (Base.b 4 5)).body 0 < 64 ∧
    u8 (Clocks.cm (12 : Fin 256) (41 : Byte) (Base.b 4 5)).body 1 = 0 ∧
    Clocks.u24.fls.entry (u8 (Clocks.cm (12 : Fin 256) (41 : Byte) (Base.b 4 5)).body 0) = some { forme := Base.f2b, boot := (5 : BitVec 4) : LibEntry } ∧
    (Clocks.u24.sl (0 : Fin 4)).up = true ∧ (Clocks.u24.sl (0 : Fin 4)).shadow.area = Staged2.empty ∧
    checkForme Base.f2 (Clocks.u24.checkEnv (0 : Fin 4)) = none ∧
    Clocks.u26.inHand (12 : Fin 256) 40 = some (Clocks.cm (12 : Fin 256) (40 : Byte) (Base.b 4 327680)) ∧
    u8 (Clocks.cm (12 : Fin 256) (40 : Byte) (Base.b 4 327680)).body 0 < 4 ∧
    u8 (Clocks.cm (12 : Fin 256) (40 : Byte) (Base.b 4 327680)).body 1 = 0 ∧
    u8 (Clocks.cm (12 : Fin 256) (40 : Byte) (Base.b 4 327680)).body 2 < 64 ∧
    (Clocks.u26.sl (Fin.ofNat 4 (u8 (Clocks.cm (12 : Fin 256) (40 : Byte) (Base.b 4 327680)).body 0))).mergeBase = some Base.f2 ∧
    Clocks.u26.libraryBytes (u8 (Clocks.cm (12 : Fin 256) (40 : Byte) (Base.b 4 327680)).body 2) + Base.f2.bytes.length ≤ 4194304 ∧
    Clocks.u26.flashUsed + flashKib Base.f2.bytes.length ≤ bf Clocks.u26.fls.limit 0 16 ∧
    Clocks.u27.inHand (12 : Fin 256) 42 = some (Clocks.cm (12 : Fin 256) (42 : Byte) (Base.b 4 5))) ∧
    (u8 (Clocks.cm (12 : Fin 256) (42 : Byte) (Base.b 4 5)).body 0 < 64 ∧
    Clocks.u27.flashUsed + 4 ≤ bf Clocks.u27.fls.limit 0 16 ∧
    Clocks.u28.inHand (12 : Fin 256) 43 = some (Clocks.cm (12 : Fin 256) (43 : Byte) (Base.b 4 1282)) ∧
    u8 (Clocks.cm (12 : Fin 256) (43 : Byte) (Base.b 4 1282)).body 0 < 4 ∧
    (u8 (Clocks.cm (12 : Fin 256) (43 : Byte) (Base.b 4 1282)).body 1 = 255 ∨ u8 (Clocks.cm (12 : Fin 256) (43 : Byte) (Base.b 4 1282)).body 1 < 64 ∧
    Clocks.u28.fls.entry (u8 (Clocks.cm (12 : Fin 256) (43 : Byte) (Base.b 4 1282)).body 1) ≠ none) ∧
    Clocks.u30.inHand (12 : Fin 256) 44 = some (Clocks.cm (12 : Fin 256) (44 : Byte) []) ∧
    40 ≤ { forme := Base.f2b, boot := (5 : BitVec 4) : LibEntry }.forme.length) ∧
    (parseForme { forme := Base.f2b, boot := (5 : BitVec 4) : LibEntry }.forme (Clocks.u24.sl (0 : Fin 4)).mergeBase = Except.ok (Base.f2, none)) :=
  ⟨by decide +kernel, by decide +kernel, okOf (by decide +kernel)⟩

/-- O24: states and operands that meet the hypotheses of each clause. -/
theorem witness_EpochAndSources : (Base.run1.tb % 1048576 = 0 ∧ Base.run1.tbm.hold = none ∧
    Clocks.locked1.tbm.state = TbmState.locked ∧ Clocks.locked1.tbm.qualified Clocks.locked1.tbm.source = true ∧
    Clocks.locked1.tbm.source = 1 ∧ Clocks.locked1.tbm.ppsExpect ≠ none ∧
    Clocks.locked1.tbm.ppsLast + 2048000000 ≤ Clocks.locked1.real ∧ Clocks.locked2.tbm.state = TbmState.locked ∧
    Clocks.locked2.tbm.qualified Clocks.locked2.tbm.source = true ∧ Clocks.locked2.tbm.source = 2 ∧
    (Clocks.locked2.trk.upPort = none ∨ Clocks.locked2.trk.timeReal + 256000000 ≤ Clocks.locked2.real) ∧
    Clocks.hold1.tbm.state = TbmState.holdover ∧
    Clocks.hold1.tbm.holdSince + 3600 * 1024000000 * bf Clocks.hold1.tbm.holdoverCfg 0 8 ≤ Clocks.hold1.real) ∧
    ((∀ (r : Nat), 1 ≤ r → r ≤ 4 → r ≠ Clocks.locked1.tbm.source → Clocks.locked1.tbm.qualified r = false)) ∧
    ((∀ (r : Nat), 1 ≤ r → r ≤ 4 → r ≠ Clocks.locked2.tbm.source → Clocks.locked2.tbm.qualified r = false)) :=
  ⟨by decide +kernel, by intro r h k; rcases (by omega : r = 1 ∨ r = 2 ∨ r = 3 ∨ r = 4) with rfl | rfl | rfl | rfl <;> decide +kernel, by intro r h k; rcases (by omega : r = 1 ∨ r = 2 ∨ r = 3 ∨ r = 4) with rfl | rfl | rfl | rfl <;> decide +kernel⟩

/-- O25: states and operands that meet the hypotheses of each clause. -/
theorem witness_TimeSelection : (Clocks.pps1.tbm.qualified 1 = true ∧
    (¬∃ x, Clocks.pps1.tbm.ppsExpect = some x ∧ x ≤ Clocks.pps1.real + 102400 ∧
    (ppsOffset ((↑Clocks.pps1.real : Int) - (↑x : Int))).natAbs ≤ 102400) ∧
    (Clocks.u31.tbm.qualified 1 = false ∨ ∃ x, Clocks.u31.tbm.ppsExpect = some x ∧
    x ≤ Clocks.u31.real + 102400 ∧ (ppsOffset ((↑Clocks.u31.real : Int) - (↑x : Int))).natAbs ≤ 102400) ∧
    Clocks.u31.tbm.origin = true ∧ Clocks.u31.tbm.tod = none ∧ Clocks.sw1.tbm.best = some 1 ∧
    Clocks.sw1.tbm.state = TbmState.locked ∧ 1 < Clocks.sw1.tbm.source ∧
    vget Clocks.sw1.tbm.since (1 - 1) 0 + 1024000000 * bf Clocks.sw1.tbm.cfg 16 8 ≤ Clocks.sw1.real ∧
    ((Clocks.ct1.sl (0 : Fin 4)).ctxAt 1).offered = true ∧
    timeRank (cxParser (((Clocks.ct1.sl (0 : Fin 4)).find 5 1).getD [])) = 4 ∧
    ((Clocks.ct1.sl (0 : Fin 4)).ctxAt 1).timeReal + 614400000000 ≤ Clocks.ct1.real ∧
    Clocks.u32.mod.ready = true ∧ Clocks.u32.mod.swapping = none ∧
    bf (5578496 : Word) 8 4 = bf Clocks.u32.tbm.cfg 8 4) ∧ (bit Clocks.u32.tbm.cfg 12 = true ∧
    bf (5578496 : Word) 4 4 = bf Clocks.u32.tbm.cfg 4 4 ∧ Clocks.u33.mod.ready = true ∧
    Clocks.u33.mod.swapping = none ∧ Clocks.u33.tbm.origin = false ∧ Clocks.u33.tbm.step = none ∧
    Clocks.u33.ppsPresent = false ∧
    Clocks.u33.tb < BitVec.toNat (85 : Word) * 4294967296 + BitVec.toNat Clocks.u33.tbm.todLo ∧
    Clocks.u34.mod.ready = true ∧ Clocks.u34.mod.swapping = none ∧ Clocks.u34.tbm.origin = false ∧
    Clocks.u34.tbm.step = none ∧ Clocks.u34.ppsPresent = false ∧
    BitVec.toNat (0 : Word) * 4294967296 + BitVec.toNat Clocks.u34.tbm.todLo ≤ Clocks.u34.tb) :=
  ⟨by decide +kernel, by decide +kernel⟩

/-- O26: states and operands that meet the hypotheses of each clause. -/
theorem witness_StepsAndHolds : Clocks.u35.tbm.step = some { point := 1073741824, amount := 77, kind := 0, source := 1, todSet := false : PendStep } ∧
    { point := 1073741824, amount := 77, kind := 0, source := 1, todSet := false : PendStep }.point = Clocks.u35.tb ∧
    { point := 1073741824, amount := 77, kind := 0, source := 1, todSet := false : PendStep }.kind ≠ 2 ∧
    Clocks.u36.tbm.step = some { point := 1073741824, amount := 77, kind := 2, source := 1, todSet := false : PendStep } ∧
    { point := 1073741824, amount := 77, kind := 2, source := 1, todSet := false : PendStep }.point = Clocks.u36.tb ∧
    { point := 1073741824, amount := 77, kind := 2, source := 1, todSet := false : PendStep }.kind = 2 ∧
    Clocks.u37.tbm.holdsAt = some Clocks.u37.tb ∧ (0 : Int) < Clocks.u37.tbm.offset ∧
    Clocks.u39.tbm.hold = some { point := 1073741824, left := 0 : ActiveHold } :=
  by decide +kernel

/-- O27: states and operands that meet the hypotheses of each clause. -/
theorem witness_ClockLossAndReturn : (Clocks.u40.sl (0 : Fin 4)).timingOk = true ∧
    (Clocks.lost1.sl (0 : Fin 4)).ctl.state.served = true ∧ (Clocks.lost1.sl (0 : Fin 4)).clk.lock = false ∧
    (Clocks.lost1.sl (0 : Fin 4)).clk.loadAt = none ∧
    (Clocks.lost1.sl (0 : Fin 4)).clk.lastAttempt + 10240000 ≤ Clocks.lost1.real ∧
    (Clocks.lost1.sl (0 : Fin 4)).clk.coast = true ∧ (Clocks.rr1.sl (0 : Fin 4)).clk.reregAt = some 0 ∧
    0 ≤ Clocks.rr1.tb ∧ (Clocks.rr1.sl (0 : Fin 4)).clk.lock = true :=
  by decide +kernel

/-- O28: states and operands that meet the hypotheses of each clause. -/
theorem witness_GainWrites : (Clocks.man.sl (0 : Fin 4)).ctl.state.served = true ∧
    (Clocks.man.sl (0 : Fin 4)).afe.agcMode = some true ∧ (Base.run1.sl (0 : Fin 4)).ctl.state.served = true ∧
    (Base.run1.sl (0 : Fin 4)).afe.agcMode ≠ some true ∧
    (Clocks.man.sl (0 : Fin 4)).afe.gainPend = [(0, 7, true)] ∧ 0 ≤ Clocks.man.tb ∧
    (1 ≤ bf (6578959 : Word) 16 8 ∧ 1 ≤ bf (6578959 : Word) 12 4 ∧ 1 ≤ bf (6578959 : Word) 8 4 ∧
    6 ≤ bf (6578959 : Word) 0 6 ∧ bf (6578959 : Word) 0 6 ≤ 40) ∧
    (bf (0 : Word) 16 8 = 0 ∨ bf (0 : Word) 12 4 = 0 ∨ bf (0 : Word) 8 4 = 0 ∨ bf (0 : Word) 0 6 < 6 ∨ 40 < bf (0 : Word) 0 6) ∧
    ((Base.run1.sl (0 : Fin 4)).afe.preselected = false ∨ (Base.run1.sl (0 : Fin 4)).afe.band ≤ 1) ∧
    (Clocks.u41.sl (0 : Fin 4)).ctl.state.served = true ∧ ((Clocks.u41.sl (0 : Fin 4)).afe.preselected = true ∧
    1 < (Clocks.u41.sl (0 : Fin 4)).afe.band) :=
  by decide +kernel

/-- O29: states and operands that meet the hypotheses of each clause. -/
theorem witness_AgcRules : ((Clocks.agc.sl (0 : Fin 4)).ctl.state = SliceState.running ∧
    (Clocks.agc.sl (0 : Fin 4)).afe.agcMode = some false ∧ (Clocks.agc.sl (0 : Fin 4)).clk.coast = false ∧
    (Clocks.agc.sl (0 : Fin 4)).afe.windowStart + 102400 ≤ Clocks.agc.tb ∧
    (Clocks.agc.sl (0 : Fin 4)).afe.windowSpoilt ((Clocks.agc.sl (0 : Fin 4)).afe.windowStart + 102400) = false ∧
    (Clocks.agc.sl (0 : Fin 4)).agcHeld = false ∧ (Clocks.agc.sl (0 : Fin 4)).afe.acquire = false ∧
    (↑(BitVec.toNat (40 : BitVec 16)) : Int) < (10 : Int) * ((↑(Clocks.agc.sl (0 : Fin 4)).afe.target : Int) - (↑(Clocks.agc.sl (0 : Fin 4)).afe.hyst : Int)) ∧
    (Clocks.agc.sl (0 : Fin 4)).afe.atten < (Clocks.agc.sl (0 : Fin 4)).afe.maxAtten ∧
    (10 : Int) * ((↑(Clocks.agc.sl (0 : Fin 4)).afe.target : Int) - (↑(Clocks.agc.sl (0 : Fin 4)).afe.hyst : Int)) ≤ (↑(BitVec.toNat (1000 : BitVec 16)) : Int) ∧
    (Clocks.u42.sl (0 : Fin 4)).ctl.state = SliceState.running ∧
    (Clocks.u42.sl (0 : Fin 4)).afe.agcMode = some false ∧ (Clocks.u42.sl (0 : Fin 4)).clk.coast = false ∧
    (Clocks.u42.sl (0 : Fin 4)).afe.windowStart + 102400 ≤ Clocks.u42.tb ∧
    (Clocks.u42.sl (0 : Fin 4)).afe.windowSpoilt ((Clocks.u42.sl (0 : Fin 4)).afe.windowStart + 102400) = false) ∧
    ((Clocks.u42.sl (0 : Fin 4)).agcHeld = false ∧ (Clocks.u42.sl (0 : Fin 4)).afe.acquire = true ∧
    (Clocks.u43.sl (0 : Fin 4)).ctl.state = SliceState.running ∧
    (Clocks.u43.sl (0 : Fin 4)).afe.agcMode = some false ∧ (Clocks.u43.sl (0 : Fin 4)).clk.coast = false ∧
    (Clocks.u43.sl (0 : Fin 4)).afe.windowStart + 102400 ≤ Clocks.u43.tb ∧
    (Clocks.u43.sl (0 : Fin 4)).afe.windowSpoilt ((Clocks.u43.sl (0 : Fin 4)).afe.windowStart + 102400) = true ∧
    (Clocks.u44.sl (0 : Fin 4)).ctl.state = SliceState.running ∧
    (Clocks.u44.sl (0 : Fin 4)).afe.agcMode = some false ∧ (Clocks.u44.sl (0 : Fin 4)).clk.coast = false ∧
    (Clocks.u44.sl (0 : Fin 4)).afe.windowStart + 102400 ≤ Clocks.u44.tb ∧
    (Clocks.u44.sl (0 : Fin 4)).afe.windowSpoilt ((Clocks.u44.sl (0 : Fin 4)).afe.windowStart + 102400) = false ∧
    (Clocks.u44.sl (0 : Fin 4)).agcHeld = true ∧
    attackDue [102390, 102391, 102392, 102393] Clocks.agc.tb = true ∧
    (∀ (t : Nat), (Clocks.agc.sl (0 : Fin 4)).afe.lastAttack = some t → t + 10240 ≤ Clocks.agc.tb)) ∧
    ((Clocks.u45.sl (0 : Fin 4)).ctl.state = SliceState.running ∧
    (Clocks.u45.sl (0 : Fin 4)).afe.agcMode = some false ∧ (Clocks.u45.sl (0 : Fin 4)).agcHeld = false ∧
    (Clocks.u45.sl (0 : Fin 4)).afe.quietSince + bf (Clocks.u45.sl (0 : Fin 4)).afe.agcCfg 16 8 * 10240000 ≤ Clocks.u45.tb ∧
    Clocks.u45.tb < (Clocks.u45.sl (0 : Fin 4)).afe.windowStart + 102400 ∧
    (Clocks.u45.sl (0 : Fin 4)).afe.lnaByp = false ∧
    (Clocks.u45.sl (0 : Fin 4)).afe.minAtten < (Clocks.u45.sl (0 : Fin 4)).afe.atten ∧
    (Clocks.u46.sl (0 : Fin 4)).ctl.state = SliceState.running ∧
    (Clocks.u46.sl (0 : Fin 4)).afe.agcMode = some false ∧ (Clocks.u46.sl (0 : Fin 4)).agcHeld = false ∧
    (Clocks.u46.sl (0 : Fin 4)).afe.quietSince + bf (Clocks.u46.sl (0 : Fin 4)).afe.agcCfg 16 8 * 10240000 ≤ Clocks.u46.tb ∧
    Clocks.u46.tb < (Clocks.u46.sl (0 : Fin 4)).afe.windowStart + 102400 ∧
    (Clocks.u46.sl (0 : Fin 4)).afe.lnaByp = true ∧ (Clocks.u47.sl (0 : Fin 4)).ctl.state = SliceState.running ∧
    (Clocks.u47.sl (0 : Fin 4)).afe.agcMode = some false) ∧ ((Clocks.u47.sl (0 : Fin 4)).agcHeld = false ∧
    (Clocks.u47.sl (0 : Fin 4)).afe.quietSince + bf (Clocks.u47.sl (0 : Fin 4)).afe.agcCfg 16 8 * 10240000 ≤ Clocks.u47.tb ∧
    Clocks.u47.tb < (Clocks.u47.sl (0 : Fin 4)).afe.windowStart + 102400 ∧
    (Clocks.u47.sl (0 : Fin 4)).afe.lnaByp = false ∧
    (Clocks.u47.sl (0 : Fin 4)).afe.atten ≤ (Clocks.u47.sl (0 : Fin 4)).afe.minAtten) :=
  ⟨by decide +kernel, by decide +kernel, by decide +kernel, by decide +kernel⟩

/-- O30: states and operands that meet the hypotheses of each clause. -/
theorem witness_CalibrationRequests : ((Base.run1.sl (0 : Fin 4)).up = true ∧
    (Base.run1.sl (0 : Fin 4)).afe.calPend = [] ∧ (Base.run1.sl (0 : Fin 4)).afe.calRun = none ∧
    (Clocks.u48.sl (0 : Fin 4)).ctl.state = SliceState.calibrating ∧
    (Clocks.u48.sl (0 : Fin 4)).afe.calHeld.contains 2 = false ∧
    (Clocks.u48.sl (0 : Fin 4)).afe.calHeld.contains 4 = false ∧
    Clocks.u49.inHand (localQ (0 : Fin 4) 52) 48 = some (Clocks.cm (localQ (0 : Fin 4) 52) (48 : Byte) (Base.b 4 5)) ∧
    (Clocks.u49.sl (0 : Fin 4)).up = true ∧
    1 ≤ u8 (Clocks.cm (localQ (0 : Fin 4) 52) (48 : Byte) (Base.b 4 5)).body 0 ∧
    u8 (Clocks.cm (localQ (0 : Fin 4) 52) (48 : Byte) (Base.b 4 5)).body 0 ≤ 15 ∧
    (Clocks.u49.sl (0 : Fin 4)).afe.calPend = [] ∧ (Clocks.u49.sl (0 : Fin 4)).afe.calRun = none ∧
    Clocks.u50.inHand (localQ (0 : Fin 4) 52) 48 = some (Clocks.cm (localQ (0 : Fin 4) 52) (48 : Byte) (Base.b 4 0)) ∧
    (Clocks.u50.sl (0 : Fin 4)).up = true ∧
    (u8 (Clocks.cm (localQ (0 : Fin 4) 52) (48 : Byte) (Base.b 4 0)).body 0 = 0 ∨ 15 < u8 (Clocks.cm (localQ (0 : Fin 4) 52) (48 : Byte) (Base.b 4 0)).body 0)) ∧
    ((FrontEnd.u61.sl (0 : Fin 4)).ctl.state = SliceState.calibrating ∧
    (FrontEnd.u61.sl (0 : Fin 4)).afe.calHeld.contains 1 = false ∧
    (FrontEnd.u61.sl (0 : Fin 4)).afe.calHeld.contains 3 = false) :=
  ⟨by decide +kernel, by decide +kernel⟩

/-- O31: states and operands that meet the hypotheses of each clause. -/
theorem witness_CalibrationIntervals : (Clocks.u52.tb % 1048576 = 0 ∧ (Clocks.u52.sl (0 : Fin 4)).up = true ∧
    (Clocks.u52.sl (0 : Fin 4)).afe.calRun = none ∧ (Clocks.u52.sl (0 : Fin 4)).clk.coast = false ∧
    (∀ (t : Nat), (Clocks.u52.sl (0 : Fin 4)).afe.calEnd = some t → t + 51200000 ≤ Clocks.u52.tb) ∧
    (Clocks.u52.sl (0 : Fin 4)).calNext Clocks.u52.tb = some { kind := 1, origin := 1, at_ := 0 : CalPend } ∧
    { kind := 1, origin := 1, at_ := 0 : CalPend }.kind ≠ 2 ∧ Clocks.u53.tb % 1048576 = 0 ∧
    (Clocks.u53.sl (0 : Fin 4)).up = true ∧ (Clocks.u53.sl (0 : Fin 4)).afe.calRun = none ∧
    (Clocks.u53.sl (0 : Fin 4)).clk.coast = false ∧
    (∀ (t : Nat), (Clocks.u53.sl (0 : Fin 4)).afe.calEnd = some t → t + 51200000 ≤ Clocks.u53.tb) ∧
    (Clocks.u53.sl (0 : Fin 4)).calNext Clocks.u53.tb = some { kind := 2, origin := 1, at_ := 0 : CalPend } ∧
    { kind := 2, origin := 1, at_ := 0 : CalPend }.kind = 2 ∧ (Clocks.u53.sl (0 : Fin 4)).afe.searchOk = true) ∧
    ((Clocks.ce.sl (0 : Fin 4)).afe.calRun = some { kind := 1, origin := 1, start := 0, freq := 20000 : CalRun } ∧
    { kind := 1, status := (0 : Byte), start := 0, stop := 800, fields := [(7 : Int), (-8 : Int)] : CalOutcome }.kind = 1 ∧
    0 < Clocks.ce.tb ∧ (Clocks.ce.sl (0 : Fin 4)).afe.calPend = [] ∧
    (FrontEnd.mon.sl (0 : Fin 4)).monitorDue FrontEnd.mon.real = true) :=
  ⟨by decide +kernel, by decide +kernel⟩

/-- O32: states and operands that meet the hypotheses of each clause. -/
theorem witness_BackgroundTrims : ({ pending := Clocks.bg.pending, slices := Clocks.bg.slices, queues := Clocks.bg.queues, qmg := Clocks.bg.qmg, tbm := { tb := 3000000, tbHi := Clocks.bg.tbm.tbHi, origin := Clocks.bg.tbm.origin, originAt := Clocks.bg.tbm.originAt, state := Clocks.bg.tbm.state, source := Clocks.bg.tbm.source, lost := Clocks.bg.tbm.lost, timing := Clocks.bg.tbm.timing, qual := Clocks.bg.tbm.qual, since := Clocks.bg.tbm.since, holdSince := Clocks.bg.tbm.holdSince, cfg := Clocks.bg.tbm.cfg, slewLimit := Clocks.bg.tbm.slewLimit, offset := Clocks.bg.tbm.offset, slewing := Clocks.bg.tbm.slewing, slewAcc := Clocks.bg.tbm.slewAcc, offHi := Clocks.bg.tbm.offHi, holdsAt := Clocks.bg.tbm.holdsAt, step := Clocks.bg.tbm.step, hold := Clocks.bg.tbm.hold, refDelay := Clocks.bg.tbm.refDelay, tcDelay := Clocks.bg.tbm.tcDelay, todLo := Clocks.bg.tbm.todLo, tod := Clocks.bg.tbm.tod, refinOk := Clocks.bg.tbm.refinOk, ppsExpect := Clocks.bg.tbm.ppsExpect, ppsGood := Clocks.bg.tbm.ppsGood, ppsLast := Clocks.bg.tbm.ppsLast, events := Clocks.bg.tbm.events, ppsAccepted := Clocks.bg.tbm.ppsAccepted, ppsIgnored := Clocks.bg.tbm.ppsIgnored, holdoverCfg := Clocks.bg.tbm.holdoverCfg, utcOffset := Clocks.bg.tbm.utcOffset, srcOff := Clocks.bg.tbm.srcOff, replan := Clocks.bg.tbm.replan, warps := Clocks.bg.tbm.warps, moved := Clocks.bg.tbm.moved, everLocked := Clocks.bg.tbm.everLocked : Tbm }, trk := Clocks.bg.trk, pwr := Clocks.bg.pwr, mod := Clocks.bg.mod, fea := Clocks.bg.fea, fls := Clocks.bg.fls, calStore := Clocks.bg.calStore, mailbox := Clocks.bg.mailbox, errm := Clocks.bg.errm, tap := Clocks.bg.tap, bsr := Clocks.bg.bsr, sched := Clocks.bg.sched, evt := Clocks.bg.evt, evtPins := Clocks.bg.evtPins, real := Clocks.bg.real, readData := Clocks.bg.readData, out := Clocks.bg.out, free := Clocks.bg.free : State }.calBgOn (0 : Fin 4) = true ∧
    ({ pending := Clocks.bg.pending, slices := Clocks.bg.slices, queues := Clocks.bg.queues, qmg := Clocks.bg.qmg, tbm := { tb := 3000000, tbHi := Clocks.bg.tbm.tbHi, origin := Clocks.bg.tbm.origin, originAt := Clocks.bg.tbm.originAt, state := Clocks.bg.tbm.state, source := Clocks.bg.tbm.source, lost := Clocks.bg.tbm.lost, timing := Clocks.bg.tbm.timing, qual := Clocks.bg.tbm.qual, since := Clocks.bg.tbm.since, holdSince := Clocks.bg.tbm.holdSince, cfg := Clocks.bg.tbm.cfg, slewLimit := Clocks.bg.tbm.slewLimit, offset := Clocks.bg.tbm.offset, slewing := Clocks.bg.tbm.slewing, slewAcc := Clocks.bg.tbm.slewAcc, offHi := Clocks.bg.tbm.offHi, holdsAt := Clocks.bg.tbm.holdsAt, step := Clocks.bg.tbm.step, hold := Clocks.bg.tbm.hold, refDelay := Clocks.bg.tbm.refDelay, tcDelay := Clocks.bg.tbm.tcDelay, todLo := Clocks.bg.tbm.todLo, tod := Clocks.bg.tbm.tod, refinOk := Clocks.bg.tbm.refinOk, ppsExpect := Clocks.bg.tbm.ppsExpect, ppsGood := Clocks.bg.tbm.ppsGood, ppsLast := Clocks.bg.tbm.ppsLast, events := Clocks.bg.tbm.events, ppsAccepted := Clocks.bg.tbm.ppsAccepted, ppsIgnored := Clocks.bg.tbm.ppsIgnored, holdoverCfg := Clocks.bg.tbm.holdoverCfg, utcOffset := Clocks.bg.tbm.utcOffset, srcOff := Clocks.bg.tbm.srcOff, replan := Clocks.bg.tbm.replan, warps := Clocks.bg.tbm.warps, moved := Clocks.bg.tbm.moved, everLocked := Clocks.bg.tbm.everLocked : Tbm }, trk := Clocks.bg.trk, pwr := Clocks.bg.pwr, mod := Clocks.bg.mod, fea := Clocks.bg.fea, fls := Clocks.bg.fls, calStore := Clocks.bg.calStore, mailbox := Clocks.bg.mailbox, errm := Clocks.bg.errm, tap := Clocks.bg.tap, bsr := Clocks.bg.bsr, sched := Clocks.bg.sched, evt := Clocks.bg.evt, evtPins := Clocks.bg.evtPins, real := Clocks.bg.real, readData := Clocks.bg.readData, out := Clocks.bg.out, free := Clocks.bg.free : State }.sl (0 : Fin 4)).inForce = some Base.f1 ∧
    Base.f1.feedsLdb 8 = true ∧
    ({ pending := Clocks.bg.pending, slices := Clocks.bg.slices, queues := Clocks.bg.queues, qmg := Clocks.bg.qmg, tbm := { tb := 3000000, tbHi := Clocks.bg.tbm.tbHi, origin := Clocks.bg.tbm.origin, originAt := Clocks.bg.tbm.originAt, state := Clocks.bg.tbm.state, source := Clocks.bg.tbm.source, lost := Clocks.bg.tbm.lost, timing := Clocks.bg.tbm.timing, qual := Clocks.bg.tbm.qual, since := Clocks.bg.tbm.since, holdSince := Clocks.bg.tbm.holdSince, cfg := Clocks.bg.tbm.cfg, slewLimit := Clocks.bg.tbm.slewLimit, offset := Clocks.bg.tbm.offset, slewing := Clocks.bg.tbm.slewing, slewAcc := Clocks.bg.tbm.slewAcc, offHi := Clocks.bg.tbm.offHi, holdsAt := Clocks.bg.tbm.holdsAt, step := Clocks.bg.tbm.step, hold := Clocks.bg.tbm.hold, refDelay := Clocks.bg.tbm.refDelay, tcDelay := Clocks.bg.tbm.tcDelay, todLo := Clocks.bg.tbm.todLo, tod := Clocks.bg.tbm.tod, refinOk := Clocks.bg.tbm.refinOk, ppsExpect := Clocks.bg.tbm.ppsExpect, ppsGood := Clocks.bg.tbm.ppsGood, ppsLast := Clocks.bg.tbm.ppsLast, events := Clocks.bg.tbm.events, ppsAccepted := Clocks.bg.tbm.ppsAccepted, ppsIgnored := Clocks.bg.tbm.ppsIgnored, holdoverCfg := Clocks.bg.tbm.holdoverCfg, utcOffset := Clocks.bg.tbm.utcOffset, srcOff := Clocks.bg.tbm.srcOff, replan := Clocks.bg.tbm.replan, warps := Clocks.bg.tbm.warps, moved := Clocks.bg.tbm.moved, everLocked := Clocks.bg.tbm.everLocked : Tbm }, trk := Clocks.bg.trk, pwr := Clocks.bg.pwr, mod := Clocks.bg.mod, fea := Clocks.bg.fea, fls := Clocks.bg.fls, calStore := Clocks.bg.calStore, mailbox := Clocks.bg.mailbox, errm := Clocks.bg.errm, tap := Clocks.bg.tap, bsr := Clocks.bg.bsr, sched := Clocks.bg.sched, evt := Clocks.bg.evt, evtPins := Clocks.bg.evtPins, real := Clocks.bg.real, readData := Clocks.bg.readData, out := Clocks.bg.out, free := Clocks.bg.free : State }.sl (0 : Fin 4)).clk.coast = false ∧
    ({ pending := Clocks.bg.pending, slices := Clocks.bg.slices, queues := Clocks.bg.queues, qmg := Clocks.bg.qmg, tbm := { tb := 3000000, tbHi := Clocks.bg.tbm.tbHi, origin := Clocks.bg.tbm.origin, originAt := Clocks.bg.tbm.originAt, state := Clocks.bg.tbm.state, source := Clocks.bg.tbm.source, lost := Clocks.bg.tbm.lost, timing := Clocks.bg.tbm.timing, qual := Clocks.bg.tbm.qual, since := Clocks.bg.tbm.since, holdSince := Clocks.bg.tbm.holdSince, cfg := Clocks.bg.tbm.cfg, slewLimit := Clocks.bg.tbm.slewLimit, offset := Clocks.bg.tbm.offset, slewing := Clocks.bg.tbm.slewing, slewAcc := Clocks.bg.tbm.slewAcc, offHi := Clocks.bg.tbm.offHi, holdsAt := Clocks.bg.tbm.holdsAt, step := Clocks.bg.tbm.step, hold := Clocks.bg.tbm.hold, refDelay := Clocks.bg.tbm.refDelay, tcDelay := Clocks.bg.tbm.tcDelay, todLo := Clocks.bg.tbm.todLo, tod := Clocks.bg.tbm.tod, refinOk := Clocks.bg.tbm.refinOk, ppsExpect := Clocks.bg.tbm.ppsExpect, ppsGood := Clocks.bg.tbm.ppsGood, ppsLast := Clocks.bg.tbm.ppsLast, events := Clocks.bg.tbm.events, ppsAccepted := Clocks.bg.tbm.ppsAccepted, ppsIgnored := Clocks.bg.tbm.ppsIgnored, holdoverCfg := Clocks.bg.tbm.holdoverCfg, utcOffset := Clocks.bg.tbm.utcOffset, srcOff := Clocks.bg.tbm.srcOff, replan := Clocks.bg.tbm.replan, warps := Clocks.bg.tbm.warps, moved := Clocks.bg.tbm.moved, everLocked := Clocks.bg.tbm.everLocked : Tbm }, trk := Clocks.bg.trk, pwr := Clocks.bg.pwr, mod := Clocks.bg.mod, fea := Clocks.bg.fea, fls := Clocks.bg.fls, calStore := Clocks.bg.calStore, mailbox := Clocks.bg.mailbox, errm := Clocks.bg.errm, tap := Clocks.bg.tap, bsr := Clocks.bg.bsr, sched := Clocks.bg.sched, evt := Clocks.bg.evt, evtPins := Clocks.bg.evtPins, real := Clocks.bg.real, readData := Clocks.bg.readData, out := Clocks.bg.out, free := Clocks.bg.free : State }.sl (0 : Fin 4)).dcQuiet Base.f1 8 { pending := Clocks.bg.pending, slices := Clocks.bg.slices, queues := Clocks.bg.queues, qmg := Clocks.bg.qmg, tbm := { tb := 3000000, tbHi := Clocks.bg.tbm.tbHi, origin := Clocks.bg.tbm.origin, originAt := Clocks.bg.tbm.originAt, state := Clocks.bg.tbm.state, source := Clocks.bg.tbm.source, lost := Clocks.bg.tbm.lost, timing := Clocks.bg.tbm.timing, qual := Clocks.bg.tbm.qual, since := Clocks.bg.tbm.since, holdSince := Clocks.bg.tbm.holdSince, cfg := Clocks.bg.tbm.cfg, slewLimit := Clocks.bg.tbm.slewLimit, offset := Clocks.bg.tbm.offset, slewing := Clocks.bg.tbm.slewing, slewAcc := Clocks.bg.tbm.slewAcc, offHi := Clocks.bg.tbm.offHi, holdsAt := Clocks.bg.tbm.holdsAt, step := Clocks.bg.tbm.step, hold := Clocks.bg.tbm.hold, refDelay := Clocks.bg.tbm.refDelay, tcDelay := Clocks.bg.tbm.tcDelay, todLo := Clocks.bg.tbm.todLo, tod := Clocks.bg.tbm.tod, refinOk := Clocks.bg.tbm.refinOk, ppsExpect := Clocks.bg.tbm.ppsExpect, ppsGood := Clocks.bg.tbm.ppsGood, ppsLast := Clocks.bg.tbm.ppsLast, events := Clocks.bg.tbm.events, ppsAccepted := Clocks.bg.tbm.ppsAccepted, ppsIgnored := Clocks.bg.tbm.ppsIgnored, holdoverCfg := Clocks.bg.tbm.holdoverCfg, utcOffset := Clocks.bg.tbm.utcOffset, srcOff := Clocks.bg.tbm.srcOff, replan := Clocks.bg.tbm.replan, warps := Clocks.bg.tbm.warps, moved := Clocks.bg.tbm.moved, everLocked := Clocks.bg.tbm.everLocked : Tbm }, trk := Clocks.bg.trk, pwr := Clocks.bg.pwr, mod := Clocks.bg.mod, fea := Clocks.bg.fea, fls := Clocks.bg.fls, calStore := Clocks.bg.calStore, mailbox := Clocks.bg.mailbox, errm := Clocks.bg.errm, tap := Clocks.bg.tap, bsr := Clocks.bg.bsr, sched := Clocks.bg.sched, evt := Clocks.bg.evt, evtPins := Clocks.bg.evtPins, real := Clocks.bg.real, readData := Clocks.bg.readData, out := Clocks.bg.out, free := Clocks.bg.free : State }.tb = true ∧
    ({ pending := Clocks.bg.pending, slices := Clocks.bg.slices, queues := Clocks.bg.queues, qmg := Clocks.bg.qmg, tbm := { tb := 3000000, tbHi := Clocks.bg.tbm.tbHi, origin := Clocks.bg.tbm.origin, originAt := Clocks.bg.tbm.originAt, state := Clocks.bg.tbm.state, source := Clocks.bg.tbm.source, lost := Clocks.bg.tbm.lost, timing := Clocks.bg.tbm.timing, qual := Clocks.bg.tbm.qual, since := Clocks.bg.tbm.since, holdSince := Clocks.bg.tbm.holdSince, cfg := Clocks.bg.tbm.cfg, slewLimit := Clocks.bg.tbm.slewLimit, offset := Clocks.bg.tbm.offset, slewing := Clocks.bg.tbm.slewing, slewAcc := Clocks.bg.tbm.slewAcc, offHi := Clocks.bg.tbm.offHi, holdsAt := Clocks.bg.tbm.holdsAt, step := Clocks.bg.tbm.step, hold := Clocks.bg.tbm.hold, refDelay := Clocks.bg.tbm.refDelay, tcDelay := Clocks.bg.tbm.tcDelay, todLo := Clocks.bg.tbm.todLo, tod := Clocks.bg.tbm.tod, refinOk := Clocks.bg.tbm.refinOk, ppsExpect := Clocks.bg.tbm.ppsExpect, ppsGood := Clocks.bg.tbm.ppsGood, ppsLast := Clocks.bg.tbm.ppsLast, events := Clocks.bg.tbm.events, ppsAccepted := Clocks.bg.tbm.ppsAccepted, ppsIgnored := Clocks.bg.tbm.ppsIgnored, holdoverCfg := Clocks.bg.tbm.holdoverCfg, utcOffset := Clocks.bg.tbm.utcOffset, srcOff := Clocks.bg.tbm.srcOff, replan := Clocks.bg.tbm.replan, warps := Clocks.bg.tbm.warps, moved := Clocks.bg.tbm.moved, everLocked := Clocks.bg.tbm.everLocked : Tbm }, trk := Clocks.bg.trk, pwr := Clocks.bg.pwr, mod := Clocks.bg.mod, fea := Clocks.bg.fea, fls := Clocks.bg.fls, calStore := Clocks.bg.calStore, mailbox := Clocks.bg.mailbox, errm := Clocks.bg.errm, tap := Clocks.bg.tap, bsr := Clocks.bg.bsr, sched := Clocks.bg.sched, evt := Clocks.bg.evt, evtPins := Clocks.bg.evtPins, real := Clocks.bg.real, readData := Clocks.bg.readData, out := Clocks.bg.out, free := Clocks.bg.free : State }.sl (0 : Fin 4)).afe.bgDc.contains 8 = false ∧
    Clocks.u54.calBgOn (0 : Fin 4) = true ∧ (Clocks.u54.sl (0 : Fin 4)).inForce = some Base.f1 ∧
    (Clocks.u54.sl (0 : Fin 4)).clk.coast = false ∧
    (Clocks.u54.sl (0 : Fin 4)).dcQuiet Base.f1 8 Clocks.u54.tb = true ∧
    (Clocks.u54.sl (0 : Fin 4)).afe.bgDc.contains 8 = true ∧
    { pending := Clocks.bg.pending, slices := Clocks.bg.slices, queues := Clocks.bg.queues, qmg := Clocks.bg.qmg, tbm := Clocks.bg.tbm, trk := Clocks.bg.trk, pwr := Clocks.bg.pwr, mod := Clocks.bg.mod, fea := Clocks.bg.fea, fls := Clocks.bg.fls, calStore := Clocks.bg.calStore, mailbox := Clocks.bg.mailbox, errm := Clocks.bg.errm, tap := Clocks.bg.tap, bsr := Clocks.bg.bsr, sched := Clocks.bg.sched, evt := Clocks.bg.evt, evtPins := Clocks.bg.evtPins, real := 204800, readData := Clocks.bg.readData, out := Clocks.bg.out, free := Clocks.bg.free : State }.calBgOn (0 : Fin 4) = true ∧
    ({ pending := Clocks.bg.pending, slices := Clocks.bg.slices, queues := Clocks.bg.queues, qmg := Clocks.bg.qmg, tbm := Clocks.bg.tbm, trk := Clocks.bg.trk, pwr := Clocks.bg.pwr, mod := Clocks.bg.mod, fea := Clocks.bg.fea, fls := Clocks.bg.fls, calStore := Clocks.bg.calStore, mailbox := Clocks.bg.mailbox, errm := Clocks.bg.errm, tap := Clocks.bg.tap, bsr := Clocks.bg.bsr, sched := Clocks.bg.sched, evt := Clocks.bg.evt, evtPins := Clocks.bg.evtPins, real := 204800, readData := Clocks.bg.readData, out := Clocks.bg.out, free := Clocks.bg.free : State }.sl (0 : Fin 4)).afe.bgRun = false ∧
    ({ pending := Clocks.bg.pending, slices := Clocks.bg.slices, queues := Clocks.bg.queues, qmg := Clocks.bg.qmg, tbm := Clocks.bg.tbm, trk := Clocks.bg.trk, pwr := Clocks.bg.pwr, mod := Clocks.bg.mod, fea := Clocks.bg.fea, fls := Clocks.bg.fls, calStore := Clocks.bg.calStore, mailbox := Clocks.bg.mailbox, errm := Clocks.bg.errm, tap := Clocks.bg.tap, bsr := Clocks.bg.bsr, sched := Clocks.bg.sched, evt := Clocks.bg.evt, evtPins := Clocks.bg.evtPins, real := 204800, readData := Clocks.bg.readData, out := Clocks.bg.out, free := Clocks.bg.free : State }.sl (0 : Fin 4)).tx.state = TxState.idle ∧
    ({ pending := Clocks.bg.pending, slices := Clocks.bg.slices, queues := Clocks.bg.queues, qmg := Clocks.bg.qmg, tbm := Clocks.bg.tbm, trk := Clocks.bg.trk, pwr := Clocks.bg.pwr, mod := Clocks.bg.mod, fea := Clocks.bg.fea, fls := Clocks.bg.fls, calStore := Clocks.bg.calStore, mailbox := Clocks.bg.mailbox, errm := Clocks.bg.errm, tap := Clocks.bg.tap, bsr := Clocks.bg.bsr, sched := Clocks.bg.sched, evt := Clocks.bg.evt, evtPins := Clocks.bg.evtPins, real := 204800, readData := Clocks.bg.readData, out := Clocks.bg.out, free := Clocks.bg.free : State }.sl (0 : Fin 4)).tx.cmd = none) ∧
    (({ pending := Clocks.bg.pending, slices := Clocks.bg.slices, queues := Clocks.bg.queues, qmg := Clocks.bg.qmg, tbm := Clocks.bg.tbm, trk := Clocks.bg.trk, pwr := Clocks.bg.pwr, mod := Clocks.bg.mod, fea := Clocks.bg.fea, fls := Clocks.bg.fls, calStore := Clocks.bg.calStore, mailbox := Clocks.bg.mailbox, errm := Clocks.bg.errm, tap := Clocks.bg.tap, bsr := Clocks.bg.bsr, sched := Clocks.bg.sched, evt := Clocks.bg.evt, evtPins := Clocks.bg.evtPins, real := 204800, readData := Clocks.bg.readData, out := Clocks.bg.out, free := Clocks.bg.free : State }.sl (0 : Fin 4)).tx.lastRampDown + 204800 ≤ { pending := Clocks.bg.pending, slices := Clocks.bg.slices, queues := Clocks.bg.queues, qmg := Clocks.bg.qmg, tbm := Clocks.bg.tbm, trk := Clocks.bg.trk, pwr := Clocks.bg.pwr, mod := Clocks.bg.mod, fea := Clocks.bg.fea, fls := Clocks.bg.fls, calStore := Clocks.bg.calStore, mailbox := Clocks.bg.mailbox, errm := Clocks.bg.errm, tap := Clocks.bg.tap, bsr := Clocks.bg.bsr, sched := Clocks.bg.sched, evt := Clocks.bg.evt, evtPins := Clocks.bg.evtPins, real := 204800, readData := Clocks.bg.readData, out := Clocks.bg.out, free := Clocks.bg.free : State }.real ∧
    Clocks.u55.calBgOn (0 : Fin 4) = true ∧ (Clocks.u55.sl (0 : Fin 4)).afe.bgRun = true ∧
    FrontEnd.u62.calBgOn (0 : Fin 4) = true ∧ (FrontEnd.u62.sl (0 : Fin 4)).inForce = some Base.f1 ∧
    (FrontEnd.u62.sl (0 : Fin 4)).clk.coast = false ∧
    (FrontEnd.u62.sl (0 : Fin 4)).dcQuiet Base.f1 8 FrontEnd.u62.tb = false ∧
    Chains.u76.calBgOn (0 : Fin 4) = true ∧ (Chains.u76.sl (0 : Fin 4)).inForce = some Base.f1 ∧
    (Chains.u76.sl (0 : Fin 4)).clk.coast = false ∧
    (Chains.u76.sl (0 : Fin 4)).readerOf 8 = some (InstRef.inst (1 : Fin 48)) ∧ Chains.rise.values ≠ [] ∧
    (Chains.u76.sl (0 : Fin 4)).runDue (InstRef.inst (1 : Fin 48)) Chains.rise = true ∧
    ((Chains.u76.takeRun (0 : Fin 4) (InstRef.inst (1 : Fin 48)) Chains.rise).sl (0 : Fin 4)).dcQuiet Base.f1 8 Chains.u76.tb = false) :=
  ⟨by decide +kernel, by decide +kernel⟩

/-- O33: states and operands that meet the hypotheses of each clause. -/
theorem witness_SampleAdvancesTuning : (Chains.smp.sl (0 : Fin 4)).inForce = some Base.f1 ∧
    ((Chains.smp.sl (0 : Fin 4)).tunAt 0).resetAt = [] ∧ ((Chains.smp.sl (0 : Fin 4)).tunAt 0).tails = [] ∧
    (Chains.smp.sl (0 : Fin 4)).tunRuns 0 = true ∧ (Chains.smp.sl (0 : Fin 4)).clk.coast = false ∧
    ((Chains.smp.sl (0 : Fin 4)).tunAt 0).boundaryDue = false ∧
    ((Chains.smp.sl (0 : Fin 4)).tunAt 0).chain.n ≤ ((Chains.smp.sl (0 : Fin 4)).tunAt 0).chain.nextOut ((Chains.smp.sl (0 : Fin 4)).confOf Base.f1 0) ∧
    (Chains.codes Chains.smp).length = ((Chains.smp.sl (0 : Fin 4)).tunAt 0).chain.nextOut ((Chains.smp.sl (0 : Fin 4)).confOf Base.f1 0) + 1 - ((Chains.smp.sl (0 : Fin 4)).tunAt 0).chain.n ∧
    (∀ (v : Int), v ∈ Chains.codes Chains.smp → (-8192 : Int) ≤ v ∧ v ≤ (8191 : Int)) ∧
    (↑(airTime Chains.smp.tbm.warps ((Chains.smp.sl (0 : Fin 4)).tunAt 0).chain.at_ (((Chains.smp.sl (0 : Fin 4)).tunAt 0).chain.nextOut ((Chains.smp.sl (0 : Fin 4)).confOf Base.f1 0))) : Int) ≤ (Chains.smp.sl (0 : Fin 4)).airNow Chains.smp.tb :=
  by decide +kernel

/-- O34: states and operands that meet the hypotheses of each clause. -/
theorem witness_NcoAndCoefficients : ((Base.run1.sl (0 : Fin 4)).ctl.state.served = true ∧
    (Base.run1.sl (0 : Fin 4)).tunExists 0 = true ∧ (Base.run1.sl (0 : Fin 4)).tunExists 5 = false ∧
    (Chains.nrs.sl (0 : Fin 4)).ctl.state.served = true ∧ (Chains.nrs.sl (0 : Fin 4)).inForce = some Base.f1 ∧
    ((Chains.nrs.sl (0 : Fin 4)).tunAt 0).ncoPend = some 3 ∧
    ((Chains.nrs.sl (0 : Fin 4)).tunAt 0).lastTs = some 4 ∧ 3 ≤ 4 ∧
    (Chains.nrs.sl (0 : Fin 4)).tunRuns 0 = true ∧
    (Chains.nrs.sl (0 : Fin 4)).readerOf 0 = some (InstRef.inst (0 : Fin 48)) ∧
    ((Chains.nrs.sl (0 : Fin 4)).instAt 0).state = InstState.sync ∧
    (Chains.nrn.sl (0 : Fin 4)).ctl.state.served = true ∧
    (Chains.nrn.sl (0 : Fin 4)).inForce = some Chains.fNoDem ∧
    ((Chains.nrn.sl (0 : Fin 4)).tunAt 0).ncoPend = some 3 ∧
    ((Chains.nrn.sl (0 : Fin 4)).tunAt 0).lastTs = some 4) ∧ ((Chains.nrn.sl (0 : Fin 4)).tunRuns 0 = true ∧
    (Chains.nrn.sl (0 : Fin 4)).readerOf 0 = none ∧ (Base.run1.sl (0 : Fin 4)).inForce = some Base.f1 ∧
    (5 < coefWords (tnTaps (Base.f1.tn 0)) ∧ ((Base.run1.sl (0 : Fin 4)).tunAt 0).xfade = none ∧
    b2n ((Base.run1.sl (0 : Fin 4)).tunAt 0).bank ≠ 1) ∧ (¬(16 < coefWords (tnTaps (Base.f1.tn 0)) ∧
    ((Base.run1.sl (0 : Fin 4)).tunAt 0).xfade = none ∧ b2n ((Base.run1.sl (0 : Fin 4)).tunAt 0).bank ≠ 1))) :=
  ⟨by decide +kernel, by decide +kernel⟩

/-- O35: states and operands that meet the hypotheses of each clause. -/
theorem witness_BankSwaps : ((Base.run1.sl (0 : Fin 4)).tunExists 0 = true ∧
    ((Base.run1.sl (0 : Fin 4)).tunAt 0).xfade = none ∧ ((Base.run1.sl (0 : Fin 4)).tunAt 0).bankPend = none ∧
    (Chains.bp.sl (0 : Fin 4)).tunExists 0 = true ∧ ((Chains.bp.sl (0 : Fin 4)).tunAt 0).xfade = none ∧
    ((Chains.bp.sl (0 : Fin 4)).tunAt 0).bankPend ≠ none ∧ (Chains.xf.sl (0 : Fin 4)).tunExists 0 = true ∧
    ((Chains.xf.sl (0 : Fin 4)).tunAt 0).xfade ≠ none ∧ ((Chains.xf.sl (0 : Fin 4)).tunAt 0).heldReq = none ∧
    (Chains.u63.sl (0 : Fin 4)).inForce = some Chains.fNoX ∧
    ((Chains.u63.sl (0 : Fin 4)).tunAt 0).bankPend = some (2, true) ∧
    ((Chains.u63.sl (0 : Fin 4)).tunAt 0).lastTs = some 4 ∧ 2 ≤ 4 ∧
    ((Chains.u63.sl (0 : Fin 4)).tunAt 0).xfade = none ∧ (Chains.u63.sl (0 : Fin 4)).tunRuns 0 = true) ∧
    (true ≠ ((Chains.u63.sl (0 : Fin 4)).tunAt 0).bank ∧ tnXfade (Chains.fNoX.tn 0) = 0 ∧
    (Chains.u64.sl (0 : Fin 4)).inForce = some Base.f1 ∧
    ((Chains.u64.sl (0 : Fin 4)).tunAt 0).bankPend = some (2, true) ∧
    ((Chains.u64.sl (0 : Fin 4)).tunAt 0).lastTs = some 4 ∧ ((Chains.u64.sl (0 : Fin 4)).tunAt 0).xfade = none ∧
    (Chains.u64.sl (0 : Fin 4)).tunRuns 0 = true ∧ true = ((Chains.u64.sl (0 : Fin 4)).tunAt 0).bank ∧
    (Chains.xf.sl (0 : Fin 4)).inForce = some Base.f1 ∧
    ((Chains.xf.sl (0 : Fin 4)).tunAt 0).xfade = some { made := 3, len := 3 : Xfade } ∧
    { made := 3, len := 3 : Xfade }.len ≤ { made := 3, len := 3 : Xfade }.made) :=
  ⟨by decide +kernel, by decide +kernel⟩

/-- O36: states and operands that meet the hypotheses of each clause. -/
theorem witness_InstanceStates : ((Chains.u65.sl (0 : Fin 4)).inForce = some Base.f1 ∧
    (Chains.u65.sl (0 : Fin 4)).refLive (InstRef.inst (0 : Fin 48)) = true ∧
    (Chains.u65.sl (0 : Fin 4)).clk.coast = false ∧
    ((Chains.u65.sl (0 : Fin 4)).demod (InstRef.inst (0 : Fin 48))).state = InstState.search ∧
    dmProfile ((Chains.u65.sl (0 : Fin 4)).refRec (InstRef.inst (0 : Fin 48))) ≠ 8 ∧
    0 < ((Chains.u65.sl (0 : Fin 4)).demod (InstRef.inst (0 : Fin 48))).clean ∧
    foundOk ((Chains.u65.sl (0 : Fin 4)).refRec (InstRef.inst (0 : Fin 48))) { offset := (0 : Int), strength := (80 : Int), marks := [], robust := 0, occ := 0 : Found } = true ∧
    (∀ (m : Nat), m ∈ { offset := (0 : Int), strength := (80 : Int), marks := [], robust := 0, occ := 0 : Found }.marks → m ≤ ((Chains.u65.sl (0 : Fin 4)).tunAt ((Chains.u65.sl (0 : Fin 4)).refTun (InstRef.inst (0 : Fin 48)))).newest ∧
    ((Chains.u65.sl (0 : Fin 4)).demod (InstRef.inst (0 : Fin 48))).erasedIn ((Chains.u65.sl (0 : Fin 4)).confOf Base.f1 ((Chains.u65.sl (0 : Fin 4)).refTun (InstRef.inst (0 : Fin 48)))).period m (m + ((Chains.u65.sl (0 : Fin 4)).confOf Base.f1 ((Chains.u65.sl (0 : Fin 4)).refTun (InstRef.inst (0 : Fin 48)))).period) = 0) ∧
    dmProfile ((Chains.u65.sl (0 : Fin 4)).refRec (InstRef.inst (0 : Fin 48))) ≠ 5 ∧
    dmProfile ((Chains.u65.sl (0 : Fin 4)).refRec (InstRef.inst (0 : Fin 48))) ≠ 6 ∧
    (Chains.u66.sl (0 : Fin 4)).inForce = some (Chains.fP 5) ∧
    (Chains.u66.sl (0 : Fin 4)).refLive (InstRef.inst (0 : Fin 48)) = true ∧
    (Chains.u66.sl (0 : Fin 4)).clk.coast = false ∧
    ((Chains.u66.sl (0 : Fin 4)).demod (InstRef.inst (0 : Fin 48))).state = InstState.search ∧
    dmProfile ((Chains.u66.sl (0 : Fin 4)).refRec (InstRef.inst (0 : Fin 48))) ≠ 8) ∧
    (0 < ((Chains.u66.sl (0 : Fin 4)).demod (InstRef.inst (0 : Fin 48))).clean ∧
    foundOk ((Chains.u66.sl (0 : Fin 4)).refRec (InstRef.inst (0 : Fin 48))) { offset := (0 : Int), strength := (0 : Int), marks := [1000000, 410600000], robust := 2, occ := 0 : Found } = true ∧
    (∀ (m : Nat), m ∈ { offset := (0 : Int), strength := (0 : Int), marks := [1000000, 410600000], robust := 2, occ := 0 : Found }.marks → m ≤ ((Chains.u66.sl (0 : Fin 4)).tunAt ((Chains.u66.sl (0 : Fin 4)).refTun (InstRef.inst (0 : Fin 48)))).newest ∧
    ((Chains.u66.sl (0 : Fin 4)).demod (InstRef.inst (0 : Fin 48))).erasedIn ((Chains.u66.sl (0 : Fin 4)).confOf (Chains.fP 5) ((Chains.u66.sl (0 : Fin 4)).refTun (InstRef.inst (0 : Fin 48)))).period m (m + ((Chains.u66.sl (0 : Fin 4)).confOf (Chains.fP 5) ((Chains.u66.sl (0 : Fin 4)).refTun (InstRef.inst (0 : Fin 48)))).period) = 0) ∧
    (dmProfile ((Chains.u66.sl (0 : Fin 4)).refRec (InstRef.inst (0 : Fin 48))) = 5 ∨ dmProfile ((Chains.u66.sl (0 : Fin 4)).refRec (InstRef.inst (0 : Fin 48))) = 6) ∧
    (Chains.sync.sl (0 : Fin 4)).inForce = some Base.f1 ∧
    (Chains.sync.sl (0 : Fin 4)).refLive (InstRef.inst (0 : Fin 48)) = true ∧
    1 ≤ dmProfile ((Chains.sync.sl (0 : Fin 4)).refRec (InstRef.inst (0 : Fin 48))) ∧
    dmProfile ((Chains.sync.sl (0 : Fin 4)).refRec (InstRef.inst (0 : Fin 48))) ≤ 7 ∧
    ((Chains.sync.sl (0 : Fin 4)).demod (InstRef.inst (0 : Fin 48))).state = InstState.sync ∧
    ((Chains.sync.sl (0 : Fin 4)).demod (InstRef.inst (0 : Fin 48))).since + 1024000000 * [1, 10, 2, 1, 5, 2, 180].getD (dmProfile ((Chains.sync.sl (0 : Fin 4)).refRec (InstRef.inst (0 : Fin 48))) - 1) 0 ≤ Chains.sync.real ∧
    (Chains.lostS.sl (0 : Fin 4)).inForce = some Base.f1 ∧
    (Chains.lostS.sl (0 : Fin 4)).refLive (InstRef.inst (0 : Fin 48)) = true ∧
    InstRef.inst (0 : Fin 48) = InstRef.inst (0 : Fin 48) ∧
    dmProfile ((Chains.lostS.sl (0 : Fin 4)).refRec (InstRef.inst (0 : Fin 48))) ≠ 8 ∧
    ((Chains.lostS.sl (0 : Fin 4)).demod (InstRef.inst (0 : Fin 48))).state = InstState.track) ∧
    ((∀ (k : Fin 256), k ∈ (Chains.lostS.sl (0 : Fin 4)).fedBy 0 → ((Chains.lostS.sl (0 : Fin 4)).ctxAt (↑k : Nat)).alert.active = false) ∧
    ((Chains.lostS.sl (0 : Fin 4)).demod (InstRef.inst (0 : Fin 48))).lost ((Chains.lostS.sl (0 : Fin 4)).refRec (InstRef.inst (0 : Fin 48))) Chains.lostS.real = true ∧
    beyond ((Chains.lostS.sl (0 : Fin 4)).refRec (InstRef.inst (0 : Fin 48))) ((0 : Int) - ((Chains.lostS.sl (0 : Fin 4)).tunAt ((Chains.lostS.sl (0 : Fin 4)).refTun (InstRef.inst (0 : Fin 48)))).setMhz) (0 : Int) = true ∧
    (Chains.trk.sl (0 : Fin 4)).inForce = some Base.f1 ∧
    (Chains.trk.sl (0 : Fin 4)).refLive (InstRef.inst (0 : Fin 48)) = true ∧
    ((Chains.trk.sl (0 : Fin 4)).demod (InstRef.inst (0 : Fin 48))).state = InstState.track ∧
    dmProfile ((Chains.trk.sl (0 : Fin 4)).refRec (InstRef.inst (0 : Fin 48))) ≠ 8 ∧
    ((Chains.trk.sl (0 : Fin 4)).demod (InstRef.inst (0 : Fin 48))).lost ((Chains.trk.sl (0 : Fin 4)).refRec (InstRef.inst (0 : Fin 48))) Chains.trk.real = false ∧
    ((Chains.sync.sl (0 : Fin 4)).demod (InstRef.inst (0 : Fin 48))).declared = true ∧
    (Chains.u67.sl (0 : Fin 4)).inForce = some Base.f1 ∧
    (Chains.u67.sl (0 : Fin 4)).refLive (InstRef.inst (0 : Fin 48)) = true ∧
    (((Chains.u67.sl (0 : Fin 4)).demod (InstRef.inst (0 : Fin 48))).declared = false ∨ ((Chains.u67.sl (0 : Fin 4)).demod (InstRef.inst (0 : Fin 48))).state.busy = false) ∧
    (((Chains.sync.sl (0 : Fin 4)).demod (InstRef.inst (0 : Fin 48))).state = InstState.sync ∨ ((Chains.sync.sl (0 : Fin 4)).demod (InstRef.inst (0 : Fin 48))).state = InstState.track) ∧
    ((Chains.sync.sl (0 : Fin 4)).demod (InstRef.inst (0 : Fin 48))).measureFrom + 102400000 ≤ Chains.sync.real ∧
    ((Chains.sync.sl (0 : Fin 4)).demod (InstRef.inst (0 : Fin 48))).clean = 0) ∧
    ((Chains.u68.sl (0 : Fin 4)).inForce = some Base.f1 ∧
    (Chains.u68.sl (0 : Fin 4)).refLive (InstRef.inst (0 : Fin 48)) = true ∧
    (((Chains.u68.sl (0 : Fin 4)).demod (InstRef.inst (0 : Fin 48))).state = InstState.sync ∨ ((Chains.u68.sl (0 : Fin 4)).demod (InstRef.inst (0 : Fin 48))).state = InstState.track) ∧
    ((Chains.u68.sl (0 : Fin 4)).demod (InstRef.inst (0 : Fin 48))).measureFrom + 102400000 ≤ Chains.u68.real ∧
    0 < ((Chains.u68.sl (0 : Fin 4)).demod (InstRef.inst (0 : Fin 48))).clean ∧
    beyond ((Chains.u68.sl (0 : Fin 4)).refRec (InstRef.inst (0 : Fin 48))) (Chains.meas.freq - ((Chains.u68.sl (0 : Fin 4)).tunAt ((Chains.u68.sl (0 : Fin 4)).refTun (InstRef.inst (0 : Fin 48)))).setMhz) Chains.meas.clockErr = false ∧
    beyond ((Chains.u68.sl (0 : Fin 4)).refRec (InstRef.inst (0 : Fin 48))) ({ freq := (0 : Int), clockErr := Chains.meas.clockErr, level := Chains.meas.level, quality := Chains.meas.quality, spread := Chains.meas.spread, strength := Chains.meas.strength, loop := Chains.meas.loop, pilot := Chains.meas.pilot, pstat0 := Chains.meas.pstat0, pstat1 := Chains.meas.pstat1, carried := Chains.meas.carried : Measure }.freq - ((Chains.u68.sl (0 : Fin 4)).tunAt ((Chains.u68.sl (0 : Fin 4)).refTun (InstRef.inst (0 : Fin 48)))).setMhz) { freq := (0 : Int), clockErr := Chains.meas.clockErr, level := Chains.meas.level, quality := Chains.meas.quality, spread := Chains.meas.spread, strength := Chains.meas.strength, loop := Chains.meas.loop, pilot := Chains.meas.pilot, pstat0 := Chains.meas.pstat0, pstat1 := Chains.meas.pstat1, carried := Chains.meas.carried : Measure }.clockErr = true ∧
    (Chains.dabS.sl (0 : Fin 4)).inForce = some (Chains.fP 4) ∧
    (Chains.dabS.sl (0 : Fin 4)).refLive (InstRef.inst (0 : Fin 48)) = true ∧
    dmProfile ((Chains.dabS.sl (0 : Fin 4)).refRec (InstRef.inst (0 : Fin 48))) = 4 ∧
    ((Chains.dabS.sl (0 : Fin 4)).demod (InstRef.inst (0 : Fin 48))).state = InstState.sync ∧
    (50 / 65536 : Nat) ≤ ((Chains.dabS.sl (0 : Fin 4)).tunAt ((Chains.dabS.sl (0 : Fin 4)).refTun (InstRef.inst (0 : Fin 48)))).newest ∧
    (Chains.dabN.sl (0 : Fin 4)).inForce = some Chains.fDabN ∧
    (Chains.dabN.sl (0 : Fin 4)).refLive (InstRef.inst (0 : Fin 48)) = true ∧
    dmProfile ((Chains.dabN.sl (0 : Fin 4)).refRec (InstRef.inst (0 : Fin 48))) = 4) ∧
    (((Chains.dabN.sl (0 : Fin 4)).demod (InstRef.inst (0 : Fin 48))).state = InstState.sync ∧
    (50 / 65536 : Nat) ≤ ((Chains.dabN.sl (0 : Fin 4)).tunAt ((Chains.dabN.sl (0 : Fin 4)).refTun (InstRef.inst (0 : Fin 48)))).newest ∧
    Chains.rd.ident = none ∧ Chains.rd.list = none ∧
    ((Chains.dabN.sl (0 : Fin 4)).afAt 0).state = AfState.primary ∧
    (Chains.dabN.sl (0 : Fin 4)).fedBy 0 = []) :=
  ⟨by decide +kernel, by decide +kernel, by decide +kernel, by decide +kernel, by decide +kernel⟩

/-- O37: states and operands that meet the hypotheses of each clause. -/
theorem witness_BurstAcquisition : ((Chains.noise.sl (0 : Fin 4)).runDue (InstRef.inst (1 : Fin 48)) Chains.rise = true ∧
    (((Chains.noise.takeRun (0 : Fin 4) (InstRef.inst (1 : Fin 48)) Chains.rise).sl (0 : Fin 4)).acqOf (InstRef.inst (1 : Fin 48))).acq = AcqState.idle ∧
    (Chains.noise.sl (0 : Fin 4)).tx.trSw = false ∧
    Chains.rise.stop < (((Chains.noise.takeRun (0 : Fin 4) (InstRef.inst (1 : Fin 48)) Chains.rise).sl (0 : Fin 4)).acqOf (InstRef.inst (1 : Fin 48))).since + 128000000 ∧
    (Chains.u70.sl (0 : Fin 4)).runDue (InstRef.inst (1 : Fin 48)) (Chains.lone (-950 : Int)) = true ∧
    (((Chains.u70.takeRun (0 : Fin 4) (InstRef.inst (1 : Fin 48)) (Chains.lone (-950 : Int))).sl (0 : Fin 4)).acqOf (InstRef.inst (1 : Fin 48))).acq = AcqState.idle ∧
    (Chains.u70.sl (0 : Fin 4)).tx.trSw = false ∧
    (((Chains.u70.takeRun (0 : Fin 4) (InstRef.inst (1 : Fin 48)) (Chains.lone (-950 : Int))).sl (0 : Fin 4)).acqOf (InstRef.inst (1 : Fin 48))).since + 128000000 ≤ (Chains.lone (-950 : Int)).stop ∧
    (((Chains.u70.takeRun (0 : Fin 4) (InstRef.inst (1 : Fin 48)) (Chains.lone (-950 : Int))).sl (0 : Fin 4)).acqOf (InstRef.inst (1 : Fin 48))).lowest = some (-950 : Int) ∧
    16 ≤ (((Chains.noise.takeRun (0 : Fin 4) (InstRef.inst (1 : Fin 48)) Chains.rise).sl (0 : Fin 4)).acqOf (InstRef.inst (1 : Fin 48))).riseRun ∧
    (((Chains.u70.takeRun (0 : Fin 4) (InstRef.inst (1 : Fin 48)) (Chains.lone (-950 : Int))).sl (0 : Fin 4)).acqOf (InstRef.inst (1 : Fin 48))).riseRun < 16 ∧
    (Chains.u72.sl (0 : Fin 4)).runDue (InstRef.inst (1 : Fin 48)) (Chains.lone (-950 : Int)) = true ∧
    (((Chains.u72.takeRun (0 : Fin 4) (InstRef.inst (1 : Fin 48)) (Chains.lone (-950 : Int))).sl (0 : Fin 4)).acqOf (InstRef.inst (1 : Fin 48))).qualifies ((Chains.u72.sl (0 : Fin 4)).refRec (InstRef.inst (1 : Fin 48))) { syncTb := Chains.sw.syncTb, corr := Chains.sw.corr, freqErr := (10000000 : Int) : SyncWord } = false ∧
    (((Chains.u72.takeRun (0 : Fin 4) (InstRef.inst (1 : Fin 48)) (Chains.lone (-950 : Int))).sl (0 : Fin 4)).acqOf (InstRef.inst (1 : Fin 48))).qualifies ((Chains.u72.sl (0 : Fin 4)).refRec (InstRef.inst (1 : Fin 48))) Chains.sw = true ∧
    (((Chains.u72.takeRun (0 : Fin 4) (InstRef.inst (1 : Fin 48)) (Chains.lone (-950 : Int))).sl (0 : Fin 4)).acqOf (InstRef.inst (1 : Fin 48))).acq = AcqState.triggered) ∧
    ((((Chains.u72.takeRun (0 : Fin 4) (InstRef.inst (1 : Fin 48)) (Chains.lone (-950 : Int))).sl (0 : Fin 4)).acqOf (InstRef.inst (1 : Fin 48))).inWindow ((Chains.u72.sl (0 : Fin 4)).refRec (InstRef.inst (1 : Fin 48))) Chains.sw = true ∧
    ((Chains.u72.sl (0 : Fin 4)).demod (InstRef.inst (1 : Fin 48))).state ≠ InstState.search ∧
    (Chains.u73.sl (0 : Fin 4)).runDue (InstRef.inst (1 : Fin 48)) (Chains.lone (-950 : Int)) = true ∧
    (((Chains.u73.takeRun (0 : Fin 4) (InstRef.inst (1 : Fin 48)) (Chains.lone (-950 : Int))).sl (0 : Fin 4)).acqOf (InstRef.inst (1 : Fin 48))).qualifies ((Chains.u73.sl (0 : Fin 4)).refRec (InstRef.inst (1 : Fin 48))) Chains.sw = true ∧
    (((Chains.u73.takeRun (0 : Fin 4) (InstRef.inst (1 : Fin 48)) (Chains.lone (-950 : Int))).sl (0 : Fin 4)).acqOf (InstRef.inst (1 : Fin 48))).acq = AcqState.triggered ∧
    (((Chains.u73.takeRun (0 : Fin 4) (InstRef.inst (1 : Fin 48)) (Chains.lone (-950 : Int))).sl (0 : Fin 4)).acqOf (InstRef.inst (1 : Fin 48))).inWindow ((Chains.u73.sl (0 : Fin 4)).refRec (InstRef.inst (1 : Fin 48))) Chains.sw = true ∧
    ((Chains.u73.sl (0 : Fin 4)).demod (InstRef.inst (1 : Fin 48))).state = InstState.search ∧
    (Chains.u74.sl (0 : Fin 4)).runDue (InstRef.inst (1 : Fin 48)) (Chains.lone (-950 : Int)) = true ∧
    (((Chains.u74.takeRun (0 : Fin 4) (InstRef.inst (1 : Fin 48)) (Chains.lone (-950 : Int))).sl (0 : Fin 4)).acqOf (InstRef.inst (1 : Fin 48))).qualifies ((Chains.u74.sl (0 : Fin 4)).refRec (InstRef.inst (1 : Fin 48))) Chains.sw = true ∧
    ((((Chains.u74.takeRun (0 : Fin 4) (InstRef.inst (1 : Fin 48)) (Chains.lone (-950 : Int))).sl (0 : Fin 4)).acqOf (InstRef.inst (1 : Fin 48))).acq = AcqState.header ∨ (((Chains.u74.takeRun (0 : Fin 4) (InstRef.inst (1 : Fin 48)) (Chains.lone (-950 : Int))).sl (0 : Fin 4)).acqOf (InstRef.inst (1 : Fin 48))).acq = AcqState.payload) ∧
    (((Chains.u74.takeRun (0 : Fin 4) (InstRef.inst (1 : Fin 48)) (Chains.lone (-950 : Int))).sl (0 : Fin 4)).acqOf (InstRef.inst (1 : Fin 48))).captures ((Chains.u74.sl (0 : Fin 4)).refRec (InstRef.inst (1 : Fin 48))) Chains.sw = false ∧
    ((Chains.cap AcqState.header).sl (0 : Fin 4)).runDue (InstRef.inst (1 : Fin 48)) (Chains.lone (-950 : Int)) = true ∧
    ((((Chains.cap AcqState.header).takeRun (0 : Fin 4) (InstRef.inst (1 : Fin 48)) (Chains.lone (-950 : Int))).sl (0 : Fin 4)).acqOf (InstRef.inst (1 : Fin 48))).burst = some Chains.bst ∧
    ((((Chains.cap AcqState.header).takeRun (0 : Fin 4) (InstRef.inst (1 : Fin 48)) (Chains.lone (-950 : Int))).sl (0 : Fin 4)).acqOf (InstRef.inst (1 : Fin 48))).qualifies (((Chains.cap AcqState.header).sl (0 : Fin 4)).refRec (InstRef.inst (1 : Fin 48))) Chains.sw2 = true ∧
    ((((Chains.cap AcqState.header).takeRun (0 : Fin 4) (InstRef.inst (1 : Fin 48)) (Chains.lone (-950 : Int))).sl (0 : Fin 4)).acqOf (InstRef.inst (1 : Fin 48))).captures (((Chains.cap AcqState.header).sl (0 : Fin 4)).refRec (InstRef.inst (1 : Fin 48))) Chains.sw2 = true) ∧
    (Chains.bst.allDemod = false ∧
    ((((Chains.cap AcqState.header).takeRun (0 : Fin 4) (InstRef.inst (1 : Fin 48)) (Chains.lone (-950 : Int))).sl (0 : Fin 4)).acqOf (InstRef.inst (1 : Fin 48))).acq = AcqState.header ∧
    ((Chains.cap AcqState.payload).sl (0 : Fin 4)).runDue (InstRef.inst (1 : Fin 48)) (Chains.lone (-950 : Int)) = true ∧
    ((((Chains.cap AcqState.payload).takeRun (0 : Fin 4) (InstRef.inst (1 : Fin 48)) (Chains.lone (-950 : Int))).sl (0 : Fin 4)).acqOf (InstRef.inst (1 : Fin 48))).burst = some Chains.bst ∧
    ((((Chains.cap AcqState.payload).takeRun (0 : Fin 4) (InstRef.inst (1 : Fin 48)) (Chains.lone (-950 : Int))).sl (0 : Fin 4)).acqOf (InstRef.inst (1 : Fin 48))).qualifies (((Chains.cap AcqState.payload).sl (0 : Fin 4)).refRec (InstRef.inst (1 : Fin 48))) Chains.sw2 = true ∧
    ((((Chains.cap AcqState.payload).takeRun (0 : Fin 4) (InstRef.inst (1 : Fin 48)) (Chains.lone (-950 : Int))).sl (0 : Fin 4)).acqOf (InstRef.inst (1 : Fin 48))).captures (((Chains.cap AcqState.payload).sl (0 : Fin 4)).refRec (InstRef.inst (1 : Fin 48))) Chains.sw2 = true ∧
    ((((Chains.cap AcqState.payload).takeRun (0 : Fin 4) (InstRef.inst (1 : Fin 48)) (Chains.lone (-950 : Int))).sl (0 : Fin 4)).acqOf (InstRef.inst (1 : Fin 48))).acq = AcqState.payload ∧
    (Chains.u72.sl (0 : Fin 4)).runDue (InstRef.inst (1 : Fin 48)) { stop := 5000000, values := [(-950 : Int)] : RssiRun } = true ∧
    (((Chains.u72.takeRun (0 : Fin 4) (InstRef.inst (1 : Fin 48)) { stop := 5000000, values := [(-950 : Int)] : RssiRun }).sl (0 : Fin 4)).acqOf (InstRef.inst (1 : Fin 48))).acq = AcqState.triggered ∧
    { stop := 5000000, values := [(-950 : Int)] : RssiRun }.stop < (((Chains.u72.takeRun (0 : Fin 4) (InstRef.inst (1 : Fin 48)) { stop := 5000000, values := [(-950 : Int)] : RssiRun }).sl (0 : Fin 4)).acqOf (InstRef.inst (1 : Fin 48))).trigAt + symTicks ((Chains.u72.sl (0 : Fin 4)).refRec (InstRef.inst (1 : Fin 48))) 64 ∧
    (((Chains.u72.takeRun (0 : Fin 4) (InstRef.inst (1 : Fin 48)) (Chains.lone (-950 : Int))).sl (0 : Fin 4)).acqOf (InstRef.inst (1 : Fin 48))).trigAt + symTicks ((Chains.u72.sl (0 : Fin 4)).refRec (InstRef.inst (1 : Fin 48))) 64 ≤ (Chains.lone (-950 : Int)).stop ∧
    (¬(match (((Chains.u72.takeRun (0 : Fin 4) (InstRef.inst (1 : Fin 48)) (Chains.lone (-950 : Int))).sl (0 : Fin 4)).acqOf (InstRef.inst (1 : Fin 48))).riseAt ((Chains.u72.sl (0 : Fin 4)).refRec (InstRef.inst (1 : Fin 48))), (((Chains.u72.takeRun (0 : Fin 4) (InstRef.inst (1 : Fin 48)) (Chains.lone (-950 : Int))).sl (0 : Fin 4)).acqOf (InstRef.inst (1 : Fin 48))).lastValue with | some n, some v => Decidable.decide (n ≤ v) | x, x_1 => false) = true) ∧
    (Chains.u72.sl (0 : Fin 4)).runDue (InstRef.inst (1 : Fin 48)) (Chains.lone (0 : Int)) = true ∧
    (((Chains.u72.takeRun (0 : Fin 4) (InstRef.inst (1 : Fin 48)) (Chains.lone (0 : Int))).sl (0 : Fin 4)).acqOf (InstRef.inst (1 : Fin 48))).acq = AcqState.triggered ∧
    (((Chains.u72.takeRun (0 : Fin 4) (InstRef.inst (1 : Fin 48)) (Chains.lone (0 : Int))).sl (0 : Fin 4)).acqOf (InstRef.inst (1 : Fin 48))).trigAt + symTicks ((Chains.u72.sl (0 : Fin 4)).refRec (InstRef.inst (1 : Fin 48))) 64 ≤ (Chains.lone (0 : Int)).stop) ∧
    ((match (((Chains.u72.takeRun (0 : Fin 4) (InstRef.inst (1 : Fin 48)) (Chains.lone (0 : Int))).sl (0 : Fin 4)).acqOf (InstRef.inst (1 : Fin 48))).riseAt ((Chains.u72.sl (0 : Fin 4)).refRec (InstRef.inst (1 : Fin 48))), (((Chains.u72.takeRun (0 : Fin 4) (InstRef.inst (1 : Fin 48)) (Chains.lone (0 : Int))).sl (0 : Fin 4)).acqOf (InstRef.inst (1 : Fin 48))).lastValue with | some n, some v => Decidable.decide (n ≤ v) | x, x_1 => false) = true ∧
    (Chains.u75.sl (0 : Fin 4)).inForce = some Base.f1 ∧
    (Chains.u75.sl (0 : Fin 4)).readerOf (↑Chains.segq.tuning : Nat) = some (InstRef.inst (1 : Fin 48)) ∧
    (Chains.u75.sl (0 : Fin 4)).refLive (InstRef.inst (1 : Fin 48)) = true ∧ Chains.segq.soft ≠ [] ∧
    kindOf (dmProfile ((Chains.u75.sl (0 : Fin 4)).refRec (InstRef.inst (1 : Fin 48)))) Chains.segq.kind = true ∧
    (Chains.u75.sl (0 : Fin 4)).trl.wait = [] ∧ (Chains.u75.sl (0 : Fin 4)).trl.run = Vector.replicate 2 none ∧
    (dmProfile ((Chains.u75.sl (0 : Fin 4)).refRec (InstRef.inst (1 : Fin 48))) = 8 → (if dmProfile ((Chains.u75.sl (0 : Fin 4)).refRec (InstRef.inst (1 : Fin 48))) = 8 then (Chains.u75.sl (0 : Fin 4)).segBurst (InstRef.inst (1 : Fin 48)) Chains.segq Chains.u75.tb else none) ≠ none) ∧
    (dmProfile ((Chains.u75.sl (0 : Fin 4)).refRec (InstRef.inst (1 : Fin 48))) ≠ 8 → ((Chains.u75.sl (0 : Fin 4)).demod (InstRef.inst (1 : Fin 48))).state = InstState.sync ∨ ((Chains.u75.sl (0 : Fin 4)).demod (InstRef.inst (1 : Fin 48))).state = InstState.track) ∧
    ((Chains.run8 (20 : Fin 32) BlockKind.payload (Chains.zeros 2)).sl (0 : Fin 4)).trl.run.get (0 : Fin 2) = some (Chains.wseg (20 : Fin 32) BlockKind.payload (Chains.zeros 2)) ∧
    ((Chains.run8 (20 : Fin 32) BlockKind.payload (Chains.zeros 2)).sl (0 : Fin 4)).readerOf (↑(Chains.wseg (20 : Fin 32) BlockKind.payload (Chains.zeros 2)).tuning : Nat) = none ∧
    ((Chains.run8 (8 : Fin 32) BlockKind.payload (Chains.zeros 1030)).sl (0 : Fin 4)).trl.run.get (0 : Fin 2) = some (Chains.wseg (8 : Fin 32) BlockKind.payload (Chains.zeros 1030)) ∧
    ((Chains.run8 (8 : Fin 32) BlockKind.payload (Chains.zeros 1030)).sl (0 : Fin 4)).readerOf (↑(Chains.wseg (8 : Fin 32) BlockKind.payload (Chains.zeros 1030)).tuning : Nat) = some (InstRef.inst (1 : Fin 48)) ∧
    dmProfile (((Chains.run8 (8 : Fin 32) BlockKind.payload (Chains.zeros 1030)).sl (0 : Fin 4)).refRec (InstRef.inst (1 : Fin 48))) = 8) ∧
    ((runSegment (kindGens (Chains.wseg (8 : Fin 32) BlockKind.payload (Chains.zeros 1030)).kind) (Chains.wseg (8 : Fin 32) BlockKind.payload (Chains.zeros 1030)).metrics (Chains.wseg (8 : Fin 32) BlockKind.payload (Chains.zeros 1030)).soft).snd.snd ≠ [] ∧
    ((Chains.run8 (0 : Fin 32) BlockKind.fic (Chains.zeros 2)).sl (0 : Fin 4)).trl.run.get (0 : Fin 2) = some (Chains.wseg (0 : Fin 32) BlockKind.fic (Chains.zeros 2)) ∧
    ((Chains.run8 (0 : Fin 32) BlockKind.fic (Chains.zeros 2)).sl (0 : Fin 4)).readerOf (↑(Chains.wseg (0 : Fin 32) BlockKind.fic (Chains.zeros 2)).tuning : Nat) = some (InstRef.inst (0 : Fin 48)) ∧
    dmProfile (((Chains.run8 (0 : Fin 32) BlockKind.fic (Chains.zeros 2)).sl (0 : Fin 4)).refRec (InstRef.inst (0 : Fin 48))) ≠ 8 ∧
    ((Chains.run8 (8 : Fin 32) BlockKind.header (Chains.zeros 6) Chains.no64).sl (0 : Fin 4)).trl.run.get (0 : Fin 2) = some (Chains.wseg (8 : Fin 32) BlockKind.header (Chains.zeros 6) Chains.no64) ∧
    ((Chains.run8 (8 : Fin 32) BlockKind.header (Chains.zeros 6) Chains.no64).sl (0 : Fin 4)).readerOf (↑(Chains.wseg (8 : Fin 32) BlockKind.header (Chains.zeros 6) Chains.no64).tuning : Nat) = some (InstRef.inst (1 : Fin 48)) ∧
    InstRef.inst (1 : Fin 48) = InstRef.inst (1 : Fin 48) ∧
    dmProfile (((Chains.run8 (8 : Fin 32) BlockKind.header (Chains.zeros 6) Chains.no64).sl (0 : Fin 4)).refRec (InstRef.inst (1 : Fin 48))) = 8 ∧
    (runSegment (kindGens (Chains.wseg (8 : Fin 32) BlockKind.header (Chains.zeros 6) Chains.no64).kind) (Chains.wseg (8 : Fin 32) BlockKind.header (Chains.zeros 6) Chains.no64).metrics (Chains.wseg (8 : Fin 32) BlockKind.header (Chains.zeros 6) Chains.no64).soft).snd.snd = [] ∧
    (Chains.wseg (8 : Fin 32) BlockKind.header (Chains.zeros 6) Chains.no64).kind = BlockKind.header ∧
    (((Chains.run8 (8 : Fin 32) BlockKind.header (Chains.zeros 6) Chains.no64).sl (0 : Fin 4)).acqOf (InstRef.inst (1 : Fin 48))).seat (Chains.wseg (8 : Fin 32) BlockKind.header (Chains.zeros 6) Chains.no64).burst = (BurstSeat.hand, some Chains.bst) ∧
    ldbHcrcOk (headerOf ((Chains.wseg (8 : Fin 32) BlockKind.header (Chains.zeros 6) Chains.no64).out ++ (runSegment (kindGens (Chains.wseg (8 : Fin 32) BlockKind.header (Chains.zeros 6) Chains.no64).kind) (Chains.wseg (8 : Fin 32) BlockKind.header (Chains.zeros 6) Chains.no64).metrics (Chains.wseg (8 : Fin 32) BlockKind.header (Chains.zeros 6) Chains.no64).soft).fst)) = false ∧
    ldbReport (((Chains.run8 (8 : Fin 32) BlockKind.header (Chains.zeros 6) Chains.no64).sl (0 : Fin 4)).refRec (InstRef.inst (1 : Fin 48))) = false ∧
    (Chains.seg.sl (0 : Fin 4)).trl.run.get (0 : Fin 2) = some (Chains.wseg (8 : Fin 32) BlockKind.header (Chains.zeros 6) Chains.bitsOfHeader) ∧
    (Chains.seg.sl (0 : Fin 4)).readerOf (↑(Chains.wseg (8 : Fin 32) BlockKind.header (Chains.zeros 6) Chains.bitsOfHeader).tuning : Nat) = some (InstRef.inst (1 : Fin 48))) ∧
    (dmProfile ((Chains.seg.sl (0 : Fin 4)).refRec (InstRef.inst (1 : Fin 48))) = 8 ∧
    (runSegment (kindGens (Chains.wseg (8 : Fin 32) BlockKind.header (Chains.zeros 6) Chains.bitsOfHeader).kind) (Chains.wseg (8 : Fin 32) BlockKind.header (Chains.zeros 6) Chains.bitsOfHeader).metrics (Chains.wseg (8 : Fin 32) BlockKind.header (Chains.zeros 6) Chains.bitsOfHeader).soft).snd.snd = [] ∧
    (Chains.wseg (8 : Fin 32) BlockKind.header (Chains.zeros 6) Chains.bitsOfHeader).kind = BlockKind.header ∧
    ((Chains.seg.sl (0 : Fin 4)).acqOf (InstRef.inst (1 : Fin 48))).seat (Chains.wseg (8 : Fin 32) BlockKind.header (Chains.zeros 6) Chains.bitsOfHeader).burst = (BurstSeat.hand, some Chains.bst) ∧
    ldbHcrcOk (headerOf ((Chains.wseg (8 : Fin 32) BlockKind.header (Chains.zeros 6) Chains.bitsOfHeader).out ++ (runSegment (kindGens (Chains.wseg (8 : Fin 32) BlockKind.header (Chains.zeros 6) Chains.bitsOfHeader).kind) (Chains.wseg (8 : Fin 32) BlockKind.header (Chains.zeros 6) Chains.bitsOfHeader).metrics (Chains.wseg (8 : Fin 32) BlockKind.header (Chains.zeros 6) Chains.bitsOfHeader).soft).fst)) = true ∧
    ldbVersion (headerOf ((Chains.wseg (8 : Fin 32) BlockKind.header (Chains.zeros 6) Chains.bitsOfHeader).out ++ (runSegment (kindGens (Chains.wseg (8 : Fin 32) BlockKind.header (Chains.zeros 6) Chains.bitsOfHeader).kind) (Chains.wseg (8 : Fin 32) BlockKind.header (Chains.zeros 6) Chains.bitsOfHeader).metrics (Chains.wseg (8 : Fin 32) BlockKind.header (Chains.zeros 6) Chains.bitsOfHeader).soft).fst)) = 1 ∧
    0 < ldbLength (headerOf ((Chains.wseg (8 : Fin 32) BlockKind.header (Chains.zeros 6) Chains.bitsOfHeader).out ++ (runSegment (kindGens (Chains.wseg (8 : Fin 32) BlockKind.header (Chains.zeros 6) Chains.bitsOfHeader).kind) (Chains.wseg (8 : Fin 32) BlockKind.header (Chains.zeros 6) Chains.bitsOfHeader).metrics (Chains.wseg (8 : Fin 32) BlockKind.header (Chains.zeros 6) Chains.bitsOfHeader).soft).fst)) ∧
    ldbLength (headerOf ((Chains.wseg (8 : Fin 32) BlockKind.header (Chains.zeros 6) Chains.bitsOfHeader).out ++ (runSegment (kindGens (Chains.wseg (8 : Fin 32) BlockKind.header (Chains.zeros 6) Chains.bitsOfHeader).kind) (Chains.wseg (8 : Fin 32) BlockKind.header (Chains.zeros 6) Chains.bitsOfHeader).metrics (Chains.wseg (8 : Fin 32) BlockKind.header (Chains.zeros 6) Chains.bitsOfHeader).soft).fst)) ≤ 1024 ∧
    ((Chains.seg.sl (0 : Fin 4)).instAt 1).state = InstState.track ∧
    ((Chains.seg.sl (0 : Fin 4)).afAt 1).state = AfState.primary) :=
  ⟨by decide +kernel, by decide +kernel, by decide +kernel, by decide +kernel, by decide +kernel, by decide +kernel⟩

/-- O38: states and operands that meet the hypotheses of each clause. -/
theorem witness_AlternativeFrequencies : ((Following.af1.sl (0 : Fin 4)).live = true ∧
    (Following.af1.sl (0 : Fin 4)).instTun 0 < 32 ∧ (Following.af1.sl (0 : Fin 4)).runAhead = false ∧
    (Following.af1.sl (0 : Fin 4)).clk.coast = false ∧
    ((Following.af1.sl (0 : Fin 4)).afAt 0).state = AfState.primary ∧
    ((Following.af1.sl (0 : Fin 4)).instAt 0).state ≠ InstState.track ∧
    ((Following.af1.sl (0 : Fin 4)).afAt 0).outSince = some 0 ∧
    0 + 1024000 * afHoldMs ((Following.af1.sl (0 : Fin 4)).afPolicy 0) ≤ Following.af1.real ∧
    (Following.af1.sl (0 : Fin 4)).nextEntry 0 = some (99000000, 0) ∧
    (Following.af2.sl (0 : Fin 4)).live = true ∧ (Following.af2.sl (0 : Fin 4)).instTun 0 < 32 ∧
    ((Following.af2.sl (0 : Fin 4)).afAt 0).state = AfState.check ∧
    ((Following.af2.sl (0 : Fin 4)).afAt 0).checkAt + 1024000 * afCheckMs ((Following.af2.sl (0 : Fin 4)).afPolicy 0) ≤ Following.af2.real ∧
    (Following.af2.sl (0 : Fin 4)).nextEntry 0 = none ∧ (Following.u77.sl (0 : Fin 4)).live = true) ∧
    ((Following.u77.sl (0 : Fin 4)).instTun 0 < 32 ∧ (Following.u77.sl (0 : Fin 4)).runAhead = true ∧
    (Following.u77.sl (0 : Fin 4)).clk.coast = false ∧
    ((Following.u77.sl (0 : Fin 4)).afAt 0).state = AfState.primary ∧
    ((Following.u77.sl (0 : Fin 4)).afAt 0).lastSwitch + 1024000 * afHoldMs ((Following.u77.sl (0 : Fin 4)).afPolicy 0) ≤ Following.u77.real ∧
    1 < 32 ∧
    (Following.u77.sl (0 : Fin 4)).bestCand (List.filter (fun p => p.snd.verified) ((Following.u77.sl (0 : Fin 4)).candsTracking 0)) = some (1, Following.cinfo true) ∧
    ((Following.u77.sl (0 : Fin 4)).instAt 0).state ≠ InstState.track ∧
    (Following.raN.sl (0 : Fin 4)).live = true ∧ (Following.raN.sl (0 : Fin 4)).instTun 0 < 32 ∧
    (Following.raN.sl (0 : Fin 4)).runAhead = true ∧ (Following.raN.sl (0 : Fin 4)).clk.coast = false ∧
    ((Following.raN.sl (0 : Fin 4)).afAt 0).state = AfState.primary ∧
    ((Following.raN.sl (0 : Fin 4)).afAt 0).lastSwitch + 1024000 * afHoldMs ((Following.raN.sl (0 : Fin 4)).afPolicy 0) ≤ Following.raN.real ∧
    (((Following.raN.sl (0 : Fin 4)).candsTracking 0).any fun p => p.snd.verified) = false) ∧
    (((Following.raN.sl (0 : Fin 4)).instAt 0).state ≠ InstState.track ∧
    (Following.raN.sl (0 : Fin 4)).fedBy 0 = [] ∧
    (Following.raN.sl (0 : Fin 4)).bestCand (List.filter (fun p => match p.snd.tracked with | some v => Decidable.decide (Following.raN.real ≤ v + 1024000 * afCheckMs ((Following.raN.sl (0 : Fin 4)).afPolicy 0)) | none => false) ((Following.raN.sl (0 : Fin 4)).candsTracking 0)) = some (1, Following.cinfo false) ∧
    vget (Following.raN.sl (0 : Fin 4)).candInfo 1 none = some (Following.cinfo false) ∧
    (Following.cinfo false).key = (0 : Fin 48) ∧
    ((Following.raN.sl (0 : Fin 4)).afAt 0).cand ≠ some (1 : Fin 32) ∧
    (Following.cinfo false).started + 1024000 * afCheckMs ((Following.raN.sl (0 : Fin 4)).afPolicy 0) ≤ Following.raN.real ∧
    (Following.raN.sl (0 : Fin 4)).bestCand (List.filter (fun p => p.snd.verified) ((Following.raN.sl (0 : Fin 4)).candsTracking 0)) = none ∧
    (List.filter (fun j => match j with | some j => (↑j.key : Nat) == 0 | none => false) (Following.raN.sl (0 : Fin 4)).candInfo.toList).length < ((Following.raN.sl (0 : Fin 4)).afList 0).length) :=
  ⟨by decide +kernel, by decide +kernel, by decide +kernel⟩

/-- O39: states and operands that meet the hypotheses of each clause. -/
theorem witness_EventsAndAlerts : ((Following.pend0.sl (0 : Fin 4)).lockReady Following.pend0.tb = some 0 ∧
    ((Base.run1.sl (0 : Fin 4)).lockReady Base.run1.tb = some (0 + 1) ∨ (Base.run1.sl (0 : Fin 4)).lockReady Base.run1.tb = none ∧
    0 = Base.run1.tb) ∧ (Base.run1.sch (0 : Fin 4)).dueBy 0 = [] ∧
    (Base.run1.sch (0 : Fin 4)).executed ≤ 65535 ∧
    ((Following.u80.sl (0 : Fin 4)).lockReady Following.u80.tb = some (50 + 1) ∨ (Following.u80.sl (0 : Fin 4)).lockReady Following.u80.tb = none ∧
    50 = Following.u80.tb) ∧ (Following.u80.sch (0 : Fin 4)).dueBy 50 = [(10, Following.ent)] ∧
    (Following.pul.evt.get (2 : Fin 8)).pulse = some (0, (0 : Fin 4), (3 : Fin 64)) ∧ 0 ≤ Following.pul.tb ∧
    Following.pul.pinEntryBefore (2 : Fin 8) 0 = false ∧
    (Following.u83.evt.get (2 : Fin 8)).pulse = some (5, (0 : Fin 4), (3 : Fin 64)) ∧ Following.u83.tb < 5 ∧
    (Following.u84.evt.get (2 : Fin 8)).pulse = some (5, (0 : Fin 4), (3 : Fin 64)) ∧
    Following.u84.pinEntryBefore (2 : Fin 8) (Min.min 5 Following.u84.tb) = true ∧
    (Following.pul.evt.get (5 : Fin 8)).pulse = none ∧ (Following.alr.sl (0 : Fin 4)).live = true) ∧
    (((Following.alr.sl (0 : Fin 4)).ctxAt 0).alert.active = true ∧
    ((Following.alr.sl (0 : Fin 4)).ctxAt 0).alert.kind = (2 : Byte) ∧
    ((Following.alr.sl (0 : Fin 4)).ctxAt 0).alert.lastFig + 2048000000 ≤ Following.alr.real ∧
    (Following.alr.sl (0 : Fin 4)).ctl.state.served = true ∧ 3600 < bf (3601 : Word) 0 16 ∧
    bf (16715280 : Word) 0 16 ≤ 3600 ∧ bit (16715280 : Word) 31 = false ∧ bf (2164198928 : Word) 0 16 ≤ 3600 ∧
    bit (2164198928 : Word) 31 = true) :=
  ⟨by decide +kernel, by decide +kernel⟩

/-- O40: states and operands that meet the hypotheses of each clause. -/
theorem witness_KeyCommands : (keyPacketOk [(1 : Byte), (2 : Byte), (3 : Byte)] = false ∧
    keyPacketOk Keys.pk = true ∧ u8 Keys.pk 0 = 0 ∧
    ((Base.run1.sl (0 : Fin 4)).ctl.state = SliceState.calibrating ∨ (Base.run1.sl (0 : Fin 4)).up = true) ∧
    (Base.run1.sl (0 : Fin 4)).mac.blocked = (0 : BitVec 6) ∧
    Keys.u88.inHand (localQ (0 : Fin 4) 52) 64 = some (Keys.cm (localQ (0 : Fin 4) 52) (64 : Byte) Keys.der) ∧
    (Keys.u88.sl (0 : Fin 4)).up = true ∧
    deriveBodyOk (Keys.cm (localQ (0 : Fin 4) 52) (64 : Byte) Keys.der).body = true ∧
    slotGood ((Keys.u88.sl (0 : Fin 4)).slotAt (u8 (Keys.cm (localQ (0 : Fin 4) 52) (64 : Byte) Keys.der).body 0)) = true ∧
    ((Keys.u88.sl (0 : Fin 4)).slotAt (u8 (Keys.cm (localQ (0 : Fin 4) 52) (64 : Byte) Keys.der).body 0)).state ≠ SlotState.empty ∧
    ((Keys.u88.sl (0 : Fin 4)).slotAt (u8 (Keys.cm (localQ (0 : Fin 4) 52) (64 : Byte) Keys.der).body 0)).usage.getLsbD 2 = true ∧
    (Keys.u88.sl (0 : Fin 4)).mac.blocked = (0 : BitVec 6) ∧ false = false ∧ true = true ∧
    Keys.u89.inHand (localQ (0 : Fin 4) 52) 64 = some (Keys.cm (localQ (0 : Fin 4) 52) (64 : Byte) Keys.der)) ∧
    ((Keys.u89.sl (0 : Fin 4)).up = true ∧
    slotGood ((Keys.u89.sl (0 : Fin 4)).slotAt (u8 (Keys.cm (localQ (0 : Fin 4) 52) (64 : Byte) Keys.der).body 0)) = true ∧
    ((Keys.u89.sl (0 : Fin 4)).slotAt (u8 (Keys.cm (localQ (0 : Fin 4) 52) (64 : Byte) Keys.der).body 0)).state = SlotState.empty ∧
    Keys.u90.inHand (localQ (0 : Fin 4) 52) 64 = some (Keys.cm (localQ (0 : Fin 4) 52) (64 : Byte) (Keys.der.set 0 (9 : Byte))) ∧
    (Keys.u90.sl (0 : Fin 4)).up = true ∧
    deriveBodyOk (Keys.cm (localQ (0 : Fin 4) 52) (64 : Byte) (Keys.der.set 0 (9 : Byte))).body = false ∧
    Keys.u92.inHand (localQ (0 : Fin 4) 52) 64 = some (Keys.cm (localQ (0 : Fin 4) 52) (64 : Byte) Keys.der) ∧
    (Keys.u92.sl (0 : Fin 4)).up = true ∧
    slotGood ((Keys.u92.sl (0 : Fin 4)).slotAt (u8 (Keys.cm (localQ (0 : Fin 4) 52) (64 : Byte) Keys.der).body 0)) = true ∧
    ((Keys.u92.sl (0 : Fin 4)).slotAt (u8 (Keys.cm (localQ (0 : Fin 4) 52) (64 : Byte) Keys.der).body 0)).state ≠ SlotState.empty ∧
    ((Keys.u92.sl (0 : Fin 4)).slotAt (u8 (Keys.cm (localQ (0 : Fin 4) 52) (64 : Byte) Keys.der).body 0)).usage.getLsbD 2 = false ∧
    (Keys.u93.sl (0 : Fin 4)).macReqs = [256] ∧ (Keys.u93.sl (0 : Fin 4)).mac.ops = [Keys.dop 3] ∧
    (Keys.dop 3).derive = some Keys.dcm ∧
    slotGood ((Keys.u93.sl (0 : Fin 4)).slotAt (↑(Keys.dop 3).slot : Nat)) = true) ∧
    (deriveBodyOk Keys.dcm.body = true ∧ 1 < (Keys.dop 3).left ∧ (Keys.u94.sl (0 : Fin 4)).macReqs = [256] ∧
    (Keys.u94.sl (0 : Fin 4)).mac.ops = [Keys.dop 1] ∧ (Keys.dop 1).derive = some Keys.dcm ∧
    slotGood ((Keys.u94.sl (0 : Fin 4)).slotAt (↑(Keys.dop 1).slot : Nat)) = true ∧ (Keys.dop 1).left ≤ 1 ∧
    Keys.u95.inHand (localQ (0 : Fin 4) 52) 65 = some (Keys.cm (localQ (0 : Fin 4) 52) (65 : Byte) (Base.b 8 33)) ∧
    (Keys.u95.sl (0 : Fin 4)).up = true ∧ Keys.u96.mailbox.go = true ∧ Keys.u96.mailbox.taken = false ∧
    (Keys.u96.qu (68 : Fin 256)).inHand = none ∧ (Keys.u96.sl (0 : Fin 4)).up = true ∧
    bf Keys.u96.mailbox.opcode 0 8 = 3 ∧ Keys.u97.mailbox.go = true) ∧ (Keys.u97.mailbox.taken = false ∧
    (Keys.u97.qu (68 : Fin 256)).inHand = none ∧ (Keys.u97.sl (0 : Fin 4)).up = true ∧
    bf Keys.u97.mailbox.opcode 0 8 = 4 ∧ Keys.u97.mailbox.deriveOk = true ∧
    slotGood ((Keys.u97.sl (0 : Fin 4)).slotAt (bf (Keys.u97.mailbox.word 0) 0 8)) = true ∧
    bf (Keys.u97.mailbox.word 0) 0 8 ≠ bf (Keys.u97.mailbox.word 0) 8 8 ∧
    1 ≤ bf (Keys.u97.mailbox.word 0) 24 3 ∧ 1 ≤ bf (Keys.u97.mailbox.word 1) 0 8 ∧
    bf (Keys.u97.mailbox.word 1) 0 8 ≤ 32 ∧ bf (Keys.u97.mailbox.word 1) 8 8 ≤ 32 ∧
    ((Keys.u97.sl (0 : Fin 4)).slotAt (bf (Keys.u97.mailbox.word 0) 0 8)).state = SlotState.empty ∧
    Keys.u98.mailbox.go = true ∧ Keys.u98.mailbox.taken = false ∧ (Keys.u98.qu (68 : Fin 256)).inHand = none) ∧
    ((Keys.u98.sl (0 : Fin 4)).up = true ∧ bf Keys.u98.mailbox.opcode 0 8 = 4 ∧
    Keys.u98.mailbox.deriveOk = true ∧
    slotGood ((Keys.u98.sl (0 : Fin 4)).slotAt (bf (Keys.u98.mailbox.word 0) 0 8)) = true ∧
    bf (Keys.u98.mailbox.word 0) 0 8 ≠ bf (Keys.u98.mailbox.word 0) 8 8 ∧
    1 ≤ bf (Keys.u98.mailbox.word 0) 24 3 ∧ 1 ≤ bf (Keys.u98.mailbox.word 1) 0 8 ∧
    bf (Keys.u98.mailbox.word 1) 0 8 ≤ 32 ∧ bf (Keys.u98.mailbox.word 1) 8 8 ≤ 32 ∧
    ((Keys.u98.sl (0 : Fin 4)).slotAt (bf (Keys.u98.mailbox.word 0) 0 8)).state ≠ SlotState.empty ∧
    ((Keys.u98.sl (0 : Fin 4)).slotAt (bf (Keys.u98.mailbox.word 0) 0 8)).usage.getLsbD 2 = true ∧
    (Keys.u98.sl (0 : Fin 4)).mac.blocked = (0 : BitVec 6)) ∧ (((Base.run1.sl (0 : Fin 4)).mac.ops = [] ∧
    ∀ (k : Nat), k < 256 → ∀ (e : Envelope), ((Base.run1.sl (0 : Fin 4)).ctxAt k).front = some e → e.bound = none)) ∧
    ((∀ (k : Nat), k < 256 → ∀ (e : Envelope), ((Keys.u94.sl (0 : Fin 4)).ctxAt k).front = some e → e.bound = none)) ∧
    (((Keys.u95.sl (0 : Fin 4)).mac.ops = [] ∧
    ∀ (k : Nat), k < 256 → ∀ (e : Envelope), ((Keys.u95.sl (0 : Fin 4)).ctxAt k).front = some e → e.bound = none)) ∧
    (((Keys.u96.sl (0 : Fin 4)).mac.ops = [] ∧
    ∀ (k : Nat), k < 256 → ∀ (e : Envelope), ((Keys.u96.sl (0 : Fin 4)).ctxAt k).front = some e → e.bound = none)) ∧
    (((Keys.u97.sl (0 : Fin 4)).mac.ops = [] ∧
    ∀ (k : Nat), k < 256 → ∀ (e : Envelope), ((Keys.u97.sl (0 : Fin 4)).ctxAt k).front = some e → e.bound = none)) ∧
    (((Keys.u98.sl (0 : Fin 4)).mac.ops = [] ∧
    ∀ (k : Nat), k < 256 → ∀ (e : Envelope), ((Keys.u98.sl (0 : Fin 4)).ctxAt k).front = some e → e.bound = none)) :=
  ⟨by decide +kernel, by decide +kernel, by decide +kernel, by decide +kernel, by decide +kernel, ⟨rfl, ctxQuiet rfl⟩, ctxQuiet rfl, ⟨rfl, ctxQuiet rfl⟩, ⟨rfl, ctxQuiet rfl⟩, ⟨rfl, ctxQuiet rfl⟩, ⟨rfl, ctxQuiet rfl⟩⟩

/-- O41: states and operands that meet the hypotheses of each clause. -/
theorem witness_KeyAlarms : ((Keys.era.sl (0 : Fin 4)).mac.erasing = true ∧
    (Keys.era.sl (0 : Fin 4)).ctl.state.served = true ∧ (Base.run1.sl (0 : Fin 4)).mac.erasing = false) ∧
    ((∀ (c : Fin 4), (Keys.par.sl c).mac.ops = [] ∧
    ∀ (k : Nat), k < 256 → ∀ (e : Envelope), ((Keys.par.sl c).ctxAt k).front = some e → e.bound = none)) ∧
    (((Keys.par.sl (0 : Fin 4)).mac.ops = [] ∧
    ∀ (k : Nat), k < 256 → ∀ (e : Envelope), ((Keys.par.sl (0 : Fin 4)).ctxAt k).front = some e → e.bound = none)) :=
  ⟨by decide +kernel, fun c => by match c with | 0 => exact ⟨rfl, ctxQuiet rfl⟩ | 1 => exact ⟨rfl, ctxQuiet rfl⟩ | 2 => exact ⟨rfl, ctxQuiet rfl⟩ | 3 => exact ⟨rfl, ctxQuiet rfl⟩, ⟨rfl, ctxQuiet rfl⟩⟩

/-- O42: states and operands that meet the hypotheses of each clause. -/
theorem witness_Verification : ((Base.run1.sl (0 : Fin 4)).macReqs = [] ∧
    (Keys.u99.sl (0 : Fin 4)).macReqs = [1] ∧ ((Keys.u99.sl (0 : Fin 4)).ctxAt 1).front = some Keys.eLong ∧
    Keys.eLong.bound = some ((3 : Fin 64), (0 : BitVec 16)) ∧
    slotGood ((Keys.u99.sl (0 : Fin 4)).slotAt (↑((3 : Fin 64), (0 : BitVec 16)).fst : Nat)) = true ∧
    Keys.eLong.done + 16 < 10 + Keys.eLong.length ∧ (Keys.u100.sl (0 : Fin 4)).macReqs = [1] ∧
    ((Keys.u100.sl (0 : Fin 4)).ctxAt 1).front = some Keys.eBad ∧
    Keys.eBad.bound = some ((3 : Fin 64), (0 : BitVec 16)) ∧
    slotGood ((Keys.u100.sl (0 : Fin 4)).slotAt (↑((3 : Fin 64), (0 : BitVec 16)).fst : Nat)) = true ∧
    10 + Keys.eBad.length ≤ Keys.eBad.done + 16 ∧ ((Keys.u100.sl (0 : Fin 4)).ctxAt 1).spec = false ∧
    List.take (Keys.eBad.tagBits / 8) (cmacLast ((Keys.u100.sl (0 : Fin 4)).slotAt (↑((3 : Fin 64), (0 : BitVec 16)).fst : Nat)).key Keys.eBad.chain (List.take (10 + Keys.eBad.length - Keys.eBad.done) (List.drop Keys.eBad.done Keys.eBad.bytes))) ≠ List.drop (10 + Keys.eBad.length) Keys.eBad.bytes ∧
    ((Keys.u100.sl (0 : Fin 4)).ctxAt 1).queued = [Keys.eBad] ∧
    ((Keys.u100.sl (0 : Fin 4)).ctxAt 1).env = none) ∧ ((Keys.u101.sl (0 : Fin 4)).macReqs = [1] ∧
    ((Keys.u101.sl (0 : Fin 4)).ctxAt 1).front = some Keys.eGood ∧
    Keys.eGood.bound = some ((3 : Fin 64), (0 : BitVec 16)) ∧
    slotGood ((Keys.u101.sl (0 : Fin 4)).slotAt (↑((3 : Fin 64), (0 : BitVec 16)).fst : Nat)) = true ∧
    10 + Keys.eGood.length ≤ Keys.eGood.done + 16 ∧ ((Keys.u101.sl (0 : Fin 4)).ctxAt 1).spec = false ∧
    List.take (Keys.eGood.tagBits / 8) (cmacLast ((Keys.u101.sl (0 : Fin 4)).slotAt (↑((3 : Fin 64), (0 : BitVec 16)).fst : Nat)).key Keys.eGood.chain (List.take (10 + Keys.eGood.length - Keys.eGood.done) (List.drop Keys.eGood.done Keys.eGood.bytes))) = List.drop (10 + Keys.eGood.length) Keys.eGood.bytes ∧
    ((Keys.u102.sl (0 : Fin 4)).ctxAt 1).queued = [Keys.eCom] ∧
    ((Keys.u102.sl (0 : Fin 4)).ctxAt 1).env = none ∧ Keys.eCom.commit = true ∧
    Keys.eCom.bound = some ((3 : Fin 64), (0 : BitVec 16)) ∧ Keys.eCom.ended = true ∧ Keys.eCom.closed = false ∧
    ((Keys.u102.sl (0 : Fin 4)).ctxAt 1).spec = false ∧ ctlOf Keys.eCom.payload = []) ∧
    ((∀ (j : Nat), j < 1 → ∀ (d : Envelope), ((Keys.u102.sl (0 : Fin 4)).ctxAt j).front = some d → d.commit = false)) ∧
    ((∀ (k : Nat), k < 256 → ∀ (e : Envelope), ((Base.run1.sl (0 : Fin 4)).ctxAt k).front = some e → e.commit = false)) :=
  ⟨by decide +kernel, by decide +kernel, by decide +kernel, ctxQuiet rfl⟩

/-- O43: states and operands that meet the hypotheses of each clause. -/
theorem witness_QueueControl : ((4 ≠ 4 ∨ BitVec.toNat (1026 : BitVec 16) % 4 ≠ 0) ∧
    BitVec.toNat (1028 : BitVec 16) % 4 = 0 ∧ BitVec.toNat (1028 : BitVec 16) % 256 ≠ 0 ∧
    BitVec.toNat (1024 : BitVec 16) = 256 * 4 ∧ Port.qOn.queueActive (4 : Fin 256) = true ∧
    BitVec.toNat ((5 : Word) - (Port.qOn.qu (4 : Fin 256)).cons) ≤ 2 ^ bf (Port.qOn.qu (4 : Fin 256)).ringCfg 0 5 ∧
    (Port.qOn.queueActive (4 : Fin 256) = false ∨ 2 ^ bf (Port.qOn.qu (4 : Fin 256)).ringCfg 0 5 < BitVec.toNat ((20480 : Word) - (Port.qOn.qu (4 : Fin 256)).cons)) ∧
    Port.qOn.mod.ready = true ∧ (Port.qOn.qu (4 : Fin 256)).en = true ∧
    (Port.qOn.qu (4 : Fin 256)).xfer = none ∧ (Port.qOn.qu (4 : Fin 256)).buf = none ∧
    Port.hp.mod.ready = true ∧ (Port.hp.qu (4 : Fin 256)).en = false ∧
    (Port.hp.qu (4 : Fin 256)).ringLo = (0 : Word) ∧ (Port.hp.qu (4 : Fin 256)).ringHi = (0 : Word)) ∧
    (Port.u103.mod.ready = true ∧ (Port.u103.qu (4 : Fin 256)).en = false ∧
    ((Port.u103.qu (4 : Fin 256)).ringLo ≠ (0 : Word) ∨ (Port.u103.qu (4 : Fin 256)).ringHi ≠ (0 : Word)) ∧
    (queueIsCmd (4 : Fin 256) = false ∨ Port.u103.complOk (4 : Fin 256) = true) ∧ Port.qBuf.mod.ready = true ∧
    queueIsCmd (4 : Fin 256) = false ∧ (Port.qBuf.qu (4 : Fin 256)).xfer = none ∧
    (Port.qBuf.qu (4 : Fin 256)).buf = some Port.bufE ∧ 0 < Port.bufE.nrec ∧
    bit (Port.qBuf.qu (4 : Fin 256)).irq 31 = false ∧ Port.qX.mod.ready = true ∧
    (Port.qX.qu (4 : Fin 256)).xfer ≠ none ∧ queueIsCmd (12 : Fin 256) = true ∧ Port.bufE.opened = some 0 ∧
    Port.qBuf.real < 0 + 1024 * bf (Port.qBuf.qu (4 : Fin 256)).ringCfg 16 16) ∧
    ((Port.u105.qu (4 : Fin 256)).buf = some Port.bufE ∧
    0 + 1024 * bf (Port.u105.qu (4 : Fin 256)).ringCfg 16 16 ≤ Port.u105.real ∧ Port.u105.qmg.inReset = false ∧
    (Port.u105.qu (4 : Fin 256)).xfer = none ∧ bit (Port.u105.qu (4 : Fin 256)).irq 31 = false ∧
    (Port.qBuf.qu (4 : Fin 256)).irqOwed = false ∧ (Port.owe.qu (4 : Fin 256)).irqOwed = true ∧
    bit (Port.owe.qu (4 : Fin 256)).irq 31 = true ∧ (Port.owe.qu (4 : Fin 256)).irqLast = some 0 ∧
    0 + 1024 * bf (Port.owe.qu (4 : Fin 256)).irq 8 14 ≤ Port.owe.real ∧
    (Port.u106.qu (4 : Fin 256)).irqOwed = true ∧ bit (Port.u106.qu (4 : Fin 256)).irq 31 = true ∧
    (Port.u106.qu (4 : Fin 256)).irqLast = some 0 ∧
    Port.u106.real < 0 + 1024 * bf (Port.u106.qu (4 : Fin 256)).irq 8 14) :=
  ⟨by decide +kernel, by decide +kernel, by decide +kernel⟩

/-- O44: states and operands that meet the hypotheses of each clause. -/
theorem witness_DmaAndLinkErrors : (Port.qOn.qmg.inReset = false ∧ queueIsCmd (4 : Fin 256) = false ∧
    Port.qOn.queueActive (4 : Fin 256) = true ∧ (Port.qOn.qu (4 : Fin 256)).buf = none ∧
    (Port.qOn.qu (4 : Fin 256)).prod ≠ (Port.qOn.qu (4 : Fin 256)).cons ∧
    (BitVec.toNat (1048576 : DWord) % 64 = 0 ∧ BitVec.toNat (32768 : Word) % 64 = 0 ∧
    16384 ≤ BitVec.toNat (32768 : Word) ∧ BitVec.toNat (32768 : Word) ≤ 4194304) ∧
    (¬(BitVec.toNat (1048577 : DWord) % 64 = 0 ∧ BitVec.toNat (32768 : Word) % 64 = 0 ∧
    16384 ≤ BitVec.toNat (32768 : Word) ∧ BitVec.toNat (32768 : Word) ≤ 4194304)) ∧
    bit (Port.qOn.qu (4 : Fin 256)).irq 31 = false ∧ Port.qX.qmg.inReset = false ∧
    (Port.qX.qu (4 : Fin 256)).xfer = some Port.xf ∧ Port.qX.qmg.mps < Port.xf.left.length ∧
    0 < Port.qX.qmg.mps ∧ Port.qX.queueClass (4 : Fin 256) < 2 ∧ Port.qX.qmg.roundClass < 3 ∧
    (∀ (p : Fin 256), Port.qX.wantsDma p = Decidable.decide (p = (4 : Fin 256)))) ∧
    ((∀ (p : Fin 256), (Port.qX.qu p).full = false) ∧ Port.u107.tb / 1024000 ≠ Port.u107.qmg.rawWindow ∧
    Port.qX.tb / 1024000 = Port.qX.qmg.rawWindow ∧ (Port.qOn.qu (4 : Fin 256)).xfer = none ∧
    Port.qBuf.qmg.inReset = false ∧ Base.run1.qmg.inReset = true ∧ 4 ∈ [1, 2, 4] ∧ 2 ∈ [1, 2] ∧
    256 ∈ [128, 256]) :=
  ⟨by decide +kernel, by decide +kernel⟩

/-- O45: states and operands that meet the hypotheses of each clause. -/
theorem witness_CommandsOfTheHost : (Port.hp.mayFetch (12 : Fin 256) = false ∧
    Port.u108.mayFetch (12 : Fin 256) = true ∧ carrier (BitVec.toNat (238 : Byte)) = none ∧
    carrier (BitVec.toNat (40 : Byte)) = some (Carrier.module 12) ∧
    (8192 < BitVec.toNat (6 : Word) ∨ BitVec.toNat (6 : Word) % 4 ≠ 0) ∧
    carrier (BitVec.toNat (96 : Byte)) = some (Carrier.module 13) ∧ BitVec.toNat (12 : Word) ≤ 8192 ∧
    BitVec.toNat (12 : Word) % 4 = 0 ∧ Port.u108.carries (12 : Fin 256) (Carrier.module 13) = false ∧
    BitVec.toNat (8 : Word) ≤ 8192 ∧ BitVec.toNat (8 : Word) % 4 = 0 ∧
    Port.u108.carries (12 : Fin 256) (Carrier.module 12) = true ∧
    bodyLength (BitVec.toNat (40 : Byte)) { queue := (12 : Fin 256), opcode := (40 : Byte), tag := (7 : Word), desc := BitVec.ofNat 32 (BitVec.toNat (Port.u108.qu (12 : Fin 256)).cons % 2 ^ bf (Port.u108.qu (12 : Fin 256)).ringCfg 0 5), body := padTo (BitVec.toNat (8 : Word)) (Base.b 4 0) : Command }.body = some 4 ∧
    BitVec.toNat (8 : Word) ≠ 4 ∧ BitVec.toNat (4 : Word) ≤ 8192) ∧ (BitVec.toNat (4 : Word) % 4 = 0 ∧
    Port.u111.inHand (12 : Fin 256) 0 = some (Port.cm (12 : Fin 256) (0 : Byte) []) ∧
    (Port.u111.qu (12 : Fin 256)).outstanding = [] ∧
    Port.u112.inHand (12 : Fin 256) 0 = some (Port.cm (12 : Fin 256) (0 : Byte) []) ∧
    (Port.u112.qu (12 : Fin 256)).outstanding ≠ [] ∧
    (Port.heldS.qu (12 : Fin 256)).held = [Port.rec0, Port.rec0] ∧
    Port.heldS.queueDeclared (Port.heldS.complQueue (12 : Fin 256)) = true ∧
    queueIsCmd (Port.heldS.complQueue (12 : Fin 256)) = false ∧
    (Port.heldS.qu (Port.heldS.complQueue (12 : Fin 256))).fits Port.rec0.size = true ∧
    Port.heldS.complQueue (12 : Fin 256) ≠ (12 : Fin 256) ∧
    (Port.fullS.qu (12 : Fin 256)).held = [Port.rec0, Port.rec0] ∧
    (Port.fullS.qu (Port.fullS.complQueue (12 : Fin 256))).fits Port.rec0.size = false) ∧
    ((∀ (n : Nat), bodyLength (BitVec.toNat (40 : Byte)) { queue := (12 : Fin 256), opcode := (40 : Byte), tag := (7 : Word), desc := BitVec.ofNat 32 (BitVec.toNat (Port.u108.qu (12 : Fin 256)).cons % 2 ^ bf (Port.u108.qu (12 : Fin 256)).ringCfg 0 5), body := padTo (BitVec.toNat (4 : Word)) (Base.b 4 0) : Command }.body = some n → BitVec.toNat (4 : Word) = n)) :=
  ⟨by decide +kernel, by decide +kernel, optAll (by decide +kernel)⟩

/-- O46: states and operands that meet the hypotheses of each clause. -/
theorem witness_GrantCycles : ((∀ (i : Nat), i < 18 → vget Power.u113.pwr.want i 0 = 0) ∧ 1 < 18 ∧
    vget Power.u114.pwr.want 1 0 ≠ 0 ∧ (∀ (j : Nat), j < 18 → j ≠ 1 → vget Power.u114.pwr.want j 0 = 0) ∧
    Power.u114.mod.swapping = none ∧
    ({ events := Power.u114.pwr.events, budget := Power.u114.pwr.budget, held := vmapIdx (fun i h => h - vget Power.u114.pwr.rel i 0) Power.u114.pwr.held, want := Power.u114.pwr.want, rel := Vector.replicate 18 0, ptr := Power.u114.pwr.ptr, rxAsk := Power.u114.pwr.rxAsk, cls := Power.u114.pwr.cls, ac := Power.u114.pwr.ac, freq := Power.u114.pwr.freq, inputDv := Power.u114.pwr.inputDv, drawNow := Power.u114.pwr.drawNow, drawPeak := Power.u114.pwr.drawPeak, aux := if Power.u114.pwr.aux = AuxState.falling then AuxState.off else Power.u114.pwr.aux, auxMa := Power.u114.pwr.auxMa, refused := Power.u114.pwr.refused, txExpired := Power.u114.pwr.txExpired, railMv := Power.u114.pwr.railMv, railOk := Power.u114.pwr.railOk, lowSince := Power.u114.pwr.lowSince, goodSince := Power.u114.pwr.goodSince, backSince := Power.u114.pwr.backSince, saved := Power.u114.pwr.saved : Pwr }.held.toList.sum + vget Power.u114.pwr.want 1 0 ≤ Power.u114.pwr.effective) ∧
    1 = 1 ∧ 7 < 18 ∧ vget Power.u115.pwr.want 7 0 ≠ 0 ∧
    (∀ (j : Nat), j < 18 → j ≠ 7 → vget Power.u115.pwr.want j 0 = 0) ∧ Power.u115.mod.swapping = none ∧
    ({ events := Power.u115.pwr.events, budget := Power.u115.pwr.budget, held := vmapIdx (fun i h => h - vget Power.u115.pwr.rel i 0) Power.u115.pwr.held, want := Power.u115.pwr.want, rel := Vector.replicate 18 0, ptr := Power.u115.pwr.ptr, rxAsk := Power.u115.pwr.rxAsk, cls := Power.u115.pwr.cls, ac := Power.u115.pwr.ac, freq := Power.u115.pwr.freq, inputDv := Power.u115.pwr.inputDv, drawNow := Power.u115.pwr.drawNow, drawPeak := Power.u115.pwr.drawPeak, aux := if Power.u115.pwr.aux = AuxState.falling then AuxState.off else Power.u115.pwr.aux, auxMa := Power.u115.pwr.auxMa, refused := Power.u115.pwr.refused, txExpired := Power.u115.pwr.txExpired, railMv := Power.u115.pwr.railMv, railOk := Power.u115.pwr.railOk, lowSince := Power.u115.pwr.lowSince, goodSince := Power.u115.pwr.goodSince, backSince := Power.u115.pwr.backSince, saved := Power.u115.pwr.saved : Pwr }.held.toList.sum + vget Power.u115.pwr.want 7 0 ≤ Power.u115.pwr.effective) ∧
    (6 ≤ 7 ∧ 7 ≤ 8) ∧ 9 < 18 ∧ vget Power.u116.pwr.want 9 0 ≠ 0) ∧
    ((∀ (j : Nat), j < 18 → j ≠ 9 → vget Power.u116.pwr.want j 0 = 0) ∧ Power.u116.mod.swapping = none ∧
    ({ events := Power.u116.pwr.events, budget := Power.u116.pwr.budget, held := vmapIdx (fun i h => h - vget Power.u116.pwr.rel i 0) Power.u116.pwr.held, want := Power.u116.pwr.want, rel := Vector.replicate 18 0, ptr := Power.u116.pwr.ptr, rxAsk := Power.u116.pwr.rxAsk, cls := Power.u116.pwr.cls, ac := Power.u116.pwr.ac, freq := Power.u116.pwr.freq, inputDv := Power.u116.pwr.inputDv, drawNow := Power.u116.pwr.drawNow, drawPeak := Power.u116.pwr.drawPeak, aux := if Power.u116.pwr.aux = AuxState.falling then AuxState.off else Power.u116.pwr.aux, auxMa := Power.u116.pwr.auxMa, refused := Power.u116.pwr.refused, txExpired := Power.u116.pwr.txExpired, railMv := Power.u116.pwr.railMv, railOk := Power.u116.pwr.railOk, lowSince := Power.u116.pwr.lowSince, goodSince := Power.u116.pwr.goodSince, backSince := Power.u116.pwr.backSince, saved := Power.u116.pwr.saved : Pwr }.held.toList.sum + vget Power.u116.pwr.want 9 0 ≤ Power.u116.pwr.effective) ∧
    9 = 9 ∧ 15 < 18 ∧ vget Power.u117.pwr.want 15 0 ≠ 0 ∧
    (∀ (j : Nat), j < 18 → j ≠ 15 → vget Power.u117.pwr.want j 0 = 0) ∧ Power.u117.mod.swapping = none ∧
    ({ events := Power.u117.pwr.events, budget := Power.u117.pwr.budget, held := vmapIdx (fun i h => h - vget Power.u117.pwr.rel i 0) Power.u117.pwr.held, want := Power.u117.pwr.want, rel := Vector.replicate 18 0, ptr := Power.u117.pwr.ptr, rxAsk := Power.u117.pwr.rxAsk, cls := Power.u117.pwr.cls, ac := Power.u117.pwr.ac, freq := Power.u117.pwr.freq, inputDv := Power.u117.pwr.inputDv, drawNow := Power.u117.pwr.drawNow, drawPeak := Power.u117.pwr.drawPeak, aux := if Power.u117.pwr.aux = AuxState.falling then AuxState.off else Power.u117.pwr.aux, auxMa := Power.u117.pwr.auxMa, refused := Power.u117.pwr.refused, txExpired := Power.u117.pwr.txExpired, railMv := Power.u117.pwr.railMv, railOk := Power.u117.pwr.railOk, lowSince := Power.u117.pwr.lowSince, goodSince := Power.u117.pwr.goodSince, backSince := Power.u117.pwr.backSince, saved := Power.u117.pwr.saved : Pwr }.held.toList.sum + vget Power.u117.pwr.want 15 0 ≤ Power.u117.pwr.effective) ∧
    15 = 14 + 1 ∧ vget Power.u118.pwr.want 1 0 ≠ 0 ∧
    (∀ (j : Nat), j < 18 → j ≠ 1 → vget Power.u118.pwr.want j 0 = 0) ∧ Power.u118.mod.swapping = none ∧
    (¬{ events := Power.u118.pwr.events, budget := Power.u118.pwr.budget, held := vmapIdx (fun i h => h - vget Power.u118.pwr.rel i 0) Power.u118.pwr.held, want := Power.u118.pwr.want, rel := Vector.replicate 18 0, ptr := Power.u118.pwr.ptr, rxAsk := Power.u118.pwr.rxAsk, cls := Power.u118.pwr.cls, ac := Power.u118.pwr.ac, freq := Power.u118.pwr.freq, inputDv := Power.u118.pwr.inputDv, drawNow := Power.u118.pwr.drawNow, drawPeak := Power.u118.pwr.drawPeak, aux := if Power.u118.pwr.aux = AuxState.falling then AuxState.off else Power.u118.pwr.aux, auxMa := Power.u118.pwr.auxMa, refused := Power.u118.pwr.refused, txExpired := Power.u118.pwr.txExpired, railMv := Power.u118.pwr.railMv, railOk := Power.u118.pwr.railOk, lowSince := Power.u118.pwr.lowSince, goodSince := Power.u118.pwr.goodSince, backSince := Power.u118.pwr.backSince, saved := Power.u118.pwr.saved : Pwr }.held.toList.sum + vget Power.u118.pwr.want 1 0 ≤ Power.u118.pwr.effective) ∧
    vget Power.u119.pwr.want 9 0 ≠ 0) ∧ ((∀ (j : Nat), j < 18 → j ≠ 9 → vget Power.u119.pwr.want j 0 = 0) ∧
    Power.u119.mod.swapping = none ∧
    (¬{ events := Power.u119.pwr.events, budget := Power.u119.pwr.budget, held := vmapIdx (fun i h => h - vget Power.u119.pwr.rel i 0) Power.u119.pwr.held, want := Power.u119.pwr.want, rel := Vector.replicate 18 0, ptr := Power.u119.pwr.ptr, rxAsk := Power.u119.pwr.rxAsk, cls := Power.u119.pwr.cls, ac := Power.u119.pwr.ac, freq := Power.u119.pwr.freq, inputDv := Power.u119.pwr.inputDv, drawNow := Power.u119.pwr.drawNow, drawPeak := Power.u119.pwr.drawPeak, aux := if Power.u119.pwr.aux = AuxState.falling then AuxState.off else Power.u119.pwr.aux, auxMa := Power.u119.pwr.auxMa, refused := Power.u119.pwr.refused, txExpired := Power.u119.pwr.txExpired, railMv := Power.u119.pwr.railMv, railOk := Power.u119.pwr.railOk, lowSince := Power.u119.pwr.lowSince, goodSince := Power.u119.pwr.goodSince, backSince := Power.u119.pwr.backSince, saved := Power.u119.pwr.saved : Pwr }.held.toList.sum + vget Power.u119.pwr.want 9 0 ≤ Power.u119.pwr.effective)) :=
  ⟨by decide +kernel, by decide +kernel, by decide +kernel⟩

/-- O47: states and operands that meet the hypotheses of each clause. -/
theorem witness_PowerInput : (Power.u120.pwr.cls = InputClass.normal ∧ Power.u120.pwr.lowSince = some 0 ∧
    0 + 102400000 ≤ Power.u120.real ∧ Base.run1.pwr.cls = InputClass.normal ∧
    (∀ (t : Nat), Base.run1.pwr.lowSince = some t → Base.run1.real < t + 102400000) ∧
    Power.u122.pwr.cls = InputClass.brownOut ∧ Power.u122.pwr.goodSince = some 0 ∧
    0 + 1024000000 ≤ Power.u122.real ∧ Power.bo.pwr.cls = InputClass.brownOut ∧
    (∀ (t : Nat), Power.bo.pwr.goodSince = some t → Power.bo.real < t + 1024000000) ∧
    Power.u123.pwr.cls = InputClass.inputLoss ∧ Power.u123.pwr.backSince = some 0 ∧
    0 + 102400000 ≤ Power.u123.real ∧ Power.il.pwr.cls = InputClass.inputLoss ∧
    (∀ (t : Nat), Power.il.pwr.backSince = some t → Power.il.real < t + 102400000)) ∧
    (Base.run1.pwr.cls ≠ InputClass.inputLoss ∧ (∀ (c : Fin 4), (Base.run1.sl c).tx.state ≠ TxState.prepare ∧
    (Base.run1.sl c).tx.state ≠ TxState.wait) ∧ Base.run1.mod.ready = true ∧ Base.run1.mod.swapping = none ∧
    (240 ≤ bf (26214960 : Word) 0 10 ∧ bf (26214960 : Word) 0 10 ≤ 640 ∧ 240 ≤ bf (26214960 : Word) 16 10 ∧
    bf (26214960 : Word) 16 10 ≤ 640) ∧ (¬(240 ≤ bf (1049136 : Word) 0 10 ∧ bf (1049136 : Word) 0 10 ≤ 640 ∧
    240 ≤ bf (1049136 : Word) 16 10 ∧ bf (1049136 : Word) 16 10 ≤ 640)) ∧ 500 < bf (2147484149 : Word) 0 10 ∧
    0 < bf (2147484148 : Word) 0 10 ∧ bf (2147484148 : Word) 0 10 ≤ 500 ∧ bit (2147484148 : Word) 31 = true ∧
    Base.run1.pwr.aux = AuxState.off ∧ Power.u124.mod.ready = true ∧ Power.u124.mod.swapping = none ∧
    bf (100 : Word) 0 10 ≤ 500 ∧ bf (100 : Word) 0 10 = Power.u124.pwr.auxMa) ∧ (bit (100 : Word) 31 = false ∧
    Power.u124.pwr.aux = AuxState.on ∧ Base.run1.pwr.aux ≠ AuxState.on ∧
    Power.u125.inHand (12 : Fin 256) 104 = some (Power.cm (12 : Fin 256) (104 : Byte) []) ∧
    Power.u126.inHand (12 : Fin 256) 105 = some (Power.cm (12 : Fin 256) (105 : Byte) []) ∧
    Power.u126.flashUsed + 4 ≤ bf Power.u126.fls.limit 0 16 ∧
    Power.u127.inHand (12 : Fin 256) 105 = some (Power.cm (12 : Fin 256) (105 : Byte) []) ∧
    bf Power.u127.fls.limit 0 16 < Power.u127.flashUsed + 4) :=
  ⟨by decide +kernel, by decide +kernel, by decide +kernel⟩

/-- O48: states and operands that meet the hypotheses of each clause. -/
theorem witness_ModuleResets : (Base.r.mod.ready = false ∧ Base.run1.mod.ready = true ∧
    Base.run1.mod.swapping = none ∧ (bf (1511456769 : Word) 16 16 = 23063 ∧ bit (1511456769 : Word) 0 = true) ∧
    (¬(bf (1511456768 : Word) 16 16 = 23063 ∧ bit (1511456768 : Word) 0 = true)) ∧
    Power.il.pwr.cls = InputClass.inputLoss ∧ Base.run1.pwr.cls ≠ InputClass.inputLoss ∧
    Power.sp.mod.swapping = some { cmd := some { queue := (14 : Fin 256), opcode := (113 : Byte), tag := (7 : Word), desc := (3 : Word) : CmdRef }, started := 0 : Swap } ∧
    Power.r2.mod.ready = false ∧ Power.r2.pwr.cls ≠ InputClass.inputLoss ∧
    (∀ (e : FlashEcc), e ∈ [{ obj := FlashObject.trunk, corrected := true : FlashEcc }] → e.corrected = true)) ∧
    (Power.r2.mod.boot = some (Power.r2.mod.boot.getD Power.r2.mod)) :=
  ⟨by decide +kernel, rfl⟩

/-- O49: states and operands that meet the hypotheses of each clause. -/
theorem witness_FeaturesAndImages : (Base.run1.mod.ready = true ∧ Base.run1.mod.swapping = none ∧
    Base.run1.fea.committed = true ∧ Power.u129.mod.ready = true ∧ Power.u129.mod.swapping = none ∧
    Power.u129.fea.committed = false ∧
    Power.u130.inHand (14 : Fin 256) 115 = some (Power.cm (14 : Fin 256) (115 : Byte) []) ∧
    Power.u130.fea.committed = true ∧ Power.u130.flashUsed + 4 ≤ bf Power.u130.fls.limit 0 16 ∧
    Power.u131.inHand (14 : Fin 256) 115 = some (Power.cm (14 : Fin 256) (115 : Byte) []) ∧
    Power.u131.fea.committed = false ∧
    Power.u132.inHand (14 : Fin 256) 114 = some (Power.cm (14 : Fin 256) (114 : Byte) []) ∧
    Power.u133.inHand (14 : Fin 256) 112 = some (Power.cm (14 : Fin 256) (112 : Byte) (Power.ch 0 8)) ∧
    Power.u133.mod.swapping = none ∧ u32 (Power.cm (14 : Fin 256) (112 : Byte) (Power.ch 0 8)).body 4 % 4 = 0) ∧
    (4 ≤ u32 (Power.cm (14 : Fin 256) (112 : Byte) (Power.ch 0 8)).body 4 ∧
    u32 (Power.cm (14 : Fin 256) (112 : Byte) (Power.ch 0 8)).body 4 ≤ 4096 ∧ Power.u133.mod.load = none ∧
    u32 (Power.cm (14 : Fin 256) (112 : Byte) (Power.ch 0 8)).body 0 = 0 ∧ Power.u133.imagesUsed < 4 ∧
    (slice (Power.cm (14 : Fin 256) (112 : Byte) (Power.ch 0 8)).body 8 (u32 (Power.cm (14 : Fin 256) (112 : Byte) (Power.ch 0 8)).body 4)).length < 64 ∧
    Power.u134.inHand (14 : Fin 256) 112 = some (Power.cm (14 : Fin 256) (112 : Byte) (Power.ch 4 8)) ∧
    Power.u134.mod.swapping = none ∧ u32 (Power.cm (14 : Fin 256) (112 : Byte) (Power.ch 4 8)).body 4 % 4 = 0 ∧
    4 ≤ u32 (Power.cm (14 : Fin 256) (112 : Byte) (Power.ch 4 8)).body 4 ∧
    u32 (Power.cm (14 : Fin 256) (112 : Byte) (Power.ch 4 8)).body 4 ≤ 4096 ∧ Power.u134.mod.load = none ∧
    u32 (Power.cm (14 : Fin 256) (112 : Byte) (Power.ch 4 8)).body 0 ≠ 0 ∧
    Power.u135.inHand (14 : Fin 256) 112 = some (Power.cm (14 : Fin 256) (112 : Byte) (Power.ch 4 3)) ∧
    Power.u135.mod.swapping = none) ∧
    ((u32 (Power.cm (14 : Fin 256) (112 : Byte) (Power.ch 4 3)).body 4 % 4 ≠ 0 ∨ u32 (Power.cm (14 : Fin 256) (112 : Byte) (Power.ch 4 3)).body 4 < 4 ∨ 4096 < u32 (Power.cm (14 : Fin 256) (112 : Byte) (Power.ch 4 3)).body 4) ∧
    Power.u136.inHand (14 : Fin 256) 113 = some (Power.cm (14 : Fin 256) (113 : Byte) (Power.act 0)) ∧
    Power.u136.mod.swapping = none ∧ Power.u136.mod.img Power.u136.mod.other = none ∧
    Power.u137.inHand (14 : Fin 256) 113 = some (Power.cm (14 : Fin 256) (113 : Byte) (Power.act 0)) ∧
    Power.u137.mod.swapping = none ∧ Power.u137.mod.img Power.u137.mod.other = some (Power.im 3) ∧
    ((Power.im 3).major = Power.imr.major ∨ (u8 (Power.cm (14 : Fin 256) (113 : Byte) (Power.act 0)).body 0).testBit 0 = true) ∧
    Power.u137.mod.activate = none ∧
    Power.u138.inHand (14 : Fin 256) 113 = some (Power.cm (14 : Fin 256) (113 : Byte) (Power.act 0)) ∧
    Power.u138.mod.swapping = none ∧ Power.u138.mod.img Power.u138.mod.other = some (Power.im 4) ∧
    (¬((Power.im 4).major = Power.imr.major ∨ (u8 (Power.cm (14 : Fin 256) (113 : Byte) (Power.act 0)).body 0).testBit 0 = true)) ∧
    Power.u140.mod.swapping = none ∧ Power.u140.mod.img Power.u140.mod.other = some (Power.im 3)) ∧
    (Power.u140.mod.activate = some { cmd := none, atTb := 5 : FwActivate } ∧
    Power.u140.tb < { cmd := none, atTb := 5 : FwActivate }.atTb ∧ Power.u141.mod.swapping = none ∧
    Power.u141.mod.img Power.u141.mod.other = some (Power.im 3) ∧
    Power.u141.mod.activate = some { cmd := none, atTb := 0 : FwActivate } ∧
    { cmd := none, atTb := 0 : FwActivate }.atTb ≤ Power.u141.tb ∧ Power.u142.mod.swapping = none ∧
    Power.u142.mod.img Power.u142.mod.other = some (Power.im 3) ∧ Power.u142.mod.pushed = some 5 ∧
    alignUp 1048576 (5 + 1024000000) ≤ Power.u142.tb ∧ (Power.im 3).major = Power.imr.major ∧
    Power.u143.mod.swapping = none ∧ Power.u143.mod.img Power.u143.mod.other = some (Power.im 4) ∧
    Power.u143.mod.pushed = some 5 ∧ alignUp 1048576 (5 + 1024000000) ≤ Power.u143.tb) ∧
    ((Power.im 4).major ≠ Power.imr.major ∧
    Power.sp.mod.swapping = some { cmd := some { queue := (14 : Fin 256), opcode := (113 : Byte), tag := (7 : Word), desc := (3 : Word) : CmdRef }, started := 0 : Swap }) ∧
    (Power.u137.mod.img Power.u137.mod.running = some Power.imr) ∧
    (Power.u138.mod.img Power.u138.mod.running = some Power.imr) ∧
    (Power.u142.mod.img Power.u142.mod.running = some Power.imr) ∧
    (Power.u143.mod.img Power.u143.mod.running = some Power.imr) :=
  ⟨by decide +kernel, by decide +kernel, by decide +kernel, by decide +kernel, by decide +kernel, rfl, rfl, rfl, rfl⟩

/-- O50: states and operands that meet the hypotheses of each clause. -/
theorem witness_FlashAndMailbox : (Base.run1.fls.running = false ∧ Power.u144.fls.running = true ∧
    Power.u144.fls.jobs = [FlashJob.selected true] ∧ FlashJob.selected true = FlashJob.selected true ∧
    Power.u145.fls.running = true ∧
    Power.u145.fls.jobs = [FlashJob.pwrSave { queue := (12 : Fin 256), opcode := (105 : Byte), tag := (7 : Word), desc := (3 : Word) : CmdRef } (5 : Word)] ∧
    FlashJob.pwrSave { queue := (12 : Fin 256), opcode := (105 : Byte), tag := (7 : Word), desc := (3 : Word) : CmdRef } (5 : Word) = FlashJob.pwrSave { queue := (12 : Fin 256), opcode := (105 : Byte), tag := (7 : Word), desc := (3 : Word) : CmdRef } (5 : Word) ∧
    Power.u146.fls.running = true ∧
    Power.u146.fls.jobs = [FlashJob.feaSave { queue := (14 : Fin 256), opcode := (115 : Byte), tag := (7 : Word), desc := (3 : Word) : CmdRef } (Vector.replicate 4 (3 : Word))] ∧
    FlashJob.feaSave { queue := (14 : Fin 256), opcode := (115 : Byte), tag := (7 : Word), desc := (3 : Word) : CmdRef } (Vector.replicate 4 (3 : Word)) = FlashJob.feaSave { queue := (14 : Fin 256), opcode := (115 : Byte), tag := (7 : Word), desc := (3 : Word) : CmdRef } (Vector.replicate 4 (3 : Word)) ∧
    Power.u147.mailbox.go = true ∧ Power.u147.mailbox.taken = false ∧
    (Power.u147.qu (68 : Fin 256)).inHand = none ∧ (Power.u147.sl (0 : Fin 4)).up = true ∧
    bf Power.u147.mailbox.opcode 0 8 = 1) ∧ (bf (Power.u147.mailbox.word 0) 0 4 = 0 ∧
    Power.u148.mailbox.go = true ∧ Power.u148.mailbox.taken = false ∧
    (Power.u148.qu (68 : Fin 256)).inHand = none ∧ (Power.u148.sl (0 : Fin 4)).up = true ∧
    bf Power.u148.mailbox.opcode 0 8 = 1 ∧ bf (Power.u148.mailbox.word 0) 0 4 ≠ 0 ∧
    (Power.u148.sl (0 : Fin 4)).afe.calPend = [] ∧ (Power.u148.sl (0 : Fin 4)).afe.calRun = none ∧
    Power.u149.mailbox.go = true ∧ Power.u149.mailbox.taken = false ∧
    (Power.u149.qu (68 : Fin 256)).inHand = none ∧ (Power.u149.sl (0 : Fin 4)).up = true ∧
    bf Power.u149.mailbox.opcode 0 8 = 2 ∧ bf (Power.u149.mailbox.word 0) 0 4 ≠ 0) ∧
    ((Power.u149.sl (0 : Fin 4)).afe.calPend = [] ∧ (Power.u149.sl (0 : Fin 4)).afe.calRun = none ∧
    Power.u149.tb + 65536 ≤ BitVec.toNat (Power.u149.mailbox.word 2) * 4294967296 + BitVec.toNat (Power.u149.mailbox.word 1) ∧
    Power.u150.mailbox.go = true ∧ Power.u150.mailbox.taken = false ∧ Power.u150.mailbox.build = none) :=
  ⟨by decide +kernel, by decide +kernel, by decide +kernel⟩

/-- O59: states and operands that meet the hypotheses of each clause. -/
theorem witness_TbReadCoherent : Radio.tbs.mod.ready = true ∧ Radio.tbs.mod.swapping = none :=
  by decide +kernel

/-- O60: states and operands that meet the hypotheses of each clause. -/
theorem witness_ModresetKey : (5 : Word) ≠ (1511456769 : Word) :=
  by decide +kernel

/-- O51: states and operands that meet the hypotheses of each clause. -/
theorem witness_TxKeyUp : ((Radio.tS.sl (0 : Fin 4)).inForce = some Base.f1 ∧ Base.f1.tx = some Radio.p10 ∧
    Radio.tS.inHand (localQ (0 : Fin 4) (txCmdQueue Radio.p10)) 80 = some (Radio.cm Radio.tq (80 : Byte) (Radio.txb [(1 : Byte), (2 : Byte), (3 : Byte)])) ∧
    (Radio.tS.sl (0 : Fin 4)).tx.state = TxState.idle ∧ (Radio.tS.sl (0 : Fin 4)).tx.lock = false ∧
    txBodyOk (Radio.cm Radio.tq (80 : Byte) (Radio.txb [(1 : Byte), (2 : Byte), (3 : Byte)])).body Radio.tS.tb = true ∧
    (u8 (Radio.cm Radio.tq (80 : Byte) (Radio.txb [(1 : Byte), (2 : Byte), (3 : Byte)])).body 0).testBit 0 = false ∧
    (Radio.tS.sl (0 : Fin 4)).afe.bgRun = false ∧ 0 < Base.f1.txTokens ∧
    (Radio.tP.sl (0 : Fin 4)).tx.cmd = some (Radio.kOf Radio.tP) ∧
    ((Radio.tP.sl (0 : Fin 4)).tx.state = TxState.prepare ∨ (Radio.tP.sl (0 : Fin 4)).tx.state = TxState.wait) ∧
    (Radio.tP.sl (0 : Fin 4)).synthReady (Radio.kOf Radio.tP).freq = true ∧
    (Radio.kOf Radio.tP).tokens ≤ Radio.tP.holds (10 + 0) ∧ (Radio.kOf Radio.tP).holdFrom ≤ Radio.tP.tb ∧
    (Radio.tP.sl (0 : Fin 4)).tx.winOpen = false) ∧ ((Radio.kOf Radio.tP).tagging = false ∧
    (Radio.u152.sl (0 : Fin 4)).tx.cmd = some (Radio.kOf (Radio.ph TxPhase.req)) ∧
    (Radio.kOf (Radio.ph TxPhase.req)).phase = TxPhase.req ∧
    (Radio.kOf (Radio.ph TxPhase.req)).phaseAt + 1024 * (Radio.kOf (Radio.ph TxPhase.req)).coexLead ≤ Radio.u152.real ∧
    (Radio.u153.sl (0 : Fin 4)).tx.cmd = some (Radio.kOf (Radio.ph TxPhase.tr)) ∧
    (Radio.kOf (Radio.ph TxPhase.tr)).phase = TxPhase.tr ∧
    (Radio.kOf (Radio.ph TxPhase.tr)).phaseAt + 1024 * (Radio.kOf (Radio.ph TxPhase.tr)).trLead ≤ Radio.u153.real ∧
    (Radio.u153.sl (0 : Fin 4)).synthReady (Radio.kOf (Radio.ph TxPhase.tr)).freq = true ∧
    (Radio.u153.sl (0 : Fin 4)).tx.gnt = false ∧ (Radio.kOf (Radio.ph TxPhase.tr)).gntIgnore = false ∧
    (Radio.u154.sl (0 : Fin 4)).tx.cmd = some (Radio.kOf (Radio.ph TxPhase.tr)) ∧
    (Radio.kOf (Radio.ph TxPhase.tr)).phaseAt + 1024 * (Radio.kOf (Radio.ph TxPhase.tr)).trLead ≤ Radio.u154.real ∧
    (Radio.u154.sl (0 : Fin 4)).synthReady (Radio.kOf (Radio.ph TxPhase.tr)).freq = true ∧
    ((Radio.u154.sl (0 : Fin 4)).tx.gnt = true ∨ (Radio.kOf (Radio.ph TxPhase.tr)).gntIgnore = true) ∧
    (Radio.u155.sl (0 : Fin 4)).tx.cmd = some (Radio.kOf (Radio.ph TxPhase.pa))) ∧
    ((Radio.kOf (Radio.ph TxPhase.pa)).phase = TxPhase.pa ∧
    (Radio.kOf (Radio.ph TxPhase.pa)).phaseAt + 1024 * (Radio.kOf (Radio.ph TxPhase.pa)).paLead ≤ Radio.u155.real ∧
    (Radio.u155.sl (0 : Fin 4)).synthReady (Radio.kOf (Radio.ph TxPhase.pa)).freq = true) :=
  ⟨by decide +kernel, by decide +kernel, by decide +kernel⟩

/-- O52: states and operands that meet the hypotheses of each clause. -/
theorem witness_TxBursts : ((Radio.u158.sl (0 : Fin 4)).tx.cmd = some (Radio.kOf (Radio.ph TxPhase.burst)) ∧
    (Radio.kOf (Radio.ph TxPhase.burst)).phase = TxPhase.burst ∧
    (Radio.kOf (Radio.ph TxPhase.burst)).phaseAt + (Radio.kOf (Radio.ph TxPhase.burst)).symTicks ((Radio.kOf (Radio.ph TxPhase.burst)).bodySyms (Radio.kOf (Radio.ph TxPhase.burst)).burst) ≤ Radio.u158.real ∧
    (Radio.rd.sl (0 : Fin 4)).tx.cmd = some (Radio.kOf Radio.rd) ∧
    (Radio.kOf Radio.rd).phase = TxPhase.rampDown ∧
    (Radio.kOf Radio.rd).phaseAt + (Radio.kOf Radio.rd).symTicks (Radio.kOf Radio.rd).endSym ≤ Radio.rd.real ∧
    (Radio.kOf Radio.rd).cut = false ∧ (Radio.rd.sl (0 : Fin 4)).tx.cancelReq = false ∧
    (Radio.kOf Radio.rd).total ≤ (Radio.kOf Radio.rd).burst + 1 ∧
    ((Radio.rd Radio.long).sl (0 : Fin 4)).tx.cmd = some (Radio.kOf (Radio.rd Radio.long)) ∧
    (Radio.kOf (Radio.rd Radio.long)).phase = TxPhase.rampDown ∧
    (Radio.kOf (Radio.rd Radio.long)).phaseAt + (Radio.kOf (Radio.rd Radio.long)).symTicks (Radio.kOf (Radio.rd Radio.long)).endSym ≤ (Radio.rd Radio.long).real ∧
    (Radio.kOf (Radio.rd Radio.long)).cut = false ∧
    ((Radio.rd Radio.long).sl (0 : Fin 4)).tx.cancelReq = false ∧
    (Radio.kOf (Radio.rd Radio.long)).burst + 1 < (Radio.kOf (Radio.rd Radio.long)).total) ∧
    ((Radio.u159.sl (0 : Fin 4)).tx.cmd = some (Radio.kOf (Radio.ph TxPhase.gap Radio.long)) ∧
    (Radio.kOf (Radio.ph TxPhase.gap Radio.long)).phase = TxPhase.gap ∧
    (Radio.kOf (Radio.ph TxPhase.gap Radio.long)).phaseAt + 1024000 ≤ Radio.u159.real ∧
    (Radio.u160.sl (0 : Fin 4)).tx.cmd = some (Radio.kOf (Radio.ph TxPhase.paOff)) ∧
    (Radio.kOf (Radio.ph TxPhase.paOff)).phase = TxPhase.paOff ∧
    (Radio.kOf (Radio.ph TxPhase.paOff)).phaseAt + 1024 * (Radio.kOf (Radio.ph TxPhase.paOff)).paLead ≤ Radio.u160.real ∧
    (Radio.u161.sl (0 : Fin 4)).tx.cmd = some (Radio.kOf (Radio.ph TxPhase.trOff)) ∧
    (Radio.kOf (Radio.ph TxPhase.trOff)).phase = TxPhase.trOff ∧
    (Radio.kOf (Radio.ph TxPhase.trOff)).phaseAt + 1024 * (Radio.kOf (Radio.ph TxPhase.trOff)).trLead ≤ Radio.u161.real ∧
    (Radio.u161.sl (0 : Fin 4)).tx.removed = false ∧ (Radio.u161.sl (0 : Fin 4)).tx.windows = []) :=
  ⟨by decide +kernel, by decide +kernel⟩

/-- O53: states and operands that meet the hypotheses of each clause. -/
theorem witness_TxAborts : ((Radio.u163.sl (0 : Fin 4)).tx.cmd = some (Radio.kOf Radio.tS2) ∧
    (Radio.u163.sl (0 : Fin 4)).tx.removed = false ∧ (Radio.u163.sl (0 : Fin 4)).tx.state = TxState.prepare ∧
    Radio.u163.txReady (0 : Fin 4) (Radio.kOf Radio.tS2) = false ∧
    (Radio.kOf Radio.tS2).holdFrom + 1024 * (Radio.kOf Radio.tS2).holdUs ≤ Radio.u163.tb ∧
    (Radio.kOf Radio.tS2).inhibit = false ∧
    (Radio.u164.sl (0 : Fin 4)).tx.cmd = some (Radio.kOf (Radio.ph TxPhase.gntWait)) ∧
    (Radio.u164.sl (0 : Fin 4)).tx.removed = false ∧
    (Radio.kOf (Radio.ph TxPhase.gntWait)).phase = TxPhase.gntWait ∧
    (Radio.kOf (Radio.ph TxPhase.gntWait)).phaseAt + 1024 * (Radio.kOf (Radio.ph TxPhase.gntWait)).gntWait ≤ Radio.u164.real ∧
    (Radio.u165.sl (0 : Fin 4)).tx.cmd = some (Radio.kOf (Radio.ph TxPhase.gntWait)) ∧
    (Radio.u165.sl (0 : Fin 4)).tx.removed = false ∧
    (Radio.u165.sl (0 : Fin 4)).synthReady (Radio.kOf (Radio.ph TxPhase.gntWait)).freq = true ∧
    (Radio.u166.sl (0 : Fin 4)).tx.cmd = some (Radio.kOf (Radio.ph TxPhase.burst)) ∧
    (Radio.u166.sl (0 : Fin 4)).tx.removed = false) ∧
    ((Radio.kOf (Radio.ph TxPhase.burst)).phase = TxPhase.burst ∧
    (Radio.kOf (Radio.ph TxPhase.burst)).gntIgnore = false ∧
    (Radio.fl.sl (0 : Fin 4)).tx.cmd = some (Radio.kOf Radio.fl) ∧
    (Radio.fl.sl (0 : Fin 4)).tx.removed = false ∧ (Radio.fl.sl (0 : Fin 4)).tx.paEn = true ∧
    (Radio.kOf Radio.fl).phase = TxPhase.burst ∧
    (Radio.kOf Radio.fl).ampFault ([(100 : BitVec 12), (100 : BitVec 12)].zip [(51 : BitVec 12), (52 : BitVec 12)]) Radio.fl.real = true ∧
    (Radio.kOf Radio.fl).ampFault ([(100 : BitVec 12), (100 : BitVec 12)].zip [(51 : BitVec 12), (50 : BitVec 12)]) Radio.fl.real = false ∧
    (Radio.u167.sl (0 : Fin 4)).tx.cmd = some (Radio.kOf (Radio.ph TxPhase.abbrev)) ∧
    (Radio.u167.sl (0 : Fin 4)).tx.removed = false ∧
    (Radio.kOf (Radio.ph TxPhase.abbrev)).phase = TxPhase.abbrev ∧
    (Radio.kOf (Radio.ph TxPhase.abbrev)).phaseAt + 8192 ≤ Radio.u167.real ∧
    (Radio.u167.sl (0 : Fin 4)).tx.resetAfter = none ∧
    (Radio.tP.sl (0 : Fin 4)).tx.cmd = some (Radio.kOf Radio.tP) ∧
    (Radio.tP.sl (0 : Fin 4)).tx.removed = false) ∧ ((Radio.tP.sl (0 : Fin 4)).ctl.state = SliceState.running ∧
    (Radio.kOf Radio.tP).phase = TxPhase.none ∧ (Radio.kOf Radio.tP).inhibit = false ∧
    (Base.run1.sl (0 : Fin 4)).tx.cmd = none ∧ (Base.run1.sl (0 : Fin 4)).ctl.state.served = true ∧
    (Radio.u168.sl (0 : Fin 4)).ctl.state.served = true ∧
    (Radio.u168.sl (0 : Fin 4)).tx.state = TxState.inhibit) :=
  ⟨by decide +kernel, by decide +kernel, by decide +kernel⟩

/-- O54: states and operands that meet the hypotheses of each clause. -/
theorem witness_TxSynthAndWindows : ((Radio.wl.sl (0 : Fin 4)).tx.lock = false ∧
    0 < (Radio.wl.sl (0 : Fin 4)).tx.wantFreq ∧ (Radio.wl.sl (0 : Fin 4)).clk.coast = false ∧
    (Radio.wl.sl (0 : Fin 4)).afe.calRun = none ∧ (Radio.wl.sl (0 : Fin 4)).tx.cmd = none ∧
    (Radio.lk.sl (0 : Fin 4)).tx.lock = true ∧ (Radio.lk.sl (0 : Fin 4)).tx.cmd = none ∧
    Radio.u171.inHand (localQ (0 : Fin 4) 52) 81 = some (Radio.cm (localQ (0 : Fin 4) 52) (81 : Byte) Radio.rw_) ∧
    (Radio.u171.sl (0 : Fin 4)).up = true ∧
    1000 ≤ u32 (Radio.cm (localQ (0 : Fin 4) 52) (81 : Byte) Radio.rw_).body 8 ∧
    u32 (Radio.cm (localQ (0 : Fin 4) 52) (81 : Byte) Radio.rw_).body 8 ≤ 10000000 ∧
    u8 (Radio.cm (localQ (0 : Fin 4) 52) (81 : Byte) Radio.rw_).body 12 < 2 ∧
    (Radio.u171.sl (0 : Fin 4)).tx.windows.length < 4 ∧
    Radio.u171.tb < u64 (Radio.cm (localQ (0 : Fin 4) 52) (81 : Byte) Radio.rw_).body 0 ∧
    (∀ (w : RxWin), w ∈ (Radio.u171.sl (0 : Fin 4)).tx.windows → Radio.u171.tb < w.start)) ∧
    ((Radio.u171.sl (0 : Fin 4)).tx.keyed = false ∧ (Radio.win.sl (0 : Fin 4)).tx.keyed = false ∧
    (Radio.win1.sl (0 : Fin 4)).tx.windows = [{ cmd := { queue := (68 : Fin 256), opcode := (81 : Byte), tag := (7 : Word), desc := (3 : Word) : CmdRef }, start := 0, stop := 5000, priority := true, opened := true, ungranted := 7000, mark := 2 : RxWin }] ∧
    { cmd := { queue := (68 : Fin 256), opcode := (81 : Byte), tag := (7 : Word), desc := (3 : Word) : CmdRef }, start := 0, stop := 5000, priority := true, opened := true, ungranted := 7000, mark := 2 : RxWin }.stop ≤ Radio.win1.tb ∧
    (Radio.win1.sl (0 : Fin 4)).tx.cmd = none ∧
    (Radio.u172.sl (0 : Fin 4)).tx.windows = [{ cmd := { queue := (68 : Fin 256), opcode := (81 : Byte), tag := (7 : Word), desc := (3 : Word) : CmdRef }, start := 0, stop := 5000, priority := true, opened := true, ungranted := 7000, mark := 2 : RxWin }] ∧
    Radio.u172.tb < { cmd := { queue := (68 : Fin 256), opcode := (81 : Byte), tag := (7 : Word), desc := (3 : Word) : CmdRef }, start := 0, stop := 5000, priority := true, opened := true, ungranted := 7000, mark := 2 : RxWin }.stop) :=
  ⟨by decide +kernel, by decide +kernel⟩

/-- O55: states and operands that meet the hypotheses of each clause. -/
theorem witness_AudioHalves : ((Audio.u173.sl (0 : Fin 4)).inForce = some Base.f1 ∧
    Base.f1.audio = some Audio.p11 ∧
    (((Audio.u173.sl (0 : Fin 4)).sai.half true).state = HalfState.off ∨ ((Audio.u173.sl (0 : Fin 4)).sai.half true).state = HalfState.stopped ∨ ((Audio.u173.sl (0 : Fin 4)).sai.half true).state = HalfState.faulted) ∧
    (Audio.u174.sl (0 : Fin 4)).inForce = some Base.f1 ∧
    ((Audio.u174.sl (0 : Fin 4)).sai.half true).state = HalfState.stalled ∧
    (Audio.u176.sl (0 : Fin 4)).inForce = some Base.f1 ∧ true = true ∧ auMaster Audio.p11 true = true ∧
    ((Audio.u176.sl (0 : Fin 4)).sai.half true).state = HalfState.starting ∧
    ((Audio.u176.sl (0 : Fin 4)).sai.half true).draining = false ∧
    (Audio.u176.sl (0 : Fin 4)).clk.coast = false ∧
    ((Audio.u176.sl (0 : Fin 4)).sai.half true).fifo.length + (maskSlots (auRxMask Audio.p11)).length ≤ 64 * (maskSlots (auRxMask Audio.p11)).length ∧
    (Audio.ga.sl (0 : Fin 4)).inForce = some Audio.fNoA ∧ Audio.fNoA.audio = some Audio.p11 ∧ false = false) ∧
    ((∀ (r : FormeRec), r ∈ Audio.fNoA.ofType 4 → dmAudio r.payload = false) ∧
    (Audio.ga.sl (0 : Fin 4)).sai.source = none ∧ (Audio.ga.sl (0 : Fin 4)).sai.srcGate = none ∧
    (Audio.ga.sl (0 : Fin 4)).sai.rx.grid = none ∧
    ((Audio.ga.sl (0 : Fin 4)).sai.half false).grid = some { at_ := 0, k := 0, base := 0 : Grid } ∧
    { at_ := 0, k := 0, base := 0 : Grid }.at_ + { at_ := 0, k := 0, base := 0 : Grid }.k * 1024000000 / auRate Audio.p11 ≤ Audio.ga.tb ∧
    ((Audio.ga.sl (0 : Fin 4)).sai.half false).active = true ∧ (Audio.ga.sl (0 : Fin 4)).clk.coast = false ∧
    ((Audio.ga.sl (0 : Fin 4)).sai.half false).fifo.length + (maskSlots (auTxMask Audio.p11)).length ≤ 64 * (maskSlots (auTxMask Audio.p11)).length ∧
    (Audio.u177.sl (0 : Fin 4)).inForce = some Audio.fSl ∧ Audio.fSl.audio = some Audio.p11s ∧
    auMaster Audio.p11s true = false ∧
    4 * ((Audio.u177.sl (0 : Fin 4)).sai.half true).refNum ≤ (Audio.u177.real - ((Audio.u177.sl (0 : Fin 4)).sai.half true).edge) * ((Audio.u177.sl (0 : Fin 4)).sai.half true).refDen ∧
    (((Audio.u177.sl (0 : Fin 4)).sai.half true).state = HalfState.starting ∨ ((Audio.u177.sl (0 : Fin 4)).sai.half true).state = HalfState.running) ∧
    ((Audio.u177.sl (0 : Fin 4)).sai.half true).state ≠ HalfState.off) ∧
    (((Audio.u177.sl (0 : Fin 4)).sai.half true).state ≠ HalfState.faulted ∧
    (Audio.u179.sl (0 : Fin 4)).inForce = some Audio.fSl ∧
    (Audio.u179.real - ((Audio.u179.sl (0 : Fin 4)).sai.half true).edge) * ((Audio.u179.sl (0 : Fin 4)).sai.half true).refDen < 4 * ((Audio.u179.sl (0 : Fin 4)).sai.half true).refNum ∧
    (Audio.u180.sl (0 : Fin 4)).inForce = some Base.f1 ∧
    ((Audio.u180.sl (0 : Fin 4)).sai.half true).gate = some { began := 0, opening := true, chans := [], last := [] : Gate } ∧
    { began := 0, opening := true, chans := [], last := [] : Gate }.began + 1024000 * auZcMs Audio.p11 ≤ Audio.u180.real ∧
    (Audio.u182.sl (0 : Fin 4)).inForce = some Base.f1 ∧
    (((Audio.u182.sl (0 : Fin 4)).sai.half true).state = HalfState.stopped ∨ ((Audio.u182.sl (0 : Fin 4)).sai.half true).state = HalfState.faulted) ∧
    (Audio.u184.sl (0 : Fin 4)).inForce = some Base.f1 ∧
    ((Audio.u184.sl (0 : Fin 4)).sai.half false).state ≠ HalfState.stopped ∧
    ((Audio.u184.sl (0 : Fin 4)).sai.half false).state ≠ HalfState.faulted ∧
    ((Audio.u184.sl (0 : Fin 4)).sai.half false).state = HalfState.running ∧
    ((Audio.u182.sl (0 : Fin 4)).sai.half true).state ≠ HalfState.running ∧
    ((Audio.u182.sl (0 : Fin 4)).sai.half true).state ≠ HalfState.stalled) :=
  ⟨by decide +kernel, by decide +kernel, by decide +kernel⟩

/-- O56: states and operands that meet the hypotheses of each clause. -/
theorem witness_Registrations : (bf Audio.u186.trk.regCfg 0 4 = 0 ∧ bf Audio.u187.trk.regCfg 0 4 ≠ 0 ∧
    Audio.u187.trk.lastRegIn = some 0 ∧ Audio.u187.real < 0 + 1024 ∧ bf Base.run1.trk.regCfg 0 4 ≠ 0 ∧
    (∀ (t : Nat), Base.run1.trk.lastRegIn = some t → t + 1024 ≤ Base.run1.real) ∧
    bit Base.run1.trk.regCfg 31 = false ∧ Base.run1.trk.roomFor (Base.run1.tb + 2048) = true ∧
    bf Audio.full.trk.regCfg 0 4 ≠ 0 ∧
    (∀ (t : Nat), Audio.full.trk.lastRegIn = some t → t + 1024 ≤ Audio.full.real) ∧
    bit Audio.full.trk.regCfg 31 = false ∧ Audio.full.trk.roomFor (Audio.full.tb + 2048) = false ∧
    Audio.u188.inHand (13 : Fin 256) 96 = some (Audio.cm (13 : Fin 256) (96 : Byte) (Audio.ra 70000 5)) ∧
    u8 (Audio.cm (13 : Fin 256) (96 : Byte) (Audio.ra 70000 5)).body 9 = 0 ∧
    u8 (Audio.cm (13 : Fin 256) (96 : Byte) (Audio.ra 70000 5)).body 8 < 16) ∧
    (Audio.u188.tb + 65536 ≤ u64 (Audio.cm (13 : Fin 256) (96 : Byte) (Audio.ra 70000 5)).body 0 ∧
    u64 (Audio.cm (13 : Fin 256) (96 : Byte) (Audio.ra 70000 5)).body 0 ≤ Audio.u188.tb + 1099511627776 ∧
    Audio.u188.trk.roomFor (u64 (Audio.cm (13 : Fin 256) (96 : Byte) (Audio.ra 70000 5)).body 0) = true ∧
    Audio.u189.inHand (13 : Fin 256) 96 = some (Audio.cm (13 : Fin 256) (96 : Byte) (Audio.ra 70000 5)) ∧
    Audio.u189.tb + 65536 ≤ u64 (Audio.cm (13 : Fin 256) (96 : Byte) (Audio.ra 70000 5)).body 0 ∧
    u64 (Audio.cm (13 : Fin 256) (96 : Byte) (Audio.ra 70000 5)).body 0 ≤ Audio.u189.tb + 1099511627776 ∧
    Audio.u189.trk.roomFor (u64 (Audio.cm (13 : Fin 256) (96 : Byte) (Audio.ra 70000 5)).body 0) = false ∧
    Audio.u190.inHand (13 : Fin 256) 96 = some (Audio.cm (13 : Fin 256) (96 : Byte) (Audio.ra 700 5)) ∧
    u8 (Audio.cm (13 : Fin 256) (96 : Byte) (Audio.ra 700 5)).body 9 = 0 ∧
    u8 (Audio.cm (13 : Fin 256) (96 : Byte) (Audio.ra 700 5)).body 8 < 16 ∧
    u64 (Audio.cm (13 : Fin 256) (96 : Byte) (Audio.ra 700 5)).body 0 < Audio.u190.tb + 65536 ∧
    Audio.u191.inHand (13 : Fin 256) 96 = some (Audio.cm (13 : Fin 256) (96 : Byte) (Audio.ra 1099511627777 5)) ∧
    u8 (Audio.cm (13 : Fin 256) (96 : Byte) (Audio.ra 1099511627777 5)).body 9 = 0 ∧
    u8 (Audio.cm (13 : Fin 256) (96 : Byte) (Audio.ra 1099511627777 5)).body 8 < 16 ∧
    Audio.u191.tb + 65536 ≤ u64 (Audio.cm (13 : Fin 256) (96 : Byte) (Audio.ra 1099511627777 5)).body 0) ∧
    (Audio.u191.tb + 1099511627776 < u64 (Audio.cm (13 : Fin 256) (96 : Byte) (Audio.ra 1099511627777 5)).body 0 ∧
    (Audio.upS.port (1 : Fin 3)).state = PortState.upstream ∧
    (∀ (q : Fin 3), (Audio.upS.port q).state ≠ PortState.child) ∧
    (Audio.fr 2 0 9 (be 8 70000 ++ be 1 5 ++ List.replicate 7 (0 : Byte))).dir = (2 : BitVec 2) ∧
    16 ≤ (Audio.fr 2 0 9 (be 8 70000 ++ be 1 5 ++ List.replicate 7 (0 : Byte))).payload.length ∧
    (Audio.fr 2 0 9 (be 8 70000 ++ be 1 5 ++ List.replicate 7 (0 : Byte))).payload.length ≤ 256 ∧
    (u8 (Audio.fr 2 0 9 (be 8 70000 ++ be 1 5 ++ List.replicate 7 (0 : Byte))).payload 9).testBit 0 = false ∧
    Audio.upS.tb + 65536 ≤ b64 (Audio.fr 2 0 9 (be 8 70000 ++ be 1 5 ++ List.replicate 7 (0 : Byte))).payload 0 ∧
    b64 (Audio.fr 2 0 9 (be 8 70000 ++ be 1 5 ++ List.replicate 7 (0 : Byte))).payload 0 ≤ Audio.upS.tb + 1099511627776 ∧
    Audio.upS.trk.roomFor (b64 (Audio.fr 2 0 9 (be 8 70000 ++ be 1 5 ++ List.replicate 7 (0 : Byte))).payload 0) = true ∧
    Audio.u192.inHand (13 : Fin 256) 97 = some (Audio.cm (13 : Fin 256) (97 : Byte) (Audio.ra 70000 0)) ∧
    u8 (Audio.cm (13 : Fin 256) (97 : Byte) (Audio.ra 70000 0)).body 8 = 0 ∧
    Audio.u193.trk.nextReg = some { tick := 70000, slices := (5 : BitVec 4), sources := (7 : BitVec 4), unaligned := false, hops := 0, origin := 0 : PendReg } ∧
    { tick := 70000, slices := (5 : BitVec 4), sources := (7 : BitVec 4), unaligned := false, hops := 0, origin := 0 : PendReg }.tick ≤ Audio.u193.tb ∧
    Audio.u193.tbm.warpAt { tick := 70000, slices := (5 : BitVec 4), sources := (7 : BitVec 4), unaligned := false, hops := 0, origin := 0 : PendReg }.tick = false) ∧
    ((∀ (c : Fin 4) (t : Nat), (Audio.u193.sl c).lockReady Audio.u193.tb = some t → { tick := 70000, slices := (5 : BitVec 4), sources := (7 : BitVec 4), unaligned := false, hops := 0, origin := 0 : PendReg }.tick < t) ∧
    (∀ (e : PendReg), Audio.pendS.trk.nextReg = some e → Audio.pendS.tb < e.tick ∨ Audio.pendS.tbm.warpAt e.tick = true ∨ ∃ c t, (Audio.pendS.sl c).lockReady Audio.pendS.tb = some t ∧
    t ≤ e.tick) ∧ Audio.u194.inHand (13 : Fin 256) 98 = some (Audio.cm (13 : Fin 256) (98 : Byte) []) ∧
    Audio.u194.flashUsed + 4 ≤ bf Audio.u194.fls.limit 0 16 ∧
    Audio.u195.inHand (13 : Fin 256) 99 = some (Audio.cm (13 : Fin 256) (99 : Byte) (Base.b 4 66051 ++ Base.b 4 5)) ∧
    (u8 (Audio.cm (13 : Fin 256) (99 : Byte) (Base.b 4 66051 ++ Base.b 4 5)).body 0 < 32 ∧
    queueIsCmd (qn (u8 (Audio.cm (13 : Fin 256) (99 : Byte) (Base.b 4 66051 ++ Base.b 4 5)).body 1)) = false ∧
    u8 (Audio.cm (13 : Fin 256) (99 : Byte) (Base.b 4 66051 ++ Base.b 4 5)).body 2 < 2 ∧
    u32 (Audio.cm (13 : Fin 256) (99 : Byte) (Base.b 4 66051 ++ Base.b 4 5)).body 4 < 262144) ∧
    Audio.u196.inHand (13 : Fin 256) 99 = some (Audio.cm (13 : Fin 256) (99 : Byte) (Base.b 4 68611 ++ Base.b 4 5)) ∧
    (¬(u8 (Audio.cm (13 : Fin 256) (99 : Byte) (Base.b 4 68611 ++ Base.b 4 5)).body 0 < 32 ∧
    queueIsCmd (qn (u8 (Audio.cm (13 : Fin 256) (99 : Byte) (Base.b 4 68611 ++ Base.b 4 5)).body 1)) = false ∧
    u8 (Audio.cm (13 : Fin 256) (99 : Byte) (Base.b 4 68611 ++ Base.b 4 5)).body 2 < 2 ∧
    u32 (Audio.cm (13 : Fin 256) (99 : Byte) (Base.b 4 68611 ++ Base.b 4 5)).body 4 < 262144))) :=
  ⟨by decide +kernel, by decide +kernel, by decide +kernel, by decide +kernel⟩

/-- O57: states and operands that meet the hypotheses of each clause. -/
theorem witness_TrunkLinks : ((Base.run1.port (1 : Fin 3)).state = PortState.down ∧
    (Base.run1.port (1 : Fin 3)).sending = none ∧ (Audio.upS.port (1 : Fin 3)).state ≠ PortState.down ∧
    ((Audio.bf0 3 5).frame.dir = (3 : BitVec 2) ∨ (Audio.bf0 3 5).frame.hops = (63 : BitVec 6) ∨ (Audio.bf0 3 5).cls = (0 : BitVec 2)) ∧
    (Audio.chA.port (1 : Fin 3)).state ≠ PortState.down ∧ (Audio.bf0 0 5).frame.dir = (0 : BitVec 2) ∧
    (Audio.chA.port (1 : Fin 3)).state = PortState.child ∧ Audio.chA.trk.tree = TreeState.attached ∧
    Audio.chA.trk.upPort = none ∧ (2 : Fin 3) ≠ (1 : Fin 3) ∧ Base.run1.mod.ready = true ∧
    Base.run1.trk.tree = TreeState.detached ∧ (Audio.chS.port (1 : Fin 3)).state ≠ PortState.down ∧
    Audio.chS.trk.tree ≠ TreeState.attached ∧ Audio.chS.trk.upPort ≠ some (1 : Fin 3)) ∧
    (Audio.upS.trk.tree = TreeState.attached ∧ Audio.upS.trk.upPort = some (1 : Fin 3) ∧
    Audio.upS.tbm.qualified 2 = false ∧ Base.run1.trk.upPort ≠ some (1 : Fin 3) ∧
    ((Audio.chS.port (1 : Fin 3)).state = PortState.upstream ∨ (Audio.chS.port (1 : Fin 3)).state = PortState.child ∨ (Audio.chS.port (1 : Fin 3)).state = PortState.standby ∨ (Audio.chS.port (1 : Fin 3)).state = PortState.looped) ∧
    Audio.chS.real < (Audio.chS.port (1 : Fin 3)).heard + 1024000 ∧
    ((Audio.u197.port (1 : Fin 3)).state = PortState.upstream ∨ (Audio.u197.port (1 : Fin 3)).state = PortState.child ∨ (Audio.u197.port (1 : Fin 3)).state = PortState.standby ∨ (Audio.u197.port (1 : Fin 3)).state = PortState.looped) ∧
    (Audio.u197.port (1 : Fin 3)).heard + 1024000 ≤ Audio.u197.real ∧ Audio.u197.trk.tree ≠ TreeState.attached ∧
    ((Audio.pb.port (1 : Fin 3)).state = PortState.down ∨ (Audio.pb.port (1 : Fin 3)).state = PortState.probe ∨ (Audio.pb.port (1 : Fin 3)).state = PortState.foreign) ∧
    (Audio.u198.port (1 : Fin 3)).state = PortState.probe ∧
    (Audio.u198.port (1 : Fin 3)).heard + 102400000 ≤ Audio.u198.real ∧
    ((Audio.upS.port (1 : Fin 3)).state ≠ PortState.probe ∨ Audio.upS.real < (Audio.upS.port (1 : Fin 3)).heard + 102400000) ∧
    (∀ (q : Fin 3), (Base.run1.port q).state = PortState.down) ∧
    (Audio.upS.port (1 : Fin 3)).qControl.length < 16) ∧ (Audio.ann.dir = (3 : BitVec 2) ∧
    12 ≤ Audio.ann.payload.length ∧ Audio.ann.payload.length ≤ 256 ∧ Audio.u199.trk.tree = TreeState.detached ∧
    Audio.u199.trk.canAttach = false ∧ Audio.u199.trk.upPort = none ∧
    ((Audio.u199.port (1 : Fin 3)).state = PortState.probe ∨ (Audio.u199.port (1 : Fin 3)).state = PortState.foreign) ∧
    Audio.u199.addr = 0 ∧ (Audio.fr 0 0 9 (List.replicate 12 (0 : Byte))).dir = (0 : BitVec 2) ∧
    (Audio.fr 0 0 9 (List.replicate 12 (0 : Byte))).dest = (0 : BitVec 18) ∧
    (Audio.fr 0 0 9 (List.replicate 12 (0 : Byte))).turn = false ∧
    8 ≤ (Audio.fr 0 0 9 (List.replicate 12 (0 : Byte))).payload.length ∧
    (Audio.fr 0 0 9 (List.replicate 12 (0 : Byte))).payload.length ≤ 256 ∧
    (Audio.chS.port (1 : Fin 3)).state = PortState.child ∧ Audio.chS.trk.tree = TreeState.crown) ∧
    (Audio.det.trk.tree = TreeState.detached ∧ Audio.det.trk.canAttach = false ∧
    Audio.det.trk.detachedAt + 1024000 * bf Audio.det.trk.cfg 8 4 ≤ Audio.det.real ∧
    Audio.chS.mod.ready = true ∧ Audio.chS.mod.swapping = none ∧ Base.run1.mod.swapping = none ∧
    Audio.upS.mod.ready = true ∧ Audio.upS.mod.swapping = none ∧
    (¬(bf (768 : Word) 8 4 = 0 ∨ bf (768 : Word) 0 2 = 3 ∨ bf (768 : Word) 0 2 = 1 ∧
    bf Base.run1.trk.addr 0 18 = 0)) ∧ bf (768 : Word) 0 2 = bf Base.run1.trk.cfg 0 2 ∧
    (bf (3 : Word) 8 4 = 0 ∨ bf (3 : Word) 0 2 = 3 ∨ bf (3 : Word) 0 2 = 1 ∧ bf Base.run1.trk.addr 0 18 = 0) ∧
    (¬(bf (258 : Word) 8 4 = 0 ∨ bf (258 : Word) 0 2 = 3 ∨ bf (258 : Word) 0 2 = 1 ∧
    bf Audio.upS.trk.addr 0 18 = 0)) ∧ bf (258 : Word) 0 2 = 2 ∧ bf Audio.upS.trk.cfg 0 2 ≠ 2 ∧
    (Audio.eg.port (1 : Fin 3)).state ≠ PortState.down) ∧ ((Audio.eg.port (1 : Fin 3)).ended = none ∧
    (Audio.eg.port (1 : Fin 3)).qTime = none ∧ (Audio.eg.port (1 : Fin 3)).sending = none ∧
    (Audio.eg.port (1 : Fin 3)).qControl = [Audio.fc] ∧ Audio.fc.cls = FrameClass.control ∧
    (Audio.eg2.port (1 : Fin 3)).state ≠ PortState.down ∧ (Audio.eg2.port (1 : Fin 3)).ended = none ∧
    (Audio.eg2.port (1 : Fin 3)).qTime = none ∧ (Audio.eg2.port (1 : Fin 3)).sending = some Audio.fc ∧
    (Audio.eg2.port (1 : Fin 3)).qControl = [] ∧ Audio.eg2.trk.push = none) :=
  ⟨by decide +kernel, by decide +kernel, by decide +kernel, by decide +kernel, by decide +kernel⟩

/-- O58: states and operands that meet the hypotheses of each clause. -/
theorem witness_TrunkTransfers : (Audio.sy.dir = (3 : BitVec 2) ∧ Audio.sy.payload.length = 20 ∧
    (Audio.upS.port (1 : Fin 3)).state = PortState.upstream ∧ (Audio.upS.port (1 : Fin 3)).t3 = 0 ∧
    (u8 Audio.sy.payload 17).testBit 0 = true ∧ (Audio.chS.port (1 : Fin 3)).state = PortState.child ∧
    (Audio.fr 1 77 9 Audio.rcp).dir = (1 : BitVec 2) ∧ (Audio.adS.port (1 : Fin 3)).state = PortState.upstream ∧
    (Audio.fr 1 77 9 Audio.rcp).dest.toNat = Audio.adS.addr ∧ Audio.adS.addr ≠ 0 ∧
    32 ≤ (Audio.fr 1 77 9 Audio.rcp).payload.length ∧ (Audio.fr 1 77 9 Audio.rcp).payload.length ≤ 1500 ∧
    (Audio.fr 1 77 9 (be 4 5 ++ be 1 0 ++ be 1 0 ++ be 2 1 ++ be 2 7)).dir = (1 : BitVec 2) ∧
    (Audio.pS.port (1 : Fin 3)).state = PortState.upstream ∧
    (Audio.fr 1 77 9 (be 4 5 ++ be 1 0 ++ be 1 0 ++ be 2 1 ++ be 2 7)).dest.toNat = Audio.pS.addr) ∧
    (Audio.pS.addr ≠ 0 ∧ Audio.pS.trk.push = some Audio.psh ∧
    BitVec.toNat Audio.psh.id = b32 (Audio.fr 1 77 9 (be 4 5 ++ be 1 0 ++ be 1 0 ++ be 2 1 ++ be 2 7)).payload 0 ∧
    8 + 2 * Min.min 32 (b16 (Audio.fr 1 77 9 (be 4 5 ++ be 1 0 ++ be 1 0 ++ be 2 1 ++ be 2 7)).payload 6) ≤ (Audio.fr 1 77 9 (be 4 5 ++ be 1 0 ++ be 1 0 ++ be 2 1 ++ be 2 7)).payload.length ∧
    (Audio.fr 1 77 9 (be 4 5 ++ be 1 0 ++ be 1 0 ++ be 2 1 ++ be 2 7)).payload.length ≤ 256 ∧
    Audio.u201.inHand (13 : Fin 256) 100 = some (Audio.cm (13 : Fin 256) (100 : Byte) (Audio.pbd 5 0)) ∧
    pushBodyOk (Audio.cm (13 : Fin 256) (100 : Byte) (Audio.pbd 5 0)).body = false ∧
    Audio.u202.inHand (13 : Fin 256) 100 = some (Audio.cm (13 : Fin 256) (100 : Byte) (Audio.pbd 1 0)) ∧
    pushBodyOk (Audio.cm (13 : Fin 256) (100 : Byte) (Audio.pbd 1 0)).body = true ∧ Audio.u202.trk.push ≠ none ∧
    Audio.u203.inHand (13 : Fin 256) 100 = some (Audio.cm (13 : Fin 256) (100 : Byte) (Audio.pbd 1 0)) ∧
    Audio.u203.trk.push = none ∧
    Audio.u203.pushObject (u8 (Audio.cm (13 : Fin 256) (100 : Byte) (Audio.pbd 1 0)).body 0) (u8 (Audio.cm (13 : Fin 256) (100 : Byte) (Audio.pbd 1 0)).body 1) = none ∧
    Audio.u204.inHand (13 : Fin 256) 100 = some (Audio.cm (13 : Fin 256) (100 : Byte) (Audio.pbd 1 5)) ∧
    pushBodyOk (Audio.cm (13 : Fin 256) (100 : Byte) (Audio.pbd 1 5)).body = true) ∧
    (Audio.u204.trk.push = none ∧
    Audio.u204.pushObject (u8 (Audio.cm (13 : Fin 256) (100 : Byte) (Audio.pbd 1 5)).body 0) (u8 (Audio.cm (13 : Fin 256) (100 : Byte) (Audio.pbd 1 5)).body 1) = some Base.f2b ∧
    some false = some false ∧ none ≠ some false ∧ Base.run1.trk.push = none ∧ Audio.psh.endAt = some 0 ∧
    Audio.pS.real < 0 + 1024000 * Audio.psh.waitMs ∧ Audio.u205.trk.push = some Audio.psh ∧
    0 + 1024000 * Audio.psh.waitMs ≤ Audio.u205.real ∧ (Audio.psh.again = false ∨ 4 ≤ Audio.psh.round) ∧
    (Audio.fr 2 0 9 Audio.chk_).dir = (2 : BitVec 2) ∧
    (∀ (q : Fin 3), (Audio.upS.port q).state ≠ PortState.child) ∧
    (Audio.fr 2 0 9 Audio.chk_).payload.length ≤ 1040 ∧ 16 ≤ (Audio.fr 2 0 9 Audio.chk_).payload.length ∧
    Audio.upS.trk.transfer (BitVec.ofNat 32 (b32 (Audio.fr 2 0 9 Audio.chk_).payload 0)) (Audio.fr 2 0 9 Audio.chk_).src.toNat = none) ∧
    (Audio.upS.trk.mayOpen = true ∧
    (Audio.fr 2 0 9 (be 4 5 ++ be 2 2 ++ List.replicate 14 (0 : Byte))).dir = (2 : BitVec 2) ∧
    (Audio.xs.port (1 : Fin 3)).state = PortState.upstream ∧
    (∀ (q : Fin 3), (Audio.xs.port q).state ≠ PortState.child) ∧
    (Audio.fr 2 0 9 (be 4 5 ++ be 2 2 ++ List.replicate 14 (0 : Byte))).payload.length ≤ 1040 ∧
    20 ≤ (Audio.fr 2 0 9 (be 4 5 ++ be 2 2 ++ List.replicate 14 (0 : Byte))).payload.length ∧
    Audio.xs.trk.transfer (BitVec.ofNat 32 (b32 (Audio.fr 2 0 9 (be 4 5 ++ be 2 2 ++ List.replicate 14 (0 : Byte))).payload 0)) (Audio.fr 2 0 9 (be 4 5 ++ be 2 2 ++ List.replicate 14 (0 : Byte))).src.toNat = some Audio.xfr ∧
    Audio.xfr.stored = false ∧ Audio.xfr.storing = false ∧
    Audio.xfr.missing (b16 (Audio.fr 2 0 9 (be 4 5 ++ be 2 2 ++ List.replicate 14 (0 : Byte))).payload 4) ≠ []) :=
  ⟨by decide +kernel, by decide +kernel, by decide +kernel, by decide +kernel⟩

/-- O3: a state on an empty queue without a slew, hold or step. -/
theorem witness_IdleStepIsATick : State.reset.pending = [] := rfl

/-- O6: a state in canonical form, and its step. -/
theorem witness_SramFormKept : SramWf State.reset ∧ ∃ t, step State.reset = .next t :=
  ⟨fun c => by revert c; decide +kernel, _, rfl⟩

/-- O7: a command that is not among the exceptions, and its next state. -/
theorem witness_SramFrame : ∃ t, exec .pushRound Base.run1 = .next t := ⟨_, rfl⟩

/-- O57's clause on an ANNOUNCE: whatever the module's serial number is, one of two frames carries another. -/
theorem witness_TrunkLinks_announce : ∃ f : RxFrame, f.dir = 3 ∧ 12 ≤ f.payload.length ∧ f.payload.length ≤ 256 ∧
    b32 f.payload 6 ≠ Config.serial.toNat % 4294967296 := by
  by_cases h : Config.serial.toNat % 4294967296 = 0
  · exact ⟨⟨3, 3, false, 0, 9, List.replicate 12 1⟩, rfl, by decide, by decide, by rw [h]; decide⟩
  · exact ⟨⟨3, 3, false, 0, 9, List.replicate 12 0⟩, rfl, by decide, by decide, fun e => h (e ▸ by decide)⟩

/-! ### Ill-formed commands, one for each check -/

theorem test_wf_sizes : (Instr.registerWrite 0 0 0).wellFormed = false
    ∧ (Instr.registerWrite 0 4097 0).wellFormed = false
    ∧ (Instr.wideRead .bar0 0 0).wellFormed = false ∧ (Instr.wideRead .bar0 0 4097).wellFormed = false
    ∧ (Instr.sramWindowAccess true 0x1400000 0 0).wellFormed = false
    ∧ (Instr.busParity 0 3 true 0 true false 0).wellFormed = false
    ∧ (Instr.doorbellProducer 0 0 1).wellFormed = false ∧ (Instr.registerWrite 0 8 0).wellFormed = true
    ∧ (Instr.wideRead .bar0 0 4096).wellFormed = true := by decide +kernel

theorem test_wf_bays : (Instr.cartridgeInserted 0 { Cartridge.fitted 0 with slots := [] }).wellFormed = false
    ∧ (Instr.selfTestComplete 0 [3072] false none).wellFormed = false
    ∧ (Instr.selfTestComplete 0 [3071] false none).wellFormed = true
    ∧ (Instr.cartridgeInserted 0 (Cartridge.fitted 0)).wellFormed = true := by decide +kernel

theorem test_wf_calibration : (Instr.startupCalibrationDone 0 [⟨6, 0, 0, 1, []⟩] none).wellFormed = false
    ∧ (Instr.calIntervalEnd 0 ⟨0, 0, 0, 1, []⟩).wellFormed = false
    ∧ (Instr.calIntervalEnd 0 ⟨5, 0, 0, 1, []⟩).wellFormed = true := by decide +kernel

theorem test_wf_errors : (Instr.sramParity 0 0xC00000 .host none).wellFormed = false
    ∧ (Instr.sramParity 0 0xBFFFFF .host (some 3)).wellFormed = false
    ∧ (Instr.sramParity 0 0xBFFFFF .host (some 8)).wellFormed = true
    ∧ (Instr.telemetryTick [25, 25, 25, 25]).wellFormed = false := by decide +kernel

theorem test_wf_units :
    (Instr.unitHandedOn 0 (.inst 0) 0 true (.fib [List.replicate 31 0]) ⟨none, none, none, [], none⟩).wellFormed = false
    ∧ (Instr.unitHandedOn 0 (.inst 0) 0 true (.mscFrame 64 []) ⟨none, none, none, [], none⟩).wellFormed = false
    ∧ (Instr.unitHandedOn 0 (.inst 0) 0 true (.drmFrame 4 [] []) ⟨none, none, none, [], none⟩).wellFormed = false
    ∧ (Instr.unitHandedOn 0 (.inst 0) 0 true (.rds 0 0 5) ⟨none, none, none, [], none⟩).wellFormed = true := by
  decide +kernel

theorem test_wf_segments : (Instr.trellisGrant 0 [⟨0, .header, [], []⟩]).wellFormed = false
    ∧ (Instr.trellisGrant 0 [⟨0, .header, [[some (0, 8)]], []⟩]).wellFormed = false
    ∧ (Instr.trellisGrant 0 [⟨0, .header, [[none, some (0, -8)]], []⟩]).wellFormed = true := by decide +kernel

theorem test_wf_host : (Instr.keyload []).wellFormed = false ∧ (Instr.commandFetch 12 0 0 4 (le 8 0)).wellFormed = false
    ∧ (Instr.hostPortResetExit 8 1 128).wellFormed = false ∧ (Instr.hostPortResetExit 4 3 128).wellFormed = false
    ∧ (Instr.hostPortResetExit 4 2 512).wellFormed = false ∧ (Instr.hostPortResetExit 4 2 256).wellFormed = true := by
  decide +kernel

theorem test_wf_others : (Instr.sampleDelivered 0 0 [8192]).wellFormed = false
    ∧ (Instr.sampleDelivered 0 0 [-8192, 8191]).wellFormed = true
    ∧ (Instr.inputMeasurement ⟨0, false, 0, 0, []⟩).wellFormed = false
    ∧ (Instr.sync 0 ⟨0, 0, false, 0, 0, List.replicate 1501 0⟩).wellFormed = false := by decide +kernel

/-- No row of the command table gives bits. -/
theorem test_no_words : decodeTableWord 32 0 = none := rfl

/-! ### Single steps

Expected values come from the manual's worked examples. -/

/-- The state that a command leaves. -/
def after (i : Instr) (s : State) : State := Base.nextOf s i

/-- Slices, Levels and Domains, the closing example: BG_CFG of slice 3 takes 0x401; 0x4101 is refused and sets
CFG_REJECT, which a written 1 clears. -/
theorem test_bg_cfg : ((after (.registerWrite 0x0400000C 4 0x401) Base.r).sl 3).ctl.bgCfg = 0x401
    ∧ ((after (.registerWrite 0x0400000C 4 0x4101) Base.r).sl 3).ctl.bgCfg = 0x0801
    ∧ ((after (.registerWrite 0x0400000C 4 0x4101) Base.r).sl 3).ctl.cfgReject = true := by decide +kernel

/-- Tunings, the DAB example after R143: NCO_FREQ for 227.360 MHz. -/
theorem test_hz_word : hzWord 227360000 = 0x38D70A3D := by decide +kernel

/-- Return-Channel Transmitter, worked example: 38 bytes with RAMP_US 416 at 9.6 ksym/s make 556 symbols up to the end of
the coded region, and VCO divider 16 serves 169.4375 MHz. -/
theorem test_burst_symbols :
    ({ Radio.dflt with message := List.replicate 38 0, rampUs := 416, symrate := 9600 } : TxCmd).bodySyms 0 = 556 := by
  decide +kernel

/-- LDB Bursts, the example after R188: bits 63:16 of the header are 10 4C 2E 17 08 00. -/
theorem test_header : (ldbHeaderBytes 0 0x4C2E 0x17 64 false).take 6 = [0x10, 0x4C, 0x2E, 0x17, 0x08, 0x00] := by
  decide +kernel

theorem test_divider : ((after (.synthLocked 0 71 240) (Base.at0 Base.run1 (fun x =>
    { x with tx := { x.tx with wantFreq := 169437500 } }))).sl 0).tx.div = 1 := by decide +kernel

/-- Authentication, example after R248: the key check value of the key of SP 800-38B example 1. -/
theorem test_kcv : slotKcv { KeySlot.fresh with state := .valid, key := [0x2B, 0x7E, 0x15, 0x16, 0x28, 0xAE, 0xD2,
    0xA6, 0xAB, 0xF7, 0x15, 0x88, 0x09, 0xCF, 0x4F, 0x3C] } = 0xBB1D69 := by decide +kernel

/-- Power Steward, example: AUX_MA 200 asks for 14 tokens. -/
theorem test_aux_tokens : vget (after (.auxWrite 0x800000C8) Base.run1).pwr.want 9 0 = 14 := by decide +kernel

/-- Clocks and Timebase, example: an offset of 3,584,000 ticks begins with a hold of 1,048,576. -/
theorem test_first_hold :
    let s : State := { Base.run1 with tbm := { Base.run1.tbm with offset := 3584000, holdsAt := some 0 } }
    (after .tbHold s).tbm.hold = some ⟨0, 1048576⟩ ∧ (after .tbHold s).tbm.offset = 2535424
      ∧ (after .tbHold s).tbm.holdsAt = some 1073741824 := by decide +kernel

end Sys2Proof.Tests
end

section
/-! SUPPORT. Accesses that are refused or served, said once for every address. -/

namespace Sys2Proof.Machine

open Sys2Proof

/-! ### The effects of the accesses -/

theorem exec_registerWrite (a : Word) (n : Nat) (v : DWord) (s : State) :
    exec (.registerWrite a n v) s = run s (fun s => (s.writeBar0 a.toNat n v).bridged true) := rfl

theorem exec_rcRead (a : Word) (s : State) :
    exec (.rcRead a) s = run s (fun s => (s.readBar0 (a.toNat / 4 * 4) 4).bridged true) := rfl

theorem exec_latchRead (a : Word) (s : State) :
    exec (.latchRead a) s = run s (fun s => (s.readBar0 (a.toNat / 4 * 4) 4).bridged true) := rfl

theorem exec_wideRead_bar0 (a : Word) (n : Nat) (s : State) :
    exec (.wideRead .bar0 a n) s = run s (fun s => (s.readBar0 a.toNat n).bridged true) := rfl

theorem exec_wideRead_bar2 (a : Word) (n : Nat) (s : State) :
    exec (.wideRead .bar2 a n) s = run s (fun s => s.readBar2 a.toNat n) := rfl

/-- `run_does` with the state that the effect starts on named: `s` differs from it in outward effects alone. -/
theorem run_does_from {i : Instr} {s : State} {f g : State → State} (he : exec i s = run s f)
    (h : ∀ u o, s = { u with out := o } → f u = g u) : Does i s g :=
  run_does he (h _ s.out rfl)

/-- `run_next` with the state that the effect starts on named. -/
theorem run_gives_from {i : Instr} {s : State} {f : State → State} {P : State → Prop} (he : exec i s = run s f)
    (hP : ∀ t o p l, P t → P { t with out := o, qmg := { t.qmg with msixPba := p }, pending := l })
    (h : ∀ u o, s = { u with out := o } → P (f u)) : Gives i s P := by
  rw [Gives, he]
  exact run_next hP (h _ s.out rfl)

/-! ### Counting a discarded access (R415) -/

theorem lo32_toNat (w : Word) : lo32 w.toNat = w := by simp [lo32]

/-- An ERR block that has counted a discarded access at `addr` (R415, R417). -/
def Err.accessError (e : Err) (addr : Word) : Err :=
  { e with access := min (e.access + 1) 0xFFFF, events := e.events ||| 0x80, addr := some (e.addr.getD addr) }

/-- ERRM after it has counted a discarded access at `addr` (R415, R419). -/
def Errm.accessError (e : Errm) (addr : Word) : Errm :=
  { e with access := min (e.access + 1) 0xFFFF, events := e.events ||| 1, addr := some (e.addr.getD addr) }

/-- An address that lies in a slice's region names that slice. -/
theorem sliceAt_some {a : Nat} {c : Fin 4} {o : Nat} (h : sliceAt a = some (c, o)) :
    (0x1000000 ≤ a ∧ a < 0x5000000) ∧ Fin.ofNat 4 (a / 0x1000000 - 1) = c := by
  unfold sliceAt at h
  split at h
  case isTrue ha => exact ⟨ha, (Prod.mk.inj (Option.some.inj h)).1⟩
  case isFalse => cases h

/-- A discarded access to a slice that serves its registers is counted in that slice. -/
theorem recordAccess_served (s : State) {c : Fin 4} {a o : Nat} (h : sliceAt a = some (c, o))
    (hs : (s.sl c).ctl.state.served = true) :
    s.recordAccess .bar0 a false = s.modSl c (fun x => { x with err := x.err.accessError (lo32 a) }) := by
  obtain ⟨ha, hc⟩ := sliceAt_some h
  unfold State.recordAccess
  dsimp only
  rw [hc, if_pos (by simp [hs, ha])]
  refine congrArg (s.modSl c) (funext fun x => ?_)
  cases he : x.err.addr <;> simp [he, Err.accessError, count, sat, raise]

/-- A discarded access to BAR2 is counted in ERRM, bit 31 of its address set. -/
theorem recordAccess_bar2 (s : State) (a : Nat) :
    s.recordAccess .bar2 a false = { s with errm := s.errm.accessError (lo32 (a + 2 ^ 31)) } := by
  unfold State.recordAccess
  dsimp only
  rw [if_neg (by simp)]
  cases he : s.errm.addr <;> simp [he, Errm.accessError, count, sat, raise]

/-- A write of BAR0 of another size or alignment than a register's is only counted (R7). -/
theorem writeBar0_malformed (s : State) (v : DWord) {a size o : Nat} {c : Fin 4} (h : sliceAt a = some (c, o))
    (ho : o < 0x400000) (hm : size ≠ 4 ∨ a % 4 ≠ 0) :
    s.writeBar0 a size v = s.recordAccess .bar0 a false := by
  obtain ⟨ha, -⟩ := sliceAt_some h
  have hw : msixWide a size = false := by
    simp only [msixWide, Bool.and_eq_false_iff, Bool.or_eq_false_iff, decide_eq_false_iff_not, beq_eq_false_iff_ne]
    omega
  unfold State.writeBar0
  rw [sramAt_register h ho]
  dsimp only
  rw [hw, if_neg Bool.false_ne_true, if_pos hm]

/-! ### Registers of a slice below the SX5216 window -/

theorem inWindow_below (s : State) (c : Fin 4) {o : Nat} (h : o < 0x110000) : s.inWindow c o = false := by
  simp [State.inWindow, Nat.not_le.mpr h]

/-- A write of a register that a slice holds below the window reaches it while the slice serves its registers. -/
theorem sliceWriteAt_served (s : State) (v : Word) {c : Fin 4} {o : Nat} (ho : o < 0x110000)
    (hr : (s.sliceReg c o).isSome) (hs : (s.sl c).ctl.state.served = true) :
    s.sliceWriteAt c o v = s.sliceRegWrite c o v := by
  have hw := inWindow_below s c ho
  unfold State.sliceWriteAt State.sliceRegOrWindow
  simp only [hw, hs, Bool.false_eq_true, ↓reduceIte, Bool.true_or, Bool.not_true, Option.isNone_eq_false_iff.mpr hr]

/-! ### Writes of registers -/

/-- REGISTER_WRITE of a register that a slice holds below the window does what that register's write does. -/
theorem registerWrite_served {c : Fin 4} {addr : Word} {o : Nat} (v : DWord) {s : State} {g : State → State}
    (ha : addr.toNat = 0x1000000 * (c.val + 1) + o) (ho : o < 0x110000) (h4 : o % 4 = 0)
    (hr : ∀ u : State, (u.sliceReg c o).isSome) (hs : (s.sl c).ctl.state.served = true)
    (hg : ∀ u : State, (u.sliceRegWrite c o (lo32 v.toNat)).bridged true = g u) :
    Does (.registerWrite addr 4 v) s g := by
  have hat : sliceAt addr.toNat = some (c, o) := by rw [ha]; exact sliceAt_slice c (by omega)
  refine run_does_from (exec_registerWrite ..) ?_
  rintro u w rfl
  rw [writeBar0_slice _ v hat (by omega) (by omega), sliceWriteAt_served u _ ho (hr u) hs]
  exact hg u

/-- Settles O9: CLK.EVENTS at offset 0x10004 and MAC.EVENTS at 0xD0004 take a write through `w1c` (R108, R269). -/
theorem writeOneClears : Obligations.WriteOneClears := by
  intro c addr v s hs
  constructor
  · intro ha
    exact registerWrite_served v ha (by decide) rfl (fun _ => rfl) hs (fun _ => rfl)
  · intro ha
    exact registerWrite_served v ha (by decide) rfl (fun _ => rfl) hs (fun _ => rfl)

/-- Settles O10: the write is counted in the ERR block of the slice that the address lies in (R415). -/
theorem malformedWriteIsCounted : Obligations.MalformedWriteIsCounted := by
  intro c addr o size v s ha ho hm hs
  have hat : sliceAt addr.toNat = some (c, o) := by rw [ha]; exact sliceAt_slice c (by omega)
  refine run_does_from (exec_registerWrite ..) ?_
  rintro u o rfl
  rw [writeBar0_malformed _ v hat ho (by omega), recordAccess_served u hat hs, lo32_toNat]
  rfl

end Sys2Proof.Machine
end

section
/-! SUPPORT. What a cartridge brings to its bay (R2, R36, R371, R395). -/

namespace Sys2Proof.Machine

open Sys2Proof

/-! ### Identification -/

/-- A bay shows the part and the issue of cartridge `k` (R36). -/
def Slice.showId (k : Cartridge) (x : Slice) : Slice :=
  { x with ctl := { x.ctl with part := k.part.toNat, issue := k.issue.toNat } }

theorem identify_slice (s : State) {c : Fin 4} {k : Cartridge} (h : (s.sl c).cart = some k) (hp : k.part = 0x7464) :
    s.identify c = (s.modSl c (Slice.showId k)).askBase c := by
  unfold State.identify
  rw [h]
  exact if_pos hp

theorem identify_foreign (s : State) {c : Fin 4} {k : Cartridge} (h : (s.sl c).cart = some k) (hp : k.part ≠ 0x7464) :
    s.identify c =
      ((s.modSl c (Slice.showId k)).modSl c (fun x => { x with ctl := { x.ctl with state := .held } })).fault
      { status := 0x02, event := 0x16, level := 2, action := 8, block := 0x44, detail := k.part.toNat,
        slice := c.val } := by
  unfold State.identify
  rw [h]
  exact if_neg hp

/-- The effect of BAY_IDENTIFY: a cartridge that waits in RESET, unpowered and without a request, is identified. -/
def State.identifyWaiting (s : State) (c : Fin 4) : State :=
  if !s.mod.ready ∨ (s.sl c).ctl.state ≠ .reset ∨ (s.sl c).ctl.feedOn ∨ vget s.pwr.rxAsk c.val .none != .none then s
  else s.identify c

theorem exec_bayIdentify (c : Fin 4) (s : State) :
    exec (.bayIdentify c) s = run s (fun s => s.identifyWaiting c) := rfl

theorem identifyWaiting_waits (s : State) {c : Fin 4} (hr : s.mod.ready = true) (hs : (s.sl c).ctl.state = .reset)
    (hf : (s.sl c).ctl.feedOn = false) (hw : vget s.pwr.rxAsk c.val .none = .none) :
    s.identifyWaiting c = s.identify c :=
  if_neg (by simp [hr, hs, hf, hw])

/-! ### Insertion -/

/-- Cartridge `k` sits in the bay (R35's table). -/
def Slice.insert (k : Cartridge) (x : Slice) : Slice :=
  { x with cart := some k, ctl := { x.ctl with present := true } }

/-- The effect of CARTRIDGE_INSERTED. -/
def State.insertCart (s : State) (c : Fin 4) (k : Cartridge) : State :=
  if (s.sl c).cart.isSome then s
  else if s.mod.ready then ((s.modSl c (Slice.insert k)).identify c).bayChange
  else ((s.modSl c (Slice.insert k)).modSl c (fun x => { x with ctl := { x.ctl with state := .reset } })).bayChange

theorem exec_cartridgeInserted (c : Fin 4) (k : Cartridge) (s : State) :
    exec (.cartridgeInserted c k) s = run s (fun s => s.insertCart c k) := rfl

theorem insertCart_ready (s : State) {c : Fin 4} (k : Cartridge) (h : (s.sl c).cart = none) (hr : s.mod.ready = true) :
    s.insertCart c k = ((s.modSl c (Slice.insert k)).identify c).bayChange := by
  unfold State.insertCart
  rw [h, if_neg (by decide), if_pos hr]

theorem insertCart_starting (s : State) {c : Fin 4} (k : Cartridge) (h : (s.sl c).cart = none)
    (hr : s.mod.ready = false) :
    s.insertCart c k = (s.modSl c (fun x =>
      { x with cart := some k, ctl := { x.ctl with present := true, state := .reset } })).bayChange := by
  unfold State.insertCart
  rw [h, if_neg (by decide), if_neg (by simp [hr]), State.modSl_modSl]
  rfl

/-- The slice that an inserted cartridge brings holds it. -/
theorem cart_insert (s : State) (c : Fin 4) (k : Cartridge) : ((s.modSl c (Slice.insert k)).sl c).cart = some k := by
  rw [State.sl_modSl]
  rfl

/-! ### ON_REQ -/

theorem exec_onReq (c : Fin 4) (s : State) :
    exec (.onReq c) s = run s (fun s => s.moduleWrite fun s => s.bayOn c) := rfl

/-- A write to the supervisor's registers lands when the module is ready and no swap runs (R383, R393). -/
theorem moduleWrite_taken (s : State) (f : State → State) (hr : s.mod.ready = true) (hs : s.mod.swapping = none) :
    s.moduleWrite f = f s := by
  simp [State.moduleWrite, hr, hs]

theorem bayOn_held (s : State) {c : Fin 4} (hs : (s.sl c).ctl.state = .held) (hp : (s.sl c).ctl.part = 0x7464)
    (hq : (s.sl c).ctl.onReq = false) :
    s.bayOn c = (s.modSl c (fun x => { x with ctl := { x.ctl with onReq := true } })).askBase c :=
  if_neg (by simp [hs, hp, hq])

/-- Settles O13, command by command: insertion at READY of an SX7464 cartridge and of another, insertion before READY,
BAY_IDENTIFY, ON_REQ. -/
theorem bayGetsCartridge : Obligations.BayGetsCartridge := by
  intro c k s ask change
  refine ⟨fun hc hr hp => ?_, fun hc hr hp => ?_, fun hc hr => ?_, fun hc hp hr hs hf hw => ?_,
    fun hr hw hs hp hq => ?_⟩
  · refine run_does_from (exec_cartridgeInserted c k s) ?_
    rintro u o rfl
    rw [insertCart_ready u k hc hr, identify_slice _ (cart_insert u c k) hp, State.modSl_modSl]
    rfl
  · refine run_does_from (exec_cartridgeInserted c k s) ?_
    rintro u o rfl
    rw [insertCart_ready u k hc hr, identify_foreign _ (cart_insert u c k) hp, State.modSl_modSl, State.modSl_modSl]
    rfl
  · refine run_does_from (exec_cartridgeInserted c k s) ?_
    rintro u o rfl
    rw [insertCart_starting u k hc hr]
    rfl
  · refine run_does_from (exec_bayIdentify c s) ?_
    rintro u o rfl
    rw [identifyWaiting_waits u hr hs hf hw, identify_slice u hc hp]
    rfl
  · refine run_does_from (exec_onReq c s) ?_
    rintro u o rfl
    rw [moduleWrite_taken u _ hr hw, bayOn_held u hs hp hq]
    rfl

end Sys2Proof.Machine
end

section
/-! SUPPORT. Reads of BAR0 and BAR2: what they return, what they leave unchanged, and how a wide read is made of smaller
ones (R10, R91, R282, R436). -/

namespace Sys2Proof.Machine

open Sys2Proof

/-! ### What a register does not show -/

/-- `s` with another access port, another answer to the last read, other outward effects and another queue of
commands. -/
def State.aside (s : State) (t : Tap) (d : List Byte) (o : List Output) (l : List Instr) : State :=
  { s with tap := t, readData := d, out := o, pending := l }

section
variable (s : State) (t : Tap) (d : List Byte) (o : List Output) (l : List Instr)

theorem busyAt_aside (a : Nat) : (s.aside t d o l).busyAt a = s.busyAt a := rfl

theorem sliceRegOrWindow_aside (c : Fin 4) (k : Nat) :
    (s.aside t d o l).sliceRegOrWindow c k = s.sliceRegOrWindow c k := by
  have hw : (s.aside t d o l).inWindow c k = s.inWindow c k := rfl
  have hr (k : Nat) : (s.aside t d o l).windowRead k = s.windowRead k := rfl
  have hs : (s.aside t d o l).sliceReg c k = s.sliceReg c k := rfl
  simp only [State.sliceRegOrWindow, hw, hr, hs]

theorem regRead_aside (a : Nat) : (s.aside t d o l).regRead a = s.regRead a := by
  unfold State.regRead
  split
  · rw [sliceRegOrWindow_aside]
    rfl
  · rfl

theorem sliceReadFx_aside (c : Fin 4) (k : Nat) :
    (s.aside t d o l).sliceReadFx c k = (s.sliceReadFx c k).aside t d o l := by
  unfold State.sliceReadFx
  split
  · rfl
  · split <;> rfl

theorem qmgReadFx_aside (k : Nat) : (s.aside t d o l).qmgReadFx k = (s.qmgReadFx k).aside t d o l := by
  unfold State.qmgReadFx
  split <;> split <;> rfl

theorem moduleReadFx_aside (a : Nat) : (s.aside t d o l).moduleReadFx a = (s.moduleReadFx a).aside t d o l := by
  unfold State.moduleReadFx
  dsimp only
  split
  case h_1 => split <;> rfl
  case h_4 => exact qmgReadFx_aside ..
  case h_5 => split <;> rfl
  all_goals rfl

theorem regReadFx_aside (a : Nat) : (s.aside t d o l).regReadFx a = (s.regReadFx a).aside t d o l := by
  have hs (c : Fin 4) : (s.aside t d o l).sl c = s.sl c := rfl
  have hw (c : Fin 4) (k : Nat) : (s.aside t d o l).inWindow c k = s.inWindow c k := rfl
  unfold State.regReadFx
  simp only [busyAt_aside, hs, hw, sliceReadFx_aside, moduleReadFx_aside]
  split
  · split
    · rfl
    · split
      · split <;> rfl
      · rfl
  · split <;> rfl

/-- A read of registers neither looks at the access port, the last answer, the outward effects and the queue of commands
nor changes them. -/
theorem readRegs_aside (as : List Nat) :
    readRegs as (s.aside t d o l) = ((readRegs as s).1, (readRegs as s).2.aside t d o l) := by
  induction as generalizing s with
  | nil => rfl
  | cons a as ih => simp only [readRegs, regReadFx_aside, regRead_aside, ih]

end

/-! ### What a read of registers leaves alone -/

theorem sliceReadFx_qmg (s : State) (c : Fin 4) (o : Nat) : (s.sliceReadFx c o).qmg = s.qmg := by
  unfold State.sliceReadFx
  split
  · rfl
  · split <;> rfl

theorem qmgReadFx_blkIrq (s : State) (o : Nat) : (s.qmgReadFx o).qmg.blkIrq = s.qmg.blkIrq := by
  unfold State.qmgReadFx
  split <;> split <;> rfl

theorem moduleReadFx_blkIrq (s : State) (a : Nat) : (s.moduleReadFx a).qmg.blkIrq = s.qmg.blkIrq := by
  unfold State.moduleReadFx
  dsimp only
  split
  case h_1 => split <;> rfl
  case h_4 => exact qmgReadFx_blkIrq s _
  case h_5 => split <;> rfl
  all_goals rfl

theorem regReadFx_blkIrq (s : State) (a : Nat) : (s.regReadFx a).qmg.blkIrq = s.qmg.blkIrq := by
  unfold State.regReadFx
  split
  · split
    · rfl
    · split
      · split
        · rw [sliceReadFx_qmg]
        · rfl
      · rw [sliceReadFx_qmg]
  · split
    · rfl
    · exact moduleReadFx_blkIrq s a

theorem readRegs_blkIrq (as : List Nat) (s : State) : (readRegs as s).2.qmg.blkIrq = s.qmg.blkIrq := by
  induction as generalizing s with
  | nil => rfl
  | cons a as ih => exact (ih _).trans (regReadFx_blkIrq s a)

/-- The SRAMs of the slices in a list. -/
theorem map_sram_of_srams {t s : State} (h : t.srams = s.srams) :
    t.slices.toList.map (fun x => x.sram) = s.slices.toList.map (fun x => x.sram) := by
  refine List.ext_getElem (by simp) fun i h1 _ => ?_
  have hi : i < 4 := by simpa using h1
  simpa [State.srams, State.sl, Vector.get] using congrFun h ⟨i, hi⟩

/-! ### How many bytes, and which registers -/

theorem length_le (n v : Nat) : (le n v).length = n := by
  induction n generalizing v with
  | zero => rfl
  | succ n ih => simp [le, ih]

theorem length_readRegs (as : List Nat) (s : State) : (readRegs as s).1.length = 4 * as.length := by
  induction as generalizing s with
  | nil => rfl
  | cons a as ih => simp only [readRegs, List.length_append, length_le, ih, List.length_cons]; omega

theorem length_touched (a n : Nat) : (touched a n).length = (a % 4 + n + 3) / 4 := by simp [touched]

/-- A read outside the SRAM windows is that of the registers it touches, cut to the bytes asked for (R436). -/
theorem readBar0_registers (s : State) {a : Nat} (n : Nat) (h : sramAt a = none) :
    s.readBar0 a n =
      { (readRegs (touched a n) s).2 with readData := slice (readRegs (touched a n) s).1 (a % 4) n } := by
  unfold State.readBar0
  rw [h]

theorem length_readBar0 (s : State) {a : Nat} (n : Nat) (h : sramAt a = none) :
    (s.readBar0 a n).readData.length = n := by
  rw [readBar0_registers s n h]
  simp only [slice, List.length_take, List.length_drop, length_readRegs, length_touched]
  omega

/-- From an aligned address the first register comes before those of the read that begins after it. -/
theorem touched_aligned (a n : Nat) (h : a % 4 = 0) : touched a (4 + n) = a :: touched (a + 4) n := by
  have hl : (a % 4 + (4 + n) + 3) / 4 = ((a + 4) % 4 + n + 3) / 4 + 1 := by omega
  have hd : a / 4 * 4 = a := by omega
  have hd' : (a + 4) / 4 * 4 = a + 4 := by omega
  simp only [touched, hl, hd, hd', List.range_succ_eq_map, List.map_cons, List.map_map, Nat.mul_zero, Nat.add_zero]
  refine congrArg (a :: ·) (List.map_congr_left fun i _ => ?_)
  simp only [Function.comp_apply]
  omega

theorem readBar0_srams (s : State) {a : Nat} (n : Nat) (h : sramAt a = none) : (s.readBar0 a n).srams = s.srams := by
  rw [readBar0_registers s n h]
  exact readRegs_srams _ s

/-! ### Registers of a slice that serves them, and of the module -/

theorem regRead_served (s : State) {a : Nat} {c : Fin 4} {o : Nat} (h : sliceAt a = some (c, o)) (ho : o < 0x110000)
    (hs : (s.sl c).ctl.state.served = true) : s.regRead a = (s.sliceReg c o).getD 0 := by
  have hw := inWindow_below s c ho
  unfold State.regRead
  rw [h]
  simp [hw, hs, State.sliceRegOrWindow]

theorem regReadFx_served (s : State) {a : Nat} {c : Fin 4} {o : Nat} (h : sliceAt a = some (c, o)) (ho : o < 0x110000)
    (hs : (s.sl c).ctl.state.served = true) : s.regReadFx a = s.sliceReadFx c o := by
  have hw := inWindow_below s c ho
  unfold State.regReadFx
  rw [h]
  simp [hw, hs]

/-- Once the module is ready no register is busy but during a swap (R383, R393). -/
theorem busyAt_ready (s : State) (a : Nat) (hr : s.mod.ready = true) (hw : s.mod.swapping = none) :
    s.busyAt a = false := by
  simp [State.busyAt, State.swapping, hr, hw]

theorem regRead_module (s : State) {a : Nat} (h : sliceAt a = none) (hb : s.busyAt a = false) :
    s.regRead a = (s.moduleReg a).getD 0 := by
  unfold State.regRead
  rw [h]
  exact if_neg (by simp [hb])

theorem regReadFx_module (s : State) {a : Nat} (h : sliceAt a = none) (hb : s.busyAt a = false) :
    s.regReadFx a = s.moduleReadFx a := by
  unfold State.regReadFx
  rw [h]
  exact if_neg (by simp [hb])

/-! ### BAR2 (R282) -/

/-- An aligned word of queue `q`'s page. -/
theorem readBar2_word (s : State) (q : Fin 256) {a o : Nat} (h : a = 0x100 * q.val + o) (ho : o < 0x100)
    (ha : o % 4 = 0) :
    s.readBar2 a 4 = { s with readData := le 4 (
      if o = 0 then (s.qu q).prod.toNat else if o = 4 then (s.qu q).cons.toNat else 0) } := by
  have hq := q.isLt
  have h1 : a % 0x10000 = a := by omega
  have h2 : a % 0x100 = o := by omega
  have h3 : qn (a / 0x100) = q := Fin.ext (by simp [qn, Fin.ofNat]; omega)
  unfold State.readBar2
  dsimp only
  rw [h1, if_neg (by omega), h2, h3]

theorem readBar2_malformed (s : State) {a size : Nat} (h : a < 0x10000) (hm : size ≠ 4 ∨ a % 4 ≠ 0) :
    s.readBar2 a size = { s with
      readData := List.replicate size 0, errm := s.errm.accessError (lo32 (a + 2 ^ 31)) } := by
  unfold State.readBar2
  dsimp only
  rw [Nat.mod_eq_of_lt h, if_pos hm, recordAccess_bar2]

/-! ### A wide read as two reads (R436) -/

/-- Where no block event is unmasked, no message leaves (R296). -/
theorem blockIrqs_off (old s : State) (h : s.qmg.blkIrq = 0) : blockIrqs old s = s := if_pos h

theorem run_quiet {s : State} {f : State → State} (h : (f { s with out := [] }).qmg.blkIrq = 0) :
    run s f = .next { f { s with out := [] } with pending := s.pending } := by
  unfold run
  rw [blockIrqs_off s _ h]

/-- The answer to a read of registers where no block event is unmasked. -/
theorem exec_wideRead_quiet {s : State} {a : Word} (n : Nat) (h : sramAt a.toNat = none) (hq : s.qmg.blkIrq = 0) :
    exec (.wideRead .bar0 a n) s = .next ((readRegs (touched a.toNat n) s).2.aside { s.tap with bridge := 1 }
      (slice (readRegs (touched a.toNat n) s).1 (a.toNat % 4) n) [] s.pending) := by
  have hr := readRegs_aside s s.tap s.readData [] s.pending (touched a.toNat n)
  have he : (({ s with out := [] } : State).readBar0 a.toNat n).bridged true =
      (readRegs (touched a.toNat n) s).2.aside { s.tap with bridge := 1 }
        (slice (readRegs (touched a.toNat n) s).1 (a.toNat % 4) n) [] s.pending := by
    rw [readBar0_registers _ n h]
    exact congrArg (fun r : List Byte × State =>
      { r.2 with readData := slice r.1 (a.toNat % 4) n, tap := { r.2.tap with bridge := 1 } }) hr
  rw [exec_wideRead_bar0, run_quiet (by rw [he]; exact (readRegs_blkIrq _ s).trans hq), he]
  rfl

/-- A read from an aligned address reads the first register, then those of the read that begins after it. -/
theorem readRegs_touched_aligned (s : State) (a n : Nat) (h : a % 4 = 0) :
    readRegs (touched a (4 + n)) s =
      (le 4 (s.regRead a).toNat ++ (readRegs (touched (a + 4) n) (s.regReadFx a)).1,
        (readRegs (touched (a + 4) n) (s.regReadFx a)).2) := by
  rw [touched_aligned a n h]
  rfl

theorem touched_word (a : Nat) (h : a % 4 = 0) : touched a 4 = [a] := by
  have ht : touched (a + 4) 0 = [] := List.length_eq_zero_iff.mp (by rw [length_touched]; omega)
  rw [show (4 : Nat) = 4 + 0 from rfl, touched_aligned a 0 h, ht]

theorem slice_append (b bs : List Byte) (n : Nat) : slice (b ++ bs) 0 (b.length + n) = b ++ slice bs 0 n := by
  simp [slice, List.take_append]

/-- Where no block event is unmasked, a read of 4 + n bytes from an aligned address is the read of the first word
followed by the read of the other n (R436). -/
theorem wideRead_splits (s : State) (a : Word) (n : Nat) (ha : a.toNat % 4 = 0) (h : sramAt a.toNat = none)
    (h' : sramAt (a.toNat + 4) = none) (hlt : a.toNat + 4 < 4294967296) (hq : s.qmg.blkIrq = 0) :
    Gives (.wideRead .bar0 a (4 + n)) s (fun t => ∃ u, exec (.wideRead .bar0 a 4) s = .next u
      ∧ Gives (.wideRead .bar0 (a + 4) n) u (fun v => t.readData = u.readData ++ v.readData
        ∧ t.slices = v.slices ∧ t.queues = v.queues ∧ t.tbm = v.tbm ∧ t.trk = v.trk ∧ t.mod = v.mod
        ∧ t.errm = v.errm ∧ t.tap = v.tap)) := by
  have hn : (a + 4).toNat = a.toNat + 4 := by rw [BitVec.toNat_add]; exact Nat.mod_eq_of_lt hlt
  have hm : (a.toNat + 4) % 4 = 0 := by omega
  have hs4 (w : Nat) (bs : List Byte) : slice (le 4 w ++ bs) 0 (4 + n) = le 4 w ++ slice bs 0 n :=
    slice_append (le 4 w) bs n
  refine ⟨_, exec_wideRead_quiet (4 + n) h hq, _, exec_wideRead_quiet 4 h hq, _,
    exec_wideRead_quiet n (hn ▸ h') ((readRegs_blkIrq _ s).trans hq), ?_⟩
  rw [hn, touched_word _ ha, readRegs_touched_aligned s _ n ha, readRegs_aside, ha, hm]
  exact ⟨hs4 _ _, rfl, rfl, rfl, rfl, rfl, rfl, rfl⟩

/-! ### The reads of the host -/

/-- RC_READ of ERR.ERRORS clears both counts (R10, R417). -/
theorem rcRead_errors (c : Fin 4) (addr : Word) (s : State) (ha : addr.toNat = 0x1000000 * (c.val + 1) + 0x100008)
    (hs : (s.sl c).ctl.state.served = true) :
    Does (.rcRead addr) s (fun s => { s.modSl c (fun x => { x with err := { x.err with busCnt := 0, memCnt := 0 } }) with
      readData := le 4 (mkWord [(16, 16, (s.sl c).err.busCnt), (0, 16, (s.sl c).err.memCnt)]).toNat,
      tap := { s.tap with bridge := 1 } }) := by
  have hat : sliceAt addr.toNat = some (c, 0x100008) := by rw [ha]; exact sliceAt_slice c (by decide)
  have hal : addr.toNat / 4 * 4 = addr.toNat := by omega
  refine run_does_from (exec_rcRead ..) ?_
  rintro u o rfl
  rw [hal, readBar0_aligned u (sramAt_register hat (by decide)) (by omega), regRead_served u hat (by decide) hs,
    regReadFx_served u hat (by decide) hs]
  rfl

/-- LATCH_READ of TBM.TB_LO returns the low half of TB and latches the high half (R91). -/
theorem latchRead_tb (s : State) (hr : s.mod.ready = true) (hw : s.mod.swapping = none) :
    Does (.latchRead 0x30000) s (fun s => { s with
      readData := le 4 (lo32 s.tbm.tb).toNat, tbm := { s.tbm with tbHi := hi32 s.tbm.tb },
      tap := { s.tap with bridge := 1 } }) := by
  have hat : sliceAt 0x30000 = none := sliceAt_module (by decide)
  refine run_does_from (exec_latchRead ..) ?_
  rintro u o rfl
  have hb : u.busyAt 0x30000 = false := busyAt_ready u _ hr hw
  change (u.readBar0 0x30000 4).bridged true = _
  rw [readBar0_aligned u (sramAt_module hat) rfl, regRead_module u hat hb, regReadFx_module u hat hb]
  rfl

/-- A read of a queue's page (R282). -/
theorem wideRead_queue (q : Fin 256) (addr : Word) (s : State) {o : Nat} (h : addr.toNat = 0x100 * q.val + o)
    (ho : o < 0x100) (ha : o % 4 = 0) :
    Does (.wideRead .bar2 addr 4) s (fun s => { s with readData := le 4 (
      if o = 0 then (s.qu q).prod.toNat else if o = 4 then (s.qu q).cons.toNat else 0) }) :=
  run_does (exec_wideRead_bar2 ..) (readBar2_word _ q h ho ha)

/-- Settles O11: the reads that clear and latch, the words of BAR2, and reads of BAR0 of any size. -/
theorem readsThatClearAndLatch : Obligations.ReadsThatClearAndLatch := by
  refine ⟨rcRead_errors, latchRead_tb, fun q addr s => ⟨fun h => ?_, fun h => ?_, fun o h h8 ho ha => ?_,
    fun size h hm => ?_⟩, fun addr s h => ⟨fun size => ?_, fun ha => ⟨?_, fun n => wideRead_splits s addr n ha h⟩⟩⟩
  · exact wideRead_queue q addr s (o := 0) h (by decide) rfl
  · exact wideRead_queue q addr s h (by decide) rfl
  · have hz := wideRead_queue q addr s h ho ha
    simp only [if_neg (show o ≠ 0 by omega), if_neg (show o ≠ 4 by omega)] at hz
    exact hz
  · exact run_does (exec_wideRead_bar2 ..) (readBar2_malformed _ h hm)
  · rw [Gives, exec_wideRead_bar0]
    refine run_next (fun _ _ _ _ h => h) ⟨length_readBar0 _ size h, rfl, map_sram_of_srams ?_⟩
    exact readBar0_srams _ size h
  · rw [Gives, exec_wideRead_bar0]
    refine run_next (P := fun t => t.readData = _) (fun _ _ _ _ h => h) ?_
    rw [readBar0_aligned _ h ha]
    exact congrArg (fun w : Word => le 4 w.toNat) (regRead_aside s s.tap s.readData [] s.pending addr.toNat)

end Sys2Proof.Machine
end

section
/-! SUPPORT. The SRAM window (R46, R402, R415, R418): where an address of it leads, and what a read or a write of it
does. -/

namespace Sys2Proof.Machine

open Sys2Proof

/-! ### Where an access lands -/

theorem sliceAt_sram {a : Nat} {c : Fin 4} {off : Nat} (h : a = 0x1000000 * (c.val + 1) + 0x400000 + off)
    (ho : off < 0xC00000) : sliceAt a = some (c, 0x400000 + off) := by
  rw [h, Nat.add_assoc]
  exact sliceAt_slice c (by omega)

theorem sramAt_window {a : Nat} {c : Fin 4} {off : Nat} (h : a = 0x1000000 * (c.val + 1) + 0x400000 + off)
    (ho : off < 0xC00000) : sramAt a = some (c, off) := by
  rw [sramAt_of_slice (sliceAt_sram h ho), if_pos (by omega), Nat.add_sub_cancel_left]

theorem sramSizeOk_iff {off size : Nat} :
    sramSizeOk off size = true ↔ (size = 4 ∧ off % 4 = 0) ∨ (size = 8 ∧ off % 8 = 0) := by
  simp [sramSizeOk]

/-- The bytes that a read returns, by index. -/
theorem memRead_eq_map (m : List Host.Cell) (a n : Nat) :
    memRead m a n = (List.range n).map (fun i => memGet m (a + i)) := by
  induction n generalizing a with
  | zero => rfl
  | succ n ih =>
    rw [List.range_succ_eq_map, List.map_cons, List.map_map, memRead, ih]
    refine congrArg (memGet m a :: ·) (List.map_congr_left fun i _ => ?_)
    simp only [Function.comp_apply, Nat.succ_eq_add_one]
    congr 1
    omega

theorem exec_sramWindowRead {a : Word} {c : Fin 4} {off : Nat} (h : sramAt a.toNat = some (c, off)) (n : Nat)
    (v : DWord) (s : State) :
    exec (.sramWindowAccess false a n v) s = run s (fun s => (s.sramRead c off n).bridged true) := by
  simp only [exec, execSramWindowAccess, h, Bool.false_eq_true, if_false]

theorem exec_sramWindowWrite {a : Word} {c : Fin 4} {off : Nat} (h : sramAt a.toNat = some (c, off)) (n : Nat)
    (v : DWord) (s : State) :
    exec (.sramWindowAccess true a n v) s = run s (fun s => (s.sramWrite c off n v).bridged true) := by
  simp only [exec, execSramWindowAccess, h, if_true]

/-- WIDE_READ of a window is a read of the SRAM. -/
theorem exec_wideRead_window {a : Word} {c : Fin 4} {off : Nat} (h : sramAt a.toNat = some (c, off)) (n : Nat)
    (s : State) : exec (.wideRead .bar0 a n) s = run s (fun s => (s.sramRead c off n).bridged true) := by
  simp only [exec_wideRead_bar0, State.readBar0, h]

/-! ### Reads -/

/-- A read of an IDLE slice without bad words returns its bytes and changes nothing. -/
theorem sramRead_idle (s : State) {c : Fin 4} {off size : Nat} (hk : sramSizeOk off size = true)
    (hi : (s.sl c).ctl.state = .idle) (hb : (s.sl c).err.badWords = []) :
    s.sramRead c off size = { s with readData := memRead (s.sl c).sram off size } := by
  have hd : s.sramData c off size = (memRead (s.sl c).sram off size, s) := if_pos (by simp [Slice.sramKnown, hi])
  unfold State.sramRead
  dsimp only
  rw [if_neg (by simp [hk]), if_neg (by rw [hi]; decide), hd, hb]
  rfl

theorem sramRead_malformed (s : State) {c : Fin 4} {off size : Nat} (hk : sramSizeOk off size = false) :
    s.sramRead c off size = { s.recordAccess .bar0 (0x1000000 * (c.val + 1) + 0x400000 + off) false with
      readData := List.replicate size 0 } :=
  if_pos (by simp [hk])

/-! ### Writes -/

/-- A write of byte 0 of a word makes the word's parity right; no other write touches the parities (R418). -/
theorem wordWritten_unarmed (e : Err) (off : Nat) (h : e.inject = none) :
    e.wordWritten off =
      { e with badWords := e.badWords.filter (fun w => !(decide (off % 8 = 0) && w == off)) } := by
  unfold Err.wordWritten
  dsimp only
  rw [if_neg (by simp [h])]
  by_cases h8 : off % 8 = 0
  · rw [if_pos (by omega), show off / 8 * 8 = off by omega]
    simp [h8, bne]
  · rw [if_neg (by omega)]
    simp [h8]

/-- What a write leaves of an IDLE slice without an armed injection. -/
def Slice.written (x : Slice) (off size : Nat) (v : DWord) : Slice :=
  { x with sram := memWrite x.sram off (le size v.toNat),
           err := { x.err with badWords := x.err.badWords.filter (fun w => !(decide (off % 8 = 0) && w == off)) } }

theorem sramWrite_idle (s : State) {c : Fin 4} {off size : Nat} (v : DWord) (hk : sramSizeOk off size = true)
    (hi : (s.sl c).ctl.state = .idle) (hj : (s.sl c).err.inject = none) :
    s.sramWrite c off size v = s.setSl c ((s.sl c).written off size v) := by
  unfold State.sramWrite
  dsimp only
  rw [if_pos (by simp [hk, hi])]
  simp only [State.modSl, Slice.written, wordWritten_unarmed _ off hj]

theorem sramWrite_refused (s : State) {c : Fin 4} {off size : Nat} (v : DWord)
    (h : sramSizeOk off size = false ∨ ((s.sl c).ctl.state ≠ .idle ∧ (s.sl c).inRegion off size = false)) :
    s.sramWrite c off size v = s.recordAccess .bar0 (0x1000000 * (c.val + 1) + 0x400000 + off) false := by
  refine if_neg ?_
  rcases h with hk | ⟨hi, hr⟩
  · simp [hk]
  · simp [hi, hr]

/-- Bytes of a value written to a canonical memory read back. -/
theorem memGet_memWrite_le (m : List Host.Cell) (off size v i : Nat) (hw : Memory.wf m = true) (hi : i < size) :
    memGet (memWrite m off (le size v)) (off + i) = (le size v).getD i 0 := by
  have hl : i < (le size v).length := by rw [length_le]; exact hi
  rw [memGet_memWrite_in i _ m off hl hw, List.getD_eq_getElem _ _ hl]

/-! ### The accesses of the host -/

theorem sl_bridged (s : State) (h : Bool) (c : Fin 4) : (s.bridged h).sl c = s.sl c := rfl

/-- A discarded access of a window is counted in its slice. -/
theorem recordAccess_window (s : State) {addr : Word} {c : Fin 4} {off : Nat}
    (ha : addr.toNat = 0x1000000 * (c.val + 1) + 0x400000 + off) (ho : off < 0xC00000)
    (hs : (s.sl c).ctl.state.served = true) :
    s.recordAccess .bar0 (0x1000000 * (c.val + 1) + 0x400000 + off) false =
      s.modSl c (fun x => { x with err := x.err.accessError addr }) := by
  rw [← ha, recordAccess_served s (sliceAt_sram ha ho) hs, lo32_toNat]

/-- A refused write of a window. -/
theorem sramWrite_counted (s : State) {addr : Word} {c : Fin 4} {off size : Nat} (v : DWord)
    (ha : addr.toNat = 0x1000000 * (c.val + 1) + 0x400000 + off) (ho : off < 0xC00000)
    (hs : (s.sl c).ctl.state.served = true)
    (h : sramSizeOk off size = false ∨ ((s.sl c).ctl.state ≠ .idle ∧ (s.sl c).inRegion off size = false)) :
    s.sramWrite c off size v = s.modSl c (fun x => { x with err := x.err.accessError addr }) := by
  rw [sramWrite_refused s v h, recordAccess_window s ha ho hs]

/-- Settles O12: reads of an IDLE slice, writes of it, writes in another state, accesses of another size or alignment. -/
theorem sramWindow : Obligations.SramWindow := by
  intro c addr off size v s ha ho hs ok error
  have hat := sramAt_window ha ho
  have hread := exec_sramWindowRead hat size v s
  have hwide := exec_wideRead_window hat size s
  have hwrite := exec_sramWindowWrite hat size v s
  refine ⟨fun hk hi hb => ?_, fun hk hi hj hw => ?_, fun _ hi hr => ?_, fun hk => ?_⟩
  · intro read
    have he : ∀ u o, s = { u with out := o } → (u.sramRead c off size).bridged true = read u := by
      rintro u o rfl
      rw [sramRead_idle u (sramSizeOk_iff.mpr hk) hi hb, memRead_eq_map]
      rfl
    exact ⟨run_does_from hread he, run_does_from hwide he⟩
  · refine run_gives_from hwrite (fun _ _ _ _ h => h) ?_
    rintro u o rfl
    rw [sramWrite_idle u v (sramSizeOk_iff.mpr hk) hi hj]
    simp only [sl_bridged, State.sl_setSl]
    exact ⟨fun i h => memGet_memWrite_le _ off size _ i (hw c) h,
      fun a h => memGet_memWrite_out a _ _ off (by rwa [length_le]), rfl,
      fun d hd => State.sl_setSl_ne u _ hd, rfl, rfl, rfl⟩
  · refine run_does_from hwrite ?_
    rintro u o rfl
    rw [sramWrite_counted u v ha ho hs (.inr ⟨hi, hr⟩)]
    rfl
  · have hk : sramSizeOk off size = false := Bool.eq_false_iff.mpr (mt sramSizeOk_iff.mp hk)
    have he : ∀ u o, s = { u with out := o } → (u.sramRead c off size).bridged true =
        { error u with readData := List.replicate size 0 } := by
      rintro u o rfl
      rw [sramRead_malformed u hk, recordAccess_window u ha ho hs]
      rfl
    refine ⟨run_does_from hwrite ?_, run_does_from hread he, run_does_from hwide he⟩
    rintro u o rfl
    rw [sramWrite_counted u v ha ho hs (.inl hk)]
    rfl

end Sys2Proof.Machine
end

section
/-! SUPPORT. What every command does to the SRAMs of the slices (R21, R46, R394, R402): most
cannot change them, and all keep their canonical form. -/

namespace Sys2Proof.Machine

open Sys2Proof

/-- The commands that may change a byte of a slice SRAM. -/
def mayChangeSram : Instr → Bool
  | .registerWrite .. | .rcRead .. | .latchRead .. | .wideRead .. | .sramWindowAccess .. | .cartridgeRemoved ..
  | .sliceReset .. | .cellParity .. | .sramParity .. | .busParity .. | .trellisParity ..
  | .blockResetTimeout .. | .supervisorEccError .. | .scrubAccess .. | .abbreviatedRampEnd .. | .grantCycle ..
  | .railCollapse .. | .powerUp .. | .moduleReset .. | .watchdogExpiry .. | .swapFail .. | .offReq ..
  | .offDrainEnd .. | .regacc .. | .modreset .. => true
  | _ => false

/-- Any other command leaves the SRAMs as they were. -/
theorem exec_srams {i : Instr} {s t : State} (hi : mayChangeSram i = false) (h : exec i s = .next t) :
    t.srams = s.srams := by
  cases i with
  | cartridgeInserted => exact execCartridgeInserted_srams _ _ _ _ h
  | selfTestComplete => exact execSelfTestComplete_srams _ _ _ _ _ _ h
  | startupCalibrationDone => exact execStartupCalibrationDone_srams _ _ _ _ _ h
  | shadowCheck => exact execShadowCheck_srams _ _ _ _ _ h
  | coefCrcCheck => exact execCoefCrcCheck_srams _ _ _ _ h
  | slotCheck => exact execSlotCheck_srams _ _ _ _ h
  | telemetryTick => exact execTelemetryTick_srams _ _ _ h
  | formeSetChunk => exact execFormeSetChunk_srams _ _ _ h
  | formeLockup => exact execFormeLockup_srams _ _ _ h
  | formeDiscard => exact execFormeDiscard_srams _ _ _ h
  | formeQuery => exact execFormeQuery_srams _ _ _ h
  | libStore => exact execLibStore_srams _ _ h
  | libLoad => exact execLibLoad_srams _ _ _ h
  | libErase => exact execLibErase_srams _ _ h
  | libBoot => exact execLibBoot_srams _ _ h
  | libList => exact execLibList_srams _ _ h
  | stagingTimeout => exact execStagingTimeout_srams _ _ _ h
  | lockupInstant => exact execLockupInstant_srams _ _ _ h
  | tbEpoch => exact execTbEpoch_srams _ _ _ _ _ _ h
  | ppsEdge => exact execPpsEdge_srams _ _ _ h
  | refinLost => exact execRefinLost_srams _ _ h
  | ppsLost => exact execPpsLost_srams _ _ h
  | trunkTimeLost => exact execTrunkTimeLost_srams _ _ h
  | clockTimeLost => exact execClockTimeLost_srams _ _ h
  | switchHoldExpired => exact execSwitchHoldExpired_srams _ _ h
  | holdoverEnd => exact execHoldoverEnd_srams _ _ h
  | tbmCfgWrite => exact execTbmCfgWrite_srams _ _ _ h
  | todSet => exact execTodSet_srams _ _ _ h
  | tbStep => exact execTbStep_srams _ _ h
  | tbHold => exact execTbHold_srams _ _ h
  | holdEnd => exact execHoldEnd_srams _ _ h
  | originChange => exact execOriginChange_srams _ _ h
  | mdllLockLoss => exact execMdllLockLoss_srams _ _ _ h
  | relockAttempt => exact execRelockAttempt_srams _ _ _ _ h
  | relocked => exact execRelocked_srams _ _ _ h
  | relockRegistration => exact execRelockRegistration_srams _ _ _ h
  | afeGainWrite => exact execAfeGainWrite_srams _ _ _ _ h
  | gainApply => exact execGainApply_srams _ _ _ h
  | agcWindowEnd => exact execAgcWindowEnd_srams _ _ _ _ h
  | attack => exact execAttack_srams _ _ _ _ h
  | agcRelease => exact execAgcRelease_srams _ _ _ h
  | agcCfgWrite => exact execAgcCfgWrite_srams _ _ _ _ h
  | tunerWrite => exact execTunerWrite_srams _ _ _ _ h
  | mismatchMeasurement => exact execMismatchMeasurement_srams _ _ _ _ h
  | calReqAdc => exact execCalReqAdc_srams _ _ _ h
  | calReqTuner => exact execCalReqTuner_srams _ _ _ h
  | calReqFlat => exact execCalReqFlat_srams _ _ _ h
  | calReqVco => exact execCalReqVco_srams _ _ _ h
  | calRequest => exact execCalRequest_srams _ _ _ h
  | calIntervalStart => exact execCalIntervalStart_srams _ _ _ h
  | calIntervalEnd => exact execCalIntervalEnd_srams _ _ _ _ h
  | calbgDcTrim => exact execCalbgDcTrim_srams _ _ _ _ _ _ _ h
  | calbgSynthTrim => exact execCalbgSynthTrim_srams _ _ _ _ h
  | ncoFreqWrite => exact execNcoFreqWrite_srams _ _ _ _ _ h
  | ncoRetune => exact execNcoRetune_srams _ _ _ _ h
  | bankSwapRequest => exact execBankSwapRequest_srams _ _ _ _ _ h
  | bankSwap => exact execBankSwap_srams _ _ _ _ h
  | xfadeEnd => exact execXfadeEnd_srams _ _ _ _ h
  | coefWrite => exact execCoefWrite_srams _ _ _ _ _ _ _ h
  | instanceFound => exact execInstanceFound_srams _ _ _ _ _ h
  | syncLimitExpired => exact execSyncLimitExpired_srams _ _ _ _ h
  | instanceLoss => exact execInstanceLoss_srams _ _ _ _ _ h
  | reacq => exact execReacq_srams _ _ _ _ h
  | measurementUpdate => exact execMeasurementUpdate_srams _ _ _ _ _ h
  | unitHandedOn => exact execUnitHandedOn_srams _ _ _ _ _ _ _ _ h
  | noiseInterval => exact execNoiseInterval_srams _ _ _ _ _ h
  | trigger => exact execTrigger_srams _ _ _ _ _ h
  | syncQualified => exact execSyncQualified_srams _ _ _ _ _ _ h
  | qualifierWindowClose => exact execQualifierWindowClose_srams _ _ _ _ _ h
  | capture => exact execCapture_srams _ _ _ _ _ _ h
  | trellisGrant => exact execTrellisGrant_srams _ _ _ _ h
  | segmentComplete => exact execSegmentComplete_srams _ _ _ _ _ h
  | afCheckStart => exact execAfCheckStart_srams _ _ _ _ h
  | afCheckTimeout => exact execAfCheckTimeout_srams _ _ _ _ h
  | afSwitch => exact execAfSwitch_srams _ _ _ _ h
  | afSpeculate => exact execAfSpeculate_srams _ _ _ _ h
  | candidateRotation => exact execCandidateRotation_srams _ _ _ _ h
  | alertTimeout => exact execAlertTimeout_srams _ _ _ _ h
  | entryDue => exact execEntryDue_srams _ _ _ h
  | pulseEnd => exact execPulseEnd_srams _ _ _ h
  | doneEntryExpiry => exact execDoneEntryExpiry_srams _ _ _ h
  | svcCfgWrite => exact execSvcCfgWrite_srams _ _ _ _ h
  | macBlockGrant => exact execMacBlockGrant_srams _ _ _ _ _ h
  | mirrorCommit => exact execMirrorCommit_srams _ _ _ h
  | keyload => exact execKeyload_srams _ _ _ h
  | keyDerive => exact execKeyDerive_srams _ _ _ _ h
  | keyErase => exact execKeyErase_srams _ _ _ h
  | tamperLoopOpen => exact execTamperLoopOpen_srams _ _ h
  | alarmInAsserted => exact execAlarmInAsserted_srams _ _ h
  | overTemperature => exact execOverTemperature_srams _ _ h
  | underTemperature => exact execUnderTemperature_srams _ _ h
  | sliceSupplyMonitor => exact execSliceSupplyMonitor_srams _ _ _ h
  | clockGlitch => exact execClockGlitch_srams _ _ _ h
  | mirrorEraseDone => exact execMirrorEraseDone_srams _ _ _ h
  | loadsUnblocked => exact execLoadsUnblocked_srams _ _ _ _ h
  | doorbellProducer => exact execDoorbellProducer_srams _ _ _ _ _ h
  | queueEnable => exact execQueueEnable_srams _ _ _ h
  | queueDisable => exact execQueueDisable_srams _ _ _ h
  | flush => exact execFlush_srams _ _ _ h
  | descriptorFetch => exact execDescriptorFetch_srams _ _ _ _ _ h
  | dmaReadError => exact execDmaReadError_srams _ _ _ _ _ h
  | poisonedWrite => exact execPoisonedWrite_srams _ _ _ h
  | flushUsExpired => exact execFlushUsExpired_srams _ _ _ h
  | dmaGrant => exact execDmaGrant_srams _ _ h
  | rawCapWindow => exact execRawCapWindow_srams _ _ h
  | irqHoldoffEnd => exact execIrqHoldoffEnd_srams _ _ _ h
  | commandFetch => exact execCommandFetch_srams _ _ _ _ _ _ _ h
  | nop => exact execNop_srams _ _ _ h
  | heldCompletionRelease => exact execHeldCompletionRelease_srams _ _ _ h
  | hostPortReset => exact execHostPortReset_srams _ _ h
  | hostPortResetExit => exact execHostPortResetExit_srams _ _ _ _ _ h
  | txSend => exact execTxSend_srams _ _ _ h
  | txRxwin => exact execTxRxwin_srams _ _ _ h
  | rxwinOpen => exact execRxwinOpen_srams _ _ _ h
  | rxwinEnd => exact execRxwinEnd_srams _ _ _ _ h
  | synthLocked => exact execSynthLocked_srams _ _ _ _ _ h
  | synthLockLoss => exact execSynthLockLoss_srams _ _ _ h
  | txHoldExpired => exact execTxHoldExpired_srams _ _ _ h
  | plannedKeyup => exact execPlannedKeyup_srams _ _ _ h
  | trSwTransmit => exact execTrSwTransmit_srams _ _ _ h
  | paEnRise => exact execPaEnRise_srams _ _ _ h
  | rampUp => exact execRampUp_srams _ _ _ h
  | rampDown => exact execRampDown_srams _ _ _ _ _ h
  | burstEnd => exact execBurstEnd_srams _ _ _ h
  | nextBurst => exact execNextBurst_srams _ _ _ h
  | trSwRelease => exact execTrSwRelease_srams _ _ _ h
  | coexRelease => exact execCoexRelease_srams _ _ _ h
  | coexGrant => exact execCoexGrant_srams _ _ _ h
  | gntWaitExpired => exact execGntWaitExpired_srams _ _ _ h
  | coexWithdrawn => exact execCoexWithdrawn_srams _ _ _ h
  | amplifierFault => exact execAmplifierFault_srams _ _ _ _ _ h
  | cancel => exact execCancel_srams _ _ _ h
  | faultClr => exact execFaultClr_srams _ _ _ h
  | frameStart => exact execFrameStart_srams _ _ _ _ _ _ h
  | gridFrame => exact execGridFrame_srams _ _ _ _ h
  | stall => exact execStall_srams _ _ _ _ h
  | bclkOverrate => exact execBclkOverrate_srams _ _ _ _ h
  | gateTimeout => exact execGateTimeout_srams _ _ _ _ h
  | txStart => exact execTxStart_srams _ _ _ h
  | txStop => exact execTxStop_srams _ _ _ h
  | rxStart => exact execRxStart_srams _ _ _ h
  | rxStop => exact execRxStop_srams _ _ _ h
  | regInEdge => exact execRegInEdge_srams _ _ h
  | registration => exact execRegistration_srams _ _ h
  | trkRegArm => exact execTrkRegArm_srams _ _ h
  | trkRegCancel => exact execTrkRegCancel_srams _ _ h
  | trkSave => exact execTrkSave_srams _ _ h
  | trkExport => exact execTrkExport_srams _ _ h
  | trkPush => exact execTrkPush_srams _ _ _ h
  | pushRound => exact execPushRound_srams _ _ h
  | transferDrop => exact execTransferDrop_srams _ _ _ h
  | sync => exact execSync_srams _ _ _ _ h
  | delayReq => exact execDelayReq_srams _ _ _ _ h
  | announce => exact execAnnounce_srams _ _ _ _ h
  | announceTick => exact execAnnounceTick_srams _ _ h
  | topology => exact execTopology_srams _ _ _ _ h
  | regArm => exact execRegArm_srams _ _ _ _ h
  | xferStatus => exact execXferStatus_srams _ _ _ _ h
  | recordFrame => exact execRecordFrame_srams _ _ _ _ h
  | chunkFrame => exact execChunkFrame_srams _ _ _ _ h
  | endFrame => exact execEndFrame_srams _ _ _ _ h
  | abortedStream => exact execAbortedStream_srams _ _ _ _ h
  | linkUp => exact execLinkUp_srams _ _ _ h
  | linkLost => exact execLinkLost_srams _ _ _ _ h
  | probeTimeout => exact execProbeTimeout_srams _ _ _ h
  | reparentHoldEnd => exact execReparentHoldEnd_srams _ _ h
  | reparent => exact execReparent_srams _ _ h
  | trkCfgWrite => exact execTrkCfgWrite_srams _ _ _ h
  | inputMeasurement => exact execInputMeasurement_srams _ _ _ h
  | brownOut => exact execBrownOut_srams _ _ h
  | normalRestored => exact execNormalRestored_srams _ _ h
  | inputLoss => exact execInputLoss_srams _ _ h
  | inputReturn => exact execInputReturn_srams _ _ h
  | budgetWrite => exact execBudgetWrite_srams _ _ _ h
  | auxWrite => exact execAuxWrite_srams _ _ _ h
  | auxFault => exact execAuxFault_srams _ _ h
  | pwrQuery => exact execPwrQuery_srams _ _ h
  | pwrSave => exact execPwrSave_srams _ _ h
  | moduleReady => exact execModuleReady_srams _ _ _ h
  | bayIdentify => exact execBayIdentify_srams _ _ _ h
  | featureCommit => exact execFeatureCommit_srams _ _ _ h
  | feaSave => exact execFeaSave_srams _ _ h
  | fwLoadChunk => exact execFwLoadChunk_srams _ _ h
  | fwActivate => exact execFwActivate_srams _ _ h
  | fwQuery => exact execFwQuery_srams _ _ h
  | swapStart => exact execSwapStart_srams _ _ h
  | swapDone => exact execSwapDone_srams _ _ h
  | pushedImageActivate => exact execPushedImageActivate_srams _ _ h
  | onReq => exact execOnReq_srams _ _ _ h
  | calibrate => exact execCalibrate_srams _ _ h
  | calibrateAt => exact execCalibrateAt_srams _ _ h
  | eraseKeys => exact execEraseKeys_srams _ _ h
  | deriveKey => exact execDeriveKey_srams _ _ h
  | mailboxBadOpcode => exact execMailboxBadOpcode_srams _ _ h
  | errorInject => exact execErrorInject_srams _ _ _ _ h
  | tapReset => exact execTapReset_srams _ _ h
  | extest => exact execExtest_srams _ _ _ _ h
  | sampleDelivered => exact execSampleDelivered_srams _ _ _ _ _ h
  | frameCrcError => exact execFrameCrcError_srams _ _ _ _ h
  | trunkEgress => exact execTrunkEgress_srams _ _ _ h
  | flashWriteDone => exact execFlashWriteDone_srams _ _ _ h
  | _ => exact absurd hi Bool.noConfusion

/-- Every command keeps the canonical form of the SRAMs. -/
theorem exec_sramWf {i : Instr} {s t : State} (hs : SramWf s) (h : exec i s = .next t) : SramWf t := by
  cases i with
  | registerWrite => exact execRegisterWrite_sramWf _ _ _ _ _ hs h
  | rcRead => exact execRcRead_sramWf _ _ _ hs h
  | latchRead => exact execLatchRead_sramWf _ _ _ hs h
  | wideRead => exact execWideRead_sramWf _ _ _ _ _ hs h
  | sramWindowAccess => exact execSramWindowAccess_sramWf _ _ _ _ _ _ hs h
  | cartridgeRemoved => exact execCartridgeRemoved_sramWf _ _ _ hs h
  | sliceReset => exact execSliceReset_sramWf _ _ _ hs h
  | cellParity => exact execCellParity_sramWf _ _ _ _ hs h
  | sramParity => exact execSramParity_sramWf _ _ _ _ _ _ hs h
  | busParity => exact execBusParity_sramWf _ _ _ _ _ _ _ _ _ hs h
  | trellisParity => exact execTrellisParity_sramWf _ _ _ _ hs h
  | blockResetTimeout => exact execBlockResetTimeout_sramWf _ _ _ _ hs h
  | supervisorEccError => exact execSupervisorEccError_sramWf _ _ _ hs h
  | scrubAccess => exact execScrubAccess_sramWf _ _ _ hs h
  | abbreviatedRampEnd => exact execAbbreviatedRampEnd_sramWf _ _ _ hs h
  | grantCycle => exact execGrantCycle_sramWf _ _ hs h
  | railCollapse => exact execRailCollapse_sramWf _ _ hs h
  | powerUp => exact execPowerUp_sramWf _ _ hs h
  | moduleReset => exact execModuleReset_sramWf _ _ _ hs h
  | watchdogExpiry => exact execWatchdogExpiry_sramWf _ _ hs h
  | swapFail => exact execSwapFail_sramWf _ _ _ hs h
  | offReq => exact execOffReq_sramWf _ _ _ hs h
  | offDrainEnd => exact execOffDrainEnd_sramWf _ _ _ hs h
  | regacc => exact execRegacc_sramWf _ _ _ _ _ hs h
  | modreset => exact execModreset_sramWf _ _ _ hs h
  | _ => exact sramWf_of (exec_srams rfl h) hs

/-- A tick of time leaves the SRAMs as they were. -/
theorem tick_srams (s : State) : (tick s).srams = s.srams := by
  unfold tick
  exact (blockIrqs_srams s _).trans ((State.senseTick_srams _).trans (State.pass_srams _))

/-- Settles O6: a step is a tick or a command, and both keep the form. -/
theorem sramFormKept : Obligations.SramFormKept := by
  intro s t hs h
  unfold step at h
  split at h
  next =>
    injection h with h
    exact sramWf_of (h ▸ tick_srams s) hs
  next cs _ => exact exec_sramWf (s := { s with pending := cs }) hs h

/-- Settles O7: a command that the statement does not name leaves the SRAMs as they were. -/
theorem sramFrame : Obligations.SramFrame := by
  intro i s t h
  cases i with
  | registerWrite | rcRead | latchRead | wideRead | sramWindowAccess | cartridgeRemoved
  | sliceReset | cellParity | sramParity | busParity | trellisParity
  | blockResetTimeout | supervisorEccError | scrubAccess | abbreviatedRampEnd | grantCycle
  | railCollapse | powerUp | moduleReset | watchdogExpiry | swapFail | offReq
  | offDrainEnd | regacc | modreset =>
    trivial
  | _ => exact fun c a => congrArg (memGet · a) (congrFun (exec_srams rfl h) c)

end Sys2Proof.Machine
end

section
/-! SUPPORT. Writes of CTL (R35, R39, R40): its registers answer in every state of the slice. -/

namespace Sys2Proof.Machine

open Sys2Proof

/-- A write of a register of CTL reaches it, whatever the state of the slice. -/
theorem sliceWriteAt_ctl (s : State) (v : Word) {c : Fin 4} {o : Nat} (ho : o < 0x10000)
    (hr : (s.sliceReg c o).isSome) : s.sliceWriteAt c o v = s.ctlWrite c o v := by
  have hw := inWindow_below s c (show o < 0x110000 by omega)
  have hc : s.ctlOffset c o = true := by simp [State.ctlOffset, ho]
  have hreg : s.sliceRegWrite c o v = s.ctlWrite c o v := by
    unfold State.sliceRegWrite
    dsimp only
    rw [if_pos ho, Nat.mod_eq_of_lt ho]
  unfold State.sliceWriteAt State.sliceRegOrWindow
  simp only [hw, hc, Bool.false_eq_true, ↓reduceIte, Bool.or_true, Bool.not_true,
    Option.isNone_eq_false_iff.mpr hr, hreg]

/-- R39: BURST must lie in 1 to 64. -/
theorem writeBg_eq (k : Ctl) (w : Word) :
    k.writeBg w =
      if 1 ≤ bf w 8 8 ∧ bf w 8 8 ≤ 64 then { k with bgCfg := mkWord [(8, 8, bf w 8 8), (0, 1, bf w 0 1)] }
      else { k with cfgReject := true } := by
  unfold Ctl.writeBg
  by_cases h : 1 ≤ bf w 8 8 ∧ bf w 8 8 ≤ 64
  · rw [if_neg (by omega), if_pos h]
  · rw [if_pos (by omega), if_neg h]

/-- Settles O8: the write reaches BG_CFG in every state, and `Ctl.writeBg` checks the range. -/
theorem writeBgCfg : Obligations.WriteBgCfg := by
  intro c addr v s ha w
  have hat : sliceAt addr.toNat = some (c, 0xC) := by rw [ha]; exact sliceAt_slice c (by decide)
  refine run_does_from (exec_registerWrite ..) ?_
  rintro u o rfl
  rw [writeBar0_slice _ v hat (by decide) (by omega), sliceWriteAt_ctl u _ (by decide) rfl]
  change (u.modSl c (fun x => { x with ctl := x.ctl.writeBg w })).bridged true = _
  simp only [writeBg_eq]
  rfl

end Sys2Proof.Machine
end

section
/-! SUPPORT. What records, completions and pins leave alone. Making a record (R291), completing a command (R281) and
driving a pin (R237) touch the queues, the trunk, what a swap holds back, the mailbox and the scheduler: the rest of
the state is the same before and after, said once here. -/

namespace Sys2Proof.Machine

open Sys2Proof

/-- The state without the parts that records, completions, messages and pins pass through. -/
def State.offRecord (s : State) : State :=
  { s with
    queues := Vector.replicate 256 (Queue.reset false), qmg := { s.qmg with msixPba := 0 }, trk := Trk.reset,
    mod := { s.mod with heldRecs := [], heldDone := [] }, mailbox := Mailbox.reset,
    errm := { s.errm with lost := 0, marks := [] }, sched := Vector.replicate 4 Sched.reset,
    evt := Vector.replicate 8 { level := false, pulse := none }, evtPins := 0, out := [] }

section
variable {s t : State}

theorem slices_of_offRecord (h : t.offRecord = s.offRecord) : t.slices = s.slices := (congrArg State.slices h : _)
theorem tbm_of_offRecord (h : t.offRecord = s.offRecord) : t.tbm = s.tbm := (congrArg State.tbm h : _)
theorem pwr_of_offRecord (h : t.offRecord = s.offRecord) : t.pwr = s.pwr := (congrArg State.pwr h : _)
theorem fea_of_offRecord (h : t.offRecord = s.offRecord) : t.fea = s.fea := (congrArg State.fea h : _)
theorem calStore_of_offRecord (h : t.offRecord = s.offRecord) :
    t.calStore = s.calStore := (congrArg State.calStore h : _)
theorem tap_of_offRecord (h : t.offRecord = s.offRecord) : t.tap = s.tap := (congrArg State.tap h : _)
theorem real_of_offRecord (h : t.offRecord = s.offRecord) : t.real = s.real := (congrArg State.real h : _)

theorem sl_of_offRecord (h : t.offRecord = s.offRecord) (c : Fin 4) : t.sl c = s.sl c :=
  congrArg (Vector.get · c) (slices_of_offRecord h)

theorem tb_of_offRecord (h : t.offRecord = s.offRecord) : t.tb = s.tb := congrArg Tbm.tb (tbm_of_offRecord h)

theorem modEvents_of_offRecord (h : t.offRecord = s.offRecord) : t.mod.events = s.mod.events :=
  (congrArg (fun u : State => u.mod.events) h : _)

theorem made_of_offRecord (h : t.offRecord = s.offRecord) : t.errm.made = s.errm.made :=
  (congrArg (fun u : State => u.errm.made) h : _)

end

/-! ### Building blocks -/

@[simp] theorem offRecord_modQ (s : State) (q : Fin 256) (f : Queue → Queue) :
    (s.modQ q f).offRecord = s.offRecord := rfl
@[simp] theorem offRecord_modPort (s : State) (p : Fin 3) (f : Port → Port) :
    (s.modPort p f).offRecord = s.offRecord := rfl
@[simp] theorem offRecord_modSch (s : State) (c : Fin 4) (f : Sched → Sched) :
    (s.modSch c f).offRecord = s.offRecord := rfl
@[simp] theorem offRecord_emit (s : State) (o : Output) : (s.emit o).offRecord = s.offRecord := rfl
@[simp] theorem offRecord_trk (s : State) (k : Trk) : ({ s with trk := k } : State).offRecord = s.offRecord := rfl

@[simp] theorem offRecord_ite {p : Prop} [Decidable p] (a b : State) :
    (if p then a else b).offRecord = if p then a.offRecord else b.offRecord := apply_ite ..

/-- An iteration whose every round leaves the rest of the state alone does so. -/
theorem offRecord_foldl {α : Type} {g : State → α → State} (h : ∀ t a, (g t a).offRecord = t.offRecord) (l : List α)
    (s : State) : (l.foldl g s).offRecord = s.offRecord := by
  induction l generalizing s with
  | nil => rfl
  | cons a l ih => rw [List.foldl_cons, ih, h]

theorem sendMsix_offRecord (v : Nat) (s : State) : (sendMsix v s).offRecord = s.offRecord := by
  unfold sendMsix
  split <;> rfl

/-! ### The trunk -/

@[simp] theorem egress_offRecord (s : State) (p : Fin 3) (i : Nat) (f : Frame) :
    (s.egress p i f).1.offRecord = s.offRecord :=
  rfl

@[simp] theorem toChildren_offRecord (s : State) (i : Option Nat) (f : Frame) :
    (s.toChildren i f).1.offRecord = s.offRecord := by
  unfold State.toChildren
  generalize allPorts = l
  suffices h : ∀ a : State × Bool, (l.foldl (fun (a : State × Bool) p =>
      if (a.1.port p).state = .child then
        let r := a.1.egress p (i.getD p.val) f
        (r.1, a.2 || r.2)
      else a) a).1.offRecord = a.1.offRecord from h (s, false)
  induction l with
  | nil => exact fun _ => rfl
  | cons p l ih =>
    intro a
    rw [List.foldl_cons, ih]
    split <;> rfl

@[simp] theorem originate_offRecord (s : State) (cls : FrameClass) (dir : FrameDir) (kind : Nat) (turn : Bool)
    (dest : Nat) (payload : List Byte) : (s.originate cls dir kind turn dest payload).1.offRecord = s.offRecord := by
  unfold State.originate
  dsimp only
  split
  · split
    · split <;> rfl
    · split
      · simp
      · split <;> simp
    · rfl
  · simp

@[simp] theorem exportRec_offRecord (s : State) (q : Fin 256) (r : Record) :
    (s.exportRec q r).offRecord = s.offRecord := by
  refine offRecord_foldl (fun t e => ?_) _ s
  dsimp only
  simp

/-! ### Staging -/

@[simp] theorem takeSeq_offRecord (s : State) (q : Fin 256) : (s.takeSeq q).2.offRecord = s.offRecord := rfl

@[simp] theorem lossTail_offRecord (s : State) (q : Fin 256) (causes : Byte) (lost : Nat) (es : List SrcCount)
    (ts : Nat) :
    (s.lossTail q causes lost es ts).offRecord = s.offRecord := by
  unfold State.lossTail
  dsimp only
  split <;> split <;> rfl

@[simp] theorem lossHead_offRecord (s : State) (q : Fin 256) (causes : Byte) (lost : Nat) (es : List SrcCount)
    (ts : Nat) :
    (s.lossHead q causes lost es ts).offRecord = s.offRecord := rfl

@[simp] theorem lose_offRecord (s : State) (q : Fin 256) (causes : Byte) (lost : Nat) (es : List SrcCount) (ts : Nat) :
    (s.lose q causes lost es ts).offRecord = s.offRecord := by simp [State.lose]

@[simp] theorem countLost_offRecord (s : State) (q : Fin 256) (n : Nat) :
    (s.countLost q n).offRecord = s.offRecord := by
  unfold State.countLost
  dsimp only
  split <;> rfl

@[simp] theorem makeRoom_offRecord (need : Nat) (q : Fin 256) (n : Nat) (s : State) :
    (State.makeRoom need q n s).offRecord = s.offRecord := by
  induction n generalizing s with
  | zero => rfl
  | succ n ih =>
    unfold State.makeRoom
    dsimp only
    split
    · rfl
    · split
      · rfl
      · split
        · simp [ih]
        · rfl

@[simp] theorem enter_offRecord (s : State) (q : Fin 256) (r : Record) : (s.enter q r).offRecord = s.offRecord := by
  simp [State.enter]

@[simp] theorem stage_offRecord (s : State) (q : Fin 256) (r : Record) : (s.stage q r).offRecord = s.offRecord := by
  simp [State.stage]

@[simp] theorem gap_offRecord (s : State) (q : Fin 256) (cause lost : Nat) (es : List SrcCount) (ts : Nat) :
    (s.gap q cause lost es ts).offRecord = s.offRecord := by simp [State.gap]

@[simp] theorem stageOrHold_offRecord (s : State) (q : Fin 256) (r : Record) :
    (s.stageOrHold q r).offRecord = s.offRecord := by
  unfold State.stageOrHold
  split
  · rfl
  · exact stage_offRecord s q r

/-! ### Completions -/

@[simp] theorem deliverDone_offRecord (s : State) (q : Fin 256) (r : Record) :
    (s.deliverDone q r).offRecord = s.offRecord := by
  simp [State.deliverDone]

@[simp] theorem report_offRecord (s : State) (k : CmdRef) (status : Nat) (result : List Byte) :
    (s.report k status result).offRecord = s.offRecord := by
  unfold State.report
  dsimp only
  split
  · rfl
  · exact deliverDone_offRecord ..

@[simp] theorem endNops_offRecord (s : State) (q : Fin 256) : (s.endNops q).offRecord = s.offRecord :=
  offRecord_foldl (fun _ _ => report_offRecord ..) _ _

@[simp] theorem complete_offRecord (s : State) (k : CmdRef) (status : Nat) (result : List Byte) :
    (s.complete k status result).offRecord = s.offRecord := by
  unfold State.complete
  simp only [endNops_offRecord, report_offRecord]
  split <;> rfl

@[simp] theorem lockDone_offRecord (s : State) (k : Option CmdRef) (status : Nat) (result : List Byte) :
    (s.lockDone k status result).offRecord = s.offRecord := by
  cases k with
  | none => rfl
  | some k => exact complete_offRecord ..

/-! ### FAULT records -/

/-- A FAULT record counts in MADE and changes nothing else beyond what records pass through. -/
theorem fault_offRecord (s : State) (i : FaultInfo) :
    (s.fault i).offRecord =
      { s.offRecord with errm := { s.offRecord.errm with made := min (s.errm.made + 1) 0xFFFF } } := by
  unfold State.fault State.faultAt
  dsimp only
  rw [stageOrHold_offRecord]
  rfl

section
variable (s : State) (i : FaultInfo)

@[simp] theorem fault_slices : (s.fault i).slices = s.slices := (congrArg State.slices (fault_offRecord s i) : _)
@[simp] theorem fault_sl (c : Fin 4) : (s.fault i).sl c = s.sl c := congrArg (Vector.get · c) (fault_slices s i)
@[simp] theorem fault_tbm : (s.fault i).tbm = s.tbm := (congrArg State.tbm (fault_offRecord s i) : _)
@[simp] theorem fault_tb : (s.fault i).tb = s.tb := congrArg Tbm.tb (fault_tbm s i)
@[simp] theorem fault_pwr : (s.fault i).pwr = s.pwr := (congrArg State.pwr (fault_offRecord s i) : _)
@[simp] theorem fault_fea : (s.fault i).fea = s.fea := (congrArg State.fea (fault_offRecord s i) : _)
@[simp] theorem fault_calStore :
    (s.fault i).calStore = s.calStore := (congrArg State.calStore (fault_offRecord s i) : _)
@[simp] theorem fault_tap : (s.fault i).tap = s.tap := (congrArg State.tap (fault_offRecord s i) : _)
@[simp] theorem fault_real : (s.fault i).real = s.real := (congrArg State.real (fault_offRecord s i) : _)

@[simp] theorem fault_modEvents : (s.fault i).mod.events = s.mod.events :=
  (congrArg (fun u : State => u.mod.events) (fault_offRecord s i) : _)

@[simp] theorem fault_made : (s.fault i).errm.made = min (s.errm.made + 1) 0xFFFF :=
  (congrArg (fun u : State => u.errm.made) (fault_offRecord s i) : _)

end

/-! ### Buffers, pins and scheduled events -/

@[simp] theorem queueIrq_offRecord (s : State) (q : Fin 256) : (s.queueIrq q).offRecord = s.offRecord := by
  unfold State.queueIrq
  dsimp only
  split
  · rfl
  · simp [sendMsix_offRecord]

@[simp] theorem handOver_offRecord (s : State) (q : Fin 256) (desc status : Nat) :
    (s.handOver q desc status).offRecord = s.offRecord := by simp [State.handOver]

@[simp] theorem closeBuf_offRecord (s : State) (q : Fin 256) (early : Bool) :
    (s.closeBuf q early).offRecord = s.offRecord := by
  unfold State.closeBuf
  split <;> simp

@[simp] theorem schedRecord_offRecord (s : State) (c : Fin 4) (f : Option Forme) (e : SchedEntry)
    (outcome code ts : Nat) :
    (s.schedRecord c f e outcome code ts).offRecord = s.offRecord := by
  unfold State.schedRecord
  cases f <;> simp

@[simp] theorem setPulse_offRecord (s : State) (pin : Fin 8) (p : Option (Nat × Fin 4 × Fin 64)) :
    (s.setPulse pin p).offRecord = s.offRecord := rfl

@[simp] theorem setPin_offRecord (s : State) (pin : Fin 8) (level : Bool) :
    (s.setPin pin level).offRecord = s.offRecord := by
  unfold State.setPin
  exact (offRecord_ite _ _).trans (ite_self _)

@[simp] theorem cancelEntries_offRecord (s : State) (c : Fin 4) (f keeps : Option Forme) (now : Nat) (p : Nat → Bool) :
    (s.cancelEntries c f keeps now p).offRecord = s.offRecord := by
  unfold State.cancelEntries
  dsimp only
  rw [offRecord_foldl (fun t i => ?pins), offRecord_foldl (fun t e => ?records), offRecord_modSch]
  case pins => split <;> simp
  case records => simp

@[simp] theorem setClaim_offRecord (s : State) (c : Fin 4) (claim : Nat) :
    (s.setClaim c claim).offRecord = s.offRecord := by
  unfold State.setClaim
  dsimp only
  rw [offRecord_foldl (fun t i => ?pins), offRecord_modSch]
  case pins => simp

@[simp] theorem dropRules_offRecord (s : State) (c : Fin 4) : (s.dropRules c).offRecord = s.offRecord := by
  simp [State.dropRules]

end Sys2Proof.Machine
end

section
/-! SUPPORT. Tables, and an SRAM page that a parity error retires (R402, R403): its spare page, its zeros, its count. -/

namespace Sys2Proof.Machine

open Sys2Proof

/-! ### Tables -/

theorem vget_vmod_same {α : Type} {n : Nat} (v : Vector α n) {i : Nat} (f : α → α) (d : α) (h : i < n) :
    vget (vmod v i f) i d = f (vget v i d) := by
  simp [vget, vmod, h]

theorem vget_vmod_ne {α : Type} {n : Nat} (v : Vector α n) {i j : Nat} (f : α → α) (d : α) (h : j ≠ i) :
    vget (vmod v i f) j d = vget v j d := by
  unfold vmod
  split
  · simp [vget, Ne.symm h]
  · rfl

/-! ### Slices -/

theorem sl_congr {s t : State} (h : t.slices = s.slices) (c : Fin 4) : t.sl c = s.sl c := congrArg (Vector.get · c) h

theorem modSl_slices_congr {s t : State} (h : t.slices = s.slices) (c : Fin 4) (f : Slice → Slice) :
    (t.modSl c f).slices = (s.modSl c f).slices := by
  simp only [State.modSl, State.setSl, State.sl, h]

/-- Cleared bytes read 0, all others as before. -/
theorem memGet_memClear (m : List Host.Cell) (lo hi a : Nat) :
    memGet (memClear m lo hi) a = if lo ≤ a ∧ a < hi then 0 else memGet m a := by
  induction m with
  | nil => simp [memClear, memGet]
  | cons x m ih =>
    obtain ⟨b, w⟩ := x
    unfold memClear at ih ⊢
    by_cases hb : b < lo ∨ hi ≤ b
    · rw [List.filter_cons_of_pos (by simpa using hb)]
      simp only [memGet, ih]
      by_cases hab : a = b
      · rw [if_pos hab, if_pos hab, if_neg (by omega)]
      · rw [if_neg hab, if_neg hab]
    · rw [List.filter_cons_of_neg (by simpa using hb), ih]
      simp only [memGet]
      split
      · rfl
      · rw [if_neg (by omega)]

/-! ### Errors that are the first of their kind (R399) -/

/-- A cell error with none before it in the last second is only noted. -/
theorem countCell_first (s : State) {c : Fin 4} (b : Option SliceBlock) (event : Nat) (h : (s.sl c).err.cellErrs = []) :
    s.countCell c b event =
      s.modErr c (fun e => { e with cellErrs := [(match b with | some b => blockCode b | none => 0x40, s.tb)] }) := by
  unfold State.countCell
  rw [h]
  exact if_pos (by simp)

/-! ### The page -/

/-- What an SRAM error at a page without an owner leaves of a slice that has a spare page for it: the page is retired,
and the error is counted at `now` (R402, R415). -/
def Slice.pageLost (x : Slice) (p now : Nat) : Slice :=
  let y := x.retirePage p
  { y with err := { y.err with memCnt := min (x.err.memCnt + 1) 0xFFFF, cellErrs := [(0x40, now)] } }

section
variable (x : Slice) (p now : Nat)

theorem pageLost_retired : (x.pageLost p now).err.retired.contains p = true := by
  simp only [Slice.pageLost, Slice.retirePage]
  split
  · assumption
  · simp

theorem pageLost_spares :
    vget (x.pageLost p now).err.spares (p % 16) 0 = vget x.err.spares (p % 16) 0 - 1 :=
  vget_vmod_same _ _ _ (Nat.mod_lt _ (by decide))

theorem memGet_pageLost (a : Nat) :
    memGet (x.pageLost p now).sram a = if a / 4096 = p then 0 else memGet x.sram a := by
  refine (memGet_memClear ..).trans (if_congr ?_ rfl rfl)
  omega

end

/-- The owners of a page that no block works in. -/
def ownerless (o : PageOwner) : Prop := o = .host ∨ o = .nobody

/-- An SRAM error in a page that a host region or nothing owns, in a bank with a spare page, changes the slices only
by the page that is retired. -/
theorem sramError_unowned (s : State) {c : Fin 4} {off : Nat} {o : PageOwner} (ho : ownerless o)
    (hs : 0 < vget (s.sl c).err.spares (off / 4096 % 16) 0) (he : (s.sl c).err.cellErrs = []) :
    (s.sramError c off o).slices = (s.modSl c (fun x => x.pageLost (off / 4096) s.tb)).slices := by
  have hb : ownerBlock o = none := by rcases ho with rfl | rfl <;> rfl
  have hown (u : State) : (u.ownPage c off o).slices = u.slices ∧ (u.ownPage c off o).tb = u.tb := by
    rcases ho with rfl | rfl <;> exact ⟨fault_slices .., fault_tb ..⟩
  unfold State.sramError
  dsimp only
  rw [if_neg (show ¬vget (s.sl c).err.spares (pageBank (off / 4096)) 0 = 0 from hs.ne'), hb]
  set u := (s.modErr c (fun e => { e with memCnt := count 16 1 e.memCnt })).modSl c
    (fun x => x.retirePage (off / 4096)) with hu
  obtain ⟨hsl, htb⟩ := hown u
  have hcell : ((u.ownPage c off o).sl c).err.cellErrs = [] := by
    rw [sl_congr hsl, hu, State.modErr, State.modSl_modSl, State.sl_modSl]
    exact he
  rw [countCell_first _ none 0x01 hcell, htb, State.modErr, modSl_slices_congr hsl, hu, State.modErr, State.modSl_modSl,
    State.modSl_modSl]
  rfl

end Sys2Proof.Machine
end

section
/-! SUPPORT. What the blocks of a slice leave alone when they stop, fail or are cleared (R19, R20, R21). A block's
work reaches the block's own registers, records, requests for power and the sources of TBM. It never reaches the
slice's CTL and ERR blocks, its cartridge, its key slots, its SRAM, its shadow store but for the staged area, nor
another slice but for the control of its clock (R95, R103). Each operation below says so as one equation of
`State.frame`. -/

namespace Sys2Proof.Machine

open Sys2Proof

/-- The parts of a slice that the work of its blocks leaves alone. -/
def Slice.core (x : Slice) : Ctl × Option Cartridge × Shadow × Vector KeySlot 64 × Err × List Host.Cell :=
  (x.ctl, x.cart, { x.shadow with area := .empty }, x.mac.slots, x.err, x.sram)

/-- A slice but for the control of its clock. -/
def Slice.offClock (x : Slice) : Slice := { x with clk := Clk.reset }

/-- The parts of the state that the work of the blocks of slice `c` leaves alone. -/
def State.frame (c : Fin 4) (s : State) :
    Nat × (Ctl × Option Cartridge × Shadow × Vector KeySlot 64 × Err × List Host.Cell) × (Fin 4 → Option Slice) :=
  (s.real, (s.sl c).core, fun d => if d = c then none else some (s.sl d).offClock)

theorem eq_of_offClock {x y : Slice} (h : x.offClock = y.offClock) : x = { y with clk := x.clk } :=
  (congrArg (fun z : Slice => { z with clk := x.clk }) h : _)

/-! ### What a frame says -/

section
variable {c : Fin 4} {s t : State} (h : t.frame c = s.frame c)
include h

theorem real_of_frame : t.real = s.real := congrArg Prod.fst h
theorem core_of_frame : (t.sl c).core = (s.sl c).core := congrArg (fun p => p.2.1) h
theorem ctl_of_frame : (t.sl c).ctl = (s.sl c).ctl := congrArg Prod.fst (core_of_frame h)
theorem cart_of_frame : (t.sl c).cart = (s.sl c).cart := congrArg (fun p => p.2.1) (core_of_frame h)
theorem slots_of_frame : (t.sl c).mac.slots = (s.sl c).mac.slots := congrArg (fun p => p.2.2.2.1) (core_of_frame h)
theorem err_of_frame : (t.sl c).err = (s.sl c).err := congrArg (fun p => p.2.2.2.2.1) (core_of_frame h)
theorem sram_of_frame : (t.sl c).sram = (s.sl c).sram := congrArg (fun p => p.2.2.2.2.2) (core_of_frame h)

theorem shadow_of_frame :
    { (t.sl c).shadow with area := .empty } = ({ (s.sl c).shadow with area := .empty } : Shadow) :=
  congrArg (fun p => p.2.2.1) (core_of_frame h)

theorem active_of_frame : (t.sl c).shadow.active = (s.sl c).shadow.active :=
  (congrArg Shadow.active (shadow_of_frame h) : _)

theorem boot_of_frame : (t.sl c).shadow.boot = (s.sl c).shadow.boot := (congrArg Shadow.boot (shadow_of_frame h) : _)

theorem bad_of_frame : (t.sl c).shadow.bad = (s.sl c).shadow.bad := (congrArg Shadow.bad (shadow_of_frame h) : _)

theorem spare_of_frame :
    (t.sl c).shadow.spare = (s.sl c).shadow.spare := (congrArg Shadow.spare (shadow_of_frame h) : _)

theorem offClock_of_frame {d : Fin 4} (hd : d ≠ c) : (t.sl d).offClock = (s.sl d).offClock := by
  have hf : (t.frame c).2.2 d = (s.frame c).2.2 d := congrArg (fun p => p.2.2 d) h
  simpa only [State.frame, if_neg hd, Option.some.injEq] using hf

end

/-! ### Building blocks -/

theorem frame_of_offRecord {s t : State} (c : Fin 4) (h : t.offRecord = s.offRecord) : t.frame c = s.frame c := by
  simp only [State.frame, sl_of_offRecord h, real_of_offRecord h]

theorem frame_of_slices {s t : State} (c : Fin 4) (hs : t.slices = s.slices) (hr : t.real = s.real) :
    t.frame c = s.frame c := by
  simp only [State.frame, sl_congr hs, hr]

theorem frame_setSl (s : State) (c : Fin 4) (x : Slice) (h : x.core = (s.sl c).core) :
    (s.setSl c x).frame c = s.frame c := by
  refine Prod.ext rfl (Prod.ext ?_ (funext fun d => ?_))
  · exact (congrArg Slice.core (State.sl_setSl ..)).trans h
  · by_cases hd : d = c
    · simp only [State.frame, if_pos hd]
    · simp only [State.frame, if_neg hd, State.sl_setSl_ne s x hd]

/-- A change of slice `c` outside its core. -/
theorem frame_modSl (s : State) (c : Fin 4) {f : Slice → Slice} (h : ∀ x, (f x).core = x.core) :
    (s.modSl c f).frame c = s.frame c := frame_setSl s c _ (h _)

@[simp] theorem frame_ite (c : Fin 4) {p : Prop} [Decidable p] (a b : State) :
    (if p then a else b).frame c = if p then a.frame c else b.frame c := apply_ite ..

/-- An iteration whose every round keeps the frame does so. -/
theorem frame_foldl {α : Type} (c : Fin 4) {g : State → α → State} (h : ∀ t a, (g t a).frame c = t.frame c) (l : List α)
    (s : State) : (l.foldl g s).frame c = s.frame c := by
  induction l generalizing s with
  | nil => rfl
  | cons a l ih => rw [List.foldl_cons, ih, h]

/-- An iteration over a slice whose every round keeps its core does so. -/
theorem core_foldl {α : Type} {g : Slice → α → Slice} (h : ∀ x a, (g x a).core = x.core) (l : List α) (x : Slice) :
    (l.foldl g x).core = x.core := by
  induction l generalizing x with
  | nil => rfl
  | cons a l ih => rw [List.foldl_cons, ih, h]

section
variable (s : State) (c : Fin 4)

@[simp] theorem frame_modQ (q : Fin 256) (f : Queue → Queue) : (s.modQ q f).frame c = s.frame c := rfl
@[simp] theorem frame_modSch (d : Fin 4) (f : Sched → Sched) : (s.modSch d f).frame c = s.frame c := rfl
@[simp] theorem frame_tbm (k : Tbm) : ({ s with tbm := k } : State).frame c = s.frame c := rfl
@[simp] theorem frame_trk (k : Trk) : ({ s with trk := k } : State).frame c = s.frame c := rfl
@[simp] theorem frame_pwr (k : Pwr) : ({ s with pwr := k } : State).frame c = s.frame c := rfl
@[simp] theorem frame_release (i n : Nat) : (s.release i n).frame c = s.frame c := rfl
@[simp] theorem frame_releaseAll (i : Nat) : (s.releaseAll i).frame c = s.frame c := rfl

@[simp] theorem stage_frame (q : Fin 256) (r : Record) : (s.stage q r).frame c = s.frame c :=
  frame_of_offRecord c (stage_offRecord ..)

@[simp] theorem gap_frame (q : Fin 256) (cause lost : Nat) (es : List SrcCount) (ts : Nat) :
    (s.gap q cause lost es ts).frame c = s.frame c := frame_of_offRecord c (gap_offRecord ..)

@[simp] theorem complete_frame (k : CmdRef) (status : Nat) (result : List Byte) :
    (s.complete k status result).frame c = s.frame c := frame_of_offRecord c (complete_offRecord ..)

@[simp] theorem lockDone_frame (k : Option CmdRef) (status : Nat) (result : List Byte) :
    (s.lockDone k status result).frame c = s.frame c := frame_of_offRecord c (lockDone_offRecord ..)

@[simp] theorem schedRecord_frame (d : Fin 4) (f : Option Forme) (e : SchedEntry) (outcome code ts : Nat) :
    (s.schedRecord d f e outcome code ts).frame c = s.frame c := frame_of_offRecord c (schedRecord_offRecord ..)

@[simp] theorem fault_frame (i : FaultInfo) : (s.fault i).frame c = s.frame c :=
  frame_of_slices c (fault_slices ..) (fault_real ..)

@[simp] theorem modAfe_frame (f : Afe → Afe) : (s.modAfe c f).frame c = s.frame c := frame_modSl s c fun _ => rfl
@[simp] theorem modSai_frame (f : Sai → Sai) : (s.modSai c f).frame c = s.frame c := frame_modSl s c fun _ => rfl
@[simp] theorem modTx_frame (f : Tx → Tx) : (s.modTx c f).frame c = s.frame c := frame_modSl s c fun _ => rfl

@[simp] theorem modCtx_frame (k : Nat) (f : Ctx → Ctx) : (s.modSl c (fun x => x.modCtx k f)).frame c = s.frame c :=
  frame_modSl s c fun _ => rfl

@[simp] theorem modTun_frame (n : Nat) (f : Tuning → Tuning) :
    (s.modSl c (fun x => x.modTun n f)).frame c = s.frame c :=
  frame_modSl s c fun _ => rfl

@[simp] theorem modInst_frame (n : Nat) (f : Inst → Inst) : (s.modSl c (fun x => x.modInst n f)).frame c = s.frame c :=
  frame_modSl s c fun _ => rfl

@[simp] theorem modAf_frame (n : Nat) (f : Af → Af) : (s.modSl c (fun x => x.modAf n f)).frame c = s.frame c :=
  frame_modSl s c fun _ => rfl

@[simp] theorem stopCand_frame (n : Nat) : (s.modSl c (fun x => x.stopCand n)).frame c = s.frame c :=
  frame_modSl s c fun _ => rfl

@[simp] theorem modAfOf_frame (n : Fin 48) (f : Af → Af) : (s.modAfOf c n f).frame c = s.frame c := modAf_frame ..

@[simp] theorem modAlert_frame (k : Fin 256) (f : AlertState → AlertState) : (s.modAlert c k f).frame c = s.frame c :=
  modCtx_frame ..

@[simp] theorem setArea_frame (a : Staged2) : (s.setArea c a).frame c = s.frame c := frame_modSl s c fun _ => rfl

theorem modDemod_frame (r : InstRef) (f : Inst → Inst) : (s.modSl c (fun x => x.modDemod r f)).frame c = s.frame c :=
  frame_modSl s c fun _ => by cases r <;> rfl

@[simp] theorem modAcquirer_frame (r : InstRef) (f : Acq → Acq) : (s.modAcquirer c r f).frame c = s.frame c :=
  frame_modSl s c fun _ => by cases r <;> rfl

end

/-! ### Sources of TBM (R92 to R103) -/

/-- The parts of the state outside the slices that no source of TBM reaches. -/
def State.offSlices (s : State) : Nat × Pwr × Mod × Tap × Fea × List (Nat × CalStore) :=
  (s.real, s.pwr, s.mod, s.tap, s.fea, s.calStore)

/-- The slices but for the control of their clocks, and the parts outside them that no source of TBM reaches. -/
def State.offClocks (s : State) :
    (Nat × Pwr × Mod × Tap × Fea × List (Nat × CalStore)) × (Fin 4 → Slice) :=
  (s.offSlices, fun d => (s.sl d).offClock)

section
variable {s t : State} (h : t.offClocks = s.offClocks)
include h

theorem offClock_of_offClocks (d : Fin 4) : (t.sl d).offClock = (s.sl d).offClock := congrArg (fun p => p.2 d) h

theorem offSlices_of_offClocks : t.offSlices = s.offSlices := congrArg Prod.fst h
theorem real_of_offClocks : t.real = s.real := congrArg Prod.fst (offSlices_of_offClocks h)

theorem frame_of_offClocks (c : Fin 4) : t.frame c = s.frame c := by
  refine Prod.ext (real_of_offClocks h) (Prod.ext ?_ (funext fun d => ?_))
  · exact (congrArg Slice.core (offClock_of_offClocks h c) : _)
  · simp only [State.frame, offClock_of_offClocks h]

end

@[simp] theorem offClocks_ite {p : Prop} [Decidable p] (a b : State) :
    (if p then a else b).offClocks = if p then a.offClocks else b.offClocks := apply_ite ..

section
variable (s : State)

@[simp] theorem offClocks_tbm (k : Tbm) : ({ s with tbm := k } : State).offClocks = s.offClocks := rfl

/-- A change of the clock of any slice. -/
@[simp] theorem offClocks_modClk (e : Fin 4) (f : Slice → Clk) :
    (s.modSl e (fun x => { x with clk := f x })).offClocks = s.offClocks := by
  refine Prod.ext rfl (funext fun d => ?_)
  by_cases hd : d = e
  · simp only [State.offClocks, hd, State.sl_modSl, Slice.offClock]
  · simp only [State.offClocks, State.sl_modSl_ne s _ hd]

@[simp] theorem unarmTbm_offClocks (p : Nat) : (s.unarmTbm p).offClocks = s.offClocks := rfl
@[simp] theorem armTbm_offClocks (p : Nat) : (s.armTbm p).offClocks = s.offClocks := rfl

@[simp] theorem dropStep_offClocks : s.dropStep.offClocks = s.offClocks := by
  unfold State.dropStep
  dsimp only
  rw [offClocks_tbm]
  split <;> split <;> rfl

@[simp] theorem decideStep_offClocks (amount kind source : Nat) (todSet : Bool) :
    (s.decideStep amount kind source todSet).offClocks = s.offClocks := by simp [State.decideStep]

@[simp] theorem planOffset_offClocks (off : Int) (source : Nat) :
    (s.planOffset off source).offClocks = s.offClocks := by
  unfold State.planOffset
  dsimp only
  split
  · simp
  · split
    · simp
    · split
      · split <;> simp
      · split <;> simp

@[simp] theorem correct_offClocks (off : Int) (source : Nat) : (s.correct off source).offClocks = s.offClocks := by
  simp [State.correct]

@[simp] theorem selectSource_offClocks (r : Nat) : (s.selectSource r).offClocks = s.offClocks := by
  have hclear (u : State) :
      (u.modSlices (fun _ x => { x with clk := { x.clk with ctrlHist := [] } })).offClocks = u.offClocks := by
    simp only [State.modSlices, List.foldl_cons, List.foldl_nil, offClocks_modClk]
  simp [State.selectSource, hclear]

@[simp] theorem reconsider_offClocks : s.reconsider.offClocks = s.offClocks := by
  unfold State.reconsider
  split
  · split <;> simp
  · rfl
  · simp
  · simp

@[simp] theorem enterHoldover_offClocks : s.enterHoldover.offClocks = s.offClocks := by
  unfold State.enterHoldover
  dsimp only
  split <;> simp

@[simp] theorem loseSource_offClocks (r : Nat) : (s.loseSource r).offClocks = s.offClocks := by simp [State.loseSource]

@[simp] theorem measureSource_offClocks (r : Nat) (off : Int) : (s.measureSource r off).offClocks = s.offClocks := by
  simp [State.measureSource]

@[simp] theorem qualify_offClocks (r : Nat) (off : Int) : (s.qualify r off).offClocks = s.offClocks := by
  simp [State.qualify]

@[simp] theorem takeOffer_offClocks (r : Nat) : (s.takeOffer r).offClocks = s.offClocks := by
  unfold State.takeOffer
  split <;> simp

@[simp] theorem takeOffer_frame (c : Fin 4) (r : Nat) : (s.takeOffer r).frame c = s.frame c :=
  frame_of_offClocks (takeOffer_offClocks s r) c

@[simp] theorem recheckOffers_offClocks : s.recheckOffers.offClocks = s.offClocks := by simp [State.recheckOffers]

@[simp] theorem dropTiming_offClocks : s.dropTiming.offClocks = s.offClocks := by
  unfold State.dropTiming
  split <;> simp

end

end Sys2Proof.Machine
end

section
/-! SUPPORT. The frame of the service engine, the MAC engine and the AF processes (R208 to R265). -/

namespace Sys2Proof.Machine

open Sys2Proof

section
variable (s : State) (c : Fin 4)

/-! ### Records of a context -/

@[simp] theorem stageSeq_frame (q : Fin 256) (r : Record) : (s.stageSeq q r).1.frame c = s.frame c := by
  unfold State.stageSeq
  split <;> simp

@[simp] theorem stageSpec_frame (n : Nat) (q : Fin 256) (r : Record) : (s.stageSpec c n q r).1.frame c = s.frame c := by
  unfold State.stageSpec
  dsimp only
  split <;> simp

@[simp] theorem ctxStage_frame (k : Fin 256) (r : Record) : (s.ctxStage c k r).1.frame c = s.frame c := by
  unfold State.ctxStage
  dsimp only
  split <;> simp

@[simp] theorem serviceData_frame (k : Fin 256) (m : Message) (data : List Byte) :
    (s.serviceData c k m data).frame c = s.frame c := by simp [State.serviceData]

@[simp] theorem verdictRecord_frame (k : Fin 256) (e : Envelope) (code : Nat) :
    (s.verdictRecord c k e code).frame c = s.frame c := by simp [State.verdictRecord]

@[simp] theorem alertRecord_frame (k : Fin 256) (m : Message) (kind state level route ident group : Nat) :
    (s.alertRecord c k m kind state level route ident group).frame c = s.frame c := by simp [State.alertRecord]

@[simp] theorem defer_frame (k : Fin 256) (d : Deferred) :
    (s.defer c k d).frame c = s.frame c := frame_modSl s c fun _ => rfl

/-! ### Alerts, times and rules -/

@[simp] theorem reroute_frame : (s.reroute c).frame c = s.frame c := by
  unfold State.reroute
  dsimp only
  split
  · rfl
  · split <;> simp

@[simp] theorem alertStart_frame (k : Fin 256) (m : Message) (kind level ident group cluster : Nat) :
    (s.alertStart c k m kind level ident group cluster).frame c = s.frame c := by simp [State.alertStart]

@[simp] theorem alertEnd_frame (k : Fin 256) (m : Message) (kind level ident group : Nat) :
    (s.alertEnd c k m kind level ident group).frame c = s.frame c := by simp [State.alertEnd]

@[simp] theorem controlAlert_frame (k : Fin 256) (m : Message) (code group ident : Nat) :
    (s.controlAlert c k m code group ident).frame c = s.frame c := by simp [State.controlAlert]

@[simp] theorem timeValue_frame (k : Fin 256) (m : Message) (kind timeTb airTb resMs : Nat) :
    (s.timeValue c k m kind timeTb airTb resMs).frame c = s.frame c := by simp [State.timeValue]

@[simp] theorem timeFinal_frame (k : Fin 256) (m : Message) (kind : Byte) (v : TimeValue) (airTb resMs : Nat) :
    (s.timeFinal c k m kind v airTb resMs).frame c = s.frame c := by simp [State.timeFinal]

@[simp] theorem rejectEntry_frame (f : Option Forme) (e : SchedEntry) (code : Nat) :
    (s.rejectEntry c f e code).frame c = s.frame c := by simp [State.rejectEntry]

@[simp] theorem addEntry_frame (f : Option Forme) (e : SchedEntry) : (s.addEntry c f e).frame c = s.frame c := by
  unfold State.addEntry
  dsimp only
  split
  · simp
  · split
    · simp
    · simp

@[simp] theorem applyRules_frame (k : Fin 256) (auth : Bool) (cls code group at_ : Nat) (msgId : Word) (msgTs : Nat) :
    (s.applyRules c k auth cls code group at_ msgId msgTs).frame c = s.frame c := by
  unfold State.applyRules
  dsimp only
  split
  · rfl
  · exact frame_foldl c (fun t r => by simp) _ s

@[simp] theorem nativeAlert_frame (k : Fin 256) (m : Message) (kind code ident cluster : Nat) :
    (s.nativeAlert c k m kind code ident cluster).frame c = s.frame c := by
  simp [State.nativeAlert, State.nativeRules]

/-! ### Messages and envelopes -/

@[simp] theorem msgOk_frame (k : Fin 256) : (s.msgOk c k).frame c = s.frame c := modCtx_frame ..
@[simp] theorem msgFail_frame (k : Fin 256) : (s.msgFail c k).frame c = s.frame c := modCtx_frame ..
@[simp] theorem takeMsgId_frame (k : Fin 256) : (s.takeMsgId c k).2.frame c = s.frame c := modCtx_frame ..
@[simp] theorem setEnv_frame (k : Fin 256) (e : Envelope) : (s.setEnv c k e).frame c = s.frame c := modCtx_frame ..
@[simp] theorem setOda_frame (k : Fin 256) (o : Option OdaOpen) :
    (s.setOda c k o).frame c = s.frame c := modCtx_frame ..
@[simp] theorem setApd_frame (k : Fin 256) (a : ApdParse) : (s.setApd c k a).frame c = s.frame c := modCtx_frame ..

@[simp] theorem finalMessage_frame (k : Fin 256) (m : Message) : (s.finalMessage c k m).frame c = s.frame c := by
  simp [State.finalMessage]

@[simp] theorem messageFinal_frame (k : Fin 256) (m : Message) : (s.messageFinal c k m).frame c = s.frame c := by
  simp [State.messageFinal]

theorem slots_countVerdict (m : Mac) (code : Nat) : (m.countVerdict code).slots = m.slots := by
  unfold Mac.countVerdict
  split_ifs <;> rfl

@[simp] theorem countVerdict_frame (k : Fin 256) (code : Nat) : (s.countVerdict c k code).frame c = s.frame c := by
  have hm : (s.modSl c (fun x => { x with mac := x.mac.countVerdict code })).frame c = s.frame c :=
    frame_modSl s c fun x => by simp only [Slice.core, slots_countVerdict]
  simp [State.countVerdict, hm]

@[simp] theorem fixVerdict_frame (k : Fin 256) (e : Envelope) (code : Nat) :
    (s.fixVerdict c k e code).frame c = s.frame c := by simp [State.fixVerdict]

@[simp] theorem checkHeader_frame (k : Fin 256) (e : Envelope) : (s.checkHeader c k e).frame c = s.frame c := by
  unfold State.checkHeader
  split
  · rfl
  · split <;> simp

@[simp] theorem checkLength_frame (k : Fin 256) (e : Envelope) : (s.checkLength c k e).frame c = s.frame c := by
  simp [State.checkLength]

@[simp] theorem proofData_frame (k : Fin 256) (e : Envelope) : (s.proofData c k e).frame c = s.frame c := by
  simp [State.proofData]

@[simp] theorem closeEnvelope_frame (k : Fin 256) (e : Envelope) (code : Nat) :
    (s.closeEnvelope c k e code).frame c = s.frame c := by simp [State.closeEnvelope]

theorem onFront_frame (k : Fin 256) {f : State → Envelope → State} (h : ∀ t e, (f t e).frame c = t.frame c) :
    (s.onFront c k f).frame c = s.frame c := by
  unfold State.onFront
  split
  · exact h ..
  · rfl

@[simp] theorem advance_frame (k : Fin 256) (n : Nat) : (State.advance c k n s).frame c = s.frame c := by
  induction n generalizing s with
  | zero => rfl
  | succ n ih =>
    have checks (u : State) : (((u.onFront c k (fun s e => s.checkHeader c k e)).onFront c k
        (fun s e => s.proofData c k e)).onFront c k (fun s e => s.checkLength c k e)).frame c = u.frame c := by
      rw [onFront_frame _ c k (checkLength_frame · c k), onFront_frame _ c k (proofData_frame · c k),
        onFront_frame _ c k (checkHeader_frame · c k)]
    unfold State.advance
    dsimp only
    split
    · exact checks s
    · split
      · simp [ih, checks]
      · exact checks s

@[simp] theorem settle_frame (k : Fin 256) : (s.settle c k).frame c = s.frame c := advance_frame ..

@[simp] theorem envEnd_frame (k : Fin 256) (failed : Bool) : (s.envEnd c k failed).frame c = s.frame c := by
  simp [State.envEnd]

@[simp] theorem envOpen_frame (k : Fin 256) (ts sub : Nat) (tuning : Fin 32) (freq ident : Nat) :
    (s.envOpen c k ts sub tuning freq ident).frame c = s.frame c := by simp [State.envOpen]

@[simp] theorem envAdd_frame (k : Fin 256) (bs : List Byte) (unitTs : Nat) (tuning : Fin 32) (freq ident : Nat)
    (corrected : Bool) : (s.envAdd c k bs unitTs tuning freq ident corrected).frame c = s.frame c := by
  simp [State.envAdd]

@[simp] theorem envBytes_frame (k : Fin 256) (src : UnitSrc) (start ts sub : Nat) (corrected : Bool) (bs : List Byte) :
    (s.envBytes c k src start ts sub corrected bs).frame c = s.frame c := by simp [State.envBytes]

@[simp] theorem envCut_frame (k : Fin 256) (code : Nat) : (s.envCut c k code).frame c = s.frame c := by
  unfold State.envCut
  dsimp only
  rw [frame_foldl c (fun t e => ?cut), modCtx_frame]
  case cut => simp

@[simp] theorem plainMessage_frame (k : Fin 256) (src : UnitSrc) (ts sub : Nat) (corrected : Bool)
    (data content : List Byte) :
    (s.plainMessage c k src ts sub corrected data content).frame c = s.frame c := by simp [State.plainMessage]

@[simp] theorem wholeMessage_frame (k : Fin 256) (src : UnitSrc) (ts sub : Nat) (corrected : Bool)
    (data content : List Byte) :
    (s.wholeMessage c k src ts sub corrected data content).frame c = s.frame c := by simp [State.wholeMessage]

@[simp] theorem brokenMessage_frame (k : Fin 256) : (s.brokenMessage c k).frame c = s.frame c := by
  simp [State.brokenMessage]

/-! ### Parsers -/

@[simp] theorem feedGroups_frame (k : Fin 256) (src : UnitSrc) (ts sub n : Nat)
    (groups : List (Nat × Bool × List Byte)) :
    (s.feedGroups c k src ts sub n groups).frame c = s.frame c := frame_foldl c (fun t g => by simp) _ s

@[simp] theorem figAlarm_frame (k : Fin 256) (src : UnitSrc) (ts cluster : Nat) (flag : Bool) :
    (s.figAlarm c k src ts cluster flag).frame c = s.frame c := by simp [State.figAlarm]

@[simp] theorem feedFib_frame (k : Fin 256) (src : UnitSrc) (figs : List (List Byte)) (ts : Nat) (r : Reads) :
    (s.feedFib c k src figs ts r).frame c = s.frame c := by
  have hfigs (t : State) (sel : Nat) : (figs.foldl (fun t fig =>
      if sel.testBit (u8 fig 0 / 32) then t.plainMessage c k src ts 0 false fig fig else t) t).frame c = t.frame c :=
    frame_foldl c (fun t fig => by simp) _ t
  have halarms (t : State) : (r.alarms.foldl (fun t a => t.figAlarm c k src ts a.1 a.2) t).frame c = t.frame c :=
    frame_foldl c (fun t a => by simp) _ t
  unfold State.feedFib
  dsimp only
  split
  · exact hfigs ..
  · split <;> simp [hfigs, halarms]

@[simp] theorem feedDrmBlock_frame (k : Fin 256) (src : UnitSrc) (sdc : Bool) (block : List Byte) (ts : Nat)
    (r : Reads) :
    (s.feedDrmBlock c k src sdc block ts r).frame c = s.frame c := by
  unfold State.feedDrmBlock
  split
  · rfl
  · dsimp only
    split <;> simp

@[simp] theorem badMinute_frame (k : Fin 256) : (s.badMinute c k).frame c = s.frame c := by simp [State.badMinute]

@[simp] theorem feedMinute_frame (k : Fin 256) (src : UnitSrc) (onTime ts : Nat) (ok : Bool) (r : Reads) :
    (s.feedMinute c k src onTime ts ok r).frame c = s.frame c := by
  unfold State.feedMinute
  split
  · simp
  · split <;> simp

@[simp] theorem dropOda_frame (k : Fin 256) : (s.dropOda c k).frame c = s.frame c := by simp [State.dropOda]

@[simp] theorem odaBytes_frame (k : Fin 256) (src : UnitSrc) (o : OdaOpen) (bs : List Byte) (ts : Nat)
    (corrected : Bool) (ctr : Nat) : (s.odaBytes c k src o bs ts corrected ctr).frame c = s.frame c := by
  simp [State.odaBytes]

@[simp] theorem odaSegment_frame (k : Fin 256) (src : UnitSrc) (sub : Nat) (g : RdsGroup) :
    (s.odaSegment c k src sub g).frame c = s.frame c := by
  unfold State.odaSegment
  dsimp only
  split
  · simp
  · split
    · simp
    · split <;> simp

@[simp] theorem groupOda_frame (k : Fin 256) (src : UnitSrc) (stream : Nat) (g : RdsGroup)
    (assign : Option (BitVec 16 × BitVec 5)) : (s.groupOda c k src stream g assign).frame c = s.frame c := by
  unfold State.groupOda
  dsimp only
  cases assign <;> simp

@[simp] theorem ptyStep_frame (k : Fin 256) (src : UnitSrc) (b : RdsBlock) :
    (s.ptyStep c k src b).frame c = s.frame c := by
  simp [State.ptyStep]

@[simp] theorem groupOne_frame (k : Fin 256) (src : UnitSrc) (g : RdsGroup) (time : Option TimeValue) :
    (s.groupOne c k src g time).frame c = s.frame c := by
  unfold State.groupOne
  cases time <;> simp

@[simp] theorem feedRds_frame (k : Fin 256) (src : UnitSrc) (stream pos : Nat) (b : RdsBlock) (r : Reads) :
    (s.feedRds c k src stream pos b r).frame c = s.frame c := by
  unfold State.feedRds
  dsimp only
  split <;> simp

@[simp] theorem apdEnd_frame (k : Fin 256) (src : UnitSrc) (bits : List Bool) (len start : Nat) :
    (s.apdEnd c k src bits len start).frame c = s.frame c := by simp [State.apdEnd]

@[simp] theorem apdBit_frame (k : Fin 256) (src : UnitSrc) (bits : List Bool) (start ts : Nat) :
    (s.apdBit c k src bits start ts).frame c = s.frame c := by simp [State.apdBit]

@[simp] theorem feedApd_frame (k : Fin 256) (src : UnitSrc) (b erased : Bool) (ts : Nat) :
    (s.feedApd c k src b erased ts).frame c = s.frame c := by
  unfold State.feedApd
  dsimp only
  split <;> simp

@[simp] theorem ldbJoin_frame (k : Fin 256) (src : UnitSrc) (o : LdbOpen) (h : DWord) (payload : List Byte) (ts : Nat) :
    (s.ldbJoin c k src o h payload ts).frame c = s.frame c := by simp [State.ldbJoin]

@[simp] theorem feedLdb_frame (k : Fin 256) (src : UnitSrc) (h : DWord) (payload : List Byte) (ts : Nat) :
    (s.feedLdb c k src h payload ts).frame c = s.frame c := by
  unfold State.feedLdb
  split
  · rfl
  · split <;> simp

@[simp] theorem feedContext_frame (k : Fin 256) (src : UnitSrc) (u : HeldUnit) :
    (s.feedContext c k src u).frame c = s.frame c := by
  unfold State.feedContext
  dsimp only
  split
  · simp
  · split <;> simp

@[simp] theorem feedInst_frame (n : Nat) (src : UnitSrc) (u : HeldUnit) : (s.feedInst c n src u).frame c = s.frame c :=
  frame_foldl c (fun t k => by simp) _ s

/-- A parser that starts again. -/
@[simp] theorem resetParser_frame (k : Fin 256) : (s.resetParser c k).frame c = s.frame c := by simp [State.resetParser]

/-! ### AF processes -/

@[simp] theorem cutFeed_frame (n : Fin 48) :
    (s.cutFeed c n).frame c = s.frame c := frame_foldl c (fun t k => by simp) _ s

@[simp] theorem setSpec_frame (n : Fin 48) (b : Bool) : (s.setSpec c n b).frame c = s.frame c :=
  frame_foldl c (fun t k => by simp) _ s

@[simp] theorem restoreAlerts_frame (l : List (Fin 256 × AlertState)) : (s.restoreAlerts c l).frame c = s.frame c := by
  unfold State.restoreAlerts
  rw [reroute_frame]
  exact frame_foldl c (fun t p => by simp) _ s

@[simp] theorem undoRecord_frame (n : Fin 48) (reason ts : Nat) (t : Fin 32) (q : Fin 256)
    (range : Option (Word × Word)) :
    (s.undoRecord c n reason ts t q range).frame c = s.frame c := stage_frame ..

@[simp] theorem releaseHeld_frame (n : Fin 48) : (s.releaseHeld c n).frame c = s.frame c := by
  unfold State.releaseHeld
  dsimp only
  rw [frame_foldl c (fun t u => ?units), modAfOf_frame, frame_foldl c (fun t d => ?gaps)]
  case units => simp
  case gaps => simp

end

/-! ### Candidates -/

@[simp] theorem startCand_core (x : Slice) (f : Forme) (now tb n : Nat) (e : Nat × Nat) :
    (x.startCand f now tb n e).core = x.core := by
  unfold Slice.startCand
  dsimp only
  split
  · split <;> rfl
  · rfl

@[simp] theorem fillInst_core (x : Slice) (f : Forme) (now tb n : Nat) (l : List (Nat × Nat)) :
    (x.fillInst f now tb n l).core = x.core := by
  unfold Slice.fillInst
  split
  · exact core_foldl (fun y e => startCand_core ..) _ x
  · rfl

@[simp] theorem fillAll_core (x : Slice) (now tb : Nat) : (x.fillAll now tb).core = x.core := by
  unfold Slice.fillAll
  split
  · rfl
  · exact core_foldl (fun y n => fillInst_core ..) _ x

@[simp] theorem undoSpec_frame (s : State) (c : Fin 4) (n : Fin 48) (reason ts : Nat) :
    (s.undoSpec c n reason ts).frame c = s.frame c := by
  unfold State.undoSpec
  split
  · rfl
  · dsimp only
    rw [frame_modSl _ c (fun _ => fillAll_core ..), releaseHeld_frame, modAfOf_frame, restoreAlerts_frame,
      setSpec_frame,
      frame_foldl c (fun t p => ?undone), stopCand_frame, cutFeed_frame]
    case undone => simp

end Sys2Proof.Machine
end

section
/-! SUPPORT. The frame of a slice whose blocks stop (R21) or whose elements fail (R19, R401). -/

namespace Sys2Proof.Machine

open Sys2Proof

section
variable (s : State) (c : Fin 4)

/-! ### Samples, audio and bursts -/

@[simp] theorem closeSamples_frame (t : Nat) : (s.closeSamples c t).frame c = s.frame c := by
  unfold State.closeSamples
  split <;> simp

theorem hear_core (x : Slice) (f : Forme) (t ts : Nat) (w : DWord) : (x.hear f t ts w).core = x.core := by
  unfold Slice.hear
  dsimp only
  split
  · rfl
  · refine core_foldl (fun y n => ?_) _ x
    rfl

@[simp] theorem readSample_frame (t ts : Nat) (w : DWord) (idx : Nat) :
    (s.readSample c t ts w idx).frame c = s.frame c := by
  unfold State.readSample
  split
  · rfl
  · next f _ =>
    have hhear (g : Slice → Tuning → Tuning) :
        (s.modSl c (fun x => (x.modTun t (g x)).hear f t ts w)).frame c = s.frame c :=
      frame_modSl s c fun x => hear_core ..
    dsimp only
    split
    · exact hhear _
    · simp only [frame_ite, closeSamples_frame, modTun_frame, hhear, ite_self]

@[simp] theorem releaseFresh_frame (t upto : Nat) : (s.releaseFresh c t upto).frame c = s.frame c := by
  unfold State.releaseFresh
  dsimp only
  have hread (l : List (Nat × DWord)) : ∀ a : State × Nat, (l.foldl (fun (a : State × Nat) (p : Nat × DWord) =>
      (a.1.readSample c t p.1 p.2 a.2, a.2 + 1)) a).1.frame c = a.1.frame c := by
    induction l with
    | nil => exact fun _ => rfl
    | cons p l ih => exact fun a => (ih _).trans (readSample_frame ..)
  rw [hread, modTun_frame]

@[simp] theorem releaseClosing_frame (t upto : Nat) : (s.releaseClosing c t upto).frame c = s.frame c := by
  unfold State.releaseClosing
  dsimp only
  rw [frame_foldl c (fun z k => ?closing), modTun_frame]
  case closing => exact stage_frame ..

@[simp] theorem endSamples_frame (t : Nat) : (s.endSamples c t).frame c = s.frame c := by simp [State.endSamples]

@[simp] theorem closeAudio_frame (n : Nat) : (s.closeAudio c n).frame c = s.frame c := by
  unfold State.closeAudio
  split <;> simp

@[simp] theorem closeCapture_frame : (s.closeCapture c).frame c = s.frame c := by
  unfold State.closeCapture
  split <;> simp

@[simp] theorem captureGap_frame (p : List Byte) (resume : Nat) : (s.captureGap c p resume).frame c = s.frame c := by
  simp [State.captureGap]

@[simp] theorem endCapture_frame : (s.endCapture c).frame c = s.frame c := by
  unfold State.endCapture
  dsimp only
  split <;> simp

@[simp] theorem burstRecord_frame (r : InstRef) (b : Burst) (outcome cause snr : Nat) (rise : Int) (done : Nat) :
    (s.burstRecord c r b outcome cause snr rise done).frame c = s.frame c := by simp [State.burstRecord]

@[simp] theorem burstFail_frame (r : InstRef) : (s.burstFail c r).frame c = s.frame c := modDemod_frame ..

@[simp] theorem abortOne_frame (r : InstRef) (b : Burst) (cause : Nat) :
    (s.abortOne c r b cause).frame c = s.frame c := by
  simp [State.abortOne]

@[simp] theorem abortBurst_frame (r : InstRef) (cause : Nat) : (s.abortBurst c r cause).frame c = s.frame c := by
  have htails (l : List Burst) : (l.foldl (fun t b => t.abortOne c r b cause) s).frame c = s.frame c :=
    frame_foldl c (fun t b => abortOne_frame ..) l s
  unfold State.abortBurst
  dsimp only
  split
  · rfl
  · split <;> simp [htails]

/-! ### Elements that fail -/

@[simp] theorem leftTrack_frame (r : InstRef) : (s.leftTrack c r).frame c = s.frame c := by
  unfold State.leftTrack
  split
  · dsimp only
    rw [modAfOf_frame]
    exact frame_foldl c (fun t k => by simp) _ s
  · split
    · simp
    · rfl

@[simp] theorem failCand_frame (t : Fin 32) : (s.failCand c t).frame c = s.frame c := by
  refine (frame_modSl _ c fun x => ?_).trans ((leftTrack_frame ..).trans (abortBurst_frame ..))
  exact fillAll_core ..

@[simp] theorem faultInst_frame (n : Fin 48) : (s.faultInst c n).frame c = s.frame c := by
  simp [State.faultInst]

/-! ### Blocks that stop -/

@[simp] theorem stopAf_frame : (s.stopAf c).frame c = s.frame c := frame_foldl c (fun t n => by simp) _ s

@[simp] theorem stopRecords_frame : (s.stopRecords c).frame c = s.frame c := by
  unfold State.stopRecords
  rw [endCapture_frame, frame_foldl c (fun t n => closeAudio_frame ..), frame_foldl c (fun t n => endSamples_frame ..)]

@[simp] theorem stopBursts_frame : (s.stopBursts c).frame c = s.frame c :=
  frame_foldl c (fun t r => abortBurst_frame ..) _ s

@[simp] theorem stopContexts_frame : (s.stopContexts c).frame c = s.frame c := frame_foldl c (fun t k => by simp) _ s

@[simp] theorem stopKeys_frame : (s.stopKeys c).frame c = s.frame c := by
  refine (frame_foldl c (fun t o => ?_) _ _).trans (frame_modSl s c fun x => ?_)
  · split <;> simp
  · rfl

@[simp] theorem openWindows_frame : (s.openWindows c).frame c = s.frame c := modTx_frame ..

@[simp] theorem txReport_frame (k : TxCmd) (status : Nat) : (s.txReport c k status).frame c = s.frame c := by
  simp [State.txReport]

@[simp] theorem endTx_frame (status : Nat) : (s.endTx c status).frame c = s.frame c := by
  unfold State.endTx
  split <;> simp

@[simp] theorem stopTx_frame : (s.stopTx c).frame c = s.frame c := by
  have hwins (l : List RxWin) (u : State) :
      (l.foldl (fun t w => t.complete w.cmd Status.rejected (le 4 0)) u).frame c = u.frame c :=
    frame_foldl c (fun t w => complete_frame ..) l u
  unfold State.stopTx
  dsimp only
  split <;> simp [hwins]

@[simp] theorem calStop_frame : (s.calStop c).frame c = s.frame c := by
  unfold State.calStop
  dsimp only
  rw [frame_foldl c (fun t k => complete_frame ..), frame_releaseAll, modAfe_frame]

@[simp] theorem keepGrant_frame : (s.keepGrant c).frame c = s.frame c := by
  simp [State.keepGrant]

@[simp] theorem clearArea_frame (status : Nat) : (s.clearArea c status).frame c = s.frame c := by
  unfold State.clearArea
  split <;> simp

/-- A slice whose blocks stop keeps its core. -/
@[simp] theorem stopBlocks_frame : (s.stopBlocks c).frame c = s.frame c := by simp [State.stopBlocks]

end

end Sys2Proof.Machine
end

section
/-! SUPPORT. Cells and pages with a parity error (R19, R402, R403). -/

namespace Sys2Proof.Machine

open Sys2Proof

/-! ### A demodulator cell -/

/-- The slice notes cell `n` as isolated and takes it from the spares (R19, R417). -/
def Slice.cellLost (n : Nat) (x : Slice) : Slice :=
  { x with
    err := { x.err with
      isolated := x.err.isolated ++ [n], events := raise x.err.events 1, memCnt := count 16 1 x.err.memCnt },
    shadow := { x.shadow with spare := x.shadow.spare.filter (fun k => k != n) } }

/-- The state in which whatever the cell served has stopped, and the error is reported. -/
def State.cellReported (s : State) (c : Fin 4) (n : Nat) : State :=
  let x := s.sl c
  let s1 := s.modSl c (Slice.cellLost n)
  let s2 := match x.cellUser n with
    | some (.inst k) => s1.faultInst c k
    | some (.cand t) => s1.failCand c t
    | none => s1
  s2.fault { status := Status.parity, event := 0x02, level := 0, action := 1, block := 0x08, unit := n,
             detail := match x.cellUser n with | some r => (x.keyOf r).getD 0xFF | none => 0xFF, slice := c.val }

theorem isolateCell_eq (s : State) (c : Fin 4) (n : Nat) :
    s.isolateCell c n = (s.cellReported c n).countCell c (some .demodulator) 0x02 := rfl

theorem cellReported_frame (s : State) (c : Fin 4) (n : Nat) :
    (s.cellReported c n).frame c = (s.modSl c (Slice.cellLost n)).frame c := by
  unfold State.cellReported
  dsimp only
  rw [fault_frame]
  split
  · exact faultInst_frame ..
  · exact failCand_frame ..
  · rfl

/-- What the isolation of a cell leaves in the slice, where no cell error came in the last second. -/
theorem isolateCell_slice (s : State) {c : Fin 4} (n : Nat) (he : (s.sl c).err.cellErrs = []) :
    let x := (s.isolateCell c n).sl c
    x.ctl = (s.sl c).ctl ∧ x.shadow.spare = ((s.sl c).cellLost n).shadow.spare
      ∧ x.err = { ((s.sl c).cellLost n).err with cellErrs := x.err.cellErrs } := by
  intro x
  have hf := cellReported_frame s c n
  have herr := err_of_frame hf
  have hctl := ctl_of_frame hf
  have hspare := spare_of_frame hf
  rw [State.sl_modSl] at herr hctl hspare
  have hx : x = { (s.cellReported c n).sl c with
      err := { ((s.cellReported c n).sl c).err with cellErrs := x.err.cellErrs } } := by
    simp only [x]
    rw [isolateCell_eq, countCell_first _ _ _ (by rw [herr]; exact he), State.modErr, State.sl_modSl]
  rw [hx]
  exact ⟨hctl, hspare, by rw [herr]⟩

/-- The effect of CELL_PARITY at a demodulator cell. -/
def State.demodCellError (s : State) (c : Fin 4) (n : Nat) : State :=
  if !(s.sl c).running3 then s else if (s.sl c).err.isolated.contains n then s else s.isolateCell c n

theorem exec_cellParity_demod (c : Fin 4) (n : Fin 48) (s : State) :
    exec (.cellParity c (.demod n)) s = run s (fun s => s.demodCellError c n.val) := rfl

theorem demodCellError_new (s : State) {c : Fin 4} {n : Nat} (hr : (s.sl c).running3 = true)
    (hn : (s.sl c).err.isolated.contains n = false) : s.demodCellError c n = s.isolateCell c n := by
  rw [State.demodCellError, if_neg (by simp [hr]), if_neg (Bool.eq_false_iff.mp hn)]

/-! ### An SRAM page -/

/-- The effect of SRAM_PARITY. -/
def State.parityAt (s : State) (c : Fin 4) (off : Nat) (o : PageOwner) (host : Option Nat) : State :=
  if !(s.sl c).ctl.state.served ∨ 0xC00000 ≤ off then s
  else
    let s1 := match host with
      | some n => s.hostBadRead c off n
      | none => s
    s1.sramError c off o

theorem exec_sramParity (c : Fin 4) (off : BitVec 24) (o : PageOwner) (host : Option Nat) (s : State) :
    exec (.sramParity c off o host) s = run s (fun s => s.parityAt c off.toNat o host) := rfl

/-- A host read that meets a bad word changes no slice and takes no time. -/
theorem hostBadRead_slices (s : State) (c : Fin 4) (off size : Nat) :
    (s.hostBadRead c off size).slices = s.slices ∧ (s.hostBadRead c off size).tb = s.tb := by
  have hd (o n : Nat) : (s.sramData c o n).2.slices = s.slices ∧ (s.sramData c o n).2.tb = s.tb := by
    unfold State.sramData
    dsimp only
    split <;> exact ⟨rfl, rfl⟩
  exact hd _ _

/-- A parity error in a page without an owner, whether or not a host read met it. -/
theorem parityAt_unowned (s : State) {c : Fin 4} {off : Nat} {o : PageOwner} (host : Option Nat)
    (hv : (s.sl c).ctl.state.served = true) (hoff : off < 0xC00000) (ho : ownerless o)
    (hs : 0 < vget (s.sl c).err.spares (off / 4096 % 16) 0) (he : (s.sl c).err.cellErrs = []) :
    (s.parityAt c off o host).slices = (s.modSl c (fun x => x.pageLost (off / 4096) s.tb)).slices := by
  unfold State.parityAt
  rw [if_neg (by simp [hv, hoff])]
  cases host with
  | none => exact sramError_unowned s ho hs he
  | some n =>
    obtain ⟨hsl, htb⟩ := hostBadRead_slices s c off n
    dsimp only
    rw [sramError_unowned _ ho (by rwa [sl_congr hsl]) (by rwa [sl_congr hsl]), htb]
    exact modSl_slices_congr hsl ..

/-- Settles O17: the isolation of a demodulator cell, and the retirement of a page that no block works in. -/
theorem cellAndPageErrors : Obligations.CellAndPageErrors := by
  intro c s
  refine ⟨fun n hr hn he => ?_, fun off o host hv hoff ho hs he => ?_⟩
  · refine run_gives_from (exec_cellParity_demod c n s) (fun _ _ _ _ h => h) ?_
    rintro u o rfl
    rw [demodCellError_new u hr hn]
    obtain ⟨hctl, hspare, herr⟩ := isolateCell_slice u n.val he
    rw [hctl, hspare, herr]
    exact ⟨rfl, by simp [Slice.cellLost], rfl, rfl, rfl⟩
  · intro p
    refine run_gives_from (exec_sramParity c off o host s) (fun _ _ _ _ h => h) ?_
    rintro u o rfl
    have hsl := parityAt_unowned u host hv hoff ho hs he
    have hc := (sl_congr hsl c).trans (State.sl_modSl ..)
    rw [hc]
    exact ⟨pageLost_retired .., pageLost_spares .., fun a => memGet_pageLost .., rfl, rfl, rfl,
      fun d hd => (sl_congr hsl d).trans (State.sl_modSl_ne _ _ hd)⟩

end Sys2Proof.Machine
end

section
/-! SUPPORT. A slice that is reset (R21, R37, R320): without a burst in hand its blocks stop at once, and the slice is
in RESET with every block at its reset values. -/

namespace Sys2Proof.Machine

open Sys2Proof

/-- A slice that has entered RESET with LAST_RESET `cause`. -/
def Slice.inReset (cause : Nat) (x : Slice) : Slice :=
  let y := x.blank
  { y with ctl := { y.ctl with state := .reset, lastReset := cause } }

/-- A reset changes no more than the shadow store of a slice for the sake of a forme that was lost (R405), and a good
shadow store stays as it is. -/
theorem restoreActive_shadow (s : State) (c : Fin 4) :
    ∃ sh : Shadow, ((s.sl c).shadow.bad = false → sh = (s.sl c).shadow)
      ∧ s.restoreActive c = s.modSl c (fun x => { x with shadow := sh }) := by
  unfold State.restoreActive
  dsimp only
  split
  next => exact ⟨_, fun _ => rfl, (State.setSl_sl s c).symm⟩
  next h => exact ⟨_, fun hb => absurd hb (by simpa using h), rfl⟩

theorem clearWindow_slices (s : State) (c : Fin 4) : (s.clearWindow c).slices = s.slices := by
  unfold State.clearWindow
  split <;> rfl

theorem clearWindow_offSlices (s : State) (c : Fin 4) : (s.clearWindow c).offSlices = s.offSlices := by
  unfold State.clearWindow
  split <;> rfl

theorem offClocks_of_slices {s t : State} (hs : t.slices = s.slices) (hr : t.offSlices = s.offSlices) :
    t.offClocks = s.offClocks := by
  simp only [State.offClocks, sl_congr hs, hr]

/-- The slice is none of those that FAULTED notes. -/
def State.unfaulted (s : State) (c : Fin 4) : State :=
  { s with errm := { s.errm with faulted := s.errm.faulted &&& ~~~BitVec.ofNat 4 (2 ^ c.val) } }

/-- A slice that enters RESET. -/
theorem enterReset_offClocks (s : State) (c : Fin 4) (cause : Nat) :
    ∃ sh : Shadow, ((s.sl c).shadow.bad = false → sh = (s.sl c).blank.shadow)
      ∧ (s.enterReset c cause).offClocks = (s.modSl c (fun x => { x.inReset cause with shadow := sh })).offClocks := by
  let u := s.modSl c (Slice.inReset cause)
  let v := (u.unfaulted c).clearWindow c
  have hv : v.slices = u.slices := clearWindow_slices ..
  have hv' : v.offSlices = u.offSlices := clearWindow_offSlices ..
  have hsl : v.sl c = (s.sl c).inReset cause := (sl_congr hv c).trans (State.sl_modSl ..)
  obtain ⟨sh, hgood, he⟩ := restoreActive_shadow v c
  rw [hsl] at hgood
  refine ⟨sh, hgood, ?_⟩
  have hreset : (s.enterReset c cause).offClocks = (v.restoreActive c).offClocks :=
    (dropTiming_offClocks _).trans (recheckOffers_offClocks _)
  rw [hreset, he, offClocks_of_slices (modSl_slices_congr hv ..) hv', State.modSl_modSl]

/-- Nothing waits for a ramp-down where no burst is in hand. -/
theorem haltSlice_quiet (s : State) {c : Fin 4} (k : Nat) (ha : (s.sl c).tx.resetAfter = none)
    (hc : (s.sl c).tx.cmd = none) : s.haltSlice c k = s.haltNow c k := by
  have habort : s.txAbort c Status.rejected = s := by
    unfold State.txAbort
    rw [hc]
  unfold State.haltSlice
  rw [if_neg (by simp [ha]), habort, ite_self]
  dsimp only
  rw [hc]

theorem blank_shadow_active (x : Slice) : x.blank.shadow.active = x.shadow.active := rfl

/-- A slice that enters RESET out of a state that differs from `s` in the slice's own blocks alone. -/
theorem enterReset_of_frame {s t : State} {c : Fin 4} (k : Nat) (hf : t.frame c = s.frame c) :
    (∃ (x : Slice) (sh : Shadow), x.core = (s.sl c).core
        ∧ ((s.sl c).shadow.bad = false → sh.active = (s.sl c).shadow.active)
        ∧ ((t.enterReset c k).sl c).offClock = { x.inReset k with shadow := sh }.offClock)
      ∧ (∀ d, d ≠ c → ((t.enterReset c k).sl d).offClock = (s.sl d).offClock)
      ∧ (t.enterReset c k).real = s.real := by
  obtain ⟨sh, hgood, hr⟩ := enterReset_offClocks t c k
  refine ⟨⟨t.sl c, sh, core_of_frame hf, fun hb => ?_, ?_⟩, fun d hd => ?_, ?_⟩
  · rw [hgood ((bad_of_frame hf).trans hb), blank_shadow_active, active_of_frame hf]
  · rw [offClock_of_offClocks hr, State.sl_modSl]
  · rw [offClock_of_offClocks hr, State.sl_modSl_ne _ _ hd, offClock_of_frame hf hd]
  · exact (real_of_offClocks hr).trans ((State.modSl_real ..).trans (real_of_frame hf))

/-- A slice whose blocks stop and that then enters RESET. -/
theorem stopBlocks_enterReset (s : State) (c : Fin 4) (k : Nat) :
    (∃ (x : Slice) (sh : Shadow), x.core = (s.sl c).core
        ∧ ((s.sl c).shadow.bad = false → sh.active = (s.sl c).shadow.active)
        ∧ (((s.stopBlocks c).enterReset c k).sl c).offClock = { x.inReset k with shadow := sh }.offClock)
      ∧ (∀ d, d ≠ c → (((s.stopBlocks c).enterReset c k).sl d).offClock = (s.sl d).offClock)
      ∧ ((s.stopBlocks c).enterReset c k).real = s.real :=
  enterReset_of_frame k (stopBlocks_frame s c)

/-- A slice without a burst in hand that is reset with LAST_RESET `k` (R21, R37). -/
theorem haltSlice_resets (s : State) {c : Fin 4} {k : Nat} (hk : k < 0xE) (ha : (s.sl c).tx.resetAfter = none)
    (hc : (s.sl c).tx.cmd = none) : s.haltSlice c k = (s.stopBlocks c).enterReset c k := by
  rw [haltSlice_quiet s k ha hc]
  unfold State.haltNow
  dsimp only
  rw [if_neg (by omega), if_neg (by omega)]

end Sys2Proof.Machine
end

section
/-! SUPPORT. SLICE_RESET (R21, R38). -/

namespace Sys2Proof.Machine

open Sys2Proof

/-- SLICE_RESET is asked for. -/
def Slice.askReset (x : Slice) : Slice := { x with ctl := { x.ctl with resetReq := true } }

theorem exec_sliceReset (c : Fin 4) (s : State) : exec (.sliceReset c) s = run s (fun s => s.hostReset c) := rfl

theorem hostReset_taken (s : State) {c : Fin 4} (hr : (s.sl c).ctl.resetReq = false)
    (ha : (s.sl c).tx.resetAfter = none)
    (hk : (s.sl c).ctl.state = .calibrating ∨ (s.sl c).ctl.state = .idle ∨ (s.sl c).ctl.state = .running
      ∨ (s.sl c).ctl.state = .faulted) :
    s.hostReset c = ((s.modSl c Slice.askReset).haltSlice c 2).resetFault c := by
  have hq : ((s.modSl c Slice.askReset).sl c).tx.resetAfter = none := by
    rw [State.sl_modSl]
    exact ha
  have hgo : (if (s.sl c).ctl.resetReq then s
      else if ((s.modSl c Slice.askReset).sl c).tx.resetAfter.isSome then s.modSl c Slice.askReset
      else ((s.modSl c Slice.askReset).haltSlice c 2).resetFault c) =
      ((s.modSl c Slice.askReset).haltSlice c 2).resetFault c := by
    rw [if_neg (by simp [hr]), if_neg (by rw [hq]; exact Bool.false_ne_true)]
  unfold State.hostReset
  rcases hk with h | h | h | h <;> rw [h] <;> exact hgo

theorem hostReset_reset (s : State) {c : Fin 4} (hk : (s.sl c).ctl.state = .reset) :
    s.hostReset c = s.modSl c Slice.askReset := by
  unfold State.hostReset
  rw [hk]
  rfl

theorem hostReset_ignored (s : State) {c : Fin 4} (hk : (s.sl c).ctl.state = .absent ∨ (s.sl c).ctl.state = .held) :
    s.hostReset c = s := by
  unfold State.hostReset
  rcases hk with h | h <;> rw [h]

theorem resetFault_sl (s : State) (c d : Fin 4) : (s.resetFault c).sl d = s.sl d := fault_sl ..

/-- A slice that SLICE_RESET resets is as after `Slice.inReset`, of a slice that has kept its core; the others change
in the control of their clocks alone. -/
theorem hostReset_slices (s : State) {c : Fin 4} (hr : (s.sl c).ctl.resetReq = false)
    (ha : (s.sl c).tx.resetAfter = none) (hc : (s.sl c).tx.cmd = none)
    (hk : (s.sl c).ctl.state = .calibrating ∨ (s.sl c).ctl.state = .idle ∨ (s.sl c).ctl.state = .running
      ∨ (s.sl c).ctl.state = .faulted) :
    (∃ (x : Slice) (sh : Shadow), x.core = (s.sl c).askReset.core
        ∧ ((s.sl c).shadow.bad = false → sh.active = (s.sl c).shadow.active)
        ∧ ((s.hostReset c).sl c).offClock = { x.inReset 2 with shadow := sh }.offClock)
      ∧ ∀ d, d ≠ c → ((s.hostReset c).sl d).offClock = (s.sl d).offClock := by
  have hu : (s.modSl c Slice.askReset).sl c = (s.sl c).askReset := State.sl_modSl ..
  obtain ⟨hsl, hothers, -⟩ := stopBlocks_enterReset (s.modSl c Slice.askReset) c 2
  rw [hu] at hsl
  rw [hostReset_taken s hr ha hk, haltSlice_resets _ (by decide) (by rw [hu]; exact ha) (by rw [hu]; exact hc)]
  simp only [resetFault_sl]
  refine ⟨hsl, fun d hd => ?_⟩
  rw [hothers d hd, State.sl_modSl_ne _ _ hd]

/-- Settles O16: a slice that is reset, one that is in RESET already, and one without power. -/
theorem sliceResetClears : Obligations.SliceResetClears := by
  intro c s k
  refine ⟨fun hk hr ha hc hb => ?_, fun hk _ => ?_, fun hk => ?_⟩
  · refine run_gives_from (exec_sliceReset c s) (fun _ _ _ _ h => h) ?_
    rintro u o rfl
    obtain ⟨⟨x, sh, hx, hactive, hsl⟩, hothers⟩ := hostReset_slices u hr ha hc hk
    simp only [Slice.core, Slice.askReset, Prod.mk.injEq] at hx
    obtain ⟨hctl, hcart, -, hslots, -, -⟩ := hx
    have hreq : x.ctl.resetReq = true := congrArg Ctl.resetReq hctl
    rw [eq_of_offClock hsl]
    exact ⟨rfl, rfl, hreq, rfl, rfl, rfl, hactive hb, hslots, hcart, fun d hd => eq_of_offClock (hothers d hd)⟩
  · refine run_does_from (exec_sliceReset c s) ?_
    rintro u o rfl
    exact hostReset_reset u hk
  · refine run_does_from (exec_sliceReset c s) ?_
    rintro u o rfl
    exact hostReset_ignored u hk

end Sys2Proof.Machine
end

section
/-! SUPPORT. Errors of a block (R20, R399, R400): the block is reset, and what does not end escalates to a reset of
the slice. -/

namespace Sys2Proof.Machine

open Sys2Proof

/-! ### A block that is reset -/

/-- The ERR block counts a block error of `b`, the only one on record, and the reset of `b` that it asks for. -/
def Err.blockFailed (b : SliceBlock) (tb now : Nat) (e : Err) : Err :=
  { e with
    blockErrs := [(blockCode b, tb)], events := raise e.events 2, blockResets := count 8 1 e.blockResets,
    resetting := e.resetting.filter (fun p => p.1 != blockCode b) ++ [(blockCode b, now)] }

theorem handles_errors {x : Slice} (h : x.running3 = true) : ¬ (!x.running3) = true := by simp [h]

/-- The first error of a block resets the block and goes no further (R399). -/
theorem blockError_first (s : State) {c : Fin 4} (b : SliceBlock) (status event : Nat) (hr : (s.sl c).running3 = true)
    (hb : (s.sl c).shadow.bad = false) (he : (s.sl c).err.blockErrs = []) :
    s.blockError c b status event =
      (s.modErr c (fun e => { e with blockErrs := [(blockCode b, s.tb)] })).resetBlock c b event := by
  unfold State.blockError
  dsimp only
  rw [if_neg (handles_errors hr), if_neg (by simp [hb]), he]
  exact if_neg (by simp)

/-- Where no forme is in force, the reset of a block notes the reset; of the registers it changes at most the
trellis's. -/
theorem resetBlock_idle (s : State) {c : Fin 4} (b : SliceBlock) (event : Nat) (hk : (s.sl c).ctl.state ≠ .running) :
    ∃ trl : Trl, s.resetBlock c b event = s.modSl c (fun x => { x with
      trl := trl,
      err := { x.err with
        events := raise x.err.events 2, blockResets := count 8 1 x.err.blockResets,
        resetting := x.err.resetting.filter (fun p => p.1 != blockCode b) ++ [(blockCode b, s.real)] } }) := by
  have hf : (s.sl c).inForce = none := by simp [Slice.inForce, hk]
  have hfx (g : Err → Err) : ((s.modErr c g).sl c).inForce = none := by rw [State.modErr, State.sl_modSl]; exact hf
  unfold State.resetBlock
  dsimp only
  rw [hfx]
  dsimp only
  split
  next => exact ⟨_, by rw [State.modErr, State.modSl_modSl]; rfl⟩
  next => exact ⟨(s.sl c).trl, rfl⟩

/-- The first error of a block of a slice that is not RUNNING. -/
theorem blockError_idle (s : State) {c : Fin 4} (b : SliceBlock) (status event : Nat) (hr : (s.sl c).running3 = true)
    (hk : (s.sl c).ctl.state ≠ .running) (hb : (s.sl c).shadow.bad = false) (he : (s.sl c).err.blockErrs = []) :
    ∃ trl : Trl, s.blockError c b status event =
      s.modSl c (fun x => { x with trl := trl, err := x.err.blockFailed b s.tb s.real }) := by
  obtain ⟨trl, h⟩ := resetBlock_idle (s.modErr c (fun e => { e with blockErrs := [(blockCode b, s.tb)] })) b event
    (by rw [State.modErr, State.sl_modSl]; exact hk)
  exact ⟨trl, by rw [blockError_first s b status event hr hb he, h, State.modErr, State.modSl_modSl]; rfl⟩

/-! ### TRELLIS_PARITY -/

/-- A trellis error of decoder `d` is counted and reported. -/
def State.trellisFault (s : State) (c : Fin 4) (d : Fin 2) : State :=
  (s.modErr c (fun e => { e with memCnt := count 16 1 e.memCnt })).fault
    { status := Status.parity, event := 0x08, level := 1, action := 3, block := 0x0A, detail := d.val, slice := c.val }

theorem exec_trellisParity (c : Fin 4) (d : Fin 2) (s : State) :
    exec (.trellisParity c d) s = run s (fun s => if !(s.sl c).running3 then s
      else (s.trellisFault c d).blockError c .trellis Status.parity 0x08) := rfl

theorem trellisFault_sl (s : State) (c : Fin 4) (d : Fin 2) :
    (s.trellisFault c d).sl c = { s.sl c with err := { (s.sl c).err with memCnt := count 16 1 (s.sl c).err.memCnt } } :=
  (fault_sl ..).trans (State.sl_modSl ..)

theorem trellisFault_tb (s : State) (c : Fin 4) (d : Fin 2) : (s.trellisFault c d).tb = s.tb := fault_tb ..

theorem trellisFault_made (s : State) (c : Fin 4) (d : Fin 2) :
    (s.trellisFault c d).errm.made = min (s.errm.made + 1) 0xFFFF := fault_made ..

/-! ### BUS_PARITY -/

/-- A bus error of the front end is counted and reported. -/
def State.busFault (s : State) (c : Fin 4) : State :=
  (s.modErr c (fun e => { e with busCnt := count 16 1 e.busCnt, events := raise e.events 3 })).fault
    { status := Status.parity, event := 0x03, level := 1, action := 3, block := 0x41, detail := 0, slice := c.val }

theorem exec_busParity_frontEnd (c : Fin 4) (w : Bool) (a : Word) (lo hi : Bool) (n : Nat) (s : State) :
    exec (.busParity c 0 w a lo hi n) s = run s (fun s => if !(s.sl c).running3 then s
      else ((s.busFault c).blockError c .frontEnd Status.parity 0x03).countBus c) := rfl

theorem busFault_sl (s : State) (c : Fin 4) :
    (s.busFault c).sl c = { s.sl c with err := { (s.sl c).err with
      busCnt := count 16 1 (s.sl c).err.busCnt, events := raise (s.sl c).err.events 3 } } :=
  (fault_sl ..).trans (State.sl_modSl ..)

theorem busFault_tb (s : State) (c : Fin 4) : (s.busFault c).tb = s.tb := fault_tb ..

/-- The first bus error on record is noted, and no more (R400). -/
theorem countBus_first (s : State) {c : Fin 4} (he : (s.sl c).err.busErrs = []) :
    s.countBus c = s.modErr c (fun e => { e with busErrs := [s.tb] }) := by
  unfold State.countBus
  rw [he]
  exact if_neg (by simp)

/-! ### BLOCK_RESET_TIMEOUT -/

/-- A slice error without an escalation on record: CTL and ERR note it. -/
def Slice.escalated (tb : Nat) (x : Slice) : Slice :=
  { x with
    ctl := { x.ctl with escTimes := [tb] }, err := { x.err with sliceResets := count 8 1 x.err.sliceResets } }

theorem resetAfter_of_running3 {x : Slice} (hr : x.running3 = true) : x.tx.resetAfter = none := by
  simp only [Slice.running3, Bool.and_eq_true, Option.isNone_iff_eq_none] at hr
  exact hr.2

/-- The first slice error resets the slice (R400). -/
theorem sliceError_first (s : State) {c : Fin 4} (status event block n : Nat) (hr : (s.sl c).running3 = true)
    (he : (s.sl c).ctl.escTimes = []) :
    ∃ t : State, s.sliceError c status event block n = t.haltSlice c 3 ∧ t.sl c = (s.sl c).escalated s.tb := by
  unfold State.sliceError
  dsimp only
  have hfew : decide (2 ≤ (([] : List Nat).filter (fun t => decide (s.tb < t + secTicks 60))).length) = false := rfl
  rw [if_neg (handles_errors hr), he]
  simp only [hfew, Bool.false_eq_true, if_false]
  refine ⟨_, rfl, ?_⟩
  rw [fault_sl]
  exact (sl_congr (s := s.modSl c (Slice.escalated s.tb)) rfl c).trans (State.sl_modSl ..)

/-- A slice without a burst in hand that the first slice error resets. -/
theorem sliceError_resets (s : State) {c : Fin 4} (status event block n : Nat) (hr : (s.sl c).running3 = true)
    (he : (s.sl c).ctl.escTimes = []) (hc : (s.sl c).tx.cmd = none) :
    ∃ (x : Slice) (sh : Shadow), x.core = ((s.sl c).escalated s.tb).core
      ∧ ((s.sliceError c status event block n).sl c).offClock = { x.inReset 3 with shadow := sh }.offClock := by
  obtain ⟨t, ht, hsl⟩ := sliceError_first s status event block n hr he
  have ha : (t.sl c).tx.resetAfter = none := by rw [hsl]; exact resetAfter_of_running3 hr
  obtain ⟨⟨x, sh, hx, -, hreset⟩, -⟩ := stopBlocks_enterReset t c 3
  rw [ht, haltSlice_resets t (by decide) ha (by rw [hsl]; exact hc)]
  exact ⟨x, sh, by rw [hx, hsl], hreset⟩

/-- The effect of BLOCK_RESET_TIMEOUT where block `b` has not answered its reset in time. -/
def State.resetOverdue (s : State) (c : Fin 4) (b : SliceBlock) : State :=
  (s.modErr c (fun e => { e with resetting := e.resetting.filter (fun p => p.1 != blockCode b) })).fault
    { status := Status.timeout, event := 0x0A, level := 1, action := 4, block := blockCode b, detail := blockCode b,
      slice := c.val }

theorem exec_blockResetTimeout (c : Fin 4) (b : SliceBlock) (s : State) :
    exec (.blockResetTimeout c b) s = run s (fun s =>
      match (s.sl c).err.resetting.find? (fun p => p.1 == blockCode b) with
      | none => s
      | some p => if s.real < p.2 + usTicks 10 ∨ !(s.sl c).running3 then s
        else (s.resetOverdue c b).sliceError c Status.timeout 0x0A (blockCode b) 1) := rfl

theorem resetOverdue_sl (s : State) (c : Fin 4) (b : SliceBlock) :
    (s.resetOverdue c b).sl c = { s.sl c with err := { (s.sl c).err with
      resetting := (s.sl c).err.resetting.filter (fun p => p.1 != blockCode b) } } :=
  (fault_sl ..).trans (State.sl_modSl ..)

theorem resetOverdue_tb (s : State) (c : Fin 4) (b : SliceBlock) : (s.resetOverdue c b).tb = s.tb := fault_tb ..

/-- Settles O18: an error of the trellis, one of the front end on the bus, and a block that does not answer its reset.
-/
theorem blockErrors : Obligations.BlockErrors := by
  intro c s
  refine ⟨fun hr hk hb he => ⟨fun d => ?_, fun hbus a n w lo hi => ?_⟩, fun b began hr hq hlate he hc => ?_⟩
  · refine run_gives_from (exec_trellisParity c d s) (fun _ _ _ _ h => h) ?_
    rintro u o rfl
    have hsl := trellisFault_sl u c d
    obtain ⟨trl, h⟩ := blockError_idle (u.trellisFault c d) .trellis Status.parity 0x08
      (by rw [hsl]; exact hr) (by rw [hsl]; exact hk) (by rw [hsl]; exact hb) (by rw [hsl]; exact he)
    rw [if_neg (handles_errors (x := u.sl c) hr), h, State.sl_modSl, hsl, trellisFault_tb]
    exact ⟨rfl, rfl, rfl, rfl, rfl, trellisFault_made ..⟩
  · refine run_gives_from (exec_busParity_frontEnd c w a lo hi n s) (fun _ _ _ _ h => h) ?_
    rintro u o rfl
    have hsl := busFault_sl u c
    obtain ⟨trl, h⟩ := blockError_idle (u.busFault c) .frontEnd Status.parity 0x03
      (by rw [hsl]; exact hr) (by rw [hsl]; exact hk) (by rw [hsl]; exact hb) (by rw [hsl]; exact he)
    rw [if_neg (handles_errors (x := u.sl c) hr), h, countBus_first _ (by rw [State.sl_modSl, hsl]; exact hbus),
      State.modErr, State.sl_modSl, State.sl_modSl, hsl, busFault_tb]
    exact ⟨rfl, congrArg (fun n => [n]) (busFault_tb u c), rfl, rfl, rfl, rfl⟩
  · refine run_gives_from (exec_blockResetTimeout c b s) (fun _ _ _ _ h => h) ?_
    rintro u o rfl
    have hsl := resetOverdue_sl u c b
    have hfind : (u.sl c).err.resetting.find? (fun p => p.1 == blockCode b) = some (blockCode b, began) := by
      rw [show (u.sl c).err.resetting = _ from hq]
      simp
    have hdue : ¬ (u.real < began + usTicks 10 ∨ (!(u.sl c).running3) = true) := by
      rintro (hsoon | hoff)
      · exact absurd hsoon (Nat.not_lt.mpr hlate)
      · exact handles_errors hr hoff
    obtain ⟨x, sh, hx, hreset⟩ := sliceError_resets (u.resetOverdue c b) Status.timeout 0x0A (blockCode b) 1
      (by rw [hsl]; exact hr) (by rw [hsl]; exact he) (by rw [hsl]; exact hc)
    rw [hfind]
    dsimp only
    rw [if_neg hdue, eq_of_offClock hreset]
    rw [hsl, resetOverdue_tb] at hx
    simp only [Slice.core, Slice.escalated, Prod.mk.injEq] at hx
    obtain ⟨hctl, -, -, -, herr, -⟩ := hx
    exact ⟨rfl, rfl, congrArg Ctl.escTimes hctl, rfl, congrArg Err.sliceResets herr⟩

end Sys2Proof.Machine
end

section
/-! SUPPORT. A bay without its cartridge or its power (R35, R36, R371, R394). -/

namespace Sys2Proof.Machine

open Sys2Proof

/-! ### The queues, the power tokens and the rules of the slice -/

@[simp] theorem ceaseQueue_offRecord (s : State) (q : Fin 256) : (s.ceaseQueue q).offRecord = s.offRecord := by
  unfold State.ceaseQueue
  dsimp only
  split <;> simp

theorem ceaseQueues_offRecord (s : State) (c : Fin 4) : (s.ceaseQueues c).offRecord = s.offRecord := by
  unfold State.ceaseQueues
  dsimp only
  rw [offRecord_foldl (fun _ _ => offRecord_modQ ..), offRecord_foldl fun t q => ?declared]
  case declared => split <;> simp

/-- A requester that has no demand and gives all its tokens back (R363). -/
def State.freed (held : Vector Nat 18) (p : Pwr) (i : Nat) : Prop :=
  vget p.want i 0 = 0 ∧ vget p.rel i 0 = vget held i 0

/-- The slice's three requesters. -/
def isRequester (c : Fin 4) (i : Nat) : Prop := i = 2 + c.val ∨ i = 10 + c.val ∨ i = 14 + c.val

theorem releaseAll_freed (s : State) {i : Nat} (hi : i < 18) : State.freed s.pwr.held (s.releaseAll i).pwr i := by
  constructor
  · exact vget_vmod_same s.pwr.want _ 0 hi
  · exact vget_vmod_same s.pwr.rel _ 0 hi

theorem releaseAll_keeps_freed (s : State) {i j : Nat} (hj : State.freed s.pwr.held s.pwr j) (hne : j ≠ i) :
    State.freed s.pwr.held (s.releaseAll i).pwr j := by
  obtain ⟨hwant, hrel⟩ := hj
  constructor
  · exact (vget_vmod_ne s.pwr.want _ 0 hne).trans hwant
  · exact (vget_vmod_ne s.pwr.rel _ 0 hne).trans hrel

/-- The slice's requesters give all their tokens back. -/
theorem releaseSlice_freed (s : State) (c : Fin 4) {i : Nat} (hi : isRequester c i) :
    State.freed s.pwr.held (s.releaseSlice c).pwr i := by
  have hlt : i < 18 := by unfold isRequester at hi; omega
  let s1 := s.releaseAll (rxReq c)
  let s2 := s1.releaseAll (txReq c)
  suffices h : State.freed s.pwr.held (s2.releaseAll (tunerReq c)).pwr i from h
  by_cases h3 : i = tunerReq c
  · exact h3 ▸ releaseAll_freed s2 (h3 ▸ hlt)
  · refine releaseAll_keeps_freed s2 ?_ h3
    by_cases h2 : i = txReq c
    · exact h2 ▸ releaseAll_freed s1 (h2 ▸ hlt)
    · refine releaseAll_keeps_freed s1 ?_ h2
      have h1 : i = rxReq c := by
        rcases hi with h | h | h
        · exact h
        · exact absurd h h2
        · exact absurd h h3
      exact h1 ▸ releaseAll_freed s (h1 ▸ hlt)

/-- The slice's queues cease, its requesters give their tokens back and its rules go. -/
def State.bayCeases (s : State) (c : Fin 4) : State := ((s.ceaseQueues c).releaseSlice c).dropEvents c

section
variable (s : State) (c : Fin 4)

theorem bayCeases_drops : (s.bayCeases c).offRecord = ((s.ceaseQueues c).releaseSlice c).offRecord :=
  dropRules_offRecord ((s.ceaseQueues c).releaseSlice c) c

/-- Of what records do not reach, only the steward's requests change. -/
theorem bayCeases_offRecord : ∃ p : Pwr, (s.bayCeases c).offRecord = { s.offRecord with pwr := p } := by
  have hq := ceaseQueues_offRecord s c
  have hd := bayCeases_drops s c
  generalize s.ceaseQueues c = u at hq hd
  exact ⟨(u.releaseSlice c).pwr, by rw [hd, ← hq]; rfl⟩

theorem bayCeases_slices : (s.bayCeases c).slices = s.slices :=
  (bayCeases_offRecord s c).elim fun _ h => (congrArg State.slices h : _)

theorem bayCeases_tap : (s.bayCeases c).tap = s.tap :=
  (bayCeases_offRecord s c).elim fun _ h => (congrArg State.tap h : _)

theorem bayCeases_fea : (s.bayCeases c).fea = s.fea :=
  (bayCeases_offRecord s c).elim fun _ h => (congrArg State.fea h : _)


theorem bayCeases_calStore : (s.bayCeases c).calStore = s.calStore :=
  (bayCeases_offRecord s c).elim fun _ h => (congrArg State.calStore h : _)

theorem bayCeases_modEvents : (s.bayCeases c).mod.events = s.mod.events :=
  (bayCeases_offRecord s c).elim fun _ h => (congrArg (fun u : State => u.mod.events) h : _)

theorem bayCeases_freed {i : Nat} (hi : isRequester c i) : State.freed s.pwr.held (s.bayCeases c).pwr i := by
  rw [pwr_of_offRecord (bayCeases_drops s c), ← pwr_of_offRecord (ceaseQueues_offRecord s c)]
  exact releaseSlice_freed _ c hi

end

/-! ### CARTRIDGE_REMOVED -/

/-- A slice whose cartridge has been taken out. -/
def Slice.bayEmpty (x : Slice) : Slice :=
  let y := x.unpowered
  { y with cart := none, ctl := { y.ctl with state := .absent, present := false, part := 0, issue := 0 } }

theorem exec_cartridgeRemoved (c : Fin 4) (s : State) : exec (.cartridgeRemoved c) s = run s (fun s =>
    if (s.sl c).cart.isNone then s
    else if s.mod.ready then (s.emptyBay c).fault
      { status := Status.ok, event := 0x17, level := 2, action := 0, block := 0x44, slice := c.val }
    else s.emptyBay c) := rfl

/-- An empty bay, but for the records, the clocks and the mailbox. -/
theorem emptyBay_offClocks (s : State) (c : Fin 4) :
    (s.emptyBay c).offClocks = ((s.bayCeases c).modSl c Slice.bayEmpty).bayChange.offClocks := by
  let u := (s.bayCeases c).modSl c Slice.bayEmpty
  let v := (u.unfaulted c).clearWindow c
  have hv : v.recheckOffers.dropTiming.offClocks = u.offClocks := by
    rw [dropTiming_offClocks, recheckOffers_offClocks]
    exact offClocks_of_slices (clearWindow_slices ..) (clearWindow_offSlices ..)
  have hbay {a b : State} (h : a.offClocks = b.offClocks) : a.bayChange.offClocks = b.bayChange.offClocks :=
    congrArg (fun p : (Nat × Pwr × Mod × Tap × Fea × List (Nat × CalStore)) × (Fin 4 → Slice) =>
      ((p.1.1, p.1.2.1, { p.1.2.2.1 with events := raise p.1.2.2.1.events 3 }, p.1.2.2.2), p.2)) h
  exact hbay hv

/-- What an empty bay is left with. -/
theorem emptyBay_leaves (s : State) (c : Fin 4) :
    let t := s.emptyBay c
    (t.sl c).ctl.state = .absent ∧ (t.sl c).cart = none ∧ (t.sl c).ctl.present = false ∧ (t.sl c).ctl.part = 0
      ∧ (t.sl c).ctl.issue = 0 ∧ (t.sl c).ctl.feedOn = false ∧ (t.sl c).sram = []
      ∧ (∀ i, isRequester c i → State.freed s.pwr.held t.pwr i)
      ∧ t.mod.events = s.mod.events ||| 8 ∧ t.tap = s.tap ∧ t.fea = s.fea ∧ t.calStore = s.calStore := by
  intro t
  have hoff : t.offClocks = ((s.bayCeases c).modSl c Slice.bayEmpty).bayChange.offClocks := emptyBay_offClocks s c
  have hout := offSlices_of_offClocks hoff
  simp only [State.offSlices, Prod.mk.injEq] at hout
  obtain ⟨-, hpwr, hmod, htap, hfea, hcal⟩ := hout
  have hsl : (t.sl c).offClock = ((s.bayCeases c).sl c).bayEmpty.offClock := by
    rw [offClock_of_offClocks hoff c]
    exact congrArg Slice.offClock (State.sl_modSl ..)
  rw [eq_of_offClock hsl, hpwr, hmod, htap, hfea, hcal]
  refine ⟨rfl, rfl, rfl, rfl, rfl, rfl, rfl, fun i hi => bayCeases_freed s c hi, ?_, bayCeases_tap .., bayCeases_fea ..,
    bayCeases_calStore ..⟩
  exact congrArg (raise · 3) (bayCeases_modEvents s c)

/-! ### OFF_REQ -/

theorem exec_offReq (c : Fin 4) (s : State) :
    exec (.offReq c) s = run s (fun s => s.moduleWrite fun s => s.bayOff c) := rfl

/-- The host has asked for the slice's power to be turned off. -/
def Slice.askOff (x : Slice) : Slice := { x with ctl := { x.ctl with offReq := true } }

/-- OFF_REQ to a powered slice without a burst in hand. -/
theorem bayOff_drains (s : State) {c : Fin 4} (hf : (s.sl c).ctl.feedOn = true) (ho : (s.sl c).ctl.offReq = false)
    (ha : (s.sl c).tx.resetAfter = none) (hc : (s.sl c).tx.cmd = none) :
    s.bayOff c = (((s.modSl c Slice.askOff).stopBlocks c).enterReset c (s.sl c).ctl.lastReset).enterDrain c := by
  have hu : (s.modSl c Slice.askOff).sl c = (s.sl c).askOff := State.sl_modSl ..
  have hnone : ((s.modSl c Slice.askOff).sl c).tx.resetAfter = none := by rw [hu]; exact ha
  have hask : s.bayOff c = (s.modSl c Slice.askOff).haltSlice c 0xE := by
    unfold State.bayOff
    dsimp only
    rw [if_neg (by simp [hf, ho])]
    exact if_neg (by rw [State.sl_modSl]; simp [ha])
  rw [hask, haltSlice_quiet _ _ hnone (by rw [hu]; exact hc)]
  unfold State.haltNow
  dsimp only
  rw [if_neg (by decide), if_pos rfl, hu]
  rfl

/-! ### OFF_DRAIN_END -/

/-- A slice that is HELD after its drain. -/
def Slice.drained (x : Slice) : Slice :=
  let y := x.unpowered
  { y with ctl := { y.ctl with state := .held } }

theorem exec_offDrainEnd (c : Fin 4) (s : State) : exec (.offDrainEnd c) s = run s (fun s =>
    if !(s.sl c).ctl.offReq ∨ (s.sl c).ctl.state ≠ .reset then s
    else if s.draining c ∧ s.real < (s.sl c).ctl.offAt + msTicks 100 then s
    else ((s.bayCeases c).modSl c Slice.drained).bayChange) := rfl

/-- Settles O14: a cartridge that is removed, a slice that is powered down, and the end of its drain. -/
theorem bayLosesCartridge : Obligations.BayLosesCartridge := by
  intro c s
  refine ⟨fun hcart => ?_, fun hready hswap hf ho ha hc => ?_, fun ho hk hend => ?_⟩
  · refine run_gives_from (exec_cartridgeRemoved c s) (fun _ _ _ _ h => h) ?_
    rintro u o rfl
    have hheld : ¬ (u.sl c).cart.isNone = true := fun h => hcart (Option.isNone_iff_eq_none.mp h)
    rw [if_neg hheld]
    split
    · simp only [fault_sl, fault_pwr, fault_modEvents, fault_tap, fault_fea, fault_calStore]
      exact emptyBay_leaves u c
    · exact emptyBay_leaves u c
  · refine run_gives_from (exec_offReq c s) (fun _ _ _ _ h => h) ?_
    rintro u o rfl
    have hu : (u.modSl c Slice.askOff).sl c = (u.sl c).askOff := State.sl_modSl ..
    obtain ⟨⟨x, sh, hx, -, hreset⟩, -, hreal⟩ := stopBlocks_enterReset (u.modSl c Slice.askOff) c (u.sl c).ctl.lastReset
    rw [hu] at hx
    simp only [Slice.core, Slice.askOff, Prod.mk.injEq] at hx
    obtain ⟨hctl, hcart, -⟩ := hx
    have hw : (u.moduleWrite fun s => s.bayOff c) = u.bayOff c := by
      unfold State.moduleWrite
      rw [if_neg (by simpa using hready), if_neg (by simpa using hswap)]
    rw [hw, bayOff_drains u hf ho ha hc, State.enterDrain, State.sl_modSl, eq_of_offClock hreset]
    exact ⟨rfl, congrArg Ctl.offReq hctl, hreal, rfl, hcart, rfl⟩
  · refine run_gives_from (exec_offDrainEnd c s) (fun _ _ _ _ h => h) ?_
    rintro u o rfl
    have hover : ¬ (u.draining c = true ∧ u.real < (u.sl c).ctl.offAt + msTicks 100) := by
      rintro ⟨hdrains, hsoon⟩
      rcases hend with hdone | hlate
      · exact Bool.false_ne_true (hdone.symm.trans hdrains)
      · exact absurd hsoon (Nat.not_lt.mpr hlate)
    have hasked : ¬ ((!(u.sl c).ctl.offReq) = true ∨ (u.sl c).ctl.state ≠ .reset) := by
      rintro (hno | hno)
      · have hasked : (u.sl c).ctl.offReq = true := ho
        simp [hasked] at hno
      · exact hno hk
    have hsl : (((u.bayCeases c).modSl c Slice.drained).bayChange).sl c = (u.sl c).drained :=
      (State.sl_modSl ..).trans (congrArg Slice.drained (sl_congr (bayCeases_slices u c) c))
    rw [if_neg hasked, if_neg hover, hsl]
    exact ⟨rfl, rfl, rfl, rfl, rfl, fun i hi => bayCeases_freed u c hi, congrArg (raise · 3) (bayCeases_modEvents u c)⟩

end Sys2Proof.Machine
end

section
/-! SUPPORT. A slice that starts (R35, R84, R127, R402): the end of its self-test and of its start-up calibrations. -/

namespace Sys2Proof.Machine

open Sys2Proof

/-! ### The self-test -/

theorem eccRead_slices (s : State) (corrected : Bool) (unit : Nat) : (s.eccRead corrected unit).slices = s.slices := by
  unfold State.eccRead
  split
  · rfl
  · exact (fault_slices ..).trans rfl

theorem eccMaybe_slices (s : State) (ecc : Option Bool) (unit : Nat) : (s.eccMaybe ecc unit).slices = s.slices := by
  cases ecc with
  | none => rfl
  | some corrected => exact eccRead_slices ..

theorem dropCal_slices (s : State) (c : Fin 4) (lost : Bool) : (s.dropCal c lost).slices = s.slices := by
  unfold State.dropCal
  split
  · split <;> rfl
  · rfl

/-- No bank is beyond repair where each has at most four failing pages (R402). -/
theorem failingBank_none {pages : List Nat} (h : ∀ b, b < 16 → (pages.filter (fun p => p % 16 == b)).length ≤ 4) :
    failingBank pages = none := by
  unfold failingBank
  rw [List.find?_eq_none]
  intro b hb
  have hb' : (pages.filter (fun p => pageBank p == b)).length ≤ 4 := h b (List.mem_range.mp hb)
  simpa using hb'

theorem vget_vmapIdx {α β : Type} {n : Nat} (f : Nat → α → β) (v : Vector α n) (d : β) {i : Nat} (hi : i < n) :
    vget (vmapIdx f v) i d = f i v[i] := by simp [vget, vmapIdx, hi]

theorem vget_sparesLeft (pages : List Nat) {b : Nat} (hb : b < 16) :
    vget (sparesLeft pages) b 0 = 4 - (pages.filter (fun p => p % 16 == b)).length := by
  rw [sparesLeft, vget_vmapIdx _ _ _ hb]
  rfl

/-- A slice that starts to calibrate with the tuner's last frequency and the failing pages of its self-test. -/
def Slice.toCalibrating (freq : Nat) (pages : List Nat) (x : Slice) : Slice :=
  let y := x.loadKeys
  { y with
    ctl := { y.ctl with state := .calibrating, resetReq := false }, clk := { y.clk with lock := true },
    afe := { y.afe with tunerFreq := BitVec.ofNat 32 freq },
    err := { y.err with retired := pages, selfTestRetired := pages, spares := sparesLeft pages } }

theorem enterCalibrating_slices (s : State) (c : Fin 4) (pages : List Nat) :
    (s.enterCalibrating c pages).slices = (s.modSl c (Slice.toCalibrating (s.calRecOf c).tunerFreq pages)).slices := by
  unfold State.enterCalibrating
  dsimp only
  split <;> rfl

theorem sram_loadKeys (x : Slice) : x.loadKeys.sram = x.sram := by
  unfold Slice.loadKeys
  split <;> rfl

/-- A slice whose self-test failed. -/
def Slice.toFaulted (escalated : Bool) (x : Slice) : Slice :=
  { x with
    ctl := { x.ctl with state := .faulted, resetReq := false, ranForme := x.ctl.state == .running },
    shadow := { x.shadow with reload := none, boot := none }, err := { x.err with faultedEsc := escalated } }

theorem enterFaulted_offClocks (s : State) (c : Fin 4) (escalated : Bool) :
    (s.enterFaulted c escalated).offClocks = (s.modSl c (Slice.toFaulted escalated)).offClocks := by
  unfold State.enterFaulted
  dsimp only
  rw [dropTiming_offClocks, recheckOffers_offClocks]
  split <;> rfl

theorem exec_selfTestComplete (c : Fin 4) (bad : List Nat) (failed : Bool) (ecc : Option Bool) (s : State) :
    exec (.selfTestComplete c bad failed ecc) s = run s (fun s =>
      let pages := bad.eraseDups.filter (fun p => decide (p < 3072))
      if (s.sl c).ctl.state ≠ .reset ∨ !(s.sl c).ctl.feedOn ∨ (s.sl c).ctl.offReq then s
      else if failed ∨ (failingBank pages).isSome then (s.enterFaulted c false).fault
        { status := Status.parity, event := 0x14, level := 2, action := 5, block := 0x40,
          bank := (failingBank pages).getD 0xFF, detail := (failingBank pages).getD 0xFF, slice := c.val }
      else ((s.eccMaybe ecc 0xFFFF).dropCal c (ecc == some false)).enterCalibrating c pages) := rfl

/-! ### A start-up calibration -/

/-- The parts of the state that a start-up calibration of slice `c` leaves alone. -/
def State.calFrame (c : Fin 4) (s : State) := (s.frame c, s.tb, s.pwr.held)

theorem calFrame_of_offRecord {s t : State} (c : Fin 4) (h : t.offRecord = s.offRecord) :
    t.calFrame c = s.calFrame c := by
  simp only [State.calFrame, frame_of_offRecord c h, tb_of_offRecord h, pwr_of_offRecord h]

section
variable (s : State) (c : Fin 4)

theorem fault_calFrame (i : FaultInfo) : (s.fault i).calFrame c = s.calFrame c := by
  simp only [State.calFrame, fault_frame, fault_tb, fault_pwr]

theorem modSl_calFrame {f : Slice → Slice} (h : ∀ x, (f x).core = x.core) : (s.modSl c f).calFrame c = s.calFrame c :=
  Prod.ext (frame_modSl s c h) rfl

theorem flashJob_calFrame (cost : FlashCost) (j : FlashJob) : (s.flashJob cost j).calFrame c = s.calFrame c := by
  unfold State.flashJob State.queueJob
  dsimp only
  split <;> rfl

theorem calUse_calFrame (kind : Nat) (v : List Int) : (s.calUse c kind v).calFrame c = s.calFrame c := by
  unfold State.calUse
  split
  · exact modSl_calFrame s c fun _ => rfl
  · exact modSl_calFrame s c fun _ => rfl

theorem calStoreWrite_calFrame (kind : Nat) (v : List Int) (freq : Nat) :
    (s.calStoreWrite c kind v freq).1.calFrame c = s.calFrame c := by
  unfold State.calStoreWrite State.flashWrite
  cases (s.sl c).cart with
  | none => rfl
  | some k =>
    dsimp only
    by_cases hd : s.flashDenied (.pool 4) = true
    · rw [if_pos hd]
      rfl
    · rw [if_neg hd]
      exact flashJob_calFrame ..

theorem startCal_calFrame (o : CalOutcome) : (s.startCal c o).calFrame c = s.calFrame c := by
  have hrec (u : State) (r : Record) : (u.stage 4 r).calFrame c = u.calFrame c :=
    calFrame_of_offRecord c (stage_offRecord ..)
  unfold State.startCal
  dsimp only
  split
  next => exact hrec ..
  next =>
    split
    next =>
      split
      next => exact (hrec ..).trans (calUse_calFrame ..)
      next => exact (hrec ..).trans ((calStoreWrite_calFrame ..).trans (calUse_calFrame ..))
    next =>
      have hstored : (match (s.calRecOf c).fields o.kind with
          | some v => s.calUse c o.kind v
          | none => s).calFrame c = s.calFrame c := by
        split
        next => exact calUse_calFrame ..
        next => rfl
      split
      next => exact (fault_calFrame ..).trans ((hrec ..).trans hstored)
      next => exact (hrec ..).trans hstored

theorem foldl_startCal_calFrame (l : List CalOutcome) :
    (l.foldl (fun t o => t.startCal c o) s).calFrame c = s.calFrame c := by
  induction l generalizing s with
  | nil => rfl
  | cons o l ih => rw [List.foldl_cons, ih, startCal_calFrame]

end

/-! ### The end of the start-up calibrations -/

/-- The state once every result of the start-up calibrations has been taken. -/
def State.calsTaken (s : State) (c : Fin 4) (l : List CalOutcome) : State :=
  let s1 := l.foldl (fun t o => t.startCal c o) s
  let s2 := (s1.modAfe c (fun a => { a with searching := false })).releaseAll (tunerReq c)
  s2.modAfe c (fun a =>
    { (s2.sl c).afe.calHeld.foldl (fun (a : Afe) k => a.request k 1 s2.tb) a with calHeld := [], calLosses := [] })

/-- The slice goes on to its forme: out of the library where the boot entry could be read. -/
def State.calsDone (s : State) (c : Fin 4) (ecc : Option Bool) : State :=
  match (s.sl c).shadow.boot with
  | some b =>
    if ecc = some false then
      ((s.eccMaybe ecc b.1.val).modSl c (fun x => { x with shadow := { x.shadow with boot := none } })).startForme c
    else (s.eccMaybe ecc b.1.val).startForme c
  | none => s.startForme c

/-- The results that count: a search that its tokens were refused to counts with its stored setting. -/
def State.calResults (s : State) (c : Fin 4) (results : List CalOutcome) : List CalOutcome :=
  if (s.calRecOf c).kinds.contains 2 && !(s.sl c).afe.searching then
    results.filter (fun o => o.kind != 2) ++ [calRefused s.tb]
  else results

/-- The effect of STARTUP_CALIBRATION_DONE. -/
def State.startupCals (s : State) (c : Fin 4) (results : List CalOutcome) (ecc : Option Bool) : State :=
  if (s.sl c).ctl.state ≠ .calibrating ∨ (s.sl c).shadow.reload.isSome ∨ (s.sl c).clk.coast then s
  else
    let kinds := (s.calRecOf c).kinds
    let all := if kinds.contains 2 ∧ !(s.sl c).afe.searching then
      results.filter (fun o => o.kind != 2) ++ [calRefused s.tb] else results
    if vget s.pwr.want (tunerReq c) 0 ≠ 0 ∨ !calComplete kinds (s.sl c).afe.calLosses all then s
    else (s.calsTaken c all).calsDone c ecc

theorem exec_startupCalibrationDone (c : Fin 4) (results : List CalOutcome) (ecc : Option Bool) (s : State) :
    exec (.startupCalibrationDone c results ecc) s = run s (fun s => s.startupCals c results ecc) := rfl

/-- In CALIBRATING without a lock-up planned, with no search still waiting for its tokens, all turns on the results. -/
theorem startupCals_calibrating (s : State) {c : Fin 4} (results : List CalOutcome) (ecc : Option Bool)
    (hk : (s.sl c).ctl.state = .calibrating) (hr : (s.sl c).shadow.reload = none) (hco : (s.sl c).clk.coast = false)
    (hw : vget s.pwr.want (tunerReq c) 0 = 0) :
    s.startupCals c results ecc =
      if calComplete (s.calRecOf c).kinds (s.sl c).afe.calLosses (s.calResults c results) = false then s
      else (s.calsTaken c (s.calResults c results)).calsDone c ecc := by
  have hall : s.calResults c results = if (s.calRecOf c).kinds.contains 2 ∧ !(s.sl c).afe.searching then
      results.filter (fun o => o.kind != 2) ++ [calRefused s.tb] else results := by
    simp only [State.calResults, Bool.and_eq_true]
  unfold State.startupCals
  dsimp only
  rw [if_neg (by simp [hk, hr, hco]), ← hall]
  simp only [hw, ne_eq, not_true_eq_false, false_or, Bool.not_eq_true']

section
variable (s : State) (c : Fin 4) (l : List CalOutcome)

theorem calsTaken_calFrame : (s.calsTaken c l).frame c = s.frame c ∧ (s.calsTaken c l).tb = s.tb := by
  have h := foldl_startCal_calFrame s c l
  constructor
  · unfold State.calsTaken
    dsimp only
    rw [modAfe_frame, frame_releaseAll, modAfe_frame]
    exact congrArg Prod.fst h
  · exact (congrArg (fun p => p.2.1) h : _)

theorem request_searching (a : Afe) (k origin t : Nat) : (a.request k origin t).searching = a.searching := by
  unfold Afe.request
  simp only [apply_ite Afe.searching, ite_self]

theorem requests_searching (ks : List Nat) (a : Afe) (t : Nat) :
    (ks.foldl (fun (a : Afe) k => a.request k 1 t) a).searching = a.searching := by
  induction ks generalizing a with
  | nil => rfl
  | cons k ks ih => rw [List.foldl_cons, ih, request_searching]

/-- No search is left and none is held, and the search's tokens go back. -/
theorem calsTaken_leaves :
    ((s.calsTaken c l).sl c).afe.searching = false ∧ ((s.calsTaken c l).sl c).afe.calHeld = []
      ∧ vget (s.calsTaken c l).pwr.rel (tunerReq c) 0 = vget s.pwr.held (tunerReq c) 0 := by
  have hheld : (l.foldl (fun t o => t.startCal c o) s).pwr.held = s.pwr.held :=
    congrArg (fun p => p.2.2) (foldl_startCal_calFrame s c l)
  have hlt : tunerReq c < 18 := by unfold tunerReq; omega
  unfold State.calsTaken
  generalize l.foldl (fun t o => t.startCal c o) s = t at hheld
  let u := (t.modAfe c (fun a => { a with searching := false })).releaseAll (tunerReq c)
  have hu : (u.sl c).afe.searching = false := congrArg (fun x : Slice => x.afe.searching)
    (State.sl_modSl t c (fun x => { x with afe := { x.afe with searching := false } }))
  dsimp only
  rw [State.modAfe, State.sl_modSl]
  refine ⟨(requests_searching ..).trans hu, rfl, ?_⟩
  rw [← hheld]
  exact (releaseAll_freed _ hlt).2

end

section
variable (s : State) {c : Fin 4}

/-- A slice without a forme is IDLE. -/
theorem startForme_none (hb : (s.sl c).shadow.boot = none) (ha : (s.sl c).shadow.active = none) :
    s.startForme c = (s.modSl c (fun x => { x with ctl := { x.ctl with state := .idle } })).dropRules c := by
  unfold State.startForme
  dsimp only
  rw [hb, ha]

/-- A slice with a forme to load stays as it is and plans the lock-up (R84). -/
theorem startForme_loads (h : (s.sl c).shadow.boot ≠ none ∨ (s.sl c).shadow.active ≠ none) :
    ∃ boot, (s.startForme c).slices = (s.modSl c (fun x => { x with shadow := { x.shadow with
      boot := boot, reload := some (alignUp (2 ^ 20) (s.tb + 2 ^ 16)) } })).slices := by
  unfold State.startForme
  dsimp only
  split
  next => split <;> exact ⟨_, rfl⟩
  next => exact ⟨(s.sl c).shadow.boot, rfl⟩
  next hb ha => simp [hb, ha] at h

end

/-! ### A slice goes on from CALIBRATING -/

section
variable (s : State) {c : Fin 4} (ecc : Option Bool)

theorem eccRead_tb_pwr (corrected : Bool) (unit : Nat) :
    (s.eccRead corrected unit).tb = s.tb ∧ (s.eccRead corrected unit).pwr = s.pwr := by
  unfold State.eccRead
  split
  next => exact ⟨rfl, rfl⟩
  next => exact ⟨(fault_tb ..).trans rfl, (fault_pwr ..).trans rfl⟩

theorem eccMaybe_tb_pwr (unit : Nat) : (s.eccMaybe ecc unit).tb = s.tb ∧ (s.eccMaybe ecc unit).pwr = s.pwr := by
  cases ecc with
  | none => exact ⟨rfl, rfl⟩
  | some corrected => exact eccRead_tb_pwr ..

/-- The slice's boot entry counts where the flash read did not fail. -/
theorem calsDone_eq : ∃ v : State, s.calsDone c ecc = v.startForme c ∧ v.tb = s.tb ∧ v.pwr = s.pwr
    ∧ v.sl c = { s.sl c with shadow := { (s.sl c).shadow with
      boot := if ecc = some false then none else (s.sl c).shadow.boot } } := by
  unfold State.calsDone
  cases hb : (s.sl c).shadow.boot with
  | none => exact ⟨s, rfl, rfl, rfl, by rw [ite_self, ← hb]⟩
  | some b =>
    dsimp only
    obtain ⟨htb, hpwr⟩ := eccMaybe_tb_pwr s ecc b.1.val
    have hsl := sl_congr (eccMaybe_slices s ecc b.1.val) c
    split
    next => exact ⟨_, rfl, htb, hpwr, by rw [State.sl_modSl, hsl]⟩
    next => exact ⟨_, rfl, htb, hpwr, by rw [hsl, ← hb]⟩

/-- Without a forme the slice is IDLE; only its state changes. -/
theorem calsDone_idle (hb : ¬ ((s.sl c).shadow.boot ≠ none ∧ ecc ≠ some false)) (ha : (s.sl c).shadow.active = none) :
    ((s.calsDone c ecc).sl c).ctl.state = .idle ∧ ((s.calsDone c ecc).sl c).afe = (s.sl c).afe
      ∧ (s.calsDone c ecc).pwr = s.pwr := by
  obtain ⟨v, hv, -, hpwr, hsl⟩ := calsDone_eq s (c := c) ecc
  have hnone : (v.sl c).shadow.boot = none := by
    rw [hsl]
    by_cases he : ecc = some false
    · exact if_pos he
    · exact (if_neg he).trans (not_not.mp fun h => hb ⟨h, he⟩)
  have hd := dropRules_offRecord (v.modSl c (fun x => { x with ctl := { x.ctl with state := .idle } })) c
  rw [hv, startForme_none v hnone (by rw [hsl]; exact ha), sl_of_offRecord hd, State.sl_modSl, hsl]
  exact ⟨rfl, rfl, (pwr_of_offRecord hd).trans hpwr⟩

/-- With a forme the slice stays as it is and plans the lock-up. -/
theorem calsDone_loads (h : ((s.sl c).shadow.boot ≠ none ∧ ecc ≠ some false) ∨ (s.sl c).shadow.active ≠ none) :
    ((s.calsDone c ecc).sl c).ctl = (s.sl c).ctl ∧ ((s.calsDone c ecc).sl c).afe = (s.sl c).afe
      ∧ ((s.calsDone c ecc).sl c).shadow.reload = some (alignUp (2 ^ 20) (s.tb + 2 ^ 16)) := by
  obtain ⟨v, hv, htb, -, hsl⟩ := calsDone_eq s (c := c) ecc
  have hload : (v.sl c).shadow.boot ≠ none ∨ (v.sl c).shadow.active ≠ none := by
    rw [hsl]
    rcases h with ⟨hb, he⟩ | ha
    · exact Or.inl (by rwa [if_neg he])
    · exact Or.inr ha
  obtain ⟨boot, hs⟩ := startForme_loads v hload
  rw [hv, sl_congr hs, State.sl_modSl, hsl, htb]
  exact ⟨rfl, rfl, rfl⟩

end

/-! ### The statement -/

theorem selfTest_taken {x : Slice} (hk : x.ctl.state = .reset) (hf : x.ctl.feedOn = true) (ho : x.ctl.offReq = false) :
    ¬ (x.ctl.state ≠ .reset ∨ (!x.ctl.feedOn) = true ∨ x.ctl.offReq = true) := by simp [hk, hf, ho]

/-- The self-test passes. -/
theorem selfTest_passes (s : State) (c : Fin 4) (pages : List Nat) (ecc : Option Bool) :
    ∃ freq, (((s.eccMaybe ecc 0xFFFF).dropCal c (ecc == some false)).enterCalibrating c pages).slices =
      (s.modSl c (Slice.toCalibrating freq pages)).slices := by
  refine ⟨_, (enterCalibrating_slices ..).trans (modSl_slices_congr ?_ ..)⟩
  exact (dropCal_slices ..).trans (eccMaybe_slices ..)

/-- Settles O15: the self-test and the start-up calibrations of a slice end. -/
theorem sliceStarts : Obligations.SliceStarts := by
  intro c s
  refine ⟨fun bad ecc hk hf ho => ?_, fun results ecc hk hr hco hw => ?_⟩
  · intro pages
    refine ⟨fun hbank => ?_, ?_⟩
    · refine run_gives_from (exec_selfTestComplete c bad false ecc s) (fun _ _ _ _ h => h) ?_
      rintro u o rfl
      have hpass : ¬ (false = true ∨ (failingBank pages).isSome = true) := by simp [failingBank_none hbank]
      obtain ⟨freq, hsl⟩ := selfTest_passes u c pages ecc
      dsimp only
      rw [if_neg (selfTest_taken (x := u.sl c) hk hf ho), if_neg hpass, sl_congr hsl, State.sl_modSl]
      exact ⟨rfl, rfl, rfl, rfl, fun b hb => vget_sparesLeft pages hb,
        fun d hd => (sl_congr hsl d).trans (State.sl_modSl_ne _ _ hd), sram_loadKeys _⟩
    · refine run_gives_from (exec_selfTestComplete c bad true ecc s) (fun _ _ _ _ h => h) ?_
      rintro u o rfl
      have hsl := offClock_of_offClocks (enterFaulted_offClocks u c false) c
      rw [State.sl_modSl] at hsl
      dsimp only
      rw [if_neg (selfTest_taken (x := u.sl c) hk hf ho), if_pos (Or.inl rfl), fault_sl, eq_of_offClock hsl]
      exact ⟨rfl, rfl⟩
  · intro kinds all boots
    refine ⟨fun hwait => ?_, fun hdone => ⟨fun hb ha => ?_, fun hload => ?_⟩⟩
    · refine run_does_from (exec_startupCalibrationDone c results ecc s) ?_
      rintro u o rfl
      rw [startupCals_calibrating u results ecc hk hr hco hw]
      exact if_pos hwait
    · refine run_gives_from (exec_startupCalibrationDone c results ecc s) (fun _ _ _ _ h => h) ?_
      rintro u o rfl
      obtain ⟨hf, -⟩ := calsTaken_calFrame u c (u.calResults c results)
      obtain ⟨hsearch, hheld, hrel⟩ := calsTaken_leaves u c (u.calResults c results)
      have hall : ¬ calComplete (u.calRecOf c).kinds (u.sl c).afe.calLosses (u.calResults c results) = false :=
        fun h => Bool.false_ne_true (h.symm.trans hdone)
      rw [startupCals_calibrating u results ecc hk hr hco hw, if_neg hall]
      generalize u.calsTaken c (u.calResults c results) = v at hf hsearch hheld hrel ⊢
      obtain ⟨hidle, hafe, hpwr⟩ := calsDone_idle v ecc (by rw [boot_of_frame hf]; exact hb)
        (by rw [active_of_frame hf]; exact ha)
      rw [hafe, hpwr]
      exact ⟨hidle, hsearch, hheld, hrel⟩
    · refine run_gives_from (exec_startupCalibrationDone c results ecc s) (fun _ _ _ _ h => h) ?_
      rintro u o rfl
      obtain ⟨hf, htb⟩ := calsTaken_calFrame u c (u.calResults c results)
      obtain ⟨hsearch, -⟩ := calsTaken_leaves u c (u.calResults c results)
      have hall : ¬ calComplete (u.calRecOf c).kinds (u.sl c).afe.calLosses (u.calResults c results) = false :=
        fun h => Bool.false_ne_true (h.symm.trans hdone)
      rw [startupCals_calibrating u results ecc hk hr hco hw, if_neg hall]
      generalize u.calsTaken c (u.calResults c results) = v at hf htb hsearch ⊢
      obtain ⟨hctl, hafe, hreload⟩ := calsDone_loads v ecc (c := c)
        (by rw [boot_of_frame hf, active_of_frame hf]; exact hload)
      rw [hctl, hafe, hreload, ctl_of_frame hf, htb]
      exact ⟨hk, hsearch, rfl⟩

end Sys2Proof.Machine
end

section
/-! SUPPORT. The checks in the background (R42, R43, R405, R418): the scrub, the shadow store, error injection and
telemetry. -/

namespace Sys2Proof.Machine

open Sys2Proof

theorem modSl_congr (s : State) {c : Fin 4} {f g : Slice → Slice} (h : f (s.sl c) = g (s.sl c)) :
    s.modSl c f = s.modSl c g := congrArg (s.setSl c) h

theorem serves {x : Slice} (h : x.ctl.state.served = true) : ¬ (!x.ctl.state.served) = true := by simp [h]

/-! ### The scrub -/

/-- The grants that the scrub has used of each bank in the present window. -/
def State.scrubGrants (s : State) (c : Fin 4) : Vector Nat 16 :=
  if s.tb / 4096 = (s.sl c).ctl.bgWindow then (s.sl c).ctl.bgGrants else Vector.replicate 16 0

/-- The slice after the scrub took a grant of `bank` in window `w` (R42). -/
def Slice.scrubTook (w : Nat) (g : Vector Nat 16) (bank : Nat) (x : Slice) : Slice :=
  { x with
    ctl := { x.ctl with
      bgWindow := w, bgGrants := vmod g bank (fun n => n + 1),
      scrubNext := if x.err.busRetry then x.ctl.scrubNext
        else if x.ctl.scrubNext < 1572863 then x.ctl.scrubNext + 1 else 0,
      scrubPasses := if x.err.busRetry ∨ x.ctl.scrubNext < 1572863 then x.ctl.scrubPasses
        else (x.ctl.scrubPasses + 1) % 65536 },
    err := { x.err with busRetry := false } }

/-- The effect of SCRUB_ACCESS. -/
def State.scrubStep (s : State) (c : Fin 4) : State :=
  let k := (s.sl c).ctl
  if !k.state.served ∨ !bit k.bgCfg 0 then s
  else
    let w := s.tb / 4096
    let g := if w = k.bgWindow then k.bgGrants else Vector.replicate 16 0
    let bank := pageBank (k.scrubNext * 8 / 4096)
    let full := decide (30 ≤ vget g bank 0)
    let again := (s.sl c).err.busRetry
    let last := decide (1572864 ≤ k.scrubNext + 1)
    let s1 := s.modSl c (fun x => { x with
      ctl :=
        if full then { x.ctl with bgWindow := w, bgGrants := g, capHit := true }
        else if again then { x.ctl with bgWindow := w, bgGrants := vmod g bank (fun n => n + 1) }
        else { x.ctl with
          bgWindow := w, bgGrants := vmod g bank (fun n => n + 1),
          scrubNext := if last then 0 else x.ctl.scrubNext + 1,
          scrubPasses := if last then (x.ctl.scrubPasses + 1) % 65536 else x.ctl.scrubPasses },
      err := if full then x.err else { x.err with busRetry := false } })
    if full then s1 else s1.badRead c (8 * k.scrubNext)

theorem exec_scrubAccess (c : Fin 4) (s : State) : exec (.scrubAccess c) s = run s (fun s => s.scrubStep c) := rfl

section
variable (s : State) {c : Fin 4}

theorem scrubStep_off (hoff : bit (s.sl c).ctl.bgCfg 0 = false) : s.scrubStep c = s := by
  unfold State.scrubStep
  exact if_pos (Or.inr (by simp [hoff]))

theorem scrub_on (hv : (s.sl c).ctl.state.served = true) (hon : bit (s.sl c).ctl.bgCfg 0 = true) :
    ¬ ((!(s.sl c).ctl.state.served) = true ∨ (!bit (s.sl c).ctl.bgCfg 0) = true) := by simp [hv, hon]

/-- With its grants used up the scrub waits. -/
theorem scrubStep_full (hv : (s.sl c).ctl.state.served = true) (hon : bit (s.sl c).ctl.bgCfg 0 = true)
    (hfull : 30 ≤ vget (s.scrubGrants c) ((s.sl c).ctl.scrubNext * 8 / 4096 % 16) 0) :
    s.scrubStep c = s.modSl c (fun x => { x with ctl := { x.ctl with
      bgWindow := s.tb / 4096, bgGrants := s.scrubGrants c, capHit := true } }) := by
  have hdec : decide (30 ≤ vget (s.scrubGrants c) (pageBank ((s.sl c).ctl.scrubNext * 8 / 4096)) 0) = true :=
    decide_eq_true hfull
  unfold State.scrubStep
  dsimp only
  rw [if_neg (scrub_on s hv hon), ← State.scrubGrants]
  simp only [hdec, if_true]

/-- The scrub takes its grant and reads its word. -/
theorem scrubStep_takes (hv : (s.sl c).ctl.state.served = true) (hon : bit (s.sl c).ctl.bgCfg 0 = true)
    (hfree : vget (s.scrubGrants c) ((s.sl c).ctl.scrubNext * 8 / 4096 % 16) 0 < 30) :
    s.scrubStep c = (s.modSl c (Slice.scrubTook (s.tb / 4096) (s.scrubGrants c)
      ((s.sl c).ctl.scrubNext * 8 / 4096 % 16))).badRead c (8 * (s.sl c).ctl.scrubNext) := by
  have hleft := Nat.not_le.mpr hfree
  unfold State.scrubStep
  dsimp only
  rw [if_neg (scrub_on s hv hon), ← State.scrubGrants]
  simp only [pageBank, hleft, decide_false, Bool.false_eq_true, if_false]
  refine congrArg (State.badRead · c _) (modSl_congr s ?_)
  cases hb : (s.sl c).err.busRetry with
  | true => simp [Slice.scrubTook, hb]
  | false =>
    by_cases hl : (s.sl c).ctl.scrubNext < 1572863
    · have hlast : ¬ 1572864 ≤ (s.sl c).ctl.scrubNext + 1 := by omega
      simp [Slice.scrubTook, hb, hl, hlast]
    · have hlast : 1572864 ≤ (s.sl c).ctl.scrubNext + 1 := by omega
      simp [Slice.scrubTook, hb, hl, hlast]

theorem badRead_good {word : Nat} (h : (s.sl c).err.badWords.contains word = false) : s.badRead c word = s :=
  if_neg (Bool.eq_false_iff.mp h)

/-- A bad word in a page that no block works in loses the page. -/
theorem badRead_unowned {word : Nat} (h : (s.sl c).err.badWords.contains word = true)
    (ho : ownerless ((s.sl c).pageOwner word)) (hs : 0 < vget (s.sl c).err.spares (word / 4096 % 16) 0)
    (he : (s.sl c).err.cellErrs = []) :
    (s.badRead c word).slices = (s.modSl c (fun x => x.pageLost (word / 4096) s.tb)).slices := by
  unfold State.badRead
  rw [if_pos h]
  exact sramError_unowned s ho hs he

end

/-! ### The shadow store -/

/-- The shadow store's check has failed for an area, which the slice reports (R405). -/
def State.shadowReport (s : State) (c : Fin 4) (area : Nat) : State :=
  (s.modErr c (fun e => { e with events := raise e.events 5 })).fault
    { status := Status.formeCrc, event := 0x06, level := 1, action := 0, block := 0x42, detail := area, slice := c.val }

/-- The check of the active area. -/
def State.checkActive (s : State) (c : Fin 4) (activeBad : Bool) : State :=
  let x := s.sl c
  if activeBad ∧ !x.shadow.bad ∧ x.forme.isSome then
    (s.modSl c (fun x => { x with shadow := { x.shadow with
      bad := true, lostCrc := x.forme.map (fun f => f.crc) } })).shadowReport c 0
  else s

/-- The effect of SHADOW_CHECK. -/
def State.checkShadow (s : State) (c : Fin 4) (activeBad stagedBad : Bool) : State :=
  let x := s.sl c
  if !x.ctl.state.served then s
  else
    let s1 := s.checkActive c activeBad
    if stagedBad ∧ x.shadow.area ≠ .empty then (s1.clearArea c Status.formeCrc).shadowReport c 1 else s1

theorem exec_shadowCheck (c : Fin 4) (activeBad stagedBad : Bool) (s : State) :
    exec (.shadowCheck c activeBad stagedBad) s = run s (fun s => s.checkShadow c activeBad stagedBad) := rfl

section
variable (s : State) {c : Fin 4} (hv : (s.sl c).ctl.state.served = true)
include hv

/-- The staged area's check does nothing where the area is good or holds nothing. -/
theorem checkShadow_stagedGood {activeBad stagedBad : Bool} (h : stagedBad = true → (s.sl c).shadow.area = .empty) :
    s.checkShadow c activeBad stagedBad = s.checkActive c activeBad := by
  unfold State.checkShadow
  dsimp only
  rw [if_neg (serves hv)]
  exact if_neg fun hbad => hbad.2 (h hbad.1)

omit hv in
theorem checkActive_good : s.checkActive c false = s := by
  unfold State.checkActive
  exact if_neg (by simp)

/-- The active area is bad, and the staged area is good or holds nothing. -/
theorem checkShadow_active {f : Forme} {stagedBad : Bool} (hf : (s.sl c).shadow.active = some f)
    (hb : (s.sl c).shadow.bad = false) (hs : stagedBad = true → (s.sl c).shadow.area = .empty) :
    s.checkShadow c true stagedBad = (s.modSl c (fun x => { x with
      shadow := { x.shadow with bad := true, lostCrc := some f.crc },
      err := { x.err with events := x.err.events ||| 0x20 } })).fault
      { status := 0x30, event := 0x06, level := 1, action := 0, block := 0x42, detail := 0, slice := c.val } := by
  rw [checkShadow_stagedGood s hv hs]
  unfold State.checkActive
  dsimp only
  rw [if_pos (by simp [hb, Slice.forme, hf]), State.shadowReport, State.modErr, State.modSl_modSl]
  refine congrArg (State.fault · _) (modSl_congr s ?_)
  simp only [Slice.forme, hf]
  rfl

/-- The active area is good and the staged area, which holds a forme, is bad. -/
theorem checkShadow_staged {f : Forme} {base : Option Word} (hf : (s.sl c).shadow.area = .staged f base) :
    s.checkShadow c false true = (s.modSl c (fun x => { x with
      shadow := { x.shadow with area := .empty }, err := { x.err with events := x.err.events ||| 0x20 } })).fault
      { status := 0x30, event := 0x06, level := 1, action := 0, block := 0x42, detail := 1, slice := c.val } := by
  have hclear : s.clearArea c Status.formeCrc = s.setArea c .empty := by
    unfold State.clearArea
    rw [hf]
  unfold State.checkShadow
  dsimp only
  rw [if_neg (serves hv), checkActive_good, if_pos ⟨rfl, by simp [hf]⟩, hclear, State.shadowReport, State.modErr,
    State.setArea, State.modSl_modSl]
  rfl

end

/-! ### Error injection -/

theorem exec_errorInject (c : Fin 4) (v : Word) (s : State) : exec (.errorInject c v) s =
    run s (fun s => s.sliceWrite c 0x10001C fun s => s.writeInject c v) := rfl

theorem sliceWrite_injects (s : State) {c : Fin 4} {v : Word} (hv : (s.sl c).ctl.state.served = true)
    (hb : bit v 0 = true) (ho : 8 * bf v 3 21 < 0xC00000) :
    (s.sliceWrite c 0x10001C fun s => s.writeInject c v) =
      s.modErr c (fun e => { e with inject := some (8 * bf v 3 21) }) := by
  unfold State.sliceWrite State.writeInject
  rw [if_pos hv]
  dsimp only
  rw [if_neg (by simp [hb]), if_neg (Nat.not_le.mpr ho)]

/-! ### Telemetry -/

/-- The load intervals of every slice close (R206, R242). -/
def State.loadsClosed (s : State) : State :=
  s.modSlices (fun _ x => { x with trl := x.trl.tick, mac := x.mac.tick })

/-- The effect of TELEMETRY_TICK. -/
def State.telemetry (s : State) (temps : List Int) : State :=
  if !s.mod.ready then s
  else
    let s1 := s.loadsClosed
    let s2 := if s1.swapping then s1
      else s1.stage 5 (s1.mkRec 0x61 0xFF 0xFF 0xFFFF 0 s1.tb false (telePayload (s1.moduleEntries temps)))
    allSlices.foldl (fun t c => t.sliceTelemetry c) s2

theorem exec_telemetryTick (temps : List Int) (s : State) :
    exec (.telemetryTick temps) s = run s (fun s => s.telemetry temps) := rfl

theorem sl_modSl_ite (s : State) (c d : Fin 4) (f : Slice → Slice) :
    (s.modSl c f).sl d = if d = c then f (s.sl c) else s.sl d := by
  split
  next h => rw [h, State.sl_modSl]
  next h => exact State.sl_modSl_ne s f h

theorem sl_modSlices (s : State) (f : Fin 4 → Slice → Slice) (d : Fin 4) : (s.modSlices f).sl d = f d (s.sl d) := by
  simp only [State.modSlices, List.foldl_cons, List.foldl_nil, sl_modSl_ite]
  match d with
  | 0 | 1 | 2 | 3 => rfl

theorem loadsClosed_sl (s : State) (d : Fin 4) :
    s.loadsClosed.sl d = { s.sl d with trl := (s.sl d).trl.tick, mac := (s.sl d).mac.tick } := sl_modSlices ..

/-- The load permilles, rounded up. -/
theorem tick_loads (x : Trl) (m : Mac) :
    x.tick.loadPm = min 2047 ((x.loadNow + 1599) / 1600) ∧ m.tick.loadPm = min 2047 ((m.busy + 25599) / 25600) := by
  have h (a k : Nat) : ceilDiv a (k + 1) = (a + k) / (k + 1) := rfl
  exact ⟨congrArg (min 2047) (h x.loadNow 1599), congrArg (min 2047) (h m.busy 25599)⟩

@[simp] theorem sliceTelemetry_offRecord (s : State) (c : Fin 4) : (s.sliceTelemetry c).offRecord = s.offRecord := by
  unfold State.sliceTelemetry
  split
  · exact stage_offRecord ..
  · rfl

/-- Telemetry closes the load intervals; the rest of it is records. -/
theorem telemetry_sl (s : State) (temps : List Int) (hr : s.mod.ready = true) (d : Fin 4) :
    (s.telemetry temps).sl d = s.loadsClosed.sl d := by
  refine sl_of_offRecord ?_ d
  unfold State.telemetry
  dsimp only
  rw [if_neg (by simp [hr]), offRecord_foldl fun t c => sliceTelemetry_offRecord t c]
  split
  · rfl
  · exact stage_offRecord ..

/-- With no slice up and no swap the module alone reports. -/
theorem telemetry_module (s : State) (temps : List Int) (hr : s.mod.ready = true) (hw : s.mod.swapping = none)
    (hup : ∀ d, (s.sl d).up = false) :
    s.telemetry temps = s.loadsClosed.stage 5
      (s.loadsClosed.mkRec 0x61 0xFF 0xFF 0xFFFF 0 s.loadsClosed.tb false
        (telePayload (s.loadsClosed.moduleEntries temps))) := by
  have hswap : ¬ s.loadsClosed.swapping = true := by
    have h : s.loadsClosed.swapping = s.mod.swapping.isSome := rfl
    simp [h, hw]
  unfold State.telemetry
  dsimp only
  rw [if_neg (by simp [hr]), if_neg hswap]
  refine List.foldl_fixed' (fun d => ?_) _
  have hd : (s.loadsClosed.sl d).up = false := by rw [loadsClosed_sl]; exact hup d
  unfold State.sliceTelemetry
  rw [if_neg (by rw [sl_of_offRecord (stage_offRecord ..), hd]; exact Bool.false_ne_true)]

end Sys2Proof.Machine
end

section
/-! SUPPORT. The checks of coefficient banks and key slots (R244, R269, R406): a check that goes through all of them
acts on the one that fails and leaves the others. -/

namespace Sys2Proof.Machine

open Sys2Proof

/-! ### A check of every element of a list -/

section
variable {σ α : Type} {g : σ → α → σ}

theorem foldl_unchanged {l : List α} {s : σ} (h : ∀ a ∈ l, g s a = s) : l.foldl g s = s := by
  induction l with
  | nil => rfl
  | cons a l ih =>
    rw [List.foldl_cons, h a List.mem_cons_self]
    exact ih fun b hb => h b (List.mem_cons_of_mem a hb)

/-- A fold in which one element acts, once, and the others do nothing before it nor after it. -/
theorem foldl_one {l : List α} (hl : l.Nodup) {a : α} (ha : a ∈ l) {s : σ} (hbefore : ∀ b ∈ l, b ≠ a → g s b = s)
    (hafter : ∀ b ∈ l, b ≠ a → g (g s a) b = g s a) : l.foldl g s = g s a := by
  obtain ⟨l₁, l₂, rfl⟩ := List.append_of_mem ha
  have hne : ∀ b ∈ l₁ ++ l₂, b ≠ a := fun b hb h => (List.nodup_middle.mp hl).notMem (h ▸ hb)
  rw [List.foldl_append, foldl_unchanged fun b hb => hbefore b (by simp [hb]) (hne b (by simp [hb])), List.foldl_cons]
  exact foldl_unchanged fun b hb => hafter b (by simp [hb]) (hne b (by simp [hb]))

end

/-! ### Key slots -/

section
variable (s : State) (c : Fin 4)

theorem endVerdict_frame (k : Fin 256) (e : Envelope) (code : Nat) : (s.endVerdict c k e code).frame c = s.frame c := by
  unfold State.endVerdict
  rw [verdictRecord_frame, fixVerdict_frame]

theorem endVerifying_frame (slot : Fin 64) (code : Nat) : (s.endVerifying c slot code).frame c = s.frame c := by
  refine frame_foldl c (fun t i => onFront_frame _ c _ fun u e => ?_) _ s
  split
  next =>
    simp only [frame_ite, settle_frame, fixVerdict_frame, endVerdict_frame, ite_self]
  next => rfl

theorem endOp_frame (o : MacOp) (code : Nat) : (s.endOp c o code).frame c = s.frame c := by
  unfold State.endOp
  split
  next => exact complete_frame ..
  next => exact (endTx_frame ..).trans (modTx_frame ..)

theorem endBound_frame (slot : Fin 64) (code : Nat) : (s.endBound c slot code).frame c = s.frame c := by
  unfold State.endBound
  dsimp only
  rw [frame_foldl c (fun t o => endOp_frame t c o code), endVerifying_frame]
  exact frame_modSl s c fun _ => rfl

end

/-- A slot that is written. -/
theorem writeSlot_slots (s : State) (c : Fin 4) (k : Fin 64) (w : KeySlot) (code : Nat) (mirror : Bool) :
    ((s.writeSlot c k w code mirror).sl c).mac.slots = (s.sl c).mac.slots.set k.val w k.isLt := by
  unfold State.writeSlot
  rw [slots_of_frame (endBound_frame ..), State.sl_modSl]
  cases mirror <;> rfl

theorem vget_set {α : Type} {n : Nat} (v : Vector α n) {i j : Nat} (w d : α) (hi : i < n) :
    vget (v.set i w hi) j d = if j = i then w else vget v j d := by
  unfold vget
  by_cases hj : j < n
  · simp only [hj, dif_pos, Vector.getElem_set, eq_comm]
  · simp only [hj, dif_neg, not_false_iff]
    rw [if_neg (by omega)]

theorem checkSlot_good (s : State) {c : Fin 4} {k : Fin 64} (h : slotGood ((s.sl c).slotAt k.val) = true) :
    s.checkSlot c k = s := if_pos h

/-- A slot that fails its check is erased with cause 3, and the MAC block notes it. -/
theorem checkSlot_bad (s : State) {c : Fin 4} {k : Fin 64} (h : slotGood ((s.sl c).slotAt k.val) = false) :
    (∀ j, ((s.checkSlot c k).sl c).slotAt j =
      if j = k.val then slotErased ((s.sl c).slotAt k.val) 3 else (s.sl c).slotAt j)
    ∧ ((s.checkSlot c k).sl c).mac.events.toNat.testBit 1 = true := by
  unfold State.checkSlot
  rw [if_neg (Bool.eq_false_iff.mp h)]
  dsimp only
  rw [fault_sl, State.sl_modSl]
  constructor
  · intro j
    have hs := writeSlot_slots s c k (slotErased ((s.sl c).slotAt k.val) 3) Status.keyErased true
    exact (congrArg (vget · j KeySlot.fresh) hs).trans (vget_set ..)
  · simp only [raise, BitVec.toNat_or, Nat.testBit_or, Bool.or_eq_true]
    exact Or.inr (by decide)

/-- The effect of SLOT_CHECK after the upsets. -/
def State.checkSlots (s : State) (c : Fin 4) : State := (List.finRange 64).foldl (fun t k => t.checkSlot c k) s

/-- The upsets of key slots. -/
def Slice.slotsUpset (upset : List (Fin 64 × Fin 48 × Byte)) (x : Slice) : Slice :=
  upset.foldl (fun x u => x.modSlot u.1.val (fun w => slotUpset w u.2.1 u.2.2)) x

theorem exec_slotCheck (c : Fin 4) (upset : List (Fin 64 × Fin 48 × Byte)) (s : State) :
    exec (.slotCheck c upset) s = run s (fun s => if !(s.sl c).ctl.state.served then s
      else (s.modSl c (Slice.slotsUpset upset)).checkSlots c) := rfl

section
variable (s : State) {c : Fin 4}

theorem checkSlots_good (h : ∀ j, j < 64 → slotGood ((s.sl c).slotAt j) = true) : s.checkSlots c = s :=
  foldl_unchanged fun k _ => checkSlot_good s (h k.val k.isLt)

/-- One slot that fails its check is all that the check acts on. -/
theorem checkSlots_one {k : Fin 64} (h : ∀ j, j < 64 → slotGood ((s.sl c).slotAt j) = decide (j ≠ k.val)) :
    s.checkSlots c = s.checkSlot c k := by
  have hbad : slotGood ((s.sl c).slotAt k.val) = false := by simpa using h k.val k.isLt
  have hgood {j : Fin 64} (hj : j ≠ k) : slotGood ((s.sl c).slotAt j.val) = true := by
    rw [h j.val j.isLt]
    exact decide_eq_true fun he => hj (Fin.ext he)
  refine foldl_one (List.nodup_finRange 64) (List.mem_finRange k) (fun j _ hj => checkSlot_good s (hgood hj))
    fun j _ hj => checkSlot_good _ ?_
  obtain ⟨hslots, -⟩ := checkSlot_bad s hbad
  rw [hslots, if_neg fun he => hj (Fin.ext he)]
  exact hgood hj

end

end Sys2Proof.Machine
end

section
/-! SUPPORT. The check of coefficient banks (R406). -/

namespace Sys2Proof.Machine

open Sys2Proof

/-! ### A tuning whose samples end leaves the others alone -/

/-- The tunings of slice `c` but `t`. -/
def State.otherTuns (c : Fin 4) (t : Nat) (s : State) : Nat → Option Tuning := fun n =>
  if n = t then none else some ((s.sl c).tunAt n)

theorem tunAt_of_otherTuns {s u : State} {c : Fin 4} {t n : Nat} (h : u.otherTuns c t = s.otherTuns c t) (hn : n ≠ t) :
    (u.sl c).tunAt n = (s.sl c).tunAt n := by
  have hd := congrFun h n
  simpa only [State.otherTuns, if_neg hn, Option.some.injEq] using hd

theorem otherTuns_of_slices {s u : State} {c : Fin 4} {t : Nat} (h : u.slices = s.slices) :
    u.otherTuns c t = s.otherTuns c t := by
  funext n
  simp only [State.otherTuns, sl_congr h]

theorem otherTuns_ite (c : Fin 4) (t : Nat) {p : Prop} [Decidable p] (a b : State) :
    (if p then a else b).otherTuns c t = if p then a.otherTuns c t else b.otherTuns c t := apply_ite ..

/-- A change of slice `c` outside its tunings but `t`. -/
theorem otherTuns_modSl (s : State) {c : Fin 4} {t : Nat} {f : Slice → Slice}
    (h : ∀ n, n ≠ t → (f (s.sl c)).tunAt n = (s.sl c).tunAt n) : (s.modSl c f).otherTuns c t = s.otherTuns c t := by
  funext n
  by_cases hn : n = t
  · simp only [State.otherTuns, if_pos hn]
  · simp only [State.otherTuns, if_neg hn, State.sl_modSl, h n hn]

theorem tunAt_modTun_same (x : Slice) {t : Nat} (f : Tuning → Tuning) (ht : t < 32) :
    (x.modTun t f).tunAt t = f (x.tunAt t) := vget_vmod_same x.tun f Tuning.reset ht

theorem tunAt_modTun_ne (x : Slice) {t n : Nat} (f : Tuning → Tuning) (hn : n ≠ t) :
    (x.modTun t f).tunAt n = x.tunAt n := vget_vmod_ne x.tun f Tuning.reset hn

theorem hear_tun (x : Slice) (f : Forme) (t ts : Nat) (w : DWord) : (x.hear f t ts w).tun = x.tun := by
  unfold Slice.hear
  dsimp only
  split
  next => rfl
  next =>
    generalize f.instOf t = l
    suffices h : ∀ y : Slice, (l.foldl (fun y n =>
        (y.modInst n (fun i => i.hear (x.confOf f t).period ts (erasedWord w))).modAcq n
          (fun a => a.hear (ts - (x.confOf f t).span / 2) (erasedWord w))) y).tun = y.tun from h x
    induction l with
    | nil => exact fun _ => rfl
    | cons n l ih => exact fun y => (ih _).trans rfl

section
variable (s : State) (c : Fin 4) (t : Nat)

theorem modTun_otherTuns (f : Tuning → Tuning) : (s.modSl c (fun x => x.modTun t f)).otherTuns c t = s.otherTuns c t :=
  otherTuns_modSl s fun _ hn => tunAt_modTun_ne _ f hn

theorem stage_otherTuns (q : Fin 256) (r : Record) : (s.stage q r).otherTuns c t = s.otherTuns c t :=
  otherTuns_of_slices (slices_of_offRecord (stage_offRecord ..))

theorem closeSamples_otherTuns : (s.closeSamples c t).otherTuns c t = s.otherTuns c t := by
  unfold State.closeSamples
  split
  next => exact (stage_otherTuns ..).trans (modTun_otherTuns ..)
  next => rfl

theorem readSample_otherTuns (ts : Nat) (w : DWord) (idx : Nat) :
    (s.readSample c t ts w idx).otherTuns c t = s.otherTuns c t := by
  unfold State.readSample
  split
  next => rfl
  next f _ =>
    have hhear (g : Slice → Tuning → Tuning) :
        (s.modSl c (fun x => (x.modTun t (g x)).hear f t ts w)).otherTuns c t = s.otherTuns c t :=
      otherTuns_modSl s fun n hn => (congrArg (vget · n Tuning.reset) (hear_tun ..)).trans (tunAt_modTun_ne _ _ hn)
    dsimp only
    split
    next => exact hhear _
    next => simp only [otherTuns_ite, closeSamples_otherTuns, modTun_otherTuns, hhear, ite_self]

theorem releaseFresh_otherTuns (upto : Nat) : (s.releaseFresh c t upto).otherTuns c t = s.otherTuns c t := by
  unfold State.releaseFresh
  dsimp only
  have hread (l : List (Nat × DWord)) : ∀ a : State × Nat, (l.foldl (fun (a : State × Nat) (p : Nat × DWord) =>
      (a.1.readSample c t p.1 p.2 a.2, a.2 + 1)) a).1.otherTuns c t = a.1.otherTuns c t := by
    induction l with
    | nil => exact fun _ => rfl
    | cons p l ih => exact fun a => (ih _).trans (readSample_otherTuns ..)
  rw [hread, modTun_otherTuns]

theorem releaseClosing_otherTuns (upto : Nat) : (s.releaseClosing c t upto).otherTuns c t = s.otherTuns c t := by
  have hclose (l : List Closing) : ∀ u : State,
      (l.foldl (fun z k => z.stageClosing c t k) u).otherTuns c t = u.otherTuns c t := by
    induction l with
    | nil => exact fun _ => rfl
    | cons k l ih => exact fun u => (ih _).trans (stage_otherTuns ..)
  unfold State.releaseClosing
  dsimp only
  rw [hclose, modTun_otherTuns]

theorem endSamples_otherTuns : (s.endSamples c t).otherTuns c t = s.otherTuns c t := by
  unfold State.endSamples
  dsimp only
  rw [closeSamples_otherTuns, releaseFresh_otherTuns, releaseClosing_otherTuns]

end

/-! ### A wrong bank -/

section
variable {x y : Slice} {t : Nat}

/-- Which tunings there are rests on the slice's state and on its forme in force. -/
theorem tunExists_congr (hk : y.ctl = x.ctl) (ha : y.shadow.active = x.shadow.active) (t : Nat) :
    y.tunExists t = x.tunExists t := by
  simp only [Slice.tunExists, Slice.inForce, Slice.forme, hk, ha]

theorem coefWrong_congr (hk : y.ctl = x.ctl) (ha : y.shadow.active = x.shadow.active) (ht : y.tunAt t = x.tunAt t)
    (b : Nat) : y.coefWrong t b = x.coefWrong t b := by
  simp only [Slice.coefWrong, tunExists_congr hk ha, ht]

theorem coefWrong_of_faulted (h : (x.tunAt t).faulted = true) (b : Nat) : x.coefWrong t b = false := by
  simp [Slice.coefWrong, h]

theorem exists_of_coefWrong {b : Nat} (h : x.coefWrong t b = true) :
    x.tunExists t = true ∧ (x.tunAt t).faulted = false := by
  simp only [Slice.coefWrong, Bool.and_eq_true, Bool.not_eq_true'] at h
  exact h.1

end

/-- A tuning whose bank `b` is cleared to 0. -/
def Tuning.bankCleared (b : Nat) (u : Tuning) : Tuning :=
  let z := (vget u.coef b []).map (fun _ => (0 : BitVec 20))
  { u with coef := vmod u.coef b (fun _ => z), coefCrc := vmod u.coefCrc b (fun _ => coefCrcOf z) }

theorem bankCleared_zero (u : Tuning) {b : Nat} (hb : b < 2) :
    (vget (u.bankCleared b).coef b [1]).all (fun w => w == 0) = true := by
  have h : vget (u.bankCleared b).coef b [1] = _ := vget_vmod_same u.coef _ [1] hb
  rw [h]
  simp

theorem bankCleared_other (u : Tuning) {b m : Nat} (hm : m ≠ b) :
    vget (u.bankCleared b).coef m [] = vget u.coef m [] ∧ vget (u.bankCleared b).coefCrc m 0 = vget u.coefCrc m 0 :=
  ⟨vget_vmod_ne u.coef _ [] hm, vget_vmod_ne u.coefCrc _ 0 hm⟩

/-- What a wrong bank leaves behind: the event bit, and no other bank that is wrong now and was not before. -/
structure CoefHandled (s v : State) (c : Fin 4) (t b : Nat) : Prop where
  events : (v.sl c).err.events = (s.sl c).err.events ||| 0x40
  others : ∀ n m, ¬ (n = t ∧ m = b) → (s.sl c).coefWrong n m = false → (v.sl c).coefWrong n m = false

section
variable (s : State) {c : Fin 4} {t b : Nat} (ht : t < 32)
include ht

/-- A wrong bank that its tuning does not use is cleared. -/
theorem coefBad_unused (hu : ((s.sl c).tunAt t).bankUsed (b == 1) = false) :
    CoefHandled s (s.coefBad c t b) c t b
      ∧ ((s.coefBad c t b).sl c).tunAt t = ((s.sl c).tunAt t).bankCleared b := by
  have hsl : (s.coefBad c t b).sl c = { (s.sl c).modTun t (Tuning.bankCleared b) with
      err := { (s.sl c).err with events := raise (s.sl c).err.events 6 } } := by
    unfold State.coefBad
    dsimp only
    rw [fault_sl, if_neg (Bool.eq_false_iff.mp hu), State.sl_modSl, State.modErr, State.sl_modSl]
    rfl
  have htun : ((s.coefBad c t b).sl c).tunAt t = ((s.sl c).tunAt t).bankCleared b := by
    rw [hsl]
    exact tunAt_modTun_same (s.sl c) (Tuning.bankCleared b) ht
  refine ⟨⟨by rw [hsl]; rfl, fun n m hne hw => ?_⟩, htun⟩
  by_cases hn : n = t
  · subst hn
    obtain ⟨hcoef, hcrc⟩ := bankCleared_other ((s.sl c).tunAt n) fun hm => hne ⟨rfl, hm⟩
    have hex : ((s.coefBad c n b).sl c).tunExists n = (s.sl c).tunExists n :=
      tunExists_congr (by rw [hsl]; rfl) (by rw [hsl]; rfl) n
    rw [← hw]
    simp only [Slice.coefWrong, htun, hcoef, hcrc, hex]
    rfl
  · rw [← hw]
    refine coefWrong_congr (by rw [hsl]; rfl) (by rw [hsl]; rfl) ?_ m
    rw [hsl]
    exact tunAt_modTun_ne (s.sl c) _ hn

/-- A wrong bank in use makes its tuning faulted. -/
theorem coefBad_used (he : (s.sl c).tunExists t = true) (hu : ((s.sl c).tunAt t).bankUsed (b == 1) = true) :
    CoefHandled s (s.coefBad c t b) c t b ∧ (((s.coefBad c t b).sl c).tunAt t).faulted = true := by
  let s1 := s.modErr c (fun e => { e with events := raise e.events 6 })
  have hs1 : s1.sl c = { s.sl c with err := { (s.sl c).err with events := raise (s.sl c).err.events 6 } } :=
    State.sl_modSl ..
  have hex : (s1.sl c).tunExists t = true := by rw [hs1]; exact he
  have hsl : (s.coefBad c t b).sl c = ((s1.endSamples c t).sl c).modTun t (fun u => { u with faulted := true }) := by
    unfold State.coefBad State.faultTuning
    dsimp only
    rw [fault_sl, if_pos hu, if_neg (by rw [hex]; simp), State.sl_modSl]
  have hf := endSamples_frame s1 c t
  have hctl : ((s.coefBad c t b).sl c).ctl = (s.sl c).ctl := by
    rw [hsl]
    exact (ctl_of_frame hf).trans (by rw [hs1])
  have hactive : ((s.coefBad c t b).sl c).shadow.active = (s.sl c).shadow.active := by
    rw [hsl]
    exact (active_of_frame hf).trans (by rw [hs1])
  have hfault : (((s.coefBad c t b).sl c).tunAt t).faulted = true := by
    rw [hsl, tunAt_modTun_same _ _ ht]
  refine ⟨⟨?_, fun n m hne hw => ?_⟩, hfault⟩
  · rw [hsl]
    exact (congrArg Err.events (err_of_frame hf)).trans (by rw [hs1]; rfl)
  · by_cases hn : n = t
    · exact coefWrong_of_faulted (hn ▸ hfault) m
    · rw [← hw]
      refine coefWrong_congr hctl hactive ?_ m
      rw [hsl, tunAt_modTun_ne _ _ hn, tunAt_of_otherTuns (endSamples_otherTuns s1 c t) hn, hs1]
      rfl

end

/-! ### The check of every bank -/

/-- The check of one bank. -/
def State.checkBank (c : Fin 4) (n : Nat) (s : State) (b : Nat) : State :=
  if (s.sl c).coefWrong n b then s.coefBad c n b else s

/-- The check of every bank. -/
def State.checkBanks (s : State) (c : Fin 4) : State :=
  (List.range 32).foldl (fun t n => [0, 1].foldl (State.checkBank c n) t) s

/-- The upsets of coefficients. -/
def State.coefsUpset (s : State) (c : Fin 4) (upset : List (Fin 32 × Fin 2 × Nat × BitVec 20)) : State :=
  upset.foldl (fun t p => t.coefUpset c p.1 p.2.1 p.2.2.1 p.2.2.2) s

theorem exec_coefCrcCheck (c : Fin 4) (upset : List (Fin 32 × Fin 2 × Nat × BitVec 20)) (s : State) :
    exec (.coefCrcCheck c upset) s = run s (fun s => (s.coefsUpset c upset).checkBanks c) := rfl

section
variable (s : State) {c : Fin 4}

theorem checkBank_good {n b : Nat} (h : (s.sl c).coefWrong n b = false) : s.checkBank c n b = s :=
  if_neg (Bool.eq_false_iff.mp h)

theorem mem_banks {b : Nat} : b ∈ [0, 1] ↔ b < 2 := by simp; omega

theorem checkBanks_good (h : ∀ n b, n < 32 → b < 2 → (s.sl c).coefWrong n b = false) : s.checkBanks c = s :=
  foldl_unchanged fun n hn => foldl_unchanged fun b hb =>
    checkBank_good s (h n b (List.mem_range.mp hn) (mem_banks.mp hb))

/-- One wrong bank is all that the check acts on. -/
theorem checkBanks_one {t b : Nat} (ht : t < 32) (hb : b < 2)
    (h : ∀ n m, n < 32 → m < 2 → (s.sl c).coefWrong n m = decide (n = t ∧ m = b))
    (hv : CoefHandled s (s.coefBad c t b) c t b) : s.checkBanks c = s.coefBad c t b := by
  have hother {n m : Nat} (hn : n < 32) (hm : m < 2) (hne : ¬ (n = t ∧ m = b)) : (s.sl c).coefWrong n m = false := by
    rw [h n m hn hm]
    exact decide_eq_false hne
  have hbad : s.checkBank c t b = s.coefBad c t b := if_pos (by rw [h t b ht hb]; simp)
  have hrow : [0, 1].foldl (State.checkBank c t) s = s.coefBad c t b := by
    rw [← hbad]
    refine foldl_one (by decide) (mem_banks.mpr hb) (fun m hm hne => ?_) fun m hm hne => ?_
    · exact checkBank_good s (hother ht (mem_banks.mp hm) fun he => hne he.2)
    · rw [hbad]
      have hne' : ¬ (t = t ∧ m = b) := fun he => hne he.2
      exact checkBank_good _ (hv.others t m hne' (hother ht (mem_banks.mp hm) hne'))
  unfold State.checkBanks
  rw [← hrow]
  refine foldl_one List.nodup_range (List.mem_range.mpr ht) (fun n hn hne => ?_) fun n hn hne => ?_
  · exact foldl_unchanged fun m hm =>
      checkBank_good s (hother (List.mem_range.mp hn) (mem_banks.mp hm) fun he => hne he.1)
  · rw [hrow]
    have hne' (m : Nat) : ¬ (n = t ∧ m = b) := fun he => hne he.1
    exact foldl_unchanged fun m hm =>
      checkBank_good _ (hv.others n m (hne' m) (hother (List.mem_range.mp hn) (mem_banks.mp hm) (hne' m)))

/-- What the upsets do rests on the slices alone. -/
theorem coefsUpset_slices_congr {s u : State} {c : Fin 4} (upset : List (Fin 32 × Fin 2 × Nat × BitVec 20))
    (h : u.slices = s.slices) : (u.coefsUpset c upset).slices = (s.coefsUpset c upset).slices := by
  unfold State.coefsUpset
  induction upset generalizing s u with
  | nil => exact h
  | cons p l ih => exact ih (modSl_slices_congr h ..)

/-- An upset changes coefficients alone: not which banks a tuning uses. -/
theorem coefUpset_bankUsed (t : Fin 32) (b : Fin 2) (n : Nat) (m : BitVec 20) {k : Nat} (hk : k < 32) (u : Bool) :
    (((s.coefUpset c t b n m).sl c).tunAt k).bankUsed u = ((s.sl c).tunAt k).bankUsed u := by
  unfold State.coefUpset
  rw [State.sl_modSl]
  by_cases ht : k = t.val
  · subst ht
    rw [tunAt_modTun_same _ _ hk]
    rfl
  · rw [tunAt_modTun_ne _ _ ht]

theorem coefsUpset_leaves (upset : List (Fin 32 × Fin 2 × Nat × BitVec 20)) {k : Nat} (hk : k < 32) (u : Bool) :
    (((s.coefsUpset c upset).sl c).tunAt k).bankUsed u = ((s.sl c).tunAt k).bankUsed u
      ∧ ((s.coefsUpset c upset).sl c).err = (s.sl c).err := by
  constructor
  · unfold State.coefsUpset
    induction upset generalizing s with
    | nil => rfl
    | cons p l ih => exact (ih _).trans (coefUpset_bankUsed _ _ _ _ _ hk u)
  · exact err_of_frame (frame_foldl c (fun t p => modTun_frame ..) upset s)

end

end Sys2Proof.Machine
end

section
/-! SUPPORT. The checks in the background, put together. -/

namespace Sys2Proof.Machine

open Sys2Proof

/-- One wrong bank on the check of all, after the upsets. -/
theorem coefsUpset_checked (s : State) {c : Fin 4} (upset : List (Fin 32 × Fin 2 × Nat × BitVec 20)) (t : Fin 32)
    (b : Fin 2) (h : ∀ n m, n < 32 → m < 2 →
      ((s.coefsUpset c upset).sl c).coefWrong n m = decide (n = t.val ∧ m = b.val)) :
    let v := (s.coefsUpset c upset).checkBanks c
    (((s.sl c).tunAt t.val).bankUsed (b.val == 1) = false →
      (vget ((v.sl c).tunAt t.val).coef b.val [1]).all (fun w => w == 0) = true
        ∧ (v.sl c).err.events = (s.sl c).err.events ||| 0x40 ∧ ((v.sl c).tunAt t.val).faulted = false)
      ∧ (((s.sl c).tunAt t.val).bankUsed (b.val == 1) = true →
        ((v.sl c).tunAt t.val).faulted = true ∧ (v.sl c).err.events = (s.sl c).err.events ||| 0x40) := by
  obtain ⟨hbank, herr⟩ := coefsUpset_leaves s (c := c) upset t.isLt (b.val == 1)
  have hwrong : ((s.coefsUpset c upset).sl c).coefWrong t.val b.val = true := by
    rw [h t.val b.val t.isLt b.isLt]
    simp
  obtain ⟨hex, hfaulted⟩ := exists_of_coefWrong hwrong
  rw [← hbank, ← herr]
  generalize s.coefsUpset c upset = u at h hex hfaulted ⊢
  refine ⟨fun hu => ?_, fun hu => ?_⟩
  · obtain ⟨hv, htun⟩ := coefBad_unused u (b := b.val) t.isLt hu
    rw [checkBanks_one u t.isLt b.isLt h hv, htun]
    exact ⟨bankCleared_zero _ b.isLt, hv.events, hfaulted⟩
  · obtain ⟨hv, hfault⟩ := coefBad_used u (b := b.val) t.isLt hex hu
    rw [checkBanks_one u t.isLt b.isLt h hv]
    exact ⟨hfault, hv.events⟩

/-- A scrub of a bad word in a page that no block works in. -/
theorem scrubStep_bad (s : State) {c : Fin 4} (hv : (s.sl c).ctl.state.served = true)
    (hon : bit (s.sl c).ctl.bgCfg 0 = true)
    (hfree : vget (s.scrubGrants c) ((s.sl c).ctl.scrubNext * 8 / 4096 % 16) 0 < 30)
    (hbad : (s.sl c).err.badWords.contains (8 * (s.sl c).ctl.scrubNext) = true) (he : (s.sl c).err.cellErrs = [])
    (hs : 0 < vget (s.sl c).err.spares ((s.sl c).ctl.scrubNext * 8 / 4096 % 16) 0)
    (ho : ownerless ((s.sl c).pageOwner (8 * (s.sl c).ctl.scrubNext))) :
    let t := s.scrubStep c
    let n := (s.sl c).ctl.scrubNext
    let bank := n * 8 / 4096 % 16
    (t.sl c).ctl = ((s.sl c).scrubTook (s.tb / 4096) (s.scrubGrants c) bank).ctl
      ∧ (t.sl c).err.retired.contains (8 * n / 4096) = true
      ∧ vget (t.sl c).err.spares bank 0 = vget (s.sl c).err.spares bank 0 - 1
      ∧ (t.sl c).err.memCnt = min ((s.sl c).err.memCnt + 1) 0xFFFF ∧ OtherSlices c s t := by
  intro t n bank
  have hbank : 8 * n / 4096 % 16 = bank := by rw [Nat.mul_comm 8]
  let x := (s.sl c).scrubTook (s.tb / 4096) (s.scrubGrants c) bank
  let u := s.modSl c (Slice.scrubTook (s.tb / 4096) (s.scrubGrants c) bank)
  have hu : u.sl c = x := State.sl_modSl ..
  have howner : x.pageOwner (8 * n) = (s.sl c).pageOwner (8 * n) := rfl
  have hsl : t.slices = (u.modSl c (fun x => x.pageLost (8 * n / 4096) s.tb)).slices :=
    (congrArg State.slices (scrubStep_takes s hv hon hfree)).trans
      (badRead_unowned u (by rw [hu]; exact hbad) (by rw [hu, howner]; exact ho) (by rw [hu, hbank]; exact hs)
        (by rw [hu]; exact he))
  have hc : t.sl c = x.pageLost (8 * n / 4096) s.tb := by rw [sl_congr hsl, State.sl_modSl, hu]
  have hspares := pageLost_spares x (8 * n / 4096) s.tb
  rw [hbank] at hspares
  rw [hc]
  refine ⟨rfl, pageLost_retired .., hspares, rfl, fun d hd => ?_⟩
  rw [sl_congr hsl, State.sl_modSl_ne _ _ hd, State.sl_modSl_ne _ _ hd]

/-- Settles O19: the scrub, the checks of the shadow store, the coefficient banks and the key slots, error injection and
telemetry. -/
theorem backgroundChecks : Obligations.BackgroundChecks := by
  intro c s hv
  refine ⟨?scrub, ?shadow, ?coefs, ?slots, ?inject, ?telemetry⟩
  case scrub =>
    refine ⟨fun hoff => ?_, fun hon => ⟨fun hfree hgood => ?_, fun hfree hbad he hs ho => ?_, fun hfull => ?_⟩⟩
    · refine run_does_from (exec_scrubAccess c s) ?_
      rintro u o rfl
      exact scrubStep_off u hoff
    · refine run_does_from (exec_scrubAccess c s) ?_
      rintro u o rfl
      rw [scrubStep_takes u hv hon hfree]
      exact badRead_good _ (by rw [State.sl_modSl]; exact hgood)
    · refine run_gives_from (exec_scrubAccess c s) (fun _ _ _ _ h => h) ?_
      rintro u o rfl
      exact scrubStep_bad u hv hon hfree hbad he hs ho
    · refine run_does_from (exec_scrubAccess c s) ?_
      rintro u o rfl
      exact scrubStep_full u hv hon hfull
  case shadow =>
    refine ⟨fun f hf hb => ⟨?_, fun ha => ?_⟩, fun f base hf => ?_, ?_⟩
    · refine run_does_from (exec_shadowCheck c true false s) ?_
      rintro u o rfl
      exact checkShadow_active u hv hf hb (by simp)
    · refine run_does_from (exec_shadowCheck c true true s) ?_
      rintro u o rfl
      exact checkShadow_active u hv hf hb fun _ => ha
    · refine run_does_from (exec_shadowCheck c false true s) ?_
      rintro u o rfl
      exact checkShadow_staged u hv hf
    · refine run_does_from (exec_shadowCheck c false false s) ?_
      rintro u o rfl
      exact (checkShadow_stagedGood u hv (by simp)).trans (checkActive_good u)
  case coefs =>
    refine fun upset => ⟨fun h => ?_, fun t b h => ⟨fun hu => ?_, fun hu => ?_⟩⟩
    · refine run_does_from (exec_coefCrcCheck c upset s) ?_
      intro u o hu
      have hsl := sl_congr (coefsUpset_slices_congr (c := c) upset (show u.slices = s.slices by rw [hu])) c
      exact checkBanks_good (u.coefsUpset c upset) fun n m hn hm => by rw [hsl]; exact h n m hn hm
    · refine run_gives_from (exec_coefCrcCheck c upset s) (fun _ _ _ _ h => h) ?_
      intro u o hs
      have hsl := sl_congr (coefsUpset_slices_congr (c := c) upset (show u.slices = s.slices by rw [hs])) c
      have hwrong (n m : Nat) (hn : n < 32) (hm : m < 2) := (congrArg (Slice.coefWrong · n m) hsl).trans (h n m hn hm)
      subst hs
      exact (coefsUpset_checked u upset t b hwrong).1 hu
    · refine run_gives_from (exec_coefCrcCheck c upset s) (fun _ _ _ _ h => h) ?_
      intro u o hs
      have hsl := sl_congr (coefsUpset_slices_congr (c := c) upset (show u.slices = s.slices by rw [hs])) c
      have hwrong (n m : Nat) (hn : n < 32) (hm : m < 2) := (congrArg (Slice.coefWrong · n m) hsl).trans (h n m hn hm)
      subst hs
      exact (coefsUpset_checked u upset t b hwrong).2 hu
  case slots =>
    refine fun upset => ⟨fun h => ?_, fun k h => ?_⟩
    · refine run_does_from (exec_slotCheck c upset s) ?_
      rintro u o rfl
      rw [if_neg (serves (x := u.sl c) hv)]
      exact checkSlots_good _ (by rw [State.sl_modSl]; exact h)
    · refine run_gives_from (exec_slotCheck c upset s) (fun _ _ _ _ h => h) ?_
      rintro u o rfl
      have hsl : (u.modSl c (Slice.slotsUpset upset)).sl c = (u.sl c).slotsUpset upset := State.sl_modSl ..
      have hone := checkSlots_one (u.modSl c (Slice.slotsUpset upset)) (c := c) (k := k) (by rw [hsl]; exact h)
      obtain ⟨hslots, hev⟩ := checkSlot_bad (u.modSl c (Slice.slotsUpset upset)) (c := c) (k := k) (by
        rw [hsl]; exact (h k.val k.isLt).trans (by simp))
      rw [hsl] at hslots
      rw [if_neg (serves (x := u.sl c) hv), hone]
      exact ⟨by rw [hslots, if_pos rfl]; rfl, by rw [hslots, if_pos rfl]; rfl, hev,
        fun j hj => (hslots j).trans (if_neg hj)⟩
  case inject =>
    intro v hb ho
    refine run_does_from (exec_errorInject c v s) ?_
    rintro u o rfl
    exact sliceWrite_injects u hv hb ho
  case telemetry =>
    refine fun temps => ⟨fun hr => ?_, fun hr => ⟨?_, fun hw hup => ?_⟩⟩
    · refine run_does_from (exec_telemetryTick temps s) ?_
      rintro u o rfl
      exact if_pos (by simpa using hr)
    · refine run_gives_from (exec_telemetryTick temps s) (fun _ _ _ _ h => h) ?_
      rintro u o rfl
      intro d
      obtain ⟨htrl, hmac⟩ := tick_loads (u.sl d).trl (u.sl d).mac
      rw [telemetry_sl u temps hr, loadsClosed_sl]
      exact ⟨htrl, rfl, hmac, rfl, rfl, rfl⟩
    · refine run_does_from (exec_telemetryTick temps s) ?_
      rintro u o rfl
      exact telemetry_module u temps hr hw hup

end Sys2Proof.Machine
end

section
/-! SUPPORT. The command in hand of a queue (R279, R280): how its block takes it, and what completing it leaves
unchanged. -/

namespace Sys2Proof.Machine

open Sys2Proof

/-- The command in hand of queue `q`, where it has this opcode, is taken by `f`. -/
def State.onCommand (s : State) (q : Fin 256) (op : Nat) (f : State → Command → State) : State :=
  match s.inHand q op with
  | none => s
  | some cmd => f s cmd

theorem onCommand_taken {s : State} {q : Fin 256} {op : Nat} {cmd : Command} (h : s.inHand q op = some cmd)
    (f : State → Command → State) : s.onCommand q op f = f s cmd := by
  unfold State.onCommand
  rw [h]

section
variable {i : Instr} {s : State} {q : Fin 256} {op : Nat} {cmd : Command} {f : State → Command → State}

/-- What the block does with the command in hand is what the instruction does. -/
theorem command_does {g : State → State} (he : exec i s = run s (fun s => s.onCommand q op f))
    (hc : s.inHand q op = some cmd) (h : ∀ u o, s = { u with out := o } → f u cmd = g u) : Does i s g := by
  refine run_does_from he fun u o hu => ?_
  have hu' : u.inHand q op = some cmd := by rw [← hc, hu]; rfl
  rw [onCommand_taken hu']
  exact h u o hu

/-- What holds once the block has taken the command in hand holds of the instruction's answer. -/
theorem command_gives {P : State → Prop} (he : exec i s = run s (fun s => s.onCommand q op f))
    (hP : ∀ t o p l, P t → P { t with out := o, qmg := { t.qmg with msixPba := p }, pending := l })
    (hc : s.inHand q op = some cmd) (h : ∀ u o, s = { u with out := o } → P (f u cmd)) : Gives i s P := by
  refine run_gives_from he hP fun u o hu => ?_
  have hu' : u.inHand q op = some cmd := by rw [← hc, hu]; rfl
  rw [onCommand_taken hu']
  exact h u o hu

end

@[simp] theorem finish_offRecord (s : State) (cmd : Command) (status : Nat) (result : List Byte) :
    (s.finish cmd status result).offRecord = s.offRecord :=
  (complete_offRecord ..).trans (offRecord_modQ ..)

end Sys2Proof.Machine
end

section
/-! SUPPORT. The staged area of a slice (R71, R72): the chunks that load it, FORME_LOCKUP, FORME_DISCARD, FORME_QUERY
and the time limit of a loading. -/

namespace Sys2Proof.Machine

open Sys2Proof

/-- The effect of FORME_SET_CHUNK. -/
def State.takeChunk (s : State) (c : Fin 4) (cmd : Command) : State :=
  let n := u32 cmd.body 4
  if !(s.sl c).up then s.finish cmd Status.rejected []
  else if n % 4 ≠ 0 ∨ n < 4 ∨ 4096 < n then s.finish cmd Status.badParam []
  else s.setChunk c cmd (u32 cmd.body 0) (slice cmd.body 8 n)

theorem exec_formeSetChunk (c : Fin 4) (s : State) :
    exec (.formeSetChunk c) s = run s (fun s => s.onCommand (localQ c 52) 0x20 fun s cmd => s.takeChunk c cmd) := rfl

/-- The effect of FORME_LOCKUP. -/
def State.takeLockup (s : State) (c : Fin 4) (cmd : Command) : State :=
  if !(s.sl c).up then s.finish cmd Status.rejected []
  else if 1 < u8 cmd.body 0 then s.finish cmd Status.badParam []
  else
    match (s.sl c).shadow.area with
    | .staged f base =>
      if f.crc.toNat ≠ u32 cmd.body 4 then s.finish cmd Status.rejected []
      else
        match lockTime (u8 cmd.body 0) (u64 cmd.body 8) s.tb with
        | none => s.finish cmd Status.timeout []
        | some t => s.acceptLockup c cmd f base t
    | _ => s.finish cmd Status.rejected []

theorem exec_formeLockup (c : Fin 4) (s : State) :
    exec (.formeLockup c) s = run s (fun s => s.onCommand (localQ c 52) 0x21 fun s cmd => s.takeLockup c cmd) := rfl

theorem exec_formeDiscard (c : Fin 4) (s : State) :
    exec (.formeDiscard c) s = run s (fun s => s.onCommand (localQ c 52) 0x22 fun s cmd =>
      if !(s.sl c).up then s.finish cmd Status.rejected []
      else (s.clearArea c Status.rejected).finish cmd Status.ok []) := rfl

theorem exec_formeQuery (c : Fin 4) (s : State) :
    exec (.formeQuery c) s = run s (fun s => s.onCommand (localQ c 52) 0x23 fun s cmd =>
      if !(s.sl c).up then s.finish cmd Status.rejected []
      else s.finish cmd Status.ok (s.sl c).shadow.report) := rfl

/-- A command that needs an IDLE or RUNNING slice goes on in one. -/
theorem if_up {x : Slice} (hup : x.up = true) (a b : State) : (if !x.up then a else b) = b := if_neg (by simp [hup])

section
variable (s : State) {c : Fin 4}

/-! ### Chunks -/

theorem length_slice_le (b : List Byte) (o n : Nat) : (slice b o n).length ≤ n := List.length_take_le ..

theorem areaDone_eq (cmd : Command) (r : Staged2 × Nat × List Byte) :
    s.areaDone c cmd r = (s.modSl c (fun x => { x with shadow := { x.shadow with
      area := r.1, timedOut := false } })).finish cmd r.2.1 r.2.2 := by
  unfold State.areaDone State.setArea
  rw [State.modSl_modSl]

/-- A chunk of a sound length for an IDLE or RUNNING slice reaches the staged area. -/
theorem takeChunk_sound {cmd : Command} (hup : (s.sl c).up = true)
    (hn : ¬ (u32 cmd.body 4 % 4 ≠ 0 ∨ u32 cmd.body 4 < 4 ∨ 4096 < u32 cmd.body 4)) :
    s.takeChunk c cmd = s.setChunk c cmd (u32 cmd.body 0) (slice cmd.body 8 (u32 cmd.body 4)) :=
  (if_up hup ..).trans (if_neg hn)

/-- Less than a header stays in the loading area. -/
theorem loadChunk_short {b : List Byte} (h : b.length < 48) :
    s.loadChunk c b = (.loading b s.real, Status.ok, []) := if_pos h

theorem setChunk_first (cmd : Command) {off : Nat} (data : List Byte) (ha : (s.sl c).shadow.area = .empty)
    (h0 : off = 0) : s.setChunk c cmd off data = s.areaDone c cmd (s.loadChunk c data) := by
  unfold State.setChunk
  dsimp only
  rw [ha]
  exact if_pos h0

theorem setChunk_astray {cmd : Command} {off : Nat} {b : List Byte} {last : Nat} (data : List Byte)
    (ha : (s.sl c).shadow.area = .loading b last) (h0 : off ≠ 0) (hl : off ≠ b.length) :
    s.setChunk c cmd off data = s.finish cmd Status.badParam [] := by
  unfold State.setChunk
  dsimp only
  rw [ha]
  exact (if_neg h0).trans (if_pos hl)

theorem setChunk_staged {f : Forme} {base : Option Word} (cmd : Command) (off : Nat) (data : List Byte)
    (ha : (s.sl c).shadow.area = .staged f base) :
    s.setChunk c cmd off data = s.finish cmd Status.rejected [] := by
  unfold State.setChunk
  dsimp only
  rw [ha]

end

/-! ### The time limit -/

theorem exec_stagingTimeout (c : Fin 4) (s : State) :
    exec (.stagingTimeout c) s = run s (fun s =>
      match (s.sl c).shadow.area with
      | .loading b last =>
        if s.real < last + secTicks 10 then s
        else
          ((s.setArea c .empty).modSl c (fun x => { x with shadow := { x.shadow with timedOut := true } })).fault
            { status := Status.timeout, event := 0x15, level := 1, action := 0, block := 0x42,
              detail := b.length, slice := c.val }
      | _ => s) := rfl

/-- Settles O20: the first chunk of a forme, one that does not continue the bytes received, one for a STAGED area, and
a loading that stands still. -/
theorem formeChunks : Obligations.FormeChunks := by
  intro c s
  constructor
  case left =>
    intro cmd hc hup off n hn4 hmin hmax
    have hlen : ¬ (n % 4 ≠ 0 ∨ n < 4 ∨ 4096 < n) := by omega
    refine ⟨fun ha hoff hn => ?_, fun b last ha h0 hl => ?_, fun f base ha => ?_⟩
    · refine command_does (exec_formeSetChunk c s) hc ?_
      rintro u o rfl
      have hshort := (length_slice_le cmd.body 8 n).trans_lt hn
      have hfirst : u.takeChunk c cmd = u.areaDone c cmd (u.loadChunk c (slice cmd.body 8 n)) :=
        (takeChunk_sound u hup hlen).trans (setChunk_first u cmd _ ha hoff)
      rw [hfirst, loadChunk_short u hshort, areaDone_eq]
      rfl
    · refine command_does (exec_formeSetChunk c s) hc ?_
      rintro u o rfl
      exact (takeChunk_sound u hup hlen).trans (setChunk_astray u _ ha h0 hl)
    · refine command_does (exec_formeSetChunk c s) hc ?_
      rintro u o rfl
      exact (takeChunk_sound u hup hlen).trans (setChunk_staged u cmd off _ ha)
  case right =>
    intro b last ha hlate
    refine run_does_from (exec_stagingTimeout c s) ?_
    rintro u o rfl
    have ha' : (u.sl c).shadow.area = .loading b last := ha
    have hlate' : ¬ u.real < last + secTicks 10 := Nat.not_lt.mpr hlate
    simp only [ha', if_neg hlate', State.setArea, State.modSl_modSl]
    rfl

/-! ### FORME_LOCKUP -/

section
variable (s : State) {c : Fin 4} {cmd : Command} {f : Forme} {base : Option Word}

/-- A lock-up whose forme the slice's receive grant covers is PENDING at once. -/
theorem acceptLockup_granted (t : Nat) (h : f.rxAsk ≤ s.holds (rxReq c)) :
    s.acceptLockup c cmd f base t = (s.keep cmd).setArea c (.pending f base t (some cmd.ref)) :=
  if_pos (Nat.sub_eq_zero_of_le h)

/-- A lock-up that needs more tokens asks for those that are missing (R371). -/
theorem acceptLockup_asks (t : Nat) (h : s.holds (rxReq c) < f.rxAsk) :
    s.acceptLockup c cmd f base t = { (s.keep cmd).setArea c (.asking f base t (some cmd.ref)) with
      pwr := { s.pwr with
        want := vmod s.pwr.want (rxReq c) (fun _ => s.rxMore c f),
        rxAsk := vmod s.pwr.rxAsk c.val (fun _ => .lockup) } } :=
  if_neg (Nat.sub_ne_zero_of_lt h)

theorem acceptLockup_asking (t : Nat) (h : s.holds (rxReq c) < f.rxAsk) :
    let u := s.acceptLockup c cmd f base t
    (u.sl c).shadow.area = .asking f base t (some cmd.ref) ∧ vget u.pwr.rxAsk c.val .none = .lockup
      ∧ vget u.pwr.want (rxReq c) 0 = f.rxAsk - s.holds (rxReq c) ∧ (u.sl c).ctl = (s.sl c).ctl := by
  have hreq : rxReq c < 18 := by unfold rxReq; omega
  have hsl : ((s.keep cmd).setArea c (.asking f base t (some cmd.ref))).sl c =
      { s.sl c with shadow := { (s.sl c).shadow with area := .asking f base t (some cmd.ref) } } := State.sl_modSl ..
  rw [acceptLockup_asks s t h]
  exact ⟨(congrArg (fun x : Slice => x.shadow.area) hsl : _), vget_vmod_same _ _ _ c.isLt, vget_vmod_same _ _ _ hreq,
    (congrArg Slice.ctl hsl : _)⟩

/-- A FORME_LOCKUP with MODE 0 that names the staged forme is accepted, its instant fixed (R73). -/
theorem takeLockup_accepted (hup : (s.sl c).up = true) (ha : (s.sl c).shadow.area = .staged f base)
    (hm : u8 cmd.body 0 = 0) (hcrc : u32 cmd.body 4 = f.crc.toNat) :
    s.takeLockup c cmd = s.acceptLockup c cmd f base (alignUp 1048576 (s.tb + 65536)) := by
  unfold State.takeLockup
  rw [if_up hup, if_neg (by omega), ha]
  dsimp only
  rw [if_neg (by simp [hcrc]), hm]
  rfl

end

theorem clearArea_staged (s : State) {c : Fin 4} {f : Forme} {base : Option Word} (status : Nat)
    (ha : (s.sl c).shadow.area = .staged f base) : s.clearArea c status = s.setArea c .empty := by
  unfold State.clearArea
  rw [ha]

/-- What FORME_QUERY reports of an active forme beside an empty staged area. -/
theorem report_active {h : Shadow} {f : Forme} (hf : h.active = some f) (ha : h.area = .empty) :
    h.report = le 4 0 ++ le 4 f.crc.toNat ++ le 4 f.generation.toNat ++ le 4 0 ++ le 8 0 ++ padTo 16 f.name
      ++ h.cellBase.toList.map (fun b => BitVec.ofNat 8 (b.getD 0xFF)) := by
  unfold Shadow.report
  rw [hf, ha]
  rfl

/-- Settles O21: a FORME_LOCKUP that is granted at once and one that asks for tokens, FORME_DISCARD of a staged forme,
and FORME_QUERY. -/
theorem formeLockupAndQuery : Obligations.FormeLockupAndQuery := by
  intro c s hup
  refine ⟨?lockup, fun cmd f base hc ha => ?discard, fun cmd f hc hf ha => ?query⟩
  case lockup =>
    intro cmd f base hc ha hm hcrc at_
    refine ⟨fun hgrant => ?_, fun hmore => ?_⟩
    · refine command_does (exec_formeLockup c s) hc ?_
      rintro u o rfl
      exact (takeLockup_accepted u hup ha hm hcrc).trans (acceptLockup_granted u _ hgrant)
    · refine command_gives (exec_formeLockup c s) (fun _ _ _ _ h => h) hc ?_
      rintro u o rfl
      rw [takeLockup_accepted u hup ha hm hcrc]
      exact acceptLockup_asking u _ hmore
  case discard =>
    refine command_does (exec_formeDiscard c s) hc ?_
    rintro u o rfl
    rw [if_up (x := u.sl c) hup, clearArea_staged u _ ha]
    rfl
  case query =>
    refine command_does (exec_formeQuery c s) hc ?_
    rintro u o rfl
    rw [if_up (x := u.sl c) hup, report_active (h := (u.sl c).shadow) hf ha]
    rfl

end Sys2Proof.Machine
end

section
/-! SUPPORT. The forme library (R83 to R86, R397, R398): flash jobs, the entry that LIB_LOAD stages, the boot bits and
the lines of LIB_LIST. -/

namespace Sys2Proof.Machine

open Sys2Proof

/-! ### A completion and the commands in hand -/

/-- A frame to the children reaches no queue of the host port. -/
theorem toChildren_queues (s : State) (i : Option Nat) (f : Frame) : (s.toChildren i f).1.queues = s.queues := by
  unfold State.toChildren
  refine List.foldlRecOn _ _ (motive := fun a : State × Bool => a.1.queues = s.queues) rfl fun a ha p _ => ?_
  dsimp only
  split
  · exact ha
  · exact ha

theorem originate_queues (s : State) (cls : FrameClass) (dir : FrameDir) (kind : Nat) (turn : Bool) (dest : Nat)
    (payload : List Byte) : (s.originate cls dir kind turn dest payload).1.queues = s.queues := by
  unfold State.originate
  dsimp only
  split
  · split
    · split <;> rfl
    · split
      · exact toChildren_queues ..
      · split
        · rfl
        · exact toChildren_queues ..
    · rfl
  · exact toChildren_queues ..

/-- The copy of a record that goes to the trunk leaves the queues as they are. -/
theorem exportRec_queues (s : State) (q : Fin 256) (r : Record) : (s.exportRec q r).queues = s.queues := by
  refine List.foldlRecOn _ _ (motive := fun t : State => t.queues = s.queues) rfl fun t ht e _ => ?_
  simp only [apply_ite State.queues, originate_queues, ht, ite_self]

/-- A queue that keeps its command in hand. -/
theorem modQ_inHand (s : State) (q r : Fin 256) {f : Queue → Queue} (h : ∀ k, (f k).inHand = k.inHand) :
    ((s.modQ q f).qu r).inHand = (s.qu r).inHand := by
  by_cases hr : r = q
  · rw [hr, State.qu_modQ, h]
  · rw [State.qu_modQ_ne s f hr]

theorem enter_inHand (s : State) (q r : Fin 256) (k : Record) : ((s.enter q k).qu r).inHand = (s.qu r).inHand := by
  unfold State.enter
  split
  · exact modQ_inHand s q r fun _ => rfl
  · have hq (u : State) : (u.exportRec q k).qu r = u.qu r := congrArg (Vector.get · r) (exportRec_queues u q k)
    rw [hq]
    refine (modQ_inHand (s.takeSeq q).2 q r ?_).trans (modQ_inHand s q r ?_)
    · exact fun _ => rfl
    · exact fun _ => rfl

theorem report_inHand (s : State) (k : CmdRef) (status : Nat) (result : List Byte) (r : Fin 256) :
    ((s.report k status result).qu r).inHand = (s.qu r).inHand := by
  unfold State.report State.deliverDone
  dsimp only
  split
  · rfl
  · split
    · rfl
    · split
      · exact enter_inHand ..
      · exact modQ_inHand s _ r fun _ => rfl

theorem endNops_inHand (s : State) (q r : Fin 256) : ((s.endNops q).qu r).inHand = (s.qu r).inHand := by
  refine List.foldlRecOn _ _ (motive := fun t : State => (t.qu r).inHand = (s.qu r).inHand)
    (modQ_inHand s q r fun _ => rfl) fun t ht k _ => ?_
  exact (report_inHand t k _ _ r).trans ht

/-- A completion leaves every command in hand where it is. -/
theorem complete_inHand (s : State) (k : CmdRef) (status : Nat) (result : List Byte) (r : Fin 256) :
    ((s.complete k status result).qu r).inHand = (s.qu r).inHand := by
  unfold State.complete
  let s1 := s.modQ k.queue (fun q => { q with outstanding := q.outstanding.erase k })
  have h1 : (s1.qu r).inHand = (s.qu r).inHand := modQ_inHand s k.queue r fun _ => rfl
  dsimp only
  rw [endNops_inHand, report_inHand]
  split
  · exact h1
  · exact h1

/-- A command that is finished is no longer in hand. -/
theorem finish_inHand (s : State) (cmd : Command) (status : Nat) (result : List Byte) :
    ((s.finish cmd status result).qu cmd.queue).inHand = none := by
  unfold State.finish State.accept
  rw [complete_inHand, State.qu_modQ]

theorem fls_of_offRecord {s t : State} (h : t.offRecord = s.offRecord) : t.fls = s.fls := (congrArg State.fls h : _)

/-! ### Flash jobs (R397) -/

/-- A flash job waits behind the others; until it is written the library is as it was. -/
theorem flashJob_leaves (s : State) (cost : FlashCost) (j : FlashJob) :
    let t := s.flashJob cost j
    t.fls.jobs = s.fls.jobs ++ [j] ∧ t.fls.library = s.fls.library ∧ t.queues = s.queues ∧ t.slices = s.slices := by
  unfold State.flashJob State.queueJob State.countWrite
  cases cost <;> dsimp only <;> split <;> exact ⟨rfl, rfl, rfl, rfl⟩

/-- A command that waits for its flash job is outstanding, and the library and the slices stay. -/
theorem flashJob_waits (s : State) (cmd : Command) (cost : FlashCost) (j : FlashJob) :
    let t := (s.keep cmd).flashJob cost j
    t.fls.jobs = s.fls.jobs ++ [j] ∧ t.fls.library = s.fls.library ∧ cmd.ref ∈ (t.qu cmd.queue).outstanding
      ∧ t.slices = s.slices := by
  obtain ⟨hjobs, hlib, hqueues, hslices⟩ := flashJob_leaves (s.keep cmd) cost j
  refine ⟨hjobs, hlib, ?_, hslices⟩
  rw [State.qu, hqueues]
  change cmd.ref ∈ ((s.keep cmd).qu cmd.queue).outstanding
  unfold State.keep
  rw [State.qu_modQ]
  simp

/-- A write within the budget of the day is a flash job. -/
theorem flashWrite_pool (s : State) {kib : Nat} (j : FlashJob) (h : s.flashUsed + kib ≤ bf s.fls.limit 0 16) :
    s.flashWrite (.pool kib) j = some (s.flashJob (.pool kib) j) :=
  if_neg (by simpa [State.flashDenied] using h)

/-! ### LIB_STORE and LIB_ERASE -/

/-- The effect of LIB_STORE. -/
def State.takeLibStore (s : State) (cmd : Command) : State :=
  let b := cmd.body
  if h : u8 b 2 < 64 then
    if 4 ≤ u8 b 0 ∨ 2 ≤ u8 b 1 then s.finish cmd Status.badParam []
    else
      match (s.sl (Fin.ofNat 4 (u8 b 0))).storeSource (u8 b 1 == 1) with
      | none => s.finish cmd Status.rejected []
      | some f =>
        let bytes := f.bytes
        if 4 * 1024 * 1024 < s.libraryBytes (u8 b 2) + bytes.length then s.finish cmd Status.noResource []
        else
          match (s.keep cmd).flashWrite (.pool (flashKib bytes.length)) (.libStore cmd.ref ⟨u8 b 2, h⟩ bytes) with
          | some s1 => s1
          | none => s.flashDeny.finish cmd Status.budget []
  else s.finish cmd Status.noResource []

theorem exec_libStore (s : State) :
    exec .libStore s = run s (fun s => s.onCommand 12 0x28 fun s cmd => s.takeLibStore cmd) := rfl

/-- The effect of LIB_ERASE. -/
def State.takeLibErase (s : State) (cmd : Command) : State :=
  if h : u8 cmd.body 0 < 64 then
    match (s.keep cmd).flashWrite (.pool 4) (.libErase cmd.ref ⟨u8 cmd.body 0, h⟩) with
    | some s1 => s1
    | none => s.flashDeny.finish cmd Status.budget []
  else s.finish cmd Status.badParam []

theorem exec_libErase (s : State) :
    exec .libErase s = run s (fun s => s.onCommand 12 0x2A fun s cmd => s.takeLibErase cmd) := rfl

theorem fin_eq_ofNat {n k : Nat} [NeZero n] (h : k < n) : (⟨k, h⟩ : Fin n) = Fin.ofNat n k :=
  Fin.ext (Nat.mod_eq_of_lt h).symm

section
variable (s : State) {cmd : Command}

theorem takeLibStore_waits {f : Forme} (hc : u8 cmd.body 0 < 4) (hs : u8 cmd.body 1 = 0) (he : u8 cmd.body 2 < 64)
    (hf : (s.sl (Fin.ofNat 4 (u8 cmd.body 0))).mergeBase = some f)
    (hlib : s.libraryBytes (u8 cmd.body 2) + f.bytes.length ≤ 4194304)
    (hday : s.flashUsed + flashKib f.bytes.length ≤ bf s.fls.limit 0 16) :
    s.takeLibStore cmd = (s.keep cmd).flashJob (.pool (flashKib f.bytes.length))
      (.libStore cmd.ref (Fin.ofNat 64 (u8 cmd.body 2)) f.bytes) := by
  have hsource : (s.sl (Fin.ofNat 4 (u8 cmd.body 0))).storeSource (u8 cmd.body 1 == 1) = some f := by
    rw [hs]
    exact hf
  unfold State.takeLibStore
  dsimp only
  rw [dif_pos he, if_neg (by omega), hsource]
  dsimp only
  rw [if_neg (by omega), flashWrite_pool (s.keep cmd) _ hday, fin_eq_ofNat he]

theorem takeLibErase_waits (he : u8 cmd.body 0 < 64) (hday : s.flashUsed + 4 ≤ bf s.fls.limit 0 16) :
    s.takeLibErase cmd =
      (s.keep cmd).flashJob (.pool 4) (.libErase cmd.ref (Fin.ofNat 64 (u8 cmd.body 0))) := by
  unfold State.takeLibErase
  rw [dif_pos he, flashWrite_pool (s.keep cmd) _ hday, fin_eq_ofNat he]

end

/-! ### What the checks of a forme look at (R69) -/

/-- The checks look at the slices and at the features. -/
theorem checkEnv_congr {s t : State} (hs : t.slices = s.slices) (hf : t.fea = s.fea) (c : Fin 4) :
    t.checkEnv c = s.checkEnv c := by
  simp only [State.checkEnv, State.otherClaims, State.feature, sl_congr hs, hf]

theorem eccMaybe_fea (s : State) (ecc : Option Bool) (unit : Nat) : (s.eccMaybe ecc unit).fea = s.fea := by
  cases ecc with
  | none => rfl
  | some corrected =>
    cases corrected with
    | false => exact fault_fea ..
    | true => rfl

/-! ### LIB_LOAD -/

/-- The effect of LIB_LOAD. -/
def State.takeLibLoad (s : State) (ecc : Option Bool) (cmd : Command) : State :=
  let b := cmd.body
  let c : Fin 4 := Fin.ofNat 4 (u8 b 1)
  if 64 ≤ u8 b 0 ∨ 4 ≤ u8 b 1 then s.finish cmd Status.badParam []
  else if !(s.sl c).up ∨ (s.sl c).shadow.area ≠ .empty then s.finish cmd Status.rejected []
  else
    match s.fls.entry (u8 b 0) with
    | none => s.finish cmd Status.rejected []
    | some e =>
      let s1 := s.eccMaybe ecc (u8 b 0)
      if ecc = some false then s1.finish cmd Status.parity []
      else s1.areaDone c cmd (s1.loadChunk c e.forme)

theorem exec_libLoad (ecc : Option Bool) (s : State) :
    exec (.libLoad ecc) s = run s (fun s => s.onCommand 12 0x29 fun s cmd => s.takeLibLoad ecc cmd) := rfl

/-- The header check names a length that holds a header and a trailer (R53). -/
theorem headerCheck_length {b : List Byte} (h : headerCheck b = none) : 56 ≤ u32 b 8 := by
  by_contra hlt
  unfold headerCheck at h
  dsimp only at h
  rw [if_pos (show u32 b 8 < 56 ∨ u32 b 8 % 4 ≠ 0 by omega)] at h
  split_ifs at h

/-- A forme that parses has a sound header and is as long as it says. -/
theorem parseForme_header {b : List Byte} {a : Option Forme} {p : Forme × Option Word} (h : parseForme b a = .ok p) :
    headerCheck b = none ∧ b.length = u32 b 8 := by
  unfold parseForme at h
  dsimp only at h
  split at h
  next => cases h
  next hh =>
    by_cases hl : b.length = u32 b 8
    · exact ⟨hh, hl⟩
    · rw [if_pos hl] at h
      cases h

/-- A whole forme that passes every check is staged. -/
theorem loadChunk_whole (s : State) {c : Fin 4} {b : List Byte} {f : Forme} {base : Option Word}
    (hp : parseForme b (s.sl c).mergeBase = .ok (f, base)) (hf : checkForme f (s.checkEnv c) = none) :
    s.loadChunk c b = (.staged f base, Status.ok, le 4 f.crc.toNat) := by
  obtain ⟨hh, hl⟩ := parseForme_header hp
  have hlen := headerCheck_length hh
  unfold State.loadChunk State.stageForme
  rw [if_neg (by omega), hh]
  dsimp only
  rw [if_neg (by omega), hp]
  dsimp only
  rw [hf]

section
variable (s : State) {cmd : Command} {c : Fin 4} {e : LibEntry}

/-- An entry that the library holds reaches the empty staged area of an IDLE or RUNNING slice, unless the flash cannot
correct it (R86, R398). -/
theorem takeLibLoad_read (ecc : Option Bool) (hn : u8 cmd.body 0 < 64) (hc : u8 cmd.body 1 = c.val)
    (he : s.fls.entry (u8 cmd.body 0) = some e) (hup : (s.sl c).up = true) (ha : (s.sl c).shadow.area = .empty) :
    s.takeLibLoad ecc cmd = if ecc = some false then (s.eccMaybe ecc (u8 cmd.body 0)).finish cmd Status.parity []
      else (s.eccMaybe ecc (u8 cmd.body 0)).areaDone c cmd ((s.eccMaybe ecc (u8 cmd.body 0)).loadChunk c e.forme) := by
  have hc4 := c.isLt
  have hslice : Fin.ofNat 4 (u8 cmd.body 1) = c := by rw [hc]; exact (fin_eq_ofNat c.isLt).symm
  unfold State.takeLibLoad
  dsimp only
  rw [if_neg (by omega), hslice, if_neg (by simp [hup, ha]), he]

/-- An entry that passes every check is staged (R86). -/
theorem takeLibLoad_stages (ecc : Option Bool) (hecc : ecc ≠ some false) {f : Forme} {base : Option Word}
    (hn : u8 cmd.body 0 < 64) (hc : u8 cmd.body 1 = c.val)
    (he : s.fls.entry (u8 cmd.body 0) = some e) (hup : (s.sl c).up = true) (ha : (s.sl c).shadow.area = .empty)
    (hp : parseForme e.forme (s.sl c).mergeBase = .ok (f, base)) (hf : checkForme f (s.checkEnv c) = none) :
    s.takeLibLoad ecc cmd = ((s.eccMaybe ecc (u8 cmd.body 0)).modSl c (fun x => { x with shadow := { x.shadow with
      area := .staged f base, timedOut := false } })).finish cmd Status.ok (le 4 f.crc.toNat) := by
  have hsl : (s.eccMaybe ecc (u8 cmd.body 0)).sl c = s.sl c := sl_congr (eccMaybe_slices ..) c
  have henv := checkEnv_congr (eccMaybe_slices s ecc (u8 cmd.body 0)) (eccMaybe_fea s ecc (u8 cmd.body 0)) c
  rw [takeLibLoad_read s ecc hn hc he hup ha, if_neg hecc,
    loadChunk_whole _ (by rw [hsl]; exact hp) (by rw [henv]; exact hf), areaDone_eq]

end

/-- Words that the flash could not correct are counted (R398). -/
theorem eccMaybe_lost (s : State) (unit : Nat) :
    (s.eccMaybe (some false) unit).fls.uncorrected = min (s.fls.uncorrected + 1) 0xFFFF :=
  (congrArg (fun u : State => u.fls.uncorrected) (fault_offRecord ..) : _)

/-! ### LIB_BOOT -/

/-- The effect of LIB_BOOT. -/
def State.takeLibBoot (s : State) (cmd : Command) : State :=
  let c := u8 cmd.body 0
  let e := u8 cmd.body 1
  if 4 ≤ c ∨ (64 ≤ e ∧ e ≠ 0xFF) then s.finish cmd Status.badParam []
  else if e ≠ 0xFF ∧ (s.fls.entry e).isNone then s.finish cmd Status.rejected []
  else ({ s with fls := s.fls.moveBoot c (if e = 0xFF then none else some e) }).finish cmd Status.ok []

theorem exec_libBoot (s : State) :
    exec .libBoot s = run s (fun s => s.onCommand 12 0x2B fun s cmd => s.takeLibBoot cmd) := rfl

/-- Setting or clearing the boot bit of slice `c` leaves the bits of the other slices (R83). -/
theorem testBit_setBoot (e : LibEntry) {c d : Nat} (on : Bool) (hd : d < 4) :
    (e.setBoot c on).boot.toNat.testBit d = if d = c then on else e.boot.toNat.testBit d := by
  have hlow (v : Nat) : (BitVec.ofNat 4 v).toNat.testBit d = v.testBit d := by
    rw [BitVec.toNat_ofNat, Nat.testBit_mod_two_pow]
    simp [hd]
  unfold LibEntry.setBoot
  dsimp only
  rw [hlow]
  by_cases hdc : d = c
  · rw [if_pos hdc, hdc]
    split
    next h => exact beq_iff_eq.mp h
    next h =>
      rw [Nat.testBit_xor, Nat.testBit_two_pow_self, Bool.xor_true, Bool.not_eq_eq_eq_not, Bool.eq_not]
      simpa using h
  · rw [if_neg hdc]
    split
    · rfl
    · rw [Nat.testBit_xor, Nat.testBit_two_pow_of_ne (Ne.symm hdc), Bool.xor_false]

theorem entry_moveBoot (f : Fls) (c : Nat) (n : Option Nat) {i : Nat} (hi : i < 64) :
    (f.moveBoot c n).entry i = (f.entry i).map (fun e => e.setBoot c (n == some i)) := by
  unfold Fls.entry Fls.moveBoot
  rw [vget_vmapIdx _ _ _ hi]
  simp [vget, hi]

theorem takeLibBoot_fls (s : State) {cmd : Command} (hc : u8 cmd.body 0 < 4)
    (he : u8 cmd.body 1 = 0xFF ∨ (u8 cmd.body 1 < 64 ∧ s.fls.entry (u8 cmd.body 1) ≠ none)) :
    (s.takeLibBoot cmd).fls =
      s.fls.moveBoot (u8 cmd.body 0) (if u8 cmd.body 1 = 0xFF then none else some (u8 cmd.body 1)) := by
  have hentry : ¬ (u8 cmd.body 1 ≠ 0xFF ∧ (s.fls.entry (u8 cmd.body 1)).isNone = true) := by
    rintro ⟨hne, hnone⟩
    rcases he with h | ⟨-, h⟩
    · exact hne h
    · exact h (Option.isNone_iff_eq_none.mp hnone)
  unfold State.takeLibBoot
  dsimp only
  rw [if_neg (by omega), if_neg hentry, fls_of_offRecord (finish_offRecord ..)]

/-- The boot bit of slice `c` stands at the entry named, or nowhere. -/
theorem moveBoot_entry {s : State} {c n i : Nat} {e : LibEntry} (hc : c < 4) (hi : i < 64)
    (h : (s.fls.moveBoot c (if n = 0xFF then none else some n)).entry i = some e) :
    e.boot.toNat.testBit c = decide (i = n) ∧ ∃ o, s.fls.entry i = some o ∧ e.forme = o.forme
      ∧ ∀ d, d < 4 → d ≠ c → e.boot.toNat.testBit d = o.boot.toNat.testBit d := by
  rw [entry_moveBoot _ _ _ hi, Option.map_eq_some_iff] at h
  obtain ⟨o, ho, rfl⟩ := h
  refine ⟨?_, o, ho, rfl, fun d hd hdc => (testBit_setBoot o _ hd).trans (if_neg hdc)⟩
  rw [testBit_setBoot o _ hc, if_pos rfl]
  split
  next hff =>
    have hne : i ≠ n := by omega
    simp [hne]
  next => simp [eq_comm, beq_eq_decide]

/-! ### LIB_LIST -/

theorem exec_libList (s : State) :
    exec .libList s = run s (fun s => s.onCommand 12 0x2C fun s cmd =>
      s.finish cmd Status.ok (s.fls.library.toList.flatMap libLine)) := rfl

theorem length_libLine {e : LibEntry} (h : 40 ≤ e.forme.length) : (libLine (some e)).length = 32 := by
  have hname : (slice e.forme 24 16).length = 16 := by
    simp only [slice, List.length_take, List.length_drop]
    omega
  simp [libLine, hname, length_le]

/-- Settles O23: the jobs of LIB_STORE and LIB_ERASE, the three outcomes of LIB_LOAD, the boot bits that LIB_BOOT moves,
and the lines of LIB_LIST. -/
theorem libraryCommands : Obligations.LibraryCommands := by
  intro cmd s b
  refine ⟨?store, ?erase, ?load, ?boot, ?list⟩
  case store =>
    intro hc f hslice hactive hentry hf hlib hday
    refine command_gives (exec_libStore s) (fun _ _ _ _ h => h) hc ?_
    rintro u o rfl
    rw [takeLibStore_waits u hslice hactive hentry hf hlib hday]
    exact flashJob_waits ..
  case erase =>
    intro hc hentry hday
    refine command_gives (exec_libErase s) (fun _ _ _ _ h => h) hc ?_
    rintro u o rfl
    rw [takeLibErase_waits u hentry hday]
    exact flashJob_waits ..
  case load =>
    intro hc c e f base hn hslice he hup ha hp hf staged
    refine ⟨?_, ?_, ?_⟩
    · refine command_does (exec_libLoad none s) hc ?_
      rintro u o rfl
      exact takeLibLoad_stages u none (by decide) hn hslice he hup ha hp hf
    · refine command_does (exec_libLoad (some true) s) hc ?_
      rintro u o rfl
      exact takeLibLoad_stages u (some true) (by decide) hn hslice he hup ha hp hf
    · refine command_gives (exec_libLoad (some false) s) (fun _ _ _ _ h => h) hc ?_
      rintro u o rfl
      rw [takeLibLoad_read u (some false) hn hslice he hup ha, if_pos rfl]
      refine ⟨?_, finish_inHand .., ?_⟩
      · exact (slices_of_offRecord (finish_offRecord ..)).trans (eccMaybe_slices ..)
      · rw [fls_of_offRecord (finish_offRecord ..), eccMaybe_lost]
  case boot =>
    intro hc hslice hentry
    refine command_gives (exec_libBoot s) (fun _ _ _ _ h => h) hc ?_
    rintro u o rfl i hi e he
    rw [takeLibBoot_fls u hslice hentry] at he
    exact moveBoot_entry hslice hi he
  case list =>
    intro hc
    refine ⟨?_, rfl, fun e => length_libLine⟩
    refine command_does (exec_libList s) hc ?_
    rintro u o rfl
    rfl

end Sys2Proof.Machine
end

section
/-! SUPPORT. What a lock-up cuts (R74): the records, samples, bursts and contexts of the forme in force, its rules, its
queues and a calibration of its front end. Each leaves the frame of the slice (`State.frame`). -/

namespace Sys2Proof.Machine

open Sys2Proof

/-! ### Scheduled events -/

@[simp] theorem endPulse_offRecord (s : State) (pin : Fin 8) (t : Nat) :
    (s.endPulse pin t).offRecord = s.offRecord := by
  unfold State.endPulse
  split
  · split <;> simp
  · rfl

@[simp] theorem pinAction_offRecord (s : State) (c : Fin 4) (e : SchedEntry) (due : Nat) :
    (s.pinAction c e due).offRecord = s.offRecord := by
  simp [State.pinAction]

@[simp] theorem executeEntry_offRecord (s : State) (c : Fin 4) (e : SchedEntry) (due doneTb : Nat) (skipped : Bool) :
    (s.executeEntry c e due doneTb skipped).offRecord = s.offRecord := by
  simp [State.executeEntry]

/-- Entries that are executed reach pins and records alone. -/
@[simp] theorem runEntries_offRecord (s : State) (c : Fin 4) (t : Nat) : (s.runEntries c t).offRecord = s.offRecord :=
  offRecord_foldl (fun _ _ => executeEntry_offRecord ..) _ s

section
variable (s : State) (c : Fin 4)

@[simp] theorem closeBuf_frame (q : Fin 256) (early : Bool) : (s.closeBuf q early).frame c = s.frame c :=
  frame_of_offRecord c (closeBuf_offRecord ..)

@[simp] theorem cancelEntries_frame (d : Fin 4) (f keeps : Option Forme) (now : Nat) (p : Nat → Bool) :
    (s.cancelEntries d f keeps now p).frame c = s.frame c := frame_of_offRecord c (cancelEntries_offRecord ..)

@[simp] theorem setClaim_frame (d : Fin 4) (claim : Nat) : (s.setClaim d claim).frame c = s.frame c :=
  frame_of_offRecord c (setClaim_offRecord ..)

@[simp] theorem finish_frame (cmd : Command) (status : Nat) (result : List Byte) :
    (s.finish cmd status result).frame c = s.frame c := frame_of_offRecord c (finish_offRecord ..)

@[simp] theorem recheckOffers_frame : s.recheckOffers.frame c = s.frame c :=
  frame_of_offClocks (recheckOffers_offClocks s) c

/-! ### Queues -/

@[simp] theorem recordDone_frame (q : Fin 256) (e : Staged) : (s.recordDone q e).frame c = s.frame c := by
  simp [State.recordDone]

/-- Bytes that move to the host leave the slices alone. -/
@[simp] theorem moveBytes_frame (q : Fin 256) (n : Nat) : (s.moveBytes q n).frame c = s.frame c := by
  unfold State.moveBytes
  split
  · rfl
  · dsimp only
    split
    · exact recordDone_frame ..
    · rfl

@[simp] theorem stopQueue_frame (f : Forme) (q : Fin 256) (key : Nat) : (s.stopQueue f q key).frame c = s.frame c := by
  unfold State.stopQueue
  cases (s.qu q).xfer <;> cases f.find 7 key <;> simp

/-! ### Samples and instances -/

theorem stopCands_core (x : Slice) (n : Nat) (keep : Nat → Nat → Bool) : (x.stopCands n keep).core = x.core := by
  refine core_foldl (fun y t => ?_) _ x
  split
  · split <;> rfl
  · rfl

@[simp] theorem stopCands_frame (n : Nat) (keep : Nat → Nat → Bool) :
    (s.modSl c (fun x => x.stopCands n keep)).frame c = s.frame c := frame_modSl s c fun _ => stopCands_core ..

@[simp] theorem closeLater_frame (t upto : Nat) : (s.closeLater c t upto).frame c = s.frame c := by
  unfold State.closeLater
  dsimp only
  split
  · simp
  · split <;> simp

@[simp] theorem cutAf_frame (f : Forme) (places : List (Nat × Nat)) (d : Delta) (now n : Nat) :
    (s.cutAf c f places d now n).frame c = s.frame c := by
  simp [State.cutAf]

@[simp] theorem cutInst_frame (n : Nat) : (s.cutInst c n).frame c = s.frame c := by
  simp [State.cutInst]

@[simp] theorem cutCtx_frame (k : Nat) : (s.cutCtx c k).frame c = s.frame c := by
  simp [State.cutCtx]

/-! ### Calibration -/

@[simp] theorem calCommands_frame (kind status : Nat) : (s.calCommands c kind status).frame c = s.frame c := by
  unfold State.calCommands
  dsimp only
  rw [frame_foldl c (fun t k => complete_frame ..), modAfe_frame]

@[simp] theorem calFinish_frame (kind origin status start stop freq : Nat) (early notStored : Bool) (v : List Int) :
    (s.calFinish c kind origin status start stop freq early notStored v).frame c = s.frame c := by
  have hvco (u : State) : (u.modSl c (fun x => { x with tx := x.tx.afterVco })).frame c = u.frame c := modTx_frame ..
  simp [State.calFinish, hvco]

@[simp] theorem calCut_frame (status : Nat) : (s.calCut c status).frame c = s.frame c := by
  unfold State.calCut
  split
  · exact calFinish_frame ..
  · rfl

/-- What the instant cuts leaves the frame of the slice (R74). -/
@[simp] theorem cutOld_frame (f : Forme) (places : List (Nat × Nat)) (d : Delta) (now : Nat) :
    (s.cutOld c f places d now).frame c = s.frame c := by
  unfold State.cutOld
  dsimp only
  rw [frame_foldl c (fun t q => stopQueue_frame ..)]
  simp only [frame_ite, calCut_frame, endCapture_frame, cancelEntries_frame,
    frame_foldl c (fun t n => closeAudio_frame t c n), frame_foldl c (fun t k => cutCtx_frame t c k),
    frame_foldl c (fun t n => cutInst_frame t c n), ite_self]
  rw [frame_foldl c (fun t n => ?samples), frame_foldl c (fun t n => cutAf_frame ..)]
  case samples =>
    split <;> simp

end

end Sys2Proof.Machine
end

section
/-! SUPPORT. LOCKUP_INSTANT (R69, R72, R74 to R76): the forme that takes effect, or stays in its area. -/

namespace Sys2Proof.Machine

open Sys2Proof

/-! ### What the new forme brings -/

theorem dropCands_core (x : Slice) (f : Forme) : (x.dropCands f).core = x.core := by
  refine core_foldl (fun y t => ?_) _ x
  split
  · split <;> rfl
  · rfl

/-- Forme `f` is the sound active forme of a RUNNING slice, and no reload waits. -/
def Slice.runs (x : Slice) (f : Forme) : Prop :=
  x.ctl.state = .running ∧ x.shadow.active = some f ∧ x.shadow.bad = false ∧ x.shadow.reload = none

theorem runs_of_core {x y : Slice} {f : Forme} (h : y.core = x.core) (hx : x.runs f) : y.runs f := by
  obtain ⟨hstate, hactive, hbad, hreload⟩ := hx
  have hctl : y.ctl = x.ctl := congrArg Prod.fst h
  have hshadow : ({ y.shadow with area := .empty } : Shadow) = { x.shadow with area := .empty } :=
    congrArg (fun p => p.2.2.1) h
  exact ⟨(congrArg Ctl.state hctl).trans hstate, (congrArg Shadow.active hshadow : _).trans hactive,
    (congrArg Shadow.bad hshadow : _).trans hbad, (congrArg Shadow.reload hshadow : _).trans hreload⟩

/-- The slice that a forme is brought into force in runs it. -/
theorem bring_runs (x : Slice) (old : Option Forme) (was : Vector Inst 48) (f : Forme) (places : List (Nat × Nat))
    (d : Delta) (now real : Nat) :
    (((x.bringForme f places).bringChain f d now real).bringService old was f d now real).runs f :=
  runs_of_core (dropCands_core ..) ⟨rfl, rfl, rfl, rfl⟩

@[simp] theorem dropBursts_frame (s : State) (c : Fin 4) : (s.dropBursts c).frame c = s.frame c := by
  refine frame_foldl c (fun t i => ?_) _ s
  dsimp only
  split
  · split <;> simp
  · rfl

/-- A forme that takes effect runs in its slice (R74). -/
theorem commitForme_runs (s : State) (c : Fin 4) (f : Forme) (places : List (Nat × Nat)) (now : Nat) :
    ((s.commitForme c f places now).sl c).runs f := by
  let d := (s.sl c).delta f places
  let s1 := s.cutOld c f places d now
  let s2 := s1.modSl c (fun x => ((x.bringForme f places).bringChain f d now s.real).bringService
    (s.sl c).inForce (s1.sl c).inst f d now s.real)
  have hframe : (s.commitForme c f places now).frame c = s2.frame c := by
    have hfill (u : State) : (u.modSl c (fun x => x.fillAll s.real now)).frame c = u.frame c :=
      frame_modSl u c fun _ => fillAll_core ..
    unfold State.commitForme
    simp only [frame_ite, frame_release, hfill, ite_self, dropBursts_frame, reroute_frame, recheckOffers_frame,
      setClaim_frame, s2, s1, d]
  refine runs_of_core (core_of_frame hframe) ?_
  rw [State.sl_modSl]
  exact bring_runs ..

/-! ### The instant -/

section
variable {s t : State} {c : Fin 4} {f : Forme} {base : Option Word} {cmd : Option CmdRef}

/-- The checks at the instant look at the slices and at the features (R69). -/
theorem lockCheck_congr (hs : t.slices = s.slices) (hf : t.fea = s.fea) :
    t.lockCheck c f base = s.lockCheck c f base := by
  simp only [State.lockCheck, checkEnv_congr hs hf c, sl_congr hs c]

/-- The staged area empties when its forme takes effect. -/
theorem lockStaged_effect (s : State) {places : List (Nat × Nat)} (now : Nat) (hck : s.lockCheck c f base = none)
    (hpl : placeCells f (s.sl c).err.isolated = some places) :
    let t := s.lockStaged c f base cmd now
    (t.sl c).runs f ∧ (t.sl c).shadow.area = .empty := by
  let u := s.commitForme c f places now
  have hdone : s.lockStaged c f base cmd now =
      (u.setArea c .empty).lockDone cmd Status.ok (le 8 now ++ le 4 f.crc.toNat) := by
    unfold State.lockStaged
    rw [hck, hpl]
  have hsl : ((s.lockStaged c f base cmd now).sl c) =
      { u.sl c with shadow := { (u.sl c).shadow with area := .empty } } := by
    rw [hdone, sl_of_offRecord (lockDone_offRecord ..)]
    exact State.sl_modSl u c _
  dsimp only
  rw [hsl]
  exact ⟨commitForme_runs s c f places now, rfl⟩

/-- A forme that fails a check is STAGED again, and no slice changes but for that. -/
theorem lockStaged_fails (s : State) (now : Nat) (hck : s.lockCheck c f base ≠ none) :
    (s.lockStaged c f base cmd now).slices = (s.setArea c (.staged f base)).slices := by
  obtain ⟨e, he⟩ := Option.ne_none_iff_exists'.mp hck
  have hdone : s.lockStaged c f base cmd now =
      ((s.keepGrant c).setArea c (.staged f base)).lockDone cmd e.1 (errResult e) := by
    unfold State.lockStaged
    rw [he]
  have hgrant : (s.keepGrant c).slices = s.slices := by
    simp only [State.keepGrant, apply_ite State.slices, State.release_slices, ite_self]
  rw [hdone, slices_of_offRecord (lockDone_offRecord ..)]
  exact modSl_slices_congr hgrant c _

theorem state_of_up {x : Slice} (h : x.up = true) : x.ctl.state = .idle ∨ x.ctl.state = .running := by
  simpa [Slice.up] using h

/-- A lock-up of an IDLE or RUNNING slice whose instant has come waits for LOCKUP_INSTANT alone. -/
theorem lockReady_pending {x : Slice} {at_ now : Nat} (hup : x.up = true)
    (ha : x.shadow.area = .pending f base at_ cmd) (hnow : at_ ≤ now) (hco : x.clk.coast = false) :
    x.lockReady now = some at_ := by
  have hinstant : x.lockInstant = some at_ := by
    unfold Slice.lockInstant
    rw [ha]
    rcases state_of_up hup with hidle | hrunning
    · rw [hidle]
    · rw [hrunning]
  unfold Slice.lockReady
  rw [hinstant]
  exact if_pos (by simp [hnow, hco])

/-- The entries due before the instant are executed under the old forme; the lock-up follows (R74). -/
theorem lockNow_pending (s : State) {at_ : Nat} (n now : Nat) (hup : (s.sl c).up = true)
    (ha : (s.sl c).shadow.area = .pending f base at_ cmd) :
    ∃ u : State, u.offRecord = s.offRecord ∧ s.lockNow c n now = u.lockStaged c f base cmd now := by
  let u := if n = 0 then s else s.runEntries c (n - 1)
  have hu : u.offRecord = s.offRecord := by
    simp [u]
  refine ⟨u, hu, ?_⟩
  have hsl : u.sl c = s.sl c := sl_of_offRecord hu c
  have hstate : ¬ (u.sl c).ctl.state = .calibrating := by
    rw [hsl]
    rcases state_of_up hup with hidle | hrunning
    · simp [hidle]
    · simp [hrunning]
  unfold State.lockNow
  dsimp only
  rw [if_neg hstate, hsl, ha]

end

/-- The effect of LOCKUP_INSTANT. -/
def State.reachLockup (s : State) (c : Fin 4) : State :=
  match (s.sl c).lockReady s.tb with
  | none => s
  | some t => if s.lockBefore c t then s else s.lockNow c t t

theorem exec_lockupInstant (c : Fin 4) (s : State) :
    exec (.lockupInstant c) s = run s (fun s => s.reachLockup c) := rfl

theorem reachLockup_ready (s : State) {c : Fin 4} {t : Nat} (hr : (s.sl c).lockReady s.tb = some t)
    (hb : s.lockBefore c t = false) : s.reachLockup c = s.lockNow c t t := by
  unfold State.reachLockup
  rw [hr]
  exact if_neg (by simp [hb])

/-- Settles O22: a pending forme that passes its checks takes effect, and one that fails a check is STAGED again. -/
theorem lockupTakesEffect : Obligations.LockupTakesEffect := by
  intro c s f base at_ cmd ha hup hnow hco hbefore
  have hready (u : State) (hu : u.slices = s.slices) (htb : u.tb = s.tb) : (u.sl c).lockReady u.tb = some at_ := by
    rw [sl_congr hu, htb]
    exact lockReady_pending hup ha hnow hco
  refine ⟨fun places hck hpl => ?_, fun hck => ?_⟩
  · refine run_gives_from (exec_lockupInstant c s) (fun _ _ _ _ h => h) ?_
    rintro u o rfl
    obtain ⟨v, hv, hlock⟩ := lockNow_pending u at_ at_ hup ha
    have hsram : (u.lockNow c at_ at_).srams = u.srams := State.lockNow_srams ..
    have hck' : v.lockCheck c f base = none :=
      (lockCheck_congr (slices_of_offRecord hv) (fea_of_offRecord hv)).trans hck
    have hpl' : placeCells f (v.sl c).err.isolated = some places := by
      rw [sl_of_offRecord hv]
      exact hpl
    obtain ⟨⟨hstate, hactive, hbad, hreload⟩, harea⟩ := lockStaged_effect (cmd := cmd) v at_ hck' hpl'
    rw [reachLockup_ready u (hready u rfl rfl) hbefore]
    rw [← hlock] at hstate hactive hbad hreload harea
    exact ⟨hstate, hactive, harea, hbad, hreload, congrFun hsram c⟩
  · refine run_gives_from (exec_lockupInstant c s) (fun _ _ _ _ h => h) ?_
    rintro u o rfl
    obtain ⟨v, hv, hlock⟩ := lockNow_pending u at_ at_ hup ha
    have hck' : v.lockCheck c f base ≠ none := by
      rw [lockCheck_congr (slices_of_offRecord hv) (fea_of_offRecord hv)]
      exact hck
    have hslices : (u.lockNow c at_ at_).slices = (u.setArea c (.staged f base)).slices := by
      rw [hlock, lockStaged_fails v at_ hck']
      exact modSl_slices_congr (slices_of_offRecord hv) c _
    have hsl (d : Fin 4) : (u.lockNow c at_ at_).sl d = (u.setArea c (.staged f base)).sl d := sl_congr hslices d
    have hc : (u.setArea c (.staged f base)).sl c =
        { u.sl c with shadow := { (u.sl c).shadow with area := .staged f base } } := State.sl_modSl ..
    rw [reachLockup_ready u (hready u rfl rfl) hbefore, hsl c, hc]
    exact ⟨rfl, rfl, rfl, fun d hd => (hsl d).trans (State.sl_modSl_ne u _ hd)⟩

end Sys2Proof.Machine
end

section
/-! SUPPORT. The coherent read of TB (R91): by the host and by REGACC of the access port (R428). -/

namespace Sys2Proof.Machine

open Sys2Proof

/-! ### A read of a register of TBM -/

/-- What a read of TBM does once the module is ready, whoever reads. -/
theorem readBar0_tbm (s : State) {a o : Nat} (ha : a = 0x30000 + o) (ho : o < 0x10000) (h4 : o % 4 = 0)
    (hr : s.mod.ready = true) (hw : s.mod.swapping = none) :
    s.readBar0 a 4 = { s with tbm := s.tbm.readFx o, readData := le 4 ((s.tbm.read o).getD 0).toNat } := by
  have hat : sliceAt a = none := sliceAt_module (by omega)
  have hb : s.busyAt a = false := busyAt_ready s _ hr hw
  have hblock : a / 0x10000 = 3 := by omega
  have hoff : a % 0x10000 = o := by omega
  rw [readBar0_aligned s (sramAt_module hat) (by omega), regRead_module s hat hb, regReadFx_module s hat hb]
  simp only [State.moduleReg, State.moduleReadFx, hblock, hoff]

theorem exec_regacc_read (a d : Word) (s : State) : exec (.regacc a d 0) s = run s (fun s =>
    let u := (s.tapInstr 0x20).readBar0 a.toNat 4
    ({ u with readData := s.readData, tap := { u.tap with
      regAddr := a, regWrite := false, regData := lo32 (ofLe u.readData), regStatus := 0 } }).captureDr.bridged
        false) := rfl

/-- An instruction of the access port reaches the port and the pins alone. -/
theorem tapInstr_offRecord (s : State) (ir : Byte) :
    ∃ k : Tap, (s.tapInstr ir).offRecord = ({ s with tap := k } : State).offRecord := by
  refine ⟨({ s with tap := { s.tap with ir := ir, extest := false } } : State).captureDr.tap, ?_⟩
  unfold State.tapInstr
  dsimp only
  split
  next => exact offRecord_foldl (fun t pin => setPin_offRecord ..) _ _
  next => rfl

/-- A read of a register of TBM through REGACC returns the register and has the effect that a read of the host has. -/
theorem regacc_tbm (s : State) {a : Word} (d : Word) {o : Nat} (ha : a.toNat = 0x30000 + o) (ho : o < 0x10000)
    (h4 : o % 4 = 0) (hr : s.mod.ready = true) (hw : s.mod.swapping = none) :
    Gives (.regacc a d 0) s (fun t => t.tap.regData = (s.tbm.read o).getD 0 ∧ t.tap.regStatus = 0
      ∧ t.tbm = s.tbm.readFx o) := by
  refine run_gives_from (exec_regacc_read a d s) (fun _ _ _ _ h => h) ?_
  rintro u w rfl
  obtain ⟨k, hk⟩ := tapInstr_offRecord u 0x20
  have htbm : (u.tapInstr 0x20).tbm = u.tbm := (tbm_of_offRecord hk : _)
  have hready : (u.tapInstr 0x20).mod.ready = u.mod.ready := (congrArg (fun v : State => v.mod.ready) hk : _)
  have hswap : (u.tapInstr 0x20).mod.swapping = u.mod.swapping := (congrArg (fun v : State => v.mod.swapping) hk : _)
  dsimp only
  rw [readBar0_tbm _ ha ho h4 (hready.trans hr) (hswap.trans hw), htbm]
  exact ⟨(congrArg lo32 (ofLe_le4 _)).trans (lo32_toNat _), rfl, rfl⟩

/-- A read of a register of TBM by the host, as LATCH_READ or as a WIDE_READ of four bytes. -/
theorem hostRead_tbm {i : Instr} {s : State} {a o : Nat} 
    (he : exec i s = run s (fun s => (s.readBar0 a 4).bridged true))
    (ha : a = 0x30000 + o) (ho : o < 0x10000) (h4 : o % 4 = 0) (hr : s.mod.ready = true) (hw : s.mod.swapping = none) :
    Gives i s (fun t => t.readData = le 4 ((s.tbm.read o).getD 0).toNat ∧ t.tbm = s.tbm.readFx o) := by
  refine run_gives_from he (fun _ _ _ _ h => h) ?_
  rintro u w rfl
  rw [readBar0_tbm u ha ho h4 hr hw]
  exact ⟨rfl, rfl⟩

/-- Settles O59: the reads of TB_LO latch, the reads of TB_HI return what was latched, and TB_HI is 0 after reset. -/
theorem tbReadCoherent : Obligations.TbReadCoherent := by
  refine ⟨fun s hr hw => ⟨?_, fun d => ?_, fun d => ?_, ?_⟩, rfl⟩
  · exact hostRead_tbm (exec_latchRead 0x30000 s) (o := 0) rfl (by decide) rfl hr hw
  · obtain ⟨t, ht, hdata, hstatus, htbm⟩ := regacc_tbm s d (a := 0x30000) (o := 0) rfl (by decide) rfl hr hw
    refine ⟨t, ht, ?_, hstatus, htbm⟩
    rw [hdata]
    exact BitVec.toNat_ofNat ..
  · exact regacc_tbm s d (a := 0x30004) (o := 4) rfl (by decide) rfl hr hw
  · exact hostRead_tbm (exec_wideRead_bar0 0x30004 4 s) (o := 4) rfl (by decide) rfl hr hw

end Sys2Proof.Machine
end

section
/-! SUPPORT. A tick on an empty queue (R88, R317): at each whole microsecond of real time the amplifiers are sampled, so
that a tick can reach more than real time and TB. -/

namespace Sys2Proof.Machine

open Sys2Proof

theorem step_empty {s : State} (h : s.pending = []) : step s = .next (tick s) := by
  unfold step
  rw [h]

theorem tick_sl (s : State) (c : Fin 4) : (tick s).sl c = (({ s with out := [] } : State).pass.senseTick).sl c :=
  blockIrqs_sl ..

theorem sl_of_sameMachine {t u : State} (h : SameMachine t u) (c : Fin 4) : t.sl c = u.sl c := by
  obtain ⟨o, p, rfl⟩ := h
  rfl

/-- One tick before a whole microsecond, with PA_EN of slice 0 high and its amplifier not yet sampled. -/
def amplifierOn : State :=
  { State.reset.modTx 0 (fun t => { t with paEn := true }) with real := 1023 }

theorem amplifierOn_sampled : ((tick amplifierOn).sl 0).tx.sense.isSome = true := by
  rw [tick_sl]
  decide +kernel

/-- Refutes O3: the tick that completes a microsecond samples the amplifier of a slice whose PA_EN is high (R317), and
the statement has no premise about PA_EN. On `amplifierOn` the tick leaves a sample where there was none. -/
theorem not_idleStepIsATick : ¬ Obligations.IdleStepIsATick := by
  intro h
  obtain ⟨t, ht, hsame⟩ := h amplifierOn rfl rfl rfl rfl rfl
  rw [step_empty rfl] at ht
  obtain rfl := Host.Outcome.next.inj ht
  have hnone : ((tick amplifierOn).sl 0).tx.sense = none :=
    congrArg (fun x : Slice => x.tx.sense) (sl_of_sameMachine hsame 0)
  have hsome := amplifierOn_sampled
  rw [hnone] at hsome
  exact absurd hsome (by decide)

end Sys2Proof.Machine
end

section
/-! SUPPORT. Corrections of TB (R99, R100) and the sources of TBM (R93, R95, R103). A plan for an offset reaches the
offset, the pending step or hold and the registration armed for it; what a source that is selected or lost does beyond
that is said once for each. -/

namespace Sys2Proof.Machine

open Sys2Proof

/-! ### Plans (R100) -/

/-- TBM but for the correction in progress. -/
def Tbm.offPlan (t : Tbm) : Tbm := { t with offset := 0, slewing := false, slewAcc := 0, holdsAt := none, step := none }

/-- The state but for the correction in progress and the registrations armed for it. -/
def State.offPlan (s : State) : State := { s with trk := Trk.reset, tbm := s.tbm.offPlan }

section
variable {s t : State} (h : t.offPlan = s.offPlan)
include h

theorem tbmOffPlan_of_offPlan : t.tbm.offPlan = s.tbm.offPlan := (congrArg State.tbm h : _)
theorem slices_of_offPlan : t.slices = s.slices := (congrArg State.slices h : _)
theorem tb_of_offPlan : t.tbm.tb = s.tbm.tb := (congrArg (fun u : State => u.tbm.tb) h : _)

end

@[simp] theorem offPlan_ite {p : Prop} [Decidable p] (a b : State) :
    (if p then a else b).offPlan = if p then a.offPlan else b.offPlan := apply_ite ..

section
variable (s : State)

@[simp] theorem armTbm_offPlan (p : Nat) : (s.armTbm p).offPlan = s.offPlan := rfl

theorem dropStep_shape : ∃ k : Trk,
    s.dropStep = { s with trk := k, tbm := { s.tbm with step := none, holdsAt := none } } := by
  unfold State.dropStep
  dsimp only
  split <;> split <;> exact ⟨_, rfl⟩

@[simp] theorem dropStep_offPlan : s.dropStep.offPlan = s.offPlan := by
  obtain ⟨k, hk⟩ := dropStep_shape s
  rw [hk]
  rfl

/-- What is written to TBM after the pending plan has been dropped. -/
theorem dropStep_tbm_offPlan {f : Tbm → Tbm} (hf : ∀ t, (f t).offPlan = t.offPlan) :
    ({ s.dropStep with tbm := f s.dropStep.tbm } : State).offPlan = s.offPlan := by
  refine Eq.trans ?_ (dropStep_offPlan s)
  simp only [State.offPlan, hf]

@[simp] theorem decideStep_offPlan (amount kind source : Nat) (todSet : Bool) :
    (s.decideStep amount kind source todSet).offPlan = s.offPlan :=
  dropStep_tbm_offPlan s fun _ => rfl

@[simp] theorem planOffset_offPlan (off : Int) (source : Nat) : (s.planOffset off source).offPlan = s.offPlan := by
  unfold State.planOffset
  dsimp only
  split
  next => exact dropStep_tbm_offPlan s fun _ => rfl
  next =>
    split
    next => exact dropStep_tbm_offPlan s fun _ => rfl
    next =>
      split
      next =>
        split
        next => rfl
        next => exact (decideStep_offPlan ..).trans (dropStep_tbm_offPlan s fun _ => rfl)
      next =>
        split
        next => rfl
        next => exact dropStep_tbm_offPlan s fun _ => rfl

@[simp] theorem correct_offPlan (off : Int) (source : Nat) : (s.correct off source).offPlan = s.offPlan := by
  simp [State.correct]

end

/-! ### Sources (R93, R95) -/

/-- TBM after source `r` has been selected while another one was in use. -/
def Tbm.switched (t : Tbm) (r : Nat) : Tbm :=
  { t with state := .locked, source := r, lost := 0, everLocked := true, events := raise t.events 0 }

/-- TBM without the source it used, at real tick `now` (R103). -/
def Tbm.heldOver (t : Tbm) (now : Nat) : Tbm :=
  { t with state := .holdover, lost := t.source, source := 0, holdSince := now, events := raise t.events 1 }

/-- Rank `r` no longer qualifies. -/
def Tbm.unqualify (t : Tbm) (r : Nat) : Tbm := { t with qual := vmod t.qual (r - 1) (fun _ => false) }

theorem selectSource_locked {s : State} {r : Nat} (h : s.tbm.state = .locked) :
    (s.selectSource r).offPlan = ({ s with tbm := s.tbm.switched r } : State).offPlan := by
  unfold State.selectSource
  rw [correct_offPlan, if_pos h, h]
  rfl

theorem enterHoldover_tbm (s : State) : s.enterHoldover.tbm.offPlan = (s.tbm.heldOver s.real).offPlan := by
  obtain ⟨k, hk⟩ := dropStep_shape s
  unfold State.enterHoldover
  dsimp only
  rw [hk]
  split
  · rw [State.modSl_tbm]
    split <;> rfl
  · split <;> rfl

theorem best_of_offPlan {t u : Tbm} (h : t.offPlan = u.offPlan) : t.best = u.best := (congrArg Tbm.best h : _)

theorem best_none {t : Tbm} (h : ∀ r, 1 ≤ r → r ≤ 4 → t.qualified r = false) : t.best = none := by
  simp [Tbm.best, h]

theorem reconsider_none {s : State} (hs : s.tbm.state = .holdover) (hb : s.tbm.best = none) : s.reconsider = s := by
  unfold State.reconsider
  rw [hs, hb]

theorem unqualify_qualified (t : Tbm) {r k : Nat} (hr : 1 ≤ r) (hk : 1 ≤ k) (hk4 : k ≤ 4) :
    (t.unqualify r).qualified k = if k = r then false else t.qualified k := by
  split
  next h =>
    subst h
    exact vget_vmod_same _ _ _ (by omega)
  next h => exact vget_vmod_ne _ _ _ (by omega)

/-- TBM is LOCKED to rank `r`, and no other external source qualifies. -/
def Tbm.usesOnly (t : Tbm) (r : Nat) : Prop :=
  t.state = .locked ∧ t.source = r ∧ t.qualified r = true ∧ ∀ k, 1 ≤ k → k ≤ 4 → k ≠ r → t.qualified k = false

/-- The source in use is lost where no other external source qualifies: TBM goes to HOLDOVER. -/
theorem loseSource_last {s : State} {r : Nat} (h1 : 1 ≤ r) (h : s.tbm.usesOnly r) :
    (s.loseSource r).tbm.offPlan = ((s.tbm.unqualify r).heldOver s.real).offPlan := by
  obtain ⟨hs, hr, hq, hothers⟩ := h
  have htbm := enterHoldover_tbm { s with tbm := s.tbm.unqualify r }
  have hnone : ∀ k, 1 ≤ k → k ≤ 4 → ((s.tbm.unqualify r).heldOver s.real).qualified k = false := by
    intro k hk hk4
    change (s.tbm.unqualify r).qualified k = false
    rw [unqualify_qualified _ h1 hk hk4]
    split
    next => rfl
    next h => exact hothers k hk hk4 h
  have hstate : ({ s with tbm := s.tbm.unqualify r } : State).enterHoldover.tbm.state = .holdover :=
    (congrArg Tbm.state htbm : _)
  unfold State.loseSource
  rw [hq, Bool.not_true, if_neg Bool.false_ne_true]
  dsimp only
  rw [if_pos ⟨hs, hr⟩]
  refine (congrArg (fun u : State => u.tbm.offPlan) (reconsider_none hstate ?_)).trans htbm
  exact (best_of_offPlan htbm).trans (best_none hnone)

end Sys2Proof.Machine
end

section
/-! SUPPORT. A TB epoch (R92, R96 to R98), and the external source in use that is lost (R93, R95, R103). -/

namespace Sys2Proof.Machine

open Sys2Proof

/-! ### EVENTS registers -/

theorem testBit_raise_same (w : Word) {i : Nat} (hi : i < 32) : (raise w i).toNat.testBit i = true := by
  rw [raise, BitVec.toNat_or, Nat.testBit_or, BitVec.toNat_ofNat, Nat.testBit_mod_two_pow, Nat.testBit_two_pow_self]
  simp [hi]

theorem testBit_raise_of (w : Word) {i j : Nat} (h : w.toNat.testBit j = true) :
    (raise w i).toNat.testBit j = true := by
  simp [raise, BitVec.toNat_or, h]

/-! ### The loop of a slice at an epoch (R96 to R98) -/

section
variable (k : Clk) (e : Int) (frozen first locked : Bool) (f : LoopFree) (now : Nat)

theorem load_phaseErr : (k.load now).phaseErr = k.phaseErr := by
  unfold Clk.load
  split
  · split <;> rfl
  · rfl

theorem load_ctrl : (k.load now).ctrl = k.ctrl := by
  unfold Clk.load
  split
  · split <;> rfl
  · rfl

variable {k}

theorem epoch_unlocked (h : k.lock = false) : (k.epoch e frozen first locked f).phaseErr = 0 := by
  simp [Clk.epoch, h]

theorem epoch_locked (h : k.lock = true) :
    (k.epoch e frozen first locked f).phaseErr = max (-2147483648) (min 2147483647 e) := by
  simp [Clk.epoch, h, clampI]

theorem epoch_manual (h : k.lock = true) (hm : bit k.cfg 0 = true) :
    (k.epoch e false first locked f).ctrl = bf k.cfg 8 16 := by
  simp [Clk.epoch, h, hm]

end

section
variable (s : State) (c : Fin 4) (e : Int)

@[simp] theorem sliceEpoch_tbm : (s.sliceEpoch c e).tbm = s.tbm := by
  unfold State.sliceEpoch
  split <;> rfl

theorem sliceEpoch_sl_ne {d : Fin 4} (h : d ≠ c) : (s.sliceEpoch c e).sl d = s.sl d := by
  unfold State.sliceEpoch
  split
  · exact State.sl_modSl_ne _ _ h
  · rfl

/-- What a slice's loop captures at an epoch under TBM `t`, measured phase error `e`: `x` is the slice before. -/
def Slice.captured (x : Slice) (t : Tbm) (c : Fin 4) (e : Int) (k : Clk) : Prop :=
  (x.clk.lock = false → k.phaseErr = 0)
    ∧ (x.clk.lock = true → k.phaseErr = max (-2147483648) (min 2147483647 e)
      ∧ (bit x.clk.cfg 0 = true → t.timing ≠ some c → k.ctrl = bf x.clk.cfg 8 16))

theorem sliceEpoch_captures (h : (s.sl c).ctl.state.served = true) :
    (s.sl c).captured s.tbm c e ((s.sliceEpoch c e).sl c).clk := by
  have hsl : ∃ f : LoopFree, ((s.sliceEpoch c e).sl c).clk =
      ((s.sl c).clk.epoch e (s.ctrlFrozen c) (!s.tbm.everLocked) (s.tbm.state == .locked) f).load s.tb := by
    unfold State.sliceEpoch
    rw [if_pos h]
    exact ⟨_, congrArg Slice.clk (State.sl_modSl ..)⟩
  obtain ⟨f, hf⟩ := hsl
  rw [hf]
  refine ⟨fun hu => ?_, fun hl => ⟨?_, fun hm ht => ?_⟩⟩
  · rw [load_phaseErr, epoch_unlocked _ _ _ _ _ hu]
  · rw [load_phaseErr, epoch_locked _ _ _ _ _ hl]
  · have hfree : s.ctrlFrozen c = false := by simp [State.ctrlFrozen, ht]
    rw [load_ctrl, hfree, epoch_manual _ _ _ _ hl hm]

end

/-! ### The epoch -/

theorem replanNow_leaves (s : State) : s.replanNow.slices = s.slices ∧ s.replanNow.tbm.timing = s.tbm.timing := by
  have hplan (u : State) (off : Int) (r : Nat) :
      (u.planOffset off r).slices = u.slices ∧ (u.planOffset off r).tbm.timing = u.tbm.timing := by
    have h := planOffset_offPlan u off r
    exact ⟨slices_of_offPlan h, (congrArg (fun v : State => v.tbm.timing) h : _)⟩
  unfold State.replanNow
  split
  · dsimp only
    split
    · exact hplan ..
    · exact ⟨rfl, rfl⟩
  · exact ⟨rfl, rfl⟩

theorem syncAll_offRecord (s : State) : s.syncAll.offRecord = s.offRecord := by
  have hsync (u : State) (p : Fin 3) : (u.sendSync p).offRecord = u.offRecord := egress_offRecord ..
  unfold State.syncAll
  split
  · refine offRecord_foldl (fun u p => ?_) _ s
    rw [offRecord_ite, hsync, ite_self]
  · rfl

/-- The loops of the four slices, one after the other. -/
def State.loopsEpoch (s : State) (e0 e1 e2 e3 : Int) : State :=
  (((s.sliceEpoch 0 e0).sliceEpoch 1 e1).sliceEpoch 2 e2).sliceEpoch 3 e3

theorem loopsEpoch_captures (s : State) (e0 e1 e2 e3 : Int) (c : Fin 4) (h : (s.sl c).ctl.state.served = true) :
    (s.sl c).captured s.tbm c (([e0, e1, e2, e3] : List Int).getD c.val 0) ((s.loopsEpoch e0 e1 e2 e3).sl c).clk := by
  have hcap (u : State) (e : Int) (htbm : u.tbm = s.tbm) (hsl : u.sl c = s.sl c) :
      (s.sl c).captured s.tbm c e ((u.sliceEpoch c e).sl c).clk := by
    have hu := sliceEpoch_captures u c e (hsl ▸ h)
    rwa [htbm, hsl] at hu
  unfold State.loopsEpoch
  match c with
  | 0 =>
    rw [sliceEpoch_sl_ne _ 3 _ (by decide), sliceEpoch_sl_ne _ 2 _ (by decide), sliceEpoch_sl_ne _ 1 _ (by decide)]
    exact hcap s e0 rfl rfl
  | 1 =>
    rw [sliceEpoch_sl_ne _ 3 _ (by decide), sliceEpoch_sl_ne _ 2 _ (by decide)]
    exact hcap _ e1 (by simp) (sliceEpoch_sl_ne _ 0 _ (by decide))
  | 2 =>
    rw [sliceEpoch_sl_ne _ 3 _ (by decide)]
    exact hcap _ e2 (by simp) (by rw [sliceEpoch_sl_ne _ 1 _ (by decide), sliceEpoch_sl_ne _ 0 _ (by decide)])
  | 3 =>
    exact hcap _ e3 (by simp) (by
      rw [sliceEpoch_sl_ne _ 2 _ (by decide), sliceEpoch_sl_ne _ 1 _ (by decide), sliceEpoch_sl_ne _ 0 _ (by decide)])

theorem exec_tbEpoch (e0 e1 e2 e3 : Int) (s : State) : exec (.tbEpoch e0 e1 e2 e3) s = run s (fun s =>
    if s.tb % 2 ^ 20 = 0 ∧ s.tbm.hold.isNone then (s.clockEpoch e0 e1 e2 e3).syncAll else s) := rfl

/-- What TB_EPOCH leaves of the slices and of the timing slice comes from the loops of the slices alone. -/
theorem clockEpoch_syncAll (s : State) (e0 e1 e2 e3 : Int) :
    (s.clockEpoch e0 e1 e2 e3).syncAll.slices = (s.chooseTiming.loopsEpoch e0 e1 e2 e3).slices
      ∧ (s.clockEpoch e0 e1 e2 e3).syncAll.tbm.timing = allSlices.find? (fun c => (s.sl c).timingOk) := by
  have hsync := syncAll_offRecord (s.clockEpoch e0 e1 e2 e3)
  obtain ⟨hslices, htiming⟩ := replanNow_leaves (s.chooseTiming.loopsEpoch e0 e1 e2 e3)
  refine ⟨(slices_of_offRecord hsync).trans hslices, ?_⟩
  rw [tbm_of_offRecord hsync]
  exact htiming.trans (by simp only [State.loopsEpoch, sliceEpoch_tbm]; rfl)

/-! ### A source that is lost -/

/-- TBM has been in HOLDOVER since real tick `now`, after losing rank `r` at TB value `tb`. -/
def Tbm.lostSource (r now tb : Nat) (t : Tbm) : Prop :=
  t.qualified r = false ∧ t.state = .holdover ∧ t.lost = r ∧ t.source = 0 ∧ t.holdSince = now
    ∧ t.events.toNat.testBit 1 = true ∧ t.tb = tb

theorem lostSource_of_offPlan {t u : Tbm} {r now : Nat} (h1 : 1 ≤ r) (h4 : r ≤ 4) (hu : u.source = r)
    (h : t.offPlan = ((u.unqualify r).heldOver now).offPlan) : t.lostSource r now u.tb := by
  have hq : t.qualified r = (u.unqualify r).qualified r := (congrArg (fun v : Tbm => v.qualified r) h : _)
  have hl : t.lost = u.source := (congrArg Tbm.lost h : _)
  have he : t.events = raise u.events 1 := (congrArg Tbm.events h : _)
  refine ⟨?_, (congrArg Tbm.state h : _), hl.trans hu, (congrArg Tbm.source h : _), (congrArg Tbm.holdSince h : _), ?_,
    (congrArg Tbm.tb h : _)⟩
  · rw [hq, unqualify_qualified u h1 h1 h4, if_pos rfl]
  · rw [he]
    exact testBit_raise_same _ (by decide)

/-- The source in use is lost where no other external source qualifies. -/
theorem loseSource_lostSource {s : State} {r : Nat} (h1 : 1 ≤ r) (h4 : r ≤ 4) (h : s.tbm.usesOnly r) :
    (s.loseSource r).tbm.lostSource r s.real s.tbm.tb := by
  have hlast := loseSource_last h1 h
  obtain ⟨-, hsource, -⟩ := h
  exact lostSource_of_offPlan h1 h4 hsource hlast

theorem exec_refinLost (s : State) : exec .refinLost s = run s (fun s =>
    ({ s with tbm := { s.tbm with refinOk := false, ppsGood := 0 } }).loseSource 1) := rfl

theorem exec_ppsLost (s : State) : exec .ppsLost s = run s (fun s =>
    if s.tbm.ppsExpect.isSome ∧ s.tbm.ppsLast + secTicks 2 ≤ s.real then
      ({ s with tbm := { s.tbm with
          ppsExpect := none, ppsGood := 0, events := raise s.tbm.events 4 } }).loseSource 1
    else s) := rfl

/-- No TIME frame has come from a parent for 250 ms (R93). -/
def State.trunkSilent (s : State) : Bool :=
  match s.trk.upPort with
  | some _ => decide (s.trk.timeReal + msTicks 250 ≤ s.real)
  | none => true

theorem exec_trunkTimeLost (s : State) : exec .trunkTimeLost s = run s (fun s =>
    if s.trunkSilent then s.loseSource 2 else s) := rfl

theorem exec_holdoverEnd (s : State) : exec .holdoverEnd s = run s (fun s =>
    if s.tbm.state = .holdover ∧ s.tbm.holdSince + secTicks (3600 * bf s.tbm.holdoverCfg 0 8) ≤ s.real then
      { s with tbm := { s.tbm with state := .freerun, lost := 0, events := raise s.tbm.events 2 } }
    else s) := rfl

theorem trunkSilent_of {s : State} (h : s.trk.upPort = none ∨ s.trk.timeReal + 256000000 ≤ s.real) :
    s.trunkSilent = true := by
  unfold State.trunkSilent
  split
  next p hp =>
    rcases h with hnone | hlate
    · rw [hp] at hnone
      cases hnone
    · exact decide_eq_true hlate
  next => rfl

/-- Settles O24: the epoch slice by slice, then each source that is lost, then the end of HOLDOVER. -/
theorem epochAndSources : Obligations.EpochAndSources := by
  intro s
  refine ⟨fun e0 e1 e2 e3 hpoint hhold => ?_, ?_, fun hstate hmax => ?_⟩
  · refine run_gives_from (exec_tbEpoch e0 e1 e2 e3 s) (fun _ _ _ _ h => h) ?_
    rintro u o rfl
    obtain ⟨hslices, htiming⟩ := clockEpoch_syncAll u e0 e1 e2 e3
    rw [if_pos ⟨hpoint, Option.isNone_iff_eq_none.mpr hhold⟩]
    refine ⟨htiming, fun c hserved => ?_⟩
    have hcap := loopsEpoch_captures u.chooseTiming e0 e1 e2 e3 c hserved
    rw [sl_congr hslices, htiming]
    exact hcap
  · intro holdover hlocked hsource hothers
    have honly (r : Nat) (hr : s.tbm.source = r) : s.tbm.usesOnly r := by
      subst hr
      exact ⟨hlocked, rfl, hsource, hothers⟩
    refine ⟨fun h1 => ?_, fun h1 hpps hlate => ?_, fun h2 hsilent => ?_⟩
    · have h := honly 1 h1
      refine run_gives_from (exec_refinLost s) (fun _ _ _ _ h => h) ?_
      rintro u o rfl
      exact loseSource_lostSource (s := { u with tbm := { u.tbm with refinOk := false, ppsGood := 0 } }) (by decide)
        (by decide) h
    · have h := honly 1 h1
      refine run_gives_from (exec_ppsLost s) (fun _ _ _ _ h => h) ?_
      rintro u o rfl
      rw [if_pos ⟨Option.isSome_iff_ne_none.mpr hpps, hlate⟩]
      let v : State := { u with tbm := { u.tbm with ppsExpect := none, ppsGood := 0, events := raise u.tbm.events 4 } }
      have hv : v.tbm.usesOnly 1 := h
      have hlost := loseSource_last (by decide) hv
      refine ⟨loseSource_lostSource (by decide) (by decide) hv, (congrArg Tbm.ppsExpect hlost : _), ?_⟩
      exact (congrArg (fun t : Tbm => t.events.toNat.testBit 4) hlost : _).trans
        (testBit_raise_of _ (testBit_raise_same _ (by decide)))
    · have h := honly 2 h2
      refine run_gives_from (exec_trunkTimeLost s) (fun _ _ _ _ h => h) ?_
      rintro u o rfl
      rw [if_pos (trunkSilent_of (s := u) hsilent)]
      exact loseSource_lostSource (s := u) (by decide) (by decide) h
  · refine run_does_from (exec_holdoverEnd s) ?_
    rintro u o rfl
    exact if_pos ⟨hstate, by simpa only [secTicks, Nat.mul_right_comm] using hmax⟩

end Sys2Proof.Machine
end

section
/-! SUPPORT. What no source of TBM moves: real time, TB with the steps and holds that took place, its origin, and the
clocks of the slices but for their control values, with their CTL blocks (R95, R103). -/

namespace Sys2Proof.Machine

open Sys2Proof

theorem testBit_raise_ne (w : Word) {i j : Nat} (h : i ≠ j) : (raise w i).toNat.testBit j = w.toNat.testBit j := by
  rw [raise, BitVec.toNat_or, Nat.testBit_or, BitVec.toNat_ofNat, Nat.testBit_mod_two_pow,
    Nat.testBit_two_pow_of_ne h]
  simp

/-- A slice's clock but for its control value. -/
def Clk.offCtrl (k : Clk) : Clk := { k with ctrl := 0, ctrlHist := [] }

/-- TB, the steps and holds that moved it, its origin and the event of the change of origin. -/
def Tbm.time (t : Tbm) : Nat × List (Nat × Int) × Bool × Nat × Bool :=
  (t.tb, t.warps, t.origin, t.originAt, t.events.toNat.testBit 6)

/-- A slice's clock but for its control value, and its CTL block. -/
def Slice.kept (x : Slice) : Clk × Ctl := (x.clk.offCtrl, x.ctl)

/-- The time of the module, with the clocks and the CTL blocks of its slices. -/
def State.timed (s : State) : Nat × (Nat × List (Nat × Int) × Bool × Nat × Bool) × (Fin 4 → Clk × Ctl) :=
  (s.real, s.tbm.time, fun d => (s.sl d).kept)

section
variable {s t : State} (h : t.timed = s.timed)
include h

theorem real_of_timed : t.real = s.real := congrArg Prod.fst h
theorem time_of_timed : t.tbm.time = s.tbm.time := congrArg (fun p => p.2.1) h
theorem tb_of_timed : t.tbm.tb = s.tbm.tb := congrArg Prod.fst (time_of_timed h)
theorem kept_of_timed (d : Fin 4) : (t.sl d).kept = (s.sl d).kept := congrArg (fun p => p.2.2 d) h
theorem clk_of_timed (d : Fin 4) : (t.sl d).clk.offCtrl = (s.sl d).clk.offCtrl := congrArg Prod.fst (kept_of_timed h d)
theorem ctl_of_timed (d : Fin 4) : (t.sl d).ctl = (s.sl d).ctl := congrArg Prod.snd (kept_of_timed h d)

end

@[simp] theorem timed_ite {p : Prop} [Decidable p] (a b : State) :
    (if p then a else b).timed = if p then a.timed else b.timed := apply_ite ..

theorem timed_of {s t : State} (hreal : t.real = s.real) (htime : t.tbm.time = s.tbm.time)
    (hkept : ∀ d, (t.sl d).kept = (s.sl d).kept) : t.timed = s.timed :=
  Prod.ext hreal (Prod.ext htime (funext hkept))

theorem timed_of_offPlan {s t : State} (h : t.offPlan = s.offPlan) : t.timed = s.timed := by
  refine timed_of (congrArg State.real h : _) (congrArg (fun u : State => u.tbm.time) h : _) fun d => ?_
  rw [sl_congr (slices_of_offPlan h)]

theorem timed_of_offRecord {s t : State} (h : t.offRecord = s.offRecord) : t.timed = s.timed := by
  simp only [State.timed, real_of_offRecord h, tbm_of_offRecord h, sl_of_offRecord h]

/-- A change of a slice that keeps its clock but for the control value, and its CTL block. -/
theorem timed_modSl (s : State) (c : Fin 4) {f : Slice → Slice} (h : ∀ x, (f x).kept = x.kept) :
    (s.modSl c f).timed = s.timed := by
  refine timed_of rfl rfl fun d => ?_
  by_cases hd : d = c
  · rw [hd, State.sl_modSl, h]
  · rw [State.sl_modSl_ne _ _ hd]

/-- An iteration whose every round keeps the time does so. -/
theorem timed_foldl {α : Type} {g : State → α → State} (h : ∀ t a, (g t a).timed = t.timed) (l : List α) (s : State) :
    (l.foldl g s).timed = s.timed := by
  induction l generalizing s with
  | nil => rfl
  | cons a l ih => rw [List.foldl_cons, ih, h]

theorem timed_modSlices (s : State) {f : Fin 4 → Slice → Slice} (h : ∀ c x, (f c x).kept = x.kept) :
    (s.modSlices f).timed = s.timed := timed_foldl (fun t c => timed_modSl t c (h c)) _ s

section
variable (s : State)

theorem timed_tbm {k : Tbm} (h : k.time = s.tbm.time) : ({ s with tbm := k } : State).timed = s.timed :=
  timed_of rfl h fun _ => rfl

@[simp] theorem correct_timed (off : Int) (source : Nat) : (s.correct off source).timed = s.timed :=
  timed_of_offPlan (correct_offPlan ..)

@[simp] theorem selectSource_timed (r : Nat) : (s.selectSource r).timed = s.timed := by
  have hevents : (if s.tbm.state = .freerun then s.tbm.events else raise s.tbm.events 0).toNat.testBit 6 =
      s.tbm.events.toNat.testBit 6 := by
    split
    · rfl
    · exact testBit_raise_ne _ (by decide)
  have hclear (u : State) :
      (u.modSlices (fun _ x => { x with clk := { x.clk with ctrlHist := [] } })).timed = u.timed :=
    timed_modSlices u fun _ _ => rfl
  unfold State.selectSource
  rw [correct_timed]
  split
  · exact timed_tbm s (by simp only [Tbm.time, hevents])
  · rw [hclear]
    exact timed_tbm s (by simp only [Tbm.time, hevents])

@[simp] theorem reconsider_timed : s.reconsider.timed = s.timed := by
  unfold State.reconsider
  split
  · split <;> simp
  · rfl
  · simp
  · simp

@[simp] theorem enterHoldover_timed : s.enterHoldover.timed = s.timed := by
  have hdrop : (if s.tbm.originPending then s else s.dropStep).timed = s.timed := timed_of_offPlan (by simp)
  unfold State.enterHoldover
  dsimp only
  split
  · refine (timed_modSl _ _ (f := fun x => { x with clk := { x.clk with ctrl := x.clk.mean } }) fun _ => rfl).trans
      ((timed_tbm _ ?_).trans hdrop)
    simp only [Tbm.time, testBit_raise_ne _ (show 1 ≠ 6 by decide)]
  · refine (timed_tbm _ ?_).trans hdrop
    simp only [Tbm.time, testBit_raise_ne _ (show 1 ≠ 6 by decide)]

@[simp] theorem loseSource_timed (r : Nat) : (s.loseSource r).timed = s.timed := by
  have hq (k : Vector Bool 4) : ({ s with tbm := { s.tbm with qual := k } } : State).timed = s.timed := rfl
  simp [State.loseSource, hq]

@[simp] theorem measureSource_timed (r : Nat) (off : Int) : (s.measureSource r off).timed = s.timed := by
  have ho (k : Vector Int 4) : ({ s with tbm := { s.tbm with srcOff := k } } : State).timed = s.timed := rfl
  simp [State.measureSource, ho]

@[simp] theorem qualify_timed (r : Nat) (off : Int) : (s.qualify r off).timed = s.timed := by
  unfold State.qualify
  rw [timed_ite, measureSource_timed, reconsider_timed]
  exact ite_self _

@[simp] theorem takeOffer_timed (r : Nat) : (s.takeOffer r).timed = s.timed := by
  unfold State.takeOffer
  split <;> simp

@[simp] theorem recheckOffers_timed : s.recheckOffers.timed = s.timed := by simp [State.recheckOffers]

@[simp] theorem dropTiming_timed : s.dropTiming.timed = s.timed := by
  unfold State.dropTiming
  split
  · rw [timed_ite]
    exact ite_self _
  · rfl

end

end Sys2Proof.Machine
end

section
/-! SUPPORT. Edges of PPS_IN (R94), the choice of a source (R95), CFG and TOD_SET (R109, R110). -/

namespace Sys2Proof.Machine

open Sys2Proof

/-! ### Measurements (R95) -/

/-- TBM but for the correction in progress and the choice of a source. -/
def Tbm.offSource (t : Tbm) : Tbm :=
  { t.offPlan with state := .freerun, source := 0, lost := 0, everLocked := false, events := 0 }

theorem offSource_of_offPlan {t u : Tbm} (h : t.offPlan = u.offPlan) : t.offSource = u.offSource :=
  (congrArg (fun v : Tbm =>
    { v with state := .freerun, source := 0, lost := 0, everLocked := false, events := 0 }) h : _)

theorem selectSource_offSource (s : State) (r : Nat) : (s.selectSource r).tbm.offSource = s.tbm.offSource := by
  unfold State.selectSource
  rw [offSource_of_offPlan (tbmOffPlan_of_offPlan (correct_offPlan ..))]
  split <;> rfl

theorem reconsider_offSource (s : State) : s.reconsider.tbm.offSource = s.tbm.offSource := by
  unfold State.reconsider
  split
  · split
    · exact selectSource_offSource ..
    · rfl
  · rfl
  · exact selectSource_offSource ..
  · split
    · exact selectSource_offSource ..
    · rfl

/-- What TBM notes of an offset `off` of rank `r`. -/
def Tbm.measured (t : Tbm) (r : Nat) (off : Int) : Tbm := { t with srcOff := vmod t.srcOff (r - 1) (fun _ => off) }

theorem measureSource_tbm (s : State) (r : Nat) (off : Int) :
    (s.measureSource r off).tbm.offPlan = (s.tbm.measured r off).offPlan := by
  unfold State.measureSource
  dsimp only
  split
  · exact tbmOffPlan_of_offPlan (correct_offPlan ..)
  · rfl

theorem measured_vget (t : Tbm) {r : Nat} (off d : Int) (h1 : 1 ≤ r) (h4 : r ≤ 4) :
    vget (t.measured r off).srcOff (r - 1) d = off := vget_vmod_same _ _ _ (by omega)

theorem measured_measured (t : Tbm) (r : Nat) (off : Int) : (t.measured r off).measured r off = t.measured r off := by
  unfold Tbm.measured vmod
  split <;> simp

/-- A source that qualifies leaves in TBM the offset it qualifies with, and what does not concern sources. -/
def Tbm.offRank (t : Tbm) : Tbm :=
  { t.offSource with qual := Vector.replicate 4 false, since := Vector.replicate 4 0 }

theorem qualify_tbm (s : State) (r : Nat) (off : Int) :
    (s.qualify r off).tbm.offRank = (s.tbm.measured r off).offRank := by
  have hrank {t u : Tbm} (h : t.offSource = u.offSource) : t.offRank = u.offRank :=
    (congrArg (fun v : Tbm => { v with qual := Vector.replicate 4 false, since := Vector.replicate 4 0 }) h : _)
  unfold State.qualify
  split
  · exact hrank (offSource_of_offPlan (measureSource_tbm s r off))
  · exact (hrank (reconsider_offSource _)).trans rfl

/-! ### Edges of PPS_IN (R94) -/

theorem ppsNear_iff (s : State) : s.ppsNear = true ↔
    ∃ x, s.tbm.ppsExpect = some x ∧ x ≤ s.real + 102400 ∧ (ppsOffset ((s.real : Int) - x)).natAbs ≤ 102400 := by
  unfold State.ppsNear
  cases s.tbm.ppsExpect with
  | none => simp
  | some x =>
    simp only [Bool.and_eq_true, decide_eq_true_eq, Option.some.injEq, exists_eq_left']
    simp only [usTicks]
    omega

/-- An edge that is not accepted (R94). -/
def Tbm.ppsIgnore (t : Tbm) : Tbm := { t with ppsIgnored := min (t.ppsIgnored + 1) 0xFFFF, events := t.events ||| 8 }

/-- An accepted edge, the `good`th in a row. -/
def State.ppsAccept (s : State) (refinGood : Bool) (good : Nat) : State :=
  { s with tbm := { s.tbm with
    ppsAccepted := count 16 1 s.tbm.ppsAccepted, ppsGood := good, refinOk := refinGood,
    ppsExpect := some (s.real + secTicks 1), ppsLast := s.real } }

/-- How many edges in a row an edge now makes. -/
def State.ppsRow (s : State) : Nat := if s.ppsNear then s.tbm.ppsGood + 1 else 1

/-- The effect of PPS_EDGE. -/
def State.ppsEdge (s : State) (refinGood : Bool) : State :=
  if s.tbm.qualified 1 && !s.ppsNear then { s with tbm := s.tbm.ppsIgnore }
  else
    let s2 := (s.ppsAccept refinGood s.ppsRow).labelPps
    if 3 ≤ s.ppsRow ∧ refinGood ∧ (s2.tbm.origin ∨ s.tbm.tod.isSome) then s2.qualify 1 (vget s2.tbm.srcOff 0 0) else s2

theorem exec_ppsEdge (good : Bool) (s : State) : exec (.ppsEdge good) s = run s (fun s => s.ppsEdge good) := rfl

theorem labelPps_measures {s : State} (ho : s.tbm.origin = true) (ht : s.tbm.tod = none) :
    s.labelPps = s.measureSource 1 (ppsOffset s.ppsTb) := by
  unfold State.labelPps
  rw [ht]
  exact if_pos ho

/-- On the TAI scale an accepted edge measures its offset to the nearest second. -/
theorem ppsEdge_accepted {s : State} (good : Bool) (h : (s.tbm.qualified 1 && !s.ppsNear) = false)
    (ho : s.tbm.origin = true) (ht : s.tbm.tod = none) :
    (s.ppsEdge good).tbm.offRank = ((s.ppsAccept good s.ppsRow).tbm.measured 1 (ppsOffset s.ppsTb)).offRank := by
  let u := s.ppsAccept good s.ppsRow
  let off := ppsOffset s.ppsTb
  have hlabel : u.labelPps = u.measureSource 1 off := labelPps_measures ho ht
  have hmeasured := measureSource_tbm u 1 off
  have hrank : (u.measureSource 1 off).tbm.offRank = (u.tbm.measured 1 off).offRank :=
    (congrArg Tbm.offRank hmeasured : _)
  have hoff : vget (u.measureSource 1 off).tbm.srcOff 0 0 = off :=
    (congrArg (fun t : Tbm => vget t.srcOff 0 0) hmeasured : _).trans
      (measured_vget _ off 0 (r := 1) (by decide) (by decide))
  unfold State.ppsEdge
  rw [h, if_neg Bool.false_ne_true]
  dsimp only
  rw [hlabel, hoff]
  split
  · rw [qualify_tbm]
    refine (congrArg (fun t : Tbm => (t.measured 1 off).offRank) hmeasured : _).trans ?_
    exact (congrArg Tbm.offRank (measured_measured u.tbm 1 off) : _)
  · exact hrank

/-! ### A better source (R95) -/

/-- The first element that satisfies `p` is the first that satisfies `p` and `q`, where it satisfies `q`. -/
theorem find?_and {α : Type} {p q : α → Bool} {l : List α} {a : α} (h : l.find? p = some a) (hq : q a = true) :
    l.find? (fun x => p x && q x) = some a := by
  rw [List.find?_eq_some_iff_append] at h ⊢
  obtain ⟨hp, as, bs, rfl, hbefore⟩ := h
  refine ⟨by simp [hp, hq], as, bs, rfl, fun x hx => ?_⟩
  have := hbefore x hx
  simp_all

theorem bestHeld_of_best {s : State} {r : Nat} (hb : s.tbm.best = some r) (hr : r < s.tbm.source)
    (hheld : vget s.tbm.since (r - 1) 0 + 1024000000 * bf s.tbm.cfg 16 8 ≤ s.real) : s.bestHeld = some r := by
  have hheld' : vget s.tbm.since (r - 1) 0 + s.tbm.switchHold ≤ s.real := by
    rwa [Tbm.switchHold, secTicks, Nat.mul_comm]
  have h := find?_and (q := fun r => decide (r < s.tbm.source) &&
    decide (vget s.tbm.since (r - 1) 0 + s.tbm.switchHold ≤ s.real)) hb (by simp [hr, hheld'])
  simpa only [State.bestHeld, Bool.and_assoc] using h

theorem reconsider_switches {s : State} {r : Nat} (hs : s.tbm.state = .locked) (hb : s.bestHeld = some r) :
    s.reconsider = s.selectSource r := by
  unfold State.reconsider
  rw [hs, hb]

theorem exec_switchHoldExpired (s : State) : exec .switchHoldExpired s = run s (fun s => s.reconsider) := rfl

/-! ### Clock time (R93) -/

/-- A context that has brought no valid clock-time message for 10 min by real tick `now` offers none. -/
def Slice.withdrawn (now : Nat) (x : Slice) (k : Nat) (y : Ctx) : Ctx :=
  if y.offered && timeRank (cxParser ((x.find 5 k).getD [])) == 4 && decide (y.timeReal + secTicks 600 ≤ now) then
    { y with offered := false }
  else y

theorem withdrawn_lapsed {x : Slice} {now k : Nat} {y : Ctx} (hoff : y.offered = true)
    (hrank : timeRank (cxParser ((x.find 5 k).getD [])) = 4) (hlate : y.timeReal + 614400000000 ≤ now) :
    (x.withdrawn now k y).offered = false := by
  have hlapsed : y.timeReal + secTicks 600 ≤ now := hlate
  unfold Slice.withdrawn
  rw [hoff, hrank, decide_eq_true hlapsed]
  rfl

theorem exec_clockTimeLost (s : State) : exec .clockTimeLost s = run s (fun s =>
    (s.modSlices (fun _ x => { x with ctx := vmapIdx (x.withdrawn s.real) x.ctx })).recheckOffers) := rfl

theorem ctxAt_withdrawn (x : Slice) (now : Nat) (k : Fin 256) :
    ({ x with ctx := vmapIdx (x.withdrawn now) x.ctx } : Slice).ctxAt k.val = x.withdrawn now k.val (x.ctxAt k.val) :=
  (vget_vmapIdx _ _ Ctx.reset k.isLt).trans (congrArg (x.withdrawn now k.val) (dif_pos k.isLt).symm)

theorem ctxAt_of_offClock {x y : Slice} (h : x.offClock = y.offClock) (k : Nat) : x.ctxAt k = y.ctxAt k :=
  (congrArg (fun z : Slice => z.ctxAt k) h : _)

/-! ### CFG and TOD_SET (R109, R110) -/

theorem exec_tbmCfgWrite (v : Word) (s : State) :
    exec (.tbmCfgWrite v) s = run s (fun s => s.moduleWrite fun s => s.writeTbmCfg v) := rfl

theorem exec_todSet (v : Word) (s : State) :
    exec (.todSet v) s = run s (fun s => s.moduleWrite fun s => s.writeTod v) :=
  rfl

/-- TOD_SET on the uptime origin and without PPS_IN binds its value to the TB of now. -/
theorem writeTod_binds {s : State} (v : Word) (ho : s.tbm.origin = false) (hs : s.tbm.step = none)
    (hp : s.ppsPresent = false) : s.writeTod v = s.bindTod (v.toNat * 4294967296 + s.tbm.todLo.toNat) s.tb 0 := by
  have hfree : s.tbm.todFree = true := by simp [Tbm.todFree, ho, hs]
  unfold State.writeTod
  dsimp only
  rw [if_pos hfree, hp, if_neg Bool.false_ne_true]
  rfl

theorem bindTod_forward {s : State} {value : Nat} (source : Nat) (h : s.tb < value) :
    s.bindTod value s.tb source = s.decideStep (value - s.tb) 2 source true := by
  unfold State.bindTod
  dsimp only
  rw [if_neg (by omega)]
  congr 1
  omega

theorem bindTod_rejects {s : State} {value : Nat} (source : Nat) (h : value ≤ s.tb) :
    s.bindTod value s.tb source = { s with tbm := { s.tbm with events := s.tbm.events ||| 0x80 } } :=
  if_pos (by omega)

theorem testBit_bf (w : Word) (lo n i : Nat) :
    (bf w lo n).testBit i = (decide (i < n) && w.toNat.testBit (lo + i)) := by
  rw [bf, bitsOf, Nat.testBit_mod_two_pow, Nat.testBit_shiftRight]

theorem testBit_mkWord_cons (lo n v : Nat) (fs : List (Nat × Nat × Nat)) (i : Nat) :
    (mkWord ((lo, n, v) :: fs)).toNat.testBit i =
      ((decide (i < 32) && (decide (lo ≤ i) && (decide (i - lo < n) && v.testBit (i - lo))))
        || (mkWord fs).toNat.testBit i) := by
  rw [mkWord, BitVec.toNat_or, Nat.testBit_or, BitVec.toNat_ofNat, Nat.testBit_mod_two_pow, Nat.testBit_mul_two_pow,
    Nat.testBit_mod_two_pow]

theorem testBit_mkWord_nil (i : Nat) : (mkWord []).toNat.testBit i = false := Nat.zero_testBit i

theorem bf_lowest (w : Word) : bf w 0 1 = (bit w 0).toNat := by
  rw [bit, Nat.toNat_testBit]
  simp [bf, bitsOf]

/-- CFG as a write of `v` leaves it (R109). -/
def cfgWord (v : Word) : Word :=
  mkWord [(16, 8, bf v 16 8), (12, 1, 1), (8, 4, bf v 8 4), (4, 4, bf v 4 4), (0, 1, bf v 0 1)]

theorem testBit_cfgWord (v : Word) {i : Nat} (hi : i < 13) :
    (cfgWord v).toNat.testBit i = if i = 12 then true else if i < 4 then decide (i = 0) && v.toNat.testBit 0
      else v.toNat.testBit i := by
  simp only [cfgWord, testBit_mkWord_cons, testBit_mkWord_nil, testBit_bf]
  interval_cases i <;> simp

theorem bit_cfgWord (v : Word) : bit (cfgWord v) 0 = bit v 0 := by
  rw [bit, testBit_cfgWord v (by decide)]
  simp [bit]

theorem force_cfgWord (v : Word) : bf (cfgWord v) 4 4 = bf v 4 4 := by
  refine Nat.eq_of_testBit_eq fun i => ?_
  rw [testBit_bf, testBit_bf]
  by_cases hi : i < 4
  · rw [testBit_cfgWord v (by omega), if_neg (by omega), if_neg (by omega)]
  · simp [hi]

/-- A CFG with rank 5 enabled keeps SRC_EN where the field of the external ranks is written as it is. -/
theorem srcEn_cfgWord {v w : Word} (hsrc : bf v 8 4 = bf w 8 4) (hon : bit w 12 = true) :
    bf (cfgWord v) 8 5 = bf w 8 5 := by
  refine Nat.eq_of_testBit_eq fun i => ?_
  rw [testBit_bf, testBit_bf]
  rcases Nat.lt_trichotomy i 4 with hi | rfl | hi
  · have h := congrArg (Nat.testBit · i) hsrc
    simp only [testBit_bf, hi, decide_true, Bool.true_and] at h
    rw [testBit_cfgWord v (by omega), if_neg (by omega), if_neg (by omega), h]
  · rw [testBit_cfgWord v (by decide), if_pos rfl, ← hon, bit]
  · simp [show ¬ i < 5 by omega]

/-- A write of CFG that leaves SRC_EN and FORCE_SRC as they are asks for no new choice of a source. -/
theorem writeTbmCfg_same {s : State} {v : Word} (hsrc : bf v 8 4 = bf s.tbm.cfg 8 4) (hon : bit s.tbm.cfg 12 = true)
    (hforce : bf v 4 4 = bf s.tbm.cfg 4 4) : s.writeTbmCfg v = { s with tbm := { s.tbm with
      cfg := cfgWord v, replan := s.tbm.replan || bf v 0 1 != bf s.tbm.cfg 0 1 } } := by
  have hmode : (bit s.tbm.cfg 0 != bit (cfgWord v) 0) = (bf v 0 1 != bf s.tbm.cfg 0 1) := by
    rw [bit_cfgWord, bf_lowest, bf_lowest]
    cases bit v 0 <;> cases bit s.tbm.cfg 0 <;> rfl
  rw [← hmode]
  exact if_pos ⟨(srcEn_cfgWord hsrc hon).symm, ((force_cfgWord v).trans hforce).symm⟩

/-- Settles O25: PPS_EDGE ignored and accepted, the better source, the context without clock time, CFG, TOD_SET. -/
theorem timeSelection : Obligations.TimeSelection := by
  intro s
  refine ⟨fun good => ⟨fun hq hfar => ?_, fun hnear ho ht => ?_⟩, fun r hb hs hr hheld => ?_,
    fun c k hoff hrank hlate => ?_, fun hready hswap => ⟨fun v hsrc hon hforce => ?_, fun v ho hstep hpps => ?_⟩⟩
  · refine run_does_from (exec_ppsEdge good s) ?_
    rintro u o rfl
    have hnear : u.ppsNear = false := Bool.eq_false_iff.mpr fun h => hfar ((ppsNear_iff u).mp h)
    exact if_pos (show (u.tbm.qualified 1 && !u.ppsNear) = true by rw [hnear]; exact Bool.and_true _ |>.trans hq)
  · refine run_gives_from (exec_ppsEdge good s) (fun _ _ _ _ h => h) ?_
    rintro u o rfl
    have hacc : (u.tbm.qualified 1 && !u.ppsNear) = false := by
      rcases hnear with hnot | hnear
      · exact (congrArg (· && !u.ppsNear) hnot : _)
      · rw [(ppsNear_iff u).mpr hnear, Bool.not_true, Bool.and_false]
    have h := ppsEdge_accepted good hacc ho ht
    refine ⟨(congrArg Tbm.ppsAccepted h : _), (congrArg Tbm.ppsLast h : _), (congrArg Tbm.ppsExpect h : _), ?_,
      (congrArg Tbm.tb h : _)⟩
    exact (congrArg (fun t : Tbm => vget t.srcOff 0 0) h : _).trans
      (measured_vget _ _ 0 (r := 1) (by decide) (by decide))
  · refine run_gives_from (exec_switchHoldExpired s) (fun _ _ _ _ h => h) ?_
    rintro u o rfl
    rw [reconsider_switches (s := u) hs (bestHeld_of_best (s := u) hb hr hheld)]
    have h := tbmOffPlan_of_offPlan (selectSource_locked (s := u) (r := r) hs)
    exact ⟨(congrArg Tbm.source h : _), (congrArg Tbm.state h : _), (congrArg Tbm.tb h : _)⟩
  · refine run_gives_from (exec_clockTimeLost s) (fun _ _ _ _ h => h) ?_
    rintro u o rfl
    set w := u.modSlices (fun _ x => { x with ctx := vmapIdx (x.withdrawn u.real) x.ctx }) with hw
    have hctx : (w.recheckOffers.sl c).ctxAt k.val = (u.sl c).withdrawn u.real k.val ((u.sl c).ctxAt k.val) := by
      rw [ctxAt_of_offClock (offClock_of_offClocks (recheckOffers_offClocks w) c), hw, sl_modSlices, ctxAt_withdrawn]
    refine ⟨?_, (tb_of_timed (recheckOffers_timed w)).trans (tb_of_timed (timed_modSlices u fun _ _ => rfl))⟩
    rw [hctx]
    exact withdrawn_lapsed hoff hrank hlate
  · refine run_does_from (exec_tbmCfgWrite v s) ?_
    rintro u o rfl
    rw [moduleWrite_taken u _ hready hswap]
    exact writeTbmCfg_same hsrc hon hforce
  · intro value
    refine ⟨fun hlt => ?_, fun hle => ?_⟩
    · refine run_gives_from (exec_todSet v s) (fun _ _ _ _ h => h) ?_
      rintro u o rfl
      rw [moduleWrite_taken u _ hready hswap, writeTod_binds (s := u) v ho hstep hpps, bindTod_forward (s := u) 0 hlt]
      exact ⟨tb_of_offPlan (s := u) (decideStep_offPlan ..), rfl⟩
    · refine run_does_from (exec_todSet v s) ?_
      rintro u o rfl
      rw [moduleWrite_taken u _ hready hswap, writeTod_binds (s := u) v ho hstep hpps]
      exact bindTod_rejects 0 hle

end Sys2Proof.Machine
end

section
/-! SUPPORT. The service engine and the AF processes do not move the time of the module nor the clock and the
lifecycle of a slice (R208 to R265, R106). `State.frame` is silent about TBM and about the clock of the slice itself, so
each operation has an equation of `State.timed` beside that of its frame. -/

namespace Sys2Proof.Machine

open Sys2Proof

/-! ### Building blocks -/

/-- An iteration over a slice whose every round keeps its clock and its CTL block does so. -/
theorem kept_foldl {α : Type} {g : Slice → α → Slice} (h : ∀ x a, (g x a).kept = x.kept) (l : List α) (x : Slice) :
    (l.foldl g x).kept = x.kept := by
  induction l generalizing x with
  | nil => rfl
  | cons a l ih => rw [List.foldl_cons, ih, h]

section
variable (s : State) (c : Fin 4)

@[simp] theorem timed_modQ (q : Fin 256) (f : Queue → Queue) : (s.modQ q f).timed = s.timed := rfl
@[simp] theorem timed_modSch (d : Fin 4) (f : Sched → Sched) : (s.modSch d f).timed = s.timed := rfl
@[simp] theorem timed_trk (k : Trk) : ({ s with trk := k } : State).timed = s.timed := rfl
@[simp] theorem timed_pwr (k : Pwr) : ({ s with pwr := k } : State).timed = s.timed := rfl
@[simp] theorem timed_release (i n : Nat) : (s.release i n).timed = s.timed := rfl
@[simp] theorem timed_releaseAll (i : Nat) : (s.releaseAll i).timed = s.timed := rfl

@[simp] theorem stage_timed (q : Fin 256) (r : Record) : (s.stage q r).timed = s.timed :=
  timed_of_offRecord (stage_offRecord ..)

@[simp] theorem gap_timed (q : Fin 256) (cause lost : Nat) (es : List SrcCount) (ts : Nat) :
    (s.gap q cause lost es ts).timed = s.timed := timed_of_offRecord (gap_offRecord ..)

@[simp] theorem complete_timed (k : CmdRef) (status : Nat) (result : List Byte) :
    (s.complete k status result).timed = s.timed := timed_of_offRecord (complete_offRecord ..)

@[simp] theorem lockDone_timed (k : Option CmdRef) (status : Nat) (result : List Byte) :
    (s.lockDone k status result).timed = s.timed := timed_of_offRecord (lockDone_offRecord ..)

@[simp] theorem schedRecord_timed (d : Fin 4) (f : Option Forme) (e : SchedEntry) (outcome code ts : Nat) :
    (s.schedRecord d f e outcome code ts).timed = s.timed := timed_of_offRecord (schedRecord_offRecord ..)

@[simp] theorem fault_timed (i : FaultInfo) : (s.fault i).timed = s.timed :=
  timed_of (fault_real ..) (congrArg Tbm.time (fault_tbm ..)) fun _ => congrArg Slice.kept (fault_sl ..)

@[simp] theorem modAfe_timed (f : Afe → Afe) : (s.modAfe c f).timed = s.timed := timed_modSl s c fun _ => rfl
@[simp] theorem modSai_timed (f : Sai → Sai) : (s.modSai c f).timed = s.timed := timed_modSl s c fun _ => rfl
@[simp] theorem modTx_timed (f : Tx → Tx) : (s.modTx c f).timed = s.timed := timed_modSl s c fun _ => rfl

@[simp] theorem modCtx_timed (k : Nat) (f : Ctx → Ctx) : (s.modSl c (fun x => x.modCtx k f)).timed = s.timed :=
  timed_modSl s c fun _ => rfl

@[simp] theorem modTun_timed (n : Nat) (f : Tuning → Tuning) :
    (s.modSl c (fun x => x.modTun n f)).timed = s.timed :=
  timed_modSl s c fun _ => rfl

@[simp] theorem modInst_timed (n : Nat) (f : Inst → Inst) : (s.modSl c (fun x => x.modInst n f)).timed = s.timed :=
  timed_modSl s c fun _ => rfl

@[simp] theorem modAf_timed (n : Nat) (f : Af → Af) : (s.modSl c (fun x => x.modAf n f)).timed = s.timed :=
  timed_modSl s c fun _ => rfl

@[simp] theorem stopCand_timed (n : Nat) : (s.modSl c (fun x => x.stopCand n)).timed = s.timed :=
  timed_modSl s c fun _ => rfl

@[simp] theorem modAfOf_timed (n : Fin 48) (f : Af → Af) : (s.modAfOf c n f).timed = s.timed := modAf_timed ..

@[simp] theorem modAlert_timed (k : Fin 256) (f : AlertState → AlertState) : (s.modAlert c k f).timed = s.timed :=
  modCtx_timed ..

@[simp] theorem setArea_timed (a : Staged2) : (s.setArea c a).timed = s.timed := timed_modSl s c fun _ => rfl

theorem modDemod_timed (r : InstRef) (f : Inst → Inst) : (s.modSl c (fun x => x.modDemod r f)).timed = s.timed :=
  timed_modSl s c fun _ => by cases r <;> rfl

@[simp] theorem modAcquirer_timed (r : InstRef) (f : Acq → Acq) : (s.modAcquirer c r f).timed = s.timed :=
  timed_modSl s c fun _ => by cases r <;> rfl

/-! ### Records of a context -/

@[simp] theorem stageSeq_timed (q : Fin 256) (r : Record) : (s.stageSeq q r).1.timed = s.timed := by
  unfold State.stageSeq
  split <;> simp

@[simp] theorem stageSpec_timed (n : Nat) (q : Fin 256) (r : Record) : (s.stageSpec c n q r).1.timed = s.timed := by
  unfold State.stageSpec
  dsimp only
  split <;> simp

@[simp] theorem ctxStage_timed (k : Fin 256) (r : Record) : (s.ctxStage c k r).1.timed = s.timed := by
  unfold State.ctxStage
  dsimp only
  split <;> simp

@[simp] theorem serviceData_timed (k : Fin 256) (m : Message) (data : List Byte) :
    (s.serviceData c k m data).timed = s.timed := by simp [State.serviceData]

@[simp] theorem verdictRecord_timed (k : Fin 256) (e : Envelope) (code : Nat) :
    (s.verdictRecord c k e code).timed = s.timed := by simp [State.verdictRecord]

@[simp] theorem alertRecord_timed (k : Fin 256) (m : Message) (kind state level route ident group : Nat) :
    (s.alertRecord c k m kind state level route ident group).timed = s.timed := by simp [State.alertRecord]

@[simp] theorem defer_timed (k : Fin 256) (d : Deferred) :
    (s.defer c k d).timed = s.timed := timed_modSl s c fun _ => rfl

/-! ### Alerts, times and rules -/

@[simp] theorem reroute_timed : (s.reroute c).timed = s.timed := by
  unfold State.reroute
  dsimp only
  split
  · rfl
  · split <;> simp

@[simp] theorem alertStart_timed (k : Fin 256) (m : Message) (kind level ident group cluster : Nat) :
    (s.alertStart c k m kind level ident group cluster).timed = s.timed := by simp [State.alertStart]

@[simp] theorem alertEnd_timed (k : Fin 256) (m : Message) (kind level ident group : Nat) :
    (s.alertEnd c k m kind level ident group).timed = s.timed := by simp [State.alertEnd]

@[simp] theorem controlAlert_timed (k : Fin 256) (m : Message) (code group ident : Nat) :
    (s.controlAlert c k m code group ident).timed = s.timed := by simp [State.controlAlert]

@[simp] theorem timeValue_timed (k : Fin 256) (m : Message) (kind timeTb airTb resMs : Nat) :
    (s.timeValue c k m kind timeTb airTb resMs).timed = s.timed := by simp [State.timeValue]

@[simp] theorem timeFinal_timed (k : Fin 256) (m : Message) (kind : Byte) (v : TimeValue) (airTb resMs : Nat) :
    (s.timeFinal c k m kind v airTb resMs).timed = s.timed := by simp [State.timeFinal]

@[simp] theorem rejectEntry_timed (f : Option Forme) (e : SchedEntry) (code : Nat) :
    (s.rejectEntry c f e code).timed = s.timed := by simp [State.rejectEntry]

@[simp] theorem addEntry_timed (f : Option Forme) (e : SchedEntry) : (s.addEntry c f e).timed = s.timed := by
  unfold State.addEntry
  dsimp only
  split
  · simp
  · split
    · simp
    · simp

@[simp] theorem applyRules_timed (k : Fin 256) (auth : Bool) (cls code group at_ : Nat) (msgId : Word) (msgTs : Nat) :
    (s.applyRules c k auth cls code group at_ msgId msgTs).timed = s.timed := by
  unfold State.applyRules
  dsimp only
  split
  · rfl
  · exact timed_foldl (fun t r => by simp) _ s

@[simp] theorem nativeAlert_timed (k : Fin 256) (m : Message) (kind code ident cluster : Nat) :
    (s.nativeAlert c k m kind code ident cluster).timed = s.timed := by
  simp [State.nativeAlert, State.nativeRules]

/-! ### Messages and envelopes -/

@[simp] theorem msgOk_timed (k : Fin 256) : (s.msgOk c k).timed = s.timed := modCtx_timed ..
@[simp] theorem msgFail_timed (k : Fin 256) : (s.msgFail c k).timed = s.timed := modCtx_timed ..
@[simp] theorem takeMsgId_timed (k : Fin 256) : (s.takeMsgId c k).2.timed = s.timed := modCtx_timed ..
@[simp] theorem setEnv_timed (k : Fin 256) (e : Envelope) : (s.setEnv c k e).timed = s.timed := modCtx_timed ..
@[simp] theorem setOda_timed (k : Fin 256) (o : Option OdaOpen) :
    (s.setOda c k o).timed = s.timed := modCtx_timed ..
@[simp] theorem setApd_timed (k : Fin 256) (a : ApdParse) : (s.setApd c k a).timed = s.timed := modCtx_timed ..

@[simp] theorem finalMessage_timed (k : Fin 256) (m : Message) : (s.finalMessage c k m).timed = s.timed := by
  simp [State.finalMessage]

@[simp] theorem messageFinal_timed (k : Fin 256) (m : Message) : (s.messageFinal c k m).timed = s.timed := by
  simp [State.messageFinal]

@[simp] theorem countVerdict_timed (k : Fin 256) (code : Nat) : (s.countVerdict c k code).timed = s.timed := by
  have hm : (s.modSl c (fun x => { x with mac := x.mac.countVerdict code })).timed = s.timed :=
    timed_modSl s c fun _ => rfl
  simp [State.countVerdict, hm]

@[simp] theorem fixVerdict_timed (k : Fin 256) (e : Envelope) (code : Nat) :
    (s.fixVerdict c k e code).timed = s.timed := by simp [State.fixVerdict]

@[simp] theorem checkHeader_timed (k : Fin 256) (e : Envelope) : (s.checkHeader c k e).timed = s.timed := by
  unfold State.checkHeader
  split
  · rfl
  · split <;> simp

@[simp] theorem checkLength_timed (k : Fin 256) (e : Envelope) : (s.checkLength c k e).timed = s.timed := by
  simp [State.checkLength]

@[simp] theorem proofData_timed (k : Fin 256) (e : Envelope) : (s.proofData c k e).timed = s.timed := by
  simp [State.proofData]

@[simp] theorem closeEnvelope_timed (k : Fin 256) (e : Envelope) (code : Nat) :
    (s.closeEnvelope c k e code).timed = s.timed := by simp [State.closeEnvelope]

theorem onFront_timed (k : Fin 256) {f : State → Envelope → State} (h : ∀ t e, (f t e).timed = t.timed) :
    (s.onFront c k f).timed = s.timed := by
  unfold State.onFront
  split
  · exact h ..
  · rfl

@[simp] theorem advance_timed (k : Fin 256) (n : Nat) : (State.advance c k n s).timed = s.timed := by
  induction n generalizing s with
  | zero => rfl
  | succ n ih =>
    have checks (u : State) : (((u.onFront c k (fun s e => s.checkHeader c k e)).onFront c k
        (fun s e => s.proofData c k e)).onFront c k (fun s e => s.checkLength c k e)).timed = u.timed := by
      rw [onFront_timed _ c k (checkLength_timed · c k), onFront_timed _ c k (proofData_timed · c k),
        onFront_timed _ c k (checkHeader_timed · c k)]
    unfold State.advance
    dsimp only
    split
    · exact checks s
    · split
      · simp [ih, checks]
      · exact checks s

@[simp] theorem settle_timed (k : Fin 256) : (s.settle c k).timed = s.timed := advance_timed ..

@[simp] theorem envEnd_timed (k : Fin 256) (failed : Bool) : (s.envEnd c k failed).timed = s.timed := by
  simp [State.envEnd]

@[simp] theorem envOpen_timed (k : Fin 256) (ts sub : Nat) (tuning : Fin 32) (freq ident : Nat) :
    (s.envOpen c k ts sub tuning freq ident).timed = s.timed := by simp [State.envOpen]

@[simp] theorem envAdd_timed (k : Fin 256) (bs : List Byte) (unitTs : Nat) (tuning : Fin 32) (freq ident : Nat)
    (corrected : Bool) : (s.envAdd c k bs unitTs tuning freq ident corrected).timed = s.timed := by
  simp [State.envAdd]

@[simp] theorem envBytes_timed (k : Fin 256) (src : UnitSrc) (start ts sub : Nat) (corrected : Bool) (bs : List Byte) :
    (s.envBytes c k src start ts sub corrected bs).timed = s.timed := by simp [State.envBytes]

@[simp] theorem envCut_timed (k : Fin 256) (code : Nat) : (s.envCut c k code).timed = s.timed := by
  unfold State.envCut
  dsimp only
  rw [timed_foldl (fun t e => ?cut), modCtx_timed]
  case cut => simp

@[simp] theorem plainMessage_timed (k : Fin 256) (src : UnitSrc) (ts sub : Nat) (corrected : Bool)
    (data content : List Byte) :
    (s.plainMessage c k src ts sub corrected data content).timed = s.timed := by simp [State.plainMessage]

@[simp] theorem wholeMessage_timed (k : Fin 256) (src : UnitSrc) (ts sub : Nat) (corrected : Bool)
    (data content : List Byte) :
    (s.wholeMessage c k src ts sub corrected data content).timed = s.timed := by simp [State.wholeMessage]

@[simp] theorem brokenMessage_timed (k : Fin 256) : (s.brokenMessage c k).timed = s.timed := by
  simp [State.brokenMessage]

/-! ### Parsers -/

@[simp] theorem feedGroups_timed (k : Fin 256) (src : UnitSrc) (ts sub n : Nat)
    (groups : List (Nat × Bool × List Byte)) :
    (s.feedGroups c k src ts sub n groups).timed = s.timed := timed_foldl (fun t g => by simp) _ s

@[simp] theorem figAlarm_timed (k : Fin 256) (src : UnitSrc) (ts cluster : Nat) (flag : Bool) :
    (s.figAlarm c k src ts cluster flag).timed = s.timed := by simp [State.figAlarm]

@[simp] theorem feedFib_timed (k : Fin 256) (src : UnitSrc) (figs : List (List Byte)) (ts : Nat) (r : Reads) :
    (s.feedFib c k src figs ts r).timed = s.timed := by
  have hfigs (t : State) (sel : Nat) : (figs.foldl (fun t fig =>
      if sel.testBit (u8 fig 0 / 32) then t.plainMessage c k src ts 0 false fig fig else t) t).timed = t.timed :=
    timed_foldl (fun t fig => by simp) _ t
  have halarms (t : State) : (r.alarms.foldl (fun t a => t.figAlarm c k src ts a.1 a.2) t).timed = t.timed :=
    timed_foldl (fun t a => by simp) _ t
  unfold State.feedFib
  dsimp only
  split
  · exact hfigs ..
  · split <;> simp [hfigs, halarms]

@[simp] theorem feedDrmBlock_timed (k : Fin 256) (src : UnitSrc) (sdc : Bool) (block : List Byte) (ts : Nat)
    (r : Reads) :
    (s.feedDrmBlock c k src sdc block ts r).timed = s.timed := by
  unfold State.feedDrmBlock
  split
  · rfl
  · dsimp only
    split <;> simp

@[simp] theorem badMinute_timed (k : Fin 256) : (s.badMinute c k).timed = s.timed := by simp [State.badMinute]

@[simp] theorem feedMinute_timed (k : Fin 256) (src : UnitSrc) (onTime ts : Nat) (ok : Bool) (r : Reads) :
    (s.feedMinute c k src onTime ts ok r).timed = s.timed := by
  unfold State.feedMinute
  split
  · simp
  · split <;> simp

@[simp] theorem dropOda_timed (k : Fin 256) : (s.dropOda c k).timed = s.timed := by simp [State.dropOda]

@[simp] theorem odaBytes_timed (k : Fin 256) (src : UnitSrc) (o : OdaOpen) (bs : List Byte) (ts : Nat)
    (corrected : Bool) (ctr : Nat) : (s.odaBytes c k src o bs ts corrected ctr).timed = s.timed := by
  simp [State.odaBytes]

@[simp] theorem odaSegment_timed (k : Fin 256) (src : UnitSrc) (sub : Nat) (g : RdsGroup) :
    (s.odaSegment c k src sub g).timed = s.timed := by
  unfold State.odaSegment
  dsimp only
  split
  · simp
  · split
    · simp
    · split <;> simp

@[simp] theorem groupOda_timed (k : Fin 256) (src : UnitSrc) (stream : Nat) (g : RdsGroup)
    (assign : Option (BitVec 16 × BitVec 5)) : (s.groupOda c k src stream g assign).timed = s.timed := by
  unfold State.groupOda
  dsimp only
  cases assign <;> simp

@[simp] theorem ptyStep_timed (k : Fin 256) (src : UnitSrc) (b : RdsBlock) :
    (s.ptyStep c k src b).timed = s.timed := by
  simp [State.ptyStep]

@[simp] theorem groupOne_timed (k : Fin 256) (src : UnitSrc) (g : RdsGroup) (time : Option TimeValue) :
    (s.groupOne c k src g time).timed = s.timed := by
  unfold State.groupOne
  cases time <;> simp

@[simp] theorem feedRds_timed (k : Fin 256) (src : UnitSrc) (stream pos : Nat) (b : RdsBlock) (r : Reads) :
    (s.feedRds c k src stream pos b r).timed = s.timed := by
  unfold State.feedRds
  dsimp only
  split <;> simp

@[simp] theorem apdEnd_timed (k : Fin 256) (src : UnitSrc) (bits : List Bool) (len start : Nat) :
    (s.apdEnd c k src bits len start).timed = s.timed := by simp [State.apdEnd]

@[simp] theorem apdBit_timed (k : Fin 256) (src : UnitSrc) (bits : List Bool) (start ts : Nat) :
    (s.apdBit c k src bits start ts).timed = s.timed := by simp [State.apdBit]

@[simp] theorem feedApd_timed (k : Fin 256) (src : UnitSrc) (b erased : Bool) (ts : Nat) :
    (s.feedApd c k src b erased ts).timed = s.timed := by
  unfold State.feedApd
  dsimp only
  split <;> simp

@[simp] theorem ldbJoin_timed (k : Fin 256) (src : UnitSrc) (o : LdbOpen) (h : DWord) (payload : List Byte) (ts : Nat) :
    (s.ldbJoin c k src o h payload ts).timed = s.timed := by simp [State.ldbJoin]

@[simp] theorem feedLdb_timed (k : Fin 256) (src : UnitSrc) (h : DWord) (payload : List Byte) (ts : Nat) :
    (s.feedLdb c k src h payload ts).timed = s.timed := by
  unfold State.feedLdb
  split
  · rfl
  · split <;> simp

@[simp] theorem feedContext_timed (k : Fin 256) (src : UnitSrc) (u : HeldUnit) :
    (s.feedContext c k src u).timed = s.timed := by
  unfold State.feedContext
  dsimp only
  split
  · simp
  · split <;> simp

@[simp] theorem feedInst_timed (n : Nat) (src : UnitSrc) (u : HeldUnit) : (s.feedInst c n src u).timed = s.timed :=
  timed_foldl (fun t k => by simp) _ s

/-- A parser that starts again. -/
@[simp] theorem resetParser_timed (k : Fin 256) : (s.resetParser c k).timed = s.timed := by simp [State.resetParser]

/-! ### AF processes -/

@[simp] theorem cutFeed_timed (n : Fin 48) :
    (s.cutFeed c n).timed = s.timed := timed_foldl (fun t k => by simp) _ s

@[simp] theorem setSpec_timed (n : Fin 48) (b : Bool) : (s.setSpec c n b).timed = s.timed :=
  timed_foldl (fun t k => by simp) _ s

@[simp] theorem restoreAlerts_timed (l : List (Fin 256 × AlertState)) : (s.restoreAlerts c l).timed = s.timed := by
  unfold State.restoreAlerts
  rw [reroute_timed]
  exact timed_foldl (fun t p => by simp) _ s

@[simp] theorem undoRecord_timed (n : Fin 48) (reason ts : Nat) (t : Fin 32) (q : Fin 256)
    (range : Option (Word × Word)) :
    (s.undoRecord c n reason ts t q range).timed = s.timed := stage_timed ..

@[simp] theorem releaseHeld_timed (n : Fin 48) : (s.releaseHeld c n).timed = s.timed := by
  unfold State.releaseHeld
  dsimp only
  rw [timed_foldl (fun t u => ?units), modAfOf_timed, timed_foldl (fun t d => ?gaps)]
  case units => simp
  case gaps => simp

end

/-! ### Candidates -/

@[simp] theorem startCand_kept (x : Slice) (f : Forme) (now tb n : Nat) (e : Nat × Nat) :
    (x.startCand f now tb n e).kept = x.kept := by
  unfold Slice.startCand
  dsimp only
  split
  · split <;> rfl
  · rfl

@[simp] theorem fillInst_kept (x : Slice) (f : Forme) (now tb n : Nat) (l : List (Nat × Nat)) :
    (x.fillInst f now tb n l).kept = x.kept := by
  unfold Slice.fillInst
  split
  · exact kept_foldl (fun y e => startCand_kept ..) _ x
  · rfl

@[simp] theorem fillAll_kept (x : Slice) (now tb : Nat) : (x.fillAll now tb).kept = x.kept := by
  unfold Slice.fillAll
  split
  · rfl
  · exact kept_foldl (fun y n => fillInst_kept ..) _ x

@[simp] theorem undoSpec_timed (s : State) (c : Fin 4) (n : Fin 48) (reason ts : Nat) :
    (s.undoSpec c n reason ts).timed = s.timed := by
  unfold State.undoSpec
  split
  · rfl
  · dsimp only
    rw [timed_modSl _ c (fun _ => fillAll_kept ..), releaseHeld_timed, modAfOf_timed, restoreAlerts_timed,
      setSpec_timed,
      timed_foldl (fun t p => ?undone), stopCand_timed, cutFeed_timed]
    case undone => simp

end Sys2Proof.Machine
end

section
/-! SUPPORT. Samples, bursts and the transmit path, and what a lock-up cuts (R74, R167), do not move the time of the
module nor the clock and the lifecycle of a slice. -/

namespace Sys2Proof.Machine

open Sys2Proof

section
variable (s : State) (c : Fin 4)

/-! ### Samples, audio and bursts -/

@[simp] theorem closeSamples_timed (t : Nat) : (s.closeSamples c t).timed = s.timed := by
  unfold State.closeSamples
  split <;> simp

theorem hear_kept (x : Slice) (f : Forme) (t ts : Nat) (w : DWord) : (x.hear f t ts w).kept = x.kept := by
  unfold Slice.hear
  dsimp only
  split
  · rfl
  · refine kept_foldl (fun y n => ?_) _ x
    rfl

@[simp] theorem readSample_timed (t ts : Nat) (w : DWord) (idx : Nat) :
    (s.readSample c t ts w idx).timed = s.timed := by
  unfold State.readSample
  split
  · rfl
  · next f _ =>
    have hhear (g : Slice → Tuning → Tuning) :
        (s.modSl c (fun x => (x.modTun t (g x)).hear f t ts w)).timed = s.timed :=
      timed_modSl s c fun x => hear_kept ..
    dsimp only
    split
    · exact hhear _
    · simp only [timed_ite, closeSamples_timed, modTun_timed, hhear, ite_self]

@[simp] theorem releaseFresh_timed (t upto : Nat) : (s.releaseFresh c t upto).timed = s.timed := by
  unfold State.releaseFresh
  dsimp only
  have hread (l : List (Nat × DWord)) : ∀ a : State × Nat, (l.foldl (fun (a : State × Nat) (p : Nat × DWord) =>
      (a.1.readSample c t p.1 p.2 a.2, a.2 + 1)) a).1.timed = a.1.timed := by
    induction l with
    | nil => exact fun _ => rfl
    | cons p l ih => exact fun a => (ih _).trans (readSample_timed ..)
  rw [hread, modTun_timed]

@[simp] theorem releaseClosing_timed (t upto : Nat) : (s.releaseClosing c t upto).timed = s.timed := by
  unfold State.releaseClosing
  dsimp only
  rw [timed_foldl (fun z k => ?closing), modTun_timed]
  case closing => exact stage_timed ..

@[simp] theorem endSamples_timed (t : Nat) : (s.endSamples c t).timed = s.timed := by simp [State.endSamples]

@[simp] theorem closeAudio_timed (n : Nat) : (s.closeAudio c n).timed = s.timed := by
  unfold State.closeAudio
  split <;> simp

@[simp] theorem closeCapture_timed : (s.closeCapture c).timed = s.timed := by
  unfold State.closeCapture
  split <;> simp

@[simp] theorem captureGap_timed (p : List Byte) (resume : Nat) : (s.captureGap c p resume).timed = s.timed := by
  simp [State.captureGap]

@[simp] theorem endCapture_timed : (s.endCapture c).timed = s.timed := by
  unfold State.endCapture
  dsimp only
  split <;> simp

@[simp] theorem burstRecord_timed (r : InstRef) (b : Burst) (outcome cause snr : Nat) (rise : Int) (done : Nat) :
    (s.burstRecord c r b outcome cause snr rise done).timed = s.timed := by simp [State.burstRecord]

@[simp] theorem burstFail_timed (r : InstRef) : (s.burstFail c r).timed = s.timed := modDemod_timed ..

@[simp] theorem abortOne_timed (r : InstRef) (b : Burst) (cause : Nat) :
    (s.abortOne c r b cause).timed = s.timed := by
  simp [State.abortOne]

@[simp] theorem abortBurst_timed (r : InstRef) (cause : Nat) : (s.abortBurst c r cause).timed = s.timed := by
  have htails (l : List Burst) : (l.foldl (fun t b => t.abortOne c r b cause) s).timed = s.timed :=
    timed_foldl (fun t b => abortOne_timed ..) l s
  unfold State.abortBurst
  dsimp only
  split
  · rfl
  · split <;> simp [htails]

/-! ### Elements that fail -/

@[simp] theorem leftTrack_timed (r : InstRef) : (s.leftTrack c r).timed = s.timed := by
  unfold State.leftTrack
  split
  · dsimp only
    rw [modAfOf_timed]
    exact timed_foldl (fun t k => by simp) _ s
  · split
    · simp
    · rfl

/-! ### The transmit path and power -/

@[simp] theorem openWindows_timed : (s.openWindows c).timed = s.timed := modTx_timed ..

@[simp] theorem txReport_timed (k : TxCmd) (status : Nat) : (s.txReport c k status).timed = s.timed := by
  simp [State.txReport]

@[simp] theorem endTx_timed (status : Nat) : (s.endTx c status).timed = s.timed := by
  unfold State.endTx
  split <;> simp

@[simp] theorem keepGrant_timed : (s.keepGrant c).timed = s.timed := by
  simp [State.keepGrant]

/-! ### Records, commands and sources -/

@[simp] theorem closeBuf_timed (q : Fin 256) (early : Bool) : (s.closeBuf q early).timed = s.timed :=
  timed_of_offRecord (closeBuf_offRecord ..)

@[simp] theorem cancelEntries_timed (d : Fin 4) (f keeps : Option Forme) (now : Nat) (p : Nat → Bool) :
    (s.cancelEntries d f keeps now p).timed = s.timed := timed_of_offRecord (cancelEntries_offRecord ..)

@[simp] theorem setClaim_timed (d : Fin 4) (claim : Nat) : (s.setClaim d claim).timed = s.timed :=
  timed_of_offRecord (setClaim_offRecord ..)

@[simp] theorem finish_timed (cmd : Command) (status : Nat) (result : List Byte) :
    (s.finish cmd status result).timed = s.timed := timed_of_offRecord (finish_offRecord ..)

/-! ### Queues -/

@[simp] theorem recordDone_timed (q : Fin 256) (e : Staged) : (s.recordDone q e).timed = s.timed := by
  simp [State.recordDone]

/-- Bytes that move to the host leave the slices alone. -/
@[simp] theorem moveBytes_timed (q : Fin 256) (n : Nat) : (s.moveBytes q n).timed = s.timed := by
  unfold State.moveBytes
  split
  · rfl
  · dsimp only
    split
    · exact recordDone_timed ..
    · rfl

@[simp] theorem stopQueue_timed (f : Forme) (q : Fin 256) (key : Nat) : (s.stopQueue f q key).timed = s.timed := by
  unfold State.stopQueue
  cases (s.qu q).xfer <;> cases f.find 7 key <;> simp

/-! ### Samples and instances -/

theorem stopCands_kept (x : Slice) (n : Nat) (keep : Nat → Nat → Bool) : (x.stopCands n keep).kept = x.kept := by
  refine kept_foldl (fun y t => ?_) _ x
  split
  · split <;> rfl
  · rfl

@[simp] theorem stopCands_timed (n : Nat) (keep : Nat → Nat → Bool) :
    (s.modSl c (fun x => x.stopCands n keep)).timed = s.timed := timed_modSl s c fun _ => stopCands_kept ..

@[simp] theorem closeLater_timed (t upto : Nat) : (s.closeLater c t upto).timed = s.timed := by
  unfold State.closeLater
  dsimp only
  split
  · simp
  · split <;> simp

@[simp] theorem cutAf_timed (f : Forme) (places : List (Nat × Nat)) (d : Delta) (now n : Nat) :
    (s.cutAf c f places d now n).timed = s.timed := by
  simp [State.cutAf]

@[simp] theorem cutInst_timed (n : Nat) : (s.cutInst c n).timed = s.timed := by
  simp [State.cutInst]

@[simp] theorem cutCtx_timed (k : Nat) : (s.cutCtx c k).timed = s.timed := by
  simp [State.cutCtx]

/-! ### Calibration -/

@[simp] theorem calCommands_timed (kind status : Nat) : (s.calCommands c kind status).timed = s.timed := by
  unfold State.calCommands
  dsimp only
  rw [timed_foldl (fun t k => complete_timed ..), modAfe_timed]

@[simp] theorem calFinish_timed (kind origin status start stop freq : Nat) (early notStored : Bool) (v : List Int) :
    (s.calFinish c kind origin status start stop freq early notStored v).timed = s.timed := by
  have hvco (u : State) : (u.modSl c (fun x => { x with tx := x.tx.afterVco })).timed = u.timed := modTx_timed ..
  simp [State.calFinish, hvco]

@[simp] theorem calCut_timed (status : Nat) : (s.calCut c status).timed = s.timed := by
  unfold State.calCut
  split
  · exact calFinish_timed ..
  · rfl

/-- What the instant cuts leaves of the time and the lifecycle of the slice (R74). -/
@[simp] theorem cutOld_timed (f : Forme) (places : List (Nat × Nat)) (d : Delta) (now : Nat) :
    (s.cutOld c f places d now).timed = s.timed := by
  unfold State.cutOld
  dsimp only
  rw [timed_foldl (fun t q => stopQueue_timed ..)]
  simp only [timed_ite, calCut_timed, endCapture_timed, cancelEntries_timed,
    timed_foldl (fun t n => closeAudio_timed t c n), timed_foldl (fun t k => cutCtx_timed t c k),
    timed_foldl (fun t n => cutInst_timed t c n), ite_self]
  rw [timed_foldl (fun t n => ?samples), timed_foldl (fun t n => cutAf_timed ..)]
  case samples =>
    split <;> simp

@[simp] theorem dropBursts_timed : (s.dropBursts c).timed = s.timed := by
  refine timed_foldl (fun t i => ?_) _ s
  dsimp only
  split
  · split <;> simp
  · rfl

end

end Sys2Proof.Machine
end

section
/-! SUPPORT. The loss of a slice's sampling clock and its return (R104 to R106, R167, R222), as far as the time of the
module and the lifecycle of the slice go. -/

namespace Sys2Proof.Machine

open Sys2Proof

section
variable (s : State) (c : Fin 4)

/-! ### AF processes that return to their primary frequency (R222) -/

@[simp] theorem afEvent_timed (n : Fin 48) (kind method cand fromHz toHz qual : Nat) :
    (s.afEvent c n kind method cand fromHz toHz qual).timed = s.timed := by
  unfold State.afEvent
  dsimp only
  rw [modAf_timed]
  split <;> simp

@[simp] theorem retune_timed (n : Fin 48) (hz : Nat) : (s.retune c n hz).timed = s.timed := timed_modSl s c fun _ => rfl

@[simp] theorem tryEntry_timed (n : Fin 48) (e : Nat × Nat) : (s.tryEntry c n e).timed = s.timed := by
  simp [State.tryEntry]

@[simp] theorem goHome_timed (n : Fin 48) : (s.goHome c n).timed = s.timed := by simp [State.goHome]

@[simp] theorem failCheck_timed (n : Fin 48) (stop : Bool) : (s.failCheck c n stop).timed = s.timed := by
  unfold State.failCheck
  dsimp only
  split
  · simp
  · simp

/-! ### The transmit path -/

@[simp] theorem modCmd_timed (f : TxCmd → TxCmd) : (s.modCmd c f).timed = s.timed := modTx_timed ..

@[simp] theorem txCheck_timed : (s.txCheck c).timed = s.timed := by
  unfold State.txCheck
  dsimp only
  split
  · rfl
  · simp [State.beginKeyup]

@[simp] theorem txRelease_timed (status now : Nat) : (s.txRelease c status now).timed = s.timed := by
  unfold State.txRelease
  split
  · rfl
  · dsimp only
    split <;> simp

@[simp] theorem abortAgain_timed (status : Nat) : (s.abortAgain c status).timed = s.timed := modCmd_timed ..

@[simp] theorem rampOut_timed (now r : Nat) : (s.rampOut c now r).timed = s.timed := by
  unfold State.rampOut
  split <;> rfl

@[simp] theorem abbreviate_timed (status : Nat) : (s.abbreviate c status).timed = s.timed := by
  simp [State.abbreviate]

@[simp] theorem txAbort_timed (status : Nat) : (s.txAbort c status).timed = s.timed := by
  unfold State.txAbort
  split
  · rfl
  · split <;> simp

@[simp] theorem txClockLoss_timed : (s.txClockLoss c).timed = s.timed := by
  unfold State.txClockLoss
  dsimp only
  split
  · simp
  · exact modTx_timed ..

@[simp] theorem txRelock_timed : (s.txRelock c).timed = s.timed := modTx_timed ..

/-! ### COAST (R104, R167) -/

@[simp] theorem coastAf_timed (n : Fin 48) : (s.coastAf c n).timed = s.timed := by
  unfold State.coastAf
  split <;> simp

@[simp] theorem coastInst_timed (r : InstRef) : (s.coastInst c r).timed = s.timed := by
  have hhold (u : State) (real : Nat) :
      (u.modSl c (fun x => x.modDemod r (fun i => i.coast (x.refRec r) real))).timed = u.timed :=
    timed_modSl u c fun _ => by cases r <;> rfl
  simp [State.coastInst, hhold]

@[simp] theorem coastChains_timed : (s.coastChains c).timed = s.timed := by
  unfold State.coastChains
  dsimp only
  rw [timed_foldl (fun t n => endSamples_timed t c n)]
  exact timed_modSl s c fun _ => rfl

/-- What follows the declaration of a lock loss. -/
theorem loseClock_timed : (s.loseClock c).timed =
    ((s.coastChains c).modSl c (fun x => { x with clk := x.clk.lose s.tb s.real })).timed := by
  have hafe (u : State) (g : Slice → Afe) :
      (u.modSl c (fun x => { x with clk := x.clk.lose s.tb s.real, afe := g x })).timed =
        (u.modSl c (fun x => { x with clk := x.clk.lose s.tb s.real })).timed := by
    refine timed_of rfl rfl fun d => ?_
    by_cases hd : d = c
    · rw [hd, State.sl_modSl, State.sl_modSl]
      rfl
    · rw [State.sl_modSl_ne _ _ hd, State.sl_modSl_ne _ _ hd]
  simp only [State.loseClock, State.clockFault, fault_timed, dropTiming_timed, txClockLoss_timed, calCut_timed]
  rw [timed_foldl (fun t r => coastInst_timed t c r), timed_foldl (fun t n => coastAf_timed t c _)]
  exact hafe _ _

/-! ### The gap and the return (R106, R107) -/

@[simp] theorem sampleGap_timed (f : Forme) (t n : Nat) : (s.sampleGap c f t n).timed = s.timed := by
  unfold State.sampleGap
  dsimp only
  split
  · rfl
  · simp

@[simp] theorem audioGap_timed (f : Forme) (t n : Nat) : (s.audioGap c f t n).timed = s.timed := by
  unfold State.audioGap
  dsimp only
  split
  · rfl
  · simp

end

theorem applyReset_kept (x : Slice) (f : Forme) (t at_ : Nat) (edge : Bool) :
    (x.applyReset f t at_ edge).kept = x.kept := by
  have hswap (y : Slice) (b : Bool) : (y.execSwap f t b).kept = y.kept := by
    unfold Slice.execSwap
    dsimp only
    split <;> rfl
  unfold Slice.applyReset
  dsimp only
  split
  · exact hswap ..
  · rfl

theorem armReset_kept (x : Slice) (f : Forme) (t at_ : Nat) (edge : Bool) :
    (x.armReset f t at_ edge).kept = x.kept := by
  unfold Slice.armReset
  dsimp only
  split
  · rfl
  · exact applyReset_kept ..

theorem rejoin_kept (x : Slice) (at_ real : Nat) : (x.rejoin at_ real).kept = x.kept := by
  unfold Slice.rejoin
  dsimp only
  split
  · rfl
  · exact (kept_foldl (fun y t => armReset_kept ..) _ _).trans rfl

theorem register_kept (x : Slice) (at_ : Nat) : (x.register at_).kept = x.kept := by
  unfold Slice.register
  split
  · rfl
  · exact kept_foldl (fun y t => armReset_kept ..) _ x

end Sys2Proof.Machine
end

section
/-! SUPPORT. Lock-ups (R74, R84), and the steps of TB that skip them (R102): the time of the module and the clocks of
the slices stand, whatever forme takes effect. -/

namespace Sys2Proof.Machine

open Sys2Proof

/-- The time of the module, with the clocks of its slices. -/
def State.clocked (s : State) : Nat × (Nat × List (Nat × Int) × Bool × Nat × Bool) × (Fin 4 → Clk) :=
  (s.real, s.tbm.time, fun d => (s.sl d).clk.offCtrl)

section
variable {s t : State} (h : t.clocked = s.clocked)
include h

theorem real_of_clocked : t.real = s.real := congrArg Prod.fst h
theorem time_of_clocked : t.tbm.time = s.tbm.time := congrArg (fun p => p.2.1) h
theorem clk_of_clocked (d : Fin 4) : (t.sl d).clk.offCtrl = (s.sl d).clk.offCtrl := congrArg (fun p => p.2.2 d) h

end

theorem clk_of_kept {x y : Slice} (h : x.kept = y.kept) : x.clk.offCtrl = y.clk.offCtrl := congrArg Prod.fst h

theorem clocked_of_timed {s t : State} (h : t.timed = s.timed) : t.clocked = s.clocked :=
  Prod.ext (real_of_timed h) (Prod.ext (time_of_timed h) (funext fun d => clk_of_timed h d))

@[simp] theorem clocked_ite {p : Prop} [Decidable p] (a b : State) :
    (if p then a else b).clocked = if p then a.clocked else b.clocked := apply_ite ..

theorem clocked_foldl {α : Type} {g : State → α → State} (h : ∀ t a, (g t a).clocked = t.clocked) (l : List α)
    (s : State) : (l.foldl g s).clocked = s.clocked := by
  induction l generalizing s with
  | nil => rfl
  | cons a l ih => rw [List.foldl_cons, ih, h]

section
variable (s : State) (c : Fin 4)

/-- A change of a slice that keeps its clock but for the control value. -/
theorem clocked_modSl {f : Slice → Slice} (h : ∀ x, (f x).clk.offCtrl = x.clk.offCtrl) :
    (s.modSl c f).clocked = s.clocked := by
  refine Prod.ext rfl (Prod.ext rfl (funext fun d => ?_))
  by_cases hd : d = c
  · exact hd ▸ (congrArg (fun x : Slice => x.clk.offCtrl) (State.sl_modSl ..)).trans (h _)
  · exact congrArg (fun x : Slice => x.clk.offCtrl) (State.sl_modSl_ne _ _ hd)

/-! ### Lock-ups (R72, R74, R84) -/

theorem dropCands_kept (x : Slice) (f : Forme) : (x.dropCands f).kept = x.kept := by
  refine kept_foldl (fun y t => ?_) _ x
  split
  · split <;> rfl
  · rfl

theorem bringService_kept (x : Slice) (old : Option Forme) (was : Vector Inst 48) (f : Forme) (d : Delta)
    (now real : Nat) : (x.bringService old was f d now real).kept = x.kept := by
  unfold Slice.bringService
  dsimp only
  rw [dropCands_kept]
  rfl

/-- A forme that is brought into force leaves the clock of the slice. -/
theorem bring_clk (x : Slice) (old : Option Forme) (was : Vector Inst 48) (f : Forme) (places : List (Nat × Nat))
    (d : Delta) (now real : Nat) :
    (((x.bringForme f places).bringChain f d now real).bringService old was f d now real).clk.offCtrl = x.clk.offCtrl :=
  (clk_of_kept (bringService_kept ..)).trans rfl

@[simp] theorem commitForme_clocked (f : Forme) (places : List (Nat × Nat)) (now : Nat) :
    (s.commitForme c f places now).clocked = s.clocked := by
  have hfill (u : State) : (u.modSl c (fun x => x.fillAll s.real now)).timed = u.timed :=
    timed_modSl u c fun _ => fillAll_kept ..
  let d := (s.sl c).delta f places
  let s1 := s.cutOld c f places d now
  let s2 := s1.modSl c (fun x => ((x.bringForme f places).bringChain f d now s.real).bringService
    (s.sl c).inForce (s1.sl c).inst f d now s.real)
  have hafter : (s.commitForme c f places now).timed = s2.timed := by
    unfold State.commitForme
    simp only [timed_ite, timed_release, hfill, ite_self, dropBursts_timed, reroute_timed, recheckOffers_timed,
      setClaim_timed, s2, s1, d]
  calc (s.commitForme c f places now).clocked
    _ = s2.clocked := clocked_of_timed hafter
    _ = s1.clocked := clocked_modSl s1 c fun x => bring_clk ..
    _ = s.clocked := clocked_of_timed (cutOld_timed ..)

@[simp] theorem lockStaged_clocked (f : Forme) (base : Option Word) (cmd : Option CmdRef) (now : Nat) :
    (s.lockStaged c f base cmd now).clocked = s.clocked := by
  have hend (u : State) (a : Staged2) (status : Nat) (result : List Byte) :
      ((u.setArea c a).lockDone cmd status result).clocked = u.clocked := clocked_of_timed (by simp)
  unfold State.lockStaged
  split
  · exact (hend ..).trans (clocked_of_timed (keepGrant_timed ..))
  · exact (hend ..).trans (clocked_of_timed (keepGrant_timed ..))
  · exact (hend ..).trans (commitForme_clocked ..)

theorem dropRules_timed : (s.dropRules c).timed = s.timed := timed_of_offRecord (dropRules_offRecord ..)

@[simp] theorem lockBoot_clocked (now : Nat) : (s.lockBoot c now).clocked = s.clocked := by
  unfold State.lockBoot
  extract_lets x idle go
  have hidle (u : State) : (idle u).clocked = u.clocked :=
    (clocked_of_timed (dropRules_timed _ c)).trans (clocked_modSl u c fun _ => rfl)
  clear_value idle
  have hfault (status entry : Nat) : ((idle (s.bootFault c status entry)).keepGrant c).clocked = s.clocked :=
    (clocked_of_timed (keepGrant_timed ..)).trans ((hidle _).trans (clocked_of_timed (fault_timed ..)))
  have hgo (f : Forme) (entry : Nat) : (go s f entry).clocked = s.clocked := by
    simp only [go]
    split
    · exact hfault ..
    · exact hfault ..
    · exact commitForme_clocked ..
  clear_value go
  split
  · exact hgo ..
  · rfl
  · exact hgo ..
  · exact hidle s

@[simp] theorem lockNow_clocked (at_ now : Nat) : (s.lockNow c at_ now).clocked = s.clocked := by
  have hruns : (if at_ = 0 then s else s.runEntries c (at_ - 1)).clocked = s.clocked :=
    clocked_of_timed (timed_of_offRecord (by simp))
  unfold State.lockNow
  generalize (if at_ = 0 then s else s.runEntries c (at_ - 1)) = u at hruns ⊢
  refine Eq.trans ?_ hruns
  dsimp only
  split
  · exact lockBoot_clocked ..
  · split
    · exact lockStaged_clocked ..
    · rfl

/-! ### Registrations and steps (R102, R342) -/

@[simp] theorem register_timed (e : PendReg) (at_ : Nat) (late : Bool) : (s.register e at_ late).timed = s.timed := by
  have hslices : (s.modSlices (fun d x => if s.registers e d then x.register (at_ + 48) else x)).timed = s.timed :=
    timed_modSlices s fun d x => by
      split
      · exact register_kept ..
      · rfl
  unfold State.register
  dsimp only
  rw [stage_timed]
  exact hslices

theorem takeSkipped_clocked (p now : Nat) (k : Skipped) : (s.takeSkipped p now k).clocked = s.clocked := by
  have hentry (d : Fin 4) (e : SchedEntry) (due : Nat) (b : Bool) : (s.executeEntry d e due now b).timed = s.timed :=
    timed_of_offRecord (executeEntry_offRecord ..)
  cases k with
  | lockup d => exact lockNow_clocked ..
  | entry d e => exact clocked_of_timed (by simp [State.takeSkipped, hentry])
  | burst d => exact clocked_of_timed (txCheck_timed ..)
  | pulse pin => exact clocked_of_timed (timed_of_offRecord (endPulse_offRecord ..))
  | reg e => exact clocked_of_timed (by simp [State.takeSkipped])

theorem resolveEntries_timed : s.resolveEntries.timed = s.timed := by
  refine timed_foldl (fun t d => timed_foldl (fun u e => ?_) _ t) _ s
  split
  · rfl
  · split
    · rfl
    · simp

theorem skipRereg_time (p now : Nat) : (s.skipRereg p now).real = s.real ∧ (s.skipRereg p now).tbm = s.tbm :=
  ⟨rfl, rfl⟩

/-- What a step skips leaves the real time, TB, its history and its origin as the jump left them. -/
theorem doStep_time (k : PendStep) : (s.doStep k).real = s.real + 1
    ∧ (s.doStep k).tbm.time = (s.tbm.jump k.point k.amount k.kind).time := by
  unfold State.doStep
  extract_lets now s1 s2 s3 s4
  have h2 : s2.timed = s1.timed := stage_timed ..
  have h3 : s3.timed = s1.timed := by
    simp only [s3, timed_ite, resolveEntries_timed, h2, ite_self]
  have h4 : s4.clocked = s1.clocked :=
    (clocked_foldl (fun t q => takeSkipped_clocked ..) _ s3).trans (clocked_of_timed h3)
  have hpulses (u : State) (l : List (Fin 8)) (t : Nat) :
      (l.foldl (fun v pin => v.endPulse pin t) u).clocked = u.clocked :=
    clocked_of_timed (timed_of_offRecord (offRecord_foldl (fun v pin => endPulse_offRecord ..) l u))
  have h5 := (hpulses s4 [0, 1, 2, 3, 4, 5, 6, 7] (now - 1)).trans h4
  obtain ⟨hreal, htbm⟩ := skipRereg_time (([0, 1, 2, 3, 4, 5, 6, 7] : List (Fin 8)).foldl (fun v pin =>
    v.endPulse pin (now - 1)) s4) k.point now
  rw [hreal, htbm]
  exact ⟨real_of_clocked h5, time_of_clocked h5⟩

end

end Sys2Proof.Machine
end

section
/-! SUPPORT. Steps and holds of TB at their registration points (R89, R100, R101). -/

namespace Sys2Proof.Machine

open Sys2Proof

/-! ### Steps -/

theorem exec_tbStep (s : State) : exec .tbStep s = run s (fun s =>
    match s.tbm.step with
    | some k => if k.point = s.tb ∧ k.kind ≠ 2 then s.doStep k else s
    | none => s) := rfl

theorem exec_originChange (s : State) : exec .originChange s = run s (fun s =>
    match s.tbm.step with
    | some k => if k.point = s.tb ∧ k.kind = 2 then s.doStep k else s
    | none => s) := rfl

/-- The state in which step `k` of state `s` has taken place: the tick after its point. -/
def State.steppedBy (s : State) (k : PendStep) (t : State) : Prop :=
  t.tbm.tb = k.point + k.amount + 1 ∧ t.real = s.real + 1 ∧ t.tbm.warps = s.tbm.warps ++ [(k.point, (k.amount : Int))]

/-- The parts of `Tbm.time`. -/
theorem time_parts {t u : Tbm} (h : t.time = u.time) : t.tb = u.tb ∧ t.warps = u.warps ∧ t.origin = u.origin
    ∧ t.originAt = u.originAt ∧ t.events.toNat.testBit 6 = u.events.toNat.testBit 6 := by
  simpa only [Tbm.time, Prod.mk.injEq] using h

theorem doStep_stepped (s : State) (k : PendStep) : s.steppedBy k (s.doStep k) := by
  obtain ⟨hreal, htime⟩ := doStep_time s k
  obtain ⟨htb, hwarps, -⟩ := time_parts htime
  exact ⟨htb, hreal, hwarps⟩

theorem doStep_origin (s : State) {k : PendStep} (hk : k.kind ≠ 2) : (s.doStep k).tbm.origin = s.tbm.origin := by
  obtain ⟨-, -, horigin, -⟩ := time_parts (doStep_time s k).2
  rw [horigin, Tbm.jump, beq_eq_false_iff_ne.mpr hk]
  exact Bool.or_false _

/-- The step that changes the origin takes TB to TAI from its point on (R89). -/
theorem doStep_tai (s : State) {k : PendStep} (hk : k.kind = 2) : (s.doStep k).tbm.origin = true
    ∧ (s.doStep k).tbm.originAt = k.point ∧ (s.doStep k).tbm.events.toNat.testBit 6 = true := by
  obtain ⟨-, -, horigin, hat, hevent⟩ := time_parts (doStep_time s k).2
  rw [horigin, hat, hevent, hk]
  exact ⟨Bool.or_true _, rfl, testBit_raise_same (raise s.tbm.events 5) (by decide)⟩

/-! ### Holds -/

theorem exec_tbHold (s : State) : exec .tbHold s = run s (fun s =>
    if s.tbm.holdsAt = some s.tb then s.doHold s.tb else s) := rfl

theorem exec_holdEnd (s : State) : exec .holdEnd s = run s (fun s =>
    match s.tbm.hold with
    | some h => if h.left = 0 then { s with tbm := { s.tbm with hold := none } } else s
    | none => s) := rfl

theorem register_leaves (s : State) (e : PendReg) (at_ : Nat) (late : Bool) :
    (s.register e at_ late).real = s.real ∧ (s.register e at_ late).tbm = s.tbm := by
  unfold State.register
  dsimp only
  rw [real_of_offRecord (stage_offRecord ..), tbm_of_offRecord (stage_offRecord ..)]
  exact ⟨rfl, rfl⟩

/-- TBM after a hold has begun at `p`, with the next one where the offset needs it. -/
def Tbm.held (t : Tbm) (p : Nat) : Tbm :=
  if (t.offset - t.holdTicks).toNat = 0 then t.startHold p
  else { t.startHold p with holdsAt := some (p + 2 ^ 30) }

theorem doHold_leaves (s : State) (p : Nat) : (s.doHold p).real = s.real ∧ (s.doHold p).tbm = s.tbm.held p := by
  unfold State.doHold
  extract_lets h rest s1 b s2
  have h1 : s1.offRecord = ({ s with tbm := s.tbm.startHold p } : State).offRecord := stage_offRecord ..
  have htbm : s1.tbm = s.tbm.startHold p := tbm_of_offRecord h1
  have hreal1 : s1.real = s.real := (real_of_offRecord h1).trans rfl
  clear_value s1
  have h2 : s2.real = s.real ∧ s2.tbm = s.tbm.held p := by
    have hreal : s2.real = s1.real := by
      simp only [s2]
      split <;> rfl
    have hnext : s2.tbm = if rest = 0 then s1.tbm else { s1.tbm with holdsAt := some (p + 2 ^ 30) } := by
      simp only [s2]
      split <;> rfl
    rw [hreal, hnext, htbm]
    exact ⟨hreal1, rfl⟩
  obtain ⟨hreal, htbm2⟩ := h2
  split
  · obtain ⟨hr, ht⟩ := register_leaves s2 _ p false
    exact ⟨hr.trans hreal, ht.trans htbm2⟩
  · exact ⟨hreal, htbm2⟩

/-- The fields of TBM that a hold of a positive offset changes (R100). -/
theorem held_fields {t : Tbm} (p : Nat) (h : 0 < t.offset) : (t.held p).tb = t.tb
    ∧ (t.held p).hold = some { point := p, left := t.holdTicks } ∧ (t.held p).offset = t.offset - t.holdTicks
    ∧ (t.held p).events = raise t.events 5
    ∧ (t.held p).holdsAt = if t.offset ≤ 1048576 then none else some (p + 1073741824) := by
  have hrest : (t.offset - t.holdTicks).toNat = 0 ↔ t.offset ≤ 1048576 := by
    unfold Tbm.holdTicks
    omega
  unfold Tbm.held
  simp only [hrest]
  split <;> exact ⟨rfl, rfl, rfl, rfl, rfl⟩

/-- Settles O26: a step at its point, the one that changes the origin, a hold at its point, and the end of a hold. -/
theorem stepsAndHolds : Obligations.StepsAndHolds := by
  intro s
  refine ⟨fun k hstep hpoint => ?_, fun hat hpos => ?_, fun p hhold => ?_⟩
  · refine ⟨fun hk => ?_, fun hk => ?_⟩
    · refine run_gives_from (exec_tbStep s) (fun _ _ _ _ h => h) ?_
      rintro u o rfl
      simp only [show u.tbm.step = some k from hstep, if_pos (show k.point = u.tb ∧ k.kind ≠ 2 from ⟨hpoint, hk⟩)]
      exact ⟨doStep_stepped u k, doStep_origin u hk⟩
    · refine run_gives_from (exec_originChange s) (fun _ _ _ _ h => h) ?_
      rintro u o rfl
      simp only [show u.tbm.step = some k from hstep, if_pos (show k.point = u.tb ∧ k.kind = 2 from ⟨hpoint, hk⟩)]
      exact ⟨doStep_stepped u k, doStep_tai u hk⟩
  · refine run_gives_from (exec_tbHold s) (fun _ _ _ _ h => h) ?_
    rintro u o rfl
    rw [if_pos (show u.tbm.holdsAt = some u.tb from hat)]
    obtain ⟨hreal, htbm⟩ := doHold_leaves u u.tb
    obtain ⟨htb, hhold, hoffset, hevents, hnext⟩ := held_fields (t := u.tbm) u.tb hpos
    rw [htbm]
    exact ⟨htb, hreal, hhold, hoffset, hevents ▸ testBit_raise_same _ (by decide), hnext⟩
  · refine run_does_from (exec_holdEnd s) ?_
    rintro u o rfl
    rw [show u.tbm.hold = some { point := p, left := 0 } from hhold]
    exact if_pos rfl

end Sys2Proof.Machine
end

section
/-! SUPPORT. A slice that loses its sampling clock, relocks and re-registers (R104 to R107). -/

namespace Sys2Proof.Machine

open Sys2Proof

section
variable (s : State) (c : Fin 4)

theorem exec_mdllLockLoss : exec (.mdllLockLoss c) s = run s (fun s =>
    if (s.sl c).timingOk then s.loseClock c else s) := rfl

theorem exec_relockAttempt (ok : Bool) : exec (.relockAttempt c ok) s = run s (fun s =>
    let k := (s.sl c).clk
    if (s.sl c).ctl.state.served ∧ !k.lock ∧ k.loadAt = none ∧ k.lastAttempt + msTicks 10 ≤ s.real then
      s.modSl c (fun x => { x with clk := { x.clk with
        lastAttempt := s.real, relockFail := if ok then x.clk.relockFail else count 16 1 x.clk.relockFail } })
    else s) := rfl

theorem exec_relocked : exec (.relocked c) s = run s (fun s =>
    let k := (s.sl c).clk
    if (s.sl c).ctl.state.served ∧ !k.lock ∧ k.coast then
      s.modSl c (fun x => { x with clk := { x.clk with
        lock := true, loadAt := some (alignUp (2 ^ 20) (s.tb + 1)) } })
    else s) := rfl

theorem exec_relockRegistration : exec (.relockRegistration c) s = run s (fun s =>
    match (s.sl c).clk.reregAt with
    | some t => if t ≤ s.tb ∧ (s.sl c).clk.lock then s.rejoin c t else s
    | none => s) := rfl

section
variable {k0 k l : Clk} (hk : k.offCtrl = k0.offCtrl)
include hk

/-- The fields that the declaration of a lock loss sets in clock `k0` (R104). -/
theorem lose_fields {tb real : Nat} (h : l.offCtrl = (k.lose tb real).offCtrl) :
    l.lock = false ∧ l.bypass = true ∧ l.coast = true ∧ l.lockLoss = min (k0.lockLoss + 1) 0xFFFF ∧ l.declared = tb
      ∧ l.lastLoss = tb := by
  have hcount : k.lockLoss = k0.lockLoss := (congrArg Clk.lockLoss hk : _)
  rw [← hcount]
  exact ⟨(congrArg Clk.lock h : _), (congrArg Clk.bypass h : _), (congrArg Clk.coast h : _),
    (congrArg Clk.lockLoss h : _), (congrArg Clk.declared h : _), (congrArg Clk.lastLoss h : _)⟩

/-- The fields of clock `k0` that its re-registration sets, and LOCK, which it keeps (R106). -/
theorem rejoin_fields (h : l.offCtrl = k.rejoin.offCtrl) : l.coast = false ∧ l.bypass = false ∧ l.reregAt = none
    ∧ l.suspect = false ∧ l.events = raise k0.events 1 ∧ l.lock = k0.lock := by
  have hevents : k.events = k0.events := (congrArg Clk.events hk : _)
  have hlock : k.lock = k0.lock := (congrArg Clk.lock hk : _)
  rw [← hevents, ← hlock]
  exact ⟨(congrArg Clk.coast h : _), (congrArg Clk.bypass h : _), (congrArg Clk.reregAt h : _),
    (congrArg Clk.suspect h : _), (congrArg Clk.events h : _), (congrArg Clk.lock h : _)⟩

end

/-- The clock of the slice at the declaration of a lock loss; TB and the slice's CTL block stand. -/
theorem loseClock_leaves : ∃ k : Clk, k.offCtrl = (s.sl c).clk.offCtrl
    ∧ ((s.loseClock c).sl c).clk.offCtrl = (k.lose s.tb s.real).offCtrl
    ∧ ((s.loseClock c).sl c).ctl = (s.sl c).ctl ∧ (s.loseClock c).tbm.tb = s.tbm.tb := by
  have h := loseClock_timed s c
  have hchains := coastChains_timed s c
  have hsl := State.sl_modSl (s.coastChains c) c (fun x => { x with clk := x.clk.lose s.tb s.real })
  refine ⟨((s.coastChains c).sl c).clk, clk_of_timed hchains c, ?_, ?_, ?_⟩
  · rw [clk_of_timed h c, hsl]
  · rw [ctl_of_timed h c, hsl, ← ctl_of_timed hchains c]
  · rw [tb_of_timed h, State.modSl_tbm, tb_of_timed hchains]

/-- The clock of the slice after its re-registration (R106 step 4). -/
theorem rejoin_leaves (t : Nat) : ∃ k : Clk, k.offCtrl = (s.sl c).clk.offCtrl
    ∧ ((s.rejoin c t).sl c).clk.offCtrl = k.rejoin.offCtrl := by
  unfold State.rejoin
  extract_lets s1 s2 s3 s4
  have h1 : s1.timed = s.timed := by
    simp only [s1]
    split
    · rfl
    · exact (timed_foldl (fun u n => audioGap_timed ..) _ _).trans (timed_foldl (fun u n => sampleGap_timed ..) _ _)
  have h3 : s3.clocked = s2.clocked := by
    simp only [s3]
    split
    · rw [clocked_ite, lockNow_clocked]
      exact ite_self _
    · rfl
  have h4 : s4.timed = s3.timed := (txRelock_timed ..).trans (timed_modSl s3 c fun x => rejoin_kept ..)
  refine ⟨(s1.sl c).clk, clk_of_timed h1 c, ?_⟩
  have hhome (u : State) : ((List.range 48).foldl (fun u n =>
      if ((u.sl c).afAt n).homing then u.goHome c (Fin.ofNat 48 n) else u) u).timed = u.timed :=
    timed_foldl (fun u n => by simp) _ u
  rw [clk_of_timed (hhome s4) c, clk_of_timed h4 c, clk_of_clocked h3 c]
  exact congrArg (fun x : Slice => x.clk.offCtrl) (State.sl_modSl s1 c _)

end

/-- Settles O27: the loss, an attempt, the relock and the re-registration. -/
theorem clockLossAndReturn : Obligations.ClockLossAndReturn := by
  intro c s
  refine ⟨fun hok => ?_, fun hserved hlock => ⟨fun ok hload hlate => ?_, fun hcoast => ?_⟩,
    fun at_ hat hnow hlock => ?_⟩
  · refine run_gives_from (exec_mdllLockLoss s c) (fun _ _ _ _ h => h) ?_
    rintro u o rfl
    rw [if_pos (show (u.sl c).timingOk = true from hok)]
    obtain ⟨k, hk, hclk, hctl, htb⟩ := loseClock_leaves u c
    obtain ⟨hlock, hbypass, hcoast, hloss, hdeclared, hlast⟩ := lose_fields hk hclk
    exact ⟨hlock, hbypass, hcoast, hloss, hdeclared, hlast, hctl, congrFun (State.loseClock_srams u c) c, htb⟩
  · refine run_does_from (exec_relockAttempt s c ok) ?_
    rintro u o rfl
    exact if_pos ⟨hserved, by simp [show (u.sl c).clk.lock = false from hlock], hload, hlate⟩
  · refine run_does_from (exec_relocked s c) ?_
    rintro u o rfl
    exact if_pos ⟨hserved, by simp [show (u.sl c).clk.lock = false from hlock], hcoast⟩
  · refine run_gives_from (exec_relockRegistration s c) (fun _ _ _ _ h => h) ?_
    rintro u o rfl
    have hdue : at_ ≤ u.tb ∧ (u.sl c).clk.lock = true := ⟨hnow, hlock⟩
    simp only [show (u.sl c).clk.reregAt = some at_ from hat, if_pos hdue]
    obtain ⟨k, hk, hclk⟩ := rejoin_leaves u c at_
    obtain ⟨hcoast, hbypass, hrereg, hsuspect, hevents, hkept⟩ := rejoin_fields hk hclk
    exact ⟨hcoast, hbypass, hrereg, hsuspect, hevents, hkept.trans hlock, congrFun (State.rejoin_srams u c at_) c⟩

end Sys2Proof.Machine
end

section
/-! SUPPORT. Registers of the front end (R116 to R123, R136): gain writes, AGC_CFG and the tuner. -/

namespace Sys2Proof.Machine

open Sys2Proof

/-! ### Changes of the front end -/

theorem sl_modAfe (s : State) (c : Fin 4) (f : Afe → Afe) :
    (s.modAfe c f).sl c = { s.sl c with afe := f (s.sl c).afe } := State.sl_modSl ..

theorem sl_modAfe_ne (s : State) (f : Afe → Afe) {c d : Fin 4} (h : d ≠ c) : (s.modAfe c f).sl d = s.sl d :=
  State.sl_modSl_ne s _ h

theorem modAfe_congr (s : State) {c : Fin 4} {f g : Afe → Afe} (h : f (s.sl c).afe = g (s.sl c).afe) :
    s.modAfe c f = s.modAfe c g :=
  modSl_congr s (congrArg (fun a => { s.sl c with afe := a }) h)

/-! ### What an instruction gives, from what it does -/

theorem Gives.imp {i : Instr} {s : State} {P Q : State → Prop} (h : Gives i s P) (hPQ : ∀ t, P t → Q t) :
    Gives i s Q := by
  obtain ⟨t, ht, hP⟩ := h
  exact ⟨t, ht, hPQ t hP⟩

/-- An instruction that changes the front end of slice `c` gives that front end, and leaves the tunings and the other
slices as they were. -/
theorem Does.gives_afe {i : Instr} {s : State} {c : Fin 4} {f : Afe → Afe} (h : Does i s (fun t => t.modAfe c f)) :
    Gives i s (fun t => (t.sl c).afe = f (s.sl c).afe ∧ (t.sl c).tun = (s.sl c).tun ∧ OtherSlices c s t) := by
  obtain ⟨t, ht, o, p, rfl⟩ := h
  have hsl := sl_modAfe s c f
  exact ⟨_, ht, (congrArg Slice.afe hsl : _), (congrArg Slice.tun hsl : _), fun d hd => sl_modAfe_ne s f hd⟩

/-! ### When a change of the front end is made -/

theorem sliceWrite_served {s : State} {c : Fin 4} (hs : (s.sl c).ctl.state.served = true) (off : Nat)
    (f : State → State) : s.sliceWrite c off f = f s := if_pos hs

section
variable {i : Instr} {s : State} {c : Fin 4} {off : Nat} {g : Nat → Afe → Afe} {f : Afe → Afe}

/-- A write to a register of the front end, in a slice that serves its registers. -/
theorem afeWrite_does (he : exec i s = run s (fun s => s.sliceWrite c off fun s => s.modAfe c (g s.tb)))
    (hs : (s.sl c).ctl.state.served = true) (h : g s.tb (s.sl c).afe = f (s.sl c).afe) :
    Does i s (fun t => t.modAfe c f) := by
  refine run_does_from he ?_
  rintro u o rfl
  exact (sliceWrite_served (s := u) hs ..).trans (modAfe_congr u h)

end

/-- An event of the front end that acts only under a condition, where that holds. -/
theorem afeEvent_does {i : Instr} {s : State} {c : Fin 4} {f : Afe → Afe} {p : State → Prop} [DecidablePred p]
    {g : State → Afe → Afe} (he : exec i s = run s (fun s => if p s then s.modAfe c (g s) else s))
    (h : ∀ u o, s = { u with out := o } → p u ∧ g u (u.sl c).afe = f (u.sl c).afe) :
    Does i s (fun t => t.modAfe c f) := by
  refine run_does_from he fun u o hu => ?_
  obtain ⟨hp, hg⟩ := h u o hu
  exact (if_pos hp).trans (modAfe_congr u hg)

/-! ### The values written -/

theorem writeGain_manual {a : Afe} (h : a.agcMode = some true) (v : Word) (now : Nat) :
    a.writeGain v now = { a with gainPend := a.gainPend ++ [(now + 1024, bf v 0 5, bit v 8)] } :=
  if_pos (by simp [Afe.manual, h])

theorem writeGain_rejected {a : Afe} (h : a.agcMode ≠ some true) (v : Word) (now : Nat) :
    a.writeGain v now = { a with events := a.events ||| 0x20 } :=
  if_neg (by simp [Afe.manual, h])

/-- The fields of AGC_CFG that a write keeps (R136). -/
def agcCfgWord (v : Word) : Word :=
  mkWord [(31, 1, bf v 31 1), (16, 8, bf v 16 8), (12, 4, bf v 12 4), (8, 4, bf v 8 4), (0, 6, bf v 0 6)]

theorem writeAgcCfg_accepted (a : Afe) (v : Word) (t : Nat)
    (h : 1 ≤ bf v 16 8 ∧ 1 ≤ bf v 12 4 ∧ 1 ≤ bf v 8 4 ∧ 6 ≤ bf v 0 6 ∧ bf v 0 6 ≤ 40) :
    a.writeAgcCfg v t = if bit a.agcCfg 31 = true ∧ bit v 31 = false
      then { a with agcCfg := agcCfgWord v, acquire := true, quietSince := t }
      else { a with agcCfg := agcCfgWord v } := by
  refine (if_neg (by omega)).trans ?_
  simp only [Bool.not_eq_true', agcCfgWord]

theorem writeAgcCfg_rejected (a : Afe) (v : Word) (t : Nat)
    (h : bf v 16 8 = 0 ∨ bf v 12 4 = 0 ∨ bf v 8 4 = 0 ∨ bf v 0 6 < 6 ∨ 40 < bf v 0 6) :
    a.writeAgcCfg v t = { a with events := a.events ||| 0x40 } := if_pos h

/-- TUNER keeps its 18 low bits (R123). -/
theorem mkWord_low18 (v : Word) : mkWord [(0, 18, bf v 0 18)] = v &&& 0x3FFFF := by
  refine BitVec.eq_of_toNat_eq ?_
  rw [BitVec.toNat_and, show ((0x3FFFF : Word)).toNat = 2 ^ 18 - 1 from rfl, Nat.and_two_pow_sub_one_eq_mod]
  simp [mkWord, bf, bitsOf]
  omega

theorem tunerCircuit_eq_true {a : Afe} (h : a.preselected = false ∨ a.band ≤ 1) : a.tunerCircuit = true := by
  simpa [Afe.tunerCircuit] using h

theorem tunerCircuit_eq_false {a : Afe} (h : a.preselected = true ∧ 1 < a.band) : a.tunerCircuit = false := by
  simpa [Afe.tunerCircuit] using h

theorem writeTuner_inCircuit {a : Afe} (h : a.preselected = false ∨ a.band ≤ 1) (v : Word) (t : Nat) :
    a.writeTuner v t = { (a.step t) with tuner := v &&& 0x3FFFF, tunerNow := v &&& 0x3FFFF } := by
  rw [← mkWord_low18]
  exact if_pos (tunerCircuit_eq_true h)

theorem writeTuner_outOfCircuit {a : Afe} (h : a.preselected = true ∧ 1 < a.band) (v : Word) (t : Nat) :
    a.writeTuner v t = { a with tuner := v &&& 0x3FFFF } := by
  rw [← mkWord_low18]
  exact if_neg (by simp [tunerCircuit_eq_false h])

/-! ### The instructions -/

section
variable {c : Fin 4} {s : State} (hs : (s.sl c).ctl.state.served = true) (v : Word) {f : Afe → Afe}
include hs

theorem afeGainWrite_does (h : (s.sl c).afe.writeGain v s.tb = f (s.sl c).afe) :
    Does (.afeGainWrite c v) s (fun t => t.modAfe c f) := afeWrite_does (g := fun t a => a.writeGain v t) rfl hs h

theorem agcCfgWrite_does (h : (s.sl c).afe.writeAgcCfg v s.tb = f (s.sl c).afe) :
    Does (.agcCfgWrite c v) s (fun t => t.modAfe c f) := afeWrite_does (g := fun t a => a.writeAgcCfg v t) rfl hs h

theorem tunerWrite_does (h : (s.sl c).afe.writeTuner v s.tb = f (s.sl c).afe) :
    Does (.tunerWrite c v) s (fun t => t.modAfe c f) := afeWrite_does (g := fun t a => a.writeTuner v t) rfl hs h

end

/-- GAIN_APPLY acts on the first gain that waits, once it is due in manual mode (R120). -/
def State.applyGain (s : State) (c : Fin 4) : State :=
  match (s.sl c).afe.gainPend with
  | (t, atten, byp) :: rest =>
    if (s.sl c).afe.manual ∧ t ≤ s.tb then
      s.modAfe c (fun a => ({ a with gainPend := rest }).setGain atten byp s.tb)
    else s
  | [] => s

theorem exec_gainApply (c : Fin 4) (s : State) : exec (.gainApply c) s = run s (fun s => s.applyGain c) := rfl

theorem applyGain_due {s : State} {c : Fin 4} {at_ d : Nat} {b : Bool} {rest : List (Nat × Nat × Bool)}
    (hpend : (s.sl c).afe.gainPend = (at_, d, b) :: rest) (hmode : (s.sl c).afe.agcMode = some true)
    (hat : at_ ≤ s.tb) :
    s.applyGain c = s.modAfe c (fun a => ({ a with gainPend := rest }).setGain d b s.tb) := by
  unfold State.applyGain
  rw [hpend]
  exact if_pos ⟨by simp [Afe.manual, hmode], hat⟩

/-- Settles O28: gain writes in manual mode and outside it, the gain that takes effect, AGC_CFG in range and out of it,
and the tuner in circuit and out of it. -/
theorem gainWrites : Obligations.GainWrites := by
  intro c v s hs a put step
  have hput : put = fun f t => t.modAfe c f := rfl
  clear_value put
  subst hput
  refine ⟨fun hm => ?_, fun hm => ?_, fun at_ d b rest hpend hm hat => ?_, fun hr => ?_, fun hr => ?_, fun hin => ?_,
    fun hout => ?_⟩
  · exact afeGainWrite_does hs v (writeGain_manual hm v s.tb)
  · exact afeGainWrite_does hs v (writeGain_rejected hm v s.tb)
  · refine run_does_from (exec_gainApply c s) ?_
    rintro u o rfl
    exact applyGain_due hpend hm hat
  · exact agcCfgWrite_does hs v (writeAgcCfg_accepted a v s.tb hr)
  · exact agcCfgWrite_does hs v (writeAgcCfg_rejected a v s.tb hr)
  · exact tunerWrite_does hs v (writeTuner_inCircuit hin v s.tb)
  · exact tunerWrite_does hs v (writeTuner_outOfCircuit hout v s.tb)

end Sys2Proof.Machine
end

section
/-! SUPPORT. The rules of the AGC (R121, R122): the end of a window, an attack, and the release. -/

namespace Sys2Proof.Machine

open Sys2Proof

/-! ### A change of gain (R117) -/

section
variable (a : Afe) (d : Nat) (b : Bool) (t : Nat)

theorem setGain_cases : a.setGain d b t = a ∧ a.atten = d ∧ a.lnaByp = b
    ∨ a.setGain d b t = ({ (a.step t) with atten := d, lnaByp := b }).regain t := by
  unfold Afe.setGain
  split
  case isTrue h => exact .inl ⟨rfl, h⟩
  case isFalse => exact .inr rfl

/-- The gain asked for is in force, and what the windows and attacks report stays. -/
theorem setGain_fields : (a.setGain d b t).atten = d ∧ (a.setGain d b t).lnaByp = b
    ∧ (a.setGain d b t).powerCb = a.powerCb ∧ (a.setGain d b t).acquire = a.acquire := by
  obtain ⟨h, hd, hb⟩ | h := setGain_cases a d b t
  · rw [h]
    exact ⟨hd, hb, rfl, rfl⟩
  · rw [h]
    exact ⟨rfl, rfl, rfl, rfl⟩

variable {a d b}

/-- A gain that differs is one gain step. -/
theorem setGain_gainSteps (h : ¬ (a.atten = d ∧ a.lnaByp = b)) :
    (a.setGain d b t).gainSteps = min (a.gainSteps + 1) 0xFFFF := by
  rw [Afe.setGain, if_neg h]
  rfl

end

/-! ### The end of a window -/

/-- A window of power `p` has ended. -/
def Afe.seen (a : Afe) (p : Nat) : Afe :=
  { a with powerCb := p, windowDirty := false, windowStart := a.windowStart + 102400 }

/-- A window of power `p` that holds no gain step and no disturbed sample has ended: unless it was quiet, the release
period starts at its end (R121 rule 4). -/
def Afe.heard (a : Afe) (p : Nat) : Afe :=
  { a.seen p with quietSince := if 10 * (a.target + a.hyst) < p then a.quietSince else a.windowStart + 102400 }

section
variable {a : Afe} (p : Nat) (held : Bool) (t : Nat)

theorem windowEnd_spoilt (h : a.windowSpoilt (a.windowStart + 102400) = true) : a.windowEnd p held t = a.seen p :=
  if_pos h

theorem windowEnd_clean (h : a.windowSpoilt (a.windowStart + 102400) = false) : a.windowEnd p held t =
    if held then a.heard p
    else if a.acquire then (a.heard p).acquireGain p t
    else if (p : Int) < 10 * ((a.target : Int) - a.hyst) then (a.heard p).rise p t
    else a.heard p := by
  have hheard : (if 10 * (a.target + a.hyst) < p then a.seen p
      else { a.seen p with quietSince := a.windowStart + 102400 }) = a.heard p := by
    unfold Afe.heard
    split <;> rfl
  rw [← hheard]
  exact if_neg (by simpa [usTicks] using h)

theorem windowEnd_held (h : a.windowSpoilt (a.windowStart + 102400) = false) : a.windowEnd p true t = a.heard p :=
  windowEnd_clean p true t h

theorem windowEnd_acquires (h : a.windowSpoilt (a.windowStart + 102400) = false) (ha : a.acquire = true) :
    a.windowEnd p false t = (a.heard p).acquireGain p t := by
  rw [windowEnd_clean p false t h, ha]
  rfl

theorem windowEnd_quiet (h : a.windowSpoilt (a.windowStart + 102400) = false) (ha : a.acquire = false)
    (hp : 10 * ((a.target : Int) - a.hyst) ≤ p) : a.windowEnd p false t = a.heard p := by
  rw [windowEnd_clean p false t h, ha]
  exact if_neg (Int.not_lt.mpr hp)

theorem windowEnd_rises (h : a.windowSpoilt (a.windowStart + 102400) = false) (ha : a.acquire = false)
    (hp : (p : Int) < 10 * ((a.target : Int) - a.hyst)) (hmax : a.atten < a.maxAtten) : a.windowEnd p false t =
      (a.heard p).setGain (a.limit (a.atten + (10 * (a.target : Int) - p + 9) / 10)) a.lnaByp t := by
  have hrise : (a.heard p).rise p t =
      (a.heard p).setGain (a.limit (a.atten + (10 * (a.target : Int) - p + 9) / 10)) a.lnaByp t :=
    if_neg (show ¬ a.maxAtten ≤ a.atten by omega)
  rw [windowEnd_clean p false t h, ha, ← hrise]
  exact if_pos hp

end

/-- Acquisition is one change of gain, whichever LNA state it chooses. -/
theorem acquireGain_setGain (a : Afe) (p t : Nat) :
    ∃ d b, a.acquireGain p t = ({ a with acquire := false }).setGain d b t := by
  let d : Int := (10 * (a.target : Int) - p + 5) / 10
  by_cases h : a.atten + d + (if a.lnaByp then (a.lnaSize + 500) / 1000 else 0) ≤ a.maxAtten + a.hyst
  · exact ⟨_, _, if_pos h⟩
  · exact ⟨_, _, if_neg h⟩

theorem acquireGain_fields (a : Afe) (p t : Nat) :
    (a.acquireGain p t).acquire = false ∧ (a.acquireGain p t).powerCb = a.powerCb := by
  obtain ⟨d, b, h⟩ := acquireGain_setGain a p t
  obtain ⟨-, -, hpower, hacquire⟩ := setGain_fields { a with acquire := false } d b t
  rw [h]
  exact ⟨hacquire, hpower⟩

/-! ### Attack and release -/

/-- The front end after an attack at `t` (R121 rule 1). -/
def Afe.attacked (a : Afe) (t : Nat) : Afe :=
  { a.setGain (a.limit (a.atten + a.attackDb)) a.lnaByp t with
    attacks := count 16 1 a.attacks, events := raise a.events 0, lastAttack := some t }

/-- The front end after a release period that ends at `t` (R121 rule 4). -/
def Afe.released (a : Afe) (t : Nat) : Afe :=
  if a.lnaByp then a.setGain a.atten false t
  else if a.minAtten < a.atten then a.setGain (a.atten - 1) false t
  else { a with quietSince := t }

section
variable {a : Afe} (t : Nat)

theorem released_bypassed (h : a.lnaByp = true) : a.released t = a.setGain a.atten false t := if_pos h

theorem released_above (h : a.lnaByp = false) (hmin : a.minAtten < a.atten) :
    a.released t = a.setGain (a.atten - 1) false t := by
  rw [Afe.released, h]
  exact if_pos hmin

theorem released_lowest (h : a.lnaByp = false) (hmin : a.atten ≤ a.minAtten) :
    a.released t = { a with quietSince := t } := by
  rw [Afe.released, h]
  exact if_neg (Nat.not_lt.mpr hmin)

end

/-! ### The instructions, in automatic mode -/

section
variable {c : Fin 4} {s : State} (hrun : (s.sl c).ctl.state = .running) (hauto : (s.sl c).afe.agcMode = some false)
  {f : Afe → Afe}
include hrun hauto

theorem agcWindowEnd_does (p : BitVec 16) (hcoast : (s.sl c).clk.coast = false)
    (hover : (s.sl c).afe.windowStart + 102400 ≤ s.tb)
    (h : (s.sl c).afe.windowEnd p.toNat (s.sl c).agcHeld s.tb = f (s.sl c).afe) :
    Does (.agcWindowEnd c p) s (fun t => t.modAfe c f) := by
  refine afeEvent_does (p := fun s => (s.sl c).ctl.state = .running ∧ (s.sl c).afe.auto ∧ !(s.sl c).clk.coast
    ∧ (s.sl c).afe.windowStart + usTicks 100 ≤ s.tb)
    (g := fun s a => a.windowEnd p.toNat (s.sl c).agcHeld s.tb) rfl ?_
  rintro u o rfl
  exact ⟨⟨hrun, beq_iff_eq.mpr hauto, congrArg (!·) hcoast, hover⟩, h⟩

theorem attack_does {clips : List Nat} (hheld : (s.sl c).agcHeld = false) (hdue : attackDue clips s.tb = true)
    (hlast : ∀ t, (s.sl c).afe.lastAttack = some t → t + 10240 ≤ s.tb) :
    Does (.attack c clips) s (fun t => t.modAfe c (fun a => a.attacked s.tb)) := by
  have he : exec (.attack c clips) s = execAttack c s clips := rfl
  unfold execAttack at he
  refine run_does_from he ?_
  rintro u o rfl
  refine if_pos ⟨hrun, beq_iff_eq.mpr hauto, congrArg (!·) hheld, ?_, hdue⟩
  cases h : (u.sl c).afe.lastAttack with
  | none => rfl
  | some t => exact congrArg (!·) (decide_eq_false (Nat.not_lt.mpr (hlast t h)))

theorem agcRelease_does (hheld : (s.sl c).agcHeld = false)
    (hperiod : (s.sl c).afe.quietSince + bf (s.sl c).afe.agcCfg 16 8 * 10240000 ≤ s.tb)
    (hopen : s.tb < (s.sl c).afe.windowStart + 102400) (h : (s.sl c).afe.released s.tb = f (s.sl c).afe) :
    Does (.agcRelease c) s (fun t => t.modAfe c f) := by
  refine afeEvent_does (p := fun s => (s.sl c).ctl.state = .running ∧ (s.sl c).afe.auto ∧ !(s.sl c).agcHeld
    ∧ (s.sl c).afe.releaseDue s.tb) (g := fun s a => a.released s.tb) rfl ?_
  rintro u o rfl
  refine ⟨⟨hrun, beq_iff_eq.mpr hauto, congrArg (!·) hheld, ?_⟩, h⟩
  exact (Bool.and_eq_true ..).mpr ⟨decide_eq_true hperiod, decide_eq_true hopen⟩

end

/-- Settles O29: a window that is spoilt, one of a frozen AGC, acquisition, a window without a rise and one with; an
attack; and the three outcomes of a release. -/
theorem agcRules : Obligations.AgcRules := by
  intro c s hrun hauto a limit
  refine ⟨?windows, fun hheld => ⟨fun clips hdue hlast => ?attack, fun hperiod hopen => ?release⟩⟩
  case windows =>
    intro p hcoast hover stop seen clean quiet
    have hdoes {f : Afe → Afe} := agcWindowEnd_does (f := f) hrun hauto p hcoast hover
    refine ⟨fun hspoilt => ?_, fun hclean hheld => ?_, fun hclean hheld hacq => ?_, fun hclean hheld hacq hp => ?_,
      fun hclean hheld hacq hp hmax => ?_⟩
    · exact hdoes (f := seen) (windowEnd_spoilt _ _ _ hspoilt)
    · refine hdoes (f := fun a => { seen a with quietSince := quiet }) ?_
      rw [hheld, windowEnd_held _ _ hclean]
      rfl
    · refine (hdoes (f := fun a => a.windowEnd p.toNat (s.sl c).agcHeld s.tb) rfl).gives_afe.imp ?_
      rintro t ⟨hafe, hrest⟩
      obtain ⟨hacquire, hpower⟩ := acquireGain_fields (a.heard p.toNat) p.toNat s.tb
      rw [hheld, windowEnd_acquires _ _ hclean hacq] at hafe
      rw [hafe]
      exact ⟨hacquire, hpower, hrest⟩
    · refine hdoes (f := fun a => { seen a with quietSince := quiet }) ?_
      rw [hheld, windowEnd_quiet _ _ hclean hacq hp]
      rfl
    · refine (hdoes (f := fun a => a.windowEnd p.toNat (s.sl c).agcHeld s.tb) rfl).gives_afe.imp ?_
      rintro t ⟨hafe, hrest⟩
      rw [hheld, windowEnd_rises _ _ hclean hacq hp hmax] at hafe
      obtain ⟨hatten, hbyp, hpower, -⟩ := setGain_fields (a.heard p.toNat)
        (a.limit (a.atten + (10 * (a.target : Int) - p.toNat + 9) / 10)) a.lnaByp s.tb
      rw [hafe]
      exact ⟨hatten, hbyp, hpower, hrest⟩
  case attack =>
    refine (attack_does hrun hauto hheld hdue hlast).gives_afe.imp ?_
    rintro t ⟨hafe, hrest⟩
    obtain ⟨hatten, hbyp, -, -⟩ := setGain_fields a (a.limit (a.atten + a.attackDb)) a.lnaByp s.tb
    rw [hafe]
    exact ⟨hatten, hbyp, rfl, rfl, rfl, hrest⟩
  case release =>
    have hdoes {f : Afe → Afe} := agcRelease_does (f := f) hrun hauto hheld hperiod hopen
    refine ⟨fun hbyp => ?_, fun hbyp hmin => ?_, fun hbyp hmin => ?_⟩
    · refine (hdoes (f := fun a => a.released s.tb) rfl).gives_afe.imp ?_
      rintro t ⟨hafe, hrest⟩
      obtain ⟨hatten, hlna, -, -⟩ := setGain_fields a a.atten false s.tb
      rw [released_bypassed _ hbyp] at hafe
      rw [hafe]
      exact ⟨hlna, hatten, setGain_gainSteps _ fun ⟨_, h⟩ => Bool.false_ne_true (h.symm.trans hbyp), hrest⟩
    · refine (hdoes (f := fun a => a.released s.tb) rfl).gives_afe.imp ?_
      rintro t ⟨hafe, hrest⟩
      obtain ⟨hatten, hlna, -, -⟩ := setGain_fields a (a.atten - 1) false s.tb
      rw [released_above _ hbyp hmin] at hafe
      rw [hafe]
      exact ⟨hlna, hatten, setGain_gainSteps _ (fun ⟨h, _⟩ => by omega), hrest⟩
    · exact hdoes (f := fun a => { a with quietSince := s.tb }) (released_lowest _ hbyp hmin)

end Sys2Proof.Machine
end

section
/-! SUPPORT. Requests for calibration (R128, R129): by a bit of CAL_REQ, and by a CAL_REQUEST command. -/

namespace Sys2Proof.Machine

open Sys2Proof

/-! ### A request -/

theorem insertBy_perm {α : Type} (key : α → Nat) (x : α) (l : List α) : (insertBy key x l).Perm (x :: l) := by
  induction l with
  | nil => exact .refl _
  | cons y ys ih =>
    unfold insertBy
    split
    · exact .refl _
    · exact (ih.cons y).trans (.swap x y ys)

/-- A request changes the pending kinds alone. -/
theorem request_calPend (a : Afe) (kind origin t : Nat) :
    ∃ pend, a.request kind origin t = { a with calPend := pend } := by
  unfold Afe.request
  split_ifs
  · exact ⟨a.calPend, rfl⟩
  · exact ⟨_, rfl⟩
  · exact ⟨_, rfl⟩

section
variable {a : Afe} (kind origin t : Nat)

/-- A kind that is requested while none runs is merged with its pending request, or is one more pending kind (R129). -/
theorem request_cases (hrun : a.calRun = none) :
    (a.calPend.any (fun p => p.kind == kind) = true ∧ a.request kind origin t =
      { a with calPend := a.calPend.map (fun p => if p.kind = kind then { p with at_ := min p.at_ t } else p) })
    ∨ a.request kind origin t =
      { a with calPend := insertBy (fun p => p.kind) { kind := kind, origin := origin, at_ := t } a.calPend } := by
  unfold Afe.request
  rw [hrun]
  dsimp only
  rw [if_neg Bool.false_ne_true]
  split
  case isTrue h => exact .inl ⟨h, rfl⟩
  case isFalse => exact .inr rfl

/-- The first request where none is pending or running. -/
theorem request_first (hrun : a.calRun = none) (hpend : a.calPend = []) :
    a.request kind origin t = { a with calPend := [{ kind := kind, origin := origin, at_ := t }] } := by
  obtain ⟨h, -⟩ | h := request_cases kind origin t hrun
  · rw [hpend] at h
    cases h
  · rw [h, hpend]
    rfl

theorem request_kept (hrun : a.calRun = none) :
    (a.request kind origin t).calRun = none ∧ (a.request kind origin t).calCmds = a.calCmds := by
  obtain ⟨pend, h⟩ := request_calPend a kind origin t
  rw [h]
  exact ⟨hrun, rfl⟩

/-- After a request its kind is pending, and every other kind as before. -/
theorem request_pending (hrun : a.calRun = none) (k : Nat) :
    (a.request kind origin t).calPend.any (fun p => p.kind == k)
      = (a.calPend.any (fun p => p.kind == k) || kind == k) := by
  obtain ⟨hany, h⟩ | h := request_cases kind origin t hrun
  · have hkind : ((fun p : CalPend => p.kind == k) ∘
        fun p => if p.kind = kind then { p with at_ := min p.at_ t } else p) = fun p => p.kind == k := by
      funext p
      exact congrArg (· == k) ((apply_ite CalPend.kind ..).trans (ite_self _))
    have hmerged : (kind == k) = true → a.calPend.any (fun p => p.kind == k) = true := by
      intro he
      rw [← beq_iff_eq.mp he]
      exact hany
    rw [h, List.any_map, hkind]
    cases hk : kind == k with
    | false => rw [Bool.or_false]
    | true => rw [Bool.or_true, hmerged hk]
  · rw [h, (insertBy_perm ..).any_eq, List.any_cons, Bool.or_comm]

/-- Requests for a list of kinds, none of which runs. -/
theorem requests_pending (ks : List Nat) (hrun : a.calRun = none) :
    let b := ks.foldl (fun (a : Afe) k => a.request k origin t) a
    b.calCmds = a.calCmds ∧ ∀ k, b.calPend.any (fun p => p.kind == k)
      = (a.calPend.any (fun p => p.kind == k) || ks.contains k) := by
  induction ks generalizing a with
  | nil => exact ⟨rfl, fun k => (Bool.or_false _).symm⟩
  | cons j ks ih =>
    obtain ⟨hrun', hcmds⟩ := request_kept j origin t hrun
    obtain ⟨ihcmds, ihpend⟩ := ih hrun'
    refine ⟨ihcmds.trans hcmds, fun k => ?_⟩
    rw [List.foldl_cons, ihpend, request_pending j origin t hrun, List.contains_cons, Bool.or_assoc, Bool.beq_comm]

end

/-! ### CAL_REQ -/

theorem served_of_up {x : Slice} (h : x.up = true) : x.ctl.state.served = true := by
  have hstate : x.ctl.state = .idle ∨ x.ctl.state = .running := by simpa [Slice.up] using h
  obtain h | h := hstate
  · rw [h]
    rfl
  · rw [h]
    rfl

section
variable {i : Instr} {s : State} {c : Fin 4} {k : Nat}
  (he : exec i s = run s (fun s => s.sliceWrite c 0x2002C fun s => s.calReq c k))
include he

/-- A bit of CAL_REQ in an IDLE or RUNNING slice without another calibration makes its kind pending (R128). -/
theorem calReq_pends (hup : (s.sl c).up = true) (hpend : (s.sl c).afe.calPend = [])
    (hrun : (s.sl c).afe.calRun = none) :
    Does i s (fun t => t.modAfe c (fun a => { a with calPend := [{ kind := k, origin := 1, at_ := s.tb }] })) := by
  refine run_does_from he ?_
  rintro u o rfl
  rw [sliceWrite_served (s := u) (served_of_up hup)]
  exact (if_pos hup).trans (modAfe_congr u (request_first k 1 u.tb hrun hpend))

/-- In a CALIBRATING slice the kind is held (R128). -/
theorem calReq_holds (hcal : (s.sl c).ctl.state = .calibrating) (hheld : (s.sl c).afe.calHeld.contains k = false) :
    Does i s (fun t => t.modAfe c (fun a => { a with calHeld := a.calHeld ++ [k] })) := by
  refine run_does_from he ?_
  rintro u o rfl
  have hcal' : (u.sl c).ctl.state = .calibrating := hcal
  have hup : ¬ (u.sl c).up = true := by simp [Slice.up, hcal']
  rw [sliceWrite_served (s := u) (by rw [hcal']; rfl), State.calReq, if_neg hup, if_pos hcal']
  exact modAfe_congr u (congrArg (fun l => { (u.sl c).afe with calHeld := l })
    (if_neg (ne_true_of_eq_false hheld)))

end

/-! ### CAL_REQUEST -/

/-- The kinds that a mask names (R128). -/
def maskKinds (mask : Nat) : List Nat := [1, 2, 3, 4].filter (fun k => mask.testBit (k - 1))

theorem contains_maskKinds (mask k : Nat) :
    (maskKinds mask).contains k = (decide (1 ≤ k ∧ k ≤ 4) && mask.testBit (k - 1)) := by
  have hrange : k ∈ [1, 2, 3, 4] ↔ 1 ≤ k ∧ k ≤ 4 := by
    simp only [List.mem_cons, List.not_mem_nil, or_false]
    omega
  rw [Bool.eq_iff_iff, List.contains_iff_mem, maskKinds, List.mem_filter, hrange, Bool.and_eq_true, decide_eq_true_iff]

/-- The front end after CAL_REQUEST `cmd` for the kinds of its mask from `t` on. -/
def Afe.takeKinds (a : Afe) (cmd : Command) (t : Nat) : Afe :=
  { (maskKinds (u8 cmd.body 0)).foldl (fun (a : Afe) k => a.request k 2 t) a with
    calCmds := ((maskKinds (u8 cmd.body 0)).foldl (fun (a : Afe) k => a.request k 2 t) a).calCmds
      ++ [{ cmd := cmd.ref, left := maskKinds (u8 cmd.body 0), status := 0 }] }

theorem takeKinds_fields {a : Afe} (cmd : Command) (t : Nat) (hpend : a.calPend = []) (hrun : a.calRun = none) :
    (∀ k, (a.takeKinds cmd t).calPend.any (fun p => p.kind == k)
      = (decide (1 ≤ k ∧ k ≤ 4) && (u8 cmd.body 0).testBit (k - 1)))
    ∧ (a.takeKinds cmd t).calCmds =
      a.calCmds ++ [{ cmd := cmd.ref, left := maskKinds (u8 cmd.body 0), status := 0 }] := by
  obtain ⟨hcmds, hkinds⟩ := requests_pending 2 t (maskKinds (u8 cmd.body 0)) hrun
  refine ⟨fun k => (hkinds k).trans ?_, congrArg (· ++ _) hcmds⟩
  rw [hpend, contains_maskKinds]
  rfl

section
variable {s : State} {c : Fin 4} {cmd : Command} (hup : (s.sl c).up = true)
include hup

theorem takeCal_rejects (hmask : u8 cmd.body 0 = 0 ∨ 15 < u8 cmd.body 0) : s.takeCal c cmd = s.finish cmd 0x03 [] := by
  unfold State.takeCal
  dsimp only
  rw [if_up hup]
  exact if_pos hmask

theorem takeCal_accepts (hpos : 1 ≤ u8 cmd.body 0) (hmax : u8 cmd.body 0 ≤ 15) :
    ∃ t, s.takeCal c cmd = (s.keep cmd).modAfe c (fun a => a.takeKinds cmd t) := by
  unfold State.takeCal
  dsimp only
  rw [if_up hup, if_neg (by omega)]
  exact ⟨_, rfl⟩

end

/-- A command that is kept is no longer in hand, but outstanding. -/
theorem keep_waits (s : State) (cmd : Command) :
    ((s.keep cmd).qu cmd.queue).inHand = none ∧ cmd.ref ∈ ((s.keep cmd).qu cmd.queue).outstanding := by
  unfold State.keep
  rw [State.qu_modQ]
  exact ⟨rfl, List.mem_append_right _ List.mem_cons_self⟩

theorem exec_calRequest (c : Fin 4) (s : State) :
    exec (.calRequest c) s = run s (fun s => s.onCommand (localQ c 52) 0x30 fun s cmd => s.takeCal c cmd) := by
  change execCalRequest c s = _
  unfold execCalRequest
  refine congrArg (run s) (funext fun u => ?_)
  unfold State.onCommand
  cases u.inHand (localQ c 52) 0x30 with
  | none => rfl
  | some cmd => rfl

/-- Settles O30: each bit of CAL_REQ in a slice that is up and in one that calibrates, a CAL_REQUEST with a mask of
kinds, and one with a mask out of range. -/
theorem calibrationRequests : Obligations.CalibrationRequests := by
  intro c s request
  have hrequest {i : Instr} {k : Nat}
      (he : exec i s = run s (fun s => s.sliceWrite c 0x2002C fun s => s.calReq c k)) : request i k :=
    ⟨calReq_pends he, calReq_holds he⟩
  refine ⟨hrequest rfl, hrequest rfl, hrequest rfl, hrequest rfl, fun cmd hcmd hup =>
    ⟨fun hpos hmax hpend hrun => ?accepted, fun hmask => ?rejected⟩⟩
  case accepted =>
    refine command_gives (exec_calRequest c s) (fun _ _ _ _ h => h) hcmd ?_
    rintro u o rfl
    obtain ⟨t, ht⟩ := takeCal_accepts (s := u) hup hpos hmax
    obtain ⟨hkinds, hcmds⟩ := takeKinds_fields (a := (u.sl c).afe) cmd t hpend hrun
    obtain ⟨hhand, hout⟩ := keep_waits u cmd
    have hafe : ((u.takeCal c cmd).sl c).afe = (u.sl c).afe.takeKinds cmd t :=
      congrArg Slice.afe ((congrArg (State.sl · c) ht).trans (sl_modAfe (u.keep cmd) c _))
    rw [hafe, ht]
    exact ⟨hkinds, hcmds, hhand, hout, fun d hd => sl_modAfe_ne (u.keep cmd) _ hd⟩
  case rejected =>
    refine command_does (exec_calRequest c s) hcmd ?_
    rintro u o rfl
    exact takeCal_rejects hup hmask

end Sys2Proof.Machine
end

section
/-! SUPPORT. Calibration intervals (R124, R129, R130, R133) and the mismatch monitor (R125, R126). -/

namespace Sys2Proof.Machine

open Sys2Proof

/-! ### Changes of the front end, one after the other -/

theorem modAfe_modAfe (s : State) (c : Fin 4) (f g : Afe → Afe) :
    (s.modAfe c f).modAfe c g = s.modAfe c (fun a => g (f a)) := State.modSl_modSl ..

theorem modAfe_slices_congr {s t : State} (h : t.slices = s.slices) (c : Fin 4) (f : Afe → Afe) :
    (t.modAfe c f).slices = (s.modAfe c f).slices := modSl_slices_congr h c _

/-- A state whose slices are those after a change of the front end of slice `c`. -/
theorem sl_of_modAfe_slices {s t : State} {c : Fin 4} {f : Afe → Afe} (h : t.slices = (s.modAfe c f).slices) :
    t.sl c = { s.sl c with afe := f (s.sl c).afe } ∧ OtherSlices c s t :=
  ⟨(sl_congr h c).trans (sl_modAfe s c f), fun d hd => (sl_congr h d).trans (sl_modAfe_ne s f hd)⟩

/-! ### The start of an interval -/

/-- The front end with the interval of pending kind `p` begun at `t` (R129, R130). -/
def Afe.begun (a : Afe) (p : CalPend) (t : Nat) : Afe :=
  { a with calPend := a.calPend.filter (fun q => q.kind != p.kind),
           calRun := some { kind := p.kind, origin := p.origin, start := t, freq := a.tunerFreq.toNat } }

/-- At a TB epoch, in a slice that is up, has lock and rests from its last interval, the interval of the kind that may
start begins; a tuner search asks for its tokens. -/
theorem calIntervalStart_does {s : State} {c : Fin 4} {p : CalPend} (hepoch : s.tb % 1048576 = 0)
    (hup : (s.sl c).up = true) (hrun : (s.sl c).afe.calRun = none) (hcoast : (s.sl c).clk.coast = false)
    (hrest : ∀ t, (s.sl c).afe.calEnd = some t → t + 51200000 ≤ s.tb) (hnext : (s.sl c).calNext s.tb = some p)
    (hok : p.kind = 2 → (s.sl c).afe.searchOk = true) :
    Does (.calIntervalStart c) s (fun t =>
      if p.kind ≠ 2 then t.modAfe c (fun a => a.begun p s.tb)
      else (t.modAfe c (fun a => a.begun p s.tb)).ask (14 + c.val) 10) := by
  have he : exec (.calIntervalStart c) s = execCalIntervalStart c s := rfl
  unfold execCalIntervalStart at he
  refine run_does_from he ?_
  rintro u o rfl
  have hrested : (match (u.sl c).afe.calEnd with
      | some t => decide (t + msTicks 50 ≤ u.tb)
      | none => true) = true := by
    cases h : (u.sl c).afe.calEnd with
    | none => rfl
    | some t => exact decide_eq_true (hrest t h)
  refine (if_pos ⟨hepoch, hup, Option.isNone_iff_eq_none.mpr hrun, hrested, congrArg (!·) hcoast⟩).trans ?_
  rw [show (u.sl c).calNext u.tb = some p from hnext]
  refine ite_congr rfl (fun _ => rfl) fun hkind => ?_
  exact if_pos (hok (not_not.mp hkind))

/-! ### The end of an interval -/

/-- The front end after an interval that disturbed every tuning (R130, R133). -/
def Afe.intervalOver (a : Afe) (start stop : Nat) : Afe :=
  Afe.done { a with calRun := none, searching := false, calEnd := some stop,
                    zeroed := a.zeroed ++ [(start, stop)], disturbed := a.disturbed ++ [(start, stop + 32)] }

theorem intervalOver_fields {a : Afe} (start stop : Nat) (h : a.calPend = []) :
    a.intervalOver start stop = { a with
      calRun := none, searching := false, calEnd := some stop, zeroed := a.zeroed ++ [(start, stop)],
      disturbed := a.disturbed ++ [(start, stop + 32)], events := a.events ||| 8 } :=
  if_pos ⟨List.isEmpty_iff.mpr h, rfl⟩

section
variable (s : State) (c : Fin 4)

/-- The commands that wait for a kind that ended change in no other field of the slices than their list. -/
theorem calCommands_slices (kind status : Nat) : ∃ cmds,
    (s.calCommands c kind status).slices = (s.modAfe c (fun a => { a with calCmds := cmds })).slices := by
  unfold State.calCommands
  exact ⟨_, slices_of_offRecord (offRecord_foldl (fun _ _ => complete_offRecord ..) _ _)⟩

/-- The end of an ADC calibration's interval, as far as the slices go. -/
theorem calFinish_adc_slices (origin status freq : Nat) {start stop : Nat} (early notStored : Bool) (v : List Int)
    (h : start < stop) : ∃ cmds, (s.calFinish c 1 origin status start stop freq early notStored v).slices =
      (s.modAfe c (fun a => { a.intervalOver start stop with calCmds := cmds })).slices := by
  let s1 := s.modAfe c (fun a => a.intervalOver start stop)
  have hover : s.modAfe c (fun a => Afe.done (
      if calDisturbs 1 ∧ start < stop then
        { a with calRun := none, searching := false, calEnd := some stop, zeroed := a.zeroed ++ [(start, stop)],
                 disturbed := a.disturbed ++ [(start, stop + 32)] }
      else { a with calRun := none, searching := false, calEnd := some stop })) = s1 :=
    modAfe_congr s (congrArg Afe.done (if_pos ⟨rfl, h⟩))
  unfold State.calFinish
  extract_lets flags last r s2 s3
  have hs3 : s3 = s1 := hover
  obtain ⟨cmds, hcmds⟩ := calCommands_slices (s3.stage 4 r) c 1 status
  have hstage : (s3.stage 4 r).slices = s1.slices := (slices_of_offRecord (stage_offRecord ..)).trans (congrArg _ hs3)
  refine ⟨cmds, hcmds.trans ((modAfe_slices_congr hstage c _).trans ?_)⟩
  rw [modAfe_modAfe]

theorem calStoreWrite_slices (kind : Nat) (v : List Int) (freq : Nat) :
    (s.calStoreWrite c kind v freq).1.slices = s.slices := by
  unfold State.calStoreWrite State.flashWrite
  cases (s.sl c).cart with
  | none => rfl
  | some k =>
    dsimp only
    by_cases hd : s.flashDenied (.pool 4) = true
    · rw [if_pos hd]
      rfl
    · rw [if_neg hd]
      obtain ⟨-, -, -, hslices⟩ := flashJob_leaves s (.pool 4) (.cal k.id kind v freq)
      exact hslices

end

/-- The front end in which an ADC calibration that ended has put its values in force (R127), where it was OK. -/
def Afe.adcTaken (a : Afe) (r : CalOutcome) (t : Nat) : Afe := if r.status = 0 then a.apply 1 r.fields t else a

theorem adcTaken_calPend (a : Afe) (r : CalOutcome) (t : Nat) : (a.adcTaken r t).calPend = a.calPend := by
  unfold Afe.adcTaken
  split
  · rfl
  · rfl

/-- CAL_INTERVAL_END of an ADC calibration changes the front end of its slice alone, and its waiting commands. -/
theorem calIntervalEnd_gives {s : State} {c : Fin 4} {r : CalOutcome} {origin start freq : Nat}
    (hrun : (s.sl c).afe.calRun = some { kind := 1, origin := origin, start := start, freq := freq })
    (hkind : r.kind = 1) (hstart : start < s.tb) : Gives (.calIntervalEnd c r) s (fun t => ∃ cmds,
      t.sl c = { s.sl c with afe :=
        { ((s.sl c).afe.adcTaken r s.tb).intervalOver start s.tb with calCmds := cmds } } ∧ OtherSlices c s t) := by
  have he : exec (.calIntervalEnd c r) s = execCalIntervalEnd c r s := rfl
  unfold execCalIntervalEnd at he
  refine run_gives_from he (fun _ _ _ _ h => h) ?_
  rintro u o rfl
  have hlt : start < u.tb := hstart
  dsimp only
  rw [show (u.sl c).afe.calRun = some { kind := 1, origin := origin, start := start, freq := freq } from hrun]
  dsimp only
  rw [if_neg (by simp [hkind])]
  by_cases hstatus : r.status = 0
  · let s1 := u.modAfe c (fun a => a.apply 1 r.fields u.tb)
    let s2 := s1.calStoreWrite c 1 r.fields freq
    obtain ⟨cmds, hcmds⟩ := calFinish_adc_slices s2.1 c origin Status.ok freq false s2.2 r.fields hlt
    have h := hcmds.trans (modAfe_slices_congr (calStoreWrite_slices s1 c 1 r.fields freq) c _)
    rw [modAfe_modAfe] at h
    rw [if_neg (not_not.mpr hstatus), if_neg (by decide), Afe.adcTaken, if_pos hstatus]
    exact ⟨cmds, sl_of_modAfe_slices h⟩
  · obtain ⟨cmds, hcmds⟩ := calFinish_adc_slices u c origin r.status.toNat freq false false [] hlt
    rw [if_pos hstatus, Afe.adcTaken, if_neg hstatus]
    exact ⟨cmds, sl_of_modAfe_slices hcmds⟩

/-! ### The mismatch monitor -/

/-- The front end after the monitor has measured return loss `rl` (R125, R126): below the threshold there is a mismatch,
and 1 dB above it none. -/
def Afe.measured (a : Afe) (rl real : Nat) : Afe :=
  let thresh := bf a.monCfg 0 16
  { a with
    rl := rl, measuredAt := some real,
    mismatch := if rl < thresh then true else if thresh + 10 ≤ rl then false else a.mismatch,
    events := if rl < thresh ∧ a.mismatch = false then a.events ||| 2
      else if thresh + 10 ≤ rl ∧ a.mismatch = true then a.events ||| 4 else a.events }

/-- A measurement at which the mismatch changes, with its event and its record. -/
theorem mismatchEdge_slices (s : State) (c : Fin 4) (rl real : Nat) (m : Bool) (event edge : Nat) :
    (((s.modAfe c (fun a => { a with rl := rl, measuredAt := some real })).modAfe c (fun a =>
        { a with mismatch := m, events := raise a.events event })).mismatchRecord c rl edge).slices =
      (s.modAfe c (fun a => { a with
        rl := rl, measuredAt := some real, mismatch := m, events := raise a.events event })).slices := by
  refine (slices_of_offRecord (stage_offRecord ..)).trans ?_
  rw [modAfe_modAfe]

/-- The measured front end below the threshold, without a mismatch before. -/
theorem measured_rise {a : Afe} (rl real : Nat) (hlow : rl < bf a.monCfg 0 16) (hm : a.mismatch = false) :
    a.measured rl real =
      { a with rl := rl, measuredAt := some real, mismatch := true, events := a.events ||| 2 } := by
  simp [Afe.measured, hlow, hm]

theorem measured_fall {a : Afe} (rl real : Nat) (hhigh : bf a.monCfg 0 16 + 10 ≤ rl) (hm : a.mismatch = true) :
    a.measured rl real =
      { a with rl := rl, measuredAt := some real, mismatch := false, events := a.events ||| 4 } := by
  simp [Afe.measured, hhigh, hm, show ¬ rl < bf a.monCfg 0 16 by omega]

/-- No edge: the mismatch stays as it is. -/
theorem measured_same {a : Afe} (rl real : Nat) (hlow : ¬ (rl < bf a.monCfg 0 16 ∧ a.mismatch = false))
    (hhigh : ¬ (bf a.monCfg 0 16 + 10 ≤ rl ∧ a.mismatch = true)) :
    a.measured rl real = { a with rl := rl, measuredAt := some real } := by
  have hm : (if rl < bf a.monCfg 0 16 then true else if bf a.monCfg 0 16 + 10 ≤ rl then false else a.mismatch)
      = a.mismatch := by
    cases h : a.mismatch with
    | false => rw [if_neg fun hl => hlow ⟨hl, h⟩, ite_self]
    | true => rw [if_neg (fun hh => hhigh ⟨hh, h⟩ : ¬ bf a.monCfg 0 16 + 10 ≤ rl), ite_self]
  unfold Afe.measured
  dsimp only
  rw [if_neg hlow, if_neg hhigh, hm]

/-- MISMATCH_MEASUREMENT that is due changes the front end of its slice alone, and the requests that a mismatch
makes. -/
theorem mismatchMeasurement_gives {s : State} {c : Fin 4} (rl : BitVec 16)
    (hdue : (s.sl c).monitorDue s.real = true) : Gives (.mismatchMeasurement c rl) s (fun t => ∃ pend,
      t.sl c = { s.sl c with afe := { (s.sl c).afe.measured rl.toNat s.real with calPend := pend } }
        ∧ OtherSlices c s t) := by
  have he : exec (.mismatchMeasurement c rl) s = execMismatchMeasurement c rl s := rfl
  unfold execMismatchMeasurement at he
  refine run_gives_from he (fun _ _ _ _ h => h) ?_
  rintro u o rfl
  change ∃ pend, _ = { u.sl c with afe := { (u.sl c).afe.measured rl.toNat u.real with calPend := pend } }
    ∧ OtherSlices c u _
  dsimp only
  rw [if_pos (show (u.sl c).monitorDue u.real = true from hdue)]
  by_cases hrise : rl.toNat < bf (u.sl c).afe.monCfg 0 16 ∧ (u.sl c).afe.mismatch = false
  · rw [if_pos ⟨hrise.1, congrArg (!·) hrise.2⟩, measured_rise _ _ hrise.1 hrise.2]
    have h := mismatchEdge_slices u c rl.toNat u.real true 1 0
    split
    · obtain ⟨hsl, hother⟩ := sl_of_modAfe_slices ((modAfe_slices_congr h c (fun a => a.request 2 3 u.tb)).trans
        (congrArg State.slices (modAfe_modAfe ..)))
      obtain ⟨pend, hpend⟩ := request_calPend { (u.sl c).afe with
        rl := rl.toNat, measuredAt := some u.real, mismatch := true, events := (u.sl c).afe.events ||| 2 } 2 3 u.tb
      exact ⟨pend, hsl.trans (congrArg (fun a => { u.sl c with afe := a }) hpend), hother⟩
    · exact ⟨(u.sl c).afe.calPend, sl_of_modAfe_slices h⟩
  · rw [if_neg fun ⟨hl, hm⟩ => hrise ⟨hl, by simpa using hm⟩]
    by_cases hfall : bf (u.sl c).afe.monCfg 0 16 + 10 ≤ rl.toNat ∧ (u.sl c).afe.mismatch = true
    · rw [if_pos hfall, measured_fall _ _ hfall.1 hfall.2]
      exact ⟨(u.sl c).afe.calPend, sl_of_modAfe_slices (mismatchEdge_slices u c rl.toNat u.real false 2 1)⟩
    · rw [if_neg hfall, measured_same _ _ hrise hfall]
      exact ⟨(u.sl c).afe.calPend, sl_modAfe .., fun d hd => sl_modAfe_ne _ _ hd⟩

/-- Settles O31: the intervals that start, with a tuner search and without; the end of one of the ADC; and a measurement
of the mismatch monitor. -/
theorem calibrationIntervals : Obligations.CalibrationIntervals := by
  intro c s
  refine ⟨fun p hepoch hup hrun hcoast hrest hnext => ?starts, fun r origin start freq hrun hkind hstart hpend => ?ends,
    fun rl hdue => ?monitors⟩
  case starts =>
    intro started
    refine ⟨fun hkind => ?_, fun hkind hok => ?_⟩
    · have h := calIntervalStart_does hepoch hup hrun hcoast hrest hnext fun h => absurd h hkind
      simp only [if_pos hkind] at h
      exact h
    · have h := calIntervalStart_does hepoch hup hrun hcoast hrest hnext fun _ => hok
      simp only [if_neg (not_not.mpr hkind)] at h
      exact h
  case ends =>
    refine (calIntervalEnd_gives hrun hkind hstart).imp ?_
    rintro t ⟨cmds, hsl, hother⟩
    rw [intervalOver_fields start s.tb ((adcTaken_calPend ..).trans hpend)] at hsl
    rw [hsl]
    by_cases hstatus : r.status = 0
    · rw [Afe.adcTaken, if_pos hstatus]
      exact ⟨rfl, rfl, rfl, rfl, rfl, fun _ => ⟨rfl, rfl⟩, fun h => absurd hstatus h, rfl, hother⟩
    · rw [Afe.adcTaken, if_neg hstatus]
      exact ⟨rfl, rfl, rfl, rfl, rfl, fun h => absurd h hstatus, fun _ => ⟨rfl, rfl⟩, rfl, hother⟩
  case monitors =>
    intro thresh
    refine (mismatchMeasurement_gives rl hdue).imp ?_
    rintro t ⟨pend, hsl, hother⟩
    rw [hsl]
    exact ⟨rfl, rfl, rfl, rfl, rfl, hother⟩

end Sys2Proof.Machine
end

section
/-! SUPPORT. The trims of CAL_BG (R134, R135): of the DC correction of a tuning, and of the transmitter's
synthesiser. -/

namespace Sys2Proof.Machine

open Sys2Proof

/-- What an instruction does, in other words. -/
theorem Does.congr {i : Instr} {s : State} {f g : State → State} (h : Does i s f)
    (hfg : ∀ u o, s = { u with out := o } → f u = g u) : Does i s g := by
  obtain ⟨t, ht, hsame⟩ := h
  rw [hfg { s with out := [] } s.out rfl] at hsame
  exact ⟨t, ht, hsame⟩

/-! ### The RSSI windows of the reader (R190) -/

/-- Without windows nothing is taken. -/
theorem dcRun_empty (s : State) (c : Fin 4) (t : Fin 32) (stop : Nat) : s.dcRun c t ⟨stop, []⟩ = s := by
  unfold State.dcRun
  split
  · rfl
  · exact if_neg fun h => h.1 rfl

/-- The windows that are due to the reader of the tuning are taken. -/
theorem dcRun_due {s : State} {c : Fin 4} {t : Fin 32} {r : InstRef} {rssi : RssiRun}
    (hreader : (s.sl c).readerOf t.val = some r) (hne : rssi.values ≠ []) (hdue : (s.sl c).runDue r rssi = true) :
    s.dcRun c t rssi = s.takeRun c r rssi := by
  unfold State.dcRun
  rw [hreader]
  exact if_pos ⟨hne, hdue⟩

theorem takeRun_frame (s : State) (c : Fin 4) (r : InstRef) (rssi : RssiRun) :
    (s.takeRun c r rssi).frame c = s.frame c := by
  unfold State.takeRun
  dsimp only
  split
  · rfl
  · split
    · exact modAcquirer_frame ..
    · exact (modAfe_frame ..).trans (modAcquirer_frame ..)

theorem takeRun_tb (s : State) (c : Fin 4) (r : InstRef) (rssi : RssiRun) : (s.takeRun c r rssi).tb = s.tb := by
  unfold State.takeRun
  dsimp only
  split
  · rfl
  · split
    · rfl
    · rfl

/-- The windows taken depend on the slices alone. -/
theorem takeRun_slices_congr {s t : State} (h : t.slices = s.slices) (c : Fin 4) (r : InstRef) (rssi : RssiRun) :
    (t.takeRun c r rssi).slices = (s.takeRun c r rssi).slices := by
  unfold State.takeRun
  rw [sl_congr h c]
  dsimp only
  cases (s.sl c).inForce with
  | none => exact h
  | some f =>
    have hacq (g : Acq → Acq) : (t.modAcquirer c r g).slices = (s.modAcquirer c r g).slices := modSl_slices_congr h c _
    dsimp only
    rw [sl_congr (hacq _) c]
    split
    · exact hacq _
    · exact modAfe_slices_congr (hacq _) c _

theorem inForce_of_frame {s t : State} {c : Fin 4} (h : t.frame c = s.frame c) :
    (t.sl c).inForce = (s.sl c).inForce := by
  unfold Slice.inForce Slice.forme
  rw [ctl_of_frame h, active_of_frame h]

/-! ### The DC trim -/

/-- The front end in which the DC trim of tuning `t` has ended as done (R134). -/
def Afe.dcDone (a : Afe) (t : Nat) : Afe :=
  { a with bgDc := a.bgDc.filter (fun k => k != t), bgTrims := min (a.bgTrims + 1) 0xFFFF }

/-- The DC correction of a tuning moves at the next sample, each component by at most 2048 steps (R134). -/
def Tuning.dcMoved (u : Tuning) (di dq : Int) : Tuning :=
  { u with dcPend := some ⟨u.dc.re + max (-2048) (min 2048 di), u.dc.im + max (-2048) (min 2048 dq)⟩ }

/-- A row of CALBG_DC_TRIM without windows, on a tuning that may be trimmed, begins a trim or ends the one that runs. -/
theorem calbgDcTrim_does {s : State} {c : Fin 4} {f : Forme} {t : Fin 32} (di dq : Int) (stop : Nat)
    (hforme : (s.sl c).inForce = some f) (hon : s.calBgOn c = true) (hfeeds : f.feedsLdb t.val = true)
    (hcoast : (s.sl c).clk.coast = false) (hquiet : (s.sl c).dcQuiet f t.val s.tb = true) :
    Does (.calbgDcTrim c t di dq ⟨stop, []⟩) s (fun s =>
      if (s.sl c).afe.bgDc.contains t.val then
        s.modSl c (fun x => { x.modTun t.val (fun u => u.dcMoved di dq) with afe := x.afe.dcDone t.val })
      else s.modAfe c (fun a => { a with bgDc := a.bgDc ++ [t.val] })) := by
  have he : exec (.calbgDcTrim c t di dq ⟨stop, []⟩) s = execCalbgDcTrim c t di dq ⟨stop, []⟩ s := rfl
  unfold execCalbgDcTrim at he
  refine run_does_from he ?_
  rintro u o rfl
  have hgoes : ¬ (!(u.calBgOn c) || (u.sl c).clk.coast || !f.feedsLdb t.val
      || !(u.sl c).dcQuiet f t.val u.tb) = true := by
    simp [show u.calBgOn c = true from hon, show (u.sl c).clk.coast = false from hcoast, hfeeds,
      show (u.sl c).dcQuiet f t.val u.tb = true from hquiet]
  dsimp only
  rw [dcRun_empty, show (u.sl c).inForce = some f from hforme]
  dsimp only
  rw [if_neg hgoes, State.modAfe, State.modSl_modSl]
  rfl

/-- Where the reader has heard more than its threshold within 2 ms, the row only takes the windows that it brings. -/
theorem calbgDcTrim_loud {s : State} {c : Fin 4} {f : Forme} {t : Fin 32} (di dq : Int) {rssi : RssiRun}
    {g : State → State} (h : ∀ u o, s = { u with out := o } → u.dcRun c t rssi = g u ∧ ((g u).sl c).inForce = some f
      ∧ ((g u).sl c).dcQuiet f t.val (g u).tb = false) : Does (.calbgDcTrim c t di dq rssi) s g := by
  have he : exec (.calbgDcTrim c t di dq rssi) s = execCalbgDcTrim c t di dq rssi s := rfl
  unfold execCalbgDcTrim at he
  refine run_does_from he fun u o hu => ?_
  obtain ⟨hrun, hforme, hloud⟩ := h u o hu
  dsimp only
  rw [hrun, hforme]
  exact if_pos (by simp [hloud])

/-! ### The trim of the synthesiser -/

section
variable {s : State} {c : Fin 4} (abandoned : Bool)

theorem calbgSynthTrim_begins (hon : s.calBgOn c = true) (hrun : (s.sl c).afe.bgRun = false)
    (hidle : (s.sl c).tx.state = .idle) (hcmd : (s.sl c).tx.cmd = none)
    (hdown : (s.sl c).tx.lastRampDown + 204800 ≤ s.real) :
    Does (.calbgSynthTrim c abandoned) s (fun t =>
      t.modAfe c (fun a => { a with bgRun := true, bgStart := t.tb })) := by
  have he : exec (.calbgSynthTrim c abandoned) s = execCalbgSynthTrim c abandoned s := rfl
  unfold execCalbgSynthTrim at he
  refine run_does_from he ?_
  rintro u o rfl
  exact (if_neg (ne_true_of_eq_false hrun)).trans
    (if_pos ⟨hon, hidle, Option.isNone_iff_eq_none.mpr hcmd, hdown⟩)

/-- The front end after a trim of the synthesiser that ends at `t` (R135). -/
def Afe.synthEnded (a : Afe) (abandoned : Bool) (t : Nat) : Afe :=
  if abandoned = true ∧ t < a.bgStart + 102400 then
    { a with bgRun := false, bgAbandoned := min (a.bgAbandoned + 1) 0xFFFF, events := a.events ||| 0x10 }
  else { a with bgRun := false, bgTrims := min (a.bgTrims + 1) 0xFFFF }

theorem calbgSynthTrim_ends (hrun : (s.sl c).afe.bgRun = true) :
    Does (.calbgSynthTrim c abandoned) s (fun t => t.modAfe c (fun a => a.synthEnded abandoned t.tb)) := by
  have he : exec (.calbgSynthTrim c abandoned) s = execCalbgSynthTrim c abandoned s := rfl
  unfold execCalbgSynthTrim at he
  refine run_does_from he ?_
  rintro u o rfl
  refine (if_pos hrun).trans (modAfe_congr u ?_)
  refine if_congr ?_ rfl rfl
  rw [Bool.and_eq_true, Afe.synthTrim, show (u.sl c).afe.bgRun = true from hrun, Bool.true_and, decide_eq_true_iff]
  rfl

end

/-- Settles O32: a DC trim that begins, one that ends and a row that finds no quiet; a trim of the synthesiser that
begins and one that ends. -/
theorem backgroundTrims : Obligations.BackgroundTrims := by
  intro c s hon
  refine ⟨fun f t di dq hforme hfeeds hcoast => ?dc,
    fun abandoned => ⟨fun hrun hidle hcmd hdown => ?begins, fun hrun => ?ends⟩⟩
  case dc =>
    intro clip none_
    refine ⟨fun hquiet => ?_, fun hloud => ?_, fun r rssi hreader hne hdue hloud => ?_⟩
    · have hdoes := calbgDcTrim_does di dq 0 hforme hon hfeeds hcoast hquiet
      refine ⟨fun hidle => ?_, fun hruns => ?_⟩
      · refine hdoes.congr ?_
        rintro u o rfl
        exact if_neg (ne_true_of_eq_false hidle)
      · refine hdoes.congr ?_
        rintro u o rfl
        exact if_pos hruns
    · refine calbgDcTrim_loud (f := f) di dq ?_
      rintro u o rfl
      exact ⟨dcRun_empty u c t 0, hforme, hloud⟩
    · refine calbgDcTrim_loud (f := f) di dq ?_
      rintro u o rfl
      have hsl := sl_congr (takeRun_slices_congr (t := u) (s := { u with out := o }) rfl c r rssi) c
      refine ⟨dcRun_due hreader hne hdue, (inForce_of_frame (takeRun_frame ..)).trans hforme, ?_⟩
      rw [takeRun_tb, hsl]
      exact hloud
  case begins => exact calbgSynthTrim_begins abandoned hon hrun hidle hcmd hdown
  case ends => exact calbgSynthTrim_ends abandoned hrun

end Sys2Proof.Machine
end

section
/-! SUPPORT. Changes of a tuning, and its runtime registers (R151 to R153, R155 to R157): the bank swaps and the writes
that a tuning takes or rejects. -/

namespace Sys2Proof.Machine

open Sys2Proof

/-! ### Tables and tunings that change -/

/-- Only what a change makes of the entry itself counts. -/
theorem vmod_congr {α : Type} {n : Nat} (v : Vector α n) {i : Nat} {f g : α → α} (d : α)
    (h : f (vget v i d) = g (vget v i d)) : vmod v i f = vmod v i g := by
  unfold vmod
  split
  next hi =>
    rw [vget, dif_pos hi] at h
    rw [h]
  next => rfl

theorem vmod_vmod {α : Type} {n : Nat} (v : Vector α n) (i : Nat) (f g : α → α) :
    vmod (vmod v i f) i g = vmod v i (fun a => g (f a)) := by
  by_cases hi : i < n
  · simp [vmod, hi]
  · simp [vmod, hi]

theorem modTun_congr (x : Slice) {t : Nat} {f g : Tuning → Tuning} (h : f (x.tunAt t) = g (x.tunAt t)) :
    x.modTun t f = x.modTun t g := congrArg (fun v => { x with tun := v }) (vmod_congr x.tun Tuning.reset h)

theorem modTun_modTun (x : Slice) (t : Nat) (f g : Tuning → Tuning) :
    (x.modTun t f).modTun t g = x.modTun t (fun u => g (f u)) :=
  congrArg (fun v => { x with tun := v }) (vmod_vmod x.tun t f g)

/-- Of a change of tuning `t` only what it makes of that tuning counts. -/
theorem modSl_modTun_congr (s : State) {c : Fin 4} {t : Nat} {f g : Tuning → Tuning}
    (h : f ((s.sl c).tunAt t) = g ((s.sl c).tunAt t)) :
    s.modSl c (fun x => x.modTun t f) = s.modSl c (fun x => x.modTun t g) := modSl_congr s (modTun_congr _ h)

/-! ### Writes to the registers of a tuning (R156) -/

/-- A tuning that exists is one of a slice in RUNNING, which serves its registers. -/
theorem served_of_tunExists {x : Slice} {t : Nat} (h : x.tunExists t = true) : x.ctl.state.served = true := by
  have hrun : x.ctl.state = .running := by
    by_contra hne
    simp [Slice.tunExists, Slice.inForce, hne] at h
  rw [hrun]
  rfl

theorem tunWrite_exists {s : State} {c : Fin 4} {t : Nat} (h : (s.sl c).tunExists t = true) (f : Tuning → Tuning) :
    s.tunWrite c t f = s.modSl c (fun x => x.modTun t f) :=
  modSl_congr s (modTun_congr _ (if_pos h))

theorem tunWrite_absent {s : State} {c : Fin 4} {t : Nat} (h : (s.sl c).tunExists t = false) (f : Tuning → Tuning) :
    s.tunWrite c t f = s.modSl c (fun x => x.modTun t (fun u => { u with events := u.events ||| 0x80 })) :=
  modSl_congr s (modTun_congr _ (if_neg (ne_true_of_eq_false h)))

section
variable {i : Instr} {s : State} {c : Fin 4} {t off : Nat} {g : Nat → Tuning → Tuning}
  (he : exec i s = run s (fun s => s.sliceWrite c off fun s => s.tunWrite c t (g s.tb)))
include he

/-- A write to a register of a tuning that exists. -/
theorem tunWrite_does (hex : (s.sl c).tunExists t = true) {f : Tuning → Tuning}
    (h : g s.tb ((s.sl c).tunAt t) = f ((s.sl c).tunAt t)) : Does i s (fun s => s.modSl c (fun x => x.modTun t f)) := by
  refine run_does_from he ?_
  rintro u o rfl
  exact (sliceWrite_served (s := u) (served_of_tunExists hex) ..).trans
    ((tunWrite_exists (s := u) hex _).trans (modSl_modTun_congr u h))

/-- A write to a register of a tuning that does not exist, in a slice that serves its registers. -/
theorem tunWrite_discarded (hs : (s.sl c).ctl.state.served = true) (hex : (s.sl c).tunExists t = false) :
    Does i s (fun s => s.modSl c (fun x => x.modTun t (fun u => { u with events := u.events ||| 0x80 }))) := by
  refine run_does_from he ?_
  rintro u o rfl
  exact (sliceWrite_served (s := u) hs ..).trans (tunWrite_absent (s := u) hex _)

end

/-! ### Requests for a bank swap (R152, R153) -/

theorem writeBank_request (u : Tuning) (target : Bool) (now : Nat) :
    u.writeBank (mkWord [(1, 1, b2n target), (0, 1, 1)]) now = ({ u with target := target }).request target now := by
  cases target <;> rfl

section
variable {u : Tuning} (target : Bool) (now : Nat)

theorem swapRequest_first (hfade : u.xfade = none) (hpend : u.bankPend = none) :
    u.request target now = { u with bankPend := some (now + 1024, target) } := by
  simp [Tuning.request, hfade, hpend, usTicks]

theorem swapRequest_supersedes (hfade : u.xfade = none) (hpend : u.bankPend ≠ none) :
    u.request target now = { u with
      bankPend := some (now + 1024, target), superseded := min (u.superseded + 1) 0xFFFF,
      events := u.events ||| 8 } := by
  have hsome : u.bankPend.isSome = true := Option.isSome_iff_ne_none.mpr hpend
  simp [Tuning.request, hfade, hsome, usTicks, count, sat, raise]

theorem swapRequest_held (hfade : u.xfade ≠ none) (hheld : u.heldReq = none) :
    u.request target now = { u with heldReq := some target } := by
  have hsome : u.xfade.isSome = true := Option.isSome_iff_ne_none.mpr hfade
  simp [Tuning.request, hsome, hheld]

end

/-- BANK_SWAP_REQUEST to a tuning that exists changes it as its request does. -/
theorem bankSwapRequest_does {c : Fin 4} {t : Fin 32} {target : Bool} {s : State}
    (hex : (s.sl c).tunExists t.val = true) {f : Tuning → Tuning}
    (h : ({ (s.sl c).tunAt t.val with target := target } : Tuning).request target s.tb = f ((s.sl c).tunAt t.val)) :
    Does (.bankSwapRequest c t target) s (fun s => s.modSl c (fun x => x.modTun t.val f)) :=
  tunWrite_does (g := fun now u => u.writeBank (mkWord [(1, 1, b2n target), (0, 1, 1)]) now) rfl hex
    ((writeBank_request ..).trans h)

/-! ### Swaps that execute (R152) -/

section
variable {x : Slice} {f : Forme} {t : Nat} {target : Bool}

theorem execSwap_null (h : target = (x.tunAt t).bank) :
    x.execSwap f t target = x.modTun t (fun u => { u with events := u.events ||| 0x20 }) :=
  (if_neg fun hfade => hfade.2.1.2 h).trans (modTun_congr x (if_pos h))

theorem execSwap_plain (h : target ≠ (x.tunAt t).bank) (hlen : tnXfade (f.tn t) = 0) :
    x.execSwap f t target = x.modTun t (fun u =>
      { u with bank := target, swaps := min (u.swaps + 1) 0xFFFF, events := u.events ||| 0x10 }) :=
  (if_neg fun hfade => hfade.2.1.1 hlen).trans (modTun_congr x ((if_neg h).trans (if_pos hlen)))

end

/-- BANK_SWAP at the boundary after the request takes the request and executes the swap. -/
theorem bankSwap_does {c : Fin 4} {t : Fin 32} {s : State} {f : Forme} {at_ last : Nat} {target : Bool}
    (hforme : (s.sl c).inForce = some f) (hpend : ((s.sl c).tunAt t.val).bankPend = some (at_, target))
    (hlast : ((s.sl c).tunAt t.val).lastTs = some last) (hdue : at_ ≤ last)
    (hfade : ((s.sl c).tunAt t.val).xfade = none) (hruns : (s.sl c).tunRuns t.val = true) :
    Does (.bankSwap c t) s (fun s => s.modSl c (fun x =>
      (x.modTun t.val (fun u => { u with bankPend := none })).execSwap f t.val target)) := by
  have he : exec (.bankSwap c t) s = execBankSwap c t s := rfl
  unfold execBankSwap at he
  refine run_does_from he ?_
  rintro u o rfl
  dsimp only
  rw [show (u.sl c).inForce = some f from hforme, show ((u.sl c).tunAt t.val).bankPend = some (at_, target) from hpend,
    show ((u.sl c).tunAt t.val).lastTs = some last from hlast]
  exact if_pos ⟨hruns, Option.isNone_iff_eq_none.mpr hfade, hdue⟩

/-- XFADE_END after the last blend, where no request is held. -/
theorem xfadeEnd_does {c : Fin 4} {t : Fin 32} {s : State} {f : Forme} {k : Xfade}
    (hforme : (s.sl c).inForce = some f) (hfade : ((s.sl c).tunAt t.val).xfade = some k) (hmade : k.len ≤ k.made)
    (hheld : ((s.sl c).tunAt t.val).heldReq = none) :
    Does (.xfadeEnd c t) s (fun s => s.modSl c (fun x => x.modTun t.val (fun u => { u with xfade := none }))) := by
  have he : exec (.xfadeEnd c t) s = execXfadeEnd c t s := rfl
  unfold execXfadeEnd at he
  refine run_does_from he ?_
  rintro u o rfl
  have hheld' : ((u.sl c).tunAt t.val).heldReq = none := hheld
  dsimp only
  rw [show (u.sl c).inForce = some f from hforme, show ((u.sl c).tunAt t.val).xfade = some k from hfade, hheld']
  refine (if_pos hmade).trans (modSl_modTun_congr u (f := fun u => { u with xfade := none, heldReq := none }) ?_)
  rw [← hheld']

/-- Settles O35: requests that are the first, a second one and one during a cross-fade; a null swap and a plain one;
the end of a cross-fade. -/
theorem bankSwaps : Obligations.BankSwaps := by
  intro c t s u put
  refine ⟨fun hex target => ⟨fun hfade hpend => ?_, fun hfade hpend => ?_, fun hfade hheld => ?_⟩,
    fun f at_ target last hforme hpend hlast hdue hfade hruns => ?swap, fun f k hforme hfade hmade hheld => ?_⟩
  · exact bankSwapRequest_does hex (swapRequest_first target s.tb hfade hpend)
  · exact bankSwapRequest_does hex (swapRequest_supersedes target s.tb hfade hpend)
  · exact bankSwapRequest_does hex (swapRequest_held target s.tb hfade hheld)
  case swap =>
    have hdoes := bankSwap_does hforme hpend hlast hdue hfade hruns
    have hbank : (((s.sl c).modTun t.val (fun u => { u with bankPend := none })).tunAt t.val).bank = u.bank :=
      (congrArg Tuning.bank (tunAt_modTun_same _ _ t.isLt) : _)
    refine ⟨fun hnull => ?_, fun hother hlen => ?_⟩
    · refine hdoes.congr ?_
      rintro v o rfl
      exact modSl_congr v ((execSwap_null (hnull.trans hbank.symm)).trans (modTun_modTun ..))
    · refine hdoes.congr ?_
      rintro v o rfl
      exact modSl_congr v ((execSwap_plain (fun h => hother (h.trans hbank)) hlen).trans (modTun_modTun ..))
  · exact xfadeEnd_does hforme hfade hmade hheld

end Sys2Proof.Machine
end

section
/-! SUPPORT. Writes of the oscillator and of the coefficients (R151, R155, R157), and what a retune does to the tuning
and to the demodulator that reads it (R166). -/

namespace Sys2Proof.Machine

open Sys2Proof

/-! ### Effects, tables and iterations -/

/-- The effect of a command counts on the state that it starts on. -/
theorem run_congr {s : State} {f g : State → State} (h : ∀ u o, s = { u with out := o } → f u = g u) :
    run s f = run s g := by
  unfold run
  rw [h { s with out := [] } s.out rfl]

/-- A property of the entries that a change keeps, every entry keeps. -/
theorem apply_vget_vmod {α β : Type} {n : Nat} (p : α → β) (v : Vector α n) (i j : Nat) {f : α → α} (d : α)
    (h : ∀ a, p (f a) = p a) : p (vget (vmod v i f) j d) = p (vget v j d) := by
  by_cases hj : j = i
  · subst hj
    by_cases hlt : j < n
    · rw [vget_vmod_same v f d hlt, h]
    · rw [vmod, dif_neg hlt]
  · rw [vget_vmod_ne v f d hj]

/-- An iteration whose every round keeps `p` does so. -/
theorem foldl_keeps {σ α β : Type} (p : σ → β) {g : σ → α → σ} (h : ∀ x a, p (g x a) = p x) (l : List α)
    (x : σ) : p (l.foldl g x) = p x :=
  (List.foldl_hom p (g₂ := fun b _ => b) (fun x a => (h x a).symm)).symm.trans (List.foldl_fixed _)

/-! ### Coefficients (R155, R157) -/

theorem bankFree_iff (u : Tuning) (b : Nat) : u.bankFree b = true ↔ u.xfade = none ∧ b2n u.bank ≠ b := by
  simp [Tuning.bankFree]

/-- Tuning `u` with the coefficients `l` in bank `b`, and their CRC. -/
def Tuning.putBank (u : Tuning) (b : Nat) (l : List (BitVec 20)) : Tuning :=
  { u with coef := vmod u.coef b (fun _ => l), coefCrc := vmod u.coefCrc b (fun _ => coefCrcOf l) }

section
variable {x : Slice} {f : Forme} {t b i : Nat} (hforme : x.inForce = some f) (v : Word)
include hforme

theorem writeCoef_free (hword : i < coefWords (tnTaps (f.tn t))) (hfade : (x.tunAt t).xfade = none)
    (hbank : b2n (x.tunAt t).bank ≠ b) (hex : x.tunExists t = true) :
    x.writeCoef t b i v = x.modTun t (fun u =>
      u.putBank b (lmod (vget (x.tunAt t).coef b []) i (fun _ => BitVec.ofNat 20 (bf v 0 20)))) := by
  unfold Slice.writeCoef
  rw [hforme]
  exact if_pos ⟨hex, hword, (bankFree_iff ..).mpr ⟨hfade, hbank⟩⟩

theorem writeCoef_refused
    (h : ¬ (i < coefWords (tnTaps (f.tn t)) ∧ (x.tunAt t).xfade = none ∧ b2n (x.tunAt t).bank ≠ b)) :
    x.writeCoef t b i v = x.modTun t (fun u => { u with events := u.events ||| 4 }) := by
  unfold Slice.writeCoef
  rw [hforme]
  refine if_neg ?_
  rintro ⟨-, hword, hfree⟩
  exact h ⟨hword, (bankFree_iff ..).mp hfree⟩

end

/-- COEF_WRITE, in a slice that serves its registers. -/
theorem coefWrite_does {c : Fin 4} {t : Fin 32} {b : Fin 2} {k : Fin 128} {v : Word} {s : State}
    (hs : (s.sl c).ctl.state.served = true) {f : Tuning → Tuning}
    (h : (s.sl c).writeCoef t.val b.val k.val v = (s.sl c).modTun t.val f) :
    Does (.coefWrite c t b k v) s (fun s => s.modSl c (fun x => x.modTun t.val f)) := by
  have he : exec (.coefWrite c t b k v) s = execCoefWrite c t b k v s := rfl
  refine run_does_from he ?_
  rintro u o rfl
  exact (sliceWrite_served (s := u) hs ..).trans (modSl_congr u h)

/-! ### The burst that a retune aborts (R197) -/

/-- What the end of a burst leaves alone in slice `c`: its tunings and the states of its instances. -/
def State.tuned (c : Fin 4) (s : State) : Vector Tuning 32 × (Nat → InstState) :=
  ((s.sl c).tun, fun n => ((s.sl c).instAt n).state)

section
variable (s : State) (c : Fin 4) (r : InstRef)

theorem modAcquirer_tuned (f : Acq → Acq) : (s.modAcquirer c r f).tuned c = s.tuned c := by
  unfold State.tuned State.modAcquirer
  rw [State.sl_modSl]
  cases r <;> rfl

theorem stage_tuned (q : Fin 256) (k : Record) : (s.stage q k).tuned c = s.tuned c := by
  unfold State.tuned
  rw [sl_of_offRecord (stage_offRecord ..)]

theorem burstRecord_tuned (b : Burst) (outcome cause snr : Nat) (rise : Int) (done : Nat) :
    (s.burstRecord c r b outcome cause snr rise done).tuned c = s.tuned c := by
  unfold State.burstRecord
  dsimp only
  split
  · rfl
  · exact stage_tuned ..

theorem burstFail_tuned : (s.burstFail c r).tuned c = s.tuned c := by
  unfold State.tuned State.burstFail
  rw [State.sl_modSl]
  cases r with
  | inst n => exact Prod.ext rfl (funext fun m => apply_vget_vmod Inst.state _ n.val m Inst.reset fun _ => rfl)
  | cand n => rfl

theorem abortOne_tuned (b : Burst) (cause : Nat) : (s.abortOne c r b cause).tuned c = s.tuned c := by
  unfold State.abortOne
  dsimp only
  rw [modAcquirer_tuned]
  split
  · rw [burstFail_tuned, burstRecord_tuned]
  · rfl

theorem abortBurst_tuned (cause : Nat) : (s.abortBurst c r cause).tuned c = s.tuned c := by
  have htails (l : List Burst) : (l.foldl (fun t b => t.abortOne c r b cause) s).tuned c = s.tuned c :=
    foldl_keeps (State.tuned c) (fun t b => abortOne_tuned t c r b cause) l s
  unfold State.abortBurst
  dsimp only
  split
  · rfl
  · split <;> simp [htails, modAcquirer_tuned, abortOne_tuned, apply_ite (State.tuned c)]

end

/-! ### Retunes (R151, R166) -/

/-- A retune returns a demodulator in SYNC to SEARCH and leaves the tunings. -/
theorem retuneInst_search (s : State) (c : Fin 4) (n : Fin 48) (hsync : ((s.sl c).instAt n.val).state = .sync) :
    ((s.retuneInst c (.inst n)).sl c).tun = (s.sl c).tun
      ∧ (((s.retuneInst c (.inst n)).sl c).instAt n.val).state = .search := by
  have hkeeps : ((s.abortBurst c (.inst n) 2).modAcquirer c (.inst n) (fun a => { a with offsets := [] })).tuned c
      = s.tuned c := (modAcquirer_tuned ..).trans (abortBurst_tuned ..)
  unfold State.retuneInst
  generalize (s.abortBurst c (.inst n) 2).modAcquirer c (.inst n) (fun a => { a with offsets := [] }) = u at hkeeps ⊢
  have htun : (u.sl c).tun = (s.sl c).tun := congrArg Prod.fst hkeeps
  have hstate : ((u.sl c).demod (.inst n)).state = .sync := (congrFun (congrArg Prod.snd hkeeps) n.val).trans hsync
  have hbusy : ((u.sl c).demod (.inst n)).state.busy = true := by rw [hstate]; rfl
  have hleaves : ¬ ((u.sl c).demod (.inst n)).state = .track := by rw [hstate]; decide
  rw [if_pos hbusy, State.toSearch, if_neg hleaves, State.sl_modSl]
  exact ⟨htun, congrArg Inst.state (vget_vmod_same _ _ _ n.isLt)⟩

theorem retuneInst_frame (s : State) (c : Fin 4) (r : InstRef) : (s.retuneInst c r).frame c = s.frame c := by
  unfold State.retuneInst State.toSearch
  dsimp only
  simp only [frame_ite, leftTrack_frame, modDemod_frame, modAcquirer_frame, abortBurst_frame, ite_self]

/-- Tuning `u` with the oscillator value of its register in force and `k` samples or more to settle (R151). -/
def Tuning.retuned (u : Tuning) (k : Nat) : Tuning :=
  { u with ncoNow := u.ncoReg, ncoPend := none, unsettled := max u.unsettled k }

/-- A retune reaches the demodulator that reads the tuning, where there is one. -/
def State.retuneReader (s : State) (c : Fin 4) : Option InstRef → State
  | some r => s.retuneInst c r
  | none => s

/-- NCO_RETUNE at the boundary after the write. -/
theorem exec_ncoRetune_due {c : Fin 4} {t : Fin 32} {s : State} {f : Forme} {at_ last : Nat} {r : Option InstRef}
    (hforme : (s.sl c).inForce = some f) (hpend : ((s.sl c).tunAt t.val).ncoPend = some at_)
    (hlast : ((s.sl c).tunAt t.val).lastTs = some last) (hdue : at_ ≤ last) (hruns : (s.sl c).tunRuns t.val = true)
    (hreader : (s.sl c).readerOf t.val = r) :
    exec (.ncoRetune c t) s = run s (fun u =>
      (u.modSl c (fun x =>
        x.modTun t.val (fun v => v.retuned (((s.sl c).confOf f t.val).settle + 1)))).retuneReader c r) := by
  have he : exec (.ncoRetune c t) s = execNcoRetune c t s := rfl
  unfold execNcoRetune at he
  refine he.trans (run_congr ?_)
  rintro u o rfl
  dsimp only
  rw [show (u.sl c).inForce = some f from hforme, show ((u.sl c).tunAt t.val).ncoPend = some at_ from hpend,
    show ((u.sl c).tunAt t.val).lastTs = some last from hlast, show (u.sl c).readerOf t.val = r from hreader]
  refine (if_pos ⟨hruns, hdue⟩).trans ?_
  cases r <;> rfl

/-- The retune of a tuning that a demodulator in SYNC reads. -/
theorem retuned_sync (s : State) {c : Fin 4} {t : Nat} (ht : t < 32) {n : Fin 48} (k : Nat)
    (hsync : ((s.sl c).instAt n.val).state = .sync) :
    let r := (s.modSl c (fun x => x.modTun t (fun u => u.retuned k))).retuneInst c (.inst n)
    (r.sl c).tunAt t = ((s.sl c).tunAt t).retuned k ∧ ((r.sl c).instAt n.val).state = .search
      ∧ r.frame c = s.frame c := by
  have hsl := s.sl_modSl c (fun x => x.modTun t (fun u => u.retuned k))
  obtain ⟨htun, hstate⟩ := retuneInst_search (s.modSl c (fun x => x.modTun t (fun u => u.retuned k))) c n
    (by rw [hsl]; exact hsync)
  refine ⟨?_, hstate, (retuneInst_frame ..).trans (modTun_frame ..)⟩
  rw [Slice.tunAt, htun, hsl]
  exact tunAt_modTun_same _ _ ht

/-- Settles O34: NCO_FREQ written to a tuning that exists and to one that does not, its boundary without a reader and
with one in SYNC, and a coefficient write to a free word and to another. -/
theorem ncoAndCoefficients : Obligations.NcoAndCoefficients := by
  intro c t s hs u put
  refine ⟨fun v => ⟨fun hex => ?_, fun hex => ?_⟩, fun f at_ last hforme hpend hlast hdue hruns => ?retune,
    fun b k v f hforme hex => ?coef⟩
  · exact tunWrite_does (g := fun now u => u.writeNco v now) rfl hex rfl
  · exact tunWrite_discarded (g := fun now u => u.writeNco v now) rfl hs hex
  case retune =>
    have he (r : Option InstRef) := exec_ncoRetune_due (r := r) hforme hpend hlast hdue hruns
    refine ⟨fun hreader => ?_, fun n hreader hsync => ?_⟩
    · exact run_does_from (he _ hreader) fun _ _ _ => rfl
    · refine run_gives_from (he _ hreader) (fun _ _ _ _ h => h) ?_
      rintro v o rfl
      obtain ⟨htun, hstate, hframe⟩ := retuned_sync v t.isLt (((v.sl c).confOf f t.val).settle + 1) hsync
      exact ⟨(congrArg Tuning.ncoNow htun : _), (congrArg Tuning.ncoPend htun : _), (congrArg Tuning.index htun : _),
        hstate, ctl_of_frame hframe, sram_of_frame hframe⟩
  case coef =>
    intro free l
    refine ⟨fun hfree => ?_, fun hbusy => coefWrite_does hs (writeCoef_refused hforme v hbusy)⟩
    obtain ⟨hword, hfade, hbank⟩ := hfree
    exact coefWrite_does hs (writeCoef_free hforme v hword hfade hbank hex)

end Sys2Proof.Machine
end

section
/-! SUPPORT. One output sample of a tuning (R146 to R150), and what its readers leave alone when samples and records are
handed over (R149, R288). -/

namespace Sys2Proof.Machine

open Sys2Proof

/-! ### The chain (R139 to R142) -/

/-- An ADC sample counts in the chain and leaves the air time of its reset. -/
theorem adc_fields (k : Chain) (cf : ChainConf) (freq : Word) (x : Int) :
    (k.adc cf freq x).1.n = k.n + 1 ∧ (k.adc cf freq x).1.at_ = k.at_ := by
  unfold Chain.adc
  dsimp only
  split
  · exact ⟨rfl, rfl⟩
  · split
    · exact ⟨rfl, rfl⟩
    · split <;> exact ⟨rfl, rfl⟩

theorem adcs_fields (cf : ChainConf) (freq : Word) (l : List Int) (r : Chain × Nat) :
    (Chain.adcs cf freq l r).1.n = r.1.n + l.length ∧ (Chain.adcs cf freq l r).1.at_ = r.1.at_ := by
  induction l generalizing r with
  | nil => exact ⟨rfl, rfl⟩
  | cons x l ih =>
    obtain ⟨hn, hat⟩ := ih ((r.1.adc cf freq x).1, r.2 + (r.1.adc cf freq x).2)
    obtain ⟨hn', hat'⟩ := adc_fields r.1 cf freq x
    rw [Chain.adcs]
    exact ⟨by rw [hn, hn', List.length_cons]; omega, hat.trans hat'⟩

theorem length_codes (a : Afe) (times : List Nat) (codes : List Int) :
    (a.codes times codes).length = min times.length codes.length := by
  rw [Afe.codes, List.length_map, List.length_zip]

theorem length_times (k : Chain) (warps : List (Nat × Int)) (stop : Nat) :
    (k.times warps stop).length = stop - k.n := by
  rw [Chain.times, List.length_map, List.length_range]

/-! ### The tuning after a sample -/

/-- Tuning `w` is `u` after the output sample that is complete at sample count `n`, stamped `ts` (R146 to R150). -/
def Tuning.Advances (u w : Tuning) (n ts : Nat) : Prop :=
  w.index = u.index + 1 ∧ w.lastTs = some ts ∧ w.regEdge = false ∧ w.unsettled = u.unsettled - 1
    ∧ w.ncoNow = u.ncoNow ∧ w.bank = u.bank ∧ w.chain.at_ = u.chain.at_ ∧ w.chain.n = n + 1

/-- A sample made of the ADC codes that a tuning without ended chains still needs advances it. -/
theorem makeSample_advances {x : Slice} {t : Nat} {cf : ChainConf} {codes : List Int} (warps : List (Nat × Int))
    (htails : (x.tunAt t).tails = []) (hn : (x.tunAt t).chain.n ≤ (x.tunAt t).chain.nextOut cf)
    (hlen : codes.length = (x.tunAt t).chain.nextOut cf + 1 - (x.tunAt t).chain.n) :
    (x.tunAt t).Advances (x.makeSample warps cf t codes).2.2.1 ((x.tunAt t).chain.nextOut cf)
      (x.makeSample warps cf t codes).1 := by
  unfold Slice.makeSample
  dsimp only
  rw [htails, List.foldl_nil]
  obtain ⟨hcount, hat⟩ := adcs_fields cf (x.tunAt t).ncoNow
    (x.afe.codes ((x.tunAt t).chain.times warps ((x.tunAt t).chain.nextOut cf + 1)) codes) ((x.tunAt t).chain, 0)
  refine ⟨rfl, rfl, rfl, rfl, rfl, rfl, hat, hcount.trans ?_⟩
  rw [length_codes, length_times, hlen, Nat.min_self]
  exact Nat.add_sub_cancel' (Nat.le_succ_of_le hn)

/-! ### What the readers of samples leave alone (R149, R158, R288) -/

/-- A tuning but for the samples on their way to its readers. -/
def Tuning.unread (u : Tuning) : Tuning := { u with buffer := [], fresh := [], openRec := none, closing := [] }

/-- The parts of a slice that the readers of its samples leave alone. -/
def Slice.unread (x : Slice) : Ctl × Clk × (Nat → Tuning) := (x.ctl, x.clk, fun n => (x.tunAt n).unread)

/-- The parts of the slices that the readers of samples of slice `c` leave alone. -/
def State.unread (c : Fin 4) (s : State) : (Ctl × Clk × (Nat → Tuning)) × (Fin 4 → Option Slice) :=
  ((s.sl c).unread, fun d => if d = c then none else some (s.sl d))

theorem Tuning.Advances.of_unread {u v w : Tuning} {n ts : Nat} (h : u.Advances v n ts) (hw : w.unread = v.unread) :
    u.Advances w n ts := by
  have hread : u.Advances w.unread n ts := hw ▸ h
  exact hread

section
variable {s r : State} {c : Fin 4} (h : r.unread c = s.unread c)
include h

theorem ctl_of_unread : (r.sl c).ctl = (s.sl c).ctl := congrArg (fun p => p.1.1) h
theorem clk_of_unread : (r.sl c).clk = (s.sl c).clk := congrArg (fun p => p.1.2.1) h
theorem tunAt_of_unread (n : Nat) : ((r.sl c).tunAt n).unread = ((s.sl c).tunAt n).unread :=
  congrArg (fun p => p.1.2.2 n) h

theorem otherSlices_of_unread : OtherSlices c s r := by
  intro d hd
  have hf : (r.unread c).2 d = (s.unread c).2 d := congrArg (fun p => p.2 d) h
  simpa only [State.unread, if_neg hd, Option.some.injEq] using hf

end

theorem hear_unread (x : Slice) (f : Forme) (t ts : Nat) (w : DWord) : (x.hear f t ts w).unread = x.unread := by
  unfold Slice.hear
  dsimp only
  split
  · rfl
  · refine foldl_keeps Slice.unread (fun y n => ?_) _ x
    rfl

theorem modTun_unread (x : Slice) (n : Nat) {f : Tuning → Tuning} (h : ∀ u, (f u).unread = u.unread) :
    (x.modTun n f).unread = x.unread :=
  Prod.ext rfl (Prod.ext rfl (funext fun m => apply_vget_vmod Tuning.unread x.tun n m Tuning.reset h))

section
variable (s : State) (c : Fin 4)

theorem modSl_unread {f : Slice → Slice} (h : (f (s.sl c)).unread = (s.sl c).unread) :
    (s.modSl c f).unread c = s.unread c := by
  refine Prod.ext ((congrArg Slice.unread (s.sl_modSl c f)).trans h) (funext fun d => ?_)
  by_cases hd : d = c
  · simp only [State.unread, if_pos hd]
  · simp only [State.unread, if_neg hd, State.sl_modSl_ne s f hd]

theorem stage_unread (q : Fin 256) (k : Record) : (s.stage q k).unread c = s.unread c := by
  simp only [State.unread, sl_of_offRecord (stage_offRecord s q k)]

theorem closeSamples_unread (t : Nat) : (s.closeSamples c t).unread c = s.unread c := by
  unfold State.closeSamples
  split
  · exact (stage_unread ..).trans (modSl_unread s c (modTun_unread _ t fun _ => rfl))
  · rfl

theorem readSample_unread (t ts : Nat) (w : DWord) (idx : Nat) :
    (s.readSample c t ts w idx).unread c = s.unread c := by
  unfold State.readSample
  split
  · rfl
  next f _ =>
    have hheard : (s.modSl c (fun x => (x.modTun t (fun u => { u with
        buffer := ((ts, w) :: u.buffer).take (tnBufKib (f.tn (x.settingsOf f t)) * 128) })).hear f t ts w)).unread c
          = s.unread c :=
      modSl_unread s c ((hear_unread ..).trans (modTun_unread _ t fun _ => rfl))
    have hopen (u : State) (o : OpenSamples) :
        (u.modSl c (fun x => x.modTun t (fun v => { v with openRec := some o }))).unread c = u.unread c :=
      modSl_unread u c (modTun_unread _ t fun _ => rfl)
    dsimp only
    split
    · exact hheard
    · simp only [apply_ite (State.unread c), closeSamples_unread, hopen, hheard, ite_self]

theorem releaseFresh_unread (t upto : Nat) : (s.releaseFresh c t upto).unread c = s.unread c := by
  unfold State.releaseFresh
  dsimp only
  exact (foldl_keeps (fun a : State × Nat => a.1.unread c) (fun a p => readSample_unread ..) _ _).trans
    (modSl_unread s c (modTun_unread _ t fun _ => rfl))

theorem releaseClosing_unread (t upto : Nat) : (s.releaseClosing c t upto).unread c = s.unread c := by
  unfold State.releaseClosing
  dsimp only
  exact (foldl_keeps (State.unread c) (fun z k => stage_unread ..) _ _).trans
    (modSl_unread s c (modTun_unread _ t fun _ => rfl))

/-- The closed records of slice `c` and the samples of tuning `t` go to their readers, where they may be read. -/
def State.handOut (t upto : Nat) : State :=
  ((List.range 32).foldl (fun z n => z.releaseClosing c n upto) s).releaseFresh c t upto

theorem handOut_unread (t upto : Nat) : (s.handOut c t upto).unread c = s.unread c :=
  (releaseFresh_unread ..).trans (foldl_keeps (State.unread c) (fun _ _ => releaseClosing_unread ..) _ s)

end

/-! ### The command -/

/-- Slice `c` with an output sample of tuning `t` made of `codes`. -/
def State.withSample (s : State) (c : Fin 4) (f : Forme) (t : Nat) (codes : List Int) : State :=
  let x := s.sl c
  let r := x.makeSample s.tbm.warps (x.confOf f t) t codes
  s.setSl c { (x.modTun t (fun _ => r.2.2.1)) with afe := x.afe.countClips r.2.2.2 r.1 }

section
variable (s : State) (c : Fin 4) (f : Forme) (t : Nat) (codes : List Int)

theorem withSample_clk : ((s.withSample c f t codes).sl c).clk = (s.sl c).clk :=
  (congrArg Slice.clk (State.sl_setSl ..) : _)

theorem withSample_ctl : ((s.withSample c f t codes).sl c).ctl = (s.sl c).ctl :=
  (congrArg Slice.ctl (State.sl_setSl ..) : _)

theorem withSample_tunAt (ht : t < 32) : ((s.withSample c f t codes).sl c).tunAt t =
    ((s.sl c).makeSample s.tbm.warps ((s.sl c).confOf f t) t codes).2.2.1 :=
  (congrArg (fun x : Slice => x.tunAt t) (State.sl_setSl ..)).trans (tunAt_modTun_same _ _ ht)

theorem withSample_otherSlices : OtherSlices c s (s.withSample c f t codes) := fun _ hd => State.sl_setSl_ne s _ hd

end

theorem codes_inRange {codes : List Int} (h : ∀ v, v ∈ codes → -8192 ≤ v ∧ v ≤ 8191) :
    ¬ codes.any (fun v => decide (v < -8192) || decide (8191 < v)) = true := by
  intro hany
  obtain ⟨v, hv, hout⟩ := List.any_eq_true.mp hany
  have hrange := h v hv
  rw [Bool.or_eq_true, decide_eq_true_iff, decide_eq_true_iff] at hout
  omega

theorem resetDue_unarmed {x : Slice} {t : Nat} (h : (x.tunAt t).resetAt = []) (f : Forme) (warps : List (Nat × Int)) :
    x.resetDue f warps t = x := by
  rw [Slice.resetDue, h, Slice.resetsDue]

/-- Nothing stops a sample outside COAST, without a change at its boundary, with the codes that it needs. -/
theorem sample_ready {x : Slice} {t : Nat} {cf : ChainConf} {codes : List Int} (htails : (x.tunAt t).tails = [])
    (hcoast : x.clk.coast = false) (hchange : (x.tunAt t).boundaryDue = false)
    (hlen : codes.length = (x.tunAt t).chain.nextOut cf + 1 - (x.tunAt t).chain.n) :
    ¬ (x.clk.coast || (x.tunAt t).boundaryDue || codes.length != (x.tunAt t).tailLen
      + ((x.tunAt t).chain.nextOut cf + 1 - (x.tunAt t).chain.n)) = true := by
  have hnone : (x.tunAt t).tailLen = 0 := by
    rw [Tuning.tailLen, htails]
    rfl
  simp [hcoast, hchange, hnone, hlen]

/-- SAMPLE_DELIVERED where the tuning can make its sample, with neither a reset armed nor an ended chain. -/
theorem exec_sampleDelivered_ready {c : Fin 4} {t : Fin 32} {codes : List Int} {f : Forme} {s : State}
    (hforme : (s.sl c).inForce = some f) (hresets : ((s.sl c).tunAt t.val).resetAt = [])
    (htails : ((s.sl c).tunAt t.val).tails = []) (hruns : (s.sl c).tunRuns t.val = true)
    (hcoast : (s.sl c).clk.coast = false) (hchange : ((s.sl c).tunAt t.val).boundaryDue = false)
    (hlen : codes.length =
      ((s.sl c).tunAt t.val).chain.nextOut ((s.sl c).confOf f t.val) + 1 - ((s.sl c).tunAt t.val).chain.n)
    (hcodes : ∀ v, v ∈ codes → -8192 ≤ v ∧ v ≤ 8191)
    (hreached : ((((s.sl c).makeSample s.tbm.warps ((s.sl c).confOf f t.val) t.val codes).1 : Nat) : Int)
      ≤ (s.sl c).airNow s.tb) :
    exec (.sampleDelivered c t codes) s =
      run s (fun u => (u.withSample c f t.val codes).handOut c t.val (u.tb - 2048)) := by
  have he : exec (.sampleDelivered c t codes) s = execSampleDelivered c t codes s := rfl
  unfold execSampleDelivered at he
  refine he.trans (run_congr ?_)
  rintro u o rfl
  have hmakes : ¬ (!(u.sl c).tunRuns t.val) = true := by
    rw [show (u.sl c).tunRuns t.val = true from hruns]
    decide
  refine (if_neg (codes_inRange hcodes)).trans ((if_neg hmakes).trans ?_)
  rw [show (u.sl c).inForce = some f from hforme]
  dsimp only
  rw [show (u.sl c).resetDue f u.tbm.warps t.val = u.sl c from resetDue_unarmed hresets ..]
  exact (if_neg (sample_ready htails hcoast hchange hlen)).trans (if_neg (not_lt.mpr hreached))

/-- Settles O33: the sample advances its tuning, and what it hands to its readers changes nothing of that. -/
theorem sampleAdvancesTuning : Obligations.SampleAdvancesTuning := by
  intro c t codes f s hforme u n ts hresets htails hruns hcoast hchange hn hlen hcodes hreached
  refine run_gives_from
    (exec_sampleDelivered_ready hforme hresets htails hruns hcoast hchange hlen hcodes hreached)
    (fun _ _ _ _ h => h) ?_
  rintro v o rfl
  have hkeeps := handOut_unread (v.withSample c f t.val codes) c t.val (v.tb - 2048)
  have hmade : u.Advances (((v.withSample c f t.val codes).sl c).tunAt t.val) n ts := by
    rw [withSample_tunAt v c f t.val codes t.isLt]
    exact makeSample_advances v.tbm.warps htails hn hlen
  obtain ⟨hindex, hts, hedge, hunsettled, hnco, hbank, hat, hcount⟩ :=
    hmade.of_unread (tunAt_of_unread hkeeps t.val)
  exact ⟨hindex, hts, hedge, hunsettled, hnco, hbank, hat, hcount,
    (ctl_of_unread hkeeps).trans (withSample_ctl ..), (clk_of_unread hkeeps).trans (withSample_clk ..),
    fun d hd => (otherSlices_of_unread hkeeps d hd).trans (withSample_otherSlices v c f t.val codes d hd)⟩

end Sys2Proof.Machine
end
section
/-! SUPPORT. Changes of the transmitter and of its command in hand (R298 to R323), and commands whose outward effects
count. -/

namespace Sys2Proof.Machine

open Sys2Proof

/-! ### Outward effects -/

/-- A command does what `g` makes where its effect agrees with it but for what leaves the module. -/
theorem run_does_sent {i : Instr} {s : State} {f g : State → State} (he : exec i s = run s f)
    (h : ∀ u o, s = { u with out := o } → ∃ o', f u = { g u with out := o' }) : Does i s g := by
  obtain ⟨o, ho⟩ := h { s with out := [] } s.out rfl
  obtain ⟨t, ht, hs⟩ := run_same (s := s) (f := f) (u := { g { s with out := [] } with pending := s.pending })
    (o := o) (by rw [ho])
  exact ⟨t, he.trans ht, hs⟩

/-- What the effect of a command sends, the command sends. -/
theorem run_sends {i : Instr} {s : State} {f : State → State} {x : Output} (he : exec i s = run s f)
    (h : ∀ u o, s = { u with out := o } → x ∈ (f u).out) : Gives i s (fun t => x ∈ t.out) := by
  refine ⟨_, he, ?_⟩
  obtain ⟨o, p, e⟩ := blockIrqs_shape s (f { s with out := [] })
  rw [e]
  exact List.mem_append_left o (h _ s.out rfl)

/-! ### Changes of the transmitter -/

section
variable {s : State} {c : Fin 4} {f g : Tx → Tx}

theorem tx_modTx : ((s.modTx c f).sl c).tx = f (s.sl c).tx := (congrArg Slice.tx (State.sl_modSl ..) : _)

theorem modTx_modTx : (s.modTx c f).modTx c g = s.modTx c (fun t => g (f t)) := State.modSl_modSl ..

theorem modTx_self (h : f (s.sl c).tx = (s.sl c).tx) : s.modTx c f = s :=
  (modSl_congr (g := fun x => x) s (congrArg (fun t => { s.sl c with tx := t }) h)).trans (State.setSl_sl s c)

/-- With `k` in hand, only what a change makes of a transmitter with `k` in hand counts. -/
theorem modTx_congr {k : TxCmd} (hcmd : (s.sl c).tx.cmd = some k)
    (h : ∀ t : Tx, f { t with cmd := some k } = g { t with cmd := some k }) : s.modTx c f = s.modTx c g := by
  have htx : (s.sl c).tx = { (s.sl c).tx with cmd := some k } := by rw [← hcmd]
  refine modSl_congr s (congrArg (fun t => { s.sl c with tx := t }) ?_)
  rw [htx]
  exact h _

end

/-! ### Phases of the command in hand (R308 to R310) -/

/-- The command in hand is in its phase, and the time of the phase's end has come. -/
theorem phaseDue_reached {u : State} {c : Fin 4} {ph : TxPhase} {ticks : TxCmd → Nat} {k : TxCmd}
    (hcmd : (u.sl c).tx.cmd = some k) (hph : k.phase = ph) (hdue : k.phaseAt + ticks k ≤ u.real) :
    u.phaseDue c ph ticks = some k := by
  rw [State.phaseDue, hcmd]
  exact if_pos ⟨hph, hdue⟩

theorem usTicks_eq (n : Nat) : usTicks n = 1024 * n := Nat.mul_comm n 1024

end Sys2Proof.Machine
end

section
/-! SUPPORT. The bursts of a message (R308 to R310): T0, the ramp-down, E, and the release of the pins. -/

namespace Sys2Proof.Machine

open Sys2Proof

/-- Command `k` with its present burst on the air from T0, real tick `t0` and TB value `tb0`, on (R308 step 4). -/
def TxCmd.onAir (k : TxCmd) (t0 tb0 : Nat) : TxCmd :=
  { k with
    phase := .burst, phaseAt := t0, burstAt := t0, emitted := true, stage := 3,
    startTb := if k.emitted then k.startTb else tb0,
    late := k.late || (!k.emitted && k.atTb != 0 && decide (k.atTb < tb0)) }

/-- A burst starts: PA_BIAS rises to the bias of the profile, and the burst goes out. -/
theorem startBurst_eq (s : State) (c : Fin 4) (k : TxCmd) (t0 : Nat) (hcmd : (s.sl c).tx.cmd = some k) :
    s.startBurst c k t0 = { s.modTx c (fun t => { t with
        state := .on, paBias := k.biasMv, cmd := some (k.onAir t0 (s.tbOf t0)) }) with
      out := s.out ++ [.burstStart c (s.tbOf t0) k.freq k.level k.rampUs k.symrate (k.symbols k.burst)]
        ++ [.paBias c (s.tbOf t0) k.biasUp] } := by
  have htx := modTx_congr
    (f := fun t => { t with state := .on, paBias := k.biasMv, cmd := t.cmd.map fun k => k.onAir t0 (s.tbOf t0) })
    (g := fun t => { t with state := .on, paBias := k.biasMv, cmd := some (k.onAir t0 (s.tbOf t0)) }) hcmd fun _ => rfl
  rw [← htx]
  unfold State.startBurst State.modCmd
  dsimp only
  rw [modTx_modTx]
  rfl

/-- Both outputs begin a ramp-down. -/
theorem rampOut_eq {s : State} {c : Fin 4} {k : TxCmd} (hcmd : (s.sl c).tx.cmd = some k) (at_ r : Nat) :
    s.rampOut c at_ r = { s with
      out := s.out ++ [.rampDown c (s.tbOf at_) r] ++ [.paBias c (s.tbOf at_) (k.biasDown k.gFrom r)] } := by
  rw [State.rampOut, hcmd]
  rfl

/-- Command `k` with the ramp-down of its present burst begun at the end of the coded region, and `fwd` and `rev` among
the samples of its amplifier (R309, R321). -/
def TxCmd.rampingDown (k : TxCmd) (fwd rev : Nat) : TxCmd :=
  { k with
    phase := .rampDown, rampSym := k.bodySyms k.burst, gFrom := 2 ^ 80, fwd := max k.fwd fwd, rev := max k.rev rev }

/-- The transmitter with `k` in hand at the start of that ramp-down. -/
def Tx.rampingDown (t : Tx) (k : TxCmd) (fwd rev : Nat) : Tx :=
  { t with paBias := 0, sense := if t.paEn then some (fwd, rev) else t.sense, cmd := some (k.rampingDown fwd rev) }

/-- `s` with that ramp-down begun on both outputs. -/
def State.rampsDown (s : State) (c : Fin 4) (k : TxCmd) (fwd rev : Nat) : State :=
  (s.modTx c (fun t => t.rampingDown k fwd rev)).rampOut c (k.symAt (k.bodySyms k.burst)) k.rampUs

theorem rampsDown_eq (s : State) (c : Fin 4) (k : TxCmd) (fwd rev : Nat) :
    s.rampsDown c k fwd rev = { s.modTx c (fun t => t.rampingDown k fwd rev) with
      out := s.out ++ [.rampDown c (s.tbOf (k.symAt (k.bodySyms k.burst))) k.rampUs]
        ++ [.paBias c (s.tbOf (k.symAt (k.bodySyms k.burst)))
          ((k.rampingDown fwd rev).biasDown (k.rampingDown fwd rev).gFrom k.rampUs)] } := by
  have hcmd : ((s.modTx c (fun t => t.rampingDown k fwd rev)).sl c).tx.cmd = some (k.rampingDown fwd rev) :=
    (congrArg Tx.cmd tx_modTx : _)
  exact rampOut_eq hcmd ..

section
variable {s : State} {c : Fin 4} {k : TxCmd} (hcmd : (s.sl c).tx.cmd = some k)
include hcmd

/-- RAMP_DOWN at the end of the coded region: the amplifier samples count, and the ramp-down goes out. -/
theorem exec_rampDown_due (fwd rev : BitVec 12) (hph : k.phase = .burst)
    (hdue : k.phaseAt + k.symTicks (k.bodySyms k.burst) ≤ s.real) :
    exec (.rampDown c fwd rev) s = run s (fun u => u.rampsDown c k fwd.toNat rev.toNat) := by
  have he : exec (.rampDown c fwd rev) s = execRampDown c fwd rev s := rfl
  unfold execRampDown at he
  refine he.trans (run_congr ?_)
  rintro u o rfl
  rw [phaseDue_reached (u := u) (ticks := fun k => k.symTicks (k.bodySyms k.burst)) hcmd hph hdue]
  have htx : ((u.senseMax c fwd.toNat rev.toNat).modTx c (fun t => { t with paBias := 0 })).modCmd c (fun k =>
      { k with phase := .rampDown, rampSym := k.bodySyms k.burst, gFrom := 2 ^ 80 })
        = u.modTx c (fun t => t.rampingDown k fwd.toNat rev.toNat) := by
    simp only [State.senseMax, State.modCmd, modTx_modTx]
    exact modTx_congr hcmd fun _ => rfl
  exact congrArg (fun v : State => v.rampOut c _ _) htx

theorem nextBurst_does {t0 tb0 : Nat} (hph : k.phase = .gap) (hdue : t0 ≤ s.real) (ht0 : k.phaseAt + 1024000 = t0)
    (htb0 : s.tbOf t0 = tb0) : Does (.nextBurst c) s (fun s => s.modTx c (fun t => { t with
      state := .on, paBias := k.biasMv, cmd := some (({ k with burst := k.burst + 1 } : TxCmd).onAir t0 tb0) })) := by
  have he : exec (.nextBurst c) s = execNextBurst c s := rfl
  unfold execNextBurst at he
  refine run_does_sent he ?_
  rintro u o rfl
  have ht0' : k.phaseAt + usTicks 1000 = t0 := ht0
  have hnext : ((u.modCmd c (fun _ => { k with burst := k.burst + 1 })).sl c).tx.cmd
      = some { k with burst := k.burst + 1 } := by
    rw [State.modCmd, tx_modTx, show (u.sl c).tx.cmd = some k from hcmd]
    rfl
  rw [phaseDue_reached (u := u) (ticks := fun _ => usTicks 1000) hcmd hph (ht0'.trans_le hdue)]
  dsimp only
  rw [ht0', startBurst_eq _ c _ _ hnext, State.modCmd, modTx_modTx]
  subst htb0
  exact ⟨_, rfl⟩

/-- Command `k` after E, real tick `e` and TB value `tb`, of its present burst (R309, R310). -/
def TxCmd.burstEnded (k : TxCmd) (e tb : Nat) : TxCmd :=
  { k with endTb := tb, sent := k.sent + 1, phase := .gap, phaseAt := e }

/-- The transmitter with `k` in hand after that E. -/
def Tx.burstEnded (t : Tx) (k : TxCmd) (e tb : Nat) : Tx :=
  { t with lastRampDown := e, cmd := some (k.burstEnded e tb) }

/-- Between two bursts the release of the pins begins with the fall of PA_EN. -/
theorem txRelease_gap (hph : k.phase = .gap) (status now : Nat) :
    s.txRelease c status now = s.modTx c (fun t => { t with
      state := .release, paEn := false, paBias := 0, sense := none,
      cmd := some { k with phase := .paOff, phaseAt := now, status := BitVec.ofNat 8 status } }) := by
  have hpins (b : Bool) : (b && TxPhase.paOff == TxPhase.paOff) = b := Bool.and_true b
  rw [State.txRelease, hcmd]
  dsimp only
  rw [hph]
  dsimp only
  rw [State.modCmd, modTx_modTx]
  simp only [hpins]
  exact modTx_congr hcmd fun _ => rfl

section
variable {e tb : Nat} (hph : k.phase = .rampDown) (hdue : k.phaseAt + k.symTicks k.endSym ≤ s.real)
  (hcut : k.cut = false) (hcancel : (s.sl c).tx.cancelReq = false) (hend : k.symAt k.endSym = e) (htb : s.tbOf e = tb)
include hph hdue hcut hcancel hend htb

/-- BURST_END at E, of a message that is not to be cut short. -/
theorem exec_burstEnd_due : exec (.burstEnd c) s = run s (fun u =>
    if k.burst + 1 < k.total then u.modTx c (fun t => t.burstEnded k e tb)
    else ((u.modTx c (fun t => t.burstEnded k e tb)).modCmd c (fun k =>
      { k with stage := 4 })).txRelease c Status.ok e) := by
  have he : exec (.burstEnd c) s = execBurstEnd c s := rfl
  unfold execBurstEnd at he
  refine he.trans (run_congr ?_)
  rintro u o rfl
  have hgoes : ¬ (k.cut = true ∨ (u.sl c).tx.cancelReq = true) := by
    rw [hcut, show (u.sl c).tx.cancelReq = false from hcancel]
    decide
  rw [phaseDue_reached (u := u) (ticks := fun k => k.symTicks k.endSym) hcmd hph hdue]
  dsimp only
  rw [if_neg hgoes, hcut, hend, show u.tbOf e = tb from htb, State.modCmd, modTx_modTx,
    modTx_congr (s := u) (g := fun t => t.burstEnded k e tb) hcmd fun _ => rfl]

/-- After E of the last burst the release of the pins begins. -/
theorem burstEnd_releases (hlast : k.total ≤ k.burst + 1) :
    Does (.burstEnd c) s (fun s => s.modTx c (fun t => { t with
      lastRampDown := e, state := .release, paEn := false, paBias := 0, sense := none,
      cmd := some { k with
        endTb := tb, sent := k.sent + 1, phaseAt := e, phase := .paOff, stage := 4, status := 0 } })) := by
  refine run_does_from (exec_burstEnd_due hcmd hph hdue hcut hcancel hend htb) ?_
  rintro u o rfl
  refine (if_neg (not_lt.mpr hlast)).trans ?_
  have hstage : (u.modTx c (fun t => t.burstEnded k e tb)).modCmd c (fun k => { k with stage := 4 })
      = u.modTx c (fun t => { t with lastRampDown := e, cmd := some { k with
        endTb := tb, sent := k.sent + 1, phase := .gap, phaseAt := e, stage := 4 } }) := modTx_modTx
  rw [hstage, txRelease_gap (congrArg Tx.cmd tx_modTx) rfl, modTx_modTx]
  rfl

end

theorem trSwRelease_does (hph : k.phase = .paOff) (hdue : k.phaseAt + 1024 * k.paLead ≤ s.real) :
    Does (.trSwRelease c) s (fun s => s.modTx c (fun t => { t with
      trSw := false, cmd := some { k with phase := .trOff, phaseAt := k.phaseAt + 1024 * k.paLead } })) := by
  have he : exec (.trSwRelease c) s = execTrSwRelease c s := rfl
  unfold execTrSwRelease at he
  refine run_does_from he ?_
  rintro u o rfl
  rw [← usTicks_eq] at hdue ⊢
  rw [phaseDue_reached (u := u) (ticks := fun k => usTicks k.paLead) hcmd hph hdue]
  exact modTx_modTx.trans (modTx_congr hcmd fun _ => rfl)

end

/-! ### The end of a command (R310, R321, R323) -/

/-- The transmitter after its command in hand, `k`, has ended with `status`. -/
def Tx.ended (t : Tx) (k : TxCmd) (status : Nat) : Tx :=
  { (t.countEnd status) with
    cmd := none, cancelReq := false, removed := false, recal := false, sense := none,
    calFreq := if t.recal then 0 else t.calFreq,
    state := if t.removed then .disabled else if k.inhibit then .inhibit else .idle }

theorem countEnd_ok (t : Tx) : t.countEnd 0 = { t with sent := min (t.sent + 1) 0xFFFF, events := raise t.events 0 } :=
  rfl

theorem countEnd_failed (t : Tx) {status : Nat} (h : status ≠ 0) :
    (t.countEnd status).failed = min (t.failed + 1) 0xFFFF := by
  rw [Tx.countEnd, if_neg (show ¬ status = Status.ok from h)]
  simp only [apply_ite Tx.failed, ite_self]
  rfl

theorem countEnd_windows (t : Tx) (status : Nat) : (t.countEnd status).windows = t.windows := by
  simp only [Tx.countEnd, apply_ite Tx.windows, ite_self]

theorem txReport_offRecord (s : State) (c : Fin 4) (k : TxCmd) (status : Nat) :
    (s.txReport c k status).offRecord = s.offRecord := (complete_offRecord ..).trans (stage_offRecord ..)

theorem openWindows_none {s : State} {c : Fin 4} (h : (s.sl c).tx.windows = []) : s.openWindows c = s := by
  refine modTx_self ?_
  split
  · rfl
  · rw [h, List.map_nil, ← h]

/-- Neither a key-up nor a window holds the coexistence pins. -/
theorem coexPins_free {t : Tx} (hkeyed : t.keyed = false) (hwindows : t.windows = []) :
    t.coexPins = { t with coexReq := false, coexPri := false } := by
  simp [Tx.coexPins, Tx.winOpen, hkeyed, hwindows]

/-- The command in hand ends: its tokens are given back, and the transmitter is free. -/
theorem endTx_frees {s : State} {c : Fin 4} {k : TxCmd} (status : Nat) (hcmd : (s.sl c).tx.cmd = some k)
    (hremoved : (s.sl c).tx.removed = false) (hwindows : (s.sl c).tx.windows = []) :
    ((s.endTx c status).sl c).tx = { (s.sl c).tx.ended k status with coexReq := false, coexPri := false }
      ∧ (s.endTx c status).pwr = (s.releaseAll (txReq c)).pwr := by
  let t := (s.releaseAll (txReq c)).modTx c (fun t => t.ended k status)
  have htx : (t.sl c).tx = (s.sl c).tx.ended k status := tx_modTx
  have hnone : ((s.sl c).tx.ended k status).windows = [] := (countEnd_windows ..).trans hwindows
  have hopen : t.openWindows c = t := openWindows_none (by rw [htx]; exact hnone)
  have hkeyed : ((s.sl c).tx.ended k status).keyed = false := by
    rw [Tx.ended, hremoved]
    cases k.inhibit <;> rfl
  have hend : s.endTx c status = ((t.openWindows c).modTx c Tx.coexPins).txReport c k status := by
    rw [State.endTx, hcmd]
    rfl
  have hrep := txReport_offRecord (t.modTx c Tx.coexPins) c k status
  rw [hend, hopen]
  refine ⟨?_, (pwr_of_offRecord hrep : _)⟩
  rw [sl_of_offRecord hrep, tx_modTx, htx, coexPins_free hkeyed hnone]

/-- COEX_RELEASE, with no window open: the command ends. -/
theorem exec_coexRelease_due {s : State} {c : Fin 4} {k : TxCmd} (hcmd : (s.sl c).tx.cmd = some k)
    (hph : k.phase = .trOff) (hdue : k.phaseAt + 1024 * k.trLead ≤ s.real) :
    exec (.coexRelease c) s = run s (fun u => u.endTx c k.status.toNat) := by
  have he : exec (.coexRelease c) s = execCoexRelease c s := rfl
  unfold execCoexRelease at he
  refine he.trans (run_congr ?_)
  rintro u o rfl
  rw [← usTicks_eq] at hdue
  rw [phaseDue_reached (u := u) (ticks := fun k => usTicks k.trLead) hcmd hph hdue]

/-- Settles O52, step by step from the ramp-down of a burst to the end of the command. -/
theorem txBursts : Obligations.TxBursts := by
  intro c s k hcmd
  refine ⟨fun fwd rev hph hdue => ⟨?down, ?downOut⟩,
    fun hph hdue hcut hcancel => ⟨fun hmore => ?more, fun hlast => ?last⟩,
    fun hph hdue => nextBurst_does hcmd hph hdue rfl rfl,
    fun hph hdue => trSwRelease_does hcmd hph hdue, fun hph hdue hremoved hwindows => ?coex⟩
  case down =>
    exact run_does_sent (exec_rampDown_due hcmd fwd rev hph hdue) fun u o _ => ⟨_, rampsDown_eq ..⟩
  case downOut =>
    refine run_sends (exec_rampDown_due hcmd fwd rev hph hdue) ?_
    rintro u o rfl
    rw [rampsDown_eq]
    exact List.mem_append_left _ (List.mem_append_right _ (List.mem_singleton.mpr rfl))
  case more => exact run_does_from (exec_burstEnd_due hcmd hph hdue hcut hcancel rfl rfl) fun u o _ => if_pos hmore
  case last => exact burstEnd_releases hcmd hph hdue hcut hcancel rfl rfl hlast
  case coex =>
    refine run_gives_from (exec_coexRelease_due hcmd hph hdue) (fun _ _ _ _ h => h) ?_
    rintro u o rfl
    obtain ⟨htx, hpwr⟩ := endTx_frees k.status.toNat (s := u) hcmd hremoved hwindows
    have hreq : 10 + c.val < 18 := by omega
    rw [htx, hpwr]
    refine ⟨rfl, rfl, rfl, if_neg (ne_true_of_eq_false hremoved), vget_vmod_same _ _ _ hreq,
      vget_vmod_same _ _ _ hreq, fun hok => ?_, fun hfail => ?_⟩
    · rw [hok]
      exact ⟨rfl, rfl⟩
    · exact countEnd_failed _ fun h => hfail (BitVec.eq_of_toNat_eq h)

end Sys2Proof.Machine
end

section
/-! SUPPORT. TX_SEND and the key-up (R302, R305, R308, R311, R312). -/

namespace Sys2Proof.Machine

open Sys2Proof

/-! ### TX_SEND -/

/-- The transmitter with command `k` in hand, its synthesiser tuned to the carrier where that changes (R305, R311). -/
def Tx.prepared (t : Tx) (k : TxCmd) : Tx :=
  if t.calFreq ≠ k.freq ∧ t.wantFreq ≠ k.freq then
    { t with state := .prepare, cmd := some k, lock := false, wantFreq := k.freq, band := 0xFF }
  else { t with state := .prepare, cmd := some k }

theorem prepared_fields (t : Tx) (k : TxCmd) :
    (t.prepared k).state = .prepare ∧ (t.prepared k).cmd = some k
      ∧ (t.lock = false → (t.prepared k).lock = false) := by
  unfold Tx.prepared
  split
  · exact ⟨rfl, rfl, fun _ => rfl⟩
  · exact ⟨rfl, rfl, fun h => h⟩

/-- A command in PREPARE waits while its synthesiser or its tokens are missing. -/
theorem txCheck_waits {s : State} {c : Fin 4} {k : TxCmd} (hcmd : (s.sl c).tx.cmd = some k)
    (hstate : (s.sl c).tx.state = .prepare) (hready : s.txReady c k = false) : s.txCheck c = s := by
  unfold State.txCheck
  dsimp only
  rw [hcmd]
  dsimp only
  rw [hstate, hready]
  rfl

/-- A command that passed its checks is in hand and asks for its tokens, where the synthesiser is not ready for it. -/
theorem txTake_prepares {s : State} {c : Fin 4} {k : TxCmd} (hlock : (s.sl c).tx.lock = false) (htokens : 0 < k.tokens)
    (hchange : k.change = ((s.sl c).tx.calFreq != k.freq)) :
    s.txTake c k = (s.modTx c (fun t => t.prepared k)).ask (txReq c) k.tokens := by
  obtain ⟨hstate, hcmd, hunlocked⟩ := prepared_fields (s.sl c).tx k
  have htx : (((s.modTx c (fun t => t.prepared k)).ask (txReq c) k.tokens).sl c).tx = (s.sl c).tx.prepared k :=
    (tx_modTx : ((s.modTx c (fun t => t.prepared k)).sl c).tx = _)
  have hready : ((s.modTx c (fun t => t.prepared k)).ask (txReq c) k.tokens).txReady c k = false := by
    rw [State.txReady, Slice.synthReady, htx, hunlocked hlock]
    rfl
  have htunes : (k.change && (s.sl c).tx.wantFreq != k.freq) = true
      ↔ (s.sl c).tx.calFreq ≠ k.freq ∧ (s.sl c).tx.wantFreq ≠ k.freq := by simp [hchange]
  have hprepared : s.modSl c (fun x => { x with
      tx := if k.change && x.tx.wantFreq != k.freq then
          ({ x.tx with state := .prepare, cmd := some k } : Tx).tune k.freq
        else { x.tx with state := .prepare, cmd := some k } }) = s.modTx c (fun t => t.prepared k) :=
    modSl_congr s (congrArg (fun t => { s.sl c with tx := t }) (if_congr htunes rfl rfl))
  rw [← txCheck_waits (htx ▸ hcmd) (htx ▸ hstate) hready, ← hprepared]
  exact congrArg (fun u => State.txCheck u c) (if_neg htokens.ne')

theorem endSynth_idle {a : Afe} (h : a.bgRun = false) (now : Nat) : a.endSynth now = a := by
  rw [Afe.endSynth, h]
  rfl

/-- TX_SEND of a body in range without AUTH, in an IDLE transmitter whose synthesiser is not ready. -/
theorem txSend_does {s : State} {c : Fin 4} {f : Forme} {p : List Byte} {cmd : Command}
    (hforme : (s.sl c).inForce = some f) (hp : f.tx = some p)
    (hhand : s.inHand (localQ c (txCmdQueue p)) 0x50 = some cmd)
    (hidle : (s.sl c).tx.state = .idle) (hlock : (s.sl c).tx.lock = false) (hbody : txBodyOk cmd.body s.tb = true)
    (hplain : (u8 cmd.body 0).testBit 0 = false) (htrim : (s.sl c).afe.bgRun = false) (htokens : 0 < f.txTokens) :
    Does (.txSend c) s (fun s =>
      ((s.keep cmd).modTx c (fun t => t.prepared (takeTx c cmd p (s.sl c).tx f.txTokens s.tb))).ask (txReq c)
        f.txTokens) := by
  have he : exec (.txSend c) s = execTxSend c s := rfl
  unfold execTxSend at he
  refine run_does_from he ?_
  rintro u o rfl
  have hkeep : (u.keep cmd).modAfe c (fun a => a.endSynth u.tb) = u.keep cmd :=
    (modAfe_congr (u.keep cmd) (g := fun a => a) (endSynth_idle htrim u.tb)).trans (State.setSl_sl (u.keep cmd) c)
  have hauth : (takeTx c cmd p (u.sl c).tx f.txTokens u.tb).auth = false := hplain
  dsimp only
  rw [show (u.sl c).inForce = some f from hforme]
  dsimp only
  rw [hp]
  dsimp only
  rw [show u.inHand (localQ c (txCmdQueue p)) 0x50 = some cmd from hhand]
  dsimp only
  rw [show txBodyOk cmd.body u.tb = true from hbody, hauth, hkeep, show (u.sl c).tx.state = .idle from hidle,
    if_neg (by decide), if_neg (by decide)]
  exact txTake_prepares (s := u.keep cmd) hlock htokens rfl

/-! ### The key-up -/

/-- The acquirers of slice `c` that run drop their bursts, and their noise intervals do not count (R319). -/
def State.stopAcquirers (s : State) (c : Fin 4) : State :=
  ((List.range 48).map (fun n => InstRef.inst (Fin.ofNat 48 n))
    ++ (List.range 32).map (fun t => InstRef.cand (Fin.ofNat 32 t))).foldl (fun u r =>
      if (u.sl c).ldbRuns r then (u.abortBurst c r 5).modAcquirer c r (fun a => { a with dirty := true }) else u) s

/-- A slice but for its demodulators and their acquirers. -/
def Slice.offBursts (x : Slice) : Slice :=
  { x with
    inst := Vector.replicate 48 Inst.reset, cands := Vector.replicate 32 Inst.reset,
    acq := Vector.replicate 48 Acq.reset, candAcq := Vector.replicate 32 Acq.reset }

theorem fields_of_offBursts {x y : Slice} (h : x.offBursts = y.offBursts) :
    x.tx = y.tx ∧ x.sram = y.sram ∧ x.ctl = y.ctl ∧ x.afe = y.afe :=
  ⟨(congrArg Slice.tx h : _), (congrArg Slice.sram h : _), (congrArg Slice.ctl h : _), (congrArg Slice.afe h : _)⟩

section
variable (s : State) (c : Fin 4) (r : InstRef)

theorem modSl_offBursts {f : Slice → Slice} (h : ∀ x, (f x).offBursts = x.offBursts) :
    ((s.modSl c f).sl c).offBursts = (s.sl c).offBursts := (congrArg Slice.offBursts (State.sl_modSl ..)).trans (h _)

theorem modAcquirer_offBursts (f : Acq → Acq) :
    ((s.modAcquirer c r f).sl c).offBursts = (s.sl c).offBursts := modSl_offBursts s c fun _ => by cases r <;> rfl

theorem burstFail_offBursts : ((s.burstFail c r).sl c).offBursts = (s.sl c).offBursts :=
  modSl_offBursts s c fun _ => by cases r <;> rfl

theorem burstRecord_slices (b : Burst) (outcome cause snr : Nat) (rise : Int) (done : Nat) :
    (s.burstRecord c r b outcome cause snr rise done).slices = s.slices := by
  unfold State.burstRecord
  dsimp only
  split
  · rfl
  · exact slices_of_offRecord (stage_offRecord ..)

theorem abortOne_offBursts (b : Burst) (cause : Nat) :
    ((s.abortOne c r b cause).sl c).offBursts = (s.sl c).offBursts := by
  unfold State.abortOne
  dsimp only
  rw [modAcquirer_offBursts]
  split
  · rw [burstFail_offBursts, sl_congr (burstRecord_slices ..)]
  · rfl

theorem abortBurst_offBursts (cause : Nat) : ((s.abortBurst c r cause).sl c).offBursts = (s.sl c).offBursts := by
  have htails (l : List Burst) :
      ((l.foldl (fun t b => t.abortOne c r b cause) s).sl c).offBursts = (s.sl c).offBursts :=
    foldl_keeps (fun t => (t.sl c).offBursts) (fun t b => abortOne_offBursts t c r b cause) l s
  unfold State.abortBurst
  dsimp only
  split
  · rfl
  · split <;> simp [htails, modAcquirer_offBursts, abortOne_offBursts, apply_ite (fun t => (State.sl t c).offBursts)]

theorem stopAcquirers_offBursts : ((s.stopAcquirers c).sl c).offBursts = (s.sl c).offBursts := by
  refine foldl_keeps (fun t => (t.sl c).offBursts) (fun u r => ?_) _ s
  split
  · rw [modAcquirer_offBursts, abortBurst_offBursts]
  · rfl

end

/-- The transmitter with `k` in hand once PA_EN has risen at real tick `t0` (R308 step 3). -/
def Tx.paRisen (t : Tx) (k : TxCmd) (t0 : Nat) : Tx :=
  { t with paEn := true, cmd := some { k with phase := .pa, phaseAt := t0, paRose := true, stage := 2 } }

/-- The transmitter, the SRAM, CTL and the front end after the acquirers have stopped. -/
theorem stopAcquirers_leaves (s : State) (c : Fin 4) (f : Tx → Tx) :
    (((s.modTx c f).stopAcquirers c).sl c).tx = f (s.sl c).tx
      ∧ (((s.modTx c f).stopAcquirers c).sl c).sram = (s.sl c).sram
      ∧ (((s.modTx c f).stopAcquirers c).sl c).ctl = (s.sl c).ctl
      ∧ (((s.modTx c f).stopAcquirers c).sl c).afe = (s.sl c).afe := by
  have hsl : (s.modTx c f).sl c = { s.sl c with tx := f (s.sl c).tx } := State.sl_modSl ..
  obtain ⟨htx, hsram, hctl, hafe⟩ := fields_of_offBursts (stopAcquirers_offBursts (s.modTx c f) c)
  rw [htx, hsram, hctl, hafe, hsl]
  exact ⟨rfl, rfl, rfl, rfl⟩

section
variable {s : State} {c : Fin 4} {k : TxCmd} (hcmd : (s.sl c).tx.cmd = some k)
include hcmd

/-- Both conditions of R302 are met and nothing holds the key-up back: it begins. -/
theorem txCheck_begins (hstate : (s.sl c).tx.state = .prepare ∨ (s.sl c).tx.state = .wait)
    (hready : s.txReady c k = true) (hfrom : k.holdFrom ≤ s.tb) (hwindow : (s.sl c).tx.winOpen = false)
    (htag : k.tagging = false) : s.txCheck c = s.beginKeyup c := by
  unfold State.txCheck
  dsimp only
  rw [hcmd]
  dsimp only
  rw [if_neg (by tauto), hready, hwindow, htag]
  exact if_neg (not_lt.mpr hfrom)

theorem beginKeyup_eq : s.beginKeyup c = s.modTx c (fun t => { t with
    state := .keyup, coexReq := true, coexPri := k.priority || t.windows.any (fun w => w.opened && w.priority),
    cmd := some { k with phase := .req, phaseAt := s.real, keyup := s.tb, stage := 1 } }) := by
  rw [State.beginKeyup, State.modCmd, modTx_modTx, modTx_modTx]
  exact modTx_congr hcmd fun _ => rfl

/-- COEX_LEAD after the key-up began TR_SW moves, and the acquirers of the slice stop (R308, R319). -/
theorem exec_trSwTransmit_due (hph : k.phase = .req) (hdue : k.phaseAt + 1024 * k.coexLead ≤ s.real) :
    exec (.trSwTransmit c) s = run s (fun u => (u.modTx c (fun t => { t with
      trSw := true,
      cmd := some { k with phase := .tr, phaseAt := k.phaseAt + 1024 * k.coexLead } })).stopAcquirers c) := by
  have he : exec (.trSwTransmit c) s = execTrSwTransmit c s := rfl
  unfold execTrSwTransmit at he
  refine he.trans (run_congr ?_)
  rintro u o rfl
  rw [← usTicks_eq] at hdue ⊢
  rw [phaseDue_reached (u := u) (ticks := fun k => usTicks k.coexLead) hcmd hph hdue]
  have hmoved : (u.modTx c (fun t => { t with trSw := true })).modCmd c (fun k =>
      { k with phase := .tr, phaseAt := k.phaseAt + usTicks k.coexLead }) = u.modTx c (fun t => { t with
        trSw := true, cmd := some { k with phase := .tr, phaseAt := k.phaseAt + usTicks k.coexLead } }) :=
    modTx_modTx.trans (modTx_congr hcmd fun _ => rfl)
  rw [← hmoved]
  rfl

/-- PA_EN rises at real tick `t0`, and the amplifier is sampled from then on. -/
theorem paRise_eq (t0 : Nat) : ∃ fwd rev, s.paRise c t0 = s.freeWord.2.modTx c (fun t => { t with
    paEn := true, sense := some (fwd, rev), cmd := some { k with
      phase := .pa, phaseAt := t0, paRose := true, stage := 2, fwd := max k.fwd fwd, rev := max k.rev rev } }) := by
  have hrise : (s.modTx c (fun t => { t with paEn := true })).modCmd c (fun k =>
      { k with phase := .pa, phaseAt := t0, paRose := true, stage := 2 }) = s.modTx c (fun t => t.paRisen k t0) :=
    modTx_modTx.trans (modTx_congr hcmd fun _ => rfl)
  have hon : ((s.modTx c (fun t => t.paRisen k t0)).sl c).tx.paEn = true := (congrArg Tx.paEn tx_modTx : _)
  let w := s.freeWord.1
  have hsense : s.paRise c t0
      = (s.freeWord.2.modTx c (fun t => t.paRisen k t0)).senseMax c (bf w 0 12) (bf w 16 12) := by
    rw [State.paRise, hrise]
    exact if_pos hon
  refine ⟨bf w 0 12, bf w 16 12, ?_⟩
  rw [hsense, State.senseMax, State.modCmd, modTx_modTx, modTx_modTx]
  rfl

theorem paEnRise_rises (hph : k.phase = .tr) (hdue : k.phaseAt + 1024 * k.trLead ≤ s.real)
    (hsynth : (s.sl c).synthReady k.freq = true) (hgrant : (s.sl c).tx.gnt = true ∨ k.gntIgnore = true) :
    exec (.paEnRise c) s = run s (fun u => u.paRise c (k.phaseAt + 1024 * k.trLead)) := by
  have he : exec (.paEnRise c) s = execPaEnRise c s := rfl
  unfold execPaEnRise at he
  refine he.trans (run_congr ?_)
  rintro u o rfl
  rw [← usTicks_eq] at hdue ⊢
  rw [phaseDue_reached (u := u) (ticks := fun k => usTicks k.trLead) hcmd hph hdue]
  dsimp only
  rw [show (u.sl c).synthReady k.freq = true from hsynth]
  exact if_pos hgrant

theorem paEnRise_waits (hph : k.phase = .tr) (hdue : k.phaseAt + 1024 * k.trLead ≤ s.real)
    (hsynth : (s.sl c).synthReady k.freq = true) (hgnt : (s.sl c).tx.gnt = false) (hobey : k.gntIgnore = false) :
    Does (.paEnRise c) s (fun s => s.modTx c (fun t => { t with
      cmd := some { k with phase := .gntWait, phaseAt := k.phaseAt + 1024 * k.trLead, waited := true } })) := by
  have he : exec (.paEnRise c) s = execPaEnRise c s := rfl
  unfold execPaEnRise at he
  refine run_does_from he ?_
  rintro u o rfl
  rw [← usTicks_eq] at hdue ⊢
  rw [phaseDue_reached (u := u) (ticks := fun k => usTicks k.trLead) hcmd hph hdue]
  have hdenied : ¬ ((u.sl c).tx.gnt = true ∨ k.gntIgnore = true) := by
    rw [show (u.sl c).tx.gnt = false from hgnt, hobey]
    decide
  dsimp only
  rw [show (u.sl c).synthReady k.freq = true from hsynth]
  exact (if_neg hdenied).trans (modTx_congr (s := u) hcmd fun _ => rfl)

/-- PA_EN_LEAD_US after PA_EN rose T0 begins the burst. -/
theorem exec_rampUp_due {t0 : Nat} (hph : k.phase = .pa) (hdue : t0 ≤ s.real) (ht0 : k.phaseAt + 1024 * k.paLead = t0)
    (hsynth : (s.sl c).synthReady k.freq = true) :
    exec (.rampUp c) s = run s (fun u => u.startBurst c k t0) := by
  have he : exec (.rampUp c) s = execRampUp c s := rfl
  unfold execRampUp at he
  refine he.trans (run_congr ?_)
  rintro u o rfl
  rw [← usTicks_eq] at ht0
  rw [phaseDue_reached (u := u) (ticks := fun k => usTicks k.paLead) hcmd hph (ht0.trans_le hdue)]
  dsimp only
  rw [show (u.sl c).synthReady k.freq = true from hsynth, ht0]
  rfl

end

/-- Settles O51, step by step from TX_SEND to T0. -/
theorem txKeyUp : Obligations.TxKeyUp := by
  intro c s
  refine ⟨fun f p cmd hforme hp hhand hidle hlock hbody hplain htrim htokens =>
      txSend_does hforme hp hhand hidle hlock hbody hplain htrim htokens, fun k hcmd =>
    ⟨fun hstate hsynth htokens hfrom hwindow htag => ?planned, fun hph hdue => ?tr,
      fun hph hdue hsynth => ⟨fun hgrant => ?rises, fun hgnt hobey =>
        paEnRise_waits hcmd hph hdue hsynth hgnt hobey⟩,
      fun hph hdue hsynth => ⟨?up, ?upOut⟩⟩⟩
  case planned =>
    have he : exec (.plannedKeyup c) s = run s (fun s => s.txCheck c) := rfl
    refine run_does_from he ?_
    rintro u o rfl
    have hready : u.txReady c k = true := by
      rw [State.txReady, show (u.sl c).synthReady k.freq = true from hsynth]
      exact decide_eq_true htokens
    exact (txCheck_begins (s := u) hcmd hstate hready hfrom hwindow htag).trans (beginKeyup_eq hcmd)
  case tr =>
    refine run_gives_from (exec_trSwTransmit_due hcmd hph hdue) (fun _ _ _ _ h => h) ?_
    rintro u o rfl
    exact stopAcquirers_leaves ..
  case rises =>
    refine run_gives_from (paEnRise_rises hcmd hph hdue hsynth hgrant) (fun _ _ _ _ h => h) ?_
    rintro u o rfl
    obtain ⟨fwd, rev, hrise⟩ := paRise_eq (s := u) hcmd (k.phaseAt + 1024 * k.trLead)
    have htx : ((u.freeWord.2.modTx c (fun t => { t with
        paEn := true, sense := some (fwd, rev), cmd := some { k with
          phase := .pa, phaseAt := k.phaseAt + 1024 * k.trLead, paRose := true, stage := 2,
          fwd := max k.fwd fwd, rev := max k.rev rev } })).sl c).tx = _ := tx_modTx
    rw [hrise, htx]
    exact ⟨rfl, rfl, rfl, fun d hd => State.sl_modSl_ne u.freeWord.2 _ hd⟩
  case up =>
    refine run_does_sent (exec_rampUp_due hcmd hph hdue rfl hsynth) ?_
    rintro u o rfl
    exact ⟨_, startBurst_eq u c k _ hcmd⟩
  case upOut =>
    refine run_sends (exec_rampUp_due hcmd hph hdue rfl hsynth) ?_
    rintro u o rfl
    rw [startBurst_eq u c k _ hcmd]
    exact List.mem_append_left _ (List.mem_append_right _ (List.mem_singleton.mpr rfl))

end Sys2Proof.Machine
end
section
/-! SUPPORT. Changes of an acquirer (R190 to R193): what they leave alone, and how the RSSI windows that are due reach
it. -/

namespace Sys2Proof.Machine

open Sys2Proof

/-! ### Acquirers and demodulators of a slice -/

section
variable (x : Slice) (r : InstRef)

theorem acqOf_modAcqOf (f : Acq → Acq) : (x.modAcqOf r f).acqOf r = f (x.acqOf r) := by
  cases r with
  | inst n => exact vget_vmod_same _ _ _ n.isLt
  | cand t => exact vget_vmod_same _ _ _ t.isLt

/-- Of a change of an acquirer only what it makes of that acquirer counts. -/
theorem modAcqOf_congr {f g : Acq → Acq} (h : f (x.acqOf r) = g (x.acqOf r)) : x.modAcqOf r f = x.modAcqOf r g := by
  cases r with
  | inst n => exact congrArg (fun v => { x with acq := v }) (vmod_congr x.acq Acq.reset h)
  | cand t => exact congrArg (fun v => { x with candAcq := v }) (vmod_congr x.candAcq Acq.reset h)

theorem modAcqOf_modAcqOf (f g : Acq → Acq) : (x.modAcqOf r f).modAcqOf r g = x.modAcqOf r (fun a => g (f a)) := by
  cases r with
  | inst n => exact congrArg (fun v => { x with acq := v }) (vmod_vmod x.acq n.val f g)
  | cand t => exact congrArg (fun v => { x with candAcq := v }) (vmod_vmod x.candAcq t.val f g)

theorem demod_modDemod (f : Inst → Inst) : (x.modDemod r f).demod r = f (x.demod r) := by
  cases r with
  | inst n => exact vget_vmod_same _ _ _ n.isLt
  | cand t => exact vget_vmod_same _ _ _ t.isLt

theorem acqOf_modDemod (f : Inst → Inst) (q : InstRef) : (x.modDemod r f).acqOf q = x.acqOf q := by
  cases r <;> cases q <;> rfl

end

/-- A slice but for its acquirers and its front end. -/
def Slice.offAcq (x : Slice) : Slice :=
  { x with acq := Vector.replicate 48 Acq.reset, candAcq := Vector.replicate 32 Acq.reset, afe := Afe.reset }

theorem modAcqOf_offAcq (x : Slice) (r : InstRef) (f : Acq → Acq) : (x.modAcqOf r f).offAcq = x.offAcq := by
  cases r <;> rfl

section
variable {x y : Slice} (h : x.offAcq = y.offAcq)
include h

theorem tx_of_offAcq : x.tx = y.tx := (congrArg Slice.tx h : _)

theorem demod_of_offAcq (r : InstRef) : x.demod r = y.demod r := by
  have hd : x.offAcq.demod r = y.offAcq.demod r := congrArg (fun z => z.demod r) h
  cases r <;> exact hd

theorem refRec_of_offAcq (r : InstRef) : x.refRec r = y.refRec r := by
  have hd : x.offAcq.refRec r = y.offAcq.refRec r := congrArg (fun z => z.refRec r) h
  cases r <;> exact hd

theorem burstErased_of_offAcq (r : InstRef) (w : SyncWord) : x.burstErased r w = y.burstErased r w := by
  have hd : x.offAcq.burstErased r w = y.offAcq.burstErased r w := congrArg (fun z => z.burstErased r w) h
  cases r <;> exact hd

end

/-! ### Acquirers of the state -/

section
variable (s : State) (c : Fin 4) (r : InstRef)

theorem sl_modAcquirer (f : Acq → Acq) : (s.modAcquirer c r f).sl c = (s.sl c).modAcqOf r f := State.sl_modSl ..

theorem modAcquirer_congr {f g : Acq → Acq} (h : f ((s.sl c).acqOf r) = g ((s.sl c).acqOf r)) :
    s.modAcquirer c r f = s.modAcquirer c r g := modSl_congr s (modAcqOf_congr _ r h)

theorem modAcquirer_modAcquirer (f g : Acq → Acq) :
    (s.modAcquirer c r f).modAcquirer c r g = s.modAcquirer c r (fun a => g (f a)) :=
  (State.modSl_modSl ..).trans (modSl_congr s (modAcqOf_modAcqOf ..))

theorem takeRun_offAcq (rssi : RssiRun) : ((s.takeRun c r rssi).sl c).offAcq = (s.sl c).offAcq := by
  have hacq (f : Acq → Acq) : ((s.modAcquirer c r f).sl c).offAcq = (s.sl c).offAcq := by
    rw [sl_modAcquirer, modAcqOf_offAcq]
  unfold State.takeRun
  dsimp only
  split
  · rfl
  · split
    · exact hacq _
    · exact (congrArg Slice.offAcq (sl_modAfe ..)).trans (hacq _)

end

/-! ### Commands that bring RSSI windows -/

section
variable {i : Instr} {s : State} {c : Fin 4} {r : InstRef} {rssi : RssiRun} {F : Nat → State → State}
  (he : exec i s = run s (fun u => if !(u.sl c).runDue r rssi then u else F u.real (u.takeRun c r rssi)))
  (hdue : (s.sl c).runDue r rssi = true)
include he hdue

theorem exec_onRun : exec i s = run s (fun u => F u.real (u.takeRun c r rssi)) := by
  refine he.trans (run_congr ?_)
  rintro u o rfl
  refine if_neg ?_
  rw [show (u.sl c).runDue r rssi = true from hdue]
  decide

/-- A command that brings windows does what `F` makes of the state with the windows taken, in which slice `c` is `x`. -/
theorem onRun_does {x : Slice} (hx : (s.takeRun c r rssi).sl c = x) {g : State → State}
    (h : ∀ u, (u.takeRun c r rssi).sl c = x → F s.real (u.takeRun c r rssi) = g u) : Does i s g := by
  refine run_does_from (exec_onRun he hdue) ?_
  rintro u o rfl
  exact h u ((sl_congr (takeRun_slices_congr (t := u) (s := { u with out := o }) rfl c r rssi) c).trans hx)

theorem onRun_gives {x : Slice} (hx : (s.takeRun c r rssi).sl c = x) {P : State → Prop}
    (hP : ∀ t o p l, P t → P { t with out := o, qmg := { t.qmg with msixPba := p }, pending := l })
    (h : ∀ v, v.sl c = x → P (F s.real v)) : Gives i s P := by
  refine run_gives_from (exec_onRun he hdue) hP ?_
  rintro u o rfl
  exact h _ ((sl_congr (takeRun_slices_congr (t := u) (s := { u with out := o }) rfl c r rssi) c).trans hx)

end

end Sys2Proof.Machine
end

section
/-! SUPPORT. The acquirer of an LDB demodulator (R190 to R193): noise, triggers, sync words and captures. -/

namespace Sys2Proof.Machine

open Sys2Proof

/-! ### Noise and triggers (R190, R191, R193) -/

/-- The noise interval that ends with the windows up to `stop` (R190). -/
def State.endInterval (s : State) (c : Fin 4) (r : InstRef) (stop : Nat) : State :=
  if stop < ((s.sl c).acqOf r).since + msTicks 125 then s
  else
    s.modAcquirer c r (fun a =>
      let b := { a with dirty := a.acq != .idle || (s.sl c).tx.trSw, since := stop, lowest := none }
      match a.lowest with
      | some v => if a.dirty || a.acq != .idle || (s.sl c).tx.trSw then b else { b with noise := (v :: a.noise).take 8 }
      | none => b)

/-- The trigger that the windows up to `stop` make (R191). -/
def State.trigger (s : State) (c : Fin 4) (r : InstRef) (stop : Nat) : State :=
  if ((s.sl c).acqOf r).acq = .idle ∧ !(s.sl c).tx.trSw ∧ 16 ≤ ((s.sl c).acqOf r).riseRun then
    s.modAcquirer c r (fun a => { a with
      acq := .triggered, triggers := count 16 1 a.triggers, rewindow := false, dirty := true, trigAt := stop })
  else s

section
variable {s : State} {c : Fin 4} {r : InstRef} {x : Slice} {stop : Nat} (hx : s.sl c = x)
include hx

theorem endInterval_early (hearly : stop < (x.acqOf r).since + 128000000) : s.endInterval c r stop = s := by
  subst hx
  exact if_pos hearly

/-- A clean interval adds its lowest RSSI to those that make NOISE. -/
theorem endInterval_clean {v : Int} (hidle : (x.acqOf r).acq = .idle) (htr : x.tx.trSw = false)
    (hover : (x.acqOf r).since + 128000000 ≤ stop) (hlow : (x.acqOf r).lowest = some v) :
    s.endInterval c r stop = s.modAcquirer c r (fun b => { b with
      noise := if (x.acqOf r).dirty then b.noise else (v :: b.noise).take 8, dirty := false, since := stop,
      lowest := none }) := by
  subst hx
  refine (if_neg (not_lt.mpr hover)).trans (modAcquirer_congr s c r ?_)
  rw [hlow, hidle, htr]
  cases ((s.sl c).acqOf r).dirty <;> rfl

theorem trigger_rises (hidle : (x.acqOf r).acq = .idle) (htr : x.tx.trSw = false) (hrise : 16 ≤ (x.acqOf r).riseRun) :
    s.trigger c r stop = s.modAcquirer c r (fun a => { a with
      acq := .triggered, triggers := min (a.triggers + 1) 0xFFFF, rewindow := false, dirty := true,
      trigAt := stop }) := by
  subst hx
  exact if_pos ⟨hidle, by rw [htr]; rfl, hrise⟩

theorem trigger_waits (hrise : (x.acqOf r).riseRun < 16) : s.trigger c r stop = s := by
  subst hx
  exact if_neg fun h => absurd h.2.2 (not_le.mpr hrise)

end

/-! ### Sync words and captures (R191 to R193, R205) -/

/-- The acquirer once it takes the burst of sync word `w` (R191, R192). -/
def Acq.takes (a : Acq) (w : SyncWord) (captured erased : Bool) : Acq :=
  { a with
    lastSync := w.syncTb, acq := .header, burst := some (newBurst w a.refNow captured erased), capRun := 0,
    capAt := none }

/-- What sync word `w` does at real tick `real` (R191 to R193, R199). -/
def State.findSync (s : State) (c : Fin 4) (r : InstRef) (w : SyncWord) (real : Nat) : State :=
  let x := s.sl c
  let p := x.refRec r
  let a := x.acqOf r
  if !a.qualifies p w then s
  else
    let s1 := s.modAcquirer c r (fun a => { a with lastSync := w.syncTb })
    match a.acq with
    | .idle => s1
    | .triggered =>
      if !a.inWindow p w then s1
      else
        let s2 := s1.takeBurst c r w false
        if (x.demod r).state = .search then
          (s2.modSl c (fun x => x.modDemod r (fun i => i.enter .sync real))).modAcquirer c r (fun a =>
            { a with lastPass := real })
        else s2
    | _ =>
      if a.captures p w then s
      else s1.modAcquirer c r (fun a => { a with missed := count 16 1 a.missed, events := raise a.events 4 })

/-- What the capture condition does for sync word `w` (R192, R193, R195). -/
def State.capture (s : State) (c : Fin 4) (r : InstRef) (w : SyncWord) : State :=
  let x := s.sl c
  let p := x.refRec r
  let a := x.acqOf r
  match a.burst with
  | none => s
  | some b =>
    if !(a.qualifies p w && a.captures p w) then s
    else
      let s2 :=
        if b.allDemod then s.modAcquirer c r (fun a => a.toTail ((x.demod r).state == .track))
        else if a.acq = .header then
          s.modAcquirer c r (fun a => { a with reacquired := count 16 1 a.reacquired, events := raise a.events 2 })
        else
          ((s.burstRecord c r b 3 0 0x8000 (a.refNow - b.ref) (burstBytes p b (syncEnd p w.syncTb))).burstFail c
            r).modAcquirer c r (fun a => { a with captured := count 16 1 a.captured, events := raise a.events 3 })
      (s2.takeBurst c r w true).modAcquirer c r (fun a => { a with lastSync := w.syncTb })

section
variable (s : State) (c : Fin 4) (r : InstRef) (w : SyncWord)

theorem takeBurst_then_note {s : State} {e : Bool} (captured : Bool) (h : (s.sl c).burstErased r w = e) :
    (s.takeBurst c r w captured).modAcquirer c r (fun a => { a with lastSync := w.syncTb })
      = s.modAcquirer c r (fun a => a.takes w captured e) := by
  subst h
  exact modAcquirer_modAcquirer ..

theorem burstErased_modAcquirer (f : Acq → Acq) :
    ((s.modAcquirer c r f).sl c).burstErased r w = (s.sl c).burstErased r w := by
  rw [sl_modAcquirer]
  exact burstErased_of_offAcq (modAcqOf_offAcq ..) r w

/-- The receiving cell takes the burst of a sync word that has been noted. -/
theorem takeBurst_noted (captured : Bool) :
    (s.modAcquirer c r (fun a => { a with lastSync := w.syncTb })).takeBurst c r w captured
      = s.modAcquirer c r (fun a => a.takes w captured ((s.sl c).burstErased r w)) := by
  unfold State.takeBurst
  dsimp only
  rw [burstErased_modAcquirer]
  exact modAcquirer_modAcquirer ..

end

section
variable {s : State} {c : Fin 4} {r : InstRef} {x : Slice} {w : SyncWord} (hx : s.sl c = x) (real : Nat)
include hx

theorem findSync_unqualified (hq : (x.acqOf r).qualifies (x.refRec r) w = false) :
    s.findSync c r w real = s := by
  subst hx
  exact if_pos (by rw [hq]; rfl)

section
variable (hq : (x.acqOf r).qualifies (x.refRec r) w = true)
include hq

/-- A qualified sync word in the window of a trigger begins a burst. -/
theorem findSync_triggered (htrig : (x.acqOf r).acq = .triggered)
    (hwin : (x.acqOf r).inWindow (x.refRec r) w = true) :
    s.findSync c r w real =
      let t := s.modAcquirer c r (fun a => a.takes w false (x.burstErased r w))
      if (x.demod r).state = .search then
        (t.modSl c (fun x => x.modDemod r (fun i => i.enter .sync real))).modAcquirer c r (fun a =>
          { a with lastPass := real })
      else t := by
  subst hx
  unfold State.findSync
  dsimp only
  rw [hq, htrig, hwin, takeBurst_noted]
  rfl

/-- A burst that begins in SEARCH brings its demodulator into SYNC (R193). -/
theorem findSync_search (htrig : (x.acqOf r).acq = .triggered)
    (hwin : (x.acqOf r).inWindow (x.refRec r) w = true) (hsearch : (x.demod r).state = .search) :
    (((s.findSync c r w real).sl c).demod r).state = .sync
      ∧ ((s.findSync c r w real).sl c).acqOf r
        = { (x.acqOf r).takes w false (x.burstErased r w) with lastPass := real } := by
  have hdemod (y : Slice) (f : Acq → Acq) : (y.modAcqOf r f).demod r = y.demod r := by cases r <;> rfl
  rw [(findSync_triggered hx real hq htrig hwin).trans (if_pos hsearch), sl_modAcquirer, State.sl_modSl,
    sl_modAcquirer, hdemod, demod_modDemod, acqOf_modAcqOf, acqOf_modDemod, acqOf_modAcqOf, hx]
  exact ⟨rfl, rfl⟩

/-- A qualified sync word with a burst in hand is missed, unless it meets the capture condition. -/
theorem findSync_missed (hhand : (x.acqOf r).acq = .header ∨ (x.acqOf r).acq = .payload)
    (hcap : (x.acqOf r).captures (x.refRec r) w = false) :
    s.findSync c r w real = s.modAcquirer c r (fun a => { a with
      lastSync := w.syncTb, missed := min (a.missed + 1) 0xFFFF, events := a.events ||| 0x10 }) := by
  subst hx
  unfold State.findSync
  dsimp only
  rw [hq, hcap]
  rcases hhand with h | h
  · rw [h]
    exact modAcquirer_modAcquirer ..
  · rw [h]
    exact modAcquirer_modAcquirer ..

end

end

/-! ### Captures (R192, R193) -/

theorem keyOf_modDemod (x : Slice) (r q : InstRef) {f : Inst → Inst} (h : ∀ i, (f i).declared = i.declared) :
    (x.modDemod r f).keyOf q = x.keyOf q := by
  cases r with
  | cand t => cases q <;> rfl
  | inst n =>
    cases q with
    | cand t => rfl
    | inst m =>
      have hm : ((x.modInst n.val f).instAt m.val).declared = (x.instAt m.val).declared :=
        apply_vget_vmod Inst.declared x.inst n.val m.val Inst.reset h
      exact congrArg (fun b => if b = true then some m.val else none) hm

/-- A change of a demodulator that keeps whether it is declared, and its erased runs, keeps what is erased. -/
theorem burstErased_modDemod (x : Slice) (r : InstRef) (w : SyncWord) {f : Inst → Inst}
    (hdecl : ∀ i, (f i).declared = i.declared) (hruns : ∀ i, (f i).erasedRuns = i.erasedRuns) :
    (x.modDemod r f).burstErased r w = x.burstErased r w := by
  have hforce : (x.modDemod r f).inForce = x.inForce := by cases r <;> rfl
  have hconf (g : Forme) : (x.modDemod r f).confOf g ((x.modDemod r f).refTun r) = x.confOf g (x.refTun r) := by
    cases r <;> rfl
  have hrec : (x.modDemod r f).refRec r = x.refRec r := by
    have hdm (n : Nat) : (x.modDemod r f).dmOf n = x.dmOf n := by cases r <;> rfl
    simp only [Slice.refRec, keyOf_modDemod x r r hdecl, hdm]
  have hin (period lo hi : Nat) :
      ((x.modDemod r f).demod r).erasedIn period lo hi = (x.demod r).erasedIn period lo hi := by
    rw [demod_modDemod, Inst.erasedIn, hruns]
    rfl
  unfold Slice.burstErased
  rw [hforce]
  cases x.inForce with
  | none => rfl
  | some g => simp only [hconf, hrec, hin]

/-- The burst in hand, whose header is not decoded yet, makes way. -/
theorem capture_header {s : State} {c : Fin 4} {r : InstRef} {x : Slice} {w : SyncWord} {b : Burst}
    (hx : s.sl c = x) (hb : (x.acqOf r).burst = some b) (hq : (x.acqOf r).qualifies (x.refRec r) w = true)
    (hcap : (x.acqOf r).captures (x.refRec r) w = true) (hair : b.allDemod = false)
    (hacq : (x.acqOf r).acq = .header) :
    s.capture c r w = s.modAcquirer c r (fun a =>
      ({ a with reacquired := min (a.reacquired + 1) 0xFFFF, events := a.events ||| 4 } : Acq).takes w true
        (x.burstErased r w)) := by
  subst hx
  unfold State.capture
  dsimp only
  rw [hb]
  dsimp only
  rw [hq, hcap, hair, if_pos hacq]
  exact (takeBurst_then_note c r w true (burstErased_modAcquirer ..)).trans (modAcquirer_modAcquirer ..)

/-- The burst in hand, whose payload is on the air, makes way. -/
theorem capture_payload {s : State} {c : Fin 4} {r : InstRef} {x : Slice} {w : SyncWord} {b : Burst}
    (hx : s.sl c = x) (hb : (x.acqOf r).burst = some b) (hq : (x.acqOf r).qualifies (x.refRec r) w = true)
    (hcap : (x.acqOf r).captures (x.refRec r) w = true) (hair : b.allDemod = false)
    (hacq : (x.acqOf r).acq = .payload) :
    ((s.capture c r w).sl c).acqOf r =
      ({ x.acqOf r with
        captured := min ((x.acqOf r).captured + 1) 0xFFFF,
        events := (x.acqOf r).events ||| 8 } : Acq).takes w true (x.burstErased r w) := by
  subst hx
  unfold State.capture
  dsimp only
  rw [hb]
  dsimp only
  let v := s.burstRecord c r b 3 0 0x8000 (((s.sl c).acqOf r).refNow - b.ref)
    (burstBytes ((s.sl c).refRec r) b (syncEnd ((s.sl c).refRec r) w.syncTb))
  have hsl : (v.burstFail c r).sl c
      = (s.sl c).modDemod r (fun i => { i with unitFail := count 32 1 i.unitFail }) :=
    (State.sl_modSl v c _).trans (congrArg (fun x : Slice => x.modDemod r _) (sl_congr (burstRecord_slices ..) c))
  have herased : ((v.burstFail c r).sl c).burstErased r w = (s.sl c).burstErased r w := by
    rw [hsl]
    exact burstErased_modDemod _ r w (fun _ => rfl) fun _ => rfl
  have hacqOf : ((v.burstFail c r).sl c).acqOf r = (s.sl c).acqOf r := by
    rw [hsl, acqOf_modDemod]
  have hpay : ¬ ((s.sl c).acqOf r).acq = .header := by
    rw [hacq]
    decide
  rw [hq, hcap, hair, if_neg hpay]
  refine (congrArg (fun t : State => (t.sl c).acqOf r) (takeBurst_then_note c r w true
    ((burstErased_modAcquirer ..).trans herased))).trans ?_
  rw [modAcquirer_modAcquirer, sl_modAcquirer, acqOf_modAcqOf, hacqOf]
  rfl

/-! ### The close of the qualifier window (R193) -/

/-- Whether the last RSSI that a window gave is at the trigger threshold. -/
def Acq.held (a : Acq) (p : List Byte) : Bool :=
  match a.riseAt p, a.lastValue with
  | some n, some v => decide (n ≤ v)
  | _, _ => false

/-- FALSE_TRIG after the window of a trigger closed without a sync word: a trigger counts once. -/
def Acq.falseCount (a : Acq) : Nat := if a.rewindow then a.falseTrig else min (a.falseTrig + 1) 0xFFFF

/-- The qualifier window that has closed with the windows up to `stop` (R193). -/
def State.closeWindow (s : State) (c : Fin 4) (r : InstRef) (stop : Nat) : State :=
  let a := (s.sl c).acqOf r
  let p := (s.sl c).refRec r
  let at_ := a.trigAt + symTicks p 64
  if a.acq ≠ .triggered ∨ stop < at_ then s
  else
    s.modAcquirer c r (fun b =>
      let d := { b with falseTrig := b.falseCount }
      if a.held p then { d with rewindow := true, trigAt := at_ } else d.idle)

section
variable {s : State} {c : Fin 4} {r : InstRef} {x : Slice} {stop : Nat} (hx : s.sl c = x)
include hx

theorem closeWindow_open (h : stop < (x.acqOf r).trigAt + symTicks (x.refRec r) 64) : s.closeWindow c r stop = s := by
  subst hx
  exact if_pos (.inr h)

/-- A window that has closed goes by the last RSSI that a window gave. -/
theorem closeWindow_closed (htrig : (x.acqOf r).acq = .triggered)
    (hover : (x.acqOf r).trigAt + symTicks (x.refRec r) 64 ≤ stop) :
    s.closeWindow c r stop = s.modAcquirer c r (fun b =>
      if (x.acqOf r).held (x.refRec r) then
        { b with
          falseTrig := (x.acqOf r).falseCount, rewindow := true,
          trigAt := (x.acqOf r).trigAt + symTicks (x.refRec r) 64 }
      else
        { b with
          falseTrig := (x.acqOf r).falseCount, acq := .idle, burst := none, rewindow := false, capRun := 0,
          capAt := none }) := by
  subst hx
  have hclosed : ¬ (((s.sl c).acqOf r).acq ≠ .triggered
      ∨ stop < ((s.sl c).acqOf r).trigAt + symTicks ((s.sl c).refRec r) 64) := by
    rintro (h | h)
    · exact h htrig
    · exact absurd hover (not_le.mpr h)
  exact (if_neg hclosed).trans (modAcquirer_congr s c r rfl)

end

end Sys2Proof.Machine
end

section
/-! SUPPORT. The trellis decoders (R201, R202): the grant of a lone request, and the end of a segment. -/

namespace Sys2Proof.Machine

open Sys2Proof

/-! ### The arbiter (R27, R202) -/

theorem arbPick_lone (ptr i : Nat) : arbPick ptr [i] = some i := by
  by_cases h : ptr ≤ i <;> simp [arbPick, sortBy, insertBy, h]

/-- Of a list that holds `a` once, only `a` is kept. -/
theorem filterMap_only {α β : Type} [DecidableEq α] {a : α} (b : β) {l : List α} (hnodup : l.Nodup)
    (hmem : a ∈ l) :
    l.filterMap (fun i => if i = a then some b else none) = [b] := by
  induction l with
  | nil => exact absurd hmem List.not_mem_nil
  | cons i l ih =>
    obtain ⟨hnew, hnodup⟩ := List.nodup_cons.mp hnodup
    by_cases h : i = a
    · subst h
      have hrest : l.filterMap (fun j => if j = i then some b else none) = [] :=
        List.filterMap_eq_nil_iff.mpr fun j hj => if_neg (ne_of_mem_of_not_mem hj hnew)
      simp [hrest]
    · simp [h, ih hnodup ((List.mem_cons.mp hmem).resolve_left (Ne.symm h))]

/-- With both decoders free and one segment waiting, that segment asks alone. -/
theorem requests_lone {t : Trl} {w : Segment} (hrun : t.run = Vector.replicate 2 none) (hwait : t.wait = [w]) :
    t.requests = [w] := by
  have hfree (i : Fin 32) : t.runs i = false := by
    rw [Trl.runs, hrun]
    rfl
  have hasks (i : Fin 32) : (if t.runs i then none else t.wait.find? (fun v => v.tuning == i))
      = if i = w.tuning then some w else none := by
    rw [hfree, hwait]
    by_cases h : i = w.tuning
    · simp [h]
    · simp [h, Ne.symm h]
  rw [Trl.requests, funext hasks]
  exact filterMap_only w (List.nodup_finRange 32) (List.mem_finRange w.tuning)

/-- Decoder 0 takes the segment that waits alone. -/
theorem grant_lone {t : Trl} {w : Segment} (hrun : t.run = Vector.replicate 2 none) (hwait : t.wait = [w]) (now : Nat) :
    t.grant now 0 = { t with
      ptr := (w.tuning.val + 1) % 32, run := vmod t.run 0 (fun _ => some w), wait := [],
      waitMax := max t.waitMax (sat 16 ((now - w.asked) / 1024)) } := by
  have hfree : ¬ (vget t.run 0 none).isSome = true := by
    rw [hrun]
    decide
  have hfirst : firstIdx (fun v : Segment => v.tuning.val == w.tuning.val) [w] 0 = some 0 := by
    simp [firstIdx]
  rw [Trl.grant, if_neg hfree, requests_lone hrun hwait, List.map_singleton, arbPick_lone]
  dsimp only
  rw [hwait, hfirst]
  rfl

/-- Without a segment that waits a decoder takes none. -/
theorem grant_nothing {t : Trl} (hwait : t.wait = []) (now d : Nat) : t.grant now d = t := by
  have hnone : t.requests = [] := by
    simp [Trl.requests, hwait]
  rw [Trl.grant, hnone]
  split <;> rfl

/-! ### Requests (R194, R201, R202) -/

/-- The burst whose block `q` the demodulator requests at TB value `now`, where its profile is LDB (R194). -/
def Slice.askingBurst (x : Slice) (r : InstRef) (q : SegReq) (now : Nat) : Option Burst :=
  if dmProfile (x.refRec r) = 8 then x.segBurst r q now else none

/-- The segment that waits for block `q`, requested at TB value `now` for the burst `b` (R202). -/
def Slice.segmentOf (x : Slice) (f : Forme) (r : InstRef) (q : SegReq) (b : Option Burst) (now : Nat) : Segment :=
  { tuning := q.tuning, kind := q.kind, burst := (b.map (fun b => b.syncTb)).getD 0, soft := x.presented f r b q,
    metrics := startMetrics, out := [], asked := now }

/-- A demodulator that may ask for block `q` puts its request behind those that wait, and the load counts its values. -/
theorem present_asks {s : State} {c : Fin 4} {q : SegReq} {f : Forme} {r : InstRef}
    (hforme : (s.sl c).inForce = some f) (hreader : (s.sl c).readerOf q.tuning.val = some r)
    (hlive : (s.sl c).refLive r = true) (hsoft : q.soft ≠ [])
    (hkind : kindOf (dmProfile ((s.sl c).refRec r)) q.kind = true)
    (hburst : dmProfile ((s.sl c).refRec r) = 8 → (s.sl c).askingBurst r q s.tb ≠ none)
    (hstate : dmProfile ((s.sl c).refRec r) ≠ 8 →
      ((s.sl c).demod r).state = .sync ∨ ((s.sl c).demod r).state = .track) :
    ((s.present c q).sl c).trl = { (s.sl c).trl with
        wait := (s.sl c).trl.wait ++ [(s.sl c).segmentOf f r q ((s.sl c).askingBurst r q s.tb) s.tb],
        loadNow := (s.sl c).trl.loadNow + segReceived q }
      ∧ OtherSlices c s (s.present c q) := by
  have hasks : ¬ ((!kindOf (dmProfile ((s.sl c).refRec r)) q.kind) = true ∨ (!(s.sl c).refLive r) = true
      ∨ q.soft = []
      ∨ (dmProfile ((s.sl c).refRec r) = 8 ∧ (s.sl c).askingBurst r q s.tb = none)
      ∨ (dmProfile ((s.sl c).refRec r) ≠ 8
        ∧ ((s.sl c).demod r).state ≠ .sync ∧ ((s.sl c).demod r).state ≠ .track)) := by
    rw [hkind, hlive]
    tauto
  let g (x : Slice) : Slice := { x with trl := { x.trl with
    wait := x.trl.wait ++ [(s.sl c).segmentOf f r q ((s.sl c).askingBurst r q s.tb) s.tb],
    loadNow := x.trl.loadNow + segReceived q } }
  have hpresent : ∃ h : Acq → Acq, s.present c q
      = if dmProfile ((s.sl c).refRec r) = 8 then (s.modSl c g).modAcquirer c r h else s.modSl c g := by
    unfold State.present
    dsimp only
    rw [hforme, hreader]
    exact ⟨_, if_neg hasks⟩
  obtain ⟨h, hpresent⟩ := hpresent
  have hsl : (s.modSl c g).sl c = g (s.sl c) := State.sl_modSl ..
  have hother : OtherSlices c s (s.modSl c g) := fun d hd => State.sl_modSl_ne s g hd
  have htrl (x : Slice) : (x.modAcqOf r h).trl = x.trl := by cases r <;> rfl
  rw [hpresent]
  split
  · rw [sl_modAcquirer, htrl, hsl]
    exact ⟨rfl, fun d hd => (State.sl_modSl_ne (s.modSl c g) _ hd).trans (hother d hd)⟩
  · rw [hsl]
    exact ⟨rfl, hother⟩

/-- Free decoders of slice `c` take one segment each at TB value `now` (R202). -/
def State.grantSegments (s : State) (c : Fin 4) (now : Nat) : State :=
  s.modSl c (fun x => { x with
    err := { x.err with resetting := x.err.resetting.filter (fun e => e.1 != 10) },
    trl := (x.trl.grant now 0).grant now 1 })

/-- The segment that waits alone runs on decoder 0, and the pointer steps past its tuning. -/
theorem grantSegments_lone {s : State} {c : Fin 4} {w : Segment} (hrun : (s.sl c).trl.run = Vector.replicate 2 none)
    (hwait : (s.sl c).trl.wait = [w]) (now : Nat) :
    let k := ((s.grantSegments c now).sl c).trl
    vget k.run 0 none = some w ∧ vget k.run 1 none = none ∧ k.wait = [] ∧ k.loadNow = (s.sl c).trl.loadNow
      ∧ k.ptr = (w.tuning.val + 1) % 32 := by
  have hsl : ((s.grantSegments c now).sl c).trl = ((s.sl c).trl.grant now 0).grant now 1 :=
    congrArg Slice.trl (State.sl_modSl ..)
  have hgrant := grant_lone hrun hwait now
  have hdone : ((s.sl c).trl.grant now 0).wait = [] := by
    rw [hgrant]
  dsimp only
  rw [hsl, grant_nothing hdone, hgrant]
  refine ⟨vget_vmod_same _ _ _ (by decide), (vget_vmod_ne _ _ _ (by decide)).trans ?_, rfl, rfl, rfl⟩
  rw [hrun]
  rfl

theorem exec_trellisGrant_one {s : State} {c : Fin 4} {q : SegReq} (hlive : (s.sl c).live = true) :
    exec (.trellisGrant c [q]) s = run s (fun u => (u.present c q).grantSegments c u.tb) := by
  have he : exec (.trellisGrant c [q]) s = execTrellisGrant c [q] s := rfl
  unfold execTrellisGrant at he
  refine he.trans (run_congr ?_)
  rintro u o rfl
  rw [show (u.sl c).live = true from hlive]
  rfl

/-! ### The end of a segment (R193, R194, R202) -/

/-- The segment that decoder `d` has run is done, and `next` of its block waits. -/
def State.freeDecoder (s : State) (c : Fin 4) (d : Nat) (next : Option Segment) (t : Fin 32) : State :=
  s.modSl c (fun x => { x with trl := x.trl.proceed d s.tb next t })

/-- The block of `w` after its segment has run: what remains of it, if anything. -/
def Segment.next (w : Segment) : Option Segment :=
  let v := runSegment (kindGens w.kind) w.metrics w.soft
  if v.2.2 = [] then none else some { w with soft := v.2.2, metrics := v.2.1, out := w.out ++ v.1 }

/-- What the demodulator `r` makes of the segment `w` that has run for it. -/
def State.segmentRan (s : State) (c : Fin 4) (r : InstRef) (w : Segment) (snr : Nat) : State :=
  let v := runSegment (kindGens w.kind) w.metrics w.soft
  if dmProfile ((s.sl c).refRec r) = 8 then
    (if w.next.isNone then s.blockDone c r w (w.out ++ v.1) snr else s)
  else
    let e := reencode (kindGens w.kind) (encoderState 0 w.out) v.1 (w.soft.take v.1.length)
    s.modSl c (fun x => x.modDemod r (fun i => { i with berErr := i.berErr + e.1, berSeen := i.berSeen + e.2 }))

/-- Decoder `d` has run the segment `w`. -/
def State.completeSegment (s : State) (c : Fin 4) (d : Nat) (w : Segment) (snr : Nat) : State :=
  match ((s.freeDecoder c d w.next w.tuning).sl c).readerOf w.tuning.val with
  | none => s.freeDecoder c d w.next w.tuning
  | some r => (s.freeDecoder c d w.next w.tuning).segmentRan c r w snr

theorem exec_segmentComplete_ran {s : State} {c : Fin 4} {d : Fin 2} {w : Segment} (snr : BitVec 16)
    (hrun : (s.sl c).trl.run.get d = some w) :
    exec (.segmentComplete c d snr) s = run s (fun u => u.completeSegment c d.val w snr.toNat) := by
  have he : exec (.segmentComplete c d snr) s = execSegmentComplete c d snr s := rfl
  unfold execSegmentComplete at he
  refine he.trans (run_congr ?_)
  rintro u o rfl
  rw [show (u.sl c).trl.run.get d = some w from hrun]
  rfl

section
variable (s : State) (c : Fin 4) (d : Nat) (next : Option Segment) (t : Fin 32)

theorem sl_freeDecoder :
    (s.freeDecoder c d next t).sl c = { s.sl c with trl := (s.sl c).trl.proceed d s.tb next t } := State.sl_modSl ..

theorem refRec_freeDecoder (r : InstRef) : ((s.freeDecoder c d next t).sl c).refRec r = (s.sl c).refRec r := by
  rw [sl_freeDecoder]
  rfl

theorem acqOf_freeDecoder (r : InstRef) : ((s.freeDecoder c d next t).sl c).acqOf r = (s.sl c).acqOf r := by
  rw [sl_freeDecoder]
  cases r <;> rfl

theorem freeDecoder_others : OtherSlices c s (s.freeDecoder c d next t) := fun _ he => State.sl_modSl_ne s _ he

end

section
variable {s : State} {c : Fin 4} {d : Nat} {w : Segment} {snr : Nat}

theorem completeSegment_unread (h : (s.sl c).readerOf w.tuning.val = none) :
    s.completeSegment c d w snr = s.freeDecoder c d w.next w.tuning := by
  have hreader : ((s.freeDecoder c d w.next w.tuning).sl c).readerOf w.tuning.val = none := by
    rw [sl_freeDecoder]
    exact h
  rw [State.completeSegment, hreader]

variable {r : InstRef} (h : (s.sl c).readerOf w.tuning.val = some r)
include h

theorem completeSegment_read :
    s.completeSegment c d w snr = (s.freeDecoder c d w.next w.tuning).segmentRan c r w snr := by
  have hreader : ((s.freeDecoder c d w.next w.tuning).sl c).readerOf w.tuning.val = some r := by
    rw [sl_freeDecoder]
    exact h
  rw [State.completeSegment, hreader]

end

/-- While more of an LDB block remains its demodulator does nothing. -/
theorem segmentRan_more {s : State} {c : Fin 4} {r : InstRef} {w : Segment} (snr : Nat)
    (hldb : dmProfile ((s.sl c).refRec r) = 8) (hmore : (runSegment (kindGens w.kind) w.metrics w.soft).2.2 ≠ []) :
    s.segmentRan c r w snr = s := by
  have hnext : w.next.isNone = false := by
    rw [Segment.next, if_neg hmore]
    rfl
  refine (if_pos hldb).trans ?_
  rw [hnext]
  rfl

/-- A segment of an OFDM block counts in CH_BER alone (R182). -/
theorem segmentRan_ofdm {s : State} {c : Fin 4} {r : InstRef} {w : Segment} (snr : Nat)
    (hofdm : dmProfile ((s.sl c).refRec r) ≠ 8) :
    ((s.segmentRan c r w snr).sl c).trl = (s.sl c).trl ∧ ((s.segmentRan c r w snr).sl c).acq = (s.sl c).acq
      ∧ (((s.segmentRan c r w snr).sl c).demod r).state = ((s.sl c).demod r).state
      ∧ OtherSlices c s (s.segmentRan c r w snr) := by
  unfold State.segmentRan
  dsimp only
  rw [if_neg hofdm, State.sl_modSl, demod_modDemod]
  refine ⟨?_, ?_, rfl, fun d hd => State.sl_modSl_ne s _ hd⟩
  · cases r <;> rfl
  · cases r <;> rfl

/-! ### Headers (R193, R194, R199) -/

/-- The last segment of a header, whose burst is in the receiving cell. -/
theorem segmentRan_header {s : State} {c : Fin 4} {r : InstRef} {w : Segment} {b : Burst} (snr : Nat)
    (hldb : dmProfile ((s.sl c).refRec r) = 8) (hend : (runSegment (kindGens w.kind) w.metrics w.soft).2.2 = [])
    (hkind : w.kind = .header) (hseat : ((s.sl c).acqOf r).seat w.burst = (.hand, some b)) :
    s.segmentRan c r w snr =
      s.headerDone c r .hand b (headerOf (w.out ++ (runSegment (kindGens w.kind) w.metrics w.soft).1)) snr := by
  have hnext : w.next.isNone = true := by
    rw [Segment.next, if_pos hend]
    rfl
  refine (if_pos hldb).trans ?_
  rw [hnext, if_pos rfl, State.blockDone]
  rw [hseat]
  generalize headerOf (w.out ++ (runSegment (kindGens w.kind) w.metrics w.soft).1) = h
  rw [hkind]

/-- A header whose HCRC is wrong drops the burst in hand. -/
theorem headerDone_wrong {s : State} {c : Fin 4} {r : InstRef} {b : Burst} {h : DWord} (snr : Nat)
    (hcrc : ldbHcrcOk h = false) (hreport : ldbReport ((s.sl c).refRec r) = false) :
    s.headerDone c r .hand b h snr = s.modAcquirer c r (fun a => { a with
      acq := .idle, burst := none, rewindow := false, capRun := 0, capAt := none,
      hdrFail := min (a.hdrFail + 1) 0xFFFF }) := by
  unfold State.headerDone
  dsimp only
  rw [hcrc, hreport]
  rfl

/-- A demodulator whose AF process is PRIMARY goes on, whatever identity it reads. -/
theorem afRead_primary {s : State} {c : Fin 4} {n : Fin 48} (id ts : Nat)
    (h : ((s.sl c).afAt n.val).state = .primary) : s.afRead c (.inst n) (some id) none ts = s := by
  unfold State.afRead
  dsimp only
  split
  · rfl
  · rw [State.instIdent]
    rw [h]

/-- The acquirer after the header `h` of its burst `b` in hand has passed at real tick `real` (R194). -/
def Acq.headerPassed (a : Acq) (b : Burst) (h : DWord) (real : Nat) : Acq :=
  { a with
    hdrOk := min (a.hdrOk + 1) 0xFFFF, events := a.events ||| 1, lastPass := real, acq := .payload,
    burst := some { b with header := h, length := ldbLength h, passed := true, asked := false },
    offsets := (sext 32 b.freqErr.toNat :: a.offsets).take 8 }

/-- A header that passes and announces a payload, in TRACK with a PRIMARY AF process, leads to the payload. -/
theorem headerDone_passes {s : State} {c : Fin 4} {n : Fin 48} {b : Burst} {h : DWord} (snr : Nat)
    (hpass : ldbPasses h = true) (hlen : ldbLength h ≠ 0) (htrack : ((s.sl c).instAt n.val).state = .track)
    (haf : ((s.sl c).afAt n.val).state = .primary) :
    s.headerDone c (.inst n) .hand b h snr = s.modAcquirer c (.inst n) (fun a => a.headerPassed b h s.real) := by
  have hcrc : ldbHcrcOk h = true := by
    simp only [ldbPasses, Bool.and_eq_true] at hpass
    exact hpass.1.1
  unfold State.headerDone
  dsimp only
  rw [hcrc, hpass]
  refine (if_neg (by decide)).trans ((if_neg (by decide)).trans ?_)
  generalize hv : s.modAcquirer c (.inst n) _ = v
  have hpassed : v = s.modAcquirer c (.inst n) (fun a => a.headerPassed b h s.real) := hv.symm
  have hsl : v.sl c = (s.sl c).modAcqOf (.inst n) (fun a => a.headerPassed b h s.real) := by
    rw [hpassed, sl_modAcquirer]
  have htracks : ((v.sl c).demod (.inst n)).state = .track := by
    rw [hsl]
    exact htrack
  have hprimary : ((v.sl c).afAt n.val).state = .primary := by
    rw [hsl]
    exact haf
  have hlocked : ¬ ((v.sl c).demod (.inst n)).state = .sync := by
    rw [htracks]
    decide
  rw [if_neg hlocked, if_pos htracks, afRead_primary _ _ hprimary, if_neg hlen, hpassed]

/-! ### What becomes of the block of a segment (R193, R194, R202) -/

section
variable {s : State} {c : Fin 4} {d : Nat} {w : Segment} {r : InstRef} (snr : Nat)
  (hreader : (s.sl c).readerOf w.tuning.val = some r)
include hreader

theorem completeSegment_more (hldb : dmProfile ((s.sl c).refRec r) = 8)
    (hmore : (runSegment (kindGens w.kind) w.metrics w.soft).2.2 ≠ []) :
    s.completeSegment c d w snr = s.freeDecoder c d w.next w.tuning :=
  (completeSegment_read hreader).trans
    (segmentRan_more snr ((congrArg dmProfile (refRec_freeDecoder ..)).trans hldb) hmore)

theorem completeSegment_ofdm (hofdm : dmProfile ((s.sl c).refRec r) ≠ 8) :
    let t := s.completeSegment c d w snr
    (t.sl c).trl = (s.sl c).trl.proceed d s.tb w.next w.tuning ∧ (t.sl c).acq = (s.sl c).acq
      ∧ ((t.sl c).demod r).state = ((s.sl c).demod r).state ∧ OtherSlices c s t := by
  have hfree := sl_freeDecoder s c d w.next w.tuning
  obtain ⟨htrl, hacq, hstate, hothers⟩ := segmentRan_ofdm (s := s.freeDecoder c d w.next w.tuning) (w := w) snr
    (ne_of_eq_of_ne (congrArg dmProfile (refRec_freeDecoder ..)) hofdm)
  have hdemod : ((s.freeDecoder c d w.next w.tuning).sl c).demod r = (s.sl c).demod r := by
    rw [hfree]
    cases r <;> rfl
  dsimp only
  rw [completeSegment_read hreader]
  exact ⟨htrl.trans (congrArg Slice.trl hfree), hacq.trans (by rw [hfree]),
    hstate.trans (congrArg Inst.state hdemod), fun e he => (hothers e he).trans (freeDecoder_others s c _ _ _ e he)⟩

variable {b : Burst} (hldb : dmProfile ((s.sl c).refRec r) = 8)
  (hend : (runSegment (kindGens w.kind) w.metrics w.soft).2.2 = []) (hkind : w.kind = .header)
  (hseat : ((s.sl c).acqOf r).seat w.burst = (.hand, some b))
include hldb hend hkind hseat

theorem completeSegment_header :
    s.completeSegment c d w snr = (s.freeDecoder c d w.next w.tuning).headerDone c r .hand b
      (headerOf (w.out ++ (runSegment (kindGens w.kind) w.metrics w.soft).1)) snr :=
  (completeSegment_read hreader).trans
    (segmentRan_header snr ((congrArg dmProfile (refRec_freeDecoder ..)).trans hldb) hend hkind
      ((congrArg (fun a => a.seat w.burst) (acqOf_freeDecoder ..)).trans hseat))

theorem completeSegment_wrong
    (hcrc : ldbHcrcOk (headerOf (w.out ++ (runSegment (kindGens w.kind) w.metrics w.soft).1)) = false)
    (hreport : ldbReport ((s.sl c).refRec r) = false) :
    s.completeSegment c d w snr = (s.freeDecoder c d w.next w.tuning).modAcquirer c r (fun a => { a with
      acq := .idle, burst := none, rewindow := false, capRun := 0, capAt := none,
      hdrFail := min (a.hdrFail + 1) 0xFFFF }) :=
  (completeSegment_header snr hreader hldb hend hkind hseat).trans
    (headerDone_wrong snr hcrc ((congrArg ldbReport (refRec_freeDecoder ..)).trans hreport))

end

theorem completeSegment_passes {s : State} {c : Fin 4} {d : Nat} {w : Segment} {n : Fin 48} {b : Burst} {h : DWord}
    (snr : Nat) (hreader : (s.sl c).readerOf w.tuning.val = some (.inst n))
    (hldb : dmProfile ((s.sl c).refRec (.inst n)) = 8)
    (hend : (runSegment (kindGens w.kind) w.metrics w.soft).2.2 = []) (hkind : w.kind = .header)
    (hseat : ((s.sl c).acqOf (.inst n)).seat w.burst = (.hand, some b))
    (hh : headerOf (w.out ++ (runSegment (kindGens w.kind) w.metrics w.soft).1) = h)
    (hpass : ldbPasses h = true) (hlen : 0 < ldbLength h)
    (htrack : ((s.sl c).instAt n.val).state = .track) (haf : ((s.sl c).afAt n.val).state = .primary) :
    let t := s.completeSegment c d w snr
    (t.sl c).acqOf (.inst n) = ((s.sl c).acqOf (.inst n)).headerPassed b h s.real
      ∧ (t.sl c).trl = (s.sl c).trl.proceed d s.tb w.next w.tuning ∧ OtherSlices c s t := by
  subst hh
  have hfree := sl_freeDecoder s c d w.next w.tuning
  have hlocked : (((s.freeDecoder c d w.next w.tuning).sl c).instAt n.val).state = .track := by
    rw [hfree]
    exact htrack
  have hprimary : (((s.freeDecoder c d w.next w.tuning).sl c).afAt n.val).state = .primary := by
    rw [hfree]
    exact haf
  dsimp only
  rw [completeSegment_header snr hreader hldb hend hkind hseat,
    headerDone_passes snr hpass (Nat.pos_iff_ne_zero.mp hlen) hlocked hprimary, sl_modAcquirer, acqOf_modAcqOf,
    acqOf_freeDecoder, hfree]
  exact ⟨rfl, rfl, fun e he => (State.sl_modSl_ne _ _ he).trans (freeDecoder_others s c _ _ _ e he)⟩

theorem ldbPasses_of {h : DWord} (hcrc : ldbHcrcOk h = true) (hver : ldbVersion h = 1) (hmax : ldbLength h ≤ 1024) :
    ldbPasses h = true := by
  simp [ldbPasses, hcrc, hver, hmax]

/-- Settles O37, from what each command makes of the acquirer once it has taken its windows, and from what the trellis
decoders make of a lone request and of a segment that has run. -/
theorem burstAcquisition : Obligations.BurstAcquisition := by
  intro c r s p put
  refine ⟨fun rssi hdue => ?runs, fun q f hforme hreader hlive hsoft hkind hwait hrun => ?grant,
    fun d w snr hrun => ?segment⟩
  case runs =>
    have hoff := takeRun_offAcq s c r rssi
    dsimp only [p, put]
    generalize hx : (s.takeRun c r rssi).sl c = x at hoff ⊢
    rw [← tx_of_offAcq hoff, ← refRec_of_offAcq hoff, ← demod_of_offAcq hoff]
    refine ⟨fun hidle htr => ⟨fun hearly => ?early, fun v hover hlow => ?clean⟩,
      fun hidle htr => ⟨fun hrise => ?rises, fun hrise => ?waits⟩,
      fun w => ⟨fun hq => ?unqualified, fun hq htrig hwin => ⟨fun hsync => ?begins, fun hsearch => ?search⟩,
        fun hq hhand hcap => ?missed, fun b hb hq hcap hair => ⟨fun hacq => ?inHeader, fun hacq => ?inPayload⟩⟩,
      fun htrig => ⟨fun hopen => ?opened, fun hover hheld => ?gone, fun hover hheld => ?held⟩⟩
    case early =>
      exact onRun_does (F := fun _ v => v.endInterval c r rssi.stop) rfl hdue hx fun u hu =>
        endInterval_early hu hearly
    case clean =>
      exact onRun_does (F := fun _ v => v.endInterval c r rssi.stop) rfl hdue hx fun u hu =>
        endInterval_clean hu hidle htr hover hlow
    case rises =>
      exact onRun_does (F := fun _ v => v.trigger c r rssi.stop) rfl hdue hx fun u hu =>
        trigger_rises hu hidle htr hrise
    case waits =>
      exact onRun_does (F := fun _ v => v.trigger c r rssi.stop) rfl hdue hx fun u hu => trigger_waits hu hrise
    case unqualified =>
      exact onRun_does (F := fun real v => v.findSync c r w real) rfl hdue hx fun u hu =>
        findSync_unqualified hu _ hq
    case begins =>
      exact onRun_does (F := fun real v => v.findSync c r w real) rfl hdue hx fun u hu =>
        (findSync_triggered hu _ hq htrig hwin).trans (if_neg hsync)
    case search =>
      exact onRun_gives (F := fun real v => v.findSync c r w real) rfl hdue hx (fun _ _ _ _ h => h) fun u hu =>
        findSync_search hu s.real hq htrig hwin hsearch
    case missed =>
      exact onRun_does (F := fun real v => v.findSync c r w real) rfl hdue hx fun u hu =>
        findSync_missed hu _ hq hhand hcap
    case inHeader =>
      exact onRun_does (F := fun _ v => v.capture c r w) rfl hdue hx fun u hu =>
        capture_header hu hb hq hcap hair hacq
    case inPayload =>
      exact onRun_gives (F := fun _ v => v.capture c r w) rfl hdue hx (fun _ _ _ _ h => h) fun u hu =>
        capture_payload hu hb hq hcap hair hacq
    case opened =>
      exact onRun_does (F := fun _ v => v.closeWindow c r rssi.stop) rfl hdue hx fun u hu => closeWindow_open hu hopen
    case gone =>
      exact onRun_does (F := fun _ v => v.closeWindow c r rssi.stop) rfl hdue hx fun u hu =>
        (closeWindow_closed hu htrig hover).trans (modAcquirer_congr _ c r (if_neg hheld))
    case held =>
      exact onRun_does (F := fun _ v => v.closeWindow c r rssi.stop) rfl hdue hx fun u hu =>
        (closeWindow_closed hu htrig hover).trans (modAcquirer_congr _ c r (if_pos hheld))
  case grant =>
    intro b hburst hstate
    have hrdy : (s.sl c).live = true := (Bool.and_eq_true_iff.mp hlive).1
    refine run_gives_from (exec_trellisGrant_one hrdy) (fun _ _ _ _ h => h) ?_
    rintro u o rfl
    obtain ⟨htrl, hothers⟩ := present_asks (s := u) hforme hreader hlive hsoft hkind hburst hstate
    have hqueue : ((u.present c q).sl c).trl.wait = [(u.sl c).segmentOf f r q b u.tb] := by
      rw [htrl]
      exact congrArg (· ++ _) hwait
    obtain ⟨hfirst, hsecond, hnone, hload, hptr⟩ :=
      grantSegments_lone ((congrArg Trl.run htrl).trans hrun) hqueue u.tb
    exact ⟨hfirst, hsecond, hnone, hload.trans (congrArg Trl.loadNow htrl), hptr,
      fun d hd => (State.sl_modSl_ne (u.present c q) _ hd).trans (hothers d hd)⟩
  case segment =>
    have he := exec_segmentComplete_ran snr hrun
    refine ⟨fun hreader => ?unread, fun hreader hldb hmore => ?more, fun hreader hofdm => ?ofdm,
      fun n b hreader hr hldb hend hkind hseat =>
        ⟨fun hcrc hreport => ?wrong, fun hcrc hver hlen hmax htrack haf => ?passes⟩⟩
    case unread =>
      refine run_does_from he ?_
      rintro u o rfl
      exact completeSegment_unread (s := u) hreader
    case more =>
      refine run_does_from he ?_
      rintro u o rfl
      exact completeSegment_more (s := u) _ hreader hldb hmore
    case ofdm =>
      refine run_gives_from he (fun _ _ _ _ h => h) ?_
      rintro u o rfl
      exact completeSegment_ofdm (s := u) _ hreader hofdm
    case wrong =>
      refine run_does_from he ?_
      rintro u o rfl
      exact completeSegment_wrong (s := u) _ hreader hldb hend hkind hseat hcrc hreport
    case passes =>
      subst hr
      refine run_gives_from he (fun _ _ _ _ h => h) ?_
      rintro u o rfl
      exact completeSegment_passes (s := u) _ hreader hldb hend hkind hseat rfl (ldbPasses_of hcrc hver hmax) hlen
        htrack haf

end Sys2Proof.Machine
end

section
/-! SUPPORT. The scheduler and the EVT pins (R236, R238): a record reaches neither, and what driving a pin does. -/

namespace Sys2Proof.Machine

open Sys2Proof

/-! ### Records leave the scheduler and the pins alone -/

/-- The scheduler and the registers of the EVT pins (R233, R236): what no record reaches. -/
def State.events (s : State) : Vector Sched 4 × Vector EvtPin 8 := (s.sched, s.evt)

theorem sched_of_events {s t : State} (h : t.events = s.events) : t.sched = s.sched := congrArg Prod.fst h
theorem evt_of_events {s t : State} (h : t.events = s.events) : t.evt = s.evt := congrArg Prod.snd h

@[simp] theorem events_ite {p : Prop} [Decidable p] (a b : State) :
    (if p then a else b).events = if p then a.events else b.events := apply_ite ..

section
variable (s : State)

@[simp] theorem events_modQ (q : Fin 256) (f : Queue → Queue) : (s.modQ q f).events = s.events := rfl
@[simp] theorem events_trk (k : Trk) : ({ s with trk := k } : State).events = s.events := rfl

@[simp] theorem egress_events (p : Fin 3) (i : Nat) (f : Frame) : (s.egress p i f).1.events = s.events := rfl

@[simp] theorem toChildren_events (i : Option Nat) (f : Frame) : (s.toChildren i f).1.events = s.events :=
  foldl_keeps (fun a : State × Bool => a.1.events) (fun a p => by dsimp only; split <;> rfl) allPorts (s, false)

@[simp] theorem originate_events (cls : FrameClass) (dir : FrameDir) (kind : Nat) (turn : Bool) (dest : Nat)
    (payload : List Byte) : (s.originate cls dir kind turn dest payload).1.events = s.events := by
  unfold State.originate
  dsimp only
  split
  · split
    · split <;> rfl
    · split
      · exact toChildren_events ..
      · split <;> simp
    · rfl
  · exact toChildren_events ..

@[simp] theorem exportRec_events (q : Fin 256) (r : Record) : (s.exportRec q r).events = s.events := by
  refine foldl_keeps State.events (fun t e => ?_) _ s
  dsimp only
  simp

variable (q : Fin 256) (causes : Byte) (lost : Nat) (es : List SrcCount) (ts : Nat)

@[simp] theorem lossTail_events : (s.lossTail q causes lost es ts).events = s.events := by
  unfold State.lossTail
  dsimp only
  split <;> split <;> rfl

@[simp] theorem lossHead_events : (s.lossHead q causes lost es ts).events = s.events := rfl

@[simp] theorem countLost_events (n : Nat) : (s.countLost q n).events = s.events := by
  unfold State.countLost
  dsimp only
  split <;> rfl

@[simp] theorem makeRoom_events (need n : Nat) : (State.makeRoom need q n s).events = s.events := by
  induction n generalizing s with
  | zero => rfl
  | succ n ih =>
    unfold State.makeRoom
    dsimp only
    split
    · rfl
    · split
      · rfl
      · split
        · simp [ih]
        · rfl

@[simp] theorem enter_events (r : Record) : (s.enter q r).events = s.events := by
  unfold State.enter
  split
  · rfl
  · exact exportRec_events ..

@[simp] theorem stage_events (r : Record) : (s.stage q r).events = s.events := by
  unfold State.stage
  dsimp only
  split
  · rfl
  · split <;> split <;> simp

@[simp] theorem schedRecord_events (c : Fin 4) (f : Option Forme) (e : SchedEntry) (outcome code ts : Nat) :
    (s.schedRecord c f e outcome code ts).events = s.events := by
  unfold State.schedRecord
  split
  · rfl
  · split
    · exact stage_events ..
    · rfl

end

/-! ### Driving a pin (R236, R426) -/

/-- The levels of the pins once `pin` is driven to `level`. -/
def drivePin (pins : Byte) (pin : Fin 8) (level : Bool) : Byte :=
  if level then pins ||| BitVec.ofNat 8 (2 ^ pin.val) else pins &&& ~~~(BitVec.ofNat 8 (2 ^ pin.val))

theorem testBit_drivePin (pins : Byte) (pin q : Fin 8) (level : Bool) :
    (drivePin pins pin level).toNat.testBit q.val = if q = pin then level else pins.toNat.testBit q.val := by
  have hbit : (BitVec.ofNat 8 (2 ^ pin.val)).getLsbD q.val = decide (q = pin) := by
    revert pin q
    decide
  unfold drivePin
  rw [BitVec.testBit_toNat, BitVec.testBit_toNat]
  cases level
  · rw [if_neg Bool.false_ne_true, BitVec.getLsbD_and, BitVec.getLsbD_not, hbit]
    by_cases hq : q = pin <;> simp [hq]
  · rw [if_pos rfl, BitVec.getLsbD_or, hbit]
    by_cases hq : q = pin <;> simp [hq]

/-- An EVT pin that is set to a level: beside its register it moves its output, unless EXTEST holds that, and what
leaves the module. -/
theorem setPin_shape (s : State) (pin : Fin 8) (level : Bool) :
    ∃ o, s.setPin pin level = { s with
      evt := s.evt.set pin.val { s.evt.get pin with level := level } pin.isLt,
      evtPins := if s.tap.extest then s.evtPins else drivePin s.evtPins pin level, out := o } := by
  unfold State.setPin
  dsimp only
  rw [show (if level = true then s.evtPins ||| BitVec.ofNat 8 (2 ^ pin.val)
    else s.evtPins &&& ~~~(BitVec.ofNat 8 (2 ^ pin.val))) = drivePin s.evtPins pin level from rfl]
  by_cases hx : s.tap.extest = true
  · exact ⟨s.out, by simp only [hx, Bool.true_or, if_true]⟩
  · by_cases hp : drivePin s.evtPins pin level = s.evtPins
    · exact ⟨s.out, by simp [hp]⟩
    · exact ⟨s.out ++ [.evt pin level], by simp [hx, hp]; rfl⟩

end Sys2Proof.Machine
end

section
/-! SUPPORT. Scheduled entries and pulse ends (R235, R236): what the execution of an entry and the end of a pulse do to
their pin and to the scheduler. -/

namespace Sys2Proof.Machine

open Sys2Proof

/-! ### A pin and its pulse -/

section
variable (s : State) (pin : Fin 8) (level : Bool) (p : Option (Nat × Fin 4 × Fin 64))

@[simp] theorem setPin_evt_same : (s.setPin pin level).evt.get pin = { s.evt.get pin with level := level } := by
  obtain ⟨o, h⟩ := setPin_shape s pin level
  rw [h]
  exact get_set_self ..

theorem setPin_evt_ne {q : Fin 8} (hq : q ≠ pin) : (s.setPin pin level).evt.get q = s.evt.get q := by
  obtain ⟨o, h⟩ := setPin_shape s pin level
  rw [h]
  exact get_set_ne _ _ hq

@[simp] theorem setPin_sched : (s.setPin pin level).sched = s.sched := by
  obtain ⟨o, h⟩ := setPin_shape s pin level
  rw [h]

/-- While EXTEST is not in force, the pin has the level that it is set to. -/
theorem testBit_evtPins_setPin (hx : s.tap.extest = false) :
    (s.setPin pin level).evtPins.toNat.testBit pin.val = level := by
  obtain ⟨o, h⟩ := setPin_shape s pin level
  rw [h, hx]
  exact (testBit_drivePin ..).trans (if_pos rfl)

@[simp] theorem setPulse_evt_same : (s.setPulse pin p).evt.get pin = { s.evt.get pin with pulse := p } :=
  get_set_self ..

theorem setPulse_evt_ne {q : Fin 8} (hq : q ≠ pin) : (s.setPulse pin p).evt.get q = s.evt.get q := get_set_ne _ _ hq

@[simp] theorem setPulse_sched : (s.setPulse pin p).sched = s.sched := rfl

/-! ### The end of a pulse -/

@[simp] theorem endPulse_sched (t : Nat) : (s.endPulse pin t).sched = s.sched := by
  unfold State.endPulse
  split
  · split <;> simp
  · rfl

variable {s pin}

theorem endPulse_due {u t : Nat} {k : Fin 4 × Fin 64} (hp : (s.evt.get pin).pulse = some (u, k)) (hu : u ≤ t) :
    s.endPulse pin t = (s.setPulse pin none).setPin pin false := by
  unfold State.endPulse
  rw [hp]
  exact if_pos hu

theorem endPulse_later {u t : Nat} {k : Fin 4 × Fin 64} (hp : (s.evt.get pin).pulse = some (u, k)) (hu : t < u) :
    s.endPulse pin t = s := by
  unfold State.endPulse
  rw [hp]
  exact if_neg (not_le.mpr hu)

end

/-! ### An entry that is executed -/

section
variable (s : State) (c : Fin 4) (e : SchedEntry) (due : Nat)

/-- The action of an entry: its pin is high unless the action is 0x02, and a pulse plans its end. -/
theorem pinAction_evt : (s.pinAction c e due).evt.get e.pin = {
    level := decide (e.action ≠ 2),
    pulse := if e.action = 1 ∨ e.action = 2 then none else some (due + 1024 * e.pulseUs, c, e.rule) } := by
  unfold State.pinAction
  by_cases h1 : e.action = 1
  · simp [h1]
  · by_cases h2 : e.action = 2
    · simp [h2]
    · simp [h1, h2, Nat.mul_comm]

@[simp] theorem pinAction_sched : (s.pinAction c e due).sched = s.sched := by
  unfold State.pinAction
  split
  · simp
  · split <;> simp

/-- The scheduler of a slice that has executed entry `e` at its due value (R235, R239). -/
def Sched.executing (d : Sched) (e : SchedEntry) (due : Nat) : Sched :=
  { d with
    entries := d.entries.map (fun x => if x = e then { e with done := some due } else x),
    executed := min (d.executed + 1) 0xFFFF, late := if e.late then min (d.late + 1) 0xFFFF else d.late,
    events := if e.late then raise (raise d.events 0) 3 else raise d.events 0 }

theorem executeEntry_events : (s.executeEntry c e due due false).events =
    (((s.endPulse e.pin due).pinAction c e due).modSch c (fun d => d.executing e due)).events := by
  unfold State.executeEntry
  rw [schedRecord_events]
  simp only [Bool.or_false]
  rfl

theorem executeEntry_sch : (s.executeEntry c e due due false).sch c = (s.sch c).executing e due := by
  have h := congrArg (Vector.get · c) (sched_of_events (executeEntry_events s c e due))
  refine h.trans ((State.sch_modSch ..).trans (congrArg (Sched.executing · e due) ?_))
  simp only [State.sch, pinAction_sched, endPulse_sched]

theorem executeEntry_evt : (s.executeEntry c e due due false).evt.get e.pin = {
    level := decide (e.action ≠ 2),
    pulse := if e.action = 1 ∨ e.action = 2 then none else some (due + 1024 * e.pulseUs, c, e.rule) } :=
  (congrArg (Vector.get · e.pin) (evt_of_events (executeEntry_events s c e due))).trans (pinAction_evt ..)

end

/-! ### The entries that are due -/

section
variable {s : State} {c : Fin 4} {n : Nat}

theorem runEntries_none (h : (s.sch c).dueBy n = []) : s.runEntries c n = s := by rw [State.runEntries, h]; rfl

theorem runEntries_one {u : Nat} {e : SchedEntry} (h : (s.sch c).dueBy n = [(u, e)]) :
    s.runEntries c n = s.executeEntry c e u u false := by rw [State.runEntries, h]; rfl

/-- EXECUTED counts every entry of a list that is executed (R239). -/
theorem executed_foldl (l : List (Nat × SchedEntry)) (h : (s.sch c).executed ≤ 0xFFFF) :
    ((l.foldl (fun u p => u.executeEntry c p.2 p.1 p.1 false) s).sch c).executed =
      min ((s.sch c).executed + l.length) 0xFFFF := by
  induction l generalizing s with
  | nil => exact (Nat.min_eq_left h).symm
  | cons p l ih =>
    have hp : ((s.executeEntry c p.2 p.1 p.1 false).sch c).executed = min ((s.sch c).executed + 1) 0xFFFF :=
      congrArg Sched.executed (executeEntry_sch ..)
    rw [List.foldl_cons, ih (hp ▸ Nat.min_le_right ..), hp, List.length_cons]
    omega

theorem runEntries_executed (h : (s.sch c).executed ≤ 0xFFFF) :
    ((s.runEntries c n).sch c).executed = min ((s.sch c).executed + ((s.sch c).dueBy n).length) 0xFFFF :=
  executed_foldl _ h

end

theorem exec_entryDue (c : Fin 4) (s : State) : exec (.entryDue c) s = run s (fun s =>
    match (s.sl c).lockReady s.tb with
    | some t => if t = 0 then s else s.runEntries c (t - 1)
    | none => s.runEntries c s.tb) := rfl

/-- Before a lock-up that waits at `n + 1`, or without one at TB value `n`, the entries due by `n` are executed. -/
theorem exec_entryDue_by {c : Fin 4} {s : State} {n : Nat}
    (h : (s.sl c).lockReady s.tb = some (n + 1) ∨ (s.sl c).lockReady s.tb = none ∧ n = s.tb) :
    exec (.entryDue c) s = run s (fun s => s.runEntries c n) := by
  refine (exec_entryDue c s).trans (run_congr ?_)
  rintro u o rfl
  have h' : (u.sl c).lockReady u.tb = some (n + 1) ∨ (u.sl c).lockReady u.tb = none ∧ n = u.tb := h
  rcases h' with h' | ⟨h', rfl⟩
  · rw [h']
    exact if_neg (Nat.succ_ne_zero n)
  · rw [h']

theorem exec_pulseEnd (pin : Fin 8) (s : State) : exec (.pulseEnd pin) s = run s (fun s =>
    match (s.evt.get pin).pulse with
    | some (u, _, _) => if s.pinEntryBefore pin (min u s.tb) then s else s.endPulse pin s.tb
    | none => s) := rfl

end Sys2Proof.Machine
end

section
/-! SUPPORT. The access port (R426, R427): the EVT pins when EXTEST ends. -/

namespace Sys2Proof.Machine

open Sys2Proof

/-- A pin that is set to the level that it has: its output follows, unless EXTEST holds it. -/
theorem setPin_own (s : State) (pin : Fin 8) : ∃ o, s.setPin pin (s.evt.get pin).level = { s with
    evtPins := if s.tap.extest then s.evtPins else drivePin s.evtPins pin (s.evt.get pin).level, out := o } := by
  obtain ⟨o, h⟩ := setPin_shape s pin (s.evt.get pin).level
  have hevt : s.evt.set pin.val { s.evt.get pin with level := (s.evt.get pin).level } pin.isLt = s.evt :=
    set_get_self s.evt pin
  exact ⟨o, by rw [h, hevt]⟩

/-- The outputs of the pins of a list driven one by one. -/
def drivePins (l : List (Fin 8)) (evt : Vector EvtPin 8) (pins : Byte) : Byte :=
  l.foldl (fun w pin => drivePin w pin (evt.get pin).level) pins

theorem testBit_drivePins (l : List (Fin 8)) (evt : Vector EvtPin 8) (pins : Byte) (q : Fin 8) :
    (drivePins l evt pins).toNat.testBit q.val = if q ∈ l then (evt.get q).level else pins.toNat.testBit q.val := by
  induction l generalizing pins with
  | nil => rfl
  | cons pin l ih =>
    refine (ih _).trans ?_
    rw [testBit_drivePin]
    by_cases hl : q ∈ l
    · rw [if_pos hl, if_pos (List.mem_cons_of_mem _ hl)]
    · by_cases hq : q = pin
      · subst hq
        rw [if_neg hl, if_pos rfl, if_pos List.mem_cons_self]
      · rw [if_neg hl, if_neg hq, if_neg (by simp [hq, hl])]

/-- Pins that are set to the levels that they have, with EXTEST not in force: their outputs follow. -/
theorem foldl_setPin_own (l : List (Fin 8)) (s : State) (hx : s.tap.extest = false) :
    ∃ o, l.foldl (fun t pin => t.setPin pin (t.evt.get pin).level) s =
      { s with evtPins := drivePins l s.evt s.evtPins, out := o } := by
  induction l generalizing s with
  | nil => exact ⟨s.out, rfl⟩
  | cons pin l ih =>
    obtain ⟨o, h⟩ := setPin_own s pin
    rw [hx] at h
    obtain ⟨o', h'⟩ := ih { s with evtPins := drivePin s.evtPins pin (s.evt.get pin).level, out := o } hx
    exact ⟨o', (congrArg (l.foldl _) h).trans h'⟩

/-- The EVT pins in order. -/
def evtPinList : List (Fin 8) := [0, 1, 2, 3, 4, 5, 6, 7]

theorem mem_evtPinList (pin : Fin 8) : pin ∈ evtPinList := by
  revert pin
  decide

/-- An instruction of the access port other than EXTEST: its data register is captured, and EXTEST gives the EVT pins
back to the scheduler. -/
theorem tapInstr_shape (s : State) (ir : Byte) : ∃ o, s.tapInstr ir = { s with
    tap := { s.tap with ir := ir, extest := false, dr := { s.tap with ir := ir, extest := false }.captured s.bsr },
    evtPins := if s.tap.extest then drivePins evtPinList s.evt s.evtPins else s.evtPins, out := o } := by
  unfold State.tapInstr State.captureDr
  dsimp only
  generalize Tap.captured _ _ = dr
  cases hx : s.tap.extest with
  | false => exact ⟨s.out, rfl⟩
  | true => exact foldl_setPin_own evtPinList { s with tap := { s.tap with ir := ir, extest := false, dr := dr } } rfl

/-- What the EVT pins and the access port are once an instruction other than EXTEST is in force. -/
theorem tapInstr_frees (s : State) {ir : Byte} {dr : Nat}
    (hdr : ({ s.tap with ir := ir, extest := false } : Tap).captured s.bsr = dr) :
    (s.tapInstr ir).tap = { s.tap with ir := ir, extest := false, dr := dr } ∧ (s.tapInstr ir).evt = s.evt
      ∧ (s.tapInstr ir).bsr = s.bsr ∧ (s.tapInstr ir).slices = s.slices
      ∧ (s.tap.extest = true → ∀ pin : Fin 8, (s.tapInstr ir).evtPins.toNat.testBit pin.val = (s.evt.get pin).level)
      ∧ (s.tap.extest = false → (s.tapInstr ir).evtPins = s.evtPins) := by
  obtain ⟨o, h⟩ := tapInstr_shape s ir
  rw [h, hdr]
  refine ⟨rfl, rfl, rfl, rfl, fun hx pin => ?_, fun hx => ?_⟩
  · rw [hx]
    exact (testBit_drivePins ..).trans (if_pos (mem_evtPinList pin))
  · rw [hx]
    rfl

theorem exec_extest (on : Bool) (cells : BitVec 114) (s : State) : exec (.extest on cells) s = run s (fun s =>
    if on then ({ s with tap := { s.tap with ir := 0x00, extest := true }, bsr := cells }).captureDr
    else s.tapInstr 0xFF) := rfl

theorem exec_tapReset (s : State) : exec .tapReset s = run s (fun s => s.tapInstr 0x02) := rfl

end Sys2Proof.Machine
end

section
/-! SUPPORT. Alerts (R230, R231): what the end of an alert and ALERT_INHIBIT do to the contexts and to the audio
port. -/

namespace Sys2Proof.Machine

open Sys2Proof

/-! ### The contexts and the instances -/

/-- The contexts and the instances of slice `c`. -/
def State.heard (c : Fin 4) (s : State) : Vector Ctx 256 × Vector Inst 48 := ((s.sl c).ctx, (s.sl c).inst)

theorem heard_of_offRecord {s t : State} (c : Fin 4) (h : t.offRecord = s.offRecord) : t.heard c = s.heard c := by
  rw [State.heard, sl_of_offRecord h]
  rfl

section
variable (s : State) (c : Fin 4)

theorem heard_modSl {f : Slice → Slice} (h : ∀ x, ((f x).ctx, (f x).inst) = (x.ctx, x.inst)) :
    (s.modSl c f).heard c = s.heard c := by
  rw [State.heard, State.sl_modSl]
  exact h _

@[simp] theorem modAf_heard (n : Nat) (f : Af → Af) : (s.modSl c (fun x => x.modAf n f)).heard c = s.heard c :=
  heard_modSl s c fun _ => rfl

@[simp] theorem modSai_heard (f : Sai → Sai) : (s.modSai c f).heard c = s.heard c := heard_modSl s c fun _ => rfl

@[simp] theorem stageSeq_heard (q : Fin 256) (r : Record) : (s.stageSeq q r).1.heard c = s.heard c := by
  unfold State.stageSeq
  split <;> exact heard_of_offRecord c (stage_offRecord ..)

@[simp] theorem ctxStage_heard (k : Fin 256) (r : Record) : (s.ctxStage c k r).1.heard c = s.heard c := by
  unfold State.ctxStage State.stageSpec
  dsimp only
  split
  · split <;> simp
  · simp

@[simp] theorem alertRecord_heard (k : Fin 256) (m : Message) (kind state level route ident group : Nat) :
    (s.alertRecord c k m kind state level route ident group).heard c = s.heard c := ctxStage_heard ..

@[simp] theorem defer_heard (k : Fin 256) (d : Deferred) : (s.defer c k d).heard c = s.heard c :=
  heard_modSl s c fun _ => rfl

@[simp] theorem reroute_heard : (s.reroute c).heard c = s.heard c := by
  unfold State.reroute
  dsimp only
  split
  · rfl
  · rw [modSai_heard]
    split <;> rfl

/-! ### Rules that match -/

@[simp] theorem addEntry_offRecord (f : Option Forme) (e : SchedEntry) :
    (s.addEntry c f e).offRecord = s.offRecord := by
  unfold State.addEntry
  dsimp only
  split
  · rfl
  · split
    · simp [State.rejectEntry]
    · split <;> simp [State.rejectEntry]

@[simp] theorem applyRules_offRecord (k : Fin 256) (auth : Bool) (cls code group at_ : Nat) (msgId : Word)
    (msgTs : Nat) : (s.applyRules c k auth cls code group at_ msgId msgTs).offRecord = s.offRecord := by
  unfold State.applyRules
  dsimp only
  split
  · rfl
  · exact offRecord_foldl (fun t r => by simp) _ s

@[simp] theorem nativeRules_heard (k : Fin 256) (m : Message) (code : Nat) :
    (s.nativeRules c k m code).heard c = s.heard c := heard_of_offRecord c (applyRules_offRecord ..)

/-! ### The end of an alert -/

/-- A context whose alert has ended (R230). -/
def Ctx.alertEnded (y : Ctx) : Ctx :=
  { y with
    alert := { y.alert with active := false, routed := false, pty31 := 0, ptyOther := 0 }, events := raise y.events 2 }

theorem alertEnd_heard (k : Fin 256) (m : Message) (kind level ident group : Nat) :
    (s.alertEnd c k m kind level ident group).heard c =
      (s.modSl c (fun x => x.modCtx k.val Ctx.alertEnded)).heard c := by
  unfold State.alertEnd State.modAlert
  simp only [alertRecord_heard, reroute_heard, State.modSl_modSl, Slice.modCtx, vmod_vmod]
  rfl

/-- The end of a native alert, with the rules that it matches or, in a speculation, with what waits for its
confirmation (R227). -/
theorem nativeAlert_ends (k : Fin 256) (m : Message) (kind ident cluster : Nat) :
    ((s.nativeAlert c k m kind 0 ident cluster).sl c).ctxAt k.val = ((s.sl c).ctxAt k.val).alertEnded
      ∧ ((s.nativeAlert c k m kind 0 ident cluster).sl c).inst = (s.sl c).inst := by
  have hheard : (s.nativeAlert c k m kind 0 ident cluster).heard c =
      (s.modSl c (fun x => x.modCtx k.val Ctx.alertEnded)).heard c := by
    unfold State.nativeAlert
    dsimp only
    rw [if_neg Nat.zero_ne_one]
    split
    · rw [defer_heard, alertEnd_heard]
    · rw [nativeRules_heard, alertEnd_heard]
  simp only [State.heard, State.sl_modSl, Prod.mk.injEq] at hheard
  obtain ⟨hctx, hinst⟩ := hheard
  refine ⟨?_, hinst⟩
  rw [Slice.ctxAt, hctx]
  exact vget_vmod_same (s.sl c).ctx _ _ k.isLt

end

/-- The message that stands for the timeout of context `k`'s alert: that of the tuning whose units the context reads. -/
def State.timeoutMessage (s : State) (c : Fin 4) (k : Fin 256) : Message :=
  let p := ((s.sl c).find 5 k.val).getD []
  let t := dmTuning (((s.sl c).find 4 (cxDemod p)).getD [])
  { id := 0, ts := s.tb, tuning := Fin.ofNat 32 t, freq := (s.sl c).tuningHz t, sub := 0,
    ident := ((s.sl c).instAt (cxDemod p)).ident, corrected := false, data := [], ctl := [], auth := false }

/-- ALERT_TIMEOUT of an active DAB alert, 2 s after its last FIG 0/19 (R230). -/
theorem exec_alertTimeout_due {s : State} {c : Fin 4} {k : Fin 256} (hlive : (s.sl c).live = true)
    (hactive : ((s.sl c).ctxAt k.val).alert.active = true) (hkind : ((s.sl c).ctxAt k.val).alert.kind = 2)
    (hlast : ((s.sl c).ctxAt k.val).alert.lastFig + 2048000000 ≤ s.real) :
    exec (.alertTimeout c k) s = run s (fun s =>
      s.nativeAlert c k (s.timeoutMessage c k) 2 0 (s.timeoutMessage c k).ident 0) := by
  refine Eq.trans (show exec (.alertTimeout c k) s = execAlertTimeout c k s from rfl) (run_congr ?_)
  rintro u o rfl
  exact if_pos ⟨hlive, hactive, hkind, hlast⟩

/-! ### ALERT_INHIBIT (R231, R239) -/

theorem firstIdx_none {α : Type} {p : α → Bool} {l : List α} (h : ∀ a ∈ l, p a = false) (i : Nat) :
    firstIdx p l i = none := by
  induction l generalizing i with
  | nil => rfl
  | cons a l ih =>
    rw [firstIdx, h a List.mem_cons_self]
    exact ih (fun b hb => h b (List.mem_cons_of_mem _ hb)) _

/-- A context whose alert is no longer routed. -/
def Ctx.unrouted (y : Ctx) : Ctx := { y with alert := { y.alert with routed := false } }

/-- A slice none of whose alerts is routed. -/
def Slice.unrouted (x : Slice) : Slice := { x with ctx := vmap Ctx.unrouted x.ctx }

theorem ctxAt_unrouted (x : Slice) {k : Nat} (hk : k < 256) : x.unrouted.ctxAt k = (x.ctxAt k).unrouted := by
  simp [Slice.unrouted, Slice.ctxAt, vget, vmap, hk]

/-- Without a routed alert no context holds the audio port. -/
theorem alertHolder_unrouted (x : Slice) : x.unrouted.alertHolder = none := by
  unfold Slice.alertHolder
  rw [firstIdx_none, Option.map_none]
  intro y hy
  simp only [Slice.unrouted, vmap, Vector.toList_mk, List.mem_map] at hy
  obtain ⟨z, -, rfl⟩ := hy
  simp [Ctx.unrouted]

@[simp] theorem route_alertCtx (a : Sai) (n : Nat) (src : Option (Fin 48)) (now : Nat) :
    (a.route n src now).alertCtx = a.alertCtx := by
  unfold Sai.route
  split
  · rfl
  · split <;> rfl

section
variable (s : State) (c : Fin 4)

/-- The audio port names the context that holds it. -/
theorem reroute_alertCtx (h : (s.sl c).inForce.isSome = true) :
    ((s.reroute c).sl c).sai.alertCtx = (s.sl c).alertHolder := by
  obtain ⟨f, hf⟩ := Option.isSome_iff_exists.mp h
  unfold State.reroute
  dsimp only
  rw [hf]
  dsimp only
  rw [State.modSai, State.sl_modSl, route_alertCtx]

@[simp] theorem reroute_cfg : ((s.reroute c).sch c).cfg = (s.sch c).cfg := by
  unfold State.reroute
  dsimp only
  split
  · rfl
  · change ((ite _ _ _ : State).sch c).cfg = _
    split
    · rfl
    · rw [State.sch_modSch]

/-- ALERT_INHIBIT in `cfg`: no alert is routed, and no context holds the audio port. -/
theorem inhibit_unroutes (cfg : Word) :
    let t := ((s.modSch c (fun d => { d with cfg := cfg })).modSl c Slice.unrouted).reroute c
    (t.sch c).cfg = cfg ∧ (∀ k, k < 256 → ((t.sl c).ctxAt k).alert.routed = false)
      ∧ ((s.sl c).inForce.isSome = true → (t.sl c).sai.alertCtx = none) := by
  intro t
  let u := (s.modSch c (fun d => { d with cfg := cfg })).modSl c Slice.unrouted
  have hsl : u.sl c = (s.sl c).unrouted := State.sl_modSl ..
  have hctx : (t.sl c).ctx = (s.sl c).unrouted.ctx :=
    (congrArg Prod.fst (reroute_heard u c)).trans (congrArg Slice.ctx hsl)
  refine ⟨?_, fun k hk => ?_, fun hforme => ?_⟩
  · exact (reroute_cfg u c).trans (congrArg Sched.cfg (State.sch_modSch s c fun d => { d with cfg := cfg }))
  · rw [show (t.sl c).ctxAt k = (s.sl c).unrouted.ctxAt k from congrArg (vget · k Ctx.reset) hctx,
      ctxAt_unrouted (s.sl c) hk]
    rfl
  · rw [reroute_alertCtx u c (by rw [hsl]; exact hforme), hsl]
    exact alertHolder_unrouted _

variable {v : Word}

theorem writeSvcCfg_late (h : 3600 < bf v 0 16) :
    s.writeSvcCfg c v = s.modSch c (fun d => { d with events := d.events ||| 0x20 }) := if_pos h

theorem writeSvcCfg_free (h : bf v 0 16 ≤ 3600) (hinhibit : bit v 31 = false) :
    s.writeSvcCfg c v = s.modSch c (fun d => { d with cfg := v &&& 0x8000FFFF }) := by
  rw [State.writeSvcCfg, if_neg (not_lt.mpr h), hinhibit]
  rfl

theorem writeSvcCfg_inhibits (h : bf v 0 16 ≤ 3600) (hinhibit : bit v 31 = true) :
    s.writeSvcCfg c v =
      ((s.modSch c (fun d => { d with cfg := v &&& 0x8000FFFF })).modSl c Slice.unrouted).reroute c := by
  rw [State.writeSvcCfg, if_neg (not_lt.mpr h), hinhibit]
  rfl

end

/-- SVC_CFG_WRITE on a slice that serves its registers (R35). -/
theorem exec_svcCfgWrite_served {s : State} {c : Fin 4} (v : Word) (hs : (s.sl c).ctl.state.served = true) :
    exec (.svcCfgWrite c v) s = run s (fun s => s.writeSvcCfg c v) := by
  refine Eq.trans (show exec (.svcCfgWrite c v) s = execSvcCfgWrite c v s from rfl) (run_congr ?_)
  rintro u o rfl
  exact sliceWrite_served (s := u) hs ..

end Sys2Proof.Machine
end

section
/-! SUPPORT. What the scheduler, the access port and the alerts of a slice answer (R230 to R239, R426, R427). -/

namespace Sys2Proof.Machine

open Sys2Proof

/-! ### Entries and pulse ends -/

section
variable {c : Fin 4} {s : State}

/-- An entry waits for a lock-up that is due at TB value 0. -/
theorem entryDue_waits (h : (s.sl c).lockReady s.tb = some 0) : Does (.entryDue c) s id := by
  refine run_does_from (exec_entryDue c s) ?_
  rintro u o rfl
  rw [show (u.sl c).lockReady u.tb = some 0 from h]
  rfl

/-- One entry that is due is executed (R236). -/
theorem entryDue_executes {n u : Nat} {e : SchedEntry}
    (h : (s.sl c).lockReady s.tb = some (n + 1) ∨ (s.sl c).lockReady s.tb = none ∧ n = s.tb)
    (hdue : (s.sch c).dueBy n = [(u, e)]) : Gives (.entryDue c) s (fun t =>
      (t.evt.get e.pin).level = decide (e.action ≠ 2)
      ∧ (t.evt.get e.pin).pulse =
        (if e.action = 1 ∨ e.action = 2 then none else some (u + 1024 * e.pulseUs, c, e.rule))
      ∧ t.sch c = (s.sch c).executing e u ∧ t.slices = s.slices) := by
  refine run_gives_from (exec_entryDue_by h) (fun _ _ _ _ h => h) ?_
  rintro v o rfl
  rw [runEntries_one (s := v) hdue, executeEntry_evt]
  exact ⟨rfl, rfl, executeEntry_sch .., slices_of_offRecord (executeEntry_offRecord ..)⟩

end

section
variable {pin : Fin 8} {s : State}

theorem pulseEnd_idle (h : (s.evt.get pin).pulse = none) : Does (.pulseEnd pin) s id := by
  refine run_does_from (exec_pulseEnd pin s) ?_
  rintro u o rfl
  rw [show (u.evt.get pin).pulse = none from h]
  rfl

variable {u : Nat} {k : Fin 4 × Fin 64} (hp : (s.evt.get pin).pulse = some (u, k))
include hp

/-- PULSE_END of a pin with a pulse that ends at `u` (R236). -/
theorem exec_pulseEnd_planned : exec (.pulseEnd pin) s = run s (fun s =>
    if s.pinEntryBefore pin (min u s.tb) then s else s.endPulse pin s.tb) := by
  refine (exec_pulseEnd pin s).trans (run_congr ?_)
  rintro v o rfl
  rw [show (v.evt.get pin).pulse = some (u, k) from hp]

theorem pulseEnd_waits (h : s.pinEntryBefore pin (min u s.tb) = true) : Does (.pulseEnd pin) s id := by
  refine run_does_from (exec_pulseEnd_planned hp) ?_
  rintro v o rfl
  exact if_pos h

theorem pulseEnd_early (h : s.tb < u) : Does (.pulseEnd pin) s id := by
  refine run_does_from (exec_pulseEnd_planned hp) ?_
  rintro v o rfl
  exact (congrArg (ite _ v) (endPulse_later (s := v) hp h)).trans (ite_self _)

/-- A pulse ends at its value (R236, R426). -/
theorem pulseEnd_ends (hu : u ≤ s.tb) (h : s.pinEntryBefore pin u = false) : Gives (.pulseEnd pin) s (fun t =>
    (t.evt.get pin).level = false ∧ (t.evt.get pin).pulse = none
    ∧ (s.tap.extest = false → t.evtPins.toNat.testBit pin.val = false)
    ∧ (∀ q, q ≠ pin → t.evt.get q = s.evt.get q) ∧ t.slices = s.slices ∧ t.sched = s.sched) := by
  refine run_gives_from (exec_pulseEnd_planned hp) (fun _ _ _ _ h => h) ?_
  rintro v o rfl
  rw [← Nat.min_eq_left hu] at h
  have hend : (if v.pinEntryBefore pin (min u v.tb) then v else v.endPulse pin v.tb)
      = (v.setPulse pin none).setPin pin false :=
    (if_neg (Bool.eq_false_iff.mp h)).trans (endPulse_due (s := v) hp hu)
  have hoff : ((v.setPulse pin none).setPin pin false).offRecord = v.offRecord := by simp
  rw [hend, setPin_evt_same, setPulse_evt_same, setPin_sched]
  exact ⟨rfl, rfl, fun hx => testBit_evtPins_setPin _ pin false hx,
    fun q hq => (setPin_evt_ne _ pin false hq).trans (setPulse_evt_ne v pin none hq), slices_of_offRecord hoff, rfl⟩

end

/-- A done entry expires LATE_MAX_S after its time (R235). -/
theorem expires_lateMax (e : SchedEntry) (d : Sched) :
    e.expires d.lateMax = e.done.map (fun v => max e.at_ v + 1024000000 * bf d.cfg 0 16) := by
  rw [SchedEntry.expires, Sched.lateMax, secTicks, Nat.mul_comm]

/-! ### The access port -/

/-- Under EXTEST the data register captures the boundary-scan cells. -/
theorem captureDr_boundary (s : State) (h : s.tap.ir = 0x00) :
    s.captureDr = { s with tap := { s.tap with dr := s.bsr.toNat } } := by
  rw [State.captureDr, Tap.captured, if_pos (Or.inl h)]

theorem extest_takes (cells : BitVec 114) (s : State) : Does (.extest true cells) s (fun s =>
    { s with tap := { s.tap with ir := 0x00, extest := true, dr := cells.toNat }, bsr := cells }) := by
  refine run_does_from (exec_extest true cells s) ?_
  rintro u o rfl
  exact captureDr_boundary { u with tap := { u.tap with ir := 0x00, extest := true }, bsr := cells } rfl

/-- Under BYPASS the data register captures 0. -/
theorem captured_bypass (t : Tap) (bsr : BitVec 114) (h : t.ir = 0xFF) : t.captured bsr = 0 := by simp [Tap.captured, h]

theorem captured_idcode (t : Tap) (bsr : BitVec 114) (h : t.ir = 0x02) : t.captured bsr = idcode.toNat := by
  simp [Tap.captured, h]

end Sys2Proof.Machine
end

section
/-! SUPPORT. Scheduled entries, the access port, the end of an alert, and SVC.CFG (R230, R231, R235, R236, R239, R426,
R427): the statement. -/

namespace Sys2Proof.Machine

open Sys2Proof

/-- Settles O39, command by command. The order of entries, lock-ups and pulses is log entry 77, BYPASS at the end of
EXTEST log entry 63. -/
theorem eventsAndAlerts : Obligations.EventsAndAlerts := by
  intro c s
  refine ⟨entryDue_waits, fun n hn => ⟨fun hnone => ?noEntry, fun hle => ?executed, fun u e hdue => ?entry⟩,
    fun pin u k r hp => ⟨pulseEnd_waits hp, pulseEnd_early hp, pulseEnd_ends hp⟩, fun pin => pulseEnd_idle, ?expiry,
    fun cells => ⟨extest_takes cells s, ?extestEnd, ?tapReset⟩, fun k hlive hactive hkind hlast => ?timeout,
    fun hserved v => ⟨fun hlate => ?late, fun hle hfree => ?free, fun hle hinhibit => ?inhibit⟩⟩
  case noEntry =>
    refine run_does_from (exec_entryDue_by hn) ?_
    rintro u o rfl
    exact runEntries_none (s := u) hnone
  case executed =>
    refine run_gives_from (exec_entryDue_by hn) (fun _ _ _ _ h => h) ?_
    rintro u o rfl
    exact runEntries_executed (s := u) hle
  case entry =>
    obtain ⟨t, ht, hlevel, hpulse, hsch, hslices⟩ := entryDue_executes hn hdue
    rw [Sched.executing] at hsch
    exact ⟨t, ht, hlevel, hpulse, congrArg Sched.entries hsch, congrArg Sched.executed hsch, congrArg Sched.late hsch,
      by rw [hslices]⟩
  case expiry =>
    have he : exec (.doneEntryExpiry c) s = execDoneEntryExpiry c s := rfl
    refine run_does_from he ?_
    rintro u o rfl
    refine congrArg (u.modSch c) (funext fun d => ?_)
    refine congrArg (fun l => { d with entries := l }) (List.filter_congr fun e _ => ?_)
    rw [expires_lateMax]
    cases e.done <;> rfl
  case extestEnd =>
    refine run_gives_from (exec_extest false cells s) (fun _ _ _ _ h => h) ?_
    rintro u o rfl
    exact tapInstr_frees u (captured_bypass _ _ rfl)
  case tapReset =>
    refine run_gives_from (exec_tapReset s) (fun _ _ _ _ h => h) ?_
    rintro u o rfl
    exact tapInstr_frees u (captured_idcode _ _ rfl)
  case timeout =>
    refine run_gives_from (exec_alertTimeout_due hlive hactive hkind hlast) (fun _ _ _ _ h => h) ?_
    rintro u o rfl
    obtain ⟨hctx, hinst⟩ := nativeAlert_ends u c k (u.timeoutMessage c k) 2 (u.timeoutMessage c k).ident 0
    rw [hctx, hinst]
    exact ⟨rfl, rfl, rfl, rfl⟩
  case late =>
    refine run_does_from (exec_svcCfgWrite_served v hserved) ?_
    rintro u o rfl
    exact writeSvcCfg_late u c hlate
  case free =>
    refine run_does_from (exec_svcCfgWrite_served v hserved) ?_
    rintro u o rfl
    exact writeSvcCfg_free u c hle hfree
  case inhibit =>
    refine run_gives_from (exec_svcCfgWrite_served v hserved) (fun _ _ _ _ h => h) ?_
    rintro u o rfl
    rw [writeSvcCfg_inhibits u c hle hinhibit]
    exact inhibit_unroutes u c _

end Sys2Proof.Machine
end

section
/-! SUPPORT. The end of a message whose verdict is fixed (R246, R260, R265): its record is made and its envelope is done
with. -/

namespace Sys2Proof.Machine

open Sys2Proof

/-! ### The envelopes of a context -/

theorem ctxAt_modCtx_same (x : Slice) (k : Fin 256) (f : Ctx → Ctx) :
    (x.modCtx k.val f).ctxAt k.val = f (x.ctxAt k.val) := vget_vmod_same x.ctx f Ctx.reset k.isLt

/-- The context holds one envelope, of a message that has ended. -/
def Ctx.holdsOnly (y : Ctx) (e : Envelope) : Prop := y.queued = [e] ∧ y.env = none

section
variable {y : Ctx} {e : Envelope} (h : y.holdsOnly e)
include h

theorem front_of_holdsOnly : y.front = some e := by
  obtain ⟨hqueued, -⟩ := h
  rw [Ctx.front, hqueued]

theorem setFront_holdsOnly (d : Envelope) : (y.setFront d).holdsOnly d := by
  obtain ⟨hqueued, henv⟩ := h
  rw [Ctx.setFront, hqueued]
  exact ⟨rfl, henv⟩

theorem front_popFront : y.popFront.front = none := by
  obtain ⟨hqueued, henv⟩ := h
  rw [Ctx.popFront, hqueued]
  exact henv

end

@[simp] theorem setFront_spec (y : Ctx) (e : Envelope) : (y.setFront e).spec = y.spec := by
  unfold Ctx.setFront
  split <;> rfl

/-! ### Moving on -/

section
variable {s : State} {c : Fin 4} {k : Fin 256} {e : Envelope} {code : Nat}

theorem onFront_some (h : ((s.sl c).ctxAt k.val).front = some e) (f : State → Envelope → State) :
    s.onFront c k f = f s e := by
  rw [State.onFront, h]

theorem onFront_none (h : ((s.sl c).ctxAt k.val).front = none) (f : State → Envelope → State) :
    s.onFront c k f = s := by
  rw [State.onFront, h]

/-- A context without an envelope does not move on. -/
theorem advance_empty (h : ((s.sl c).ctxAt k.val).front = none) (n : Nat) : State.advance c k n s = s := by
  cases n with
  | zero => rfl
  | succ n =>
    unfold State.advance
    simp only [onFront_none h, h]

/-- The checks are over for an envelope whose verdict is fixed: the end of its message makes what it makes. -/
theorem advance_ended (hfront : ((s.sl c).ctxAt k.val).front = some e) (hverdict : e.verdict = some code)
    (hended : e.ended = true) (n : Nat) : State.advance c k (n + 1) s =
      State.advance c k n ((s.closeEnvelope c k e code).modSl c (fun x => x.modCtx k.val Ctx.popFront)) := by
  have hheader : s.checkHeader c k e = s := by simp [State.checkHeader, hverdict]
  have hproof : s.proofData c k e = s := by simp [State.proofData, hverdict]
  have hlength : s.checkLength c k e = s := by simp [State.checkLength, hverdict]
  conv_lhs => unfold State.advance
  simp only [onFront_some hfront, hheader, hproof, hlength, hfront, hverdict, hended, if_true]

end

/-! ### What the end of a message makes -/

section
variable (s : State) {c : Fin 4} {k : Fin 256} (hspec : ((s.sl c).ctxAt k.val).spec = false)
include hspec

/-- A record of a context that no speculation feeds only enters its queue. -/
theorem ctxStage_offRecord (r : Record) : (s.ctxStage c k r).1.offRecord = s.offRecord := by
  unfold State.ctxStage State.stageSeq
  simp only [hspec, Bool.false_eq_true, if_false]
  split
  · exact stage_offRecord ..
  · exact stage_offRecord ..

/-- The end of a message makes records alone: one that failed, or one that carries no control message (R233). -/
theorem closeEnvelope_offRecord (e : Envelope) {code : Nat} (hplain : code ≠ Status.ok ∨ ctlOf e.payload = []) :
    (s.closeEnvelope c k e code).offRecord = s.offRecord := by
  have hdata (data : List Byte) : (s.serviceData c k e.message data).offRecord = s.offRecord :=
    ctxStage_offRecord s hspec _
  have hverdict : (s.verdictRecord c k e code).offRecord = s.offRecord := ctxStage_offRecord s hspec _
  unfold State.closeEnvelope
  dsimp only
  split
  · rfl
  · have hrecord (data : List Byte) (p : Bool) :
        (if p then s.serviceData c k e.message data else s.verdictRecord c k e code).offRecord = s.offRecord := by
      cases p
      · exact hverdict
      · exact hdata data
    split
    next hok =>
      have hctl : ctlOf e.payload = [] := hplain.resolve_left fun h => h hok
      rw [State.messageFinal, sl_of_offRecord (hrecord _ _), if_neg (by simp [hspec]), State.finalMessage,
        if_pos (by rw [Envelope.message, hctl]; rfl)]
      exact hrecord _ _
    next => exact hrecord _ _

/-- A verdict counts at once where no speculation feeds the context (R257). -/
theorem countVerdict_plain (code : Nat) : s.countVerdict c k code =
    s.modSl c (fun x => { x with mac := x.mac.countVerdict code }) := by
  rw [State.countVerdict, hspec]
  rfl

/-- The verdict of an ended message that is the only one of its context, and that no speculation feeds: it is counted,
its records are made, and the context holds no envelope any more. -/
theorem verdict_ends {e : Envelope} {code : Nat} (honly : ((s.sl c).ctxAt k.val).holdsOnly e) (hended : e.ended = true)
    (hplain : code ≠ Status.ok ∨ ctlOf e.payload = []) :
    let t := (s.fixVerdict c k e code).settle c k
    (t.sl c).mac = (s.sl c).mac.countVerdict code ∧ (t.sl c).cart = (s.sl c).cart
      ∧ ((t.sl c).ctxAt k.val).front = none ∧ OtherSlices c s t := by
  let d : Envelope := { e with verdict := some code, commit := false }
  let x : Slice := { (s.sl c).modCtx k.val (fun y => y.setFront d) with mac := (s.sl c).mac.countVerdict code }
  let u : State := s.setSl c x
  have hu : s.fixVerdict c k e code = u := by
    have hspec' : (((s.setEnv c k d).sl c).ctxAt k.val).spec = false := by
      rw [State.setEnv, State.sl_modSl, ctxAt_modCtx_same, setFront_spec, hspec]
    rw [State.fixVerdict, countVerdict_plain _ hspec', State.setEnv, State.modSl_modSl]
    rfl
  have hx : u.sl c = x := State.sl_setSl ..
  have hctx : (u.sl c).ctxAt k.val = ((s.sl c).ctxAt k.val).setFront d := by
    rw [hx]
    exact ctxAt_modCtx_same ..
  have honly' : ((u.sl c).ctxAt k.val).holdsOnly d := by
    rw [hctx]
    exact setFront_holdsOnly honly d
  have hclose : (u.closeEnvelope c k d code).offRecord = u.offRecord :=
    closeEnvelope_offRecord u (by rw [hctx, setFront_spec, hspec]) d hplain
  have hsl (i : Fin 4) : (u.closeEnvelope c k d code).sl i = u.sl i := sl_of_offRecord hclose i
  let v : State := (u.closeEnvelope c k d code).modSl c (fun y => y.modCtx k.val Ctx.popFront)
  have hv : v.sl c = x.modCtx k.val Ctx.popFront := by rw [State.sl_modSl, hsl, hx]
  have hgone : ((v.sl c).ctxAt k.val).front = none := by
    rw [hv, ctxAt_modCtx_same, ← hx]
    exact front_popFront honly'
  have hsettle : u.settle c k = v := by
    rw [State.settle, advance_ended (front_of_holdsOnly honly') rfl hended]
    exact advance_empty hgone _
  intro t
  have ht : t = v := (congrArg (·.settle c k) hu).trans hsettle
  rw [ht]
  refine ⟨by rw [hv]; rfl, by rw [hv]; rfl, hgone, fun i hi => ?_⟩
  rw [State.sl_modSl_ne _ _ hi, hsl, State.sl_setSl_ne _ _ hi]

end

end Sys2Proof.Machine
end

section
/-! SUPPORT. The blocks of a verification (R240, R241, R408), and the commit of a PASS to the mirror (R256). -/

namespace Sys2Proof.Machine

open Sys2Proof

/-! ### Who asks the engine (R241) -/

/-- A context that asks the engine does so with an envelope that wants a block. -/
theorem wantsBlock_of_macReqs {x : Slice} {k : Fin 256} {e : Envelope} (hreqs : x.macReqs = [k.val])
    (hfront : (x.ctxAt k.val).front = some e) : e.wantsBlock = true := by
  have hmem : k.val ∈ x.macReqs := by rw [hreqs]; exact List.mem_singleton_self _
  rw [Slice.macReqs, List.mem_append] at hmem
  obtain hctx | hops := hmem
  · obtain ⟨-, hwants⟩ := List.mem_filter.mp hctx
    rwa [hfront] at hwants
  · have hk : k.val ≠ 256 := Nat.ne_of_lt k.isLt
    split at hops <;> simp_all

/-- The last block of an envelope is asked for once its message has ended. -/
theorem ended_of_wantsBlock {e : Envelope} (hwants : e.wantsBlock = true) (hlast : 10 + e.length ≤ e.done + 16) :
    e.ended = true := by
  rw [Envelope.wantsBlock, Envelope.covered, Bool.and_eq_true, if_neg (Nat.not_lt.mpr hlast)] at hwants
  exact hwants.2

/-! ### MAC_BLOCK_GRANT -/

/-- The engine's turn as the registers show it: the pointer and the cycles of one block (R27, R241, R269). -/
def Mac.turned (m : Mac) (i cycles : Nat) : Mac := { m with ptr := (i + 1) % 257, busy := m.busy + cycles }

theorem macTurn_eq (s : State) (c : Fin 4) (i : Nat) (slot : Fin 64) : s.macTurn c i slot =
    s.modSl c (fun x => { x with mac := x.mac.turned i (blockCycles ((s.sl c).slotAt slot.val)) }) := rfl

section
variable {s : State} {c : Fin 4}

theorem macBlockGrant_idle (hreqs : (s.sl c).macReqs = []) (parity split : Bool) :
    Does (.macBlockGrant c parity split) s id := by
  have he : exec (.macBlockGrant c parity split) s = execMacBlockGrant c parity s split := rfl
  refine run_does_from he ?_
  rintro u o rfl
  have hpick : arbPick (u.sl c).mac.ptr (u.sl c).macReqs = none := by
    rw [show (u.sl c).macReqs = [] from hreqs]
    rfl
  simp only [hpick, id]

/-- The only context that asks gets its block. -/
theorem exec_macBlockGrant_context {k : Fin 256} {e : Envelope} {b : Fin 64 × BitVec 16}
    (hreqs : (s.sl c).macReqs = [k.val]) (hfront : ((s.sl c).ctxAt k.val).front = some e) (hbound : e.bound = some b)
    (hgood : slotGood ((s.sl c).slotAt b.1.val) = true) (split : Bool) :
    exec (.macBlockGrant c false split) s = run s (fun s => (s.macTurn c k.val b.1).macBlock c k e b.1 split) := by
  refine Eq.trans (show _ = execMacBlockGrant c false s split from rfl) (run_congr ?_)
  rintro u o rfl
  have hpick : arbPick (u.sl c).mac.ptr (u.sl c).macReqs = some k.val := by
    rw [show (u.sl c).macReqs = [k.val] from hreqs, arbPick_lone]
  have hk : k.val ≠ 256 := Nat.ne_of_lt k.isLt
  have hfront : ((u.sl c).ctxAt k.val).front = some e := hfront
  have hgood : slotGood ((u.sl c).slotAt b.1.val) = true := hgood
  simp [hpick, hk, hfront, hbound, hgood]

end

/-! ### One block (R240) -/

section
variable (s : State) (c : Fin 4) (k : Fin 256) {e : Envelope} (slot : Fin 64)

/-- A block that is not the last is a step of the chain. -/
theorem macBlock_step (hmore : e.done + 16 < 10 + e.length) (split : Bool) : s.macBlock c k e slot split =
    s.setEnv c k { e with
      chain := cmacStep ((s.sl c).slotAt slot.val).key e.chain ((e.bytes.drop e.done).take 16),
      done := e.done + 16 } := by
  have hfull : min 16 (e.covered - e.done) = 16 := by
    rw [Envelope.covered]
    omega
  rw [State.macBlock, hfull]
  exact if_pos hmore

/-- The tag that the engine makes of the last block (R240). -/
def Envelope.tag (e : Envelope) (key : List Byte) : List Byte :=
  (cmacLast key e.chain ((e.bytes.drop e.done).take (10 + e.length - e.done))).take (e.tagBits / 8)

/-- The last block compares the tag. -/
theorem macBlock_last (hlast : 10 + e.length ≤ e.done + 16) : s.macBlock c k e slot false =
    if e.tag ((s.sl c).slotAt slot.val).key = e.bytes.drop (10 + e.length) then
      s.envPass c k { e with done := 10 + e.length } slot
    else (s.fixVerdict c k e Status.tagFail).settle c k := by
  have hrest : min 16 (e.covered - e.done) = 10 + e.length - e.done := by
    rw [Envelope.covered]
    omega
  rw [State.macBlock, hrest]
  exact if_neg (Nat.not_lt.mpr hlast)

/-- Without a speculation a PASS waits for the mirror (R256). -/
theorem envPass_waits (hspec : ((s.sl c).ctxAt k.val).spec = false) :
    s.envPass c k e slot = s.setEnv c k { e with commit := true } := by
  rw [State.envPass, hspec]
  rfl

end

/-! ### MIRROR_COMMIT -/

/-- Whether the PASS of context `k` waits for the mirror. -/
def Slice.passWaits (x : Slice) (k : Nat) : Bool :=
  match (x.ctxAt k).front with
  | some e => e.commit
  | none => false

theorem passWaits_some {x : Slice} {k : Nat} {e : Envelope} (h : (x.ctxAt k).front = some e) :
    x.passWaits k = e.commit := by
  rw [Slice.passWaits, h]

theorem passWaits_false {x : Slice} {k : Nat} (h : ∀ e, (x.ctxAt k).front = some e → e.commit = false) :
    x.passWaits k = false := by
  unfold Slice.passWaits
  split
  next e hfront => exact h e hfront
  next => rfl

/-- The PASS of an envelope that is bound to a slot is released: its counter is accepted (R255, R256). -/
def State.commitPass (s : State) (c : Fin 4) (k : Fin 256) (e : Envelope) (slot : Fin 64) : State :=
  ((s.modSl c (fun x => x.acceptReplay k e slot)).fixVerdict c k e Status.ok).settle c k

/-- The effect of MIRROR_COMMIT. -/
def State.mirrorCommit (s : State) (c : Fin 4) : State :=
  match (List.range 256).find? (s.sl c).passWaits with
  | none => s
  | some i => s.onFront c (Fin.ofNat 256 i) (fun s e =>
    match e.bound with
    | some b => s.commitPass c (Fin.ofNat 256 i) e b.1
    | none => s)

theorem exec_mirrorCommit (c : Fin 4) (s : State) : exec (.mirrorCommit c) s = run s (fun s => s.mirrorCommit c) := rfl

section
variable (s : State) {c : Fin 4}

theorem mirrorCommit_idle (h : ∀ k, k < 256 → ∀ e, ((s.sl c).ctxAt k).front = some e → e.commit = false) :
    s.mirrorCommit c = s := by
  have hnone : (List.range 256).find? (s.sl c).passWaits = none :=
    List.find?_eq_none.mpr fun k hk => by simp [passWaits_false (h k (List.mem_range.mp hk))]
  rw [State.mirrorCommit, hnone]

/-- The first context whose PASS waits is the one that commits. -/
theorem mirrorCommit_first {k : Fin 256} {e : Envelope} {b : Fin 64 × BitVec 16}
    (hfront : ((s.sl c).ctxAt k.val).front = some e) (hcommit : e.commit = true) (hbound : e.bound = some b)
    (hfirst : ∀ j, j < k.val → ∀ d, ((s.sl c).ctxAt j).front = some d → d.commit = false) :
    s.mirrorCommit c = s.commitPass c k e b.1 := by
  have hfind : (List.range 256).find? (s.sl c).passWaits = some k.val :=
    List.find?_range_eq_some.mpr ⟨(passWaits_some hfront).trans hcommit, List.mem_range.mpr k.isLt,
      fun j hj => by simp [passWaits_false (hfirst j hj)]⟩
  have hk : Fin.ofNat 256 k.val = k := Fin.ext (Nat.mod_eq_of_lt k.isLt)
  rw [State.mirrorCommit, hfind]
  dsimp only
  rw [hk, onFront_some hfront, hbound]

end

/-- Without a speculation a PASS goes to its record and to the mirror (R255, R256). -/
theorem acceptReplay_plain {x : Slice} {k : Fin 256} (hspec : (x.ctxAt k.val).spec = false) (e : Envelope)
    (slot : Fin 64) : x.acceptReplay k e slot = Slice.syncMirror { x with mac := { x.mac with
      replay := putReplay (replayAccept (x.replayOf k (BitVec.ofNat 8 (u8 e.bytes 1)) slot) e.counter)
        x.mac.replay } } := by
  rw [Slice.acceptReplay, hspec]
  rfl

end Sys2Proof.Machine
end

section
/-! SUPPORT. MAC_BLOCK_GRANT and MIRROR_COMMIT put together (R240, R241, R254 to R256, R265, R269). -/

namespace Sys2Proof.Machine

open Sys2Proof

section
variable {s : State} {c : Fin 4}

theorem mirrorCommit_nothing (h : ∀ k, k < 256 → ∀ e, ((s.sl c).ctxAt k).front = some e → e.commit = false) :
    Does (.mirrorCommit c) s id := by
  refine run_does_from (exec_mirrorCommit c s) ?_
  rintro u o rfl
  exact mirrorCommit_idle u h

variable {k : Fin 256} {e : Envelope} {b : Fin 64 × BitVec 16}

/-- A PASS that its record and the mirror have taken is counted, and its message is done with. -/
theorem commitPass_leaves (honly : ((s.sl c).ctxAt k.val).holdsOnly e) (hended : e.ended = true)
    (hspec : ((s.sl c).ctxAt k.val).spec = false) (hctl : ctlOf e.payload = []) (slot : Fin 64) :
    let t := s.commitPass c k e slot
    let x := s.sl c
    let r := replayAccept (x.replayOf k (BitVec.ofNat 8 (u8 e.bytes 1)) slot) e.counter
    (t.sl c).mac = { x.mac with pass := min (x.mac.pass + 1) 0xFFFFFFFF, replay := putReplay r x.mac.replay }
      ∧ (t.sl c).cart = x.cart.map (fun m => { m with slots := x.mac.slots.toList, replay := putReplay r x.mac.replay })
      ∧ ((t.sl c).ctxAt k.val).front = none := by
  let u : State := s.modSl c (fun x => x.acceptReplay k e slot)
  have hu : u.sl c = _ := (State.sl_modSl ..).trans (acceptReplay_plain hspec e slot)
  have hctx : (u.sl c).ctxAt k.val = (s.sl c).ctxAt k.val := by
    rw [hu]
    rfl
  obtain ⟨hmac, hcart, hfront, -⟩ :=
    verdict_ends u (by rw [hctx, hspec]) (by rw [hctx]; exact honly) hended (Or.inr hctl)
  intro t x r
  refine ⟨hmac.trans ?_, hcart.trans ?_, hfront⟩
  · rw [hu]
    rfl
  · rw [hu]
    rfl

variable (hreqs : (s.sl c).macReqs = [k.val]) (hfront : ((s.sl c).ctxAt k.val).front = some e)
  (hbound : e.bound = some b) (hgood : slotGood ((s.sl c).slotAt b.1.val) = true)
include hreqs hfront hbound hgood

/-- A block that is not the last. -/
theorem macBlockGrant_step (hmore : e.done + 16 < 10 + e.length) (split : Bool) :
    let w := (s.sl c).slotAt b.1.val
    Does (.macBlockGrant c false split) s (fun s => s.modSl c (fun x =>
      { x with mac := x.mac.turned k.val (blockCycles w), ctx := vmod x.ctx k.val (fun y => y.setFront { e with
          chain := cmacStep w.key e.chain ((e.bytes.drop e.done).take 16), done := e.done + 16 }) })) := by
  refine run_does_from (exec_macBlockGrant_context hreqs hfront hbound hgood split) ?_
  rintro u o rfl
  rw [macBlock_step _ c k b.1 hmore, macTurn_eq, State.setEnv, State.modSl_modSl, State.sl_modSl]
  rfl

section
variable (hlast : 10 + e.length ≤ e.done + 16) (hspec : ((s.sl c).ctxAt k.val).spec = false)
include hlast hspec

/-- The last block of an envelope whose tag is right. -/
theorem macBlockGrant_passes (htag : e.tag ((s.sl c).slotAt b.1.val).key = e.bytes.drop (10 + e.length)) :
    Does (.macBlockGrant c false false) s (fun t => t.modSl c (fun x =>
      { x with
        mac := x.mac.turned k.val (blockCycles ((s.sl c).slotAt b.1.val)),
        ctx := vmod x.ctx k.val (fun y => y.setFront { e with done := 10 + e.length, commit := true }) })) := by
  refine run_does_from (exec_macBlockGrant_context hreqs hfront hbound hgood false) ?_
  rintro u o rfl
  have hspec' : (((u.macTurn c k.val b.1).sl c).ctxAt k.val).spec = false := by
    rw [macTurn_eq, State.sl_modSl]
    exact hspec
  have htag' : e.tag (((u.macTurn c k.val b.1).sl c).slotAt b.1.val).key = e.bytes.drop (10 + e.length) := by
    rw [macTurn_eq, State.sl_modSl]
    exact htag
  rw [macBlock_last _ c k b.1 hlast, if_pos htag', envPass_waits _ c k b.1 hspec', macTurn_eq, State.setEnv,
    State.modSl_modSl]
  rfl

/-- The last block of an envelope whose tag is wrong. -/
theorem macBlockGrant_fails (htag : e.tag ((s.sl c).slotAt b.1.val).key ≠ e.bytes.drop (10 + e.length))
    (honly : ((s.sl c).ctxAt k.val).holdsOnly e) :
    Gives (.macBlockGrant c false false) s (fun t =>
      (t.sl c).mac = ({ (s.sl c).mac with tagFail := min ((s.sl c).mac.tagFail + 1) 0xFFFF } : Mac).turned k.val
        (blockCycles ((s.sl c).slotAt b.1.val))
      ∧ ((t.sl c).ctxAt k.val).front = none ∧ (t.sl c).cart = (s.sl c).cart ∧ OtherSlices c s t) := by
  have hended : e.ended = true := ended_of_wantsBlock (wantsBlock_of_macReqs hreqs hfront) hlast
  refine run_gives_from (exec_macBlockGrant_context hreqs hfront hbound hgood false) (fun _ _ _ _ h => h) ?_
  rintro u o rfl
  let v : State := u.macTurn c k.val b.1
  have hv : v.sl c = { u.sl c with mac := (u.sl c).mac.turned k.val (blockCycles ((u.sl c).slotAt b.1.val)) } :=
    State.sl_modSl ..
  have hctx : (v.sl c).ctxAt k.val = (u.sl c).ctxAt k.val := by
    rw [hv]
    rfl
  have htag' : e.tag ((v.sl c).slotAt b.1.val).key ≠ e.bytes.drop (10 + e.length) := by
    rw [hv]
    exact htag
  obtain ⟨hmac, hcart, hgone, hothers⟩ := verdict_ends (code := Status.tagFail) v (by rw [hctx]; exact hspec)
    (by rw [hctx]; exact honly) hended (Or.inl (by decide))
  rw [macBlock_last _ c k b.1 hlast, if_neg htag']
  refine ⟨hmac.trans ?_, hgone, hcart.trans ?_, fun d hd => (hothers d hd).trans (State.sl_modSl_ne u _ hd)⟩
  · rw [hv]
    rfl
  · rw [hv]
    rfl

end

end

/-- Settles O42: no request, a block that is not the last, the last one with a right tag and with a wrong one; no PASS
that waits, and the first one that does. -/
theorem verification : Obligations.Verification := by
  intro c s x next
  refine ⟨fun parity split hreqs => macBlockGrant_idle hreqs parity split, fun k e b hreqs hfront hbound hgood =>
    ⟨fun split hmore => ?step, fun hlast hspec => ⟨fun htag => ?passes, fun htag hqueued henv => ?fails⟩⟩,
    mirrorCommit_nothing, fun k e b hqueued henv hcommit hbound hended _ hspec hctl hfirst => ?commit⟩
  case step => exact macBlockGrant_step hreqs hfront hbound hgood hmore split
  case passes => exact macBlockGrant_passes hreqs hfront hbound hgood hlast hspec htag
  case fails => exact macBlockGrant_fails hreqs hfront hbound hgood hlast hspec htag ⟨hqueued, henv⟩
  case commit =>
    have honly : (x.ctxAt k.val).holdsOnly e := ⟨hqueued, henv⟩
    refine run_gives_from (exec_mirrorCommit c s) (fun _ _ _ _ h => h) ?_
    rintro u o rfl
    rw [mirrorCommit_first u (front_of_holdsOnly honly) hcommit hbound hfirst]
    exact commitPass_leaves (s := u) honly hended hspec hctl b.1

end Sys2Proof.Machine
end

section
/-! SUPPORT. Writes to the slots of a key store to which nothing is bound (R243, R244, R246, R251): they change the
slice alone. -/

namespace Sys2Proof.Machine

open Sys2Proof

/-! ### A key store to which nothing is bound (R246) -/

/-- No verification is under way. -/
def Slice.unverifying (x : Slice) : Prop := ∀ k, k < 256 → ∀ e, (x.ctxAt k).front = some e → e.bound = none

/-- Neither a verification nor an operation of the transmit path is under way. -/
def Slice.unbound (x : Slice) : Prop := x.mac.ops = [] ∧ x.unverifying

theorem endVerifying_unverifying {s : State} {c : Fin 4} (h : (s.sl c).unverifying) (slot : Fin 64) (code : Nat) :
    s.endVerifying c slot code = s := by
  refine foldl_unchanged fun i hi => ?_
  have hi : (Fin.ofNat 256 i).val = i := Nat.mod_eq_of_lt (List.mem_range.mp hi)
  cases hfront : ((s.sl c).ctxAt (Fin.ofNat 256 i).val).front with
  | none => exact onFront_none hfront _
  | some e =>
    have hbound : e.bound = none := h _ (Fin.ofNat 256 i).isLt e hfront
    rw [onFront_some hfront, hbound]

theorem endBound_unbound {s : State} {c : Fin 4} (h : (s.sl c).unbound) (slot : Fin 64) (code : Nat) :
    s.endBound c slot code = s := by
  obtain ⟨hops, hverifying⟩ := h
  have hsame : s.modSl c (fun x => { x with mac := { x.mac with ops := x.mac.ops.filter (fun o => o.slot != slot) } })
      = s := by
    refine Eq.trans (modSl_congr s (g := id) ?_) (State.setSl_sl s c)
    dsimp only [id]
    rw [hops, List.filter_nil, ← hops]
  unfold State.endBound
  dsimp only
  rw [hsame, hops, endVerifying_unverifying hverifying]
  rfl

/-! ### A slot that is written (R243) -/

/-- A slice with slot `k` written; the mirror follows where `mirror` says so. -/
def Slice.slotPut (k : Fin 64) (w : KeySlot) (mirror : Bool) (x : Slice) : Slice :=
  let m := { x.mac with slots := x.mac.slots.set k.val w k.isLt, replay := x.mac.replay.filter (fun r => r.slot != k) }
  let y := { x with mac := m, af := vmap (fun a =>
    { a with provisional := a.provisional.filter (fun r => r.slot != k) }) x.af }
  if mirror then y.syncMirror else y

section
variable (x : Slice) (k : Fin 64) (w : KeySlot) (mirror : Bool)

theorem slotPut_mac : (x.slotPut k w mirror).mac =
    { x.mac with slots := x.mac.slots.set k.val w k.isLt, replay := x.mac.replay.filter (fun r => r.slot != k) } := by
  cases mirror <;> rfl

theorem slotPut_ctx : (x.slotPut k w mirror).ctx = x.ctx := by cases mirror <;> rfl

theorem slotPut_ctl : (x.slotPut k w mirror).ctl = x.ctl := by cases mirror <;> rfl

theorem slotPut_slotAt (m : Nat) : (x.slotPut k w mirror).slotAt m = if m = k.val then w else x.slotAt m := by
  rw [Slice.slotAt, slotPut_mac]
  exact vget_set x.mac.slots w KeySlot.fresh k.isLt

variable {x} in
theorem slotPut_unbound (h : x.unbound) : (x.slotPut k w mirror).unbound := by
  obtain ⟨hops, hverifying⟩ := h
  refine ⟨by rw [slotPut_mac]; exact hops, fun i hi e hfront => hverifying i hi e ?_⟩
  rwa [Slice.ctxAt, slotPut_ctx] at hfront

end

theorem writeSlot_unbound {s : State} {c : Fin 4} (h : (s.sl c).unbound) (k : Fin 64) (w : KeySlot) (code : Nat)
    (mirror : Bool) : s.writeSlot c k w code mirror = s.modSl c (Slice.slotPut k w mirror) := by
  refine endBound_unbound (s := s.modSl c (Slice.slotPut k w mirror)) ?_ k code
  rw [State.sl_modSl]
  exact slotPut_unbound k w mirror h

/-! ### Slots that are erased (R251, R267) -/

/-- A fold over slices, done in the state. -/
theorem foldl_modSl {α : Type} {c : Fin 4} {P : Slice → Prop} {g : State → α → State} {f : Slice → α → Slice}
    (hg : ∀ s a, P (s.sl c) → g s a = s.modSl c (f · a)) (hP : ∀ x a, P x → P (f x a)) (l : List α) (s : State)
    (h : P (s.sl c)) : l.foldl g s = s.modSl c (fun x => l.foldl f x) := by
  induction l generalizing s with
  | nil => exact (State.setSl_sl s c).symm
  | cons a l ih =>
    rw [List.foldl_cons, hg s a h, ih (s.modSl c (f · a)) (by rw [State.sl_modSl]; exact hP _ a h), State.modSl_modSl]
    rfl

/-- A slice with slot `i` erased where the mask names it. -/
def Slice.slotWiped (mask : Nat) (cause : BitVec 2) (mirror : Bool) (x : Slice) (i : Nat) : Slice :=
  if mask.testBit i then x.slotPut (Fin.ofNat 64 i) (slotErased (x.slotAt (Fin.ofNat 64 i).val) cause) mirror else x

/-- A slice with the slots erased that the mask names. -/
def Slice.maskWiped (mask : Nat) (cause : BitVec 2) (mirror : Bool) (x : Slice) : Slice :=
  (List.range 64).foldl (Slice.slotWiped mask cause mirror) x

section
variable (mask : Nat) (cause : BitVec 2) (mirror : Bool)

/-- What an erase of one slot keeps, an erase of a mask keeps. -/
theorem foldl_slotWiped_keeps {α : Type} {p : Slice → α} (h : ∀ x k w, p (Slice.slotPut k w mirror x) = p x)
    (l : List Nat) (x : Slice) : p (l.foldl (Slice.slotWiped mask cause mirror) x) = p x :=
  foldl_keeps p (fun x i => by
    unfold Slice.slotWiped
    split
    · exact h ..
    · rfl) l x

theorem slotAt_slotWiped (x : Slice) {i : Nat} (hi : i < 64) (m : Nat) : (x.slotWiped mask cause mirror i).slotAt m =
    if m = i ∧ mask.testBit i = true then slotErased (x.slotAt i) cause else x.slotAt m := by
  have hval : (Fin.ofNat 64 i).val = i := Nat.mod_eq_of_lt hi
  unfold Slice.slotWiped
  split
  next hbit => simp only [slotPut_slotAt, hval, hbit, and_true]
  next hbit => simp [hbit]

/-- Once the slots below `n` have had their turn, those of them are erased that the mask names. -/
theorem slotAt_foldl_slotWiped (x : Slice) {n : Nat} (hn : n ≤ 64) (m : Nat) :
    ((List.range n).foldl (Slice.slotWiped mask cause mirror) x).slotAt m =
      if m < n ∧ mask.testBit m = true then slotErased (x.slotAt m) cause else x.slotAt m := by
  induction n generalizing m with
  | zero => simp
  | succ n ih =>
    specialize ih (Nat.le_of_succ_le hn)
    rw [List.range_succ, List.foldl_append, List.foldl_cons, List.foldl_nil, slotAt_slotWiped mask cause mirror _ hn]
    by_cases hm : m = n
    · subst hm
      have hsame : ((List.range m).foldl (Slice.slotWiped mask cause mirror) x).slotAt m = x.slotAt m :=
        (ih m).trans (if_neg fun h => Nat.lt_irrefl m h.1)
      rw [hsame]
      exact if_congr (and_congr_left' (iff_of_true rfl (Nat.lt_succ_self m))) rfl rfl
    · rw [if_neg fun h => hm h.1, ih m]
      exact if_congr (and_congr_left' (by omega)) rfl rfl

/-- The MAC block but for the slots and the replay records. -/
def Mac.offStore (m : Mac) : Mac := { m with slots := Vector.replicate 64 KeySlot.fresh, replay := [] }

theorem eq_of_offStore {m n : Mac} (h : m.offStore = n.offStore) :
    m = { n with slots := m.slots, replay := m.replay } :=
  (congrArg (fun k : Mac => { k with slots := m.slots, replay := m.replay }) h : _)

/-- An erase changes nothing of the MAC block but the slots and the replay records. -/
theorem maskWiped_mac (x : Slice) : (x.maskWiped mask cause mirror).mac = { x.mac with
    slots := (x.maskWiped mask cause mirror).mac.slots, replay := (x.maskWiped mask cause mirror).mac.replay } :=
  eq_of_offStore (foldl_slotWiped_keeps mask cause mirror (p := fun x => x.mac.offStore)
    (fun x k w => by simp only [slotPut_mac, Mac.offStore]) _ x)

theorem maskWiped_cart (x : Slice) : (x.maskWiped mask cause false).cart = x.cart :=
  foldl_slotWiped_keeps mask cause false (p := Slice.cart) (fun _ _ _ => rfl) _ x

theorem slotAt_maskWiped (x : Slice) {m : Nat} (hm : m < 64) : (x.maskWiped mask cause mirror).slotAt m =
    if mask.testBit m then slotErased (x.slotAt m) cause else x.slotAt m := by
  rw [Slice.maskWiped, slotAt_foldl_slotWiped mask cause mirror x (Nat.le_refl 64)]
  simp only [hm, true_and]

theorem slotWiped_unbound (x : Slice) (i : Nat) (h : x.unbound) : (x.slotWiped mask cause mirror i).unbound := by
  unfold Slice.slotWiped
  split
  · exact slotPut_unbound _ _ _ h
  · exact h

theorem eraseMask_unbound {s : State} {c : Fin 4} (h : (s.sl c).unbound) :
    s.eraseMask c mask cause mirror = s.modSl c (Slice.maskWiped mask cause mirror) := by
  refine foldl_modSl (P := Slice.unbound) (fun t i ht => ?_) (slotWiped_unbound mask cause mirror) _ s h
  split
  next hbit =>
    rw [State.eraseSlot, writeSlot_unbound ht]
    exact modSl_congr t (if_pos hbit).symm
  next hbit => exact (State.setSl_sl t c).symm.trans (congrArg (t.setSl c) (if_neg hbit).symm)

end

end Sys2Proof.Machine
end

section
/-! SUPPORT. The alarms of the key store (R266 to R269). -/

namespace Sys2Proof.Machine

open Sys2Proof

/-! ### An alarm in one slice -/

/-- A slice with an alarm dated, counted and marked in its mirror, its slots still there (R267 steps 1 and 2). -/
def Slice.alarmNoted (a : AlarmSource) (tb : Nat) (x : Slice) : Slice :=
  let m := x.mac
  let cause := if m.erasing then m.eraseCause ||| alarmMask a else alarmMask a
  { x with
    cart := x.cart.map (fun t => cartMarked t a),
    mac := { m with
      erasing := true, eraseCause := cause, lastCause := alarmMask a,
      erases := BitVec.ofNat 16 (sat 16 (m.erases.toNat + 1)),
      alarmTb := tb, blocked := m.blocked ||| alarmMask a, alarmIn := m.alarmIn || a == .alarmIn,
      events := raise m.events 0 } }

/-- A slice without replay records. -/
def Slice.unrecorded (x : Slice) : Slice := { x with mac := { x.mac with replay := [] } }

/-- A slice without a key (R267 step 3). -/
def Slice.keysWiped (x : Slice) : Slice := (x.maskWiped (2 ^ 64 - 1) 2 false).unrecorded

/-- A slice in which an alarm source is detected. -/
def Slice.alarm (a : AlarmSource) (tb : Nat) (x : Slice) : Slice :=
  if 2 ≤ x.ctl.state.code ∧ x.cart.isSome then
    if x.ctl.state.served then (x.alarmNoted a tb).keysWiped else x.alarmNoted a tb
  else if alarmModule a then { x with mac := x.mac.alarmActive a } else x

theorem alarmErase_unbound {s : State} {c : Fin 4} (h : (s.sl c).unbound) (a : AlarmSource) :
    s.alarmErase c a = s.modSl c (Slice.alarm a s.tb) := by
  have hnoted : ((s.modSl c (Slice.alarmNoted a s.tb)).sl c).unbound := by
    rw [State.sl_modSl]
    exact h
  have hunwatched : (!(s.sl c).ctl.state.powered || (s.sl c).cart.isNone) = true ↔
      ¬ (2 ≤ (s.sl c).ctl.state.code ∧ (s.sl c).cart.isSome) := by
    cases (s.sl c).cart <;> simp [SliceState.powered]
  unfold State.alarmErase
  dsimp only
  split
  next hoff =>
    have hoff := hunwatched.mp hoff
    split
    next hwide => exact modSl_congr s (by rw [Slice.alarm, if_neg hoff, if_pos hwide])
    next hwide =>
      exact (State.setSl_sl s c).symm.trans (congrArg (s.setSl c) (by rw [Slice.alarm, if_neg hoff, if_neg hwide]))
  next hon =>
    have hon := not_not.mp (fun h => hon (hunwatched.mpr h))
    split
    next hserved =>
      refine Eq.trans (congrArg (State.modSl · c _) (eraseMask_unbound _ _ _ hnoted)) ?_
      rw [State.modSl_modSl, State.modSl_modSl]
      exact modSl_congr s (by rw [Slice.alarm, if_pos hon, if_pos hserved]; rfl)
    next hserved => exact modSl_congr s (by rw [Slice.alarm, if_pos hon, if_neg hserved]; rfl)

/-! ### What an alarm leaves -/

/-- What the source of bit `bit` leaves of slice `x`, detected at TB value `tb`; `wide` says that it concerns every
slice. -/
def Slice.alarmed (x : Slice) (bit : Nat) (wide : Bool) (tb : Nat) (y : Slice) : Prop :=
  let m := x.mac
  let n := y.mac
  if 2 ≤ x.ctl.state.code ∧ x.cart.isSome then
    n.blocked = m.blocked ||| BitVec.ofNat 6 (2 ^ bit) ∧ n.erasing = true ∧ n.lastCause = BitVec.ofNat 6 (2 ^ bit)
      ∧ n.eraseCause = (if m.erasing then m.eraseCause ||| BitVec.ofNat 6 (2 ^ bit) else BitVec.ofNat 6 (2 ^ bit))
      ∧ n.alarmTb = tb ∧ n.erases.toNat = min (m.erases.toNat + 1) 0xFFFF ∧ n.events = m.events ||| 1
      ∧ (∀ k, y.cart = some k → k.marker = true)
      ∧ (x.ctl.state.served = true → n.replay = []
        ∧ ∀ i, i < 64 → (y.slotAt i).state = .empty ∧ (y.slotAt i).eraseCause = 2
          ∧ (y.slotAt i).key = List.replicate (x.slotAt i).key.length 0)
  else n.blocked = (if wide then m.blocked ||| BitVec.ofNat 6 (2 ^ bit) else m.blocked) ∧ n.slots = m.slots

section
variable (a : AlarmSource) (tb : Nat) (x : Slice)

theorem toNat_sat16 (n : Nat) : (BitVec.ofNat 16 (sat 16 n)).toNat = min n 0xFFFF := by
  rw [BitVec.toNat_ofNat, sat]
  exact Nat.mod_eq_of_lt (by omega)

theorem marker_alarmNoted {k : Cartridge} (h : (x.alarmNoted a tb).cart = some k) : k.marker = true := by
  obtain ⟨t, -, rfl⟩ := Option.map_eq_some_iff.mp h
  rfl

theorem unrecorded_mac : x.unrecorded.mac = { x.mac with replay := [] } := rfl
theorem unrecorded_cart : x.unrecorded.cart = x.cart := rfl
theorem unrecorded_slotAt (i : Nat) : x.unrecorded.slotAt i = x.slotAt i := rfl

theorem keysWiped_cart : x.keysWiped.cart = x.cart := by rw [Slice.keysWiped, unrecorded_cart, maskWiped_cart]

/-- The MAC block of a slice that lost its keys, but for its slots. -/
theorem keysWiped_mac : x.keysWiped.mac = { x.mac with slots := x.keysWiped.mac.slots, replay := [] } := by
  rw [Slice.keysWiped, unrecorded_mac, maskWiped_mac]

/-- Every slot of a slice that lost its keys is EMPTY by an alarm. -/
theorem slotAt_keysWiped {i : Nat} (hi : i < 64) : x.keysWiped.slotAt i = slotErased (x.slotAt i) 2 := by
  have hall : (2 ^ 64 - 1).testBit i = true := by
    rw [Nat.testBit_two_pow_sub_one]
    exact decide_eq_true hi
  rw [Slice.keysWiped, unrecorded_slotAt, slotAt_maskWiped _ _ _ x hi, if_pos hall]

variable {x} in
/-- A slice that is watched has the alarm noted, and where it is served its keys erased. -/
theorem alarmed_of_noted {y : Slice} (hwatched : 2 ≤ x.ctl.state.code ∧ x.cart.isSome)
    (hcart : y.cart = (x.alarmNoted a tb).cart)
    (hmac : y.mac = { (x.alarmNoted a tb).mac with slots := y.mac.slots, replay := y.mac.replay })
    (hkeys : x.ctl.state.served = true → y.mac.replay = [] ∧ ∀ i, i < 64 → y.slotAt i = slotErased (x.slotAt i) 2) :
    x.alarmed (alarmBit a) (alarmModule a) tb y := by
  refine (if_pos hwatched).mpr ?_
  refine ⟨?_, ?_, ?_, ?_, ?_, ?_, ?_, fun k hk => marker_alarmNoted a tb x (hcart ▸ hk), fun hserved => ?keys⟩
  case keys =>
    obtain ⟨hreplay, hslots⟩ := hkeys hserved
    refine ⟨hreplay, fun i hi => ?_⟩
    rw [hslots i hi]
    exact ⟨rfl, rfl, rfl⟩
  all_goals rw [hmac]
  case refine_6 => exact toNat_sat16 _
  all_goals rfl

variable {a tb x} in
/-- What an alarm makes of a slice is what it leaves of it. -/
theorem alarmed_of_alarm {y : Slice} (hy : y = x.alarm a tb) : x.alarmed (alarmBit a) (alarmModule a) tb y := by
  rw [hy]
  unfold Slice.alarm
  split
  next hwatched =>
    split
    next hserved =>
      refine alarmed_of_noted a tb hwatched (keysWiped_cart _) ?_ fun _ =>
        ⟨by rw [keysWiped_mac], fun i hi => slotAt_keysWiped _ hi⟩
      rw [keysWiped_mac]
    next hserved => exact alarmed_of_noted a tb hwatched rfl rfl fun h => absurd h hserved
  next hunwatched =>
    refine (if_neg hunwatched).mpr ?_
    split
    next hwide => exact ⟨rfl, rfl⟩
    next hwide => exact ⟨rfl, rfl⟩

/-- ALARM_IN is active in every slice where it is noted (R269). -/
theorem alarm_alarmIn : (x.alarm .alarmIn tb).mac.alarmIn = true := by
  have hnoted : (x.alarmNoted .alarmIn tb).mac.alarmIn = true := Bool.or_true _
  unfold Slice.alarm
  split
  next =>
    split
    next =>
      rw [keysWiped_mac]
      exact hnoted
    next => exact hnoted
  next => exact Bool.or_true _

end

end Sys2Proof.Machine
end

section
/-! SUPPORT. Alarms of the module and of a slice, and the end of an erase by alarm (R266 to R269), put together. -/

namespace Sys2Proof.Machine

open Sys2Proof

/-! ### Where a source is detected (R266) -/

/-- Alarms in different slices do not meet. -/
theorem foldl_alarmErase (a : AlarmSource) (l : List (Fin 4)) (hl : l.Nodup) (s : State)
    (h : ∀ c ∈ l, (s.sl c).unbound) :
    l.foldl (fun t c => t.alarmErase c a) s = l.foldl (fun t c => t.modSl c (Slice.alarm a s.tb)) s := by
  induction l generalizing s with
  | nil => rfl
  | cons c l ih =>
    obtain ⟨hc, hl⟩ := List.nodup_cons.mp hl
    rw [List.foldl_cons, List.foldl_cons, alarmErase_unbound (h c List.mem_cons_self)]
    refine ih hl _ fun d hd => ?_
    rw [State.sl_modSl_ne _ _ (ne_of_mem_of_not_mem hd hc)]
    exact h d (List.mem_cons_of_mem c hd)

/-- A source of the module reaches every slice. -/
theorem alarmAll_sl {s : State} (h : ∀ c, (s.sl c).unbound) (a : AlarmSource) (d : Fin 4) :
    (s.alarmAll a).sl d = (s.sl d).alarm a s.tb := by
  refine (congrArg (State.sl · d) (foldl_alarmErase a allSlices (by decide) s fun c _ => h c)).trans ?_
  exact sl_modSlices s (fun _ => Slice.alarm a s.tb) d

section
variable {s : State} {a : AlarmSource} {i : Instr}

/-- What an alarm of the module leaves of every slice. -/
theorem moduleAlarm_gives (hunbound : ∀ c, (s.sl c).unbound) (he : exec i s = run s (fun s => s.alarmAll a)) :
    Gives i s (fun t => ∀ c, t.sl c = (s.sl c).alarm a s.tb) := by
  refine run_gives_from he (fun _ _ _ _ h => h) ?_
  rintro u o rfl
  exact alarmAll_sl (s := u) hunbound a

/-- What an alarm of one slice leaves of it and of the others. -/
theorem sliceAlarm_gives {c : Fin 4} (hunbound : (s.sl c).unbound) (he : exec i s = run s (fun s => s.alarmErase c a)) :
    Gives i s (fun t => t.sl c = (s.sl c).alarm a s.tb ∧ OtherSlices c s t) := by
  refine run_gives_from he (fun _ _ _ _ h => h) ?_
  rintro u o rfl
  rw [alarmErase_unbound (s := u) hunbound]
  exact ⟨State.sl_modSl .., fun d hd => State.sl_modSl_ne u _ hd⟩

theorem moduleAlarm_alarmed (hunbound : ∀ c, (s.sl c).unbound) (he : exec i s = run s (fun s => s.alarmAll a)) :
    Gives i s (fun t => ∀ c, (s.sl c).alarmed (alarmBit a) (alarmModule a) s.tb (t.sl c)) :=
  (moduleAlarm_gives hunbound he).imp fun _ ht c => alarmed_of_alarm (ht c)

theorem sliceAlarm_alarmed {c : Fin 4} (hunbound : (s.sl c).unbound)
    (he : exec i s = run s (fun s => s.alarmErase c a)) :
    Gives i s (fun t => (s.sl c).alarmed (alarmBit a) (alarmModule a) s.tb (t.sl c) ∧ OtherSlices c s t) :=
  (sliceAlarm_gives hunbound he).imp fun _ ⟨hsl, hothers⟩ => ⟨alarmed_of_alarm hsl, hothers⟩

end

/-! ### MIRROR_ERASE_DONE and LOADS_UNBLOCKED -/

/-- The mirror of a slice that serves its slots is as the key store after an erase by alarm (R267 step 4). -/
def Slice.mirrorErased (x : Slice) : Slice :=
  let y := if x.ctl.state.served then
      Slice.syncMirror { x with cart := x.cart.map (fun t => { t with marker := false }) }
    else { x with cart := x.cart.map cartErased }
  { y with mac := { y.mac with erasing := false } }

/-- The effect of MIRROR_ERASE_DONE. -/
def State.mirrorEraseDone (s : State) (c : Fin 4) : State :=
  if !(s.sl c).mac.erasing then s
  else (s.modSl c Slice.mirrorErased).faultAt
    { status := Status.keyErased, event := 0x18, level := 1, action := 7, block := 0x43,
      detail := (s.sl c).mac.eraseCause.toNat, slice := c.val } (s.sl c).mac.alarmTb

theorem exec_mirrorEraseDone (c : Fin 4) (s : State) :
    exec (.mirrorEraseDone c) s = run s (fun s => s.mirrorEraseDone c) := rfl

theorem exec_loadsUnblocked (c : Fin 4) (a : AlarmSource) (s : State) :
    exec (.loadsUnblocked c a) s = run s (fun s => s.modSl c (fun x => { x with mac := { x.mac with
      blocked := x.mac.blocked &&& ~~~alarmMask a, alarmIn := x.mac.alarmIn && a != .alarmIn } })) := rfl

/-- A FAULT record leaves the slices as they are, whatever its stamp. -/
theorem faultAt_slices (s : State) (i : FaultInfo) (ts : Nat) : (s.faultAt i ts).slices = s.slices :=
  (slices_of_offRecord (stageOrHold_offRecord ..)).trans rfl

theorem mirrorEraseDone_sl {s : State} {c : Fin 4} (h : (s.sl c).mac.erasing = true) :
    (s.mirrorEraseDone c).sl c = (s.sl c).mirrorErased := by
  rw [State.mirrorEraseDone, if_neg (by simp [h]), sl_congr (faultAt_slices ..), State.sl_modSl]

theorem mirrorErased_served {x : Slice} (h : x.ctl.state.served = true) :
    x.mirrorErased.mac = { x.mac with erasing := false } ∧ x.mirrorErased.cart = x.cart.map (fun k => { k with
      marker := false, slots := x.mac.slots.toList, replay := x.mac.replay }) := by
  rw [Slice.mirrorErased, if_pos h]
  exact ⟨rfl, Option.map_map ..⟩

/-- Settles O41: the four sources of the module and the two of a slice; the end of an erase, with none under way too;
and a source that is inactive again. -/
theorem keyAlarms : Obligations.KeyAlarms := by
  intro s alarmed unbound
  refine ⟨fun h => ⟨?tamper, ?alarmIn, ?hot, ?cold⟩, fun c h => ⟨?supply, ?glitch⟩,
    fun c => ⟨fun herasing hserved => ?erased, fun hidle => ?idle, fun a => ?unblocked⟩⟩
  case tamper => exact moduleAlarm_alarmed (a := .tamper) h rfl
  case alarmIn =>
    refine (moduleAlarm_gives (a := .alarmIn) h rfl).imp fun t ht c => ⟨alarmed_of_alarm (ht c), ?_⟩
    rw [ht c]
    exact alarm_alarmIn ..
  case hot => exact moduleAlarm_alarmed (a := .overTemp) h rfl
  case cold => exact moduleAlarm_alarmed (a := .underTemp) h rfl
  case supply => exact sliceAlarm_alarmed (a := .supply) h rfl
  case glitch => exact sliceAlarm_alarmed (a := .glitch) h rfl
  case erased =>
    refine run_gives_from (exec_mirrorEraseDone c s) (fun _ _ _ _ h => h) ?_
    rintro u o rfl
    rw [mirrorEraseDone_sl (s := u) herasing]
    exact mirrorErased_served hserved
  case idle =>
    refine run_does_from (exec_mirrorEraseDone c s) ?_
    rintro u o rfl
    exact if_pos (by rw [show (u.sl c).mac.erasing = false from hidle]; rfl)
  case unblocked =>
    refine run_does_from (exec_loadsUnblocked c a s) ?_
    rintro u o rfl
    have hsource : (a != .alarmIn) = decide (a ≠ .alarmIn) := by cases a <;> rfl
    rw [hsource]

end Sys2Proof.Machine
end

section
/-! SUPPORT. Keys that come into a slot (R243, R247 to R250, R269) of a key store to which nothing is bound. -/

namespace Sys2Proof.Machine

open Sys2Proof

/-! ### A slot that is loaded (R243) -/

/-- A slice with a key in slot `k`. -/
def Slice.keyLoaded (k : Fin 64) (key : List Byte) (aes256 : Bool) (usage : BitVec 3) (minTag : BitVec 2) (x : Slice) :
    Slice :=
  let y := x.slotPut k (slotLoaded (x.slotAt k.val) key aes256 usage minTag) true
  { y with mac := { y.mac with events := raise y.mac.events 2 } }

theorem loadSlot_unbound {s : State} {c : Fin 4} (h : (s.sl c).unbound) (k : Fin 64) (key : List Byte) (aes256 : Bool)
    (usage : BitVec 3) (minTag : BitVec 2) :
    s.loadSlot c k key aes256 usage minTag = s.modSl c (Slice.keyLoaded k key aes256 usage minTag) := by
  unfold State.loadSlot
  dsimp only
  rw [writeSlot_unbound h, State.modSl_modSl]
  exact modSl_congr s rfl

/-- What a load of slot `n` leaves: the key, its usage and least tag, the next generation, no replay record of the
slot, and the mirror as the key store. -/
def State.loadsKey (s : State) (c : Fin 4) (n : Nat) (key : List Byte) (use minTag : Nat) (t : State) : Prop :=
  let w := (s.sl c).slotAt n
  let v := (t.sl c).slotAt n
  v.key = key ∧ v.usage.toNat = use ∧ v.minTag.toNat = minTag ∧ v.state = .valid ∧ v.txCounter = 0
    ∧ v.generation = (if w.generation = 0xFFFF then 1 else w.generation + 1)
    ∧ (∀ m, m < 64 → m ≠ n → (t.sl c).slotAt m = (s.sl c).slotAt m)
    ∧ (t.sl c).mac.replay = (s.sl c).mac.replay.filter (fun r => r.slot.val != n)
    ∧ (t.sl c).mac.events = (s.sl c).mac.events ||| 4
    ∧ (∀ k, (t.sl c).cart = some k → k.slots = (t.sl c).mac.slots.toList ∧ k.replay = (t.sl c).mac.replay)
    ∧ OtherSlices c s t

section
variable (x : Slice) (k : Fin 64) (key : List Byte) (aes256 : Bool) (usage : BitVec 3) (minTag : BitVec 2)

theorem keyLoaded_mac : (x.keyLoaded k key aes256 usage minTag).mac = { x.mac with
    slots := x.mac.slots.set k.val (slotLoaded (x.slotAt k.val) key aes256 usage minTag) k.isLt,
    replay := x.mac.replay.filter (fun r => r.slot != k), events := raise x.mac.events 2 } := rfl

theorem keyLoaded_slotAt (m : Nat) : (x.keyLoaded k key aes256 usage minTag).slotAt m =
    if m = k.val then slotLoaded (x.slotAt k.val) key aes256 usage minTag else x.slotAt m := slotPut_slotAt x k _ true m

theorem keyLoaded_mirrored {t : Cartridge} (h : (x.keyLoaded k key aes256 usage minTag).cart = some t) :
    t.slots = (x.keyLoaded k key aes256 usage minTag).mac.slots.toList
      ∧ t.replay = (x.keyLoaded k key aes256 usage minTag).mac.replay := by
  obtain ⟨u, -, rfl⟩ := Option.map_eq_some_iff.mp h
  exact ⟨rfl, rfl⟩

end

/-- A state whose slice `c` is one with the key stores of `s`, but for a key in slot `n`. -/
theorem loadsKey_of_keyLoaded {s t : State} {c : Fin 4} {y : Slice} {n use least : Nat} {key : List Byte}
    {aes256 : Bool}
    (hsl : t.sl c = y.keyLoaded (Fin.ofNat 64 n) key aes256 (BitVec.ofNat 3 use) (BitVec.ofNat 2 least))
    (hslots : y.mac.slots = (s.sl c).mac.slots) (hreplay : y.mac.replay = (s.sl c).mac.replay)
    (hevents : y.mac.events = (s.sl c).mac.events) (hothers : OtherSlices c s t)
    (hn : n < 64) (huse : use < 8) (hleast : least < 4) : s.loadsKey c n key use least t := by
  have hval : (Fin.ofNat 64 n).val = n := Nat.mod_eq_of_lt hn
  have hat (m : Nat) : y.slotAt m = (s.sl c).slotAt m := congrArg (vget · m KeySlot.fresh) hslots
  have hslot : (t.sl c).slotAt n =
      slotLoaded ((s.sl c).slotAt n) key aes256 (BitVec.ofNat 3 use) (BitVec.ofNat 2 least) := by
    rw [hsl, keyLoaded_slotAt, hval, if_pos rfl, hat]
  have hmac := (congrArg Slice.mac hsl).trans (keyLoaded_mac ..)
  refine ⟨?text, ?uses, ?least, ?state, ?counter, ?generation, fun m _ hm => ?others, ?replay, ?events,
    fun k hk => ?mirror, hothers⟩
  case text => rw [hslot]; rfl
  case uses => rw [hslot]; exact Nat.mod_eq_of_lt huse
  case least => rw [hslot]; exact Nat.mod_eq_of_lt hleast
  case state => rw [hslot]; rfl
  case counter => rw [hslot]; rfl
  case generation => rw [hslot]; rfl
  case others => rw [hsl, keyLoaded_slotAt, hval, if_neg hm, hat]
  case replay =>
    rw [hmac, ← hreplay]
    refine List.filter_congr fun r _ => ?_
    rw [bne, bne, beq_eq_decide, beq_eq_decide]
    simp only [Fin.ext_iff, hval]
  case events =>
    rw [hmac, ← hevents]
    rfl
  case mirror =>
    rw [hsl] at hk ⊢
    exact keyLoaded_mirrored _ _ _ _ _ _ hk

/-! ### KEYLOAD (R247, R248) -/

theorem exec_keyload (p : List Byte) (s : State) :
    exec (.keyload p) s = run s (fun s => ((s.tapInstr 0x21).keyload p).captureDr) := rfl

theorem keyPacketOk_fields {p : List Byte} (h : keyPacketOk p = true) :
    p.length = 44 ∧ u8 p 1 < 64 ∧ u8 p 3 < 8 ∧ u8 p 4 < 4 := by
  simp only [keyPacketOk, within, Bool.and_eq_true, beq_iff_eq, decide_eq_true_eq] at h
  omega

theorem keyload_refused (s : State) {p : List Byte} (h : keyPacketOk p = false) :
    s.keyload p = s.keyDone (p.take 44) Status.badParam := if_pos (by rw [h]; rfl)

/-- A good packet for a slice whose slots take keys loads its slot. -/
theorem keyload_taken {s : State} {p : List Byte} {c : Fin 4} (hok : keyPacketOk p = true) (hc : u8 p 0 = c.val)
    (hpowered : (s.sl c).ctl.state = .calibrating ∨ (s.sl c).up = true) (hfree : (s.sl c).mac.blocked = 0)
    (hunbound : (s.sl c).unbound) : s.keyload p =
      (s.modSl c (Slice.keyLoaded (Fin.ofNat 64 (u8 p 1)) (slice p 8 (if u8 p 2 = 1 then 32 else 16)) (u8 p 2 == 1)
        (BitVec.ofNat 3 (u8 p 3)) (BitVec.ofNat 2 (u8 p 4)))).keyDone p Status.ok := by
  have hlen : p.take 44 = p := List.take_of_length_le (Nat.le_of_eq (keyPacketOk_fields hok).1)
  have hslice : Fin.ofNat 4 (u8 p 0) = c := Fin.ext (by rw [hc]; exact Nat.mod_eq_of_lt c.isLt)
  have hon : (!((s.sl c).ctl.state == .calibrating || (s.sl c).up)) = false := by
    obtain h | h := hpowered <;> simp [h]
  unfold State.keyload
  simp only [hlen, hok, hslice, hon, hfree, Bool.not_true, Bool.false_eq_true, ne_eq, not_true_eq_false, if_false,
    beq_iff_eq, loadSlot_unbound hunbound]

theorem keyload_rejects (p : List Byte) (s : State) (h : keyPacketOk p = false) :
    Gives (.keyload p) s (fun t =>
      t.tap.keyload.head? = some 0x03 ∧ t.tap.ir = 0x21 ∧ t.slices = s.slices ∧ t.queues = s.queues) := by
  refine run_gives_from (exec_keyload p s) (fun _ _ _ _ h => h) ?_
  rintro u o rfl
  obtain ⟨o', htap⟩ := tapInstr_shape u 0x21
  rw [keyload_refused _ h, htap]
  exact ⟨rfl, rfl, rfl, rfl⟩

theorem keyload_loads {p : List Byte} {c : Fin 4} {s : State} (hok : keyPacketOk p = true) (hc : u8 p 0 = c.val)
    (hpowered : (s.sl c).ctl.state = .calibrating ∨ (s.sl c).up = true) (hfree : (s.sl c).mac.blocked = 0)
    (hunbound : (s.sl c).unbound) : Gives (.keyload p) s (fun t => t.tap.keyload.head? = some 0x00
      ∧ s.loadsKey c (u8 p 1) (slice p 8 (if u8 p 2 = 1 then 32 else 16)) (u8 p 3) (u8 p 4) t) := by
  obtain ⟨-, hslot, huse, hleast⟩ := keyPacketOk_fields hok
  refine run_gives_from (exec_keyload p s) (fun _ _ _ _ h => h) ?_
  rintro u o rfl
  obtain ⟨o', htap⟩ := tapInstr_shape u 0x21
  have hslices : (u.tapInstr 0x21).slices = u.slices := by rw [htap]
  have hsl := sl_congr hslices
  rw [keyload_taken (s := u.tapInstr 0x21) hok hc (by rw [hsl]; exact hpowered) (by rw [hsl]; exact hfree)
    (by rw [hsl]; exact hunbound)]
  refine ⟨rfl, loadsKey_of_keyLoaded (y := u.sl c) (aes256 := u8 p 2 == 1) ?_ rfl rfl rfl (fun d hd => ?_) hslot huse
    hleast⟩
  · exact (State.sl_modSl ..).trans (congrArg _ (hsl c))
  · exact (State.sl_modSl_ne _ _ hd).trans (hsl d)

end Sys2Proof.Machine
end

section
/-! SUPPORT. What records and completions leave of a command in hand and of the SX5216 mailbox (R280, R281, R390,
R414). -/

namespace Sys2Proof.Machine

open Sys2Proof

/-! ### Commands in hand -/

section
variable (s : State) (r : Fin 256)

theorem lossTail_inHand (q : Fin 256) (causes : Byte) (lost : Nat) (es : List SrcCount) (ts : Nat) :
    ((s.lossTail q causes lost es ts).qu r).inHand = (s.qu r).inHand := by
  have hfresh (x : Staged) : (((s.takeSeq q).2.modQ q (fun k => Queue.bumpPeak
      { k with staged := k.staged ++ [x] })).qu r).inHand = (s.qu r).inHand :=
    (modQ_inHand _ q r (f := fun k => Queue.bumpPeak { k with staged := k.staged ++ [x] })
      fun _ => rfl).trans (modQ_inHand s q r fun _ => rfl)
  unfold State.lossTail
  dsimp only
  split
  · split
    · exact modQ_inHand s q r fun _ => rfl
    · exact hfresh _
  · split
    · exact modQ_inHand s q r fun _ => rfl
    · exact hfresh _

theorem countLost_inHand (q : Fin 256) (n : Nat) : ((s.countLost q n).qu r).inHand = (s.qu r).inHand := by
  have hcount := modQ_inHand s q r (f := fun k => { k with shedCnt := BitVec.ofNat 32 (count 32 n k.shedCnt.toNat) })
    fun _ => rfl
  unfold State.countLost
  dsimp only
  split
  · exact hcount
  · exact hcount

/-- A FAULT record leaves every command in hand where it is: module queue 2 loses new records only (R275, R414). -/
theorem fault_inHand (i : FaultInfo) : ((s.fault i).qu r).inHand = (s.qu r).inHand := by
  have hstage (u : State) (k : Record) : ((u.stage 2 k).qu r).inHand = (u.qu r).inHand := by
    have hnew : u.queueOld 2 = false := rfl
    unfold State.stage
    rw [hnew]
    simp only [Bool.false_eq_true, if_false]
    split
    · rfl
    · split
      · exact enter_inHand ..
      · rw [countLost_inHand, lossTail_inHand]
  have hhold (u : State) (k : Record) : ((u.stageOrHold 2 k).qu r).inHand = (u.qu r).inHand := by
    unfold State.stageOrHold
    split
    · rfl
    · exact hstage u k
  exact (hhold _ _).trans rfl

end

/-! ### The mailbox -/

section
variable (s : State)

theorem toChildren_mailbox (i : Option Nat) (f : Frame) : (s.toChildren i f).1.mailbox = s.mailbox :=
  foldl_keeps (fun a : State × Bool => a.1.mailbox) (fun a p => by dsimp only; split <;> rfl) allPorts (s, false)

theorem originate_mailbox (cls : FrameClass) (dir : FrameDir) (kind : Nat) (turn : Bool) (dest : Nat)
    (payload : List Byte) : (s.originate cls dir kind turn dest payload).1.mailbox = s.mailbox := by
  unfold State.originate
  dsimp only
  split
  · split
    · split <;> rfl
    · split
      · exact toChildren_mailbox ..
      · split
        · rfl
        · exact toChildren_mailbox ..
    · rfl
  · exact toChildren_mailbox ..

theorem exportRec_mailbox (q : Fin 256) (r : Record) : (s.exportRec q r).mailbox = s.mailbox := by
  refine foldl_keeps State.mailbox (fun t e => ?_) _ s
  simp only [apply_ite State.mailbox, originate_mailbox, ite_self]

theorem enter_mailbox (q : Fin 256) (r : Record) : (s.enter q r).mailbox = s.mailbox := by
  unfold State.enter
  split
  · rfl
  · exact exportRec_mailbox ..

theorem report_mailbox (k : CmdRef) (status : Nat) (result : List Byte) :
    (s.report k status result).mailbox = s.mailbox := by
  unfold State.report State.deliverDone
  dsimp only
  split
  · rfl
  · split
    · rfl
    · split
      · exact enter_mailbox ..
      · rfl

theorem endNops_mailbox (q : Fin 256) : (s.endNops q).mailbox = s.mailbox :=
  foldl_keeps State.mailbox (fun _ _ => report_mailbox ..) _ _

/-- A command of the mailbox that is finished reports there (R390). -/
theorem finish_mailbox {cmd : Command} (h : cmd.desc = mailboxDesc) (status : Nat) (result : List Byte) :
    (s.finish cmd status result).mailbox.go = false
      ∧ (s.finish cmd status result).mailbox.status = BitVec.ofNat 8 status := by
  unfold State.finish State.complete
  dsimp only
  rw [endNops_mailbox, report_mailbox, if_pos (show cmd.ref.desc = mailboxDesc from h)]
  exact ⟨rfl, rfl⟩

end

end Sys2Proof.Machine
end

section
/-! SUPPORT. KEY_DERIVE, the blocks of a derivation, and KEY_ERASE (R240, R241, R245, R249 to R251). -/

namespace Sys2Proof.Machine

open Sys2Proof

/-! ### KEY_DERIVE -/

theorem exec_keyDerive (c : Fin 4) (parity : Bool) (s : State) : exec (.keyDerive c parity) s =
    run s (fun s => s.onCommand (localQ c 52) 0x40 fun s cmd => s.keyDerive c cmd parity) := by
  refine Eq.trans (show _ = execKeyDerive c parity s from rfl) (run_congr fun u _ _ => ?_)
  cases h : u.inHand (localQ c 52) 0x40 <;> simp [State.onCommand, h]

theorem deriveBodyOk_fields {b : List Byte} (h : deriveBodyOk b = true) :
    u8 b 0 < 64 ∧ u8 b 1 < 64 ∧ u8 b 3 < 8 ∧ u8 b 4 < 4 := by
  simp only [deriveBodyOk, within, Bool.and_eq_true, decide_eq_true_eq] at h
  omega

section
variable {s : State} {c : Fin 4} {cmd : Command} (hup : (s.sl c).up = true) (parity : Bool)
include hup

theorem keyDerive_badBody (hbody : deriveBodyOk cmd.body = false) :
    s.keyDerive c cmd parity = s.finish cmd Status.badParam [] := by
  rw [State.keyDerive, if_up hup, if_pos (by rw [hbody]; rfl)]

variable (hbody : deriveBodyOk cmd.body = true) (hgood : slotGood ((s.sl c).slotAt (u8 cmd.body 0)) = true)
include hbody hgood

/-- The checks of KEY_DERIVE past its body, in their order (R250). -/
theorem keyDerive_checks : s.keyDerive c cmd parity =
    let w := (s.sl c).slotAt (u8 cmd.body 0)
    let parent := Fin.ofNat 64 (u8 cmd.body 0)
    if w.state = .empty then s.finish cmd Status.keyEmpty []
    else if !w.usage.getLsbD 2 then s.finish cmd Status.usage []
    else if (s.sl c).mac.blocked ≠ 0 then (s.loadRefused c).finish cmd Status.rejected []
    else if parity then (s.finish cmd Status.parity []).keyBusFault c parent 0xFFFF
    else (s.keep cmd).bindOp c parent (deriveBlocks cmd.body) (some cmd) := by
  obtain ⟨hparent, -⟩ := deriveBodyOk_fields hbody
  have hval : (Fin.ofNat 64 (u8 cmd.body 0)).val = u8 cmd.body 0 := Nat.mod_eq_of_lt hparent
  have hcheck : s.checkSlot c (Fin.ofNat 64 (u8 cmd.body 0)) = s := checkSlot_good s (by rw [hval]; exact hgood)
  rw [State.keyDerive, if_up hup, if_neg (by rw [hbody]; decide)]
  dsimp only
  rw [hcheck, hval]

theorem keyDerive_empty (h : ((s.sl c).slotAt (u8 cmd.body 0)).state = .empty) :
    s.keyDerive c cmd parity = s.finish cmd Status.keyEmpty [] := by
  rw [keyDerive_checks hup parity hbody hgood]
  exact if_pos h

variable (hkey : ((s.sl c).slotAt (u8 cmd.body 0)).state ≠ .empty)
include hkey

theorem keyDerive_usage (h : ((s.sl c).slotAt (u8 cmd.body 0)).usage.getLsbD 2 = false) :
    s.keyDerive c cmd parity = s.finish cmd Status.usage [] := by
  rw [keyDerive_checks hup parity hbody hgood]
  exact (if_neg hkey).trans (if_pos (by rw [h]; rfl))

variable (huse : ((s.sl c).slotAt (u8 cmd.body 0)).usage.getLsbD 2 = true) (hfree : (s.sl c).mac.blocked = 0)
include huse hfree

/-- A derivation with a good parent goes to the engine, unless the key bus shows a parity error (R245). -/
theorem keyDerive_taken : s.keyDerive c cmd parity =
    if parity then (s.finish cmd Status.parity []).keyBusFault c (Fin.ofNat 64 (u8 cmd.body 0)) 0xFFFF
    else (s.keep cmd).modSl c (fun x => { x with mac := { x.mac with ops := x.mac.ops ++ [
      { slot := Fin.ofNat 64 (u8 cmd.body 0), generation := ((s.sl c).slotAt (u8 cmd.body 0)).generation,
        left := deriveBlocks cmd.body, derive := some cmd }] } }) := by
  obtain ⟨hparent, -⟩ := deriveBodyOk_fields hbody
  have hval : (Fin.ofNat 64 (u8 cmd.body 0)).val = u8 cmd.body 0 := Nat.mod_eq_of_lt hparent
  have hbind : (s.keep cmd).bindOp c (Fin.ofNat 64 (u8 cmd.body 0)) (deriveBlocks cmd.body) (some cmd) =
      (s.keep cmd).modSl c (fun x => { x with mac := { x.mac with ops := x.mac.ops ++ [
        { slot := Fin.ofNat 64 (u8 cmd.body 0), generation := ((s.sl c).slotAt (u8 cmd.body 0)).generation,
          left := deriveBlocks cmd.body, derive := some cmd }] } }) := by
    refine modSl_congr _ ?_
    dsimp only
    rw [hval]
    rfl
  rw [keyDerive_checks hup parity hbody hgood, ← hbind]
  exact (if_neg hkey).trans ((if_neg (by rw [huse]; decide)).trans (if_neg (not_not.mpr hfree)))

end

/-- The end of a derivation by a parity error (R245) touches no slice, and its command is no longer in hand. -/
theorem keyBusFault_leaves (s : State) (c : Fin 4) (slot : Fin 64) (ctx : Nat) (cmd : Command) :
    ((s.finish cmd Status.parity []).keyBusFault c slot ctx).slices = s.slices
      ∧ (((s.finish cmd Status.parity []).keyBusFault c slot ctx).qu cmd.queue).inHand = none :=
  ⟨(fault_slices ..).trans (slices_of_offRecord (finish_offRecord ..)), (fault_inHand ..).trans (finish_inHand ..)⟩

/-! ### The blocks of a derivation (R241, R250) -/

section
variable {s : State} {c : Fin 4} {o : MacOp} {cmd : Command}

/-- The operation at the front of the transmit path is the only requester: the engine takes a block of it. -/
theorem exec_macBlockGrant_operation (hreqs : (s.sl c).macReqs = [256]) (hops : (s.sl c).mac.ops = [o])
    (hgood : slotGood ((s.sl c).slotAt o.slot.val) = true) (split : Bool) :
    exec (.macBlockGrant c false split) s = run s (fun s => s.opBlock c o false) := by
  refine Eq.trans (show _ = execMacBlockGrant c false s split from rfl) (run_congr ?_)
  rintro u o' rfl
  have hpick : arbPick (u.sl c).mac.ptr (u.sl c).macReqs = some 256 := by
    rw [show (u.sl c).macReqs = [256] from hreqs, arbPick_lone]
  have hops : (u.sl c).mac.ops = [o] := hops
  have hgood : slotGood ((u.sl c).slotAt o.slot.val) = true := hgood
  simp [hpick, hops, hgood]

/-- A slice after the engine's turn for the transmit path, with the operations `l` left. -/
def Slice.opTurned (l : List MacOp) (cycles : Nat) (x : Slice) : Slice :=
  { x with mac := { x.mac.turned 256 cycles with ops := l } }

/-- A block that is not the last of its operation. -/
theorem opBlock_more (hops : (s.sl c).mac.ops = [o]) (hmore : 1 < o.left) : s.opBlock c o false =
    s.modSl c (Slice.opTurned [{ o with left := o.left - 1 }] (blockCycles ((s.sl c).slotAt o.slot.val))) := by
  unfold State.opBlock
  rw [hops, macTurn_eq, if_neg (by decide), if_pos hmore]
  dsimp only
  rw [State.modSl_modSl]
  rfl

/-- The last block of a derivation. -/
theorem opBlock_last (hops : (s.sl c).mac.ops = [o]) (hderive : o.derive = some cmd) (hlast : o.left ≤ 1) :
    s.opBlock c o false =
      (s.modSl c (Slice.opTurned [] (blockCycles ((s.sl c).slotAt o.slot.val)))).deriveDone c o.slot cmd := by
  unfold State.opBlock
  rw [hops, macTurn_eq, if_neg (by decide), if_neg (Nat.not_lt.mpr hlast), hderive]
  dsimp only
  rw [State.modSl_modSl]
  rfl

/-- The derived key goes to its target (R250). -/
theorem deriveDone_sl (hunbound : (s.sl c).unbound) (parent : Fin 64) (d : Fin 4) :
    (s.deriveDone c parent cmd).sl d = (s.modSl c (Slice.keyLoaded (Fin.ofNat 64 (u8 cmd.body 1))
      (kdfKey ((s.sl c).slotAt parent.val).key (slice cmd.body 8 (u8 cmd.body 5))
        (slice cmd.body (8 + u8 cmd.body 5) (u8 cmd.body 6)) (u8 cmd.body 2 == 1))
      (u8 cmd.body 2 == 1) (BitVec.ofNat 3 (u8 cmd.body 3)) (BitVec.ofNat 2 (u8 cmd.body 4)))).sl d := by
  unfold State.deriveDone deriveTexts
  dsimp only
  rw [sl_of_offRecord (complete_offRecord ..), loadSlot_unbound hunbound]

end

/-! ### KEY_ERASE (R251) -/

theorem exec_keyErase (c : Fin 4) (s : State) : exec (.keyErase c) s =
    run s (fun s => s.onCommand (localQ c 52) 0x41 fun s cmd => s.keyErase c cmd) := by
  refine Eq.trans (show _ = execKeyErase c s from rfl) (run_congr fun u _ _ => ?_)
  cases h : u.inHand (localQ c 52) 0x41 <;> simp [State.onCommand, h]

theorem keyErase_unbound {s : State} {c : Fin 4} (hup : (s.sl c).up = true) (hunbound : (s.sl c).unbound)
    (cmd : Command) : s.keyErase c cmd = (s.modSl c (Slice.maskWiped (u64 cmd.body 0) 1 true)).finish cmd Status.ok
      (le 8 (u64 cmd.body 0)) := by
  rw [State.keyErase, if_up hup, eraseMask_unbound _ _ _ hunbound]

/-- What an erase by command of the slots of a mask leaves of them. -/
def Slice.keysErased (x : Slice) (mask : Nat) (y : Slice) : Prop := ∀ m, m < 64 →
  let w := x.slotAt m
  let v := y.slotAt m
  if mask.testBit m then v.state = .empty ∧ v.key = List.replicate w.key.length 0 ∧ v.usage = 0 ∧ v.txCounter = 0
    ∧ v.generation = (if w.generation = 0xFFFF then 1 else w.generation + 1) ∧ v.eraseCause = 1
  else v = w

theorem maskWiped_erased (x : Slice) (mask : Nat) (mirror : Bool) : x.keysErased mask (x.maskWiped mask 1 mirror) := by
  intro m hm
  dsimp only
  rw [slotAt_maskWiped _ _ _ x hm]
  split
  next => exact ⟨rfl, rfl, rfl, rfl, rfl, rfl⟩
  next => rfl

/-- KEY_ERASE erases the slots of its mask, and reports. -/
theorem keyErase_erases {s : State} {c : Fin 4} (hup : (s.sl c).up = true) (hunbound : (s.sl c).unbound)
    (cmd : Command) : (s.sl c).keysErased (u64 cmd.body 0) ((s.keyErase c cmd).sl c)
      ∧ ((s.keyErase c cmd).qu cmd.queue).inHand = none ∧ OtherSlices c s (s.keyErase c cmd) := by
  rw [keyErase_unbound hup hunbound]
  refine ⟨?_, finish_inHand .., fun d hd => ?_⟩
  · rw [sl_of_offRecord (finish_offRecord ..), State.sl_modSl]
    exact maskWiped_erased _ _ _
  · rw [sl_of_offRecord (finish_offRecord ..), State.sl_modSl_ne s _ hd]

end Sys2Proof.Machine
end

section
/-! SUPPORT. The key commands of the SX5216 mailbox (R249, R251, R390). -/

namespace Sys2Proof.Machine

open Sys2Proof

/-! ### Bytes and fields -/

theorem ofLe_le (n v : Nat) : ofLe (le n v) = v % 256 ^ n := by
  induction n generalizing v with
  | zero => exact (Nat.mod_one v).symm
  | succ n ih => rw [le, ofLe, ih, Nat.pow_succ', Nat.mod_mul, BitVec.toNat_ofNat]

theorem u64_le (v : Nat) : u64 (le 8 v) 0 = v % 2 ^ 64 :=
  ofLe_le 8 v

theorem u8_cons (b : Byte) (bs : List Byte) : u8 (b :: bs) 0 = b.toNat := by simp [u8, slice, ofLe]

theorem u8_cons_succ (b : Byte) (bs : List Byte) (n : Nat) : u8 (b :: bs) (n + 1) = u8 bs n := rfl

theorem bf_lt (w : Word) (lo n : Nat) : bf w lo n < 2 ^ n := Nat.mod_lt _ (Nat.two_pow_pos n)

/-! ### The command in the mailbox -/

theorem build_eraseKeys {m : Mailbox} (h : bf m.opcode 0 8 = 3) : m.build = some (0x41, le 8 (bf (m.word 0) 0 16)) := by
  simp [Mailbox.build, h]

/-- The KEY_DERIVE body of the mailbox. -/
def Mailbox.deriveBody (m : Mailbox) : List Byte :=
  let a := m.word 0
  let l := bf (m.word 1) 0 8
  let k := bf (m.word 1) 8 8
  le 1 (bf a 0 8) ++ le 1 (bf a 8 8) ++ le 1 (bf a 16 1) ++ le 1 (bf a 24 3) ++ le 1 (bf a 28 2)
    ++ le 1 l ++ le 1 k ++ [0] ++ padTo (alignUp 4 (l + k)) (m.tail.take (l + k))

theorem build_deriveKey {m : Mailbox} (h : bf m.opcode 0 8 = 4) (hok : m.deriveOk = true) :
    m.build = some (0x40, m.deriveBody) := by
  simp [Mailbox.build, h, hok, Mailbox.deriveBody]

theorem u8_deriveBody (m : Mailbox) : u8 m.deriveBody 0 = bf (m.word 0) 0 8 :=
  (u8_cons ..).trans (Nat.mod_eq_of_lt (bf_lt ..))

theorem deriveBody_ok {m : Mailbox} (hok : m.deriveOk = true) (hne : bf (m.word 0) 0 8 ≠ bf (m.word 0) 8 8)
    (huse : 1 ≤ bf (m.word 0) 24 3) (hpos : 1 ≤ bf (m.word 1) 0 8) (hlabel : bf (m.word 1) 0 8 ≤ 32)
    (hcontext : bf (m.word 1) 8 8 ≤ 32) : deriveBodyOk m.deriveBody = true := by
  have hbyte (w : Word) (lo n : Nat) (hn : n ≤ 8) : (BitVec.ofNat 8 (bf w lo n)).toNat = bf w lo n :=
    Nat.mod_eq_of_lt ((bf_lt w lo n).trans_le (Nat.pow_le_pow_right (by decide) hn))
  have haes := bf_lt (m.word 0) 16 1
  have husage := bf_lt (m.word 0) 24 3
  have hleast := bf_lt (m.word 0) 28 2
  simp only [Mailbox.deriveOk, Bool.and_eq_true, decide_eq_true_eq] at hok
  simp only [deriveBodyOk, Mailbox.deriveBody, le, List.cons_append, List.nil_append, u8_cons_succ, u8_cons, hbyte,
    Nat.reduceLeDiff, within, Bool.and_eq_true, decide_eq_true_eq, bne_iff_ne]
  omega

/-- The command that the control queue takes from the mailbox. -/
def mailboxCommand (op : Nat) (b : Nat × List Byte) : Command :=
  { queue := 68, opcode := BitVec.ofNat 8 b.1, tag := BitVec.ofNat 32 (0x52160000 + op), desc := mailboxDesc,
    body := b.2 }

section
variable {s : State} (hgo : s.mailbox.go = true) (hfresh : s.mailbox.taken = false) (hempty : (s.qu 68).inHand = none)
include hgo hfresh hempty

/-- A new command of the mailbox goes to its block when the control queue has nothing in hand. -/
theorem mailboxRun_taken {op : Nat} {b : Nat × List Byte} (hop : bf s.mailbox.opcode 0 8 = op)
    (hbuild : s.mailbox.build = some b) (f : State → Command → State) : s.mailboxRun op f =
      f { s with mailbox := { s.mailbox with taken := true } } (mailboxCommand op b) := by
  have htake : s.mailboxTake op = some (mailboxCommand op b) := by
    simp [State.mailboxTake, hgo, hfresh, hempty, hop, hbuild, mailboxCommand]
  rw [State.mailboxRun, htake]

/-- What holds once the block has taken the mailbox's command holds of the instruction's answer. -/
theorem mailbox_gives {i : Instr} {op : Nat} {b : Nat × List Byte} {f : State → Command → State} {P : State → Prop}
    (he : exec i s = run s (fun s => s.mailboxRun op f)) (hop : bf s.mailbox.opcode 0 8 = op)
    (hbuild : s.mailbox.build = some b)
    (hP : ∀ t o p l, P t → P { t with out := o, qmg := { t.qmg with msixPba := p }, pending := l })
    (h : ∀ u : State, u.slices = s.slices → u.mailbox = { s.mailbox with taken := true } →
      P (f u (mailboxCommand op b))) : Gives i s P := by
  refine run_gives_from he hP ?_
  rintro u o rfl
  rw [mailboxRun_taken (s := u) hgo hfresh hempty hop hbuild]
  exact h _ rfl rfl

end

theorem exec_eraseKeys (s : State) : exec .eraseKeys s =
    run s (fun s => s.mailboxRun 0x03 fun s cmd => s.keyErase 0 cmd) := rfl

theorem exec_deriveKey (s : State) : exec .deriveKey s =
    run s (fun s => s.mailboxRun 0x04 fun s cmd => s.keyDerive 0 cmd false) := rfl

/-! ### ERASE_KEYS and DERIVE_KEY -/

section
variable {s : State} (hgo : s.mailbox.go = true) (hfresh : s.mailbox.taken = false) (hempty : (s.qu 68).inHand = none)
  (hup : (s.sl 0).up = true)
include hgo hfresh hempty hup

theorem eraseKeys_erases (hunbound : (s.sl 0).unbound) (hop : bf s.mailbox.opcode 0 8 = 3) :
    Gives .eraseKeys s (fun t => (s.sl 0).keysErased (bf (s.mailbox.word 0) 0 16) (t.sl 0)
      ∧ t.mailbox.go = false ∧ t.mailbox.status = 0 ∧ OtherSlices 0 s t) := by
  have hmask : u64 (mailboxCommand 3 (0x41, le 8 (bf (s.mailbox.word 0) 0 16))).body 0 = bf (s.mailbox.word 0) 0 16 :=
    (u64_le _).trans (Nat.mod_eq_of_lt ((bf_lt ..).trans (by decide)))
  refine mailbox_gives hgo hfresh hempty (exec_eraseKeys s) hop (build_eraseKeys hop) (fun _ _ _ _ h => h)
    fun u hslices _ => ?_
  have hsl := sl_congr hslices
  have hup' : (u.sl 0).up = true := by rw [hsl]; exact hup
  have hunbound' : (u.sl 0).unbound := by rw [hsl]; exact hunbound
  obtain ⟨herased, -, hothers⟩ := keyErase_erases hup' hunbound'
    (mailboxCommand 3 (0x41, le 8 (bf (s.mailbox.word 0) 0 16)))
  rw [hsl, hmask] at herased
  refine ⟨herased, ?_, ?_, fun d hd => (hothers d hd).trans (hsl d)⟩
  · rw [keyErase_unbound hup' hunbound']
    exact (finish_mailbox _ rfl _ _).1
  · rw [keyErase_unbound hup' hunbound']
    exact (finish_mailbox _ rfl _ _).2

variable (hop : bf s.mailbox.opcode 0 8 = 4) (hok : s.mailbox.deriveOk = true)
  (hbody : deriveBodyOk s.mailbox.deriveBody = true)
  (hgood : slotGood ((s.sl 0).slotAt (bf (s.mailbox.word 0) 0 8)) = true)
include hop hok hbody hgood

theorem deriveKey_empty (h : ((s.sl 0).slotAt (bf (s.mailbox.word 0) 0 8)).state = .empty) :
    Gives .deriveKey s (fun t => t.mailbox.go = false ∧ t.mailbox.status = 0x20 ∧ t.slices = s.slices) := by
  have hparent : u8 (mailboxCommand 4 (0x40, s.mailbox.deriveBody)).body 0 = _ := u8_deriveBody s.mailbox
  refine mailbox_gives hgo hfresh hempty (exec_deriveKey s) hop (build_deriveKey hop hok) (fun _ _ _ _ h => h)
    fun u hslices _ => ?_
  have hsl := sl_congr hslices
  rw [keyDerive_empty (cmd := mailboxCommand 4 (0x40, s.mailbox.deriveBody)) (by rwa [hsl]) false hbody
    (by rwa [hsl, hparent]) (by rwa [hsl, hparent])]
  obtain ⟨hdone, hstatus⟩ := finish_mailbox u
    (cmd := mailboxCommand 4 (0x40, s.mailbox.deriveBody)) rfl Status.keyEmpty []
  exact ⟨hdone, hstatus, (slices_of_offRecord (finish_offRecord ..)).trans hslices⟩

theorem deriveKey_taken (hkey : ((s.sl 0).slotAt (bf (s.mailbox.word 0) 0 8)).state ≠ .empty)
    (huse : ((s.sl 0).slotAt (bf (s.mailbox.word 0) 0 8)).usage.getLsbD 2 = true) (hfree : (s.sl 0).mac.blocked = 0) :
    Gives .deriveKey s (fun t => t.mailbox.go = true ∧ t.mailbox.taken = true
      ∧ (t.sl 0).mac.slots = (s.sl 0).mac.slots ∧ (t.sl 0).mac.ops.length = (s.sl 0).mac.ops.length + 1
      ∧ (∀ o, (t.sl 0).mac.ops.getLast? = some o →
        o.slot.val = bf (s.mailbox.word 0) 0 8 ∧ o.derive.isSome = true)
      ∧ OtherSlices 0 s t) := by
  have hparent : u8 (mailboxCommand 4 (0x40, s.mailbox.deriveBody)).body 0 = _ := u8_deriveBody s.mailbox
  refine mailbox_gives hgo hfresh hempty (exec_deriveKey s) hop (build_deriveKey hop hok) (fun _ _ _ _ h => h)
    fun u hslices hmail => ?_
  have hsl := sl_congr hslices
  rw [keyDerive_taken (cmd := mailboxCommand 4 (0x40, s.mailbox.deriveBody)) (by rwa [hsl]) false hbody
    (by rwa [hsl, hparent]) (by rwa [hsl, hparent]) (by rwa [hsl, hparent]) (by rwa [hsl]), if_neg Bool.false_ne_true]
  refine ⟨(congrArg Mailbox.go hmail).trans hgo, congrArg Mailbox.taken hmail, ?slots, ?queued, fun o ho => ?last,
    fun d hd => (State.sl_modSl_ne _ _ hd).trans (hsl d)⟩
  case slots => rw [State.sl_modSl]; exact congrArg (·.mac.slots) (hsl 0)
  case queued => rw [State.sl_modSl, ← hsl 0]; exact List.length_append
  case last =>
    rw [State.sl_modSl] at ho
    obtain rfl := Option.some.inj (List.getLast?_concat.symm.trans ho)
    exact ⟨(Nat.mod_eq_of_lt (deriveBodyOk_fields hbody).1).trans hparent, rfl⟩

end

end Sys2Proof.Machine
end

section
/-! SUPPORT. The key commands put together (R240, R241, R243, R245, R247 to R251, R390). A parity error that ends
KEY_DERIVE, and the engine's requester 256, are log 83. -/

namespace Sys2Proof.Machine

open Sys2Proof

/-! ### The grant of a derivation's block -/

section
variable {s : State} {c : Fin 4} {o : MacOp} {cmd : Command} (hreqs : (s.sl c).macReqs = [256])
  (hops : (s.sl c).mac.ops = [o]) (hgood : slotGood ((s.sl c).slotAt o.slot.val) = true)
include hreqs hops hgood

theorem macBlockGrant_derivation_more (split : Bool) (hmore : 1 < o.left) :
    Does (.macBlockGrant c false split) s (fun t => t.modSl c (Slice.opTurned [{ o with left := o.left - 1 }]
      (blockCycles ((s.sl c).slotAt o.slot.val)))) := by
  refine run_does_from (exec_macBlockGrant_operation hreqs hops hgood split) ?_
  rintro u o' rfl
  exact opBlock_more (s := u) hops hmore

theorem macBlockGrant_derivation_last (split : Bool) (hunverifying : (s.sl c).unverifying)
    (hderive : o.derive = some cmd) (hbody : deriveBodyOk cmd.body = true) (hlast : o.left ≤ 1) :
    Gives (.macBlockGrant c false split) s (fun t => (t.sl c).mac.ops = []
      ∧ (t.sl c).mac.busy = (s.sl c).mac.busy + blockCycles ((s.sl c).slotAt o.slot.val)
      ∧ s.loadsKey c (u8 cmd.body 1) (kdfKey ((s.sl c).slotAt o.slot.val).key (slice cmd.body 8 (u8 cmd.body 5))
          (slice cmd.body (8 + u8 cmd.body 5) (u8 cmd.body 6)) (u8 cmd.body 2 == 1))
        (u8 cmd.body 3) (u8 cmd.body 4) t) := by
  obtain ⟨-, htarget, huse, hleast⟩ := deriveBodyOk_fields hbody
  refine run_gives_from (exec_macBlockGrant_operation hreqs hops hgood split) (fun _ _ _ _ h => h) ?_
  rintro u o' rfl
  have hturned := State.sl_modSl u c (Slice.opTurned [] (blockCycles ((u.sl c).slotAt o.slot.val)))
  have hunbound : ((u.modSl c (Slice.opTurned [] (blockCycles ((u.sl c).slotAt o.slot.val)))).sl c).unbound := by
    rw [hturned]
    exact ⟨rfl, hunverifying⟩
  have hdone := deriveDone_sl (cmd := cmd) hunbound o.slot
  rw [opBlock_last (s := u) hops hderive hlast]
  have hc := (hdone c).trans (State.sl_modSl ..)
  rw [hturned] at hc
  refine ⟨?_, ?_, loadsKey_of_keyLoaded (y := (u.sl c).opTurned [] (blockCycles ((u.sl c).slotAt o.slot.val)))
    (aes256 := u8 cmd.body 2 == 1) hc rfl rfl rfl (fun d hd => ?_) htarget huse hleast⟩
  · rw [hc, keyLoaded_mac]
    rfl
  · rw [hc, keyLoaded_mac]
    rfl
  · exact (hdone d).trans ((State.sl_modSl_ne _ _ hd).trans (State.sl_modSl_ne _ _ hd))

end

/-- Settles O40, command by command: KEYLOAD, KEY_DERIVE and its blocks, KEY_ERASE, and the mailbox's two. -/
theorem keyCommands : Obligations.KeyCommands := by
  intro s unverifying unbound loaded erased
  refine ⟨fun p h => keyload_rejects p s h,
    fun p c hok hc hpowered hfree hunbound => keyload_loads hok hc hpowered hfree hunbound,
    fun c cmd parity hcmd hup => ?derive, fun c o cmd split hreqs hops hderive hgood hbody => ?block,
    fun c cmd hcmd hup hunbound => ?erase, fun hgo hfresh hempty hup hunbound => ⟨?mailErase, ?mailDerive⟩⟩
  case derive =>
    refine ⟨fun hbody => ?badBody, fun hbody hgood hempty => ?empty, fun hbody hgood hkey huse => ?usage,
      fun hbody hgood hkey huse hfree => ⟨?taken, ?parity⟩⟩
    case badBody =>
      refine command_does (exec_keyDerive c parity s) hcmd ?_
      rintro u o rfl
      exact keyDerive_badBody (s := u) hup parity hbody
    case empty =>
      refine command_does (exec_keyDerive c parity s) hcmd ?_
      rintro u o rfl
      exact keyDerive_empty (s := u) hup parity hbody hgood hempty
    case usage =>
      refine command_does (exec_keyDerive c parity s) hcmd ?_
      rintro u o rfl
      exact keyDerive_usage (s := u) hup parity hbody hgood hkey huse
    case taken =>
      rintro rfl
      refine command_does (exec_keyDerive c false s) hcmd ?_
      rintro u o rfl
      exact (keyDerive_taken (s := u) hup false hbody hgood hkey huse hfree).trans (if_neg Bool.false_ne_true)
    case parity =>
      rintro rfl
      refine command_gives (exec_keyDerive c true s) (fun _ _ _ _ h => h) hcmd ?_
      rintro u o rfl
      rw [keyDerive_taken (s := u) hup true hbody hgood hkey huse hfree, if_pos rfl]
      exact keyBusFault_leaves u c _ _ cmd
  case block =>
    exact ⟨macBlockGrant_derivation_more hreqs hops hgood split,
      fun hlast hunverifying => macBlockGrant_derivation_last hreqs hops hgood split hunverifying hderive hbody hlast⟩
  case erase =>
    refine command_gives (exec_keyErase c s) (fun _ _ _ _ h => h) hcmd ?_
    rintro u o rfl
    exact keyErase_erases (s := u) hup hunbound cmd
  case mailErase => exact eraseKeys_erases hgo hfresh hempty hup hunbound
  case mailDerive =>
    intro hop hok parent hgood hne huse hpos hlabel hcontext
    have hbody := deriveBody_ok hok hne huse hpos hlabel hcontext
    exact ⟨deriveKey_empty hgo hfresh hempty hup hop hok hbody hgood,
      deriveKey_taken hgo hfresh hempty hup hop hok hbody hgood⟩

end Sys2Proof.Machine
end

section
/-! SUPPORT. Changes of a queue of the host port, the message that a queue owes, and the buffer that it hands over
(R277, R278, R296). -/

namespace Sys2Proof.Machine

open Sys2Proof

/-! ### The same machine -/

theorem SameMachine.refl (t : State) : SameMachine t t := ⟨t.out, t.qmg.msixPba, rfl⟩

theorem SameMachine.of_eq {t u : State} (h : t = u) : SameMachine t u := h ▸ SameMachine.refl t

theorem SameMachine.trans {t u v : State} (h : SameMachine t u) (h' : SameMachine u v) : SameMachine t v := by
  obtain ⟨o, p, rfl⟩ := h
  obtain ⟨o', p', rfl⟩ := h'
  exact ⟨o, p, rfl⟩

/-- An effect that emits is the same machine as one that does not. -/
theorem SameMachine.emit (u : State) (o : Output) : SameMachine (u.emit o) u := ⟨u.out ++ [o], u.qmg.msixPba, rfl⟩

/-- A command does what `g` makes where its effect is the same machine as that. -/
theorem run_does_same {i : Instr} {s : State} {f g : State → State} (he : exec i s = run s f)
    (h : ∀ u o, s = { u with out := o } → SameMachine (f u) (g u)) : Does i s g := by
  obtain ⟨o, p, hu⟩ := h { s with out := [] } s.out rfl
  obtain ⟨o', p', hsent⟩ := blockIrqs_shape s (f { s with out := [] })
  refine ⟨_, he, ?_⟩
  rw [hsent, hu]
  exact ⟨o ++ o', p', rfl⟩

/-- `run_gives_from` for what also speaks of the outward effects: later messages only add to them. -/
theorem run_gives_sent {i : Instr} {s : State} {f : State → State} {P : State → Prop} (he : exec i s = run s f)
    (hP : ∀ t o p l, P t → P { t with out := t.out ++ o, qmg := { t.qmg with msixPba := p }, pending := l })
    (h : ∀ u o, s = { u with out := o } → P (f u)) : Gives i s P := by
  obtain ⟨o, p, hsent⟩ := blockIrqs_shape s (f { s with out := [] })
  refine ⟨_, he, ?_⟩
  rw [hsent]
  exact hP (f { s with out := [] }) o p s.pending (h _ s.out rfl)

/-! ### Changes of a queue -/

theorem modQ_congr (s : State) {q : Fin 256} {f g : Queue → Queue} (h : f (s.qu q) = g (s.qu q)) :
    s.modQ q f = s.modQ q g := congrArg (fun k => { s with queues := s.queues.set q.val k q.isLt }) h

/-- A change that leaves the queue as it is leaves everything as it is. -/
theorem modQ_same (s : State) {q : Fin 256} {f : Queue → Queue} (h : f (s.qu q) = s.qu q) : s.modQ q f = s :=
  (modQ_congr s (g := id) h).trans (congrArg (fun v => { s with queues := v }) (set_get_self s.queues q))

theorem modQ_modQ (s : State) (q : Fin 256) (f g : Queue → Queue) :
    (s.modQ q f).modQ q g = s.modQ q (fun k => g (f k)) := by
  rw [State.modQ, State.qu_modQ]
  simp [State.modQ]

/-- Queue number `q`, found again from an offset in its doorbell page or from its index. -/
theorem qn_val (q : Fin 256) : qn q.val = q := Fin.ext (Nat.mod_eq_of_lt q.isLt)

/-! ### The message of a queue (R296) -/

section
variable (s : State) {q : Fin 256}

/-- A queue without IRQ_EN sends nothing and owes nothing. -/
theorem queueIrq_disabled (h : bit (s.qu q).irq 31 = false) : s.queueIrq q = s := if_pos (by rw [h]; rfl)

/-- Before HOLDOFF has passed since the last message, the next one is owed. -/
theorem queueIrq_owes {t : Nat} (hirq : bit (s.qu q).irq 31 = true) (hlast : (s.qu q).irqLast = some t)
    (hwait : s.real < t + 1024 * bf (s.qu q).irq 8 14) :
    s.queueIrq q = s.modQ q (fun k => { k with irqOwed := true }) := by
  unfold State.queueIrq
  simp only [hirq, hlast, usTicks, Nat.mul_comm _ 1024, hwait, Bool.not_true, Bool.false_eq_true, decide_true,
    ↓reduceIte]

/-- Once HOLDOFF has passed, the message goes out. -/
theorem queueIrq_sends {t : Nat} (hirq : bit (s.qu q).irq 31 = true) (hlast : (s.qu q).irqLast = some t)
    (hpast : t + 1024 * bf (s.qu q).irq 8 14 ≤ s.real) :
    SameMachine (s.queueIrq q) (s.modQ q (fun k => { k with irqLast := some s.real, irqOwed := false })) := by
  obtain ⟨o, p, hsent⟩ := sendMsix_shape (bf (s.qu q).irq 0 6)
    (s.modQ q (fun k => { k with irqLast := some s.real, irqOwed := false }))
  refine (SameMachine.of_eq ?_).trans ⟨_, p, hsent⟩
  unfold State.queueIrq
  simp only [hirq, hlast, usTicks, Nat.mul_comm _ 1024, Nat.not_lt.mpr hpast, Bool.not_true, Bool.false_eq_true,
    decide_false, ↓reduceIte]

/-! ### Buffers (R277, R278) -/

/-- A descriptor handed over, without a message: BUF_DONE is set. -/
theorem handOver_quiet (desc status : Nat) (h : bit (s.qu q).irq 31 = false) :
    SameMachine (s.handOver q desc status) (s.modQ q (fun k => { k with events := k.events ||| 1 })) := by
  unfold State.handOver
  dsimp only
  rw [queueIrq_disabled]
  · exact ⟨_, _, rfl⟩
  · rw [State.qu_modQ]
    exact h

theorem closeBuf_none (early : Bool) (h : (s.qu q).buf = none) :
    s.closeBuf q early = s.modQ q (fun k => { k with flush := false }) := by
  rw [State.closeBuf, h]

/-- A buffer that holds records is handed over. -/
theorem closeBuf_handsOver {b : OpenBuf} (early : Bool) (hbuf : (s.qu q).buf = some b) (hrec : 0 < b.nrec)
    (hirq : bit (s.qu q).irq 31 = false) :
    SameMachine (s.closeBuf q early)
      (s.modQ q (fun k => { k with buf := none, flush := false, events := k.events ||| 1 })) := by
  rw [State.closeBuf, hbuf]
  dsimp only
  rw [if_neg (Nat.ne_of_gt hrec)]
  refine (handOver_quiet _ _ _ ?_).trans (SameMachine.of_eq (modQ_modQ ..))
  rw [State.qu_modQ]
  exact hirq

end

end Sys2Proof.Machine
end

section
/-! SUPPORT. The doorbell, and what the host writes to a queue's CTL (R278, R282, R283). -/

namespace Sys2Proof.Machine

open Sys2Proof

/-! ### DOORBELL_PRODUCER (R282) -/

/-- The effect of a write of `size` bytes at offset `a` of BAR2. -/
def State.ringDoorbell (s : State) (a size : Nat) (value : Word) : State :=
  let q := qn (a / 256)
  if size ≠ 4 ∨ a % 4 ≠ 0 then s.recordAccess .bar2 a false
  else if a % 256 ≠ 0 then s
  else if !s.queueActive q || decide (2 ^ bf (s.qu q).ringCfg 0 5 < (value - (s.qu q).cons).toNat) then
    s.modQ q (fun k => { k with events := raise k.events 3 })
  else s.modQ q (fun k => { k with prod := value })

theorem exec_doorbellProducer (o : BitVec 16) (size : Nat) (v : Word) (s : State) :
    exec (.doorbellProducer o size v) s = run s (fun s => s.ringDoorbell o.toNat size v) := rfl

section
variable (s : State) (v : Word) {a : Nat}

theorem ringDoorbell_malformed {size : Nat} (h : size ≠ 4 ∨ a % 4 ≠ 0) :
    (s.ringDoorbell a size v).queues = s.queues := by
  rw [State.ringDoorbell, if_pos h, recordAccess_bar2]

theorem ringDoorbell_beside (h4 : a % 4 = 0) (h : a % 256 ≠ 0) : s.ringDoorbell a 4 v = s := by
  rw [State.ringDoorbell, if_neg (by omega), if_pos h]

/-- At PRODUCER of queue `q`, the queue takes the count or discards it. -/
theorem ringDoorbell_producer {q : Fin 256} (h : a = 256 * q.val) : s.ringDoorbell a 4 v =
    if s.queueActive q = false ∨ 2 ^ bf (s.qu q).ringCfg 0 5 < (v - (s.qu q).cons).toNat then
      s.modQ q (fun k => { k with events := k.events ||| 8 })
    else s.modQ q (fun k => { k with prod := v }) := by
  have hq : qn (a / 256) = q := by rw [h, Nat.mul_div_cancel_left _ (by decide), qn_val]
  rw [State.ringDoorbell, if_neg (by omega), if_neg (by omega)]
  rw [hq]
  exact if_congr (by simp) rfl rfl

end

/-! ### QUEUE_ENABLE, QUEUE_DISABLE and FLUSH (R278, R283) -/

theorem exec_queueEnable (q : Fin 256) (s : State) :
    exec (.queueEnable q) s = run s (fun s => s.qmgWrite (fun s => s.enableQueue q)) := rfl

theorem exec_queueDisable (q : Fin 256) (s : State) :
    exec (.queueDisable q) s = run s (fun s => s.qmgWrite (fun s => s.disableQueue q)) := rfl

theorem exec_flush (q : Fin 256) (s : State) :
    exec (.flush q) s = run s (fun s => s.qmgWrite (fun s => s.flushQueue q)) := rfl

/-- From step 6 of the start-up on, a write to a register of QMG has its effect. -/
theorem qmgWrite_does {i : Instr} {s : State} {f g : State → State} (he : exec i s = run s (fun s => s.qmgWrite f))
    (hready : s.mod.ready = true) (h : ∀ u o, s = { u with out := o } → SameMachine (f u) (g u)) : Does i s g := by
  refine run_does_same he fun u o hu => ?_
  have hu' : u.mod.ready = true := by rw [← hready, hu]
  rw [State.qmgWrite, if_pos hu']
  exact h u o hu

section
variable (s : State) {q : Fin 256}

theorem base_eq_zero_iff (k : Queue) : k.base = 0 ↔ k.ringLo = 0 ∧ k.ringHi = 0 := by
  rw [Queue.base, ← BitVec.toNat_inj, ← BitVec.toNat_inj]
  change _ ↔ k.ringLo.toNat = 0 ∧ k.ringHi.toNat = 0
  omega

theorem enableQueue_enabled (h : (s.qu q).en = true) : s.enableQueue q = s := if_pos h

/-- A queue that is not enabled starts, or is rejected without a ring base or a completion queue. -/
theorem enableQueue_disabled (h : (s.qu q).en = false) : s.enableQueue q =
    if (s.qu q).base = 0 ∨ (queueIsCmd q = true ∧ s.complOk q = false) then
      s.modQ q (fun k => { k with events := k.events ||| 0x20 })
    else s.modQ q (fun k => { k with en := true, prod := 0, cons := 0, peak := k.fill }) := by
  rw [State.enableQueue, if_neg (ne_true_of_eq_false h)]
  exact if_congr (by simp) rfl rfl

theorem disableQueue_disabled (h : (s.qu q).en = false) : s.disableQueue q = s := if_pos (by rw [h]; rfl)

/-- A queue with nothing in transfer and no open buffer stops. -/
theorem disableQueue_idle (hen : (s.qu q).en = true) (hxfer : (s.qu q).xfer = none) (hbuf : (s.qu q).buf = none) :
    s.disableQueue q = s.modQ q (fun k => { k with en := false, flush := false, capWait := false }) := by
  rw [State.disableQueue, if_neg (by rw [hen]; decide), hxfer]
  dsimp only
  rw [closeBuf_none _ _ hbuf, modQ_modQ]
  exact modQ_congr s (by rw [← hbuf])

theorem flushQueue_command (h : queueIsCmd q = true) : s.flushQueue q = s := if_pos h

theorem flushQueue_transfer (hrecords : queueIsCmd q = false) (h : (s.qu q).xfer ≠ none) :
    s.flushQueue q = s.modQ q (fun k => { k with flush := true }) := by
  rw [State.flushQueue, if_neg (ne_true_of_eq_false hrecords), if_pos (Option.isSome_iff_ne_none.mpr h)]

theorem flushQueue_handsOver {b : OpenBuf} (hrecords : queueIsCmd q = false) (hxfer : (s.qu q).xfer = none)
    (hbuf : (s.qu q).buf = some b) (hrec : 0 < b.nrec) (hirq : bit (s.qu q).irq 31 = false) :
    SameMachine (s.flushQueue q)
      (s.modQ q (fun k => { k with buf := none, flush := false, events := k.events ||| 1 })) := by
  rw [State.flushQueue, if_neg (ne_true_of_eq_false hrecords), hxfer, if_neg (by decide)]
  exact closeBuf_handsOver s true hbuf hrec hirq

end

/-! ### FLUSH_US_EXPIRED and IRQ_HOLDOFF_END (R278, R296) -/

/-- A buffer that was opened at `t` is flushed FLUSH_US later. -/
theorem exec_flushUsExpired_opened {q : Fin 256} {s : State} {b : OpenBuf} {t : Nat} (hbuf : (s.qu q).buf = some b)
    (hopened : b.opened = some t) : exec (.flushUsExpired q) s = run s (fun s =>
      if s.qmg.inReset = false ∧ t + 1024 * bf (s.qu q).ringCfg 16 16 ≤ s.real then s.flushQueue q else s) := by
  refine Eq.trans (show _ = execFlushUsExpired q s from rfl) (run_congr ?_)
  rintro u o rfl
  have hbuf' : (u.qu q).buf = some b := hbuf
  rw [hbuf']
  dsimp only
  rw [hopened]
  exact if_congr (by simp [usTicks, Nat.mul_comm]) rfl rfl

theorem exec_irqHoldoffEnd (q : Fin 256) (s : State) :
    exec (.irqHoldoffEnd q) s = run s (fun s => if (s.qu q).irqOwed then s.queueIrq q else s) := rfl

section
variable {q : Fin 256} {s : State}

theorem flushUsExpired_early {b : OpenBuf} {t : Nat} (hbuf : (s.qu q).buf = some b) (hopened : b.opened = some t)
    (h : s.real < t + 1024 * bf (s.qu q).ringCfg 16 16) : Does (.flushUsExpired q) s id := by
  refine run_does_from (exec_flushUsExpired_opened hbuf hopened) ?_
  rintro u o rfl
  exact if_neg fun hdue => Nat.not_le.mpr h hdue.2

theorem irqHoldoffEnd_early {t : Nat} (howed : (s.qu q).irqOwed = true) (hirq : bit (s.qu q).irq 31 = true)
    (hlast : (s.qu q).irqLast = some t) (h : s.real < t + 1024 * bf (s.qu q).irq 8 14) :
    Does (.irqHoldoffEnd q) s id := by
  refine run_does_from (exec_irqHoldoffEnd q s) ?_
  rintro u o rfl
  have howed' : (u.qu q).irqOwed = true := howed
  rw [if_pos howed', queueIrq_owes u hirq hlast h]
  exact modQ_same u (by rw [← howed'])

theorem irqHoldoffEnd_due {t : Nat} (howed : (s.qu q).irqOwed = true) (hirq : bit (s.qu q).irq 31 = true)
    (hlast : (s.qu q).irqLast = some t) (h : t + 1024 * bf (s.qu q).irq 8 14 ≤ s.real) :
    Does (.irqHoldoffEnd q) s
      (fun u => u.modQ q (fun k => { k with irqLast := some s.real, irqOwed := false })) := by
  refine run_does_same (exec_irqHoldoffEnd q s) ?_
  rintro u o rfl
  have howed' : (u.qu q).irqOwed = true := howed
  rw [if_pos howed']
  exact queueIrq_sends u hirq hlast h

end

/-- Settles O43, command by command: DOORBELL_PRODUCER, the three writes of CTL, and the ends of FLUSH_US and of
HOLDOFF. -/
theorem queueControl : Obligations.QueueControl := by
  intro q s
  refine ⟨fun o size v => ⟨fun h => ?malformed, fun h4 h => ?beside, fun hq hactive hroom => ?taken,
      fun hq h => ?discarded⟩,
    fun hready => ⟨fun hen => ?enabled, fun hen hlo hhi => ?noBase, fun hen hbase hcompl => ?starts,
      fun hen hxfer hbuf => ?stops, fun hen => ?disabled, fun hcmd => ?flushCommand, fun hrec hxfer => ?flushLater,
      fun b hrec hxfer hbuf hn hirq => ?flushNow⟩,
    fun b t hbuf hopened => ⟨flushUsExpired_early hbuf hopened, fun hdue hup hrec hxfer hn hirq => ?expired⟩,
    fun howed => ?nothingOwed,
    fun t howed hirq hlast => ⟨irqHoldoffEnd_due howed hirq hlast, irqHoldoffEnd_early howed hirq hlast⟩⟩
  case malformed =>
    refine run_gives_from (exec_doorbellProducer o size v s) (fun _ _ _ _ h => h) ?_
    rintro u w rfl
    exact ringDoorbell_malformed u v h
  case beside =>
    refine run_does_from (exec_doorbellProducer o 4 v s) ?_
    rintro u w rfl
    exact ringDoorbell_beside u v h4 h
  case taken =>
    refine run_does_from (exec_doorbellProducer o 4 v s) ?_
    rintro u w rfl
    refine (ringDoorbell_producer u v hq).trans (if_neg ?_)
    rintro (h | h)
    · exact ne_true_of_eq_false h hactive
    · exact Nat.not_lt.mpr hroom h
  case discarded =>
    refine run_does_from (exec_doorbellProducer o 4 v s) ?_
    rintro u w rfl
    exact (ringDoorbell_producer u v hq).trans (if_pos h)
  case enabled =>
    refine qmgWrite_does (exec_queueEnable q s) hready ?_
    rintro u w rfl
    exact .of_eq (enableQueue_enabled u hen)
  case noBase =>
    refine qmgWrite_does (exec_queueEnable q s) hready ?_
    rintro u w rfl
    exact .of_eq ((enableQueue_disabled u hen).trans (if_pos (.inl ((base_eq_zero_iff _).mpr ⟨hlo, hhi⟩))))
  case starts =>
    refine qmgWrite_does (exec_queueEnable q s) hready ?_
    rintro u w rfl
    refine .of_eq ((enableQueue_disabled u hen).trans (if_neg ?_))
    rintro (h | ⟨hcmd, hno⟩)
    · obtain ⟨hlo, hhi⟩ := (base_eq_zero_iff _).mp h
      exact hbase.elim (· hlo) (· hhi)
    · exact hcompl.elim (fun h => ne_true_of_eq_false h hcmd) (ne_true_of_eq_false hno)
  case stops =>
    refine qmgWrite_does (exec_queueDisable q s) hready ?_
    rintro u w rfl
    exact .of_eq (disableQueue_idle u hen hxfer hbuf)
  case disabled =>
    refine qmgWrite_does (exec_queueDisable q s) hready ?_
    rintro u w rfl
    exact .of_eq (disableQueue_disabled u hen)
  case flushCommand =>
    refine qmgWrite_does (exec_flush q s) hready ?_
    rintro u w rfl
    exact .of_eq (flushQueue_command u hcmd)
  case flushLater =>
    refine qmgWrite_does (exec_flush q s) hready ?_
    rintro u w rfl
    exact .of_eq (flushQueue_transfer u hrec hxfer)
  case flushNow =>
    refine qmgWrite_does (exec_flush q s) hready ?_
    rintro u w rfl
    exact flushQueue_handsOver u hrec hxfer hbuf hn hirq
  case expired =>
    refine run_does_same (exec_flushUsExpired_opened hbuf hopened) ?_
    rintro u w rfl
    rw [if_pos ⟨hup, hdue⟩]
    exact flushQueue_handsOver u hrec hxfer hbuf hn hirq
  case nothingOwed =>
    refine run_does_from (exec_irqHoldoffEnd q s) ?_
    rintro u w rfl
    exact if_neg (ne_true_of_eq_false howed)

end Sys2Proof.Machine
end

section
/-! SUPPORT. Commands of the host, from their descriptor to their COMMAND_DONE (R276, R279 to R281). -/

namespace Sys2Proof.Machine

open Sys2Proof

/-! ### The checks of a command (R280) -/

section
variable (s : State) (q : Fin 256) {op len : Nat} {body : List Byte}

theorem commandCheck_unknown (h : carrier op = none) : s.commandCheck q op len body = some Status.badParam := by
  rw [State.commandCheck, h]

variable {k : Carrier} (hop : carrier op = some k)
include hop

theorem commandCheck_tooLong (h : 8192 < len ∨ len % 4 ≠ 0) : s.commandCheck q op len body = some Status.badParam := by
  rw [State.commandCheck, hop]
  exact if_pos h

variable (hlen : len ≤ 8192) (h4 : len % 4 = 0)
include hlen h4

theorem commandCheck_elsewhere (h : s.carries q k = false) :
    s.commandCheck q op len body = some Status.rejected := by
  rw [State.commandCheck, hop]
  dsimp only
  rw [if_neg (by omega), if_pos (by rw [h]; rfl)]

variable (hcarries : s.carries q k = true)
include hcarries

theorem commandCheck_badLength {n : Nat} (hn : bodyLength op body = some n) (h : len ≠ n) :
    s.commandCheck q op len body = some Status.badParam := by
  rw [State.commandCheck, hop]
  dsimp only
  rw [if_neg (by omega), if_neg (by rw [hcarries]; decide), hn]
  exact if_neg h

theorem commandCheck_passes (h : ∀ n, bodyLength op body = some n → len = n) : s.commandCheck q op len body = none := by
  rw [State.commandCheck, hop]
  dsimp only
  rw [if_neg (by omega), if_neg (by rw [hcarries]; decide)]
  cases hn : bodyLength op body with
  | none => rfl
  | some n => exact if_pos (h n hn)

end

/-! ### COMMAND_FETCH (R279, R280) -/

/-- The command that the next descriptor of queue `q` brings, its body filled up with zeros. -/
def State.nextCommand (s : State) (q : Fin 256) (op : Byte) (tag len : Word) (body : List Byte) : Command :=
  { queue := q, opcode := op, tag := tag, desc := lo32 ((s.qu q).cons.toNat % 2 ^ bf (s.qu q).ringCfg 0 5),
    body := padTo len.toNat body }

/-- One more descriptor of queue `q` is consumed (log entry 19). -/
def State.consumed (s : State) (q : Fin 256) : State := s.modQ q (fun k => { k with cons := k.cons + 1 })

section
variable {q : Fin 256} {op : Byte} {tag len : Word} {body : List Byte} {s : State}

theorem commandFetch_waits (h : s.mayFetch q = false) : Does (.commandFetch q op tag len body) s id := by
  have he : exec (.commandFetch q op tag len body) s = execCommandFetch q op tag len body s := rfl
  refine run_does_from he ?_
  rintro u o rfl
  have h' : u.mayFetch q = false := h
  exact if_pos (by rw [h']; rfl)

/-- A fetched command completes with the code of the check that it fails, and waits in hand where it fails none. -/
theorem exec_commandFetch (hmay : s.mayFetch q = true) :
    exec (.commandFetch q op tag len body) s = run s (fun u =>
      (s.commandCheck q op.toNat len.toNat (padTo len.toNat body)).elim
        ((u.consumed q).modQ q (fun k => { k with inHand := some (s.nextCommand q op tag len body) }))
        (fun st => (u.consumed q).complete (s.nextCommand q op tag len body).ref st [])) := by
  refine Eq.trans (show _ = execCommandFetch q op tag len body s from rfl) (run_congr ?_)
  rintro u o rfl
  have hmay' : u.mayFetch q = true := hmay
  refine (if_neg (by rw [hmay']; decide)).trans ?_
  change _ = (u.commandCheck q op.toNat len.toNat (padTo len.toNat body)).elim _ _
  have hcheck : (u.consumed q).commandCheck q op.toNat len.toNat (padTo len.toNat body)
      = u.commandCheck q op.toNat len.toNat (padTo len.toNat body) := rfl
  unfold State.consumed at hcheck
  dsimp only
  rw [hcheck]
  cases u.commandCheck q op.toNat len.toNat (padTo len.toNat body) with
  | none => rfl
  | some st => rfl

theorem commandFetch_refused {st : Nat} (hmay : s.mayFetch q = true)
    (h : s.commandCheck q op.toNat len.toNat (padTo len.toNat body) = some st) :
    Does (.commandFetch q op tag len body) s
      (fun u => (u.consumed q).complete (s.nextCommand q op tag len body).ref st []) := by
  refine run_does_from (exec_commandFetch hmay) fun u o _ => ?_
  rw [h]
  rfl

theorem commandFetch_takes (hmay : s.mayFetch q = true)
    (h : s.commandCheck q op.toNat len.toNat (padTo len.toNat body) = none) :
    Does (.commandFetch q op tag len body) s
      (fun u => (u.consumed q).modQ q (fun k => { k with inHand := some (s.nextCommand q op tag len body) })) := by
  refine run_does_from (exec_commandFetch hmay) fun u o _ => ?_
  rw [h]
  rfl

end

/-! ### NOP (R280) -/

theorem exec_nop (q : Fin 256) (s : State) : exec (.nop q) s = run s (fun s => s.onCommand q 0x00 fun s cmd =>
    if (s.qu q).outstanding.isEmpty then s.finish cmd Status.ok [] else s.keep cmd) := by
  refine Eq.trans (show _ = execNop q s from rfl) (run_congr fun u _ _ => ?_)
  cases h : u.inHand q 0x00 <;> simp [State.onCommand, h]

/-! ### HELD_COMPLETION_RELEASE (R281) -/

theorem insertEvent_length (n : Option Word) (r : Record) (l : List Staged) :
    (insertEvent n r l).length = l.length + 1 := by
  unfold insertEvent
  simp only [List.length_append, List.length_take, List.length_mapIdx, List.length_cons, List.length_drop]
  omega

/-- Wherever a record is put, staging holds one entry more. -/
theorem stagedWith_length (q : Fin 256) (n : Option Word) (r : Record) (l : List Staged) :
    (stagedWith q n r l).length = l.length + 1 := by
  unfold stagedWith
  split
  · exact insertEvent_length n r l
  · exact List.length_append

theorem qu_exportRec (s : State) (q p : Fin 256) (r : Record) : (s.exportRec q r).qu p = s.qu p :=
  congrArg (Vector.get · p) (exportRec_queues s q r)

theorem enter_staged_length (s : State) (q : Fin 256) (r : Record) :
    ((s.enter q r).qu q).staged.length = (s.qu q).staged.length + 1 := by
  unfold State.enter
  split
  · rw [State.qu_modQ]
    exact stagedWith_length ..
  · have hseq : ((s.takeSeq q).2.qu q).staged = (s.qu q).staged :=
      (congrArg Queue.staged (State.qu_modQ s q fun k => { k with seq := k.seq + 1 }) : _)
    rw [qu_exportRec, State.qu_modQ, ← hseq]
    exact stagedWith_length ..

theorem qu_enter_ne (s : State) (r : Record) {q p : Fin 256} (h : p ≠ q) : (s.enter q r).qu p = s.qu p := by
  unfold State.enter
  split
  · exact State.qu_modQ_ne s _ h
  · rw [qu_exportRec]
    exact (State.qu_modQ_ne _ _ h).trans (State.qu_modQ_ne s _ h)

section
variable {q : Fin 256} {s : State} {r : Record} {rest : List Record}

theorem exec_heldCompletionRelease (h : (s.qu q).held = r :: rest) :
    exec (.heldCompletionRelease q) s = run s (fun s =>
      if s.queueDeclared (s.complQueue q) && !queueIsCmd (s.complQueue q) && (s.qu (s.complQueue q)).fits r.size then
        (s.modQ q (fun k => { k with held := rest })).enter (s.complQueue q) r
      else s) := by
  refine Eq.trans (show _ = execHeldCompletionRelease q s from rfl) (run_congr ?_)
  rintro u o rfl
  have h' : (u.qu q).held = r :: rest := h
  dsimp only
  rw [h']

theorem heldCompletionRelease_enters (h : (s.qu q).held = r :: rest)
    (hdeclared : s.queueDeclared (s.complQueue q) = true) (hrecords : queueIsCmd (s.complQueue q) = false)
    (hfits : (s.qu (s.complQueue q)).fits r.size = true) (hne : s.complQueue q ≠ q) :
    Gives (.heldCompletionRelease q) s (fun t => (t.qu q).held = rest
      ∧ (t.qu (s.complQueue q)).staged.length = (s.qu (s.complQueue q)).staged.length + 1 ∧ t.slices = s.slices) := by
  refine run_gives_from (exec_heldCompletionRelease h) (fun _ _ _ _ h => h) ?_
  rintro u o rfl
  have hroom : (u.queueDeclared (u.complQueue q) && !queueIsCmd (u.complQueue q)
      && (u.qu (u.complQueue q)).fits r.size) = true :=
    (Bool.and_eq_true ..).mpr ⟨(Bool.and_eq_true ..).mpr ⟨hdeclared, congrArg not hrecords⟩, hfits⟩
  rw [if_pos hroom]
  have hne' : u.complQueue q ≠ q := hne
  refine ⟨?_, ?_, slices_of_offRecord (enter_offRecord ..)⟩
  · rw [qu_enter_ne _ _ hne'.symm, State.qu_modQ]
  · exact (enter_staged_length ..).trans (congrArg (fun k : Queue => k.staged.length + 1) (State.qu_modQ_ne u _ hne'))

theorem heldCompletionRelease_waits (h : (s.qu q).held = r :: rest)
    (hfull : (s.qu (s.complQueue q)).fits r.size = false) : Does (.heldCompletionRelease q) s id := by
  refine run_does_from (exec_heldCompletionRelease h) ?_
  rintro u o rfl
  have hfull' : (u.qu (u.complQueue q)).fits r.size = false := hfull
  exact if_neg (by rw [hfull', Bool.and_false]; decide)

end

/-- Settles O45: a COMMAND_FETCH check by check, NOP with nothing outstanding and with something, a held completion
with room and without. That CONSUMER moves at the fetch is log entry 19, that a waiting NOP is itself outstanding log
entry 88. -/
theorem commandsOfTheHost : Obligations.CommandsOfTheHost := by
  intro q s
  refine ⟨fun op tag len body => ⟨commandFetch_waits, fun hmay => ⟨fun hop => ?unknown, fun k hop =>
      ⟨fun hlong => ?tooLong, fun hlen h4 helse => ?elsewhere, fun hlen h4 hcarries =>
        ⟨fun n hn hne => ?badLength, fun hbody => ?passes⟩⟩⟩⟩,
    fun cmd hcmd => ⟨fun hnone => ?nopDone, fun hsome => ?nopWaits⟩,
    fun r rest hheld => ⟨heldCompletionRelease_enters hheld, heldCompletionRelease_waits hheld⟩⟩
  case unknown => exact commandFetch_refused hmay (commandCheck_unknown s q hop)
  case tooLong => exact commandFetch_refused hmay (commandCheck_tooLong s q hop hlong)
  case elsewhere => exact commandFetch_refused hmay (commandCheck_elsewhere s q hop hlen h4 helse)
  case badLength => exact commandFetch_refused hmay (commandCheck_badLength s q hop hlen h4 hcarries hn hne)
  case passes => exact commandFetch_takes hmay (commandCheck_passes s q hop hlen h4 hcarries hbody)
  case nopDone =>
    refine command_does (exec_nop q s) hcmd ?_
    rintro u o rfl
    exact if_pos (List.isEmpty_iff.mpr hnone)
  case nopWaits =>
    refine command_does (exec_nop q s) hcmd ?_
    rintro u o rfl
    exact if_neg fun h => hsome (List.isEmpty_iff.mp h)

end Sys2Proof.Machine
end

section
/-! SUPPORT. Descriptors and errors of the link (R272, R277). -/

namespace Sys2Proof.Machine

open Sys2Proof

/-! ### DESCRIPTOR_FETCH (R277) -/

/-- A descriptor that the queue may use (R277). -/
def descriptorOk (a : DWord) (len : Word) : Prop :=
  a.toNat % 64 = 0 ∧ len.toNat % 64 = 0 ∧ 16384 ≤ len.toNat ∧ len.toNat ≤ 4194304

/-- The open buffer that a descriptor of ring entry `desc` brings. -/
def openedBuf (a : DWord) (len : Word) (desc : Nat) : OpenBuf :=
  { addr := a.toNat, len := len.toNat, desc := desc, used := 0, opened := none, nrec := 0, firstSeq := none,
    firstTs := 0, srcs := [], lastSeq := 0 }

section
variable {q : Fin 256} {s : State} (hup : s.qmg.inReset = false) (hrecords : queueIsCmd q = false)
  (hactive : s.queueActive q = true) (hbuf : (s.qu q).buf = none) (hposted : (s.qu q).prod ≠ (s.qu q).cons)
  {a : DWord} {len : Word}
include hup hrecords hactive hbuf hposted

/-- A record queue with a posted descriptor and no open buffer takes the descriptor: log entry 19. -/
theorem exec_descriptorFetch_takes : exec (.descriptorFetch q a len) s = run s (fun s =>
    if a.toNat % 64 ≠ 0 ∨ len.toNat % 64 ≠ 0 ∨ len.toNat < 16384 ∨ 4194304 < len.toNat then
      ((s.consumed q).modQ q (fun k => { k with events := k.events ||| 4 })).handOver q
        ((s.qu q).cons.toNat % 2 ^ bf (s.qu q).ringCfg 0 5) (2 ^ 31 + 2 ^ 29)
    else (s.consumed q).modQ q (fun k => { k with
      buf := some (openedBuf a len ((s.qu q).cons.toNat % 2 ^ bf (s.qu q).ringCfg 0 5)) })) := by
  refine Eq.trans (show _ = execDescriptorFetch q a len s from rfl) (run_congr ?_)
  rintro u o rfl
  have hactive' : u.queueActive q = true := hactive
  have hbuf' : (u.qu q).buf = none := hbuf
  have hposted' : ((u.qu q).prod == (u.qu q).cons) = false := beq_false_of_ne hposted
  have hup' : u.qmg.inReset = false := hup
  refine if_neg ?_
  rw [hup', hrecords, hactive', hbuf', hposted']
  decide

theorem descriptorFetch_opens (h : descriptorOk a len) :
    Does (.descriptorFetch q a len) s (fun s => s.modQ q (fun k => { k with
      cons := k.cons + 1, buf := some (openedBuf a len (k.cons.toNat % 2 ^ bf k.ringCfg 0 5)) })) := by
  refine run_does_from (exec_descriptorFetch_takes hup hrecords hactive hbuf hposted) ?_
  rintro u o rfl
  obtain ⟨haddr, hlen, hmin, hmax⟩ := h
  rw [if_neg (by omega)]
  exact (modQ_modQ ..).trans (modQ_congr u rfl)

/-- A descriptor that is misaligned or out of range is handed back at once. -/
theorem descriptorFetch_refused (h : ¬ descriptorOk a len) (hirq : bit (s.qu q).irq 31 = false) :
    Does (.descriptorFetch q a len) s
      (fun s => s.modQ q (fun k => { k with cons := k.cons + 1, events := k.events ||| 5 })) := by
  refine run_does_same (exec_descriptorFetch_takes hup hrecords hactive hbuf hposted) ?_
  rintro u o rfl
  rw [if_pos (by unfold descriptorOk at h; omega)]
  refine (handOver_quiet _ _ _ ?_).trans (.of_eq ?_)
  · rw [State.qu_modQ, State.consumed, State.qu_modQ]
    exact hirq
  · rw [State.consumed, modQ_modQ, modQ_modQ]
    refine modQ_congr u ?_
    dsimp only
    rw [BitVec.or_assoc]
    rfl

end

/-! ### DMA_READ_ERROR and POISONED_WRITE (R272) -/

/-- An event bit set under a condition. -/
theorem ite_raise (b : Bool) (w : Word) (i : Nat) :
    (if b then raise w i else w) = w ||| (if b then BitVec.ofNat 32 (2 ^ i) else 0) := by
  cases b
  · exact BitVec.or_zero.symm
  · rfl

/-- A failed read stops a queue with nothing in transfer and no open buffer. -/
theorem dmaReadError_stops {q : Fin 256} {s : State} (timeout ecrc : Bool) (hup : s.qmg.inReset = false)
    (hactive : s.queueActive q = true) (hxfer : (s.qu q).xfer = none) (hbuf : (s.qu q).buf = none) :
    Does (.dmaReadError q timeout ecrc) s (fun s =>
      let t := s.modQ q (fun k => { k with
        en := false, flush := false, capWait := false, events := k.events ||| 0x10,
        inHand := k.inHand.filter (fun c => c.desc == 0xFFFFFFFF) })
      { t with qmg := { t.qmg with
        events := (s.qmg.events ||| (if timeout then 2 else 0)) ||| (if ecrc then 4 else 0) } }) := by
  have he : exec (.dmaReadError q timeout ecrc) s = execDmaReadError q timeout ecrc s := rfl
  refine run_does_same he ?_
  rintro u o rfl
  have hup' : u.qmg.inReset = false := hup
  have hactive' : u.queueActive q = true := hactive
  have hen : (u.qu q).en = true := ((Bool.and_eq_true ..).mp hactive').2
  dsimp only
  rw [if_neg (by rw [hup', hactive']; decide)]
  refine (SameMachine.emit ..).trans (.of_eq ?_)
  rw [disableQueue_idle u hen hxfer hbuf, modQ_modQ, ite_raise, ite_raise]
  rfl

theorem exec_poisonedWrite (ecrc : Bool) (s : State) : exec (.poisonedWrite ecrc) s = execPoisonedWrite ecrc s := rfl

theorem poisonedWrite_poisoned (s : State) : Does (.poisonedWrite false) s id := by
  refine run_does_same (exec_poisonedWrite false s) ?_
  rintro u o rfl
  exact SameMachine.emit ..

theorem poisonedWrite_ecrc (s : State) :
    Does (.poisonedWrite true) s (fun s => { s with qmg := { s.qmg with events := s.qmg.events ||| 4 } }) := by
  refine run_does_same (exec_poisonedWrite true s) ?_
  rintro u o rfl
  exact SameMachine.emit ..

end Sys2Proof.Machine
end

section
/-! SUPPORT. The DMA arbiter with one queue that asks (R294, R295): it moves one TLP of the record in transfer. -/

namespace Sys2Proof.Machine

open Sys2Proof

/-! ### The window of the raw-sample cap (R295) -/

theorem get_vmap {α β : Type} {n : Nat} (f : α → β) (v : Vector α n) (i : Fin n) : (vmap f v).get i = f (v.get i) := by
  change (vmap f v)[i.val] = f v[i.val]
  simp [vmap]

theorem exec_rawCapWindow (s : State) : exec .rawCapWindow s = run s (fun s => s.rollCap) := rfl

theorem rollCap_same {s : State} (h : s.tb / 1024000 = s.qmg.rawWindow) : s.rollCap = s := if_pos h

theorem rollCap_new {s : State} (h : s.tb / 1024000 ≠ s.qmg.rawWindow) : s.rollCap = { s with
    qmg := { s.qmg with rawWindow := s.tb / 1024000, rawUsed := 0 },
    queues := vmap (fun k => { k with capWait := false }) s.queues } := if_neg h

/-- What a new window changes of the host port: its own count, and which queues wait for the cap. -/
theorem rollCap_shape (s : State) : ∃ w n v,
    s.rollCap = { s with qmg := { s.qmg with rawWindow := w, rawUsed := n }, queues := v }
      ∧ ∀ p, ∃ b, v.get p = { s.qu p with capWait := b } := by
  by_cases h : s.tb / 1024000 = s.qmg.rawWindow
  · exact ⟨s.qmg.rawWindow, s.qmg.rawUsed, s.queues, rollCap_same h, fun p => ⟨(s.qu p).capWait, rfl⟩⟩
  · exact ⟨_, _, _, rollCap_new h, fun p => ⟨false, get_vmap ..⟩⟩

section
variable (s : State) (p : Fin 256)

theorem qu_rollCap : ∃ b, s.rollCap.qu p = { s.qu p with capWait := b } := by
  obtain ⟨w, n, v, h, hv⟩ := rollCap_shape s
  rw [h]
  exact hv p

theorem rollCap_slices : s.rollCap.slices = s.slices := by
  obtain ⟨w, n, v, h, -⟩ := rollCap_shape s
  rw [h]

theorem rollCap_mps : s.rollCap.qmg.mps = s.qmg.mps := by
  obtain ⟨w, n, v, h, -⟩ := rollCap_shape s
  rw [h]

theorem rollCap_roundClass : s.rollCap.qmg.roundClass = s.qmg.roundClass := by
  obtain ⟨w, n, v, h, -⟩ := rollCap_shape s
  rw [h]

theorem rollCap_queueClass : s.rollCap.queueClass p = s.queueClass p := by
  obtain ⟨w, n, v, h, -⟩ := rollCap_shape s
  rw [h]
  rfl

theorem rollCap_full : (s.rollCap.qu p).full = (s.qu p).full := by
  obtain ⟨b, h⟩ := qu_rollCap s p
  rw [h]
  rfl

theorem rollCap_wantsDma : s.rollCap.wantsDma p = s.wantsDma p := by
  obtain ⟨w, n, v, h, hv⟩ := rollCap_shape s
  obtain ⟨b, hb⟩ := hv p
  have hq : s.rollCap.qu p = { s.qu p with capWait := b } := by rw [h]; exact hb
  have hd : s.rollCap.queueDeclared p = s.queueDeclared p := by rw [h]; rfl
  simp only [State.wantsDma, State.queueActive, State.queueExists, hq, hd]
  rfl

end

/-! ### One queue that asks (R27, R294) -/

theorem allQueues_eq : allQueues = List.finRange 256 := by
  refine List.ext_getElem (by simp [allQueues]) fun i h _ => ?_
  simp only [allQueues, List.getElem_map, List.getElem_range, List.getElem_finRange]
  exact qn_val ⟨i, by simpa [allQueues] using h⟩

/-- Of all queues, those equal to `q` are `q` alone. -/
theorem filter_allQueues (q : Fin 256) : allQueues.filter (fun p => p == q) = [q] := by
  rw [allQueues_eq, List.filter_beq, List.count_eq_one_of_mem (List.nodup_finRange 256) (List.mem_finRange q)]
  rfl

/-- The arbiter after a grant to queue `q`. -/
def State.dmaGranted (s : State) (q : Fin 256) : Qmg :=
  let k := s.queueClass q
  { s.qmg with
    roundClass := k, dmaPtr := vmod s.qmg.dmaPtr k (fun _ => arbNext 256 q.val),
    roundUsed := if k = s.qmg.roundClass ∧ s.qmg.roundUsed < s.qmg.weight k then s.qmg.roundUsed + 1 else 1,
    rawUsed := if k = 2 then s.qmg.rawUsed + s.nextTlp q else s.qmg.rawUsed }

/-- Where no record is too long for the open buffer of its queue, no buffer closes. -/
theorem closeFull_none {s : State} (h : ∀ p, (s.qu p).full = false) : s.closeFull = s :=
  List.foldl_fixed' (fun p => if_neg (by rw [h p, Bool.and_false]; decide)) _

section
variable {s : State} {q : Fin 256} (hwants : ∀ p, s.wantsDma p = decide (p = q)) (hclass : s.queueClass q < 2)
include hwants hclass

theorem capped_lone : s.capped = [] := by
  refine List.filter_eq_nil_iff.mpr fun p _ => ?_
  rw [hwants p]
  by_cases hp : p = q
  · subst hp
    simp [Nat.ne_of_lt hclass]
  · simp [hp]

theorem markCapped_lone : s.markCapped = s := by
  rw [State.markCapped, capped_lone hwants hclass]
  rfl

/-- Only in the class of `q` a queue asks, and that is `q`. -/
theorem dmaReqs_lone (k : Nat) : s.dmaReqs k = if k = s.queueClass q then [q.val] else [] := by
  have hfilter : ∀ p ∈ allQueues, ((k != 2 || decide (s.qmg.rawUsed + s.nextTlp p ≤ bf s.qmg.rawCap 0 11 * 1000))
      && (s.wantsDma p && s.queueClass p == k)) = (decide (k = s.queueClass q) && (p == q)) := by
    intro p _
    rw [hwants p]
    by_cases hp : p = q
    · subst hp
      by_cases hk : k = s.queueClass p
      · subst hk
        simp [Nat.ne_of_lt hclass]
      · simp [hk, Ne.symm hk]
    · simp [hp]
  rw [State.dmaReqs, List.filter_filter, List.filter_congr hfilter]
  split
  next hk => simp [hk, filter_allQueues]
  next hk => simp [hk]

/-- The round comes to the class of `q`. -/
theorem dmaClass_lone (hround : s.qmg.roundClass < 3) : s.dmaClass = some (s.queueClass q) := by
  have hcan (k : Nat) : (!(s.dmaReqs k).isEmpty) = decide (k = s.queueClass q) := by
    rw [dmaReqs_lone hwants hclass]
    by_cases hk : k = s.queueClass q <;> simp [hk]
  rw [State.dmaClass]
  simp only [hcan]
  split
  next h =>
    obtain ⟨-, hr⟩ := (Bool.and_eq_true ..).mp h
    rw [of_decide_eq_true hr]
  next =>
    have hmem : s.queueClass q ∈ [(s.qmg.roundClass + 1) % 3, (s.qmg.roundClass + 2) % 3, s.qmg.roundClass] := by
      simp only [List.mem_cons, List.not_mem_nil, or_false]
      omega
    obtain ⟨k, hk⟩ := Option.isSome_iff_exists.mp
      ((List.find?_isSome (p := fun k => decide (k = s.queueClass q))).mpr ⟨_, hmem, decide_eq_true rfl⟩)
    rw [hk, of_decide_eq_true (List.find?_some (p := fun k => decide (k = s.queueClass q)) hk)]

/-- The grant goes to `q`; its record in transfer moves on by one TLP. -/
theorem grantDma_lone (hround : s.qmg.roundClass < 3) (hxfer : (s.qu q).xfer ≠ none) :
    s.grantDma = ({ s with qmg := s.dmaGranted q } : State).moveBytes q s.qmg.mps := by
  rw [State.grantDma, dmaClass_lone hwants hclass hround]
  dsimp only
  rw [dmaReqs_lone hwants hclass, if_pos rfl, arbPick_lone]
  dsimp only
  rw [qn_val]
  exact congrArg (State.moveBytes · q s.qmg.mps) (if_neg fun h => hxfer (Option.isNone_iff_eq_none.mp h))

end

/-- The transfer of a record after one TLP of `n` bytes. -/
def Xfer.moved (x : Xfer) (n : Nat) : Xfer := { x with addr := x.addr + n, left := x.left.drop n }

/-- At most `n` bytes of a record that has more left go to the host. -/
theorem moveBytes_part {s : State} {q : Fin 256} {x : Xfer} (hxfer : (s.qu q).xfer = some x) {n : Nat}
    (hn : n < x.left.length) :
    s.moveBytes q n = { (s.emit (.hostWrite x.addr (x.left.take n))).modQ q (fun k => { k with
      xfer := some (x.moved n) }) with
      qmg := s.qmg.countBytes (s.queueClass q) (x.left.take n).length } := by
  rw [State.moveBytes, hxfer]
  dsimp only
  rw [if_neg (Nat.not_le.mpr hn)]
  rfl

/-- No buffer closes while a record is in transfer to it. -/
theorem full_transferring {k : Queue} {x : Xfer} (h : k.xfer = some x) : k.full = false := by
  rw [Queue.full, h]
  cases k.buf <;> rfl

/-- One TLP of the record `x` in transfer to queue `q` has gone to the host. -/
def State.tlpMoved (s : State) (q : Fin 256) (x : Xfer) : State :=
  { (s.emit (.hostWrite x.addr (x.left.take s.qmg.mps))).modQ q (fun k => { k with
      xfer := some (x.moved s.qmg.mps) }) with
    qmg := (s.dmaGranted q).countBytes (s.queueClass q) (x.left.take s.qmg.mps).length }

section
variable {s : State} {q : Fin 256} {x : Xfer}

theorem qu_tlpMoved : (s.tlpMoved q x).qu q = { s.qu q with xfer := some (x.moved s.qmg.mps) } :=
  State.qu_modQ s q (fun k => { k with xfer := some (x.moved s.qmg.mps) })

theorem qu_tlpMoved_ne {p : Fin 256} (h : p ≠ q) : (s.tlpMoved q x).qu p = s.qu p :=
  State.qu_modQ_ne s (fun k => { k with xfer := some (x.moved s.qmg.mps) }) h

/-- With one queue in transfer and no buffer full, one TLP of that queue moves and nothing else but the arbiter. -/
theorem transfer_lone (hwants : ∀ p, s.wantsDma p = decide (p = q)) (hclass : s.queueClass q < 2)
    (hround : s.qmg.roundClass < 3) (hfull : ∀ p, (s.qu p).full = false) (hxfer : (s.qu q).xfer = some x)
    (hlong : s.qmg.mps < x.left.length) : s.closeFull.markCapped.grantDma.closeFull = s.tlpMoved q x := by
  have hgrant : s.grantDma = s.tlpMoved q x :=
    (grantDma_lone hwants hclass hround (by rw [hxfer]; exact Option.some_ne_none x)).trans
      (moveBytes_part (s := { s with qmg := s.dmaGranted q }) hxfer hlong)
  rw [closeFull_none hfull, markCapped_lone hwants hclass, hgrant]
  refine closeFull_none fun p => ?_
  by_cases hp : p = q
  · rw [hp, qu_tlpMoved]
    exact full_transferring rfl
  · rw [qu_tlpMoved_ne hp]
    exact hfull p

theorem dmaGrant_moves (hup : s.qmg.inReset = false) (hxfer : (s.qu q).xfer = some x)
    (hlong : s.qmg.mps < x.left.length) (hclass : s.queueClass q < 2) (hround : s.qmg.roundClass < 3)
    (hwants : ∀ p, s.wantsDma p = decide (p = q)) (hfull : ∀ p, (s.qu p).full = false) :
    Gives .dmaGrant s (fun t => (t.qu q).xfer = some (x.moved s.qmg.mps)
      ∧ Output.hostWrite x.addr (x.left.take s.qmg.mps) ∈ t.out
      ∧ (∀ p, p ≠ q → { t.qu p with capWait := false } = { s.qu p with capWait := false })
      ∧ vget t.qmg.dmaPtr (s.queueClass q) 0 = (q.val + 1) % 256 ∧ t.qmg.roundClass = s.queueClass q
      ∧ t.slices = s.slices) := by
  have he : exec .dmaGrant s = execDmaGrant s := rfl
  refine run_gives_sent he (fun _ o _ _ ⟨hx, hout, hrest⟩ => ⟨hx, List.mem_append_left o hout, hrest⟩) ?_
  rintro u o rfl
  have hup' : u.qmg.inReset = false := hup
  rw [if_neg (ne_true_of_eq_false hup')]
  have hxfer' : (u.rollCap.qu q).xfer = some x := by
    obtain ⟨b, hb⟩ := qu_rollCap u q
    rw [hb]
    exact hxfer
  have hcls : u.rollCap.queueClass q = u.queueClass q := rollCap_queueClass u q
  have htransfer := transfer_lone (s := u.rollCap) (fun p => (rollCap_wantsDma u p).trans (hwants p))
    (by rw [hcls]; exact hclass) (by rw [rollCap_roundClass]; exact hround)
    (fun p => (rollCap_full u p).trans (hfull p)) hxfer' (by rw [rollCap_mps]; exact hlong)
  have hmps : u.rollCap.qmg.mps = u.qmg.mps := rollCap_mps u
  rw [htransfer, qu_tlpMoved]
  refine ⟨congrArg (fun n => some (x.moved n)) hmps, List.mem_append_right _ (List.mem_singleton.mpr ?_),
    fun p hp => ?_, ?_, hcls, rollCap_slices u⟩
  · rw [hmps]
  · obtain ⟨b, hb⟩ := qu_rollCap u p
    rw [qu_tlpMoved_ne hp, hb]
    rfl
  · refine Eq.trans (congrArg (vget _ · 0) hcls.symm) ?_
    exact vget_vmod_same _ _ _ (by rw [hcls]; exact Nat.lt_trans hclass (by decide))

end

end Sys2Proof.Machine
end

section
/-! SUPPORT. The host port reset (R273), and the errors and transfers of the link: the statement. -/

namespace Sys2Proof.Machine

open Sys2Proof

/-! ### What a queue keeps (R273) -/

theorem get_vmapIdx {α β : Type} {n : Nat} (f : Nat → α → β) (v : Vector α n) (i : Fin n) :
    (vmapIdx f v).get i = f i.val (v.get i) := by
  change (vmapIdx f v)[i.val] = f i.val v[i.val]
  simp [vmapIdx]

section
variable (k : Queue) (q : Fin 256) (old : Bool) (now : Nat)

theorem recall_idle (h : k.xfer = none) : k.recall old = k := by rw [Queue.recall, h]

/-- A record in transfer goes back to staging or beside it, and the commands in progress stay. -/
theorem recall_commands : (k.recall old).outstanding = k.outstanding ∧ (k.recall old).held = k.held := by
  unfold Queue.recall
  split
  · exact ⟨rfl, rfl⟩
  · split
    · exact ⟨rfl, rfl⟩
    · split <;> exact ⟨rfl, rfl⟩

/-- A reset stops a queue and keeps what is outstanding and held. -/
theorem hostReset_stops : let m := k.hostReset q old now
    m.en = false ∧ m.prod = 0 ∧ m.cons = 0 ∧ m.buf = none ∧ m.xfer = none ∧ m.outstanding = k.outstanding
      ∧ m.held = k.held := by
  obtain ⟨hout, hheld⟩ := recall_commands k old
  exact ⟨rfl, rfl, rfl, rfl, rfl, hout, hheld⟩

variable {k}

theorem hostReset_seq (h : k.xfer = none) : (k.hostReset q old now).seq = k.seq := by
  rw [Queue.hostReset, recall_idle k old h]

/-- Without an open buffer no record is lost: what `recall` leaves staged stays. -/
theorem hostReset_unopened (h : (k.recall old).buf = none) :
    (k.hostReset q old now).staged = (k.recall old).staged
      ∧ (k.hostReset q old now).headShed = (k.recall old).headShed := by
  unfold Queue.hostReset
  dsimp only
  rw [h]
  exact ⟨rfl, rfl⟩

/-- An abandoned buffer that holds records leaves a SHED record beside the head of staging, before one that stands
there. -/
theorem hostReset_abandons {b : OpenBuf} (h : (k.recall old).buf = some b) (hrec : 0 < b.nrec) :
    (k.hostReset q old now).staged = (k.recall old).headShed.toList ++ (k.recall old).staged
      ∧ (k.hostReset q old now).headShed.isSome = true := by
  unfold Queue.hostReset
  dsimp only
  rw [h]
  simp only [Nat.ne_of_gt hrec, ↓reduceIte]
  exact ⟨rfl, rfl⟩

/-- The record in transfer of a DROP_NEW queue stands at the head of staging again. -/
theorem recall_staged {x : Xfer} (h : k.xfer = some x) (hhead : x.head = false) :
    (k.recall false).staged = x.entry :: k.staged ∧ (k.recall false).buf = k.buf := by
  unfold Queue.recall
  rw [h]
  dsimp only
  rw [hhead]
  exact ⟨rfl, rfl⟩

end

/-! ### HOST_PORT_RESET and HOST_PORT_RESET_EXIT (R273) -/

/-- The effect of a host port reset. -/
def State.hostPortReset (s : State) : State :=
  { s with
    qmg := { Qmg.reset with hostResets := BitVec.ofNat 32 (count 16 1 s.qmg.hostResets.toNat) },
    queues := vmapIdx (fun i k => k.hostReset (qn i) (s.queueOld (qn i)) s.tb) s.queues }

theorem exec_hostPortReset {s : State} (h : s.qmg.inReset = false) :
    exec .hostPortReset s = run s State.hostPortReset := by
  refine Eq.trans (show _ = execHostPortReset s from rfl) (run_congr ?_)
  rintro u o rfl
  exact if_neg (ne_true_of_eq_false h)

theorem qu_hostPortReset (s : State) (q : Fin 256) :
    s.hostPortReset.qu q = (s.qu q).hostReset q (s.queueOld q) s.tb := by
  refine (get_vmapIdx ..).trans ?_
  rw [qn_val]
  rfl

theorem hostResets_counted (s : State) :
    s.hostPortReset.qmg.hostResets.toNat = min (s.qmg.hostResets.toNat + 1) 0xFFFF := by
  change (BitVec.ofNat 32 (min (s.qmg.hostResets.toNat + 1) (2 ^ 16 - 1))).toNat = _
  rw [BitVec.toNat_ofNat]
  omega

/-- The port leaves its reset with the link that trained. -/
theorem hostPortResetExit_trained {s : State} {width speed mps : Nat} (h : s.qmg.inReset = true)
    (hwidth : width ∈ [1, 2, 4]) (hspeed : speed ∈ [1, 2]) (hmps : mps ∈ [128, 256]) :
    Does (.hostPortResetExit width speed mps) s (fun s => { s with qmg := { s.qmg with
      inReset := false, linkUp := true, linkWidth := width, linkSpeed := speed, mps := mps,
      events := s.qmg.events ||| 1 } }) := by
  have he : exec (.hostPortResetExit width speed mps) s = execHostPortResetExit width speed mps s := rfl
  refine run_does_from he ?_
  rintro u o rfl
  exact if_pos ⟨h, hwidth, hspeed, hmps⟩

/-- Settles O44: a descriptor that opens a buffer and one that is refused; a grant of the arbiter; the window of the
cap; the errors of the link; and the reset of the host port and its end. That a record descriptor is consumed when its buffer
opens is log entry 19; TLP moves and transfers that go back are log entries 22 and 23. -/
theorem dmaAndLinkErrors : Obligations.DmaAndLinkErrors := by
  intro q s
  refine ⟨fun hup hrec hactive hbuf hposted a len =>
      ⟨descriptorFetch_opens hup hrec hactive hbuf hposted, descriptorFetch_refused hup hrec hactive hbuf hposted⟩,
    fun x hup hxfer hlong _ hclass hround hwants hfull =>
      dmaGrant_moves hup hxfer hlong hclass hround hwants hfull,
    fun hnew => ?newWindow, fun hsame => ?sameWindow,
    fun timeout ecrc hup hactive hxfer hbuf => dmaReadError_stops timeout ecrc hup hactive hxfer hbuf,
    poisonedWrite_poisoned s, poisonedWrite_ecrc s, fun hup => ?reset,
    fun _ _ _ hreset hwidth hspeed hmps => hostPortResetExit_trained hreset hwidth hspeed hmps⟩
  case newWindow =>
    refine run_does_from (exec_rawCapWindow s) ?_
    rintro u o rfl
    exact rollCap_new hnew
  case sameWindow =>
    refine run_does_from (exec_rawCapWindow s) ?_
    rintro u o rfl
    exact rollCap_same hsame
  case reset =>
    refine run_gives_from (exec_hostPortReset hup) (fun _ _ _ _ h => h) ?_
    rintro u o rfl
    refine ⟨rfl, hostResets_counted u, rfl, ?_⟩
    dsimp only
    rw [qu_hostPortReset]
    obtain ⟨hen, hprod, hcons, hbuf, hxfer, hout, hheld⟩ := hostReset_stops (u.qu q) q (u.queueOld q) u.tb
    refine ⟨hen, hprod, hcons, hbuf, hxfer, hout, hheld,
      fun hidle => ⟨hostReset_seq _ _ _ hidle, fun hclosed => ?closed, fun b hopen hrec => ?abandoned⟩,
      fun x hx hclosed hhead hnew => ?returned⟩
    case closed =>
      have hsame := recall_idle (u.qu q) (u.queueOld q) hidle
      have h := hostReset_unopened q (u.queueOld q) u.tb (k := u.qu q) (by rw [hsame]; exact hclosed)
      rwa [hsame] at h
    case abandoned =>
      have hsame := recall_idle (u.qu q) (u.queueOld q) hidle
      have h := hostReset_abandons q (u.queueOld q) u.tb (k := u.qu q) (by rw [hsame]; exact hopen) hrec
      rwa [hsame] at h
    case returned =>
      obtain ⟨hstaged, hkept⟩ := recall_staged (k := u.qu q) hx hhead
      rw [show u.queueOld q = false from hnew]
      exact (hostReset_unopened q false u.tb (hkept.trans hclosed)).1.trans hstaged

end Sys2Proof.Machine
end
section
/-! SUPPORT. What ends a burst command early (R302, R310 to R318): the end of a command whatever windows are held, the
release of the pins before a burst, the abbreviated ramp-down, and the samples of an amplifier that fails. -/

namespace Sys2Proof.Machine

open Sys2Proof

/-! ### The transmitter alone -/

theorem modTx_congr_at {s : State} {c : Fin 4} {f g : Tx → Tx} (h : f (s.sl c).tx = g (s.sl c).tx) :
    s.modTx c f = s.modTx c g := modSl_congr s (congrArg (fun t => { s.sl c with tx := t }) h)

theorem sl_modTx_ne (s : State) {c d : Fin 4} (f : Tx → Tx) (h : d ≠ c) : (s.modTx c f).sl d = s.sl d :=
  State.sl_modSl_ne s _ h

/-! ### The end of a command (R310, R311, R323) -/

/-- The transmitter with the windows open whose start has come by TB value `now`, while no burst holds the pins (R316). -/
def Tx.opensWindows (t : Tx) (now : Nat) : Tx :=
  if t.keyed then t
  else { t with windows := t.windows.map (fun w => if w.start ≤ now then { w with opened := true } else w) }

theorem openWindows_eq (s : State) (c : Fin 4) : s.openWindows c = s.modTx c (fun t => t.opensWindows s.tb) := rfl

theorem opensWindows_windows (t : Tx) (now : Nat) : ∃ ws, t.opensWindows now = { t with windows := ws } := by
  unfold Tx.opensWindows
  split
  · exact ⟨t.windows, rfl⟩
  · exact ⟨_, rfl⟩

theorem coexPins_pins (t : Tx) : ∃ req pri, t.coexPins = { t with coexReq := req, coexPri := pri } := ⟨_, _, rfl⟩

/-- A command that ends counts, and raises events; it lowers none. -/
theorem countEnd_counts (t : Tx) (status : Nat) : ∃ e sent failed synth denied lost, t.countEnd status =
    { t with
      events := t.events ||| e, sent := sent, failed := failed, synthNotReady := synth, coexDenied := denied,
      coexLost := lost } := by
  have hkept : t.events = t.events ||| 0 := BitVec.or_zero.symm
  unfold Tx.countEnd
  dsimp only
  split_ifs
  · exact ⟨_, _, _, _, _, _, rfl⟩
  · exact ⟨0, _, _, _, _, _, by rw [← hkept]⟩
  · exact ⟨_, _, _, _, _, _, rfl⟩
  · exact ⟨_, _, _, _, _, _, rfl⟩
  · exact ⟨0, _, _, _, _, _, by rw [← hkept]⟩

/-- The command in hand ends: its tokens are given back, and of the transmitter that it leaves the windows and the
coexistence pins follow what is held. -/
theorem endTx_ends {s : State} {c : Fin 4} {k : TxCmd} (status : Nat) (hcmd : (s.sl c).tx.cmd = some k) :
    (∃ ws req pri, ((s.endTx c status).sl c).tx
        = { (s.sl c).tx.ended k status with windows := ws, coexReq := req, coexPri := pri })
      ∧ (s.endTx c status).pwr = (s.releaseAll (txReq c)).pwr := by
  let t := (s.releaseAll (txReq c)).modTx c (fun t => t.ended k status)
  have hend : s.endTx c status = ((t.openWindows c).modTx c Tx.coexPins).txReport c k status := by
    rw [State.endTx, hcmd]
    rfl
  have hrep := txReport_offRecord ((t.openWindows c).modTx c Tx.coexPins) c k status
  have htx : (t.sl c).tx = (s.sl c).tx.ended k status := tx_modTx
  obtain ⟨ws, hws⟩ := opensWindows_windows ((s.sl c).tx.ended k status) t.tb
  obtain ⟨req, pri, hpins⟩ := coexPins_pins { (s.sl c).tx.ended k status with windows := ws }
  rw [hend]
  refine ⟨⟨ws, req, pri, ?_⟩, (pwr_of_offRecord hrep : _)⟩
  rw [sl_of_offRecord hrep, tx_modTx, openWindows_eq, tx_modTx, htx, hws, hpins]

/-- A command that ends in a transmitter that stays, without an amplifier fault, leaves it IDLE; the pins of the amplifier
and of TR_SW stay, and so do the events raised. -/
theorem endTx_idles {s : State} {c : Fin 4} {k : TxCmd} (status : Nat) (hcmd : (s.sl c).tx.cmd = some k)
    (hremoved : (s.sl c).tx.removed = false) (hinhibit : k.inhibit = false) :
    ((s.endTx c status).sl c).tx.cmd = none ∧ ((s.endTx c status).sl c).tx.state = .idle
      ∧ ((s.endTx c status).sl c).tx.paEn = (s.sl c).tx.paEn ∧ ((s.endTx c status).sl c).tx.trSw = (s.sl c).tx.trSw
      ∧ (∃ e, ((s.endTx c status).sl c).tx.events = (s.sl c).tx.events ||| e)
      ∧ vget (s.endTx c status).pwr.rel (10 + c.val) 0 = vget s.pwr.held (10 + c.val) 0 := by
  obtain ⟨⟨ws, req, pri, htx⟩, hpwr⟩ := endTx_ends status hcmd
  obtain ⟨e, sent, failed, synth, denied, lost, hcount⟩ := countEnd_counts (s.sl c).tx status
  have hstate : ((s.sl c).tx.ended k status).state = .idle := by
    rw [Tx.ended, hremoved, hinhibit]
    rfl
  have hrel : 10 + c.val < 18 := by omega
  rw [htx, hpwr]
  refine ⟨rfl, hstate, ?_, ?_, ⟨e, ?_⟩, vget_vmod_same _ _ _ hrel⟩
  · exact (congrArg Tx.paEn hcount : _)
  · exact (congrArg Tx.trSw hcount : _)
  · exact (congrArg Tx.events hcount : _)

/-! ### The hold (R302) -/

/-- `s` with the hold of slice `c` marked as expired: an event, and a count where the tokens alone were missing. -/
def State.marksHold (s : State) (c : Fin 4) (ready : Bool) : State :=
  let s1 := s.modTx c (fun t => { t with events := raise t.events 2 })
  if ready then { s1 with pwr := { s1.pwr with txExpired := count 16 1 s1.pwr.txExpired } } else s1

theorem marksHold_marks (s : State) (c : Fin 4) (ready : Bool) :
    ((s.marksHold c ready).sl c).tx = { (s.sl c).tx with events := raise (s.sl c).tx.events 2 }
      ∧ (s.marksHold c ready).pwr.held = s.pwr.held := by
  have htx : ((s.modTx c (fun t => { t with events := raise t.events 2 })).sl c).tx
      = { (s.sl c).tx with events := raise (s.sl c).tx.events 2 } := tx_modTx
  cases ready with
  | false => exact ⟨htx, rfl⟩
  | true => exact ⟨htx, rfl⟩

/-- A bit that is raised stays so among others. -/
theorem testBit_raise_or (w e : Word) {i : Nat} (h : i < 32) : (raise w i ||| e).toNat.testBit i = true := by
  have hbit : 2 ^ i % 4294967296 = 2 ^ i := Nat.mod_eq_of_lt (Nat.pow_lt_pow_right (by decide) h : 2 ^ i < 2 ^ 32)
  simp [raise, hbit]

section
variable {s : State} {c : Fin 4} {k : TxCmd} (hcmd : (s.sl c).tx.cmd = some k)
include hcmd

/-- TX_HOLD_EXPIRED in PREPARE, at the end of the hold of a command that is not ready. -/
theorem exec_txHoldExpired_due (hstate : (s.sl c).tx.state = .prepare) (hready : s.txReady c k = false)
    (hdue : k.holdFrom + 1024 * k.holdUs ≤ s.tb) :
    exec (.txHoldExpired c) s = run s (fun u => (u.marksHold c ((s.sl c).synthReady k.freq)).endTx c
      (if (s.sl c).synthReady k.freq then Status.budget else Status.synth)) := by
  have he : exec (.txHoldExpired c) s = execTxHoldExpired c s := rfl
  unfold execTxHoldExpired at he
  refine he.trans (run_congr ?_)
  rintro u o rfl
  rw [← usTicks_eq] at hdue
  have hgoes : ¬ ((u.sl c).tx.state ≠ .prepare ∨ u.txReady c k = true ∨ u.tb < k.holdFrom + usTicks k.holdUs) := by
    have hheld : ¬ u.tb < k.holdFrom + usTicks k.holdUs := not_lt.mpr hdue
    rw [show (u.sl c).tx.state = .prepare from hstate, show u.txReady c k = false from hready]
    simp [hheld]
  rw [show (u.sl c).tx.cmd = some k from hcmd]
  exact if_neg hgoes

theorem txHoldExpired_ends (hremoved : (s.sl c).tx.removed = false) (hstate : (s.sl c).tx.state = .prepare)
    (hready : s.txReady c k = false) (hdue : k.holdFrom + 1024 * k.holdUs ≤ s.tb) (hinhibit : k.inhibit = false) :
    Gives (.txHoldExpired c) s (fun t => (t.sl c).tx.cmd = none ∧ (t.sl c).tx.state = .idle
      ∧ (t.sl c).tx.paEn = (s.sl c).tx.paEn ∧ (t.sl c).tx.trSw = (s.sl c).tx.trSw
      ∧ (t.sl c).tx.events.toNat.testBit 2 = true
      ∧ vget t.pwr.rel (10 + c.val) 0 = vget s.pwr.held (10 + c.val) 0) := by
  refine run_gives_from (exec_txHoldExpired_due hcmd hstate hready hdue) (fun _ _ _ _ h => h) ?_
  rintro u o rfl
  obtain ⟨htx, hheld⟩ := marksHold_marks u c ((u.sl c).synthReady k.freq)
  obtain ⟨hnone, hidle, hpa, htr, ⟨e, hevents⟩, hrel⟩ :=
    endTx_idles (s := u.marksHold c ((u.sl c).synthReady k.freq))
      (if (u.sl c).synthReady k.freq then Status.budget else Status.synth)
      ((congrArg Tx.cmd htx).trans hcmd) ((congrArg Tx.removed htx).trans hremoved) hinhibit
  rw [htx] at hpa htr hevents
  rw [hheld] at hrel
  refine ⟨hnone, hidle, hpa, htr, ?_, hrel⟩
  refine (congrArg (fun w : Word => w.toNat.testBit 2) hevents).trans ?_
  exact testBit_raise_or _ e (by decide)

/-! ### The grant (R312, R315) -/

/-- Without a grant the pins that have moved are released, TR_SW at once (R310, R312). -/
theorem txRelease_gntWait (hph : k.phase = .gntWait) (status now : Nat) :
    s.txRelease c status now = s.modTx c (fun t => { t with
      state := .release, paEn := false, paBias := 0, sense := none, trSw := false,
      cmd := some { k with phase := .trOff, phaseAt := now, stage := 1, status := BitVec.ofNat 8 status } }) := by
  have hpins (b : Bool) : (b && TxPhase.trOff == TxPhase.paOff) = false := Bool.and_false b
  rw [State.txRelease, hcmd]
  dsimp only
  rw [hph]
  dsimp only
  rw [State.modCmd, State.modCmd, modTx_modTx, modTx_modTx]
  simp only [hpins]
  exact modTx_congr hcmd fun _ => rfl

theorem gntWaitExpired_releases (hph : k.phase = .gntWait) (hdue : k.phaseAt + 1024 * k.gntWait ≤ s.real) :
    Does (.gntWaitExpired c) s (fun s => s.modTx c (fun t => { t with
      state := .release, paEn := false, paBias := 0, sense := none, trSw := false,
      cmd := some { k with phase := .trOff, phaseAt := s.real, stage := 1, status := 0x11 } })) := by
  have he : exec (.gntWaitExpired c) s = execGntWaitExpired c s := rfl
  unfold execGntWaitExpired at he
  refine run_does_from he ?_
  rintro u o rfl
  rw [← usTicks_eq] at hdue
  rw [phaseDue_reached (u := u) (ticks := fun k => usTicks k.gntWait) hcmd hph hdue]
  exact txRelease_gntWait (s := u) hcmd hph ..

end

/-- The transmitter with the filtered COEX_GNT at `gnt` from TB value `now` on, and in each window the time up to then
counted at the level before. -/
def Tx.granted (t : Tx) (gnt : Bool) (now : Nat) : Tx :=
  { t with gnt := gnt, windows := t.windows.map (fun w => w.account t.gnt now) }

theorem setGrant_eq (s : State) (c : Fin 4) (gnt : Bool) :
    s.setGrant c gnt = s.modTx c (fun t => t.granted gnt s.tb) := rfl

section
variable {s : State} {c : Fin 4}

theorem coexGrant_uncommanded (hcmd : (s.sl c).tx.cmd = none) :
    Does (.coexGrant c) s (fun s => s.modTx c (fun t => t.granted true s.tb)) := by
  have he : exec (.coexGrant c) s = execCoexGrant c s := rfl
  unfold execCoexGrant at he
  refine run_does_from he ?_
  rintro u o rfl
  rw [show (u.sl c).tx.cmd = none from hcmd]
  exact setGrant_eq ..

theorem coexWithdrawn_uncommanded (hcmd : (s.sl c).tx.cmd = none) :
    Does (.coexWithdrawn c) s (fun s => s.modTx c (fun t => t.granted false s.tb)) := by
  have he : exec (.coexWithdrawn c) s = execCoexWithdrawn c s := rfl
  unfold execCoexWithdrawn at he
  refine run_does_from he ?_
  rintro u o rfl
  rw [show (u.sl c).tx.cmd = none from hcmd]
  exact setGrant_eq ..

end

/-! ### The abbreviated ramp-down (R309, R314) -/

/-- Command `k` with the abbreviated ramp-down of its burst begun at real tick `now`, from the value that g has then. -/
def TxCmd.rampingShort (k : TxCmd) (now status : Nat) : TxCmd :=
  { k with
    gFrom := k.gNow now, phase := .abbrev, phaseAt := now, stage := 3, abbreviated := true,
    status := BitVec.ofNat 8 status }

/-- The transmitter with that ramp-down of `k` begun. -/
def Tx.aborted (t : Tx) (k : TxCmd) (now status : Nat) : Tx :=
  { t with state := .abort, paBias := 0, cmd := some (k.rampingShort now status) }

/-- The transmitter after that ramp-down has ended at real tick `e`, TB value `tb`. -/
def Tx.abbrevEnded (t : Tx) (k : TxCmd) (e tb : Nat) : Tx :=
  { t with
    lastRampDown := e, state := .release, paEn := false, paBias := 0, sense := none,
    cmd := some { k with endTb := tb, phase := .paOff, phaseAt := e } }

section
variable {s : State} {c : Fin 4} {k : TxCmd} (hcmd : (s.sl c).tx.cmd = some k)
include hcmd

/-- An abort while a burst is on the air. -/
theorem txAbort_burst (hph : k.phase = .burst) (status : Nat) :
    ∃ o, s.txAbort c status = { s.modTx c (fun t => t.aborted k s.real status) with out := o } := by
  have hbegun : (s.modTx c (fun t => { t with state := .abort, paBias := 0 })).modCmd c
      (fun k => k.rampingShort s.real status) = s.modTx c (fun t => t.aborted k s.real status) :=
    modTx_modTx.trans (modTx_congr hcmd fun _ => rfl)
  have habort : s.txAbort c status = (s.modTx c (fun t => t.aborted k s.real status)).rampOut c s.real 8 := by
    rw [State.txAbort, hcmd]
    dsimp only
    rw [hph, ← hbegun]
    rfl
  rw [habort, rampOut_eq (k := k.rampingShort s.real status) (congrArg Tx.cmd tx_modTx : _)]
  exact ⟨_, rfl⟩

theorem tx_txAbort_burst (hph : k.phase = .burst) (status : Nat) :
    ((s.txAbort c status).sl c).tx = (s.sl c).tx.aborted k s.real status := by
  obtain ⟨o, habort⟩ := txAbort_burst hcmd hph status
  rw [habort]
  exact (tx_modTx (f := fun t => t.aborted k s.real status) : _)

/-- After an abbreviated ramp-down the release of the pins begins with the fall of PA_EN. -/
theorem txRelease_abbrev (hph : k.phase = .abbrev) (status now : Nat) :
    s.txRelease c status now = s.modTx c (fun t => { t with
      state := .release, paEn := false, paBias := 0, sense := none,
      cmd := some { k with phase := .paOff, phaseAt := now, status := BitVec.ofNat 8 status } }) := by
  have hpins (b : Bool) : (b && TxPhase.paOff == TxPhase.paOff) = b := Bool.and_true b
  rw [State.txRelease, hcmd]
  dsimp only
  rw [hph]
  dsimp only
  rw [State.modCmd, modTx_modTx]
  simp only [hpins]
  exact modTx_congr hcmd fun _ => rfl

/-- An abbreviated ramp-down ends 8 µs after its start. -/
theorem abbrevEnd_releases (hph : k.phase = .abbrev) (hdue : k.phaseAt + 8192 ≤ s.real) :
    s.abbrevEnd c = s.modTx c (fun t => t.abbrevEnded k (k.phaseAt + 8192) (s.tbOf (k.phaseAt + 8192))) := by
  let e := k.phaseAt + 8192
  have hended : (s.modTx c (fun t => { t with lastRampDown := e })).modCmd c (fun j => { j with endTb := s.tbOf e })
      = s.modTx c (fun t => { t with lastRampDown := e, cmd := some { k with endTb := s.tbOf e } }) :=
    modTx_modTx.trans (modTx_congr hcmd fun _ => rfl)
  have hstatus : BitVec.ofNat 8 k.status.toNat = k.status := BitVec.eq_of_toNat_eq (Nat.mod_eq_of_lt k.status.isLt)
  unfold State.abbrevEnd
  rw [phaseDue_reached (ticks := fun _ => usTicks 8) hcmd hph hdue]
  dsimp only
  rw [show k.phaseAt + usTicks 8 = e from rfl, hended,
    txRelease_abbrev (k := { k with endTb := s.tbOf e }) (congrArg Tx.cmd tx_modTx) hph, modTx_modTx, hstatus]
  rfl

theorem abbreviatedRampEnd_releases (hph : k.phase = .abbrev) (hdue : k.phaseAt + 8192 ≤ s.real)
    (hreset : (s.sl c).tx.resetAfter = none) :
    Does (.abbreviatedRampEnd c) s (fun s => s.modTx c (fun t =>
      t.abbrevEnded k (k.phaseAt + 8192) (s.tbOf (k.phaseAt + 8192)))) := by
  have he : exec (.abbreviatedRampEnd c) s = execAbbreviatedRampEnd c s := rfl
  unfold execAbbreviatedRampEnd at he
  refine run_does_from he ?_
  rintro u o rfl
  have hnone : ((u.abbrevEnd c).sl c).tx.resetAfter = none := by
    rw [abbrevEnd_releases (s := u) hcmd hph hdue, tx_modTx]
    exact hreset
  dsimp only
  rw [hnone]
  exact abbrevEnd_releases (s := u) hcmd hph hdue

/-! ### A grant that was awaited, and one that is withdrawn (R312, R313) -/

theorem coexGrant_awaited (hph : k.phase = .gntWait) (hsynth : (s.sl c).synthReady k.freq = true) :
    exec (.coexGrant c) s = run s (fun u => (u.modTx c (fun t => t.granted true u.tb)).paRise c u.real) := by
  have he : exec (.coexGrant c) s = execCoexGrant c s := rfl
  unfold execCoexGrant at he
  refine he.trans (run_congr ?_)
  rintro u o rfl
  rw [show (u.sl c).tx.cmd = some k from hcmd]
  exact if_pos ⟨hph, hsynth⟩

theorem coexGrant_raisesPaEn (hph : k.phase = .gntWait) (hsynth : (s.sl c).synthReady k.freq = true) :
    Gives (.coexGrant c) s (fun t =>
      (t.sl c).tx = { (s.sl c).tx.granted true s.tb with
        paEn := true, sense := (t.sl c).tx.sense, cmd := (t.sl c).tx.cmd }
      ∧ (t.sl c).tx.sense.isSome = true
      ∧ (t.sl c).tx.cmd.map (fun j => { j with fwd := k.fwd, rev := k.rev }) = some { k with
          phase := .pa, phaseAt := s.real, paRose := true, stage := 2 }
      ∧ OtherSlices c s t) := by
  refine run_gives_from (coexGrant_awaited hcmd hph hsynth) (fun _ _ _ _ h => h) ?_
  rintro u o rfl
  let v := u.modTx c (fun t => t.granted true u.tb)
  have hv : (v.sl c).tx = (u.sl c).tx.granted true u.tb := tx_modTx
  have hvcmd : (v.sl c).tx.cmd = some k := by
    rw [hv]
    exact hcmd
  obtain ⟨fwd, rev, hrise⟩ := paRise_eq hvcmd u.real
  have htx : ((v.paRise c u.real).sl c).tx = { (u.sl c).tx.granted true u.tb with
      paEn := true, sense := some (fwd, rev), cmd := some { k with
        phase := .pa, phaseAt := u.real, paRose := true, stage := 2,
        fwd := max k.fwd fwd, rev := max k.rev rev } } := by
    rw [hrise, tx_modTx, ← hv]
    rfl
  have hothers (d : Fin 4) (hd : d ≠ c) : (v.paRise c u.real).sl d = u.sl d := by
    rw [hrise]
    exact (sl_modTx_ne v.freeWord.2 _ hd).trans (sl_modTx_ne u (fun t => t.granted true u.tb) hd)
  change ((v.paRise c u.real).sl c).tx = _ ∧ ((v.paRise c u.real).sl c).tx.sense.isSome = true
    ∧ ((v.paRise c u.real).sl c).tx.cmd.map _ = _ ∧ OtherSlices c _ (v.paRise c u.real)
  rw [htx]
  exact ⟨rfl, rfl, rfl, hothers⟩

theorem coexWithdrawn_aborts (hph : k.phase = .burst) (hobey : k.gntIgnore = false) :
    Does (.coexWithdrawn c) s (fun s => s.modTx c (fun t => 
      (t.granted false s.tb).aborted k s.real Status.coexLost)) := by
  have he : exec (.coexWithdrawn c) s = execCoexWithdrawn c s := rfl
  unfold execCoexWithdrawn at he
  refine run_does_sent he ?_
  rintro u o rfl
  have hlost : (!k.gntIgnore) = true ∧ (k.phase = .pa ∨ k.phase = .burst ∨ k.phase = .rampDown ∨ k.phase = .gap) :=
    ⟨by rw [hobey]; rfl, .inr (.inl hph)⟩
  have hvcmd : ((u.setGrant c false).sl c).tx.cmd = some k :=
    (congrArg Tx.cmd (tx_modTx (s := u) (c := c) (f := fun t => t.granted false u.tb))).trans hcmd
  obtain ⟨o', habort⟩ := txAbort_burst hvcmd hph Status.coexLost
  dsimp only
  rw [show (u.sl c).tx.cmd = some k from hcmd]
  dsimp only
  rw [if_pos hlost, habort, setGrant_eq, modTx_modTx]
  exact ⟨o', rfl⟩

/-! ### An amplifier that fails (R317) -/

theorem senseMax_eq (hon : (s.sl c).tx.paEn = true) (fwd rev : Nat) :
    s.senseMax c fwd rev = s.modTx c (fun t => { t with
      sense := some (fwd, rev), cmd := some { k with fwd := max k.fwd fwd, rev := max k.rev rev } }) := by
  have hsampled : s.modTx c (fun t => { t with sense := if t.paEn then some (fwd, rev) else t.sense })
      = s.modTx c (fun t => { t with sense := some (fwd, rev) }) :=
    modTx_congr_at (congrArg (fun r => { (s.sl c).tx with sense := r }) (if_pos hon))
  rw [State.senseMax, hsampled, State.modCmd, modTx_modTx]
  exact modTx_congr hcmd fun _ => rfl

end

/-- The last of the samples of PA_FWD and PA_REV. -/
def lastSense (samples : List (BitVec 12 × BitVec 12)) : Option (Nat × Nat) :=
  samples.getLast?.map (fun v => (v.1.toNat, v.2.toNat))

/-- Of samples that come together the last one stands, and the command keeps the highest. -/
theorem foldl_senseMax {c : Fin 4} (samples : List (BitVec 12 × BitVec 12)) (hsome : samples ≠ []) {s : State}
    {k : TxCmd} (hcmd : (s.sl c).tx.cmd = some k) (hon : (s.sl c).tx.paEn = true) :
    ∃ fwd rev, samples.foldl (fun u v => u.senseMax c v.1.toNat v.2.toNat) s = s.modTx c (fun t => { t with
      sense := lastSense samples,
      cmd := some { k with fwd := fwd, rev := rev } }) := by
  induction samples generalizing s k with
  | nil => exact absurd rfl hsome
  | cons v l ih =>
    rw [List.foldl_cons, senseMax_eq hcmd hon]
    cases l with
    | nil => exact ⟨_, _, rfl⟩
    | cons w l =>
      obtain ⟨fwd, rev, h⟩ := ih (List.cons_ne_nil w l)
        (s := s.modTx c (fun t => { t with
          sense := some (v.1.toNat, v.2.toNat),
          cmd := some { k with fwd := max k.fwd v.1.toNat, rev := max k.rev v.2.toNat } }))
        (congrArg Tx.cmd tx_modTx) ((congrArg Tx.paEn tx_modTx).trans hon)
      have hlast : lastSense (v :: w :: l) = lastSense (w :: l) := by
        rw [lastSense, List.getLast?_cons_cons, lastSense]
      rw [h, modTx_modTx, hlast]
      exact ⟨fwd, rev, rfl⟩

theorem ampFault_nil (k : TxCmd) (now : Nat) : k.ampFault [] now = false := by
  simp [TxCmd.ampFault]

/-- `s` with the amplifier of slice `c` failed, as `samples` show. -/
def State.ampFails (s : State) (c : Fin 4) (samples : List (BitVec 12 × BitVec 12)) : State :=
  (((samples.foldl (fun u v => u.senseMax c v.1.toNat v.2.toNat) s).modTx c (fun t => { t with
    paFault := count 8 1 t.paFault, events := raise t.events 5 })).modCmd c (fun k => { k with inhibit := true })).txAbort
      c Status.paFault

/-- The transmitter with `k` in hand, its amplifier's fault counted after samples of which `last` is the last and `f` and
`r` the highest. -/
def Tx.ampFailed (t : Tx) (k : TxCmd) (last : Option (Nat × Nat)) (f r : Nat) : Tx :=
  { t with
    sense := last, paFault := count 8 1 t.paFault, events := raise t.events 5,
    cmd := some { k with fwd := f, rev := r, inhibit := true } }

section
variable {s : State} {c : Fin 4} {k : TxCmd} (hcmd : (s.sl c).tx.cmd = some k)
include hcmd

/-- The fault counts, and cuts short the burst on the air. -/
theorem tx_ampFails {samples : List (BitVec 12 × BitVec 12)} (hsome : samples ≠ [])
    (hon : (s.sl c).tx.paEn = true) (hph : k.phase = .burst) :
    ∃ f r, ((s.ampFails c samples).sl c).tx
      = ((s.sl c).tx.ampFailed k (lastSense samples) f r).aborted
        { k with fwd := f, rev := r, inhibit := true } s.real Status.paFault := by
  obtain ⟨f, r, hsampled⟩ := foldl_senseMax samples hsome hcmd hon
  let v := s.modTx c (fun t => t.ampFailed k (lastSense samples) f r)
  have hv : (v.sl c).tx = (s.sl c).tx.ampFailed k (lastSense samples) f r :=
    tx_modTx
  have hfailed : s.ampFails c samples = v.txAbort c Status.paFault := by
    rw [State.ampFails, hsampled, State.modCmd, modTx_modTx, modTx_modTx]
    rfl
  refine ⟨f, r, ?_⟩
  rw [hfailed, ← hv]
  exact tx_txAbort_burst (s := v) (congrArg Tx.cmd hv) hph Status.paFault

variable (fwd rev : List (BitVec 12))

theorem exec_amplifierFault_met (hon : (s.sl c).tx.paEn = true) (hfault : k.ampFault (fwd.zip rev) s.real = true) :
    exec (.amplifierFault c fwd rev) s = run s (fun u => u.ampFails c (fwd.zip rev)) := by
  have he : exec (.amplifierFault c fwd rev) s = execAmplifierFault c fwd rev s := rfl
  unfold execAmplifierFault at he
  refine he.trans (run_congr ?_)
  rintro u o rfl
  have hgoes : ¬ ((!(u.sl c).tx.paEn) = true ∨ (!k.ampFault (fwd.zip rev) u.real) = true) := by
    rw [show (u.sl c).tx.paEn = true from hon, show k.ampFault (fwd.zip rev) u.real = true from hfault]
    decide
  dsimp only
  rw [show (u.sl c).tx.cmd = some k from hcmd]
  exact if_neg hgoes

theorem amplifierFault_absent (hfault : k.ampFault (fwd.zip rev) s.real = false) :
    Does (.amplifierFault c fwd rev) s id := by
  have he : exec (.amplifierFault c fwd rev) s = execAmplifierFault c fwd rev s := rfl
  unfold execAmplifierFault at he
  refine run_does_from he ?_
  rintro u o rfl
  dsimp only
  rw [show (u.sl c).tx.cmd = some k from hcmd]
  dsimp only
  rw [show k.ampFault (fwd.zip rev) u.real = false from hfault]
  exact if_pos (.inr rfl)

theorem amplifierFault_aborts (hon : (s.sl c).tx.paEn = true) (hph : k.phase = .burst)
    (hfault : k.ampFault (fwd.zip rev) s.real = true) :
    Gives (.amplifierFault c fwd rev) s (fun t =>
      (t.sl c).tx = { (s.sl c).tx with
        state := .abort, paBias := 0,
        sense := ((fwd.zip rev).getLast?).map (fun v => (v.1.toNat, v.2.toNat)),
        paFault := min ((s.sl c).tx.paFault + 1) 0xFF, events := (s.sl c).tx.events ||| 0x20,
        cmd := (t.sl c).tx.cmd }
      ∧ (t.sl c).tx.cmd.map (fun j => { j with fwd := k.fwd, rev := k.rev }) = some { k with
          gFrom := k.gNow s.real, phase := .abbrev, phaseAt := s.real, stage := 3, abbreviated := true,
          status := 0x13, inhibit := true }) := by
  refine run_gives_from (exec_amplifierFault_met hcmd fwd rev hon hfault) (fun _ _ _ _ h => h) ?_
  rintro u o rfl
  have hsome : fwd.zip rev ≠ [] := by
    intro hnil
    rw [hnil, ampFault_nil] at hfault
    exact Bool.false_ne_true hfault
  obtain ⟨f, r, htx⟩ := tx_ampFails (s := u) hcmd hsome hon hph
  rw [htx]
  exact ⟨rfl, rfl⟩

end

/-! ### CANCEL and FAULT_CLR (R311, R317, R318) -/

section
variable {s : State} {c : Fin 4}

theorem exec_cancel_served (hserved : (s.sl c).ctl.state.served = true) :
    exec (.cancel c) s = run s (fun u => u.txCancel c) := by
  have he : exec (.cancel c) s = execCancel c s := rfl
  unfold execCancel at he
  refine he.trans (run_congr ?_)
  rintro u o rfl
  exact sliceWrite_served (s := u) hserved ..

/-- CANCEL before the key-up ends the command. -/
theorem txCancel_unkeyed {k : TxCmd} (hcmd : (s.sl c).tx.cmd = some k) (hph : k.phase = .none) :
    s.txCancel c = (s.modTx c (fun t => { t with cancelReq := true })).endTx c Status.rejected := by
  rw [State.txCancel, hcmd]
  dsimp only
  rw [hph]

theorem cancel_ends {k : TxCmd} (hcmd : (s.sl c).tx.cmd = some k) (hremoved : (s.sl c).tx.removed = false)
    (hserved : (s.sl c).ctl.state.served = true) (hph : k.phase = .none) (hinhibit : k.inhibit = false) :
    Gives (.cancel c) s (fun t =>
      (t.sl c).tx.cmd = none ∧ (t.sl c).tx.state = .idle ∧ (t.sl c).tx.paEn = (s.sl c).tx.paEn
        ∧ vget t.pwr.rel (10 + c.val) 0 = vget s.pwr.held (10 + c.val) 0) := by
  refine run_gives_from (exec_cancel_served hserved) (fun _ _ _ _ h => h) ?_
  rintro u o rfl
  have htx : ((u.modTx c (fun t => { t with cancelReq := true })).sl c).tx = { (u.sl c).tx with cancelReq := true } :=
    tx_modTx
  obtain ⟨hnone, hidle, hpa, -, -, hrel⟩ :=
    endTx_idles (s := u.modTx c (fun t => { t with cancelReq := true })) Status.rejected
      ((congrArg Tx.cmd htx).trans hcmd) ((congrArg Tx.removed htx).trans hremoved) hinhibit
  rw [htx] at hpa
  rw [txCancel_unkeyed (s := u) hcmd hph]
  exact ⟨hnone, hidle, hpa, hrel⟩

theorem cancel_uncommanded (hcmd : (s.sl c).tx.cmd = none) (hserved : (s.sl c).ctl.state.served = true) :
    Does (.cancel c) s id := by
  refine run_does_from (exec_cancel_served hserved) ?_
  rintro u o rfl
  rw [State.txCancel, show (u.sl c).tx.cmd = none from hcmd]
  rfl

theorem faultClr_idles (hserved : (s.sl c).ctl.state.served = true) (hstate : (s.sl c).tx.state = .inhibit) :
    Does (.faultClr c) s (fun s => s.modTx c (fun t => { t with state := .idle })) := by
  have he : exec (.faultClr c) s = execFaultClr c s := rfl
  unfold execFaultClr at he
  refine run_does_from he ?_
  rintro u o rfl
  have hclear : Tx.faultClear (u.sl c).tx = { (u.sl c).tx with state := .idle } := if_pos hstate
  exact (sliceWrite_served (s := u) hserved ..).trans
    ((show u.writeTxCtl c 2 = u.modTx c Tx.faultClear from rfl).trans (modTx_congr_at hclear))

end

/-- Settles O53, command by command: the end of a hold and of the wait for a grant, the grant that comes and the one that
is withdrawn, the amplifier's fault, the end of an abbreviated ramp-down, CANCEL and FAULT_CLR. -/
theorem txAborts : Obligations.TxAborts := by
  intro c s
  refine ⟨fun k hcmd hremoved =>
    ⟨txHoldExpired_ends hcmd hremoved, gntWaitExpired_releases hcmd, coexGrant_raisesPaEn hcmd,
      coexWithdrawn_aborts hcmd,
      fun fwd rev hon hph => ⟨amplifierFault_absent hcmd fwd rev, amplifierFault_aborts hcmd fwd rev hon hph⟩,
      abbreviatedRampEnd_releases hcmd,
      fun hstate hph hinhibit => cancel_ends hcmd hremoved (by rw [hstate]; rfl) hph hinhibit⟩,
    fun hcmd => ⟨coexGrant_uncommanded hcmd, coexWithdrawn_uncommanded hcmd, cancel_uncommanded hcmd⟩,
    fun hserved hstate => faultClr_idles hserved hstate⟩

end Sys2Proof.Machine
end

section
/-! SUPPORT. The lock of the synthesiser (R300, R301, R303) and the priority receive windows (R315, R316). -/

namespace Sys2Proof.Machine

open Sys2Proof

/-! ### Divider, integer and fraction of a carrier (R300) -/

/-- The rounded quotient is within half of the divisor. -/
theorem roundDiv_near (a : Nat) {b : Nat} (hb : 0 < b) :
    2 * ((b * roundDiv a b : Nat) - (a : Nat) : Int).natAbs ≤ b := by
  have hdiv := Nat.div_add_mod (a + b / 2) b
  have hmod := Nat.mod_lt (a + b / 2) hb
  unfold roundDiv
  omega

/-- The divider is the smallest that puts the VCO at 1.8 GHz or above, where one of the four does. -/
theorem synthDiv_smallest (f : Nat) :
    (1800000000 ≤ f * 2 ^ (3 + synthDiv f) ∨ synthDiv f = 3)
      ∧ (synthDiv f = 0 ∨ f * 2 ^ (2 + synthDiv f) < 1800000000) := by
  unfold synthDiv
  split_ifs with h8 h16 h32
  · exact ⟨.inl h8, .inl rfl⟩
  · exact ⟨.inl h16, .inr (not_le.mp h8)⟩
  · exact ⟨.inl h32, .inr (not_le.mp h16)⟩
  · exact ⟨.inr rfl, .inr (not_le.mp h32)⟩

/-- The fraction has 24 bits, and with the integer it is the multiple of 64 MHz nearest to the VCO's frequency. -/
theorem synthWords_nearest (f : Nat) :
    (synthWords f).2 < 2 ^ 24
      ∧ 2 * ((64000000 * ((synthWords f).1 * 2 ^ 24 + (synthWords f).2) : Nat)
        - (f * 2 ^ (3 + synthDiv f) * 2 ^ 24 : Nat) : Int).natAbs ≤ 64000000 := by
  have hvco : f * 2 ^ (3 + synthDiv f) * 2 ^ 24 = f * (8 * 2 ^ synthDiv f) * 2 ^ 24 := by rw [Nat.pow_add]
  have hparts : (synthWords f).1 * 2 ^ 24 + (synthWords f).2
      = roundDiv (f * (8 * 2 ^ synthDiv f) * 2 ^ 24) 64000000 := Nat.div_add_mod' ..
  refine ⟨Nat.mod_lt _ (by decide), ?_⟩
  rw [hparts, hvco]
  exact roundDiv_near _ (by decide)

/-! ### The lock (R301, R303) -/

/-- The transmitter locked on the wanted carrier in band `band`, `us` µs after the start of its calibration (R301). -/
def Tx.locked (t : Tx) (band us : Nat) : Tx :=
  { t with
    lock := true, calFreq := t.wantFreq, wantFreq := 0, band := band, div := synthDiv t.wantFreq,
    vcoInt := (synthWords t.wantFreq).1, vcoFrac := (synthWords t.wantFreq).2, lockUs := sat 10 us }

/-- The transmitter whose synthesiser has lost its lock calibrates the same carrier again (R303). -/
def Tx.lockLost (t : Tx) : Tx :=
  { t.tune t.calFreq with
    calFreq := 0, events := raise t.events 1, lockLoss := if t.paEn then count 8 1 t.lockLoss else t.lockLoss }

theorem txCheck_uncommanded {s : State} {c : Fin 4} (hcmd : (s.sl c).tx.cmd = none) : s.txCheck c = s := by
  unfold State.txCheck
  dsimp only
  rw [hcmd]

section
variable {s : State} {c : Fin 4} (hcmd : (s.sl c).tx.cmd = none)
include hcmd

theorem exec_synthLocked_wanted (band : Fin 128) (us : Nat) (hlock : (s.sl c).tx.lock = false)
    (hwant : 0 < (s.sl c).tx.wantFreq) (hcoast : (s.sl c).clk.coast = false) (hcal : (s.sl c).afe.calRun = none) :
    exec (.synthLocked c band us) s = run s (fun u => u.modTx c (fun t => t.locked band.val us)) := by
  have he : exec (.synthLocked c band us) s = execSynthLocked c band us s := rfl
  unfold execSynthLocked at he
  refine he.trans (run_congr ?_)
  rintro u o rfl
  have hwant' : (u.sl c).tx.wantFreq ≠ 0 := Nat.ne_of_gt hwant
  have hnone : ((u.modTx c (fun t => t.locked band.val us)).sl c).tx.cmd = none :=
    (congrArg Tx.cmd tx_modTx).trans hcmd
  dsimp only
  rw [show (u.sl c).afe.calRun = none from hcal, show (u.sl c).tx.lock = false from hlock,
    show (u.sl c).clk.coast = false from hcoast, if_neg (by simp [hwant'])]
  exact txCheck_uncommanded hnone

theorem synthLocked_locks (band : Fin 128) (us : Nat) (hlock : (s.sl c).tx.lock = false)
    (hwant : 0 < (s.sl c).tx.wantFreq) (hcoast : (s.sl c).clk.coast = false) (hcal : (s.sl c).afe.calRun = none) :
    Gives (.synthLocked c band us) s (fun t =>
      (t.sl c).tx = (s.sl c).tx.locked band.val us
      ∧ OtherSlices c s t ∧ (t.sl c).sram = (s.sl c).sram ∧ t.pwr = s.pwr ∧ t.queues = s.queues) := by
  refine run_gives_from (exec_synthLocked_wanted hcmd band us hlock hwant hcoast hcal) (fun _ _ _ _ h => h) ?_
  rintro u o rfl
  have hsl : (u.modTx c (fun t => t.locked band.val us)).sl c
      = { u.sl c with tx := (u.sl c).tx.locked band.val us } := State.sl_modSl ..
  exact ⟨tx_modTx, fun d hd => sl_modTx_ne u _ hd, (congrArg Slice.sram hsl : _), rfl, rfl⟩

theorem synthLockLoss_recalibrates (hlock : (s.sl c).tx.lock = true) :
    Does (.synthLockLoss c) s (fun s => s.modTx c Tx.lockLost) := by
  have he : exec (.synthLockLoss c) s = execSynthLockLoss c s := rfl
  unfold execSynthLockLoss at he
  refine run_does_from he ?_
  rintro u o rfl
  dsimp only
  rw [show (u.sl c).tx.lock = true from hlock, show (u.sl c).tx.cmd = none from hcmd]
  rfl

end

/-! ### Windows that open (R315, R316) -/

theorem opensWindows_free {t : Tx} (hkeyed : t.keyed = false) (now : Nat) : t.opensWindows now =
    { t with windows := t.windows.map (fun w => { w with opened := w.opened || decide (w.start ≤ now) }) } := by
  have hopen (w : RxWin) : (if w.start ≤ now then { w with opened := true } else w)
      = { w with opened := w.opened || decide (w.start ≤ now) } := by
    by_cases h : w.start ≤ now
    · simp [h]
    · simp [h]
  rw [Tx.opensWindows, hkeyed]
  simp only [hopen]
  rfl

/-- No window opens before its start. -/
theorem opensWindows_early {t : Tx} {now : Nat} (h : ∀ w ∈ t.windows, now < w.start) : t.opensWindows now = t := by
  have hkept : t.windows.map (fun w => if w.start ≤ now then { w with opened := true } else w) = t.windows :=
    (List.map_congr_left fun w hw => if_neg (not_le.mpr (h w hw))).trans (List.map_id _)
  unfold Tx.opensWindows
  rw [hkept]
  exact ite_self t

/-- While no key-up or burst holds the coexistence pins, the open windows do. -/
theorem coexPins_windows {t : Tx} (hkeyed : t.keyed = false) : t.coexPins = { t with
    coexReq := t.windows.any (fun w => w.opened), coexPri := t.windows.any (fun w => w.opened && w.priority) } := by
  rw [Tx.coexPins, hkeyed]
  rfl

theorem rxwinOpen_opens {s : State} {c : Fin 4} (hkeyed : (s.sl c).tx.keyed = false) :
    Does (.rxwinOpen c) s (fun s => s.modTx c (fun t =>
      let ws := t.windows.map (fun w => { w with opened := w.opened || decide (w.start ≤ s.tb) })
      { t with
        windows := ws, coexReq := ws.any (fun w => w.opened),
        coexPri := ws.any (fun w => w.opened && w.priority) })) := by
  have he : exec (.rxwinOpen c) s = run s (fun s => (s.openWindows c).modTx c Tx.coexPins) := rfl
  refine run_does_from he ?_
  rintro u o rfl
  have hopened := opensWindows_free (t := (u.sl c).tx) hkeyed u.tb
  rw [openWindows_eq, modTx_modTx]
  refine modTx_congr_at ?_
  rw [hopened]
  exact coexPins_windows hkeyed

/-! ### A window that is taken (R315) -/

/-- The window that TX_RXWIN asks for at TB value `now` (R315). -/
def Command.window (cmd : Command) (now : Nat) : RxWin :=
  let start := max now (u64 cmd.body 0)
  { cmd := cmd.ref, start := start, stop := start + usTicks (u32 cmd.body 8), priority := u8 cmd.body 12 == 1,
    opened := false, ungranted := 0, mark := now }

/-- `s` with the window of `cmd` held. -/
def State.holdWindow (s : State) (c : Fin 4) (cmd : Command) : State :=
  (((s.keep cmd).modTx c (fun t => { t with windows := t.windows ++ [cmd.window s.tb] })).openWindows c).modTx c
    Tx.coexPins

/-- What slice `c` makes of a TX_RXWIN (R315). -/
def State.takeWindow (s : State) (c : Fin 4) (cmd : Command) : State :=
  if !(s.sl c).up then s.finish cmd Status.rejected []
  else if !within 1000 10000000 (u32 cmd.body 8) ∨ 2 ≤ u8 cmd.body 12 then s.finish cmd Status.badParam []
  else if 4 ≤ (s.sl c).tx.windows.length then s.finish cmd Status.noResource []
  else s.holdWindow c cmd

theorem exec_txRxwin (c : Fin 4) (s : State) :
    exec (.txRxwin c) s = run s (fun s => s.onCommand (localQ c 52) 0x51 fun s cmd => s.takeWindow c cmd) := by
  change execTxRxwin c s = _
  unfold execTxRxwin
  refine congrArg (run s) (funext fun u => ?_)
  unfold State.onCommand
  cases u.inHand (localQ c 52) 0x51 with
  | none => rfl
  | some cmd => rfl

section
variable {s : State} {c : Fin 4} {cmd : Command}

theorem takeWindow_holds (hup : (s.sl c).up = true) (hlong : 1000 ≤ u32 cmd.body 8) (hshort : u32 cmd.body 8 ≤ 10000000)
    (hpri : u8 cmd.body 12 < 2) (hroom : (s.sl c).tx.windows.length < 4) :
    s.takeWindow c cmd = s.holdWindow c cmd := by
  have hbody : ¬ ((!within 1000 10000000 (u32 cmd.body 8)) = true ∨ 2 ≤ u8 cmd.body 12) := by
    simp [within, hlong, hshort, hpri]
  rw [State.takeWindow, hup, if_neg (by decide), if_neg hbody, if_neg (not_le.mpr hroom)]

theorem window_later {now : Nat} (hlater : now < u64 cmd.body 0) : cmd.window now =
    { cmd := cmd.ref, start := u64 cmd.body 0, stop := u64 cmd.body 0 + 1024 * u32 cmd.body 8,
      priority := u8 cmd.body 12 == 1, opened := false, ungranted := 0, mark := now } := by
  rw [Command.window, max_eq_right (Nat.le_of_lt hlater), usTicks_eq]

/-- A window whose start has not come joins the others, none of which opens. -/
theorem holdWindow_windows (hlater : s.tb < u64 cmd.body 0) (hothers : ∀ w ∈ (s.sl c).tx.windows, s.tb < w.start) :
    ((s.holdWindow c cmd).sl c).tx.windows = (s.sl c).tx.windows ++ [cmd.window s.tb] := by
  have hearly : ∀ w ∈ (s.sl c).tx.windows ++ [cmd.window s.tb], s.tb < w.start := by
    intro w hw
    rcases List.mem_append.mp hw with hw | hw
    · exact hothers w hw
    · rw [List.mem_singleton.mp hw, window_later hlater]
      exact hlater
  have hkept := opensWindows_early
    (t := { (s.sl c).tx with windows := (s.sl c).tx.windows ++ [cmd.window s.tb] }) hearly
  unfold State.holdWindow
  rw [openWindows_eq, modTx_modTx, modTx_modTx, tx_modTx]
  exact congrArg (fun t : Tx => t.coexPins.windows) hkept

end

/-! ### A window that ends (R315, R316) -/

/-- The microseconds without a grant that window `w` reports at TB value `now`, a part of one counted where `up` says so
(log entry 81). -/
def RxWin.ungrantedUs (w : RxWin) (gnt : Bool) (now : Nat) (up : Bool) : Nat :=
  let n := (w.account gnt now).ungranted
  if up then (n + 1023) / 1024 else n / 1024

theorem ungrantedUs_eq (w : RxWin) (gnt : Bool) (now : Nat) (up : Bool) :
    ((w.account gnt now).ungranted + (if up then 1023 else 0)) / 1024 = w.ungrantedUs gnt now up := by
  cases up with
  | false => rfl
  | true => rfl

/-- The transmitter after its only window has ended, `n` microseconds of it without a grant. -/
def Tx.windowEnded (t : Tx) (n : Nat) : Tx :=
  { t with
    windows := [], events := if n = 0 then t.events else raise t.events 6, coexReq := t.keyed, coexPri := false }

theorem coexPins_windowEnded {t : Tx} {w : RxWin} (hwindows : t.windows = [w]) (hcmd : t.cmd = none) (n : Nat) :
    ({ t with
      windows := t.windows.erase w, events := if n = 0 then t.events else raise t.events 6 } : Tx).coexPins
      = t.windowEnded n := by
  simp [Tx.coexPins, Tx.windowEnded, Tx.winOpen, Tx.keyed, hwindows, hcmd]

section
variable {s : State} {c : Fin 4} {w : RxWin} (hwindows : (s.sl c).tx.windows = [w]) (up : Bool)
include hwindows

/-- Of one window held, it is the one to end once its end has come. -/
theorem endedWindow_one (now : Nat) : (sortBy (fun (w : RxWin) => w.stop)
    ((s.sl c).tx.windows.filter (fun w => decide (w.stop ≤ now)))).head? = if w.stop ≤ now then some w else none := by
  rw [hwindows]
  by_cases h : w.stop ≤ now
  · simp [h, sortBy, insertBy]
  · simp [h, sortBy]

theorem rxwinEnd_early (hearly : s.tb < w.stop) : Does (.rxwinEnd c up) s id := by
  have he : exec (.rxwinEnd c up) s = execRxwinEnd c up s := rfl
  unfold execRxwinEnd at he
  refine run_does_from he ?_
  rintro u o rfl
  dsimp only
  rw [endedWindow_one (s := u) hwindows u.tb, if_neg (not_le.mpr (show u.tb < w.stop from hearly))]
  rfl

theorem rxwinEnd_completes (hcmd : (s.sl c).tx.cmd = none) (hended : w.stop ≤ s.tb) :
    Does (.rxwinEnd c up) s (fun s =>
      (s.modTx c (fun t => t.windowEnded (w.ungrantedUs (s.sl c).tx.gnt s.tb up))).complete w.cmd 0
        (le 4 (w.ungrantedUs (s.sl c).tx.gnt s.tb up))) := by
  have he : exec (.rxwinEnd c up) s = execRxwinEnd c up s := rfl
  unfold execRxwinEnd at he
  refine run_does_from he ?_
  rintro u o rfl
  let n := w.ungrantedUs (u.sl c).tx.gnt u.tb up
  have hfreed : u.modTx c (fun t => ({ t with
      windows := t.windows.erase w, events := if n = 0 then t.events else raise t.events 6 } : Tx).coexPins)
        = u.modTx c (fun t => t.windowEnded n) := modTx_congr_at (coexPins_windowEnded hwindows hcmd n)
  have hnone : (((u.modTx c (fun t => t.windowEnded n)).complete w.cmd 0 (le 4 n)).sl c).tx.cmd = none := by
    rw [sl_of_offRecord (complete_offRecord ..), tx_modTx]
    exact hcmd
  dsimp only
  rw [endedWindow_one (s := u) hwindows u.tb, if_pos (show w.stop ≤ u.tb from hended)]
  dsimp only
  rw [ungrantedUs_eq]
  refine Eq.trans ?_ (txCheck_uncommanded hnone)
  rw [← hfreed]
  rfl

end

/-- Settles O54: the lock of a calibration and its loss, a window that is taken, the windows that open, and one that ends
or does not yet. How a part of a microsecond without a grant counts is log entry 81. -/
theorem txSynthAndWindows : Obligations.TxSynthAndWindows := by
  intro c s
  refine ⟨fun band us hlock hwant hcoast hcal hcmd => ?locked,
    fun hlock hcmd => synthLockLoss_recalibrates hcmd hlock,
    fun cmd hhand hup hlong hshort hpri hroom hlater hothers _ => ?taken,
    rxwinOpen_opens, fun w up hwindows hended hcmd => rxwinEnd_completes hwindows up hcmd hended,
    fun w up hwindows hearly => rxwinEnd_early hwindows up hearly⟩
  case locked =>
    obtain ⟨t, ht, htx, hothers, hsram, hpwr, hqueues⟩ := synthLocked_locks hcmd band us hlock hwant hcoast hcal
    obtain ⟨hfrac, hnear⟩ := synthWords_nearest (s.sl c).tx.wantFreq
    refine ⟨t, ht, ?_⟩
    dsimp only
    rw [htx]
    exact ⟨rfl, fun _ => synthDiv_smallest _, hfrac, hnear, hothers, hsram, hpwr, hqueues⟩
  case taken =>
    refine command_gives (exec_txRxwin c s) (fun _ _ _ _ h => h) hhand ?_
    rintro u o rfl
    rw [takeWindow_holds (s := u) hup hlong hshort hpri hroom, ← window_later (cmd := cmd) hlater]
    exact ⟨holdWindow_windows (s := u) hlater hothers, keep_waits u cmd⟩

end Sys2Proof.Machine
end

section
/-! SUPPORT. The block as a whole: the queue of waiting commands, the state after a module reset, and MODRESET (R381,
R382, R430). -/

namespace Sys2Proof.Machine

open Sys2Proof

/-! ### The queue of waiting commands (log entry 3) -/

/-- Settles O1: the front of the queue is what a step runs. -/
theorem stepRunsFront : Obligations.StepRunsFront := fun _ _ _ => rfl

/-- What runs an effect answers, with the queue as it was. -/
theorem run_answers (s : State) (f : State → State) : ∃ t, run s f = .next t ∧ t.pending = s.pending := ⟨_, rfl, rfl⟩

/-- Every command of the table runs an effect: none faults and none is refused. -/
theorem exec_answers (i : Instr) (s : State) : ∃ t, exec i s = .next t ∧ t.pending = s.pending := by
  unfold exec
  cases i <;> exact run_answers s _

/-- Settles O2: a step is a tick, which keeps the empty queue, or a command on the queue's rest. -/
theorem stepTakesOneCommand : Obligations.StepTakesOneCommand := by
  refine ⟨exec_answers, fun s => ?_⟩
  cases hq : s.pending with
  | nil => exact ⟨tick s, step_empty hq, hq⟩
  | cons c cs =>
    have hstep : step s = exec c { s with pending := cs } := by
      unfold step
      rw [hq]
    obtain ⟨t, ht, hpending⟩ := exec_answers c { s with pending := cs }
    exact ⟨t, hstep.trans ht, hpending⟩

/-! ### The state after module reset -/

/-- Each bay starts with its slice as `Slice.reset` makes it. -/
theorem sl_reset (c : Fin 4) : State.reset.sl c = Slice.reset c.val := by
  match c with
  | 0 => rfl
  | 1 => rfl
  | 2 => rfl
  | 3 => rfl

/-- No key slot holds a key. -/
theorem slotAt_reset (c k : Nat) : (Slice.reset c).slotAt k = KeySlot.fresh := by
  simp [Slice.slotAt, Slice.reset, Mac.reset, vget]

/-- Settles O4, block by block. That a slice SRAM lists nothing is log entry 8, the cartridges fitted are log entry 6. -/
theorem resetState : Obligations.ResetState := by
  refine ⟨rfl, rfl, rfl, rfl, rfl, rfl, rfl, rfl, rfl, fun c => ?_⟩
  rw [sl_reset]
  exact ⟨rfl, rfl, rfl, rfl, rfl, rfl, fun k => by rw [slotAt_reset]; rfl⟩

/-- Settles O5: a slice SRAM that lists nothing is in its canonical form. -/
theorem sramFormAtReset : Obligations.SramFormAtReset := by
  intro c
  rw [sl_reset]
  rfl

/-! ### MODRESET (R430) -/

theorem exec_modreset (v : Word) (s : State) : exec (.modreset v) s = run s (fun s =>
    if v = 0x5A170001 then s.moduleReset 4 else s.tapInstr 0x22) := rfl

/-- Under the reset key's register the data register captures 0. -/
theorem captured_modreset (t : Tap) (bsr : BitVec 114) (h : t.ir = 0x22) : t.captured bsr = 0 := by
  simp [Tap.captured, h]

/-- Settles O60: the key, what its reset leaves, and any other value. That the data register then holds 0 and EXTEST is
no longer in force is log entry 63. -/
theorem modresetKey : Obligations.ModresetKey := by
  intro s
  refine ⟨?key, ?left, fun v hv => ?other⟩
  case key => exact run_does_from (exec_modreset ..) fun u o _ => if_pos rfl
  case left =>
    refine run_gives_from (exec_modreset ..) (fun _ _ _ _ h => h) fun u o _ => ?_
    rw [if_pos rfl]
    exact ⟨rfl, rfl⟩
  case other =>
    refine run_gives_from (exec_modreset ..) (fun _ _ _ _ h => h) ?_
    rintro u o rfl
    obtain ⟨o', h⟩ := tapInstr_shape u 0x22
    rw [if_neg hv, h, captured_modreset _ _ rfl]
    exact ⟨rfl, rfl, rfl, rfl, rfl, rfl, rfl, rfl, rfl, rfl⟩

end Sys2Proof.Machine
end

section
/-! SUPPORT. The power steward (R368 to R377): a grant cycle with no request and with a single one. -/

namespace Sys2Proof.Machine

open Sys2Proof

theorem exec_grantCycle (s : State) : exec .grantCycle s = run s State.grantCycle := rfl

/-! ### What a decision leads to -/

theorem granted_port (s : State) {i : Nat} (hlo : 6 ≤ i) (hhi : i ≤ 8) : s.granted i = s := by
  unfold State.granted
  rw [if_neg (by omega), if_neg (by omega), if_pos hhi]

theorem granted_tuner (s : State) (c : Fin 4) :
    s.granted (14 + c.val) = s.modAfe c (fun a => { a with searching := true }) := by
  unfold State.granted
  rw [if_neg (by omega), if_neg (by omega), if_neg (by omega), if_neg (by omega), if_neg (by omega),
    Nat.add_sub_cancel_left, Fin.ofNat_val_eq_self]

/-- A POWER_EVENT record changes nothing beyond what records pass through. -/
theorem powerEvent_offRecord (s : State) (kind status : Nat) (req : Option Nat) (tokens : Nat) :
    (s.powerEvent kind status req tokens).offRecord = s.offRecord := stageOrHold_offRecord ..

@[simp] theorem powerEvent_pwr (s : State) (kind status : Nat) (req : Option Nat) (tokens : Nat) :
    (s.powerEvent kind status req tokens).pwr = s.pwr := pwr_of_offRecord (powerEvent_offRecord ..)

/-- A request of the auxiliary output that is refused (R373, R377). -/
theorem refuse_aux (s : State) : (s.refuse 9).pwr = { s.pwr with
    want := vmod s.pwr.want 9 (fun _ => 0), refused := min (s.pwr.refused + 1) 0xFFFF,
    events := s.pwr.events ||| 8 ||| 0x20, aux := .off } := by
  let f (p : Pwr) : Pwr := { p with
    want := vmod p.want 9 (fun _ => 0), refused := min (p.refused + 1) 0xFFFF,
    events := p.events ||| 8 ||| 0x20, aux := .off }
  exact congrArg f (powerEvent_pwr s 1 Status.budget (some 9) (s.wants 9))

/-! ### The cycle (R372) -/

/-- The requests pending at the start of a cycle when nobody asks. -/
theorem pendingReqs_none {s : State} (h : ∀ i, i < 18 → s.wants i = 0) : s.pendingReqs = [] := by
  refine List.filter_eq_nil_iff.mpr fun i hi => ?_
  simp [h i (List.mem_range.mp hi)]

/-- The requests pending at the start of a cycle when one requester asks and no swap runs. -/
theorem pendingReqs_lone {s : State} {i : Nat} (hi : i < 18) (hasks : s.wants i ≠ 0)
    (hothers : ∀ j, j < 18 → j ≠ i → s.wants j = 0) (hswap : s.mod.swapping = none) : s.pendingReqs = [i] := by
  have hpick : ∀ j ∈ List.range 18, (s.wants j != 0 && !(j == 1 && s.swapping)) = (j == i) := by
    intro j hj
    by_cases hji : j = i
    · simp [hji, hasks, State.swapping, hswap]
    · simp [hji, hothers j (List.mem_range.mp hj) hji]
  unfold State.pendingReqs
  rw [List.filter_congr hpick, List.filter_beq, List.count_eq_one_of_mem List.nodup_range (List.mem_range.mpr hi)]
  rfl

theorem reqClass_lt (i : Nat) : reqClass i < 4 := by
  unfold reqClass
  split_ifs <;> decide

/-- How a lone request of its class is decided: granted where its tokens are free, else it waits or is refused. -/
def State.decided (s : State) (i : Nat) : State :=
  if s.pwr.fits i then (s.modPwr (fun p => p.grant i)).granted i else if reqWaits i then s else s.refuse i

theorem walkClass_lone (s : State) (cls : Nat) {i : Nat} (hasks : s.wants i ≠ 0) :
    (State.walkClass cls 1 [i] false s).1 = s.decided i := by
  simp only [State.walkClass, arbPick_lone, if_neg hasks, State.decided, Bool.not_false, Bool.true_and]
  split_ifs <;> rfl

/-- A cycle without a request only applies what was given back. -/
theorem grantCycle_none {s : State} (h : ∀ i, i < 18 → s.wants i = 0) :
    s.grantCycle = s.modPwr Pwr.applyReleases := by
  have hreqs : (s.modPwr Pwr.applyReleases).pendingReqs = [] := pendingReqs_none h
  unfold State.grantCycle
  dsimp only
  rw [hreqs]
  rfl

/-- A cycle with one request applies what was given back and decides that one. -/
theorem grantCycle_lone {s : State} {i : Nat} (hi : i < 18) (hasks : s.wants i ≠ 0)
    (hothers : ∀ j, j < 18 → j ≠ i → s.wants j = 0) (hswap : s.mod.swapping = none) :
    s.grantCycle = (s.modPwr Pwr.applyReleases).decided i := by
  have hreqs : (s.modPwr Pwr.applyReleases).pendingReqs = [i] := pendingReqs_lone hi hasks hothers hswap
  have hwalk := fun cls => walkClass_lone (s.modPwr Pwr.applyReleases) cls hasks
  unfold State.grantCycle
  dsimp only
  rw [hreqs]
  have hcls := reqClass_lt i
  generalize hk : reqClass i = k at hcls
  match k, hcls with
  | 0, _ => simp [hk, State.walkClass, ← hwalk 0]
  | 1, _ => simp [hk, State.walkClass, ← hwalk 1]
  | 2, _ => simp [hk, State.walkClass, ← hwalk 2]
  | 3, _ => simp [hk, State.walkClass, ← hwalk 3]

/-- The lone request decided: granted where its tokens are free. -/
theorem decided_granted {s : State} {i : Nat} (h : s.pwr.granted + vget s.pwr.want i 0 ≤ s.pwr.effective) :
    s.decided i = (s.modPwr (fun p => p.grant i)).granted i := if_pos (decide_eq_true h)

theorem decided_waits {s : State} {i : Nat} (h : ¬ s.pwr.granted + vget s.pwr.want i 0 ≤ s.pwr.effective)
    (hwaits : reqWaits i = true) : s.decided i = s := by
  unfold State.decided
  rw [if_neg (by simpa [Pwr.fits] using h), if_pos hwaits]

theorem decided_refused {s : State} {i : Nat} (h : ¬ s.pwr.granted + vget s.pwr.want i 0 ≤ s.pwr.effective)
    (hwaits : reqWaits i = false) : s.decided i = s.refuse i := by
  unfold State.decided
  rw [if_neg (by simpa [Pwr.fits] using h), hwaits, if_neg Bool.false_ne_true]

/-- Settles O46: no request; one whose tokens are free, by its requester; one whose tokens are not. That the auxiliary
output is on from its grant, and off at the next cycle once it falls, is log entry 55. -/
theorem grantCycles : Obligations.GrantCycles := by
  intro s applied given
  refine ⟨fun hnone => ?none, fun i hi hasks hothers hswap => ⟨fun hfree => ?free, fun hfull => ?full⟩⟩
  case none =>
    refine run_does_from (exec_grantCycle s) ?_
    rintro u o rfl
    exact grantCycle_none (s := u) hnone
  case free =>
    have hdone {g : State → State}
        (h : ∀ u o, s = { u with out := o } → (u.modPwr (fun p => (applied p).grant i)).granted i = g u) :
        Does .grantCycle s g := by
      refine run_does_from (exec_grantCycle s) fun u o hu => ?_
      subst hu
      rw [grantCycle_lone (s := u) hi hasks hothers hswap, decided_granted (s := u.modPwr Pwr.applyReleases) hfree]
      exact h u o rfl
    refine ⟨?_, fun hport => ?_, ?_, ?_⟩
    · rintro rfl
      exact hdone fun _ _ _ => rfl
    · exact hdone fun u _ _ => granted_port _ hport.1 hport.2
    · rintro rfl
      exact hdone fun _ _ _ => rfl
    · rintro c rfl
      exact hdone fun u _ _ => granted_tuner _ c
  case full =>
    refine ⟨?_, ?_⟩
    · rintro rfl
      refine run_does_from (exec_grantCycle s) ?_
      rintro u o rfl
      rw [grantCycle_lone (s := u) hi hasks hothers hswap, decided_waits (s := u.modPwr Pwr.applyReleases) hfull rfl]
      rfl
    · rintro rfl
      refine run_gives_from (exec_grantCycle s) (fun _ _ _ _ h => h) ?_
      rintro u o rfl
      rw [grantCycle_lone (s := u) hi hasks hothers hswap, decided_refused (s := u.modPwr Pwr.applyReleases) hfull rfl, refuse_aux]
      rfl

end Sys2Proof.Machine
end

section
/-! SUPPORT. Saved settings: a command that waits for a flash write of 4 KiB or is refused it (R397). -/

namespace Sys2Proof.Machine

open Sys2Proof

/-- A command whose result is written to flash: it waits for the write, or the budget of the day is spent. -/
def State.save (s : State) (cmd : Command) (j : FlashJob) : State :=
  match (s.keep cmd).flashWrite (.pool 4) j with
  | some s1 => s1
  | none => s.flashDeny.finish cmd Status.budget []

theorem flashUsed_flashJob (s : State) (kib : Nat) (j : FlashJob) :
    (s.flashJob (.pool kib) j).flashUsed = s.flashUsed + kib := by
  have hlog : (s.flashJob (.pool kib) j).fls.log
      = s.fls.log.filter (fun e => decide (s.real < e.1 + flashWindow)) ++ [(s.real, kib)] := by
    unfold State.flashJob State.queueJob
    dsimp only
    split <;> rfl
  have hreal : (s.flashJob (.pool kib) j).real = s.real := by
    unfold State.flashJob State.queueJob
    dsimp only
    split <;> rfl
  have hnow : s.real < s.real + flashWindow := Nat.lt_add_of_pos_right (by decide)
  unfold State.flashUsed
  rw [hlog, hreal, List.filter_append, List.filter_filter]
  simp [hnow]

section
variable {s : State} {cmd : Command} (j : FlashJob)

theorem save_waits (h : s.flashUsed + 4 ≤ bf s.fls.limit 0 16) :
    s.save cmd j = (s.keep cmd).flashJob (.pool 4) j := by
  rw [State.save, flashWrite_pool (s.keep cmd) j h]

theorem save_denied (h : bf s.fls.limit 0 16 < s.flashUsed + 4) :
    s.save cmd j = s.flashDeny.finish cmd Status.budget [] := by
  have hnone : (s.keep cmd).flashWrite (.pool 4) j = none := if_pos (decide_eq_true h)
  rw [State.save, hnone]

/-- A save within the budget of the day: its job is the last, it counts 4 KiB, and its command is outstanding. -/
theorem save_leaves (h : s.flashUsed + 4 ≤ bf s.fls.limit 0 16) :
    (s.save cmd j).fls.jobs = s.fls.jobs ++ [j] ∧ (s.save cmd j).flashUsed = s.flashUsed + 4
      ∧ ((s.save cmd j).qu cmd.queue).inHand = none ∧ cmd.ref ∈ ((s.save cmd j).qu cmd.queue).outstanding := by
  rw [save_waits j h]
  obtain ⟨hjobs, -, houtstanding, -⟩ := flashJob_waits s cmd (.pool 4) j
  obtain ⟨-, -, hqueues, -⟩ := flashJob_leaves (s.keep cmd) (.pool 4) j
  refine ⟨hjobs, flashUsed_flashJob (s.keep cmd) 4 j, ?_, houtstanding⟩
  rw [State.qu, hqueues]
  exact congrArg Queue.inHand (State.qu_modQ s cmd.queue _)

end

end Sys2Proof.Machine
end

section
/-! SUPPORT. The power steward and the supply (R367 to R380): the input and its classes, the budget, and the auxiliary
output. -/

namespace Sys2Proof.Machine

open Sys2Proof

/-! ### How long a condition has held (R367) -/

theorem since_decide (p : Prop) [Decidable p] (now : Nat) (was : Option Nat) :
    since (decide p) now was = if p then some (was.getD now) else none := by
  simp [since]

theorem any_long {was : Option Nat} {t n now : Nat} (hwas : was = some t) (h : t + n ≤ now) :
    was.any (fun t => decide (t + n ≤ now)) = true := by
  simp [hwas, h]

theorem any_short {was : Option Nat} {n now : Nat} (h : ∀ t, was = some t → now < t + n) :
    was.any (fun t => decide (t + n ≤ now)) = false := by
  cases was with
  | none => rfl
  | some t => simpa using h t rfl

theorem held_long {was : Option Nat} {t ms now : Nat} (hwas : was = some t) (h : t + msTicks ms ≤ now) :
    held was ms now = true := any_long hwas h

theorem held_short {was : Option Nat} {ms now : Nat} (h : ∀ t, was = some t → now < t + msTicks ms) :
    held was ms now = false := any_short h

theorem exec_inputMeasurement (m : InputMeas) (s : State) : exec (.inputMeasurement m) s = run s (fun s =>
    s.modPwr (fun p => { p with
      lowSince := since (decide (m.dv.toNat < if m.ac then 850 else 1200)) s.real p.lowSince,
      backSince := since (decide ((if m.ac then 850 else 1200) ≤ m.dv.toNat)) s.real p.backSince,
      goodSince := since (decide ((if m.ac then 900 else 1250) ≤ m.dv.toNat)) s.real p.goodSince,
      inputDv := m.dv.toNat, ac := m.ac, freq := if m.ac then m.freq.toNat else 0,
      drawNow := m.draw.toNat, drawPeak := max p.drawPeak m.draw.toNat,
      railMv := vmapIdx (fun i mv => (m.rails[i]?.map (fun r => r.1.toNat)).getD mv) p.railMv,
      railOk := vmapIdx (fun i ok => (m.rails[i]?.map (fun r => r.2)).getD ok) p.railOk })) := rfl

/-! ### The classes of the input (R375, R376) -/

/-- The steward once the effective budget has gone from `was` to what it is: OVER_BUDGET where it was lowered below the
tokens granted (R374). -/
def Pwr.overChecked (p : Pwr) (was : Nat) : Pwr :=
  { p with events := p.events ||| (if p.effective < was ∧ p.effective < p.granted then 0x10 else 0) }

theorem checkOver_offRecord (s : State) (was : Nat) :
    (s.checkOver was).offRecord = { s.offRecord with pwr := s.pwr.overChecked was } := by
  unfold State.checkOver Pwr.overChecked
  split
  · exact powerEvent_offRecord ..
  · rw [show s.pwr.events ||| 0 = s.pwr.events from BitVec.or_zero]
    rfl

/-- The steward in another input class, with the event of the change. -/
def Pwr.reclassed (p : Pwr) (k : InputClass) (event : Nat) : Pwr :=
  ({ p with cls := k, events := raise p.events event } : Pwr).overChecked p.effective

theorem setClass_offRecord (s : State) (k : InputClass) (event kind : Nat) :
    (s.setClass k event kind).offRecord = { s.offRecord with pwr := s.pwr.reclassed k event } := by
  unfold State.setClass
  dsimp only
  rw [checkOver_offRecord, powerEvent_offRecord, powerEvent_pwr]
  rfl

theorem setClass_pwr (s : State) (k : InputClass) (event kind : Nat) :
    (s.setClass k event kind).pwr = s.pwr.reclassed k event :=
  (congrArg State.pwr (setClass_offRecord s k event kind) : _)

theorem setClass_sl (s : State) (k : InputClass) (event kind : Nat) (c : Fin 4) :
    (s.setClass k event kind).sl c = s.sl c :=
  (congrArg (fun u : State => u.sl c) (setClass_offRecord s k event kind) : _)

theorem exec_brownOut (s : State) : exec .brownOut s = run s (fun s =>
    if s.pwr.cls = .normal ∧ held s.pwr.lowSince 100 s.real then s.setClass .brownOut 0 3 else s) := rfl

theorem exec_normalRestored (s : State) : exec .normalRestored s = run s (fun s =>
    if s.pwr.cls = .brownOut ∧ held s.pwr.goodSince 1000 s.real then s.setClass .normal 2 4 else s) := rfl

/-- The input class BROWN_OUT after INPUT_LOSS; a flash write that waits asks for its tokens again (log entries 55,
89). -/
def State.inputBack (s : State) : State :=
  let s1 := s.setClass .brownOut 2 6
  if s.fls.jobs.isEmpty ∨ s.fls.running then s1 else s1.ask flashReq flashTokens

theorem exec_inputReturn (s : State) : exec .inputReturn s = run s (fun s =>
    if s.pwr.cls = .inputLoss ∧ held s.pwr.backSince 100 s.real then s.inputBack else s) := rfl

section
variable {i : Instr} {s : State} {k : InputClass} {was : Pwr → Option Nat} {ms : Nat} {f : State → State}
  (he : exec i s = run s (fun s => if s.pwr.cls = k ∧ held (was s.pwr) ms s.real then f s else s))
include he

/-- In another class, a change of the class does nothing. -/
theorem classChange_elsewhere (h : s.pwr.cls ≠ k) : Does i s id := by
  refine run_does_from he ?_
  rintro u o rfl
  exact if_neg fun hk => h hk.1

/-- Before its time, a change of the class does nothing. -/
theorem classChange_early (h : ∀ t, was s.pwr = some t → s.real < t + msTicks ms) : Does i s id := by
  refine run_does_from he ?_
  rintro u o rfl
  exact if_neg fun hk => Bool.false_ne_true ((held_short h).symm.trans hk.2)

/-- At its time, a change of the class takes place. -/
theorem classChange_due {t : Nat} {P : State → Prop} (hk : s.pwr.cls = k) (hwas : was s.pwr = some t)
    (hlong : t + msTicks ms ≤ s.real)
    (hP : ∀ t o p l, P t → P { t with out := o, qmg := { t.qmg with msixPba := p }, pending := l })
    (h : ∀ u o, s = { u with out := o } → P (f u)) : Gives i s P := by
  refine run_gives_from he hP fun u o hu => ?_
  have hdue : u.pwr.cls = k ∧ held (was u.pwr) ms u.real = true := by
    subst hu
    exact ⟨hk, held_long hwas hlong⟩
  rw [if_pos hdue]
  exact h u o hu

end

/-! ### The loss of the input (R376) -/

theorem exec_inputLoss (s : State) : exec .inputLoss s = run s (fun s =>
    if s.pwr.cls = .inputLoss then s
    else (allSlices.foldl (fun t c => t.txStarve c) (s.setClass .inputLoss 1 5)).modPwr (fun p =>
      { p with want := vmod p.want flashReq (fun _ => 0) })) := rfl

theorem txStarve_idle {s : State} {c : Fin 4} (h : (s.sl c).tx.state ≠ .prepare ∧ (s.sl c).tx.state ≠ .wait) :
    s.txStarve c = s := by
  obtain ⟨hprepare, hwait⟩ := h
  unfold State.txStarve
  split
  · exact absurd ‹_› hprepare
  · exact absurd ‹_› hwait
  · rfl

/-- Where no burst waits for its key-up, the loss of the input ends none. -/
theorem inputLoss_idle {s : State} (h : ∀ c, (s.sl c).tx.state ≠ .prepare ∧ (s.sl c).tx.state ≠ .wait) :
    allSlices.foldl (fun t c => t.txStarve c) (s.setClass .inputLoss 1 5) = s.setClass .inputLoss 1 5 :=
  List.foldl_fixed' (fun c => txStarve_idle (by rw [setClass_sl]; exact h c)) _

/-! ### The budget (R374) -/

theorem exec_budgetWrite (v : Word) (s : State) : exec (.budgetWrite v) s = run s (fun s =>
    s.moduleWrite fun s => s.writeBudget v) := rfl

section
variable {s : State} {v : Word}

theorem writeBudget_rejected (h : ¬(240 ≤ bf v 0 10 ∧ bf v 0 10 ≤ 640 ∧ 240 ≤ bf v 16 10 ∧ bf v 16 10 ≤ 640)) :
    s.writeBudget v = s.pwrReject := by
  unfold State.writeBudget
  dsimp only
  refine if_pos ?_
  simp only [Bool.or_eq_true, Bool.not_eq_true', Bool.and_eq_false_iff, decide_eq_false_iff_not]
  omega

/-- A budget in range is in force, and what is held, asked for and classed stays. -/
theorem writeBudget_taken (h : 240 ≤ bf v 0 10 ∧ bf v 0 10 ≤ 640 ∧ 240 ≤ bf v 16 10 ∧ bf v 16 10 ≤ 640) :
    let p := (s.writeBudget v).pwr
    p.budget = mkWord [(16, 10, bf v 16 10), (0, 10, bf v 0 10)] ∧ p.held = s.pwr.held ∧ p.want = s.pwr.want
      ∧ p.cls = s.pwr.cls := by
  obtain ⟨hlo, hhi, hlo', hhi'⟩ := h
  unfold State.writeBudget
  dsimp only
  rw [if_neg (by simp [hlo, hhi, hlo', hhi'])]
  split
  next hsame => exact ⟨hsame.symm, rfl, rfl, rfl⟩
  next =>
    have hpwr (u : State) (was : Nat) : (u.checkOver was).pwr = u.pwr.overChecked was :=
      (congrArg State.pwr (checkOver_offRecord u was) : _)
    rw [hpwr, powerEvent_pwr]
    exact ⟨rfl, rfl, rfl, rfl⟩

end

/-! ### The auxiliary output (R377) -/

theorem exec_auxWrite (v : Word) (s : State) : exec (.auxWrite v) s = run s (fun s =>
    s.moduleWrite fun s => s.writeAux v) := rfl

section
variable {s : State} {v : Word}

theorem writeAux_rejected (h : 500 < bf v 0 10) : s.writeAux v = s.pwrReject := by
  unfold State.writeAux
  dsimp only
  exact if_pos (by simp [h])

theorem writeAux_asks (hpos : 0 < bf v 0 10) (hmax : bf v 0 10 ≤ 500) (hen : bit v 31 = true) (hoff : s.pwr.aux = .off) :
    s.writeAux v = ((s.modPwr (fun p => { p with auxMa := bf v 0 10 })).modPwr (fun p =>
      { p with aux := .requested })).ask auxReq (auxTokens (bf v 0 10)) := by
  unfold State.writeAux
  dsimp only
  rw [if_neg (by simp [hoff, Nat.not_lt.mpr hmax, Nat.ne_of_gt hpos]), hoff, hen]

theorem writeAux_ends (hmax : bf v 0 10 ≤ 500) (hload : bf v 0 10 = s.pwr.auxMa) (hen : bit v 31 = false)
    (hon : s.pwr.aux = .on) : s.writeAux v = ((s.modPwr (fun p => { p with auxMa := bf v 0 10 })).releaseAll
      auxReq).modPwr (fun p => { p with aux := .falling }) := by
  unfold State.writeAux
  dsimp only
  rw [if_neg (by simp [hen, hload.symm, Nat.not_lt.mpr hmax]), hon, hen]

end

theorem exec_auxFault (s : State) : exec .auxFault s = run s (fun s =>
    if s.pwr.aux = .on then
      (((s.releaseAll auxReq).modPwr (fun p => { p with aux := .off })).pwrEvent 6).powerEvent 8 Status.ok
        (some auxReq) 0
    else s) := rfl

/-! ### Commands (R379) -/

theorem exec_pwrQuery (s : State) : exec .pwrQuery s = run s (fun s =>
    s.onCommand 12 0x68 fun s cmd => s.finish cmd 0 s.pwr.query) := by
  change execPwrQuery s = _
  unfold execPwrQuery
  refine congrArg (run s) (funext fun u => ?_)
  unfold State.onCommand
  cases u.inHand 12 0x68 with
  | none => rfl
  | some cmd => rfl

theorem exec_pwrSave (s : State) : exec .pwrSave s = run s (fun s =>
    s.onCommand 12 0x69 fun s cmd => s.save cmd (.pwrSave cmd.ref s.pwr.budget)) := rfl

/-! ### The statement -/

/-- What a measurement shows of a rail, where it lists the rail. -/
theorem rail_shown {α : Type} (l : List (BitVec 16 × Bool)) (i : Nat) (f : BitVec 16 × Bool → α) (old : α) :
    (l[i]?.map f).getD old = (match l[i]? with | some r => f r | none => old) := by
  cases l[i]? with
  | none => rfl
  | some r => rfl

/-- Settles O47: a measurement; the changes of the class by the class in force; the loss of the input; the budget and
the auxiliary output; the two commands. That the input returns into BROWN_OUT, and that the output falls until the next
grant cycle, is log entry 55; that a flash write asks again once the input returns is log entry 89. -/
theorem powerInput : Obligations.PowerInput := by
  intro s put classed
  refine ⟨fun m => ?measured, fun hcls => ?normal, fun hcls => ?brownOut, fun hcls => ?lost, fun hcls hidle => ?loss,
    fun hready hswap => ⟨fun v => ⟨fun hbad => ?badBudget, fun hok => ?budget⟩,
      fun v => ⟨fun hbad => ?badAux, fun hpos hmax hen hoff => ?auxOn, fun hmax hload hen hon => ?auxOff⟩⟩,
    fun hoff => ?noFault, fun hon => ?fault, fun cmd hhand => ?query,
    fun cmd hhand => ⟨fun hfull => ?saveDenied, fun hroom => ?saveWaits⟩⟩
  case measured =>
    refine run_does_from (exec_inputMeasurement m s) ?_
    rintro u o rfl
    simp only [since_decide, rail_shown]
    rfl
  case normal =>
    refine ⟨fun t hwas hlong => ?_, fun hearly => classChange_early (exec_brownOut s) hearly,
      classChange_elsewhere (exec_normalRestored s) (by rw [hcls]; decide),
      classChange_elsewhere (exec_inputReturn s) (by rw [hcls]; decide)⟩
    refine classChange_due (exec_brownOut s) hcls hwas hlong (fun _ _ _ _ h => h) ?_
    rintro u o rfl
    exact ⟨by rw [setClass_pwr]; rfl, by rw [setClass_pwr]; rfl⟩
  case brownOut =>
    refine ⟨fun t hwas hlong => ?_, fun hearly => classChange_early (exec_normalRestored s) hearly,
      classChange_elsewhere (exec_brownOut s) (by rw [hcls]; decide),
      classChange_elsewhere (exec_inputReturn s) (by rw [hcls]; decide)⟩
    refine classChange_due (exec_normalRestored s) hcls hwas hlong (fun _ _ _ _ h => h) ?_
    rintro u o rfl
    exact ⟨by rw [setClass_pwr]; rfl, by rw [setClass_pwr]; rfl⟩
  case lost =>
    refine ⟨fun t hwas hlong => ?_, fun hearly => classChange_early (exec_inputReturn s) hearly, ?_⟩
    · refine classChange_due (exec_inputReturn s) hcls hwas hlong (fun _ _ _ _ h => h) ?_
      rintro u o rfl
      unfold State.inputBack
      dsimp only
      by_cases hwait : u.fls.jobs = [] ∨ u.fls.running = true
      · rw [if_pos hwait, if_pos (by simpa using hwait)]
        exact ⟨by rw [setClass_pwr]; rfl, by rw [setClass_pwr]; rfl⟩
      · rw [if_neg hwait, if_neg (by simpa using hwait)]
        unfold State.ask
        dsimp only
        rw [setClass_pwr]
        exact ⟨rfl, rfl⟩
    · refine run_does_from (exec_inputLoss s) ?_
      rintro u o rfl
      exact if_pos hcls
  case loss =>
    refine run_gives_from (exec_inputLoss s) (fun _ _ _ _ h => h) ?_
    rintro u o rfl
    rw [if_neg hcls, inputLoss_idle (s := u) hidle]
    unfold State.modPwr
    dsimp only
    rw [setClass_pwr]
    exact ⟨rfl, rfl⟩
  case badBudget =>
    refine run_does_from (exec_budgetWrite v s) ?_
    rintro u o rfl
    rw [moduleWrite_taken u _ hready hswap, writeBudget_rejected hbad]
    rfl
  case budget =>
    refine run_gives_from (exec_budgetWrite v s) (fun _ _ _ _ h => h) ?_
    rintro u o rfl
    rw [moduleWrite_taken u _ hready hswap]
    exact writeBudget_taken hok
  case badAux =>
    refine run_does_from (exec_auxWrite v s) ?_
    rintro u o rfl
    rw [moduleWrite_taken u _ hready hswap, writeAux_rejected hbad]
    rfl
  case auxOn =>
    refine run_does_from (exec_auxWrite v s) ?_
    rintro u o rfl
    rw [moduleWrite_taken u _ hready hswap, writeAux_asks (s := u) hpos hmax hen hoff]
    rfl
  case auxOff =>
    refine run_does_from (exec_auxWrite v s) ?_
    rintro u o rfl
    rw [moduleWrite_taken u _ hready hswap, writeAux_ends (s := u) hmax hload hen hon, hload]
    rfl
  case noFault =>
    refine run_does_from (exec_auxFault s) ?_
    rintro u o rfl
    exact if_neg hoff
  case fault =>
    refine run_gives_from (exec_auxFault s) (fun _ _ _ _ h => h) ?_
    rintro u o rfl
    rw [if_pos (show u.pwr.aux = .on from hon), powerEvent_pwr]
    rfl
  case query =>
    exact command_does (exec_pwrQuery s) hhand fun _ _ _ => rfl
  case saveDenied =>
    refine command_does (exec_pwrSave s) hhand ?_
    rintro u o rfl
    exact save_denied (s := u) _ hfull
  case saveWaits =>
    refine command_gives (exec_pwrSave s) (fun _ _ _ _ h => h) hhand ?_
    rintro u o rfl
    exact save_leaves (s := u) _ hroom

end Sys2Proof.Machine
end

section
/-! SUPPORT. Module resets and the start-up (R376, R381 to R386, R393, R407): what a reset leaves, and what MODULE_READY
takes up. -/

namespace Sys2Proof.Machine

open Sys2Proof

/-! ### Module resets (R381) -/

theorem sl_moduleReset (s : State) (cause : Nat) (c : Fin 4) :
    (s.moduleReset cause).sl c = (s.sl c).moduleReset c.val cause :=
  get_vmapIdx (fun c x => Slice.moduleReset c x cause) s.slices c

theorem exec_powerUp (s : State) : exec .powerUp s = run s (fun s =>
    if s.mod.ready then s else s.moduleReset 0) := rfl

theorem exec_watchdogExpiry (s : State) : exec .watchdogExpiry s = run s (fun s =>
    if s.swapping ∨ !s.mod.ready then s else s.moduleReset 2) := rfl

theorem exec_moduleReset (v : Word) (s : State) : exec (.moduleReset v) s = run s (fun s =>
    s.moduleWrite fun s => s.writeModCtl v) := rfl

theorem exec_railCollapse (s : State) : exec .railCollapse s = run s (fun s =>
    if s.pwr.cls = .inputLoss then s.moduleReset 3 else s) := rfl

theorem exec_supervisorEccError_lost (s : State) :
    exec (.supervisorEccError false) s = run s (fun s => s.moduleReset 2) := rfl

theorem exec_supervisorEccError_corrected (s : State) : exec (.supervisorEccError true) s = run s (fun s =>
    { s with errm := { s.errm with supEcc := count 16 1 s.errm.supEcc, events := raise s.errm.events 3 } }) := rfl

/-! ### The end of a swap (R393) -/

/-- MOD once a swap has ended. -/
def Mod.swapEnded (m : Mod) : Mod :=
  { m with swapping := none, busyWrite := false, events := if m.busyWrite then raise m.events 2 else m.events }

/-- What waited for a swap passes as records and completions do. -/
theorem afterSwap_offRecord (s : State) : s.afterSwap.offRecord = ({ s with mod := s.mod.swapEnded } : State).offRecord := by
  unfold State.afterSwap
  dsimp only
  rw [offRecord_foldl (fun _ _ => deliverDone_offRecord ..), offRecord_foldl (fun _ _ => stage_offRecord ..)]
  rfl

theorem swapEnd_offRecord (s : State) (cmd : Option CmdRef) (status : Nat) (result : List Byte) :
    (s.swapEnd cmd status result).offRecord = s.offRecord := by
  cases cmd with
  | none => rfl
  | some k => exact complete_offRecord ..

/-- A swap whose new image does not start: the old image goes on. -/
def State.swapFails (s : State) (w : Swap) : State :=
  (((s.modMod (fun m => { m with events := raise m.events 1 })).afterSwap).fault
    { status := Status.timeout, event := 0x1B, level := 3, action := 0, block := 0x90,
      detail := (s.mod.fw s.mod.other).toNat }).swapEnd w.cmd Status.timeout []

theorem exec_swapFail (oldFails : Bool) (s : State) :
    exec (.swapFail oldFails) s = run s (fun s => match s.mod.swapping with
      | none => s
      | some w => if oldFails then s.moduleReset 5 else s.swapFails w) := rfl

/-- What a failed swap leaves beyond records: MOD with its events, and TBM. -/
theorem swapFails_leaves (s : State) (w : Swap) :
    (s.swapFails w).offRecord.mod
        = { ({ s.mod with events := raise s.mod.events 1 } : Mod).swapEnded with heldRecs := [], heldDone := [] }
      ∧ (s.swapFails w).tbm = s.tbm := by
  have h : (s.swapFails w).offRecord = _ := (swapEnd_offRecord ..).trans (fault_offRecord ..)
  rw [afterSwap_offRecord] at h
  exact ⟨(congrArg State.mod h : _), (congrArg State.tbm h : _)⟩

/-! ### MODULE_READY (R382) -/

theorem readable_all (m : Mod) : m.readable [] = m := by
  have himages : vmapIdx (fun i v => if ([] : List FlashObject).contains (.image (i == 1)) then none else v) m.images
      = m.images := by
    refine Vector.ext fun i hi => ?_
    simp [vmapIdx]
  unfold Mod.readable
  rw [himages]

/-- Corrected errors of the flash are counted. -/
theorem eccReads_corrected {ecc : List FlashEcc} (h : ∀ e, e ∈ ecc → e.corrected = true) (s : State) :
    ∃ n, ecc.foldl (fun t e => t.eccRead e.corrected 0xFFFF) s = { s with fls := { s.fls with corrected := n } }
      ∧ (s.fls.corrected + ecc.length ≤ 0xFFFF → n = s.fls.corrected + ecc.length) := by
  induction ecc generalizing s with
  | nil => exact ⟨s.fls.corrected, rfl, fun _ => rfl⟩
  | cons e ecc ih =>
    obtain ⟨he, hecc⟩ := List.forall_mem_cons.mp h
    obtain ⟨n, hn, hcount⟩ := ih hecc (s.eccRead true 0xFFFF)
    refine ⟨n, ?_, fun hle => ?_⟩
    · rw [List.foldl_cons, he, hn]
      rfl
    · have hone : (s.eccRead true 0xFFFF).fls.corrected = min (s.fls.corrected + 1) 0xFFFF := rfl
      rw [hone] at hcount
      rw [List.length_cons] at hle ⊢
      omega

/-- Where every object can be read, the saved values of the trunk, the steward and the features are taken up. -/
theorem loadSaved_all (s : State) :
    let t := s.loadSaved []
    (t.mod = s.mod ∧ t.slices = s.slices ∧ t.tbm = s.tbm ∧ t.fls = s.fls)
      ∧ (∀ b, s.pwr.saved = some b → t.pwr.budget = b) ∧ (s.pwr.saved = none → t.pwr.budget = s.pwr.budget)
      ∧ ∀ a, s.fea.saved = some a → t.fea.accept = a ∧ t.fea.committed = true := by
  have hread {α : Type} (o : Option α) : o.filter (fun _ => true) = o := by cases o <;> rfl
  unfold State.loadSaved
  cases s.fls.trkSaved <;> cases hpower : s.pwr.saved <;> cases hfea : s.fea.saved <;>
    simp [hread, hpower, hfea, State.modPwr]

/-- The objects that the BCH code could not correct. -/
def unreadable (ecc : List FlashEcc) : List FlashObject := (ecc.filter (fun e => !e.corrected)).map (fun e => e.obj)

theorem unreadable_none {ecc : List FlashEcc} (h : ∀ e, e ∈ ecc → e.corrected = true) : unreadable ecc = [] := by
  rw [unreadable, List.map_eq_nil_iff, List.filter_eq_nil_iff]
  exact fun e he => by simp [h e he]

/-- The module once it is ready, before the reset is reported. -/
def State.started (s : State) (m : Mod) (ecc : List FlashEcc) : State :=
  let s0 := ecc.foldl (fun t e => t.eccRead e.corrected 0xFFFF) s
  let s1 := ({ s0 with mod := { m with ready := true } }).loadSaved (unreadable ecc)
  if m.resetCause = 2 then { s1 with errm := { s1.errm with events := raise s1.errm.events 4 } } else s1

/-- The record that reports a module reset (R434). -/
def resetReport (cause : Nat) : FaultInfo :=
  { status := Status.ok, event := 0x19, level := 3, action := 6, block := 0x90, detail := cause }

theorem exec_moduleReady (ecc : List FlashEcc) (s : State) : exec (.moduleReady ecc) s = run s (fun s =>
    if s.mod.ready ∨ s.pwr.cls = .inputLoss then s
    else match (s.mod.readable (unreadable ecc)).boot with
      | none => s
      | some m => (s.started m ecc).fault (resetReport m.resetCause)) := rfl

/-- Both images that can boot keep what MOD says of the reset. -/
theorem boot_keeps {m n : Mod} (h : m.boot = some n) : n.resetCause = m.resetCause := by
  have hpick {p q : Prop} [Decidable p] [Decidable q] {a b : Mod}
      (hn : (if p then some a else if q then some b else none) = some n) : n = a ∨ n = b := by
    split_ifs at hn with hp hq
    · exact .inl (Option.some.inj hn).symm
    · exact .inr (Option.some.inj hn).symm
  rcases hpick h with rfl | rfl
  · rfl
  · rfl

/-- What the start-up leaves: MOD of the image that boots, the saved values, and the slices and the timebase as they
were. -/
theorem started_leaves (s : State) (m : Mod) {ecc : List FlashEcc} (hecc : ∀ e, e ∈ ecc → e.corrected = true) :
    let t := s.started m ecc
    (t.mod = { m with ready := true } ∧ t.slices = s.slices ∧ t.tbm = s.tbm
      ∧ (s.fls.corrected + ecc.length ≤ 0xFFFF → t.fls.corrected = s.fls.corrected + ecc.length)
      ∧ (m.resetCause = 2 → t.errm.events.toNat.testBit 4 = true))
      ∧ (∀ b, s.pwr.saved = some b → t.pwr.budget = b) ∧ (s.pwr.saved = none → t.pwr.budget = s.pwr.budget)
      ∧ ∀ a, s.fea.saved = some a → t.fea.accept = a ∧ t.fea.committed = true := by
  obtain ⟨n, hn, hcount⟩ := eccReads_corrected hecc s
  obtain ⟨⟨hmod, hslices, htbm, hfls⟩, hsaved⟩ :=
    loadSaved_all { s with fls := { s.fls with corrected := n }, mod := { m with ready := true } }
  have hcorrected := fun hle => (congrArg Fls.corrected hfls).trans (hcount hle)
  unfold State.started
  dsimp only
  rw [hn, unreadable_none hecc]
  split
  next hcause => exact ⟨⟨hmod, hslices, htbm, hcorrected, fun _ => testBit_raise_same _ (by decide)⟩, hsaved⟩
  next hcause => exact ⟨⟨hmod, hslices, htbm, hcorrected, fun hwatchdog => absurd hwatchdog hcause⟩, hsaved⟩

/-- Settles O48: what resets the module and what does not, a swap that fails, and MODULE_READY. That POWER_UP acts only
before the module is ready, and that the input class stays, is log entry 57; that an SRAM then lists nothing is log
entry 8. -/
theorem moduleResets : Obligations.ModuleResets := by
  intro s restarted
  have hreset {i : Instr} {f : State → State} (cause : Nat) (he : exec i s = run s f)
      (h : ∀ u o, s = { u with out := o } → f u = u.moduleReset cause) : Gives i s (restarted cause) := by
    refine run_gives_from he (fun _ _ _ _ h => h) fun u o hu => ?_
    rw [h u o hu]
    subst hu
    refine ⟨rfl, rfl, rfl, rfl, rfl, rfl, rfl, rfl, rfl, rfl, fun c => ?_⟩
    rw [sl_moduleReset]
    exact ⟨rfl, rfl, rfl⟩
  have hstays {i : Instr} {f : State → State} (he : exec i s = run s f)
      (h : ∀ u o, s = { u with out := o } → f u = u) : Does i s id := run_does_from he h
  refine ⟨fun hstart => ?powerUp, fun hready => ?running, fun hready hswap => ⟨?watchdog, fun v => ⟨fun hkey => ?key,
    fun hkey => ?noKey⟩⟩, fun hlost => ?rails, fun hpower => ?noRails, hreset 2 (exec_supervisorEccError_lost s) ?ecc,
    ?corrected, fun w hw => ⟨?oldFails, ?oldRuns⟩, fun hstart hcls m hboot ecc hecc => ?ready⟩
  case powerUp =>
    refine hreset 0 (exec_powerUp s) ?_
    rintro u o rfl
    exact if_neg (by rw [show u.mod.ready = false from hstart]; exact Bool.false_ne_true)
  case running =>
    refine hstays (exec_powerUp s) ?_
    rintro u o rfl
    exact if_pos hready
  case watchdog =>
    refine hreset 2 (exec_watchdogExpiry s) ?_
    rintro u o rfl
    exact if_neg (by simp [State.swapping, show u.mod.swapping = none from hswap, show u.mod.ready = true from hready])
  case key =>
    refine hreset 1 (exec_moduleReset v s) ?_
    rintro u o rfl
    rw [moduleWrite_taken u _ hready hswap]
    exact if_pos hkey
  case noKey =>
    refine hstays (exec_moduleReset v s) ?_
    rintro u o rfl
    rw [moduleWrite_taken u _ hready hswap]
    exact if_neg hkey
  case rails =>
    refine hreset 3 (exec_railCollapse s) ?_
    rintro u o rfl
    exact if_pos hlost
  case noRails =>
    refine hstays (exec_railCollapse s) ?_
    rintro u o rfl
    exact if_neg hpower
  case ecc => exact fun _ _ _ => rfl
  case corrected => exact run_does_from (exec_supervisorEccError_corrected s) fun _ _ _ => rfl
  case oldFails =>
    refine hreset 5 (exec_swapFail true s) ?_
    rintro u o rfl
    rw [show u.mod.swapping = some w from hw]
    rfl
  case oldRuns =>
    refine run_gives_from (exec_swapFail false s) (fun _ _ _ _ h => h) ?_
    rintro u o rfl
    rw [show u.mod.swapping = some w from hw]
    obtain ⟨hmod, htbm⟩ := swapFails_leaves u w
    have hevents : (u.swapFails w).mod.events = u.mod.events ||| (if u.mod.busyWrite then 6 else 2) := by
      refine (congrArg Mod.events hmod : _).trans ?_
      cases hbusy : u.mod.busyWrite with
      | false => simp [Mod.swapEnded, hbusy, raise]
      | true => simp [Mod.swapEnded, hbusy, raise, BitVec.or_assoc]
    exact ⟨(congrArg Mod.swapping hmod : _), (congrArg Mod.image hmod : _), (congrArg Mod.selected hmod : _),
      (congrArg Mod.images hmod : _), congrArg Tbm.tb htbm, hevents⟩
  case ready =>
    have hgoes : ¬(s.mod.ready = true ∨ s.pwr.cls = .inputLoss) := by
      rw [hstart]
      exact fun h => h.elim Bool.false_ne_true hcls
    refine run_gives_from (exec_moduleReady ecc s) (fun _ _ _ _ h => h) ?_
    rintro u o rfl
    rw [unreadable_none hecc, readable_all, if_neg hgoes, show u.mod.boot = some m from hboot]
    obtain ⟨⟨hmod, hslices, htbm, hcorrected, hwatchdog⟩, hbudget, hunsaved, haccept⟩ := started_leaves u m hecc
    have hcause : m.resetCause = u.mod.resetCause := boot_keeps hboot
    have hframe := fault_offRecord (u.started m ecc) (resetReport m.resetCause)
    have hmod' : ∀ {β : Type} (p : Mod → β), (∀ k, p { k with heldRecs := [], heldDone := [] } = p k) →
        p ((u.started m ecc).fault (resetReport m.resetCause)).mod = p { m with ready := true } := by
      intro β p hp
      rw [← hp, ← hmod, ← hp (u.started m ecc).mod]
      exact (congrArg (fun v : State => p v.mod) hframe : _)
    refine ⟨hmod' Mod.ready fun _ => rfl, fun hle => ?_, hmod' Mod.image fun _ => rfl, hmod' Mod.fallback fun _ => rfl,
      (hmod' Mod.resetCause fun _ => rfl).trans hcause, (fault_slices ..).trans hslices, (fault_tbm ..).trans htbm,
      fun b hb => ?_, fun hnone => ?_, fun a ha => ?_, fun hdog => ?_⟩
    · exact (congrArg (fun v : State => v.fls.corrected) hframe : _).trans (hcorrected hle)
    · rw [fault_pwr]
      exact hbudget b hb
    · rw [fault_pwr]
      exact hunsaved hnone
    · rw [fault_fea]
      exact haccept a ha
    · have hev : ((u.started m ecc).fault (resetReport m.resetCause)).errm.events = (u.started m ecc).errm.events :=
        (congrArg (fun v : State => v.errm.events) hframe : _)
      rw [hev]
      exact hwatchdog (hcause.trans hdog)

end Sys2Proof.Machine
end

section
/-! SUPPORT. Features, images and swaps (R387, R392, R393, R396, R397). -/

namespace Sys2Proof.Machine

open Sys2Proof

/-! ### Flash jobs -/

/-- A job that waits: it is the last, and beside the flash only the steward may be asked. -/
theorem queueJob_shape (s : State) (j : FlashJob) : ∃ p, s.queueJob j =
    { s with fls := { s.fls with jobs := s.fls.jobs ++ [j] }, pwr := p } := by
  unfold State.queueJob
  dsimp only
  split <;> exact ⟨_, rfl⟩

theorem flashJob_shape (s : State) (cost : FlashCost) (j : FlashJob) :
    ∃ f p, s.flashJob cost j = { s with fls := f, pwr := p } ∧ f.jobs = s.fls.jobs ++ [j] := by
  obtain ⟨p, h⟩ := queueJob_shape (s.countWrite cost) j
  refine ⟨_, p, h, ?_⟩
  cases cost <;> rfl

/-! ### Features (R387) -/

theorem exec_featureCommit (v : Word) (s : State) : exec (.featureCommit v) s = run s (fun s =>
    s.moduleWrite fun s => s.writeAccept 3 v) := rfl

theorem exec_feaSave (s : State) : exec .feaSave s = run s (fun s => s.onCommand 14 0x73 fun s cmd =>
    if !s.fea.committed then s.finish cmd Status.rejected [] else s.save cmd (.feaSave cmd.ref s.fea.accept)) := rfl

/-! ### Loading an image (R392) -/

theorem exec_fwQuery (s : State) : exec .fwQuery s = run s (fun s => s.onCommand 14 0x72 fun s cmd =>
    s.finish cmd 0 (le 4 (s.mod.fw s.mod.running).toNat ++ le 4 (s.mod.fw s.mod.other).toNat
      ++ s.mod.build s.mod.running ++ s.mod.build s.mod.other ++ [BitVec.ofNat 8 (b2n s.mod.selected), 0, 0, 0])) := rfl

/-- The effect of FW_LOAD_CHUNK. -/
def State.takeImageChunk (s : State) (cmd : Command) : State :=
  let off := u32 cmd.body 0
  let n := u32 cmd.body 4
  let data := slice cmd.body 8 n
  let idle (s : State) : State := s.modMod (fun m => { m with load := none })
  if s.swapping then s
  else if n % 4 ≠ 0 ∨ n < 4 ∨ 4096 < n then s.finish cmd Status.badParam []
  else
    match s.loading with
    | (some b, _) =>
      if off = 0 then s.finish cmd Status.rejected []
      else if off ≠ b.length then s.finish cmd Status.badParam []
      else s.loadImage cmd (b ++ data) false
    | (none, late) =>
      if off ≠ 0 then (idle s).finish cmd (if late then Status.timeout else Status.badParam) []
      else if s.flashDenied .image then s.flashDeny.finish cmd Status.budget []
      else
        ((s.countWrite .image).modMod (fun m => { m with
          images := vmod m.images m.other.val (fun _ => none) })).loadImage cmd data true

theorem exec_fwLoadChunk (s : State) : exec .fwLoadChunk s = run s (fun s =>
    s.onCommand 14 0x70 fun s cmd => s.takeImageChunk cmd) := rfl

theorem loading_none {s : State} (h : s.mod.load = none) : s.loading = (none, false) := by
  rw [State.loading, h]

theorem get_vmod_same {α : Type} {n : Nat} (v : Vector α n) (i : Fin n) (f : α → α) :
    (vmod v i.val f).get i = f (v.get i) := by
  rw [vmod, dif_pos i.isLt]
  exact get_set_self ..

theorem get_vmod_ne {α : Type} {n : Nat} (v : Vector α n) {i j : Fin n} (f : α → α) (h : j ≠ i) :
    (vmod v i.val f).get j = v.get j := by
  rw [vmod, dif_pos i.isLt]
  exact get_set_ne _ _ h

theorem running_ne_other (m : Mod) : m.running ≠ m.other := by
  unfold Mod.running Mod.other
  cases m.image <;> decide

section
variable {s : State} {cmd : Command} (hswap : s.mod.swapping = none)
include hswap

theorem takeImageChunk_badLength (h : u32 cmd.body 4 % 4 ≠ 0 ∨ u32 cmd.body 4 < 4 ∨ 4096 < u32 cmd.body 4) :
    s.takeImageChunk cmd = s.finish cmd Status.badParam [] := by
  unfold State.takeImageChunk
  dsimp only
  rw [if_neg (by simp [State.swapping, hswap]), if_pos h]

variable (h4 : u32 cmd.body 4 % 4 = 0) (hlo : 4 ≤ u32 cmd.body 4) (hhi : u32 cmd.body 4 ≤ 4096)
  (hidle : s.mod.load = none)
include h4 hlo hhi hidle

theorem takeImageChunk_astray (hoff : u32 cmd.body 0 ≠ 0) :
    s.takeImageChunk cmd = s.finish cmd Status.badParam [] := by
  have hsame : s.modMod (fun m => { m with load := none }) = s := by
    rw [State.modMod, ← hidle]
  unfold State.takeImageChunk
  dsimp only
  rw [if_neg (by simp [State.swapping, hswap]), if_neg (by omega), loading_none hidle]
  dsimp only
  rw [if_pos hoff, hsame]
  rfl

/-- The first chunk of an image whose header is not yet whole: the other slot is erased, and the command waits for
that. -/
theorem takeImageChunk_first (hoff : u32 cmd.body 0 = 0) (hday : s.imagesUsed < 4)
    (hshort : (slice cmd.body 8 (u32 cmd.body 4)).length < 64) :
    let t := s.takeImageChunk cmd
    t.mod = { s.mod with
        images := vmod s.mod.images s.mod.other.val (fun _ => none),
        load := some (slice cmd.body 8 (u32 cmd.body 4), s.real) }
      ∧ t.imagesUsed = s.imagesUsed + 1
      ∧ t.fls.jobs = s.fls.jobs ++ [.image (some cmd.ref) s.mod.other none []]
      ∧ (t.qu cmd.queue).inHand = none := by
  have hroom : ¬ s.flashDenied .image = true := by simp [State.flashDenied, hday]
  have hnow : s.real < s.real + flashWindow := Nat.lt_add_of_pos_right (by decide)
  unfold State.takeImageChunk
  dsimp only
  rw [if_neg (by simp [State.swapping, hswap]), if_neg (by omega), loading_none hidle]
  dsimp only
  rw [if_neg (by simpa using hoff), if_neg hroom]
  unfold State.loadImage
  dsimp only
  rw [if_pos hshort, if_pos rfl]
  obtain ⟨p, hp⟩ := queueJob_shape
    ((((s.countWrite .image).modMod (fun m => { m with
        images := vmod m.images m.other.val (fun _ => none) })).keep cmd).modMod (fun m => { m with
      load := some (slice cmd.body 8 (u32 cmd.body 4), s.real) })) (.image (some cmd.ref) s.mod.other none [])
  have hused : (s.countWrite .image).imagesUsed = s.imagesUsed + 1 := by
    unfold State.imagesUsed State.countWrite
    simp [List.filter_append, List.filter_filter, hnow]
  refine ⟨(congrArg State.mod hp : _), (congrArg State.imagesUsed hp : _).trans hused,
    (congrArg (fun t : State => t.fls.jobs) hp : _), (congrArg (fun t : State => (t.qu cmd.queue).inHand) hp : _).trans ?_⟩
  obtain ⟨hempty, -⟩ := keep_waits s cmd
  exact hempty

end

/-! ### FW_ACTIVATE and the start of a swap (R392, R393, R396) -/

/-- The effect of FW_ACTIVATE. -/
def State.takeActivate (s : State) (cmd : Command) : State :=
  if s.swapping then s
  else
    match s.mod.img s.mod.other, s.mod.img s.mod.running with
    | none, _ => s.finish cmd Status.badParam []
    | some i, r =>
      let major := match r with | some r => r.major | none => i.major
      if i.major ≠ major ∧ !(u8 cmd.body 0).testBit 0 then s.finish cmd Status.rejected []
      else if s.mod.activate.isSome then s.finish cmd Status.rejected []
      else
        (s.keep cmd).modMod (fun m => { m with
          activate := some { cmd := some cmd.ref, atTb := u64 cmd.body 4 } })

theorem exec_fwActivate (s : State) : exec .fwActivate s = run s (fun s =>
    s.onCommand 14 0x71 fun s cmd => s.takeActivate cmd) := rfl

section
variable {s : State} {cmd : Command} (hswap : s.mod.swapping = none)
include hswap

theorem takeActivate_empty (h : s.mod.img s.mod.other = none) :
    s.takeActivate cmd = s.finish cmd Status.badParam [] := by
  unfold State.takeActivate
  rw [if_neg (by simp [State.swapping, hswap]), h]

variable {i r : FwImage} (hi : s.mod.img s.mod.other = some i) (hr : s.mod.img s.mod.running = some r)
include hi hr

theorem takeActivate_major (h : ¬(i.major = r.major ∨ (u8 cmd.body 0).testBit 0 = true)) :
    s.takeActivate cmd = s.finish cmd Status.rejected [] := by
  obtain ⟨hmajor, hflag⟩ := not_or.mp h
  unfold State.takeActivate
  rw [if_neg (by simp [State.swapping, hswap]), hi, hr]
  exact if_pos ⟨hmajor, by simpa using hflag⟩

theorem takeActivate_waits (h : i.major = r.major ∨ (u8 cmd.body 0).testBit 0 = true) (hfree : s.mod.activate = none) :
    s.takeActivate cmd = (s.keep cmd).modMod (fun m => { m with
      activate := some { cmd := some cmd.ref, atTb := u64 cmd.body 4 } }) := by
  have hallowed : ¬(i.major ≠ r.major ∧ (!(u8 cmd.body 0).testBit 0) = true) := by
    simp only [Bool.not_eq_true', not_and, Bool.not_eq_false]
    exact fun hne => h.resolve_left hne
  unfold State.takeActivate
  rw [if_neg (by simp [State.swapping, hswap]), hi, hr]
  dsimp only
  rw [if_neg hallowed, hfree]
  rfl

end

/-- The swap to a valid image starts. -/
theorem startSwap_starts {s : State} {i : FwImage} (hi : s.mod.img s.mod.other = some i) (cmd : Option CmdRef) :
    s.startSwap cmd = { s with mod := { s.mod with
      activate := none, pushed := none, swapping := some { cmd := cmd, started := s.real } } } := by
  have hvalid : ¬ (({ s.mod with activate := none, pushed := none } : Mod).img
      ({ s.mod with activate := none, pushed := none } : Mod).other).isNone = true := by
    rw [show ({ s.mod with activate := none, pushed := none } : Mod).img
      ({ s.mod with activate := none, pushed := none } : Mod).other = some i from hi]
    exact Bool.false_ne_true
  exact if_neg hvalid

/-- What is done with the activation that waits. -/
def State.swapDue (s : State) : State :=
  match s.mod.activate with
  | some a => if s.tb < a.atTb ∨ s.swapping then s else s.startSwap a.cmd
  | none => s

theorem exec_swapStart (s : State) : exec .swapStart s = run s State.swapDue := rfl

theorem swapDue_early {s : State} {a : FwActivate} (ha : s.mod.activate = some a) (h : s.tb < a.atTb) :
    s.swapDue = s := by
  unfold State.swapDue
  rw [ha]
  exact if_pos (.inl h)

theorem swapDue_starts {s : State} {a : FwActivate} (hswap : s.mod.swapping = none) (ha : s.mod.activate = some a)
    (h : a.atTb ≤ s.tb) : s.swapDue = s.startSwap a.cmd := by
  unfold State.swapDue
  rw [ha]
  exact if_neg (by simp [State.swapping, hswap, h])

/-- What is done with a pushed image (R396). -/
def State.pushedDue (s : State) : State :=
  match s.mod.pushed with
  | none => s
  | some t =>
    if s.tb < pushedAt t ∨ s.swapping then s
    else
      match s.mod.img s.mod.other, s.mod.img s.mod.running with
      | some i, some r =>
        if i.major = r.major then s.startSwap none else s.modMod (fun m => { m with pushed := none })
      | _, _ => s.modMod (fun m => { m with pushed := none })

theorem exec_pushedImageActivate (s : State) : exec .pushedImageActivate s = run s State.pushedDue := rfl

theorem pushedDue_decides {s : State} {i r : FwImage} {t : Nat} (hswap : s.mod.swapping = none)
    (ht : s.mod.pushed = some t) (hi : s.mod.img s.mod.other = some i) (hr : s.mod.img s.mod.running = some r)
    (hdue : pushedAt t ≤ s.tb) : s.pushedDue =
      if i.major = r.major then s.startSwap none else s.modMod (fun m => { m with pushed := none }) := by
  unfold State.pushedDue
  rw [ht]
  dsimp only
  rw [if_neg (by simp [State.swapping, hswap, hdue]), hi, hr]

/-! ### The end of a swap (R393) -/

/-- The new image serves the registers. -/
def State.swapEnds (s : State) (w : Swap) : State :=
  (((s.modMod (fun m => { m with
    image := !m.image, selected := !m.image, fallback := false, events := raise m.events 0 })).afterSwap).swapEnd w.cmd
      Status.ok (le 4 (s.mod.fw s.mod.running).toNat ++ le 4 (s.mod.fw s.mod.other).toNat
        ++ le 4 ((s.real - w.started) / 1024))).flashJob (.free 4) (.selected (!s.mod.image))

theorem exec_swapDone (s : State) : exec .swapDone s = run s (fun s => match s.mod.swapping with
    | none => s
    | some w => s.swapEnds w) := rfl

/-- What a swap leaves beyond records: MOD of the new image, the job that makes it the selected one, and TBM. -/
theorem swapEnds_leaves (s : State) (w : Swap) :
    (s.swapEnds w).offRecord.mod = { ({ s.mod with
        image := !s.mod.image, selected := !s.mod.image, fallback := false,
        events := raise s.mod.events 0 } : Mod).swapEnded with heldRecs := [], heldDone := [] }
      ∧ (s.swapEnds w).fls.jobs = s.fls.jobs ++ [.selected (!s.mod.image)] ∧ (s.swapEnds w).tbm = s.tbm := by
  unfold State.swapEnds
  generalize hu : State.swapEnd _ w.cmd Status.ok _ = u
  have h := (congrArg State.offRecord hu).symm.trans ((swapEnd_offRecord ..).trans (afterSwap_offRecord ..))
  obtain ⟨f, p, hjob, hjobs⟩ := flashJob_shape u (.free 4) (.selected (!s.mod.image))
  rw [hjob]
  have hfls : u.fls = s.fls := (congrArg State.fls h : _)
  rw [hfls] at hjobs
  exact ⟨(congrArg State.mod h : _), hjobs, (congrArg State.tbm h : _)⟩

/-- Settles O49, command by command. That FEA_SAVE without a commit is refused, and the order of FW_LOAD_CHUNK's checks,
are log entry 58. -/
theorem featuresAndImages : Obligations.FeaturesAndImages := by
  intro s
  refine ⟨fun hready hswap v => ⟨fun hdone => ?discarded, fun hopen => ?commits⟩,
    fun cmd hhand => ⟨fun hopen => ?noCommit, fun hdone hroom => ?saves⟩, fun cmd hhand => ?query,
    fun cmd hhand hswap => ⟨fun hbad => ?badLength, fun h4 hlo hhi hidle => ⟨fun hoff => ?astray,
      fun hoff hday hshort => ?first⟩⟩,
    fun cmd hhand hswap => ⟨fun hempty => ?noImage, fun i r hi hr => ⟨fun hmajor => ?major, fun hmajor hfree => ?waits⟩⟩,
    fun hswap i hi => ⟨fun a ha => ⟨fun hearly => ?early, fun hdue => ?starts⟩,
      fun at_ r hpushed hr hdue => ⟨fun hsame => ?pushed, fun hother => ?forgets⟩⟩, fun w hw => ?done⟩
  case discarded =>
    refine run_does_from (exec_featureCommit v s) ?_
    rintro u o rfl
    rw [moduleWrite_taken u _ hready hswap]
    exact if_pos hdone
  case commits =>
    refine run_does_from (exec_featureCommit v s) ?_
    rintro u o rfl
    rw [moduleWrite_taken u _ hready hswap]
    exact if_neg (by rw [show u.fea.committed = false from hopen]; exact Bool.false_ne_true)
  case noCommit =>
    refine command_does (exec_feaSave s) hhand ?_
    rintro u o rfl
    exact if_pos (by rw [show u.fea.committed = false from hopen]; rfl)
  case saves =>
    refine command_gives (exec_feaSave s) (fun _ _ _ _ h => h) hhand ?_
    rintro u o rfl
    rw [if_neg (by rw [show u.fea.committed = true from hdone]; exact Bool.false_ne_true)]
    obtain ⟨hjobs, -, hinHand, -⟩ := save_leaves (s := u) (cmd := cmd) (.feaSave cmd.ref u.fea.accept) hroom
    exact ⟨hjobs, hinHand⟩
  case query =>
    refine command_does (exec_fwQuery s) hhand ?_
    rintro u o rfl
    cases u.mod.selected <;> rfl
  case badLength =>
    refine command_does (exec_fwLoadChunk s) hhand ?_
    rintro u o rfl
    exact takeImageChunk_badLength (s := u) hswap hbad
  case astray =>
    refine command_does (exec_fwLoadChunk s) hhand ?_
    rintro u o rfl
    exact takeImageChunk_astray (s := u) hswap h4 hlo hhi hidle hoff
  case first =>
    refine command_gives (exec_fwLoadChunk s) (fun _ _ _ _ h => h) hhand ?_
    rintro u o rfl
    obtain ⟨hmod, hused, hjobs, hinHand⟩ := takeImageChunk_first (s := u) hswap h4 hlo hhi hidle hoff hday hshort
    refine ⟨by rw [hmod], ?_, ?_, hused, hjobs, hinHand⟩
    · rw [hmod]
      exact get_vmod_same ..
    · rw [hmod]
      exact get_vmod_ne _ _ (running_ne_other u.mod)
  case noImage =>
    refine command_does (exec_fwActivate s) hhand ?_
    rintro u o rfl
    exact takeActivate_empty (s := u) hswap hempty
  case major =>
    refine command_does (exec_fwActivate s) hhand ?_
    rintro u o rfl
    exact takeActivate_major (s := u) hswap hi hr hmajor
  case waits =>
    refine command_does (exec_fwActivate s) hhand ?_
    rintro u o rfl
    exact takeActivate_waits (s := u) hswap hi hr hmajor hfree
  case early =>
    refine run_does_from (exec_swapStart s) ?_
    rintro u o rfl
    exact swapDue_early (s := u) ha hearly
  case starts =>
    refine run_does_from (exec_swapStart s) ?_
    rintro u o rfl
    exact (swapDue_starts (s := u) hswap ha hdue).trans (startSwap_starts (s := u) hi _)
  case pushed =>
    refine run_does_from (exec_pushedImageActivate s) ?_
    rintro u o rfl
    rw [pushedDue_decides (s := u) hswap hpushed hi hr hdue, if_pos hsame]
    exact startSwap_starts (s := u) hi _
  case forgets =>
    refine run_does_from (exec_pushedImageActivate s) ?_
    rintro u o rfl
    rw [pushedDue_decides (s := u) hswap hpushed hi hr hdue, if_neg hother]
    rfl
  case done =>
    refine run_gives_from (exec_swapDone s) (fun _ _ _ _ h => h) ?_
    rintro u o rfl
    rw [show u.mod.swapping = some w from hw]
    obtain ⟨hmod, hjobs, htbm⟩ := swapEnds_leaves u w
    have hevents : (u.swapEnds w).mod.events = u.mod.events ||| (if u.mod.busyWrite then 5 else 1) := by
      refine (congrArg Mod.events hmod : _).trans ?_
      cases hbusy : u.mod.busyWrite with
      | false => simp [Mod.swapEnded, hbusy, raise]
      | true => simp [Mod.swapEnded, hbusy, raise, BitVec.or_assoc]
    exact ⟨(congrArg Mod.swapping hmod : _), (congrArg Mod.image hmod : _), (congrArg Mod.selected hmod : _),
      (congrArg Mod.fallback hmod : _), (congrArg Mod.images hmod : _), hevents, hjobs, congrArg Tbm.tb htbm⟩

end Sys2Proof.Machine
end

section
/-! SUPPORT. The end of a flash write (R397, R398) and the mailbox's calibrations (R390). -/

namespace Sys2Proof.Machine

open Sys2Proof

/-! ### FLASH_WRITE_DONE -/

theorem exec_flashWriteDone (failed : Bool) (s : State) : exec (.flashWriteDone failed) s = run s (fun s =>
    if !s.fls.running then s
    else if failed then { s with fls := { s.fls with events := raise s.fls.events 1 } }
    else
      match s.fls.jobs with
      | [] => s
      | j :: rest =>
        let s1 := ({ s with fls := { s.fls with jobs := rest, running := false } }).release flashReq flashTokens
        let s2 := if rest.isEmpty then s1 else s1.ask flashReq flashTokens
        s2.jobDone j) := rfl

theorem flashWriteDone_idle {s : State} (h : s.fls.running = false) (b : Bool) : Does (.flashWriteDone b) s id := by
  refine run_does_from (exec_flashWriteDone b s) ?_
  rintro u o rfl
  exact if_pos (congrArg Bool.not h)

theorem flashWriteDone_failed {s : State} (h : s.fls.running = true) : Does (.flashWriteDone true) s (fun s =>
    { s with fls := { s.fls with events := s.fls.events ||| 2 } }) := by
  refine run_does_from (exec_flashWriteDone true s) ?_
  rintro u o rfl
  have hrunning : u.fls.running = true := h
  exact if_neg (by simp [hrunning])

/-- The flash after its only job has ended. -/
def State.flashEnded (s : State) : State :=
  ({ s with fls := { s.fls with jobs := [], running := false } }).release flashReq flashTokens

theorem flashWriteDone_ends {s : State} {j : FlashJob} (h : s.fls.running = true) (hjob : s.fls.jobs = [j]) :
    Does (.flashWriteDone false) s (fun s => s.flashEnded.jobDone j) := by
  refine run_does_from (exec_flashWriteDone false s) ?_
  rintro u o rfl
  have hrunning : u.fls.running = true := h
  have hjobs : u.fls.jobs = [j] := hjob
  dsimp only
  rw [hjobs, if_neg (by simp [hrunning])]
  rfl

/-! ### The pending kinds of a calibration command, and when -/

section
variable {a : Afe} {t : Nat} (hrun : a.calRun = none) (hat : ∀ p ∈ a.calPend, p.at_ = t)
include hrun hat

/-- A request for the time of every pending kind leaves that time to all of them. -/
theorem request_at (kind origin : Nat) : ∀ p ∈ (a.request kind origin t).calPend, p.at_ = t := by
  obtain ⟨-, h⟩ | h := request_cases kind origin t hrun
  · rw [h]
    intro p hp
    obtain ⟨q, hq, rfl⟩ := List.mem_map.mp hp
    split
    · show min q.at_ t = t
      rw [hat q hq, Nat.min_self]
    · exact hat q hq
  · rw [h]
    intro p hp
    obtain rfl | hp := List.mem_cons.mp ((insertBy_perm ..).mem_iff.mp hp)
    · rfl
    · exact hat p hp

theorem requests_at (origin : Nat) (ks : List Nat) :
    ∀ p ∈ (ks.foldl (fun (a : Afe) k => a.request k origin t) a).calPend, p.at_ = t := by
  induction ks generalizing a with
  | nil => exact hat
  | cons k ks ih => exact ih (request_kept k origin t hrun).1 (request_at hrun hat k origin)

end

theorem any_kind_at {l : List CalPend} {t : Nat} (h : ∀ p ∈ l, p.at_ = t) (k : Nat) :
    l.any (fun p => p.kind == k && p.at_ == t) = l.any (fun p => p.kind == k) := by
  rw [Bool.eq_iff_iff, List.any_eq_true, List.any_eq_true]
  constructor
  · rintro ⟨p, hp, hk⟩
    exact ⟨p, hp, (Bool.and_eq_true_iff.mp hk).1⟩
  · rintro ⟨p, hp, hk⟩
    exact ⟨p, hp, Bool.and_eq_true_iff.mpr ⟨hk, beq_iff_eq.mpr (h p hp)⟩⟩

/-- Where nothing is pending or running, a calibration command makes its kinds pending for its time. -/
theorem takeKinds_at {a : Afe} (cmd : Command) (t : Nat) (hpend : a.calPend = []) (hrun : a.calRun = none) (k : Nat) :
    (a.takeKinds cmd t).calPend.any (fun p => p.kind == k && p.at_ == t)
      = (decide (1 ≤ k ∧ k ≤ 4) && (u8 cmd.body 0).testBit (k - 1)) := by
  have hat : ∀ p ∈ a.calPend, p.at_ = t := by simp [hpend]
  refine (any_kind_at (requests_at hrun hat 2 (maskKinds (u8 cmd.body 0))) k).trans ?_
  exact (takeKinds_fields cmd t hpend hrun).1 k

/-- The time from which a calibration command asks for its kinds (R128). -/
def calTime (tb at_ : Nat) : Nat := if at_ = 0 ∨ at_ < tb + 2 ^ 16 then tb else at_

theorem calTime_zero (tb : Nat) : calTime tb 0 = tb := if_pos (.inl rfl)

theorem calTime_late {tb at_ : Nat} (h : tb + 65536 ≤ at_) : calTime tb at_ = at_ := if_neg (by omega)

theorem takeCal_at {s : State} {c : Fin 4} {cmd : Command} (hup : (s.sl c).up = true) (hpos : u8 cmd.body 0 ≠ 0)
    (hmax : u8 cmd.body 0 < 16) :
    s.takeCal c cmd = (s.keep cmd).modAfe c (fun a => a.takeKinds cmd (calTime s.tb (u64 cmd.body 4))) := by
  unfold State.takeCal
  dsimp only
  rw [if_up hup, if_neg (by omega)]
  rfl

/-! ### The mailbox's CALIBRATE and CALIBRATE_AT (R390) -/

/-- The body of a CAL_REQUEST: its mask and its time. -/
def calBody (mask lo hi : Nat) : List Byte := le 4 mask ++ le 4 lo ++ le 4 hi

theorem build_calibrate {m : Mailbox} (h : bf m.opcode 0 8 = 1) :
    m.build = some (0x30, calBody (bf (m.word 0) 0 4) (0 : Word).toNat (0 : Word).toNat) := by
  simp [Mailbox.build, h, calBody, le]

theorem build_calibrateAt {m : Mailbox} (h : bf m.opcode 0 8 = 2) :
    m.build = some (0x30, calBody (bf (m.word 0) 0 4) (m.word 1).toNat (m.word 2).toNat) := by
  simp [Mailbox.build, h, calBody]

theorem u8_calBody (w : Word) (lo hi : Nat) : u8 (calBody (bf w 0 4) lo hi) 0 = bf w 0 4 :=
  (u8_cons ..).trans (Nat.mod_eq_of_lt ((bf_lt w 0 4).trans (by decide)))

theorem ofLe_append (xs ys : List Byte) : ofLe (xs ++ ys) = ofLe xs + 256 ^ xs.length * ofLe ys := by
  induction xs with
  | nil => simp [ofLe]
  | cons x xs ih =>
    rw [List.cons_append, ofLe, ih, ofLe, List.length_cons, Nat.pow_succ']
    ring

theorem u64_calBody (mask : Nat) (lo hi : Word) :
    u64 (calBody mask lo.toNat hi.toNat) 4 = hi.toNat * 4294967296 + lo.toNat := by
  show ofLe (le 4 lo.toNat ++ le 4 hi.toNat) = _
  have hlen : (le 4 lo.toNat).length = 4 := rfl
  rw [ofLe_append, ofLe_le4, ofLe_le4, hlen]
  omega

section
variable {s : State} (hgo : s.mailbox.go = true) (hfresh : s.mailbox.taken = false) (hempty : (s.qu 68).inHand = none)
  (hup : (s.sl 0).up = true) {i : Instr} {op lo hi : Nat}
  (he : exec i s = run s (fun s => s.mailboxRun op fun s cmd => s.takeCal 0 cmd))
  (hop : bf s.mailbox.opcode 0 8 = op)
  (hbuild : s.mailbox.build = some (0x30, calBody (bf (s.mailbox.word 0) 0 4) lo hi))
include hgo hfresh hempty hup he hop hbuild

/-- A mailbox calibration with a mask of kinds: they wait for its time, and the mailbox stays busy. -/
theorem mailboxCal_taken {at_ : Nat} (htime : calTime s.tb (u64 (calBody (bf (s.mailbox.word 0) 0 4) lo hi) 4) = at_)
    (hmask : bf (s.mailbox.word 0) 0 4 ≠ 0) (hpend : (s.sl 0).afe.calPend = [])
    (hrun : (s.sl 0).afe.calRun = none) : Gives i s (fun t => t.mailbox.go = true ∧ t.mailbox.taken = true
      ∧ (∀ k, (t.sl 0).afe.calPend.any (fun p => p.kind == k && p.at_ == at_)
        = (decide (1 ≤ k ∧ k ≤ 4) && (bf (s.mailbox.word 0) 0 4).testBit (k - 1)))
      ∧ OtherSlices 0 s t) := by
  subst htime
  have hmask8 : u8 (mailboxCommand op (0x30, calBody (bf (s.mailbox.word 0) 0 4) lo hi)).body 0
      = bf (s.mailbox.word 0) 0 4 := u8_calBody ..
  have hlt : bf (s.mailbox.word 0) 0 4 < 16 := bf_lt ..
  refine run_gives_from he (fun _ _ _ _ h => h) ?_
  rintro u o rfl
  rw [mailboxRun_taken (s := u) hgo hfresh hempty hop hbuild,
    takeCal_at (s := { u with mailbox := { u.mailbox with taken := true } }) hup (fun h => hmask (hmask8.symm.trans h))
      (hmask8.trans_lt hlt)]
  refine ⟨hgo, rfl, fun k => ?_, fun d hd => sl_modAfe_ne (State.keep _ _) _ hd⟩
  rw [sl_modAfe]
  exact (takeKinds_at _ _ hpend hrun k).trans (by rw [hmask8])

theorem mailboxCal_rejected (hmask : bf (s.mailbox.word 0) 0 4 = 0) :
    Gives i s (fun t => t.mailbox.go = false ∧ t.mailbox.status = 3 ∧ t.slices = s.slices) := by
  refine mailbox_gives hgo hfresh hempty he hop hbuild (fun _ _ _ _ h => h) fun u hslices _ => ?_
  rw [takeCal_rejects (s := u) (c := 0) (by rwa [sl_congr hslices]) (.inl ((u8_calBody ..).trans hmask))]
  obtain ⟨hdone, hstatus⟩ := finish_mailbox u
    (cmd := mailboxCommand op (0x30, calBody (bf (s.mailbox.word 0) 0 4) lo hi)) rfl Status.badParam []
  exact ⟨hdone, hstatus, (slices_of_offRecord (finish_offRecord ..)).trans hslices⟩

end

theorem exec_calibrate (s : State) : exec .calibrate s =
    run s (fun s => s.mailboxRun 0x01 fun s cmd => s.takeCal 0 cmd) := rfl

theorem exec_calibrateAt (s : State) : exec .calibrateAt s =
    run s (fun s => s.mailboxRun 0x02 fun s cmd => s.takeCal 0 cmd) := rfl

theorem mailboxBadOpcode_completes {s : State} (hgo : s.mailbox.go = true) (hfresh : s.mailbox.taken = false)
    (hbuild : s.mailbox.build = none) : Does .mailboxBadOpcode s (fun s => { s with mailbox := { s.mailbox with
      go := false, status := 3, result := 0 } }) := by
  refine run_does_from (f := fun s => if s.mailbox.go && !s.mailbox.taken && s.mailbox.build.isNone then
    { s with mailbox := { s.mailbox with go := false, status := BitVec.ofNat 8 Status.badParam, result := 0 } }
    else s) rfl ?_
  rintro u o rfl
  have hguard : (u.mailbox.go && !u.mailbox.taken && u.mailbox.build.isNone) = true := by
    rw [show u.mailbox.go = true from hgo, show u.mailbox.taken = false from hfresh,
      show u.mailbox.build = none from hbuild]
    rfl
  exact if_pos hguard

/-- Settles O50: FLASH_WRITE_DONE idle, failed and completed for each kind of lone job, then the mailbox. That a
CALIBRATE with mask 0 completes with BAD_PARAM is the model's reading (log entry 33): R390 gives its mask no range. -/
theorem flashAndMailbox : Obligations.FlashAndMailbox := by
  intro s
  refine ⟨fun hidle b => flashWriteDone_idle hidle b,
    fun hrunning => ⟨flashWriteDone_failed hrunning, fun j hjob => ⟨?selected, ?saved, ?accepted⟩⟩,
    fun hgo hfresh => ⟨fun hempty hup => ⟨fun hop => ⟨?rejected, ?now⟩, ?later⟩, ?unknown⟩⟩
  case selected =>
    rintro b rfl
    exact flashWriteDone_ends hrunning hjob
  case saved =>
    rintro cmd b rfl
    exact flashWriteDone_ends hrunning hjob
  case accepted =>
    rintro cmd a rfl
    exact flashWriteDone_ends hrunning hjob
  case rejected =>
    exact mailboxCal_rejected hgo hfresh hempty hup (exec_calibrate s) hop (build_calibrate hop)
  case now =>
    exact mailboxCal_taken hgo hfresh hempty hup (exec_calibrate s) hop (build_calibrate hop)
      ((congrArg (calTime s.tb) (u64_calBody ..)).trans (calTime_zero _))
  case later =>
    intro hop hmask hpend hrun at_ hlate
    refine mailboxCal_taken hgo hfresh hempty hup (exec_calibrateAt s) hop (build_calibrateAt hop) ?_ hmask hpend hrun
    exact (congrArg (calTime s.tb) (u64_calBody ..)).trans (calTime_late hlate)
  case unknown => exact mailboxBadOpcode_completes hgo hfresh

end Sys2Proof.Machine
end

section
/-! SUPPORT. Trunk ports, the egress queues, and a frame that is received (R359 to R361). -/

namespace Sys2Proof.Machine

open Sys2Proof

/-! ### Ports -/

@[simp] theorem port_modPort (s : State) (p : Fin 3) (f : Port → Port) : (s.modPort p f).port p = f (s.port p) :=
  get_set_self s.trk.ports p _

theorem port_modPort_ne (s : State) {p q : Fin 3} (f : Port → Port) (h : q ≠ p) : (s.modPort p f).port q = s.port q :=
  get_set_ne s.trk.ports _ h

theorem port_modPort_ite (s : State) (p q : Fin 3) (f : Port → Port) :
    (s.modPort p f).port q = if q = p then f (s.port q) else s.port q := by
  split
  case isTrue h => rw [h, port_modPort]
  case isFalse h => exact port_modPort_ne s f h

/-! ### What a frame on an egress queue leaves alone -/

/-- What every frame on an egress queue keeps, the frames to the children keep. -/
theorem toChildren_keeps {α : Type} {g : State → α} (h : ∀ s p i f, g (s.egress p i f).1 = g s) (s : State)
    (i : Option Nat) (f : Frame) : g (s.toChildren i f).1 = g s := by
  unfold State.toChildren
  refine List.foldlRecOn _ _ (motive := fun a : State × Bool => g a.1 = g s) rfl fun a ha p _ => ?_
  dsimp only
  split
  · exact (h ..).trans ha
  · exact ha

/-- What every frame on an egress queue keeps, a frame that the module originates keeps. -/
theorem originate_keeps {α : Type} {g : State → α} (h : ∀ s p i f, g (s.egress p i f).1 = g s) (s : State)
    (cls : FrameClass) (dir : FrameDir) (kind : Nat) (turn : Bool) (dest : Nat) (payload : List Byte) :
    g (s.originate cls dir kind turn dest payload).1 = g s := by
  unfold State.originate
  dsimp only
  split
  · split
    · split
      · exact h ..
      · rfl
    · split
      · exact toChildren_keeps h ..
      · split
        · rfl
        · exact toChildren_keeps h ..
    · rfl
  · exact toChildren_keeps h ..

/-- A port without its egress queues and what they discarded. -/
def Port.offQueues (k : Port) : Port :=
  { k with qTime := none, qControl := [], qService := [], qBulk := [], dropControl := 0, dropService := 0,
           dropBulk := 0 }

theorem enqueue_offQueues (k : Port) (f : Frame) : (k.enqueue f).1.offQueues = k.offQueues := by
  unfold Port.enqueue
  cases f.cls with
  | time => rfl
  | control | service | bulk => dsimp only; split <;> rfl

/-- The state without the egress queues of its ports. -/
def State.offQueues (s : State) : State := { s with trk := { s.trk with ports := vmap Port.offQueues s.trk.ports } }

section
variable {s t : State} (h : t.offQueues = s.offQueues)
include h

theorem slices_of_offQueues : t.slices = s.slices := (congrArg State.slices h : _)
theorem fls_of_offQueues : t.fls = s.fls := (congrArg State.fls h : _)
theorem pwr_of_offQueues : t.pwr = s.pwr := (congrArg State.pwr h : _)
theorem queues_of_offQueues : t.queues = s.queues := (congrArg State.queues h : _)
theorem tree_of_offQueues : t.trk.tree = s.trk.tree := (congrArg (fun u : State => u.trk.tree) h : _)
theorem events_of_offQueues : t.trk.events = s.trk.events := (congrArg (fun u : State => u.trk.events) h : _)
theorem transfers_of_offQueues : t.trk.transfers = s.trk.transfers :=
  (congrArg (fun u : State => u.trk.transfers) h : _)

theorem port_of_offQueues (q : Fin 3) : (t.port q).offQueues = (s.port q).offQueues := by
  have hports := congrArg (fun u : State => u.trk.ports.get q) h
  exact (get_vmap ..).symm.trans (hports.trans (get_vmap ..))

theorem portState_of_offQueues (q : Fin 3) : (t.port q).state = (s.port q).state :=
  (congrArg Port.state (port_of_offQueues h q) : _)

end

theorem modPort_offQueues (s : State) (p : Fin 3) {f : Port → Port}
    (h : (f (s.port p)).offQueues = (s.port p).offQueues) : (s.modPort p f).offQueues = s.offQueues := by
  have hports : vmap Port.offQueues (s.modPort p f).trk.ports = vmap Port.offQueues s.trk.ports := by
    refine Vector.ext fun i hi => ?_
    let q : Fin 3 := ⟨i, hi⟩
    change (vmap Port.offQueues (s.modPort p f).trk.ports).get q = (vmap Port.offQueues s.trk.ports).get q
    rw [get_vmap, get_vmap]
    change ((s.modPort p f).port q).offQueues = (s.port q).offQueues
    rw [port_modPort_ite]
    split
    case isTrue hq => rw [hq, h]
    case isFalse => rfl
  exact congrArg (fun v => { s with trk := { s.trk with ports := v } }) hports

theorem egress_offQueues (s : State) (p : Fin 3) (i : Nat) (f : Frame) : (s.egress p i f).1.offQueues = s.offQueues :=
  modPort_offQueues s p (enqueue_offQueues ..)

theorem originate_offQueues (s : State) (cls : FrameClass) (dir : FrameDir) (kind : Nat) (turn : Bool) (dest : Nat)
    (payload : List Byte) : (s.originate cls dir kind turn dest payload).1.offQueues = s.offQueues :=
  originate_keeps egress_offQueues ..

/-- Without a CHILD port a frame to the children goes nowhere. -/
theorem toChildren_none {s : State} (h : ∀ q, (s.port q).state ≠ .child) (i : Option Nat) (f : Frame) :
    s.toChildren i f = (s, false) := by
  unfold State.toChildren
  refine List.foldlRecOn _ _ (motive := fun a : State × Bool => a = (s, false)) rfl fun a ha p _ => ?_
  rw [ha]
  exact if_neg (h p)

/-! ### A frame that is received (R359) -/

/-- The state after port `p` has counted a valid frame. -/
def State.received (s : State) (p : Fin 3) : State :=
  s.modPort p (fun k => { k with rxCnt := count 32 1 k.rxCnt, heard := s.real, flashAt := some s.real })

theorem received_port (s : State) (p : Fin 3) : (s.received p).port p = { s.port p with
    rxCnt := count 32 1 (s.port p).rxCnt, heard := s.real, flashAt := some s.real } := port_modPort ..

theorem received_state (s : State) (p q : Fin 3) : ((s.received p).port q).state = (s.port q).state := by
  rw [State.received, port_modPort_ite]
  split <;> rfl

section
variable {s : State} {p : Fin 3} {f : RxFrame} {cls : FrameClass} {kind : Nat} {ok : Bool} {act : State → State}
  (hlen : f.payload.length ≤ cls.limit) (hok : ok = true)
include hlen hok

/-- A valid frame of a port that is not DOWN is counted and routed. -/
theorem receive_valid (hst : (s.port p).state ≠ .down) : s.receive p f cls kind ok act =
    if f.dir = 3 then act (s.received p)
    else if f.dir = 0 then (s.received p).routeUp p f cls kind act
    else (s.received p).routeDown p f cls kind (f.dir == 2) act := by
  unfold State.receive
  rw [if_neg hst, if_neg (by simp [hok, hlen])]
  rfl

theorem receive_link (hst : (s.port p).state ≠ .down) (hdir : f.dir = 3) :
    s.receive p f cls kind ok act = act (s.received p) :=
  (receive_valid hlen hok hst).trans (if_pos hdir)

variable (hst : (s.port p).state = .upstream)
include hst

theorem receive_down : f.dir ≠ 3 → f.dir ≠ 0 → s.receive p f cls kind ok act =
    (s.received p).routeDown p f cls kind (f.dir == 2) act := by
  intro h3 h0
  rw [receive_valid hlen hok (by simp [hst]), if_neg h3, if_neg h0]

/-- A DOWN_ALL frame on the UPSTREAM port of a module without children is for the module alone. -/
theorem receive_downAll (hdir : f.dir = 2) (hleaf : ∀ q, ((act (s.received p)).port q).state ≠ .child) :
    s.receive p f cls kind ok act = act (s.received p) := by
  rw [receive_down hlen hok hst (by simp [hdir]) (by simp [hdir])]
  unfold State.routeDown
  dsimp only
  rw [if_neg (by simp [received_state, hst]), hdir]
  split
  · rfl
  · rw [toChildren_none (by simpa using hleaf)]
    rfl

/-- A DOWN frame with this module's address is for the module alone. -/
theorem receive_downOwn (hdir : f.dir = 1) (haddr : s.addr ≠ 0) (hdest : f.dest.toNat = s.addr) :
    s.receive p f cls kind ok act = act (s.received p) := by
  have hown : (decide ((s.received p).addr ≠ 0) && f.dest.toNat == (s.received p).addr) = true := by
    simp [show (s.received p).addr = s.addr from rfl, haddr, hdest]
  rw [receive_down hlen hok hst (by simp [hdir]) (by simp [hdir])]
  unfold State.routeDown
  dsimp only
  rw [if_neg (by simp [received_state, hst]), hown, hdir]
  rfl

end

end Sys2Proof.Machine
end

section
/-! SUPPORT. Registrations (R342 to R347) and the trunk's saved settings and exports (R353, R362). -/

namespace Sys2Proof.Machine

open Sys2Proof

/-! ### Records keep the trunk but for its ports and its counts of exports -/

/-- The TRK block without its ports and its counts of exported records. -/
def State.tree (s : State) : Trk := { s.trk with ports := Trk.reset.ports, expSent := 0, expDropped := 0 }

@[simp] theorem tree_ite {p : Prop} [Decidable p] (a b : State) :
    (if p then a else b).tree = if p then a.tree else b.tree := apply_ite ..

@[simp] theorem tree_modQ (s : State) (q : Fin 256) (f : Queue → Queue) : (s.modQ q f).tree = s.tree := rfl

@[simp] theorem originate_tree (s : State) (cls : FrameClass) (dir : FrameDir) (kind : Nat) (turn : Bool) (dest : Nat)
    (payload : List Byte) : (s.originate cls dir kind turn dest payload).1.tree = s.tree :=
  originate_keeps (fun _ _ _ _ => rfl) ..

theorem expSent_tree (s : State) (n : Nat) : ({ s with trk := { s.trk with expSent := n } } : State).tree = s.tree := rfl

theorem expDropped_tree (s : State) (n : Nat) :
    ({ s with trk := { s.trk with expDropped := n } } : State).tree = s.tree := rfl

theorem exportRec_tree (s : State) (q : Fin 256) (r : Record) : (s.exportRec q r).tree = s.tree := by
  refine foldl_keeps State.tree (fun t e => ?_) _ s
  simp only [tree_ite, expSent_tree, expDropped_tree, originate_tree, ite_self]

@[simp] theorem enter_tree (s : State) (q : Fin 256) (r : Record) : (s.enter q r).tree = s.tree := by
  unfold State.enter
  split
  · rfl
  · exact exportRec_tree ..

theorem lossTail_tree (s : State) (q : Fin 256) (causes : Byte) (lost : Nat) (es : List SrcCount) (ts : Nat) :
    (s.lossTail q causes lost es ts).tree = s.tree := by
  unfold State.lossTail
  dsimp only
  split <;> split <;> rfl

@[simp] theorem countLost_tree (s : State) (q : Fin 256) (n : Nat) : (s.countLost q n).tree = s.tree := by
  unfold State.countLost
  dsimp only
  split <;> rfl

theorem makeRoom_tree (need : Nat) (q : Fin 256) (n : Nat) (s : State) : (State.makeRoom need q n s).tree = s.tree := by
  induction n generalizing s with
  | zero => rfl
  | succ n ih =>
    unfold State.makeRoom
    dsimp only
    split
    · rfl
    · split
      · rfl
      · split
        · exact (ih _).trans (countLost_tree ..)
        · rfl

theorem stage_tree (s : State) (q : Fin 256) (r : Record) : (s.stage q r).tree = s.tree := by
  unfold State.stage
  dsimp only
  split
  · rfl
  · split
    · have hroom := makeRoom_tree r.size q (s.qu q).staged.length s
      split
      · exact (enter_tree ..).trans hroom
      · exact (countLost_tree ..).trans hroom
    · split
      · exact enter_tree ..
      · exact (countLost_tree ..).trans (lossTail_tree ..)

theorem report_tree (s : State) (k : CmdRef) (status : Nat) (result : List Byte) :
    (s.report k status result).tree = s.tree := by
  unfold State.report State.deliverDone
  dsimp only
  split
  · rfl
  · split
    · rfl
    · split
      · exact enter_tree ..
      · rfl

theorem complete_tree (s : State) (k : CmdRef) (status : Nat) (result : List Byte) :
    (s.complete k status result).tree = s.tree := by
  unfold State.complete State.endNops
  dsimp only
  rw [foldl_keeps State.tree (fun t a => report_tree t a Status.ok []), tree_modQ, report_tree]
  split <;> rfl

theorem finish_tree (s : State) (cmd : Command) (status : Nat) (result : List Byte) :
    (s.finish cmd status result).tree = s.tree := complete_tree ..

theorem pending_of_tree {s t : State} (h : t.tree = s.tree) : t.trk.pending = s.trk.pending :=
  (congrArg Trk.pending h : _)

theorem regDone_of_tree {s t : State} (h : t.tree = s.tree) : t.trk.regDone = s.trk.regDone :=
  (congrArg Trk.regDone h : _)

/-! ### REG_IN_EDGE (R343) -/

/-- The effect of REG_IN_EDGE. -/
def State.hearRegIn (s : State) : State :=
  let mask := BitVec.ofNat 4 (bf s.trk.regCfg 0 4)
  let early := match s.trk.lastRegIn with
    | some t => decide (s.real < t + 1024)
    | none => false
  if mask = 0 then s
  else if early then
    { s with trk := { s.trk with regEarly := count 8 1 s.trk.regEarly, events := raise s.trk.events 7 } }
  else
    let tree := bit s.trk.regCfg 31 && s.trk.tree == .crown
    let t := s.tb + (if tree then 2 ^ 20 else 2048)
    let s1 := { s with trk := { s.trk with lastRegIn := some s.real } }
    let s2 := if s1.trk.roomFor t then
        s1.armReg { tick := t, slices := mask, sources := 1, unaligned := false, hops := 0, origin := s.addr }
      else s1.rejectReg
    if tree then (s2.originate .control .downAll 0x12 false 0 (regArmPayload t mask false)).1 else s2

theorem exec_regInEdge (s : State) : exec .regInEdge s = run s State.hearRegIn := rfl

theorem regMask_eq_zero (w : Word) : BitVec.ofNat 4 (bf w 0 4) = 0 ↔ bf w 0 4 = 0 := by
  have hlt : bf w 0 4 < 16 := bf_lt ..
  rw [← BitVec.toNat_inj, BitVec.toNat_ofNat, Nat.mod_eq_of_lt hlt]
  rfl

section
variable {s : State}

theorem hearRegIn_off (h : bf s.trk.regCfg 0 4 = 0) : s.hearRegIn = s := if_pos ((regMask_eq_zero _).mpr h)

section
variable (hmask : bf s.trk.regCfg 0 4 ≠ 0)
include hmask

theorem hearRegIn_early {t : Nat} (hlast : s.trk.lastRegIn = some t) (h : s.real < t + 1024) : s.hearRegIn =
    { s with trk := { s.trk with regEarly := count 8 1 s.trk.regEarly, events := raise s.trk.events 7 } } := by
  unfold State.hearRegIn
  dsimp only
  rw [if_neg (fun hz => hmask ((regMask_eq_zero _).mp hz)), hlast, if_pos (decide_eq_true h)]

/-- An edge that is not early, of local scope, arms a tick or is rejected. -/
theorem hearRegIn_arms (hlast : ∀ t, s.trk.lastRegIn = some t → t + 1024 ≤ s.real) (hlocal : bit s.trk.regCfg 31 = false) :
    s.hearRegIn =
      let s1 := { s with trk := { s.trk with lastRegIn := some s.real } }
      if s1.trk.roomFor (s.tb + 2048) then
        s1.armReg { tick := s.tb + 2048, slices := BitVec.ofNat 4 (bf s.trk.regCfg 0 4), sources := 1,
                    unaligned := false, hops := 0, origin := s.addr }
      else s1.rejectReg := by
  have hearly : (match s.trk.lastRegIn with
      | some t => decide (s.real < t + 1024)
      | none => false) = false := by
    cases hl : s.trk.lastRegIn with
    | none => rfl
    | some t => exact decide_eq_false (Nat.not_lt.mpr (hlast t hl))
  unfold State.hearRegIn
  dsimp only
  rw [if_neg (fun hz => hmask ((regMask_eq_zero _).mp hz)), hearly, hlocal]
  rfl

end

/-! ### TRK_REG_ARM and TRK_REG_CANCEL (R347) -/

/-- The effect of TRK_REG_ARM. -/
def State.takeRegArm (s : State) (cmd : Command) : State :=
  let t := u64 cmd.body 0
  let scope := u8 cmd.body 9
  let slices := BitVec.ofNat 4 (u8 cmd.body 8)
  if 16 ≤ u8 cmd.body 8 ∨ 2 < scope then s.finish cmd Status.badParam []
  else if !s.scopeMet scope then s.finish cmd Status.rejected []
  else if scope ≠ 0 ∧ t < s.tb + 2 ^ 20 then s.finish cmd Status.timeout []
  else if s.armCheck t ≠ Status.ok then s.finish cmd (s.armCheck t) []
  else
    let s1 := s.armReg
      { tick := t, slices := slices, sources := 2, unaligned := false, hops := 0, origin := s.addr }
    (s1.sendRegArm scope t slices false).finish cmd Status.ok []

theorem exec_trkRegArm (s : State) :
    exec .trkRegArm s = run s (fun s => s.onCommand 13 0x60 fun s cmd => s.takeRegArm cmd) := rfl

section
variable {cmd : Command} (hscope : u8 cmd.body 9 = 0) (hslices : u8 cmd.body 8 < 16)
include hscope hslices

/-- An arm of local scope goes by the checks of R344 alone. -/
theorem takeRegArm_local : s.takeRegArm cmd =
    if s.armCheck (u64 cmd.body 0) ≠ Status.ok then s.finish cmd (s.armCheck (u64 cmd.body 0)) []
    else (s.armReg { tick := u64 cmd.body 0, slices := BitVec.ofNat 4 (u8 cmd.body 8), sources := 2,
                     unaligned := false, hops := 0, origin := s.addr }).finish cmd Status.ok [] := by
  unfold State.takeRegArm
  dsimp only
  rw [hscope, if_neg (by omega)]
  rfl

theorem takeRegArm_refused {status : Nat} (h : s.armCheck (u64 cmd.body 0) = status) (hbad : status ≠ Status.ok) :
    s.takeRegArm cmd = s.finish cmd status [] := by
  rw [takeRegArm_local hscope hslices, h, if_pos hbad]

theorem takeRegArm_arms (h : s.armCheck (u64 cmd.body 0) = Status.ok) : s.takeRegArm cmd =
    (s.armReg { tick := u64 cmd.body 0, slices := BitVec.ofNat 4 (u8 cmd.body 8), sources := 2, unaligned := false,
                hops := 0, origin := s.addr }).finish cmd Status.ok [] :=
  (takeRegArm_local hscope hslices).trans (if_neg (not_not_intro h))

end

section
variable {t : Nat}

theorem armCheck_early (h : t < s.tb + 65536) : s.armCheck t = Status.timeout := if_pos h

theorem armCheck_far (h : s.tb + 1099511627776 < t) : s.armCheck t = Status.badParam := by
  unfold State.armCheck
  rw [if_neg (by omega), if_pos (by omega)]

variable (hlate : s.tb + 65536 ≤ t) (hnear : t ≤ s.tb + 1099511627776)
include hlate hnear

theorem armCheck_full (h : s.trk.roomFor t = false) : s.armCheck t = Status.noResource := by
  unfold State.armCheck
  rw [if_neg (by omega), if_neg (by omega), h]
  rfl

theorem armCheck_ok (h : s.trk.roomFor t = true) : s.armCheck t = Status.ok := by
  unfold State.armCheck
  rw [if_neg (by omega), if_neg (by omega), h]
  rfl

end

/-- The effect of TRK_REG_CANCEL. -/
def State.takeRegCancel (s : State) (cmd : Command) : State :=
  let t := u64 cmd.body 0
  let scope := u8 cmd.body 8
  if 2 < scope then s.finish cmd Status.badParam []
  else if !s.scopeMet scope then s.finish cmd Status.rejected []
  else ((s.cancelReg t).sendRegArm scope t 0 true).finish cmd Status.ok (le 4 (b2n (s.cancels t)))

theorem exec_trkRegCancel (s : State) :
    exec .trkRegCancel s = run s (fun s => s.onCommand 13 0x61 fun s cmd => s.takeRegCancel cmd) := rfl

theorem takeRegCancel_local {cmd : Command} (hscope : u8 cmd.body 8 = 0) : s.takeRegCancel cmd =
    (s.cancelReg (u64 cmd.body 0)).finish cmd Status.ok (le 4 (b2n (s.cancels (u64 cmd.body 0)))) := by
  unfold State.takeRegCancel
  dsimp only
  rw [hscope]
  rfl

/-- A cancel leaves no source that it removes at its tick (R347). -/
theorem cancelReg_strips {t : Nat} {e : PendReg} (he : e ∈ (s.cancelReg t).trk.pending) (ht : e.tick = t) :
    e.sources &&& 7 = 0 := by
  obtain ⟨d, -, rfl⟩ := List.mem_map.mp (List.mem_filter.mp he).1
  split
  case isTrue htick =>
    show (d.sources &&& 8) &&& 7 = 0
    exact (BitVec.and_assoc ..).trans BitVec.and_zero
  case isFalse htick =>
    rw [if_neg htick] at ht
    exact absurd ht htick

/-- A cancel leaves the pending ticks other than its own, those without a source excepted. -/
theorem cancelReg_others (s : State) (t : Nat) : (s.cancelReg t).trk.pending.filter (fun e => e.tick != t)
    = s.trk.pending.filter (fun e => e.tick != t && e.sources != 0) := by
  unfold State.cancelReg
  dsimp only
  rw [List.filter_filter, List.filter_map]
  refine Eq.trans (List.map_congr_left fun e he => ?_) ((List.map_id' _).trans (List.filter_congr fun e _ => ?_))
  · have hne : e.tick ≠ t := by
      rintro rfl
      simp at he
    exact if_neg hne
  · by_cases ht : e.tick = t <;> simp [ht]

/-! ### REG_ARM (R344) -/

theorem exec_regArm (p : Fin 3) (f : RxFrame) (s : State) : exec (.regArm p f) s = run s (fun s =>
    s.receive p f .control 0x12 ((f.dir == 2 || (f.dir == 0 && f.turn)) && decide (16 ≤ f.payload.length))
      fun s => s.hearRegArm f) := rfl

theorem armReg_port (s : State) (e : PendReg) (q : Fin 3) : (s.armReg e).port q = s.port q := by
  unfold State.armReg Trk.armReg
  split <;> rfl

/-- The arm that a REG_ARM frame asks for. -/
def State.frameArm (s : State) (f : RxFrame) : PendReg :=
  { tick := b64 f.payload 0, slices := BitVec.ofNat 4 (u8 f.payload 8), sources := 4,
    unaligned := !(s.tbm.state == .locked && s.tbm.source == 2), hops := f.hops.toNat + 1, origin := f.src.toNat }

theorem hearRegArm_arms {f : RxFrame} (harm : (u8 f.payload 9).testBit 0 = false)
    (hok : s.armCheck (b64 f.payload 0) = Status.ok) : s.hearRegArm f = s.armReg (s.frameArm f) := by
  unfold State.hearRegArm
  dsimp only
  rw [harm, if_neg Bool.false_ne_true, if_neg (not_not_intro hok)]
  rfl

/-- A REG_ARM frame on the UPSTREAM port of a module without children arms its tick. -/
theorem regArm_arms {p : Fin 3} {f : RxFrame} (hst : (s.port p).state = .upstream)
    (hleaf : ∀ q, (s.port q).state ≠ .child) (hdir : f.dir = 2) (hmin : 16 ≤ f.payload.length)
    (hmax : f.payload.length ≤ 256) (harm : (u8 f.payload 9).testBit 0 = false)
    (hok : s.armCheck (b64 f.payload 0) = Status.ok) :
    Does (.regArm p f) s (fun s => (s.received p).armReg ((s.received p).frameArm f)) := by
  refine run_does_from (exec_regArm p f s) ?_
  rintro u o rfl
  have hact := hearRegArm_arms (s := u.received p) harm hok
  refine (receive_downAll (s := u) hmax (by simp [hdir, hmin]) hst hdir fun q => ?_).trans hact
  rw [hact]
  rw [armReg_port, received_state]
  exact hleaf q

/-! ### REGISTRATION (R342, R345) -/

/-- The effect of REGISTRATION. -/
def State.registrationDue (s : State) : State :=
  match s.trk.nextReg with
  | some e =>
    let locks := allSlices.any (fun c => match (s.sl c).lockReady s.tb with
      | some t => decide (t ≤ e.tick)
      | none => false)
    if e.tick ≤ s.tb ∧ !s.tbm.warpAt e.tick ∧ !locks then s.register e e.tick false else s
  | none => s

theorem exec_registration (s : State) : exec .registration s = run s State.registrationDue := rfl

/-- Whether some slice has a lock-up that comes first (R75). -/
def State.locksBy (s : State) (v : Nat) : Prop := ∃ c t, (s.sl c).lockReady s.tb = some t ∧ t ≤ v

theorem locksBy_iff (s : State) (v : Nat) : allSlices.any (fun c => match (s.sl c).lockReady s.tb with
    | some t => decide (t ≤ v)
    | none => false) = true ↔ s.locksBy v := by
  rw [List.any_eq_true]
  constructor
  · rintro ⟨c, -, h⟩
    cases hl : (s.sl c).lockReady s.tb with
    | none => rw [hl] at h; cases h
    | some t => rw [hl] at h; exact ⟨c, t, hl, of_decide_eq_true h⟩
  · rintro ⟨c, t, hl, ht⟩
    refine ⟨c, List.mem_finRange c, ?_⟩
    rw [hl]
    exact decide_eq_true ht

theorem registrationDue_takes {e : PendReg} (hnext : s.trk.nextReg = some e) (htick : e.tick ≤ s.tb)
    (hwarp : s.tbm.warpAt e.tick = false) (hlock : ¬ s.locksBy e.tick) :
    s.registrationDue = s.register e e.tick false := by
  have hlocks := Bool.eq_false_iff.mpr (mt (locksBy_iff s e.tick).mp hlock)
  unfold State.registrationDue
  rw [hnext]
  exact if_pos ⟨htick, by rw [hwarp]; rfl, by rw [hlocks]; rfl⟩

theorem registrationDue_waits (h : ∀ e, s.trk.nextReg = some e →
    s.tb < e.tick ∨ s.tbm.warpAt e.tick = true ∨ s.locksBy e.tick) : s.registrationDue = s := by
  unfold State.registrationDue
  cases hnext : s.trk.nextReg with
  | none => rfl
  | some e =>
    refine if_neg ?_
    rintro ⟨htick, hwarp, hlock⟩
    obtain h | h | h := h e hnext
    · omega
    · rw [h] at hwarp
      cases hwarp
    · rw [(locksBy_iff s e.tick).mpr h] at hlock
      cases hlock

/-- What a registration leaves: its tick is no longer pending, it is counted, and its slices are reset. -/
theorem registration_leaves (s : State) (e : PendReg) (at_ : Nat) (late : Bool) :
    (s.register e at_ late).trk.pending = s.trk.pending.erase e
      ∧ (s.register e at_ late).trk.regDone = count 16 1 s.trk.regDone
      ∧ ∀ c, (s.register e at_ late).sl c = if s.registers e c then (s.sl c).register (at_ + 48) else s.sl c := by
  let v : State := { s with trk := { s.trk with
    pending := s.trk.pending.erase e, regDone := count 16 1 s.trk.regDone } }
  have hstage : (s.register e at_ late).tree = v.tree := by
    unfold State.register
    exact stage_tree ..
  have hslices : (s.register e at_ late).slices =
      (s.modSlices (fun c x => if s.registers e c then x.register (at_ + 48) else x)).slices := by
    unfold State.register
    exact slices_of_offRecord (stage_offRecord ..)
  refine ⟨pending_of_tree hstage, regDone_of_tree hstage, fun c => ?_⟩
  rw [sl_congr hslices, sl_modSlices]

end

/-! ### TRK_SAVE and TRK_EXPORT -/

theorem exec_trkSave (s : State) : exec .trkSave s = run s (fun s => s.onCommand 13 0x62 fun s cmd =>
    s.save cmd (.trkSave cmd.ref s.trk.cfg s.trk.addr (vmap (fun k => k.asym) s.trk.ports))) := rfl

/-- The effect of TRK_EXPORT. -/
def State.takeExport (s : State) (cmd : Command) : State :=
  let b := cmd.body
  if 32 ≤ u8 b 0 ∨ queueIsCmd (qn (u8 b 1)) ∨ 2 ≤ u8 b 2 ∨ 262144 ≤ u32 b 4 then s.finish cmd Status.badParam []
  else
    let e : Export := { queue := u8 b 1, enable := u8 b 2 == 1, dest := u32 b 4 }
    ({ s with trk := { s.trk with exports := vmod s.trk.exports (u8 b 0) (fun _ => e) } }).finish cmd Status.ok []

theorem exec_trkExport (s : State) :
    exec .trkExport s = run s (fun s => s.onCommand 13 0x63 fun s cmd => s.takeExport cmd) := rfl

/-- The ranges of a TRK_EXPORT body (R362). -/
def exportBodyOk (b : List Byte) : Prop := u8 b 0 < 32 ∧ queueIsCmd (qn (u8 b 1)) = false ∧ u8 b 2 < 2 ∧ u32 b 4 < 262144

theorem exportBodyOk_iff (b : List Byte) : exportBodyOk b ↔
    ¬(32 ≤ u8 b 0 ∨ queueIsCmd (qn (u8 b 1)) = true ∨ 2 ≤ u8 b 2 ∨ 262144 ≤ u32 b 4) := by
  simp only [exportBodyOk, not_or, not_le, Bool.not_eq_true]

section
variable {s : State} {cmd : Command}

theorem takeExport_bad (h : ¬exportBodyOk cmd.body) : s.takeExport cmd = s.finish cmd Status.badParam [] :=
  if_pos (Decidable.not_not.mp (mt (exportBodyOk_iff cmd.body).mpr h))

theorem takeExport_ok (h : exportBodyOk cmd.body) : s.takeExport cmd =
    ({ s with trk := { s.trk with exports := vmod s.trk.exports (u8 cmd.body 0) (fun _ =>
      { queue := u8 cmd.body 1, enable := u8 cmd.body 2 == 1, dest := u32 cmd.body 4 }) } }).finish cmd Status.ok [] :=
  if_neg ((exportBodyOk_iff cmd.body).mp h)

end

/-- Settles O56. REG_IN_EDGE and the arms by the three checks of R344, in the order that is the model's reading (log entry
49); the cancel; the registration, which waits for a lock-up due by its tick (log entry 77); then TRK_SAVE and
TRK_EXPORT. -/
theorem registrations : Obligations.Registrations := by
  intro s trk mask
  refine ⟨?off, ?early, fun hmask hlast hlocal => ⟨?armed, ?rejected⟩, fun cmd hcmd hscope hslices =>
    ⟨?soon, ?far, fun hlate hnear => ⟨?full, ?arms⟩⟩, ?frame, ?cancel, ?registers, ?waits, ?saved,
    fun cmd hcmd => ⟨?outOfRange, ?exported⟩⟩
  case off =>
    intro hmask
    refine run_does_from (exec_regInEdge s) ?_
    rintro u o rfl
    exact hearRegIn_off (s := u) hmask
  case early =>
    intro t hmask hlast hreal
    refine run_does_from (exec_regInEdge s) ?_
    rintro u o rfl
    exact hearRegIn_early (s := u) hmask hlast hreal
  case armed =>
    intro hroom
    refine run_does_from (exec_regInEdge s) ?_
    rintro u o rfl
    exact (hearRegIn_arms (s := u) hmask hlast hlocal).trans (if_pos hroom)
  case rejected =>
    intro hroom
    refine run_does_from (exec_regInEdge s) ?_
    rintro u o rfl
    exact (hearRegIn_arms (s := u) hmask hlast hlocal).trans (if_neg (ne_true_of_eq_false hroom))
  case soon =>
    intro hsoon
    refine command_does (exec_trkRegArm s) hcmd ?_
    rintro u o rfl
    exact takeRegArm_refused (s := u) hscope hslices (armCheck_early hsoon) (by decide)
  case far =>
    intro hlate hfar
    refine command_does (exec_trkRegArm s) hcmd ?_
    rintro u o rfl
    exact takeRegArm_refused (s := u) hscope hslices (armCheck_far hfar) (by decide)
  case full =>
    intro hroom
    refine command_does (exec_trkRegArm s) hcmd ?_
    rintro u o rfl
    exact takeRegArm_refused (s := u) hscope hslices (armCheck_full hlate hnear hroom) (by decide)
  case arms =>
    intro hroom
    refine command_does (exec_trkRegArm s) hcmd ?_
    rintro u o rfl
    exact takeRegArm_arms (s := u) hscope hslices (armCheck_ok hlate hnear hroom)
  case frame =>
    intro p f hst hleaf hdir hmin hmax harm t hlate hnear hroom
    exact regArm_arms hst hleaf hdir hmin hmax harm (armCheck_ok hlate hnear hroom)
  case cancel =>
    intro cmd hcmd hscope
    refine command_gives (exec_trkRegCancel s) (fun _ _ _ _ h => h) hcmd ?_
    rintro u o rfl
    rw [takeRegCancel_local hscope]
    have hpending := pending_of_tree (finish_tree (u.cancelReg (u64 cmd.body 0)) cmd Status.ok
      (le 4 (b2n (u.cancels (u64 cmd.body 0)))))
    refine ⟨fun e he ht => ?_, ?_, finish_inHand .., slices_of_offRecord (finish_offRecord ..)⟩
    · rw [hpending] at he
      exact cancelReg_strips he ht
    · rw [hpending]
      exact cancelReg_others u _
  case registers =>
    intro e hnext htick hwarp hlock
    refine run_gives_from (exec_registration s) (fun _ _ _ _ h => h) ?_
    rintro u o rfl
    rw [registrationDue_takes (s := u) hnext htick hwarp ?_]
    · exact registration_leaves u e e.tick false
    · rintro ⟨c, t, hl, ht⟩
      exact absurd (hlock c t hl) (Nat.not_lt.mpr ht)
  case waits =>
    intro h
    refine run_does_from (exec_registration s) ?_
    rintro u o rfl
    exact registrationDue_waits (s := u) h
  case saved =>
    intro cmd hcmd hroom
    refine command_gives (exec_trkSave s) (fun _ _ _ _ h => h) hcmd ?_
    rintro u o rfl
    obtain ⟨hjobs, -, hhand, hout⟩ := save_leaves (s := u) (cmd := cmd)
      (.trkSave cmd.ref u.trk.cfg u.trk.addr (vmap (fun k => k.asym) u.trk.ports)) hroom
    exact ⟨hjobs, hhand, hout⟩
  case outOfRange =>
    intro hbad
    refine command_does (exec_trkExport s) hcmd ?_
    rintro u o rfl
    exact takeExport_bad hbad
  case exported =>
    intro hok
    refine command_does (exec_trkExport s) hcmd ?_
    rintro u o rfl
    exact takeExport_ok hok

end Sys2Proof.Machine
end

section
/-! SUPPORT. Time, records and bulk transfers over the trunk (R358, R363 to R365). -/

namespace Sys2Proof.Machine

open Sys2Proof

/-! ### SYNC and DELAY_REQ (R358) -/

theorem exec_sync (p : Fin 3) (f : RxFrame) (s : State) : exec (.sync p f) s = run s (fun s =>
    s.receive p f .time 0x01 (f.dir == 3 && f.payload.length == 20) fun s => s.hearSync p f) := rfl

/-- The trunk's time after a SYNC, before its DELAY_REQ. -/
def State.syncStamped (s : State) (p : Fin 3) (f : RxFrame) : State :=
  ({ s with trk := { s.trk with
      crownExt := (u8 f.payload 17).testBit 1, crownSrc := u8 f.payload 18, timeReal := s.real } }).modPort p
    (fun k => k.stampSync (b64 f.payload 0) s.tb)

theorem syncStamped_port (s : State) (p : Fin 3) (f : RxFrame) :
    (s.syncStamped p f).port p = (s.port p).stampSync (b64 f.payload 0) s.tb := port_modPort ..

/-- The DELAY_REQ that answers a SYNC. -/
def State.delayReq (s : State) (p : Fin 3) : Frame :=
  { cls := .time, dir := .link, kind := 0x02, hops := 0, turn := false, dest := 0, src := s.addr,
    payload := BitVec.ofNat 8 (s.port p).reqSeq :: le 19 0, ingress := 0, crc := none }

/-- A SYNC with an origin, and no exchange to complete, stamps T1 and T2 and answers. -/
theorem hearSync_stamps {s : State} {p : Fin 3} {f : RxFrame} (hst : (s.port p).state = .upstream)
    (ht3 : (s.port p).t3 = 0) (horigin : (u8 f.payload 17).testBit 0 = true) : s.hearSync p f =
      ((s.syncStamped p f).egress p p.val ((s.syncStamped p f).delayReq p)).1 := by
  have hdone : (decide ((s.port p).t3 ≠ 0) && u8 f.payload 16 == (s.port p).reqSeq) = false := by simp [ht3]
  unfold State.hearSync
  dsimp only
  rw [if_neg (not_not_intro hst), hdone, horigin]
  split
  · exact if_neg (fun h => Bool.false_ne_true h.1)
  · rfl

/-- A TIME frame takes the place of the one that waits. -/
theorem port_egress_time (s : State) (p : Fin 3) (i : Nat) {f : Frame} (h : f.cls = .time) :
    (s.egress p i f).1.port p = { s.port p with qTime := some { f with ingress := i } } := by
  rw [State.egress, port_modPort, Port.enqueue]
  simp only [h]

theorem exec_delayReq (p : Fin 3) (f : RxFrame) (s : State) : exec (.delayReq p f) s = run s (fun s =>
    s.receive p f .time 0x02 (f.dir == 3 && f.payload.length == 20) fun s =>
      if (s.port p).state = .child then s.modPort p (fun k => { k with t4 := s.tb, t4seq := u8 f.payload 0 })
      else s) := rfl

/-! ### RECORD and XFER_STATUS (R363, R364) -/

theorem exec_recordFrame (p : Fin 3) (f : RxFrame) (s : State) : exec (.recordFrame p f) s = run s (fun s =>
    s.receive p f .service 0x30
      ((f.dir == 1 || (f.dir == 0 && (f.turn || f.dest == 0))) && decide (32 ≤ f.payload.length))
      fun s => s.stage 6 (recordOf f.payload)) := rfl

/-- The answer that an XFER_STATUS frame brings. -/
def answerOf (f : RxFrame) : PushAnswer :=
  { addr := f.src.toNat, status := BitVec.ofNat 8 (u8 f.payload 4),
    missing := (List.range (min 32 (b16 f.payload 6))).map (fun i => b16 f.payload (8 + 2 * i)) }

/-- What the module does with an XFER_STATUS frame. -/
def State.hearStatus (s : State) (f : RxFrame) : State :=
  match s.trk.push with
  | some u =>
    if u.id.toNat = b32 f.payload 0 then { s with trk := { s.trk with push := some (u.note (answerOf f)) } } else s
  | none => s

theorem exec_xferStatus (p : Fin 3) (f : RxFrame) (s : State) : exec (.xferStatus p f) s = run s (fun s =>
    s.receive p f .control 0x20
      ((f.dir == 1 || (f.dir == 0 && f.turn)) && decide (8 + 2 * min 32 (b16 f.payload 6) ≤ f.payload.length))
      fun s => s.hearStatus f) := rfl

theorem hearStatus_notes {s : State} {f : RxFrame} {u : Push} (hpush : s.trk.push = some u)
    (hid : u.id.toNat = b32 f.payload 0) :
    s.hearStatus f = { s with trk := { s.trk with push := some (u.note (answerOf f)) } } := by
  unfold State.hearStatus
  rw [hpush]
  exact if_pos hid

/-! ### Sending an object (R364) -/

theorem feedFrames_offQueues (dest : Nat) (l : List (Nat × List Byte)) (s : State) :
    (feedFrames dest l s).2.offQueues = s.offQueues := by
  induction l generalizing s with
  | nil => rfl
  | cons x l ih =>
    unfold feedFrames
    split
    · exact (ih _).trans (originate_offQueues ..)
    · rfl

/-- A push that goes on sending is the same but for the frames that it has still to send and the start of its wait. -/
theorem feedPush_leaves {s : State} {u : Push} (hpush : s.trk.push = some u) (htodo : u.todo ≠ []) :
    (∃ todo endAt, s.feedPush.trk.push = some { u with todo := todo, endAt := endAt })
      ∧ s.feedPush.free = s.free ∧ s.feedPush.queues = s.queues := by
  unfold State.feedPush
  simp only [hpush, if_neg (mt List.isEmpty_iff.mp htodo)]
  have hframe := feedFrames_offQueues u.dest u.todo s
  exact ⟨⟨_, _, rfl⟩, (congrArg State.free hframe : _), queues_of_offQueues hframe⟩

/-- The push that a TRK_PUSH command begins. -/
def State.newPush (s : State) (cmd : Command) (data : List Byte) : Push :=
  let b := cmd.body
  { cmd := cmd.ref, id := Config.xferId s.free, obj := u8 b 0, dst := u8 b 2, boot := u8 b 3, dest := u32 b 4,
    waitMs := if u32 b 8 = 0 then 2000 else u32 b 8, data := data, round := 0,
    todo := pushFrames (Config.xferId s.free) (u8 b 0) (u8 b 2) (u8 b 3) data 0
      (List.range (ceilDiv data.length 1024)),
    endAt := none, answers := [] }

theorem newPush_todo (s : State) (cmd : Command) (data : List Byte) : (s.newPush cmd data).todo ≠ [] :=
  List.append_ne_nil_of_right_ne_nil _ (List.cons_ne_nil _ _)

/-- The object that a TRK_PUSH body names, as a unit of the flash. -/
def pushUnit (b : List Byte) : Nat := if u8 b 0 = 1 then u8 b 1 else 0xFFFF

/-- The effect of TRK_PUSH. -/
def State.takePush (s : State) (cmd : Command) (ecc : Option Bool) : State :=
  let b := cmd.body
  if !pushBodyOk b then s.finish cmd Status.badParam []
  else if s.trk.push.isSome then s.finish cmd Status.busy []
  else
    match s.pushObject (u8 b 0) (u8 b 1) with
    | none => s.finish cmd Status.noResource []
    | some data =>
      let s := s.eccMaybe ecc (pushUnit b)
      if ecc = some false then s.finish cmd Status.parity []
      else
        let s1 := s.keep cmd
        ({ s1 with free := s1.free + 1, trk := { s1.trk with push := some (s.newPush cmd data) } }).feedPush

theorem exec_trkPush (ecc : Option Bool) (s : State) : exec (.trkPush ecc) s = run s (fun s =>
    s.onCommand 13 0x64 fun s cmd => s.takePush cmd ecc) := rfl

/-- A flash read without an error, or with one that was corrected, leaves the number of the next push. -/
theorem eccMaybe_free {ecc : Option Bool} (h : ecc ≠ some false) (s : State) (unit : Nat) :
    (s.eccMaybe ecc unit).free = s.free := by
  match ecc with
  | none => rfl
  | some true => rfl
  | some false => exact absurd rfl h

section
variable {s : State} {cmd : Command} (ecc : Option Bool)

theorem takePush_bad (h : pushBodyOk cmd.body = false) : s.takePush cmd ecc = s.finish cmd Status.badParam [] := by
  unfold State.takePush
  dsimp only
  rw [h]
  rfl

variable (hok : pushBodyOk cmd.body = true)
include hok

theorem takePush_busy (h : s.trk.push ≠ none) : s.takePush cmd ecc = s.finish cmd Status.busy [] := by
  unfold State.takePush
  dsimp only
  rw [hok, if_neg (by decide), if_pos (Option.isSome_iff_ne_none.mpr h)]

variable (hfree : s.trk.push = none)
include hfree

theorem takePush_empty (h : s.pushObject (u8 cmd.body 0) (u8 cmd.body 1) = none) :
    s.takePush cmd ecc = s.finish cmd Status.noResource [] := by
  unfold State.takePush
  dsimp only
  rw [hok, if_neg (by decide), hfree, h]
  rfl

variable {data : List Byte} (hdata : s.pushObject (u8 cmd.body 0) (u8 cmd.body 1) = some data)
include hdata

theorem takePush_unread :
    s.takePush cmd (some false) = (s.eccRead false (pushUnit cmd.body)).finish cmd Status.parity [] := by
  unfold State.takePush
  dsimp only
  rw [hok, if_neg (by decide), hfree, hdata]
  rfl

/-- A push that begins: its command is outstanding, and it takes the next number. -/
theorem takePush_begins (hread : ecc ≠ some false) :
    (∃ todo endAt, (s.takePush cmd ecc).trk.push = some { s.newPush cmd data with todo := todo, endAt := endAt })
      ∧ (s.takePush cmd ecc).free = s.free + 1
      ∧ ((s.takePush cmd ecc).qu cmd.queue).inHand = none
      ∧ cmd.ref ∈ ((s.takePush cmd ecc).qu cmd.queue).outstanding := by
  let r := s.eccMaybe ecc (pushUnit cmd.body)
  let v : State := { r.keep cmd with
    free := (r.keep cmd).free + 1, trk := { (r.keep cmd).trk with push := some (r.newPush cmd data) } }
  have hr : r.free = s.free := eccMaybe_free hread s _
  have hnew : r.newPush cmd data = s.newPush cmd data := by
    unfold State.newPush
    rw [hr]
  have htake : s.takePush cmd ecc = v.feedPush := by
    unfold State.takePush
    dsimp only
    rw [hok, if_neg (by decide), hfree, hdata]
    exact if_neg hread
  obtain ⟨hpush, hnumber, hqueues⟩ := feedPush_leaves (s := v) rfl (newPush_todo r cmd data)
  obtain ⟨hhand, hout⟩ := keep_waits r cmd
  rw [htake]
  refine ⟨hnew ▸ hpush, hnumber.trans (congrArg (· + 1) hr), ?_, ?_⟩
  · rw [State.qu, hqueues]
    exact hhand
  · rw [State.qu, hqueues]
    exact hout

end

/-! ### PUSH_ROUND (R364) -/

/-- The effect of PUSH_ROUND. -/
def State.pushRoundDue (s : State) : State :=
  match s.trk.push with
  | none => s
  | some u =>
    match u.endAt with
    | none => s
    | some t =>
      if s.real < t + msTicks u.waitMs then s
      else if u.again ∧ u.round < 4 then
        let v : Push :=
          { u with round := u.round + 1, endAt := none,
                   todo := pushFrames u.id u.obj u.dst u.boot u.data (u.round + 1) u.missing,
                   answers := u.answers.map (fun a => { a with missing := [] }) }
        ({ s with trk := { s.trk with push := some v } }).feedPush
      else
        let stored := (u.answers.filter (fun a => a.status.toNat == Status.ok)).length
        ({ s with trk := { s.trk with push := none } }).complete u.cmd Status.ok
          (le 4 u.answers.length ++ le 4 stored ++ [BitVec.ofNat 8 u.round, 0, 0, 0])

theorem exec_pushRound (s : State) : exec .pushRound s = run s State.pushRoundDue := rfl

theorem pushRoundDue_none {s : State} (h : s.trk.push = none) : s.pushRoundDue = s := by
  unfold State.pushRoundDue
  rw [h]

section
variable {s : State} {u : Push} {t : Nat} (hpush : s.trk.push = some u) (hend : u.endAt = some t)
include hpush hend

theorem pushRoundDue_early (h : s.real < t + 1024000 * u.waitMs) : s.pushRoundDue = s := by
  unfold State.pushRoundDue
  simp only [hpush, hend]
  rw [msTicks, Nat.mul_comm]
  exact if_pos h

theorem pushRoundDue_completes (h : t + 1024000 * u.waitMs ≤ s.real) (hlast : u.again = false ∨ 4 ≤ u.round) :
    s.pushRoundDue = ({ s with trk := { s.trk with push := none } }).complete u.cmd Status.ok
      (le 4 u.answers.length ++ le 4 (u.answers.filter (fun (a : PushAnswer) => a.status.toNat == Status.ok)).length
        ++ [BitVec.ofNat 8 u.round, 0, 0, 0]) := by
  have hdone : ¬(u.again = true ∧ u.round < 4) := by
    rintro ⟨hagain, hround⟩
    obtain hlast | hlast := hlast
    · exact absurd hagain (ne_true_of_eq_false hlast)
    · omega
  unfold State.pushRoundDue
  simp only [hpush, hend]
  rw [msTicks, Nat.mul_comm, if_neg (Nat.not_lt.mpr h), if_neg hdone]

end

/-! ### Receiving an object (R364) -/

/-- What the module does with a CHUNK frame. -/
def State.hearChunk (s : State) (f : RxFrame) : State :=
  match s.openTransfer f (u8 f.payload 12) with
  | none => s
  | some t =>
    if t.stored ∨ t.storing then s
    else
      let n := b16 f.payload 4
      let rest := t.chunks.filter (fun k => k.1 != n)
      s.putTransfer { t with boot := u8 f.payload 12, chunks := insertBy Prod.fst (n, f.payload.drop 16) rest }

theorem exec_chunkFrame (p : Fin 3) (f : RxFrame) (s : State) : exec (.chunkFrame p f) s = run s (fun s =>
    s.receive p f .bulk 0x40 ((f.dir != 3) && (f.dir != 0 || f.turn) && decide (16 ≤ f.payload.length))
      fun s => s.hearChunk f) := rfl

theorem exec_endFrame (p : Fin 3) (f : RxFrame) (s : State) : exec (.endFrame p f) s = run s (fun s =>
    s.receive p f .bulk 0x41 ((f.dir != 3) && (f.dir != 0 || f.turn) && decide (20 ≤ f.payload.length))
      fun s => s.hearEnd f) := rfl

/-- The transfer of a frame's sender is the one put in its place. -/
theorem transfer_putTransfer (s : State) (t : Transfer) : (s.putTransfer t).trk.transfer t.id t.src = some t := by
  have hothers : (s.trk.transfers.filter (fun u => !(u.id == t.id && u.src == t.src))).find?
      (fun u => u.id == t.id && u.src == t.src) = none := by
    rw [List.find?_eq_none]
    intro u hu
    exact Bool.eq_false_iff.mp (Bool.not_eq_true' _ ▸ (List.mem_filter.mp hu).2)
  unfold State.putTransfer Trk.transfer
  dsimp only
  rw [List.find?_append, hothers, Option.none_or, List.find?_singleton]
  exact if_pos (by simp)

theorem transfer_key {k : Trk} {id : Word} {src : Nat} {x : Transfer} (h : k.transfer id src = some x) :
    x.id = id ∧ x.src = src := by
  simpa using List.find?_some h

section
variable {s : State} {f : RxFrame}

/-- The transfer that the first CHUNK of a sender opens. -/
def firstChunk (f : RxFrame) (now : Nat) : Transfer :=
  { id := BitVec.ofNat 32 (b32 f.payload 0), src := f.src.toNat, obj := u8 f.payload 6, dst := u8 f.payload 7,
    total := b32 f.payload 8, boot := u8 f.payload 12, chunks := [(b16 f.payload 4, f.payload.drop 16)],
    storing := false, stored := false, last := now }

theorem hearChunk_opens (hnew : s.trk.transfer (BitVec.ofNat 32 (b32 f.payload 0)) f.src.toNat = none)
    (hroom : s.trk.mayOpen = true) : s.hearChunk f = s.putTransfer (firstChunk f s.real) := by
  unfold State.hearChunk State.openTransfer
  simp only [hnew, hroom]
  rfl

/-- An END with chunks missing keeps its transfer, and asks for the chunks. -/
theorem hearEnd_asks {x : Transfer} (hx : s.trk.transfer (BitVec.ofNat 32 (b32 f.payload 0)) f.src.toNat = some x)
    (hstored : x.stored = false) (hstoring : x.storing = false) (hmissing : x.missing (b16 f.payload 4) ≠ []) :
    s.hearEnd f = (s.putTransfer { x with last := s.real }).answer x.id x.src Status.missing
      (x.missing (b16 f.payload 4)) := by
  unfold State.hearEnd State.openTransfer
  simp only [hx, hstored, hstoring]
  exact if_pos hmissing

end

theorem answer_offQueues (s : State) (id : Word) (src status : Nat) (missing : List Nat) :
    (s.answer id src status missing).offQueues = s.offQueues := by
  unfold State.answer
  split
  · rfl
  · exact originate_offQueues ..

/-! ### TRANSFER_DROP (R364) -/

theorem exec_transferDrop (id : Word) (s : State) : exec (.transferDrop id) s = run s (fun s =>
    { s with trk := { s.trk with transfers := s.trk.transfers.filter (fun t =>
      t.id != id || t.stored || t.storing || decide (s.real < t.last + secTicks 10)) } }) := rfl

/-! ### The frames that come -/

section
variable {s : State} {p : Fin 3} {f : RxFrame}

/-- What a SYNC leaves on the UPSTREAM port where no exchange completes. -/
theorem sync_stamps (hdir : f.dir = 3) (hlen : f.payload.length = 20) (hst : (s.port p).state = .upstream)
    (ht3 : (s.port p).t3 = 0) (horigin : (u8 f.payload 17).testBit 0 = true) : Gives (.sync p f) s (fun t =>
      (∃ g : Frame, t.port p = { ((s.received p).port p).stampSync (b64 f.payload 0) s.tb with qTime := some g }
        ∧ g.kind = 2 ∧ u8 g.payload 0 = ((s.port p).reqSeq + 1) % 256)
      ∧ t.trk.crownSrc = u8 f.payload 18 ∧ t.trk.timeReal = s.real ∧ t.tbm = s.tbm) := by
  have hup : (s.port p).state ≠ .down := by rw [hst]; decide
  refine run_gives_from (exec_sync p f s) (fun _ _ _ _ h => h) ?_
  rintro u o rfl
  have hport := received_port u p
  have hrx : u.receive p f .time 0x01 (f.dir == 3 && f.payload.length == 20) (fun s => s.hearSync p f)
      = (u.received p).hearSync p f := receive_link hlen.le (by simp [hdir, hlen]) hup hdir
  have hseq : (((u.received p).syncStamped p f).port p).reqSeq = ((u.port p).reqSeq + 1) % 256 := by
    rw [syncStamped_port, hport]
    rfl
  have htime := port_egress_time ((u.received p).syncStamped p f) p p.val
    (f := ((u.received p).syncStamped p f).delayReq p) rfl
  rw [hrx, hearSync_stamps (by rw [hport]; exact hst) (by rw [hport]; exact ht3) horigin, htime, syncStamped_port]
  refine ⟨⟨_, rfl, rfl, (u8_cons ..).trans ?_⟩, rfl, rfl, rfl⟩
  rw [hseq]
  exact Nat.mod_mod_of_dvd _ (dvd_refl 256)

theorem delayReq_stamps (hdir : f.dir = 3) (hlen : f.payload.length = 20) (hst : (s.port p).state = .child) :
    Does (.delayReq p f) s (fun s => (s.received p).modPort p (fun k =>
      { k with t4 := s.tb, t4seq := u8 f.payload 0 })) := by
  have hup : (s.port p).state ≠ .down := by rw [hst]; decide
  refine run_does_from (exec_delayReq p f s) ?_
  rintro u o rfl
  refine (receive_link (s := u) hlen.le (by simp [hdir, hlen]) hup hdir).trans ?_
  exact if_pos ((received_state u p p).trans hst)

section
variable (hdir : f.dir = 1) (hst : (s.port p).state = .upstream) (hdest : f.dest.toNat = s.addr) (haddr : s.addr ≠ 0)
include hdir hst hdest haddr

theorem recordFrame_stages (hmin : 32 ≤ f.payload.length) (hmax : f.payload.length ≤ 1500) :
    Does (.recordFrame p f) s (fun s => (s.received p).stage 6 (recordOf f.payload)) := by
  refine run_does_from (exec_recordFrame p f s) ?_
  rintro u o rfl
  exact receive_downOwn (s := u) hmax (by simp [hdir, hmin]) hst hdir haddr hdest

theorem xferStatus_notes {u : Push} (hpush : s.trk.push = some u) (hid : u.id.toNat = b32 f.payload 0)
    (hmin : 8 + 2 * min 32 (b16 f.payload 6) ≤ f.payload.length) (hmax : f.payload.length ≤ 256) :
    Does (.xferStatus p f) s (fun s => { s.received p with trk := { (s.received p).trk with
      push := some (u.note (answerOf f)) } }) := by
  refine run_does_from (exec_xferStatus p f s) ?_
  rintro v o rfl
  refine (receive_downOwn (s := v) hmax ?_ hst hdir haddr hdest).trans (hearStatus_notes (s := v.received p) hpush hid)
  rw [hdir, decide_eq_true hmin]
  rfl

end

section
variable (hdir : f.dir = 2) (hst : (s.port p).state = .upstream) (hleaf : ∀ q, (s.port q).state ≠ .child)
  (hmax : f.payload.length ≤ 1040)
include hdir hst hleaf hmax

theorem receive_chunk (hmin : 16 ≤ f.payload.length)
    (hnew : s.trk.transfer (BitVec.ofNat 32 (b32 f.payload 0)) f.src.toNat = none) (hroom : s.trk.mayOpen = true) :
    s.receive p f .bulk 0x40 ((f.dir != 3) && (f.dir != 0 || f.turn) && decide (16 ≤ f.payload.length))
      (fun s => s.hearChunk f) = (s.received p).putTransfer (firstChunk f s.real) := by
  have hact := hearChunk_opens (s := s.received p) hnew hroom
  refine (receive_downAll hmax (by simp [hdir, hmin]) hst hdir fun q => ?_).trans hact
  rw [hact]
  exact fun h => hleaf q ((received_state s p q).symm.trans h)

theorem receive_end {x : Transfer} (hmin : 20 ≤ f.payload.length)
    (hx : s.trk.transfer (BitVec.ofNat 32 (b32 f.payload 0)) f.src.toNat = some x) (hstored : x.stored = false)
    (hstoring : x.storing = false) (hmissing : x.missing (b16 f.payload 4) ≠ []) :
    s.receive p f .bulk 0x41 ((f.dir != 3) && (f.dir != 0 || f.turn) && decide (20 ≤ f.payload.length))
      (fun s => s.hearEnd f) = ((s.received p).putTransfer { x with last := s.real }).answer x.id x.src
        Status.missing (x.missing (b16 f.payload 4)) := by
  have hact := hearEnd_asks (s := s.received p) hx hstored hstoring hmissing
  refine (receive_downAll hmax (by simp [hdir, hmin]) hst hdir fun q => ?_).trans hact
  rw [hact, portState_of_offQueues (answer_offQueues ..)]
  exact fun h => hleaf q ((received_state s p q).symm.trans h)

end

end

/-- Settles O58, frame by frame, then TRK_PUSH and PUSH_ROUND. The order of TRK_PUSH's checks, the four rounds after which a
push completes, and that it completes OK are the model's reading (log entry 54), as is the report of a failed read of the
flash (log entry 59). -/
theorem trunkTransfers : Obligations.TrunkTransfers := by
  intro p s k received
  refine ⟨fun f hdir hlen => ⟨?sync, delayReq_stamps hdir hlen⟩,
    fun f hdir hst hdest haddr => ⟨recordFrame_stages hdir hst hdest haddr,
      fun u hpush hid => xferStatus_notes hdir hst hdest haddr hpush hid⟩,
    fun cmd hcmd ecc => ⟨?badBody, ?busy, fun hok hfree => ⟨?empty, ?unread, ?begins⟩⟩,
    ?noPush, fun u t hpush hend => ⟨?early, ?completes⟩,
    fun f hdir hst hleaf hmax => ⟨?chunk, ?ended⟩, ?dropped⟩
  case sync =>
    intro hst ht3 horigin
    refine (sync_stamps hdir hlen hst ht3 horigin).imp ?_
    rintro t ⟨⟨g, hport, hkind, hseq⟩, hsrc, hreal, htbm⟩
    rw [hport, received_port]
    exact ⟨rfl, rfl, rfl, rfl, rfl, ⟨g, rfl, hkind, hseq⟩, hsrc, hreal, htbm⟩
  case badBody =>
    intro hbad
    refine command_does (exec_trkPush ecc s) hcmd ?_
    rintro u o rfl
    exact takePush_bad ecc hbad
  case busy =>
    intro hok hpush
    refine command_does (exec_trkPush ecc s) hcmd ?_
    rintro u o rfl
    exact takePush_busy (s := u) ecc hok hpush
  case empty =>
    intro hnone
    refine command_does (exec_trkPush ecc s) hcmd ?_
    rintro u o rfl
    exact takePush_empty (s := u) ecc hok hfree hnone
  case unread =>
    intro data hdata hecc
    subst hecc
    refine command_does (exec_trkPush (some false) s) hcmd ?_
    rintro u o rfl
    exact takePush_unread (s := u) hok hfree hdata
  case begins =>
    intro data hdata hecc
    refine command_gives (exec_trkPush ecc s) (fun _ _ _ _ h => h) hcmd ?_
    rintro u o rfl
    obtain ⟨⟨todo, endAt, hpush⟩, hnumber, hhand, hout⟩ := takePush_begins (s := u) ecc hok hfree hdata hecc
    exact ⟨⟨_, hpush, rfl, rfl, rfl, rfl, rfl, rfl⟩, hnumber, hhand, hout⟩
  case noPush =>
    intro h
    refine run_does_from (exec_pushRound s) ?_
    rintro u o rfl
    exact pushRoundDue_none (s := u) h
  case early =>
    intro h
    refine run_does_from (exec_pushRound s) ?_
    rintro v o rfl
    exact pushRoundDue_early (s := v) hpush hend h
  case completes =>
    intro h hlast
    refine run_does_from (exec_pushRound s) ?_
    rintro v o rfl
    exact pushRoundDue_completes (s := v) hpush hend h hlast
  case chunk =>
    intro hmin hnew hroom
    refine run_gives_from (exec_chunkFrame p f s) (fun _ _ _ _ h => h) ?_
    rintro u o rfl
    rw [receive_chunk (s := u) hdir hst hleaf hmax hmin hnew hroom]
    exact ⟨transfer_putTransfer _ (firstChunk f u.real), (congrArg Port.rxCnt (received_port u p) :), rfl, rfl⟩
  case ended =>
    intro x hmin hx hstored hstoring hmissing
    refine run_gives_from (exec_endFrame p f s) (fun _ _ _ _ h => h) ?_
    rintro u o rfl
    rw [receive_end (s := u) hdir hst hleaf hmax hmin hx hstored hstoring hmissing]
    obtain ⟨hid, hsrc⟩ := transfer_key hx
    have hkept := answer_offQueues ((u.received p).putTransfer { x with last := u.real }) x.id x.src Status.missing
      (x.missing (b16 f.payload 4))
    refine ⟨?_, (fls_of_offQueues hkept :), (slices_of_offQueues hkept :)⟩
    rw [Trk.transfer, transfers_of_offQueues hkept, ← hid, ← hsrc]
    exact transfer_putTransfer _ { x with last := u.real }
  case dropped =>
    intro id
    refine run_does_from (exec_transferDrop id s) ?_
    rintro u o rfl
    have hten : secTicks 10 = 10240000000 := rfl
    dsimp only
    rw [hten]

end Sys2Proof.Machine
end

section
/-! SUPPORT. Changes of a trunk port and of the tree (R354 to R357, R369). -/

namespace Sys2Proof.Machine

open Sys2Proof

/-! ### A port that changes state -/

/-- A port that has changed state, before the TOPOLOGY frame that says so. -/
def State.portEntered (s : State) (p : Fin 3) (new : PortState) : State :=
  let s1 := (s.modPort p (fun k => k.enter new)).trkEvent 0
  if (s.port p).state = .down then s1.ask (portReq p) portTokens
  else if new = .down then s1.releaseAll (portReq p)
  else s1

/-- The TRK block without its ports and its events. -/
def Trk.offPorts (k : Trk) : Trk := { k with ports := Trk.reset.ports, events := 0 }

theorem offPorts_of_offQueues {s t : State} (h : t.offQueues = s.offQueues) : t.trk.offPorts = s.trk.offPorts :=
  (congrArg (fun u : State => u.trk.offPorts) h : _)

theorem tbm_of_offQueues {s t : State} (h : t.offQueues = s.offQueues) : t.tbm = s.tbm := (congrArg State.tbm h : _)

section
variable (s : State) (p : Fin 3) (new : PortState)

/-- Beside its port and the events, a port that changes state touches the power steward alone. -/
theorem portEntered_shape : ∃ w, s.portEntered p new =
    { (s.modPort p (fun k => k.enter new)).trkEvent 0 with pwr := w } := by
  unfold State.portEntered
  dsimp only
  split
  · exact ⟨_, rfl⟩
  · split
    · exact ⟨_, rfl⟩
    · exact ⟨s.pwr, rfl⟩

theorem portEntered_trk : (s.portEntered p new).trk = ((s.modPort p (fun k => k.enter new)).trkEvent 0).trk := by
  obtain ⟨w, h⟩ := portEntered_shape s p new
  rw [h]

theorem portEntered_tbm : (s.portEntered p new).tbm = s.tbm := by
  obtain ⟨w, h⟩ := portEntered_shape s p new
  rw [h]
  rfl

theorem portEntered_real : (s.portEntered p new).real = s.real := by
  obtain ⟨w, h⟩ := portEntered_shape s p new
  rw [h]
  rfl

theorem portEntered_port : (s.portEntered p new).port p = (s.port p).enter new := by
  rw [State.port, portEntered_trk]
  exact port_modPort s p (fun k => k.enter new)

theorem portEntered_port_ne {q : Fin 3} (h : q ≠ p) : (s.portEntered p new).port q = s.port q := by
  rw [State.port, portEntered_trk]
  exact port_modPort_ne s (fun k => k.enter new) h

/-- A port that leaves DOWN asks for its tokens (R369). -/
theorem portEntered_asks (h : (s.port p).state = .down) : vget (s.portEntered p new).pwr.want (6 + p.val) 0 = 4 := by
  unfold State.portEntered
  dsimp only
  rw [if_pos h]
  exact vget_vmod_same s.pwr.want _ 0 (by omega)

/-- A port that goes DOWN gives its tokens back (R369). -/
theorem portEntered_frees (h : (s.port p).state ≠ .down) :
    State.freed s.pwr.held (s.portEntered p .down).pwr (6 + p.val) := by
  unfold State.portEntered
  dsimp only
  rw [if_neg h]
  have hreq : portReq p < 18 := by unfold portReq; omega
  exact releaseAll_freed ((s.modPort p (fun k => k.enter .down)).trkEvent 0) hreq

theorem setPort_same (h : (s.port p).state = new) : s.setPort p new = s := if_pos h

variable {s p new}

/-- A change of state: the port's part, then a TOPOLOGY frame from an attached module that keeps its upstream port. -/
theorem setPort_changes (h : (s.port p).state ≠ new) : s.setPort p new =
    let t := s.portEntered p new
    if t.trk.tree = .attached ∧ !(new == .down && t.trk.upPort == some p) then
      (t.originate .control .up 0x11 false 0 ([BitVec.ofNat 8 p.val, BitVec.ofNat 8 (s.port p).state.code,
        BitVec.ofNat 8 new.code, 0] ++ be 4 (s.port p).nbAddr)).1
    else t :=
  if_neg h

theorem setPort_offQueues (h : (s.port p).state ≠ new) : (s.setPort p new).offQueues = (s.portEntered p new).offQueues := by
  rw [setPort_changes h]
  dsimp only
  split
  · exact originate_offQueues ..
  · rfl

/-- A module that is not attached, or that loses its upstream port, sends no TOPOLOGY frame (R357). -/
theorem setPort_silent (h : (s.port p).state ≠ new)
    (hsilent : s.trk.tree ≠ .attached ∨ (new = .down ∧ s.trk.upPort = some p)) :
    s.setPort p new = s.portEntered p new := by
  have htrk := portEntered_trk s p new
  have htree : (s.portEntered p new).trk.tree = s.trk.tree := (congrArg Trk.tree htrk :)
  have hup : (s.portEntered p new).trk.upPort = s.trk.upPort := (congrArg Trk.upPort htrk :)
  rw [setPort_changes h]
  refine if_neg ?_
  rw [htree, hup]
  obtain hsilent | ⟨rfl, hport⟩ := hsilent
  · exact fun hs => hsilent hs.1
  · rw [hport]
    simp

variable (s p new)

theorem setPort_state : ((s.setPort p new).port p).state = new := by
  by_cases h : (s.port p).state = new
  · rw [setPort_same s p new h, h]
  · rw [portState_of_offQueues (setPort_offQueues h), portEntered_port]
    rfl

theorem setPort_state_ne {q : Fin 3} (hq : q ≠ p) : ((s.setPort p new).port q).state = (s.port q).state := by
  by_cases h : (s.port p).state = new
  · rw [setPort_same s p new h]
  · rw [portState_of_offQueues (setPort_offQueues h), portEntered_port_ne s p new hq]

theorem setPort_offPorts : (s.setPort p new).trk.offPorts = s.trk.offPorts := by
  by_cases h : (s.port p).state = new
  · rw [setPort_same s p new h]
  · rw [offPorts_of_offQueues (setPort_offQueues h), portEntered_trk]
    rfl

theorem setPort_tbm : (s.setPort p new).tbm = s.tbm := by
  by_cases h : (s.port p).state = new
  · rw [setPort_same s p new h]
  · rw [tbm_of_offQueues (setPort_offQueues h), portEntered_tbm]

end

/-! ### Announcements (R354) -/

theorem announce_offQueues (s : State) (p : Fin 3) : (s.announce p).offQueues = s.offQueues := egress_offQueues ..

theorem announce_port_ne (s : State) {p q : Fin 3} (h : q ≠ p) : (s.announce p).port q = s.port q :=
  port_modPort_ne s _ h

/-- An announcement on a port with room is one more CONTROL frame of it. -/
theorem announce_queues (s : State) (p : Fin 3) (h : (s.port p).qControl.length < 16) :
    ((s.announce p).port p).qControl.length = (s.port p).qControl.length + 1 := by
  unfold State.announce State.egress
  dsimp only
  rw [port_modPort]
  unfold Port.enqueue
  simp [h]

/-- One round of the announcements: a port that is DOWN sends none. -/
def State.announceUp (s : State) (p : Fin 3) : State := if (s.port p).state = .down then s else s.announce p

theorem announceUp_offQueues (s : State) (p : Fin 3) : (s.announceUp p).offQueues = s.offQueues := by
  unfold State.announceUp
  split
  · rfl
  · exact announce_offQueues s p

theorem announceUp_port_ne (s : State) {p q : Fin 3} (h : q ≠ p) : (s.announceUp p).port q = s.port q := by
  unfold State.announceUp
  split
  · rfl
  · exact announce_port_ne s h

theorem announceUp_queues (s : State) (p : Fin 3) (hup : (s.port p).state ≠ .down)
    (h : (s.port p).qControl.length < 16) :
    ((s.announceUp p).port p).qControl.length = (s.port p).qControl.length + 1 := by
  rw [State.announceUp, if_neg hup]
  exact announce_queues s p h

theorem announceAll_offQueues (s : State) : s.announceAll.offQueues = s.offQueues :=
  foldl_keeps State.offQueues announceUp_offQueues allPorts s

theorem mem_allPorts (p : Fin 3) : p ∈ allPorts := by
  match p with
  | 0 | 1 | 2 => decide

theorem nodup_allPorts : allPorts.Nodup := by decide

/-- What one round does to its own port, an iteration over different ports does to each of them, where the other rounds
leave that port alone. -/
theorem foldl_port {g : State → Fin 3 → State} {p : Fin 3} {R : Port → Prop}
    (hne : ∀ t q, q ≠ p → (g t q).port p = t.port p) {l : List (Fin 3)} (hnodup : l.Nodup) (hmem : p ∈ l) (s : State)
    (hsame : ∀ t, t.port p = s.port p → R ((g t p).port p)) : R ((l.foldl g s).port p) := by
  induction l generalizing s with
  | nil => exact absurd hmem List.not_mem_nil
  | cons q l ih =>
    obtain ⟨hq, hl⟩ := List.nodup_cons.mp hnodup
    by_cases hqp : q = p
    · subst hqp
      have hrest : (l.foldl g (g s q)).port q = (g s q).port q :=
        List.foldlRecOn l g (motive := fun t => t.port q = (g s q).port q) rfl fun t ht r hr =>
          (hne t r fun h => hq (h ▸ hr)).trans ht
      rw [List.foldl_cons, hrest]
      exact hsame s rfl
    · have hkept := hne s q hqp
      exact ih hl (List.mem_of_ne_of_mem (Ne.symm hqp) hmem) (g s q) fun t ht => hsame t (ht.trans hkept)

/-- With every port DOWN nothing is announced. -/
theorem announceAll_down {s : State} (h : ∀ q, (s.port q).state = .down) : s.announceAll = s :=
  List.foldlRecOn allPorts State.announceUp (motive := (· = s)) rfl fun t ht q _ => by
    subst ht
    exact if_pos (h q)

/-! ### A node that leaves the tree (R356) -/

theorem loseSource_unqualified {s : State} {r : Nat} (h : s.tbm.qualified r = false) : s.loseSource r = s :=
  if_pos (congrArg Bool.not h)

theorem detach_apart {s : State} (h : s.trk.tree ≠ .attached) : s.detach = s := if_pos h

/-- The module DETACHED, before its ports and its time follow. -/
def State.detached (s : State) : State :=
  ({ s with trk := { s.trk with
    tree := .detached, depth := 0xFF, upPort := none, crown := 0, detachedAt := s.real, canAttach := false } }).trkEvent 1

/-- A former upstream port takes the class of its neighbour. -/
def State.leaveUp (s : State) (up : Option (Fin 3)) : State :=
  match up with
  | some p => if (s.port p).state = PortState.upstream then s.setPort p (s.port p).class else s
  | none => s

section
variable {s : State} (htree : s.trk.tree = .attached) (htime : s.tbm.qualified 2 = false)
include htree htime

/-- A node that detaches without the trunk as a source of time changes its tree, its former upstream port and its egress
queues. -/
theorem detach_offQueues : s.detach.offQueues = (s.detached.leaveUp s.trk.upPort).offQueues := by
  let s2 := s.detached.leaveUp s.trk.upPort
  have htbm : s2.tbm = s.tbm := by
    show (State.leaveUp _ _).tbm = _
    unfold State.leaveUp
    split
    · split
      · exact setPort_tbm ..
      · rfl
    · rfl
  let clear (t : State) (p : Fin 3) : State :=
    if (t.port p).state = .child then t.modPort p (fun k => { k with qTime := none }) else t
  have hclear (t : State) (p : Fin 3) : (clear t p).offQueues = t.offQueues := by
    show (ite _ _ _ : State).offQueues = _
    split
    · exact modPort_offQueues t p rfl
    · rfl
  have hs3 := foldl_keeps State.offQueues hclear allPorts s2
  have hdetach : s.detach = ((allPorts.foldl clear s2).loseSource 2).announceAll := if_neg (not_not_intro htree)
  have hlost : (allPorts.foldl clear s2).loseSource 2 = allPorts.foldl clear s2 :=
    loseSource_unqualified (by rw [tbm_of_offQueues hs3, htbm, htime])
  rw [hdetach, announceAll_offQueues, hlost, hs3]

theorem detach_offPorts : s.detach.trk.offPorts = s.detached.trk.offPorts := by
  rw [offPorts_of_offQueues (detach_offQueues htree htime)]
  unfold State.leaveUp
  split
  · split
    · exact setPort_offPorts ..
    · rfl
  · rfl

/-- Where the former upstream port has gone DOWN already, it stays so. -/
theorem detach_offQueues_lost {p : Fin 3} (hup : s.trk.upPort = some p) (hst : (s.port p).state ≠ .upstream) :
    s.detach.offQueues = s.detached.offQueues := by
  rw [detach_offQueues htree htime, hup]
  exact congrArg State.offQueues (if_neg hst)

end

end Sys2Proof.Machine
end

section
/-! SUPPORT. Links, announcements, the tree and the egress of a trunk port (R350 to R357, R360, R366). -/

namespace Sys2Proof.Machine

open Sys2Proof

/-! ### Bad frames and aborted streams (R350, R360) -/

theorem exec_frameCrcError (p : Fin 3) (b : Option BadFrame) (s : State) :
    exec (.frameCrcError p b) s = run s (fun s =>
      if (s.port p).state = .down then s
      else
        let s1 := s.modPort p (fun k => { k with crcErr := count 16 1 k.crcErr })
        match b with
        | some b => s1.passBad p b
        | none => s1) := rfl

/-- A bad frame of no direction, at its last hop or of class TIME goes nowhere. -/
theorem passBad_nowhere {s : State} {p : Fin 3} {b : BadFrame} (h : b.frame.dir = 3 ∨ b.frame.hops = 63 ∨ b.cls = 0) :
    s.passBad p b = s := by
  unfold State.passBad
  dsimp only
  split
  · rfl
  case isFalse hstays =>
    have hdir : b.frame.dir = 3 := by
      obtain hdir | hhops | hcls := h
      · exact hdir
      · exact absurd (.inr (.inr hhops)) hstays
      · exact absurd (.inl (by rw [hcls]; rfl)) hstays
    rw [hdir]
    rfl

/-- A bad UP frame on an attached module without an upstream port goes nowhere. -/
theorem passBad_noUp {s : State} {p : Fin 3} {b : BadFrame} (hdir : b.frame.dir = 0) (hup : s.trk.upPort = none) :
    s.passBad p b = s := by
  unfold State.passBad State.forwardUp
  dsimp only
  rw [hdir, hup]
  split
  · rfl
  · exact (if_pos rfl).trans (ite_self _)

theorem exec_abortedStream (p : Fin 3) (copies : List (Fin 3)) (s : State) :
    exec (.abortedStream p copies) s = run s (fun s =>
      if (s.port p).state = .down then s
      else
        copies.foldl (fun t q => t.modPort q (fun k => { k with preempted := count 16 1 k.preempted }))
          (s.modPort p (fun k => { k with aborted := count 16 1 k.aborted }))) := rfl

/-! ### Links (R354) -/

theorem exec_linkUp (p : Fin 3) (s : State) : exec (.linkUp p) s = run s (fun s =>
    if (s.port p).state = .down ∧ s.mod.ready ∧ s.trk.tree ≠ .disabled then
      ((s.modPort p (fun k => { k with link := true, heard := s.real })).setPort p .probe).announce p
    else s) := rfl

/-- The effect of LINK_LOST without the loss of the signal. -/
def State.linkSilent (s : State) (p : Fin 3) : State :=
  match (s.port p).state with
  | .upstream | .child | .standby | .looped => if (s.port p).silent 1 s.real then s.portDown p else s
  | _ => s

/-- A port without its signal. -/
def State.linkOff (s : State) (p : Fin 3) : State := s.modPort p (fun k => { k with link := false })

theorem linkOff_port (s : State) (p : Fin 3) : (s.linkOff p).port p = { s.port p with link := false } :=
  port_modPort ..

theorem linkOff_state (s : State) (p : Fin 3) : ((s.linkOff p).port p).state = (s.port p).state := by rw [linkOff_port]

theorem exec_linkLost_signal (p : Fin 3) (s : State) : exec (.linkLost p true) s = run s (fun s =>
    (s.linkOff p).portDown p) := rfl

theorem exec_linkLost_silent (p : Fin 3) (s : State) : exec (.linkLost p false) s = run s (fun s => s.linkSilent p) :=
  rfl

section
variable {s : State} {p : Fin 3}

/-- A port is classified or looped: LINK_LOST watches it for silence. -/
def PortState.watched (st : PortState) : Prop := st = .upstream ∨ st = .child ∨ st = .standby ∨ st = .looped

theorem linkSilent_watched (h : (s.port p).state.watched) :
    s.linkSilent p = if (s.port p).silent 1 s.real then s.portDown p else s := by
  unfold State.linkSilent
  obtain h | h | h | h := h
  · rw [h]
  · rw [h]
  · rw [h]
  · rw [h]

theorem linkSilent_other (h : (s.port p).state = .down ∨ (s.port p).state = .probe ∨ (s.port p).state = .foreign) :
    s.linkSilent p = s := by
  unfold State.linkSilent
  obtain h | h | h := h
  · rw [h]
  · rw [h]
  · rw [h]

/-- A port of a module that is not attached goes DOWN. -/
theorem portDown_apart (htree : s.trk.tree ≠ .attached) (h : (s.port p).state ≠ .down) :
    s.portDown p = s.portEntered p .down := by
  have hset : s.setPort p .down = s.portEntered p .down := setPort_silent h (.inl htree)
  have hstays : (s.portEntered p .down).detach = s.portEntered p .down :=
    detach_apart (by rw [portEntered_trk]; exact htree)
  unfold State.portDown
  dsimp only
  rw [hset, hstays, ite_self]

/-- A port that is not the upstream one goes DOWN, and the tree stays. -/
theorem portDown_other (hup : s.trk.upPort ≠ some p) : s.portDown p = s.setPort p .down :=
  if_neg (fun h => hup (beq_iff_eq.mp h))

/-- The upstream port of an attached module goes DOWN, and the module detaches. -/
theorem portDown_upstream (htree : s.trk.tree = .attached) (hup : s.trk.upPort = some p)
    (h : (s.port p).state ≠ .down) (htime : s.tbm.qualified 2 = false) :
    (s.portDown p).offQueues = (s.portEntered p .down).detached.offQueues := by
  have htrk := portEntered_trk s p .down
  have hset : s.setPort p .down = s.portEntered p .down := setPort_silent h (.inr ⟨rfl, hup⟩)
  have hdown : s.portDown p = (s.portEntered p .down).detach := by
    unfold State.portDown
    dsimp only
    rw [hset, hup]
    exact if_pos (beq_self_eq_true _)
  rw [hdown]
  refine detach_offQueues_lost (p := p) ?_ ?_ ?_ ?_
  · rw [htrk]
    exact htree
  · rw [portEntered_tbm]
    exact htime
  · rw [htrk]
    exact hup
  · rw [portEntered_port]
    exact fun hst => PortState.noConfusion hst

end

theorem exec_probeTimeout (p : Fin 3) (s : State) : exec (.probeTimeout p) s = run s (fun s =>
    if (s.port p).state = .probe ∧ (s.port p).silent 100 s.real then s.setPort p .foreign else s) := rfl

theorem exec_announceTick (s : State) : exec .announceTick s = run s State.announceAll := rfl

/-! ### ANNOUNCE and TOPOLOGY (R354, R355, R357) -/

theorem exec_announce (p : Fin 3) (f : RxFrame) (s : State) : exec (.announce p f) s = run s (fun s =>
    s.receive p f .control 0x10 (f.dir == 3 && decide (12 ≤ f.payload.length)) fun s => s.hearAnnounce p f) := rfl

/-- A neighbour's ANNOUNCE on a DETACHED module that may not attach yet, without an address of its own, classifies the
port. -/
theorem hearAnnounce_classifies {s : State} {p : Fin 3} {f : RxFrame} (htree : s.trk.tree = .detached)
    (hhold : s.trk.canAttach = false) (hup : s.trk.upPort = none)
    (hst : (s.port p).state = .probe ∨ (s.port p).state = .foreign) (haddr : s.addr = 0)
    (hserial : b32 f.payload 6 ≠ Config.serial.toNat % 4294967296) :
    s.hearAnnounce p f = (s.modPort p (fun k => k.hear f)).portEntered p ((s.port p).hear f).class := by
  let s1 := s.modPort p (fun k => k.hear f)
  have hmine : (b32 f.payload 6 == Config.serial.toNat % 2 ^ 32) = false := beq_eq_false_iff_ne.mpr hserial
  have hlooped : (s.port p).state ≠ .looped := by
    obtain hst | hst := hst <;> simp [hst]
  have hport : s1.port p = (s.port p).hear f := port_modPort ..
  have hchange : (s1.port p).state ≠ ((s.port p).hear f).class := by
    have hstate : (s1.port p).state = (s.port p).state := (congrArg Port.state hport :)
    rw [hstate, Port.class]
    obtain hst | hst := hst
    · rw [hst]
      split <;> exact fun h => PortState.noConfusion h
    · rw [hst]
      split <;> exact fun h => PortState.noConfusion h
  have hclassify : s1.classify p = s1.portEntered p ((s.port p).hear f).class := by
    unfold State.classify
    dsimp only
    rw [show s1.trk.upPort = none from hup, show s1.trk.tree = .detached from htree, hport]
    exact setPort_silent hchange (.inl (by rw [show s1.trk.tree = .detached from htree]; decide))
  have hwait : (s1.portEntered p ((s.port p).hear f).class).tryAttach
      = s1.portEntered p ((s.port p).hear f).class := by
    refine if_pos (.inr ?_)
    rw [portEntered_trk]
    exact congrArg Bool.not hhold
  unfold State.hearAnnounce
  dsimp only
  rw [hmine, if_neg (by simp), if_neg hlooped]
  simp only [haddr]
  exact (congrArg State.tryAttach hclassify).trans hwait

theorem exec_topology (p : Fin 3) (f : RxFrame) (s : State) : exec (.topology p f) s = run s (fun s =>
    s.receive p f .control 0x11 (f.dir == 0 && f.dest == 0 && decide (8 ≤ f.payload.length)) fun s =>
      if s.trk.tree = .crown then
        ({ s with trk := { s.trk with topoCnt := count 16 1 s.trk.topoCnt } }).trkEvent 3
      else s) := rfl

/-- The crown takes an UP frame without an address, and it goes no further without TURN (R359). -/
theorem receive_crown {s : State} {p : Fin 3} {f : RxFrame} {cls : FrameClass} {kind : Nat} {ok : Bool}
    {act : State → State} (hlen : f.payload.length ≤ cls.limit) (hok : ok = true) (hdir : f.dir = 0)
    (hst : (s.port p).state = .child) (htree : s.trk.tree = .crown) (hdest : f.dest = 0) (hturn : f.turn = false) :
    s.receive p f cls kind ok act = act (s.received p) := by
  have hup : (s.port p).state ≠ .down := by rw [hst]; decide
  have hcrown : (s.received p).trk.tree = .crown := htree
  rw [receive_valid hlen hok hup, if_neg (by rw [hdir]; decide), if_pos hdir]
  unfold State.routeUp
  dsimp only
  rw [if_neg (by simp [received_state, hst]), if_pos hcrown, hdest, hturn]
  simp

/-! ### The tree (R355, R356, R366) -/

theorem exec_reparentHoldEnd (s : State) : exec .reparentHoldEnd s = run s (fun s =>
    if s.trk.tree = .detached ∧ !s.trk.canAttach ∧ s.trk.detachedAt + msTicks (bf s.trk.cfg 8 4) ≤ s.real then
      let s1 := ({ s with trk := { s.trk with canAttach := true } }).tryAttach
      { s1 with trk := { s1.trk with reparent := false } }
    else s) := rfl

section
variable {s : State} (htree : s.trk.tree = .detached) (hhold : s.trk.canAttach = true)
include htree hhold

/-- A node that no port lets in stays DETACHED. -/
theorem tryAttach_none (h : s.chooseUp = none) : s.tryAttach.trk.offPorts = s.trk.offPorts := by
  unfold State.tryAttach
  rw [if_neg (by simp [htree, hhold]), h]
  dsimp only
  split <;> rfl

theorem tryAttach_some {q : Fin 3} (h : s.chooseUp = some q) : s.tryAttach = s.attach q := by
  unfold State.tryAttach
  rw [if_neg (by simp [htree, hhold]), h]

end

/-- A node that has attached by a port. -/
theorem attach_leaves (s : State) (q : Fin 3) :
    (s.attach q).trk.offPorts = { s.trk.offPorts with
      tree := .attached, depth := (s.port q).nbDepth + 1, upPort := some q, crown := (s.port q).nbCrown,
      reparent := false, kept := if bit s.trk.cfg 2 then s.trk.kept else some q }
    ∧ ((s.attach q).port q).state = .upstream := by
  unfold State.attach
  dsimp only
  refine ⟨?_, ?_⟩
  · rw [offPorts_of_offQueues (announceAll_offQueues _), setPort_offPorts]
    rfl
  · rw [portState_of_offQueues (announceAll_offQueues _), setPort_state]

theorem exec_reparent (s : State) : exec .reparent s = run s (fun s => s.moduleWrite fun s => s.startReparent) := rfl

theorem exec_trkCfgWrite (v : Word) (s : State) :
    exec (.trkCfgWrite v) s = run s (fun s => s.moduleWrite fun s => s.writeTrkCfg v) := rfl

/-- An iteration that makes something true, and every round of which keeps it, leaves it true. -/
theorem foldl_makes {σ α : Type} {g : σ → α → σ} {R : σ → Prop} {a : α} (hmakes : ∀ t, R (g t a))
    (hkeeps : ∀ t b, R t → R (g t b)) {l : List α} (hmem : a ∈ l) (s : σ) : R (l.foldl g s) := by
  induction l generalizing s with
  | nil => exact absurd hmem List.not_mem_nil
  | cons b l ih =>
    obtain rfl | hmem := List.mem_cons.mp hmem
    · exact List.foldlRecOn l g (hmakes s) fun t ht c _ => hkeeps t c ht
    · exact ih hmem (g s b)

/-- The state after every port has gone DOWN and the module has left the tree. -/
def State.allDown (s : State) : State := allPorts.foldl (fun t p => t.setPort p .down) s.detach

theorem allDown_state (s : State) (q : Fin 3) : (s.allDown.port q).state = .down := by
  have hkeeps (t : State) (b : Fin 3) (ht : (t.port q).state = .down) : ((t.setPort b .down).port q).state = .down := by
    by_cases hb : b = q
    · rw [hb]
      exact setPort_state t q .down
    · exact (setPort_state_ne t b .down (Ne.symm hb)).trans ht
  unfold State.allDown
  generalize s.detach = u
  exact foldl_makes (g := fun (t : State) p => t.setPort p .down) (R := fun t => (t.port q).state = .down)
    (fun t => setPort_state t q .down) hkeeps (mem_allPorts q) u

/-- With ROLE 2 the trunk is disabled, and every port DOWN (R353). -/
theorem setRole_off (s : State) : (s.setRole 2).trk.tree = .disabled ∧ (s.setRole 2).trk.depth = 0xFF
    ∧ ∀ q, ((s.setRole 2).port q).state = .down := by
  have hoff : s.setRole 2 = { s.allDown with trk := { s.allDown.trk with
      tree := .disabled, depth := 0xFF, crown := 0, reparent := false } } := by
    unfold State.setRole
    dsimp only
    rw [if_pos rfl, State.allDown]
  have hdown := allDown_state s
  rw [hoff]
  generalize s.allDown = t at hdown ⊢
  exact ⟨rfl, rfl, hdown⟩

/-- The ranges of TRK.CFG that are refused (R366). -/
def State.trkCfgBad (s : State) (v : Word) : Prop := bf v 8 4 = 0 ∨ bf v 0 2 = 3 ∨ (bf v 0 2 = 1 ∧ s.addr = 0)

/-- TRK.CFG as a write in range leaves it, before a change of ROLE. -/
def State.trkCfgSet (s : State) (v : Word) : State :=
  let new := mkWord [(8, 4, bf v 8 4), (4, 2, bf v 4 2), (2, 1, bf v 2 1), (0, 2, bf v 0 2)]
  let same := bf s.trk.cfg 2 1 = bf v 2 1 ∧ bf s.trk.cfg 4 2 = bf v 4 2
  { s with trk := { s.trk with cfg := new, kept := if same then s.trk.kept else none } }

section
variable {s : State} {v : Word}

theorem writeTrkCfg_bad (h : s.trkCfgBad v) : s.writeTrkCfg v = s.trkEvent 10 := if_pos h

variable (h : ¬s.trkCfgBad v)
include h

theorem writeTrkCfg_same (hrole : bf v 0 2 = bf s.trk.cfg 0 2) : s.writeTrkCfg v = s.trkCfgSet v :=
  (if_neg h).trans (if_pos hrole.symm)

theorem writeTrkCfg_role (hrole : bf v 0 2 ≠ bf s.trk.cfg 0 2) :
    s.writeTrkCfg v = (s.trkCfgSet v).setRole (bf v 0 2) :=
  (if_neg h).trans (if_neg (Ne.symm hrole))

end

/-! ### TRUNK_EGRESS (R360, R361) -/

/-- The effect of TRUNK_EGRESS. -/
def State.egressDue (s : State) (p : Fin 3) : State :=
  let k := s.port p
  match k.sending with
  | none => if k.state = .down then s else s.modPort p (fun k => k.startNext s.tb)
  | some f =>
    if f.cls ≠ .control ∧ k.qControl ≠ [] then
      s.modPort p (fun k =>
        Port.startNext { k with sending := none, ended := some f, preempted := count 16 1 k.preempted } s.tb)
    else
      ((s.modPort p (fun k =>
          { k with sending := none, txCnt := count 32 1 k.txCnt, flashAt := some s.real })).emit
        (.trunk p f.bytes)).feedPush

theorem exec_trunkEgress (p : Fin 3) (s : State) : exec (.trunkEgress p) s = run s (fun s => s.egressDue p) := rfl

/-- The only frame of a queue is its next. -/
theorem pickFrame_lone (ptr : Nat) (f : Frame) : pickFrame ptr [f] = some (f, []) := by
  unfold pickFrame
  rw [List.map_singleton, arbPick_lone]
  simp [firstIdx, dropIdx]

/-- A port with one CONTROL frame and nothing before it starts that frame. -/
theorem startNext_control {k : Port} {f : Frame} (hended : k.ended = none) (htime : k.qTime = none)
    (hq : k.qControl = [f]) (hcls : f.cls = .control) (now : Nat) : k.startNext now = { k with
      qControl := [], ptr := vmod k.ptr 1 (fun _ => (f.ingress + 1) % 3), sending := some f } := by
  have hstart : k.start = some (f, { k with qControl := [], ptr := vmod k.ptr 1 (fun _ => (f.ingress + 1) % 3) }) := by
    unfold Port.start
    simp only [hended, htime, hq, pickFrame_lone, Option.map_some]
    rfl
  unfold Port.startNext Port.stamp
  rw [hstart]
  simp [hcls]

section
variable {s : State} {p : Fin 3}

theorem egressDue_down (hst : (s.port p).state = .down) (hsending : (s.port p).sending = none) : s.egressDue p = s := by
  unfold State.egressDue
  simp only [hsending]
  exact if_pos hst

theorem egressDue_starts (hst : (s.port p).state ≠ .down) (hsending : (s.port p).sending = none) :
    s.egressDue p = s.modPort p (fun k => k.startNext s.tb) := by
  unfold State.egressDue
  simp only [hsending]
  exact if_neg hst

/-- A frame that has been sent whole flashes the LED of its port, and no push goes on. -/
theorem egressDue_sent {f : Frame} (hsending : (s.port p).sending = some f) (hq : (s.port p).qControl = [])
    (hpush : s.trk.push = none) : s.egressDue p = (s.modPort p (fun k =>
      { k with sending := none, txCnt := count 32 1 k.txCnt, flashAt := some s.real })).emit (.trunk p f.bytes) := by
  unfold State.egressDue State.feedPush
  simp only [hsending, hq]
  rw [if_neg (fun h => h.2 rfl)]
  simp only [State.emit, State.modPort, hpush]

end

/-! ### What the links leave -/

/-- A port that does not go DOWN keeps what is known of its neighbour and its count of frames. -/
theorem enter_keeps {new : PortState} (k : Port) (h : new ≠ .down) : (k.enter new).nbAddr = k.nbAddr
    ∧ (k.enter new).nbDepth = k.nbDepth ∧ (k.enter new).nbHeard = k.nbHeard ∧ (k.enter new).rxCnt = k.rxCnt
    ∧ (k.enter new).heard = k.heard := by
  cases new with
  | down => exact absurd rfl h
  | _ => exact ⟨rfl, rfl, rfl, rfl, rfl⟩

section
variable {s : State} {p : Fin 3}

theorem linkUp_probes (hst : (s.port p).state = .down) (hready : s.mod.ready = true) (htree : s.trk.tree = .detached) :
    Gives (.linkUp p) s (fun t => (t.port p).state = .probe ∧ (t.port p).link = true ∧ (t.port p).heard = s.real
      ∧ t.trk.events = s.trk.events ||| 1 ∧ vget t.pwr.want (6 + p.val) 0 = 4 ∧ t.trk.tree = .detached
      ∧ ∀ q, q ≠ p → t.port q = s.port q) := by
  refine run_gives_from (exec_linkUp p s) (fun _ _ _ _ h => h) ?_
  rintro u o rfl
  let v := u.modPort p (fun k => { k with link := true, heard := u.real })
  have hv : v.port p = { u.port p with link := true, heard := u.real } := port_modPort ..
  have hdown : (v.port p).state = .down := (congrArg Port.state hv).trans hst
  have hset : v.setPort p .probe = v.portEntered p .probe :=
    setPort_silent (by rw [hdown]; decide) (.inl (by rw [show v.trk.tree = .detached from htree]; decide))
  have hrun : (if (u.port p).state = .down ∧ u.mod.ready ∧ u.trk.tree ≠ .disabled then (v.setPort p .probe).announce p
      else u) = (v.portEntered p .probe).announce p := by
    rw [hset]
    exact if_pos ⟨hst, hready, by rw [show u.trk.tree = .detached from htree]; decide⟩
  have hkept := announce_offQueues (v.portEntered p .probe) p
  have hport := port_of_offQueues hkept p
  rw [portEntered_port, hv] at hport
  rw [hrun]
  refine ⟨(congrArg Port.state hport :), (congrArg Port.link hport :), (congrArg Port.heard hport :), ?_, ?_, ?_,
    fun q hq => ?_⟩
  · rw [events_of_offQueues hkept, portEntered_trk]
    rfl
  · rw [pwr_of_offQueues hkept]
    exact portEntered_asks v p .probe hdown
  · rw [tree_of_offQueues hkept, portEntered_trk]
    exact htree
  · rw [announce_port_ne _ hq, portEntered_port_ne _ _ _ hq]
    exact port_modPort_ne u _ hq

section
variable (hst : (s.port p).state ≠ .down)
include hst

theorem linkLost_apart (htree : s.trk.tree ≠ .attached) : Gives (.linkLost p true) s (fun t =>
    (t.port p).state = .down ∧ (t.port p).link = false ∧ (t.port p).nbDepth = 0xFF
    ∧ (t.port p).downs = min ((s.port p).downs + 1) 0xFFFF ∧ (t.port p).qControl = []
    ∧ vget t.pwr.want (6 + p.val) 0 = 0 ∧ vget t.pwr.rel (6 + p.val) 0 = vget s.pwr.held (6 + p.val) 0) := by
  refine run_gives_from (exec_linkLost_signal p s) (fun _ _ _ _ h => h) ?_
  rintro u o rfl
  have hup : ((u.linkOff p).port p).state ≠ .down := by
    rw [linkOff_state]
    exact hst
  obtain ⟨hwant, hrel⟩ := portEntered_frees (u.linkOff p) p hup
  have hport := portEntered_port (u.linkOff p) p .down
  rw [linkOff_port] at hport
  rw [portDown_apart (s := u.linkOff p) htree hup, hport]
  exact ⟨rfl, rfl, rfl, rfl, rfl, hwant, hrel⟩

theorem linkLost_other (hother : s.trk.upPort ≠ some p) : Gives (.linkLost p true) s (fun t =>
    (t.port p).state = .down ∧ (t.port p).link = false ∧ (t.port p).downs = min ((s.port p).downs + 1) 0xFFFF
    ∧ t.trk.tree = s.trk.tree ∧ vget t.pwr.want (6 + p.val) 0 = 0) := by
  refine run_gives_from (exec_linkLost_signal p s) (fun _ _ _ _ h => h) ?_
  rintro u o rfl
  have hup : ((u.linkOff p).port p).state ≠ .down := by
    rw [linkOff_state]
    exact hst
  obtain ⟨hwant, -⟩ := portEntered_frees (u.linkOff p) p hup
  have hkept := setPort_offQueues hup
  have hport := port_of_offQueues hkept p
  rw [portEntered_port, linkOff_port] at hport
  rw [portDown_other (s := u.linkOff p) hother]
  refine ⟨(congrArg Port.state hport :), (congrArg Port.link hport :), (congrArg Port.downs hport :), ?_, ?_⟩
  · rw [tree_of_offQueues hkept, portEntered_trk]
    rfl
  · rw [pwr_of_offQueues hkept]
    exact hwant

theorem linkLost_upstream (htree : s.trk.tree = .attached) (hupPort : s.trk.upPort = some p)
    (htime : s.tbm.qualified 2 = false) : Gives (.linkLost p true) s (fun t =>
      (t.port p).state = .down ∧ t.trk.tree = .detached ∧ t.trk.upPort = none ∧ t.trk.depth = 0xFF ∧ t.trk.crown = 0
      ∧ t.trk.detachedAt = s.real ∧ t.trk.canAttach = false ∧ t.trk.events = s.trk.events ||| 3) := by
  refine run_gives_from (exec_linkLost_signal p s) (fun _ _ _ _ h => h) ?_
  rintro u o rfl
  have hup : ((u.linkOff p).port p).state ≠ .down := by
    rw [linkOff_state]
    exact hst
  have hkept := portDown_upstream (s := u.linkOff p) htree hupPort hup htime
  have htrk := offPorts_of_offQueues hkept
  have hport := portEntered_port (u.linkOff p) p .down
  refine ⟨?_, (congrArg Trk.tree htrk :), (congrArg Trk.upPort htrk :), (congrArg Trk.depth htrk :),
    (congrArg Trk.crown htrk :), ?_, (congrArg Trk.canAttach htrk :), ?_⟩
  · rw [portState_of_offQueues hkept]
    exact (congrArg Port.state hport :)
  · exact (congrArg Trk.detachedAt htrk :).trans (portEntered_real ..)
  · rw [events_of_offQueues hkept, State.detached, State.trkEvent]
    dsimp only
    rw [portEntered_trk]
    exact BitVec.or_assoc ..

end

theorem linkLost_again (hst : (s.port p).state = .down) (hother : s.trk.upPort ≠ some p) :
    Does (.linkLost p true) s (fun s => s.linkOff p) := by
  refine run_does_from (exec_linkLost_signal p s) ?_
  rintro u o rfl
  exact (portDown_other (s := u.linkOff p) hother).trans (setPort_same _ p .down ((linkOff_state u p).trans hst))

/-- A classified or looped port is silent for 1 ms on a module that is not attached. -/
theorem linkLost_silent (hst : (s.port p).state.watched) (hlate : (s.port p).heard + 1024000 ≤ s.real)
    (htree : s.trk.tree ≠ .attached) : Gives (.linkLost p false) s (fun t => (t.port p).state = .down
      ∧ (t.port p).link = (s.port p).link ∧ (t.port p).downs = min ((s.port p).downs + 1) 0xFFFF) := by
  have hup : (s.port p).state ≠ .down := by
    obtain hst | hst | hst | hst := hst <;> simp [hst]
  refine run_gives_from (exec_linkLost_silent p s) (fun _ _ _ _ h => h) ?_
  rintro u o rfl
  have hdue : ((u.port p).silent 1 u.real) = true := decide_eq_true hlate
  rw [linkSilent_watched (s := u) hst, if_pos hdue, portDown_apart (s := u) htree hup, portEntered_port]
  exact ⟨rfl, rfl, rfl⟩

theorem probeTimeout_foreign (hst : (s.port p).state = .probe) (hlate : (s.port p).heard + 102400000 ≤ s.real) :
    Gives (.probeTimeout p) s (fun t => (t.port p).state = .foreign ∧ t.trk.events = s.trk.events ||| 1
      ∧ t.trk.tree = s.trk.tree) := by
  refine run_gives_from (exec_probeTimeout p s) (fun _ _ _ _ h => h) ?_
  rintro u o rfl
  have hdue : ((u.port p).silent 100 u.real) = true := decide_eq_true hlate
  have hprobe : (u.port p).state = .probe := hst
  have hkept := setPort_offQueues (s := u) (p := p) (new := .foreign) (by rw [hprobe]; decide)
  dsimp only
  rw [if_pos ⟨hprobe, hdue⟩]
  refine ⟨setPort_state u p .foreign, ?_, ?_⟩
  · rw [events_of_offQueues hkept, portEntered_trk]
    rfl
  · rw [tree_of_offQueues hkept, portEntered_trk]
    rfl

theorem announceTick_queues (hst : (s.port p).state ≠ .down) (hroom : (s.port p).qControl.length < 16) :
    Gives .announceTick s (fun t => (t.port p).qControl.length = (s.port p).qControl.length + 1
      ∧ (t.port p).state = (s.port p).state ∧ t.slices = s.slices) := by
  refine run_gives_from (exec_announceTick s) (fun _ _ _ _ h => h) ?_
  rintro u o rfl
  have hkept := announceAll_offQueues u
  refine ⟨?_, portState_of_offQueues hkept p, (slices_of_offQueues hkept :)⟩
  refine foldl_port (R := fun k => k.qControl.length = (u.port p).qControl.length + 1)
    (fun t q hq => announceUp_port_ne t (Ne.symm hq)) nodup_allPorts (mem_allPorts p) u fun t ht => ?_
  refine (announceUp_queues t p (by rw [ht]; exact hst) (by rw [ht]; exact hroom)).trans ?_
  rw [ht]

theorem announce_classifies {f : RxFrame} (hdir : f.dir = 3) (hmin : 12 ≤ f.payload.length)
    (hmax : f.payload.length ≤ 256) (htree : s.trk.tree = .detached) (hhold : s.trk.canAttach = false)
    (hupPort : s.trk.upPort = none) (hst : (s.port p).state = .probe ∨ (s.port p).state = .foreign) (haddr : s.addr = 0)
    (hserial : b32 f.payload 6 ≠ Config.serial.toNat % 4294967296) : Gives (.announce p f) s (fun t =>
      (t.port p).state = (if (u8 f.payload 4).testBit 0 then .child else .standby) ∧ (t.port p).nbAddr = f.src.toNat
      ∧ (t.port p).nbDepth = u8 f.payload 3 ∧ (t.port p).nbHeard = true
      ∧ (t.port p).rxCnt = min ((s.port p).rxCnt + 1) 0xFFFFFFFF ∧ (t.port p).heard = s.real
      ∧ t.trk.tree = .detached) := by
  have hup : (s.port p).state ≠ .down := by
    obtain hst | hst := hst <;> simp [hst]
  refine run_gives_from (exec_announce p f s) (fun _ _ _ _ h => h) ?_
  rintro u o rfl
  have hport := received_port u p
  have hclass : (((u.received p).port p).hear f).class ≠ .down := by
    unfold Port.class
    split <;> exact fun h => PortState.noConfusion h
  have hst' : ((u.received p).port p).state = .probe ∨ ((u.received p).port p).state = .foreign := by
    rw [received_state]
    exact hst
  have hact := hearAnnounce_classifies (s := u.received p) htree hhold hupPort hst' haddr hserial
  have hrx := receive_link (s := u) (p := p) (kind := 0x10) (cls := .control) (act := fun s => s.hearAnnounce p f) hmax
    (show (f.dir == 3 && decide (12 ≤ f.payload.length)) = true by simp [hdir, hmin]) hup hdir
  dsimp only at hrx ⊢
  rw [hrx, hact, portEntered_port, port_modPort]
  obtain ⟨haddr', hdepth, hheard, hcount, htime⟩ := enter_keeps (((u.received p).port p).hear f) hclass
  refine ⟨rfl, haddr', hdepth, hheard, hcount.trans (congrArg Port.rxCnt hport :),
    htime.trans (congrArg Port.heard hport :), ?_⟩
  rw [portEntered_trk]
  exact htree

theorem topology_counts {f : RxFrame} (hdir : f.dir = 0) (hdest : f.dest = 0) (hturn : f.turn = false)
    (hmin : 8 ≤ f.payload.length) (hmax : f.payload.length ≤ 256) (hst : (s.port p).state = .child)
    (htree : s.trk.tree = .crown) : Does (.topology p f) s (fun s =>
      let t := s.received p
      { t with trk := { t.trk with topoCnt := min (t.trk.topoCnt + 1) 0xFFFF, events := t.trk.events ||| 8 } }) := by
  refine run_does_from (exec_topology p f s) ?_
  rintro u o rfl
  refine (receive_crown (s := u) hmax (by simp [hdir, hdest, hmin]) hdir hst htree hdest hturn).trans ?_
  exact if_pos htree

end

section
variable {s : State}

/-- The end of the hold of a DETACHED node (R355). -/
theorem reparentHoldEnd_attaches (htree : s.trk.tree = .detached) (hhold : s.trk.canAttach = false)
    (hlate : s.trk.detachedAt + 1024000 * bf s.trk.cfg 8 4 ≤ s.real) : Gives .reparentHoldEnd s (fun t =>
      t.trk.canAttach = true ∧ t.trk.reparent = false
      ∧ (s.chooseUp = none → t.trk.tree = .detached ∧ t.trk.upPort = s.trk.upPort)
      ∧ ∀ q, s.chooseUp = some q → t.trk.tree = .attached ∧ t.trk.upPort = some q
        ∧ t.trk.depth = (s.port q).nbDepth + 1 ∧ t.trk.crown = (s.port q).nbCrown ∧ (t.port q).state = .upstream) := by
  refine run_gives_from (exec_reparentHoldEnd s) (fun _ _ _ _ h => h) ?_
  rintro u o rfl
  let v : State := { u with trk := { u.trk with canAttach := true } }
  have hdue : u.trk.tree = .detached ∧ (!u.trk.canAttach) = true
      ∧ u.trk.detachedAt + msTicks (bf u.trk.cfg 8 4) ≤ u.real :=
    ⟨htree, congrArg Bool.not hhold, by rw [msTicks, Nat.mul_comm]; exact hlate⟩
  dsimp only
  rw [if_pos hdue]
  change v.tryAttach.trk.canAttach = true ∧ _
  cases hup : v.chooseUp with
  | none =>
    have htrk := tryAttach_none (s := v) htree rfl hup
    refine ⟨(congrArg Trk.canAttach htrk :), rfl, fun _ => ⟨(congrArg Trk.tree htrk :).trans htree,
      (congrArg Trk.upPort htrk :)⟩, fun q hq => ?_⟩
    exact absurd (hup.symm.trans hq) (by simp)
  | some r =>
    obtain ⟨htrk, hstate⟩ := attach_leaves v r
    rw [← tryAttach_some (s := v) htree rfl hup] at htrk hstate
    refine ⟨(congrArg Trk.canAttach htrk :), rfl, fun hnone => absurd (hup.symm.trans hnone) (by simp), fun q hq => ?_⟩
    obtain rfl : r = q := Option.some.inj (hup.symm.trans hq)
    exact ⟨(congrArg Trk.tree htrk :), (congrArg Trk.upPort htrk :), (congrArg Trk.depth htrk :),
      (congrArg Trk.crown htrk :), hstate⟩

section
variable (hready : s.mod.ready = true) (hswap : s.mod.swapping = none)
include hready hswap

theorem reparent_crown (htree : s.trk.tree = .crown) : Does .reparent s id := by
  refine run_does_from (exec_reparent s) ?_
  rintro u o rfl
  rw [moduleWrite_taken u _ hready hswap, State.startReparent, show u.trk.tree = .crown from htree]
  rfl

theorem reparent_detached (htree : s.trk.tree = .detached) : Does .reparent s (fun s => { s with trk := { s.trk with
    reparent := true, canAttach := false, detachedAt := s.real } }) := by
  refine run_does_from (exec_reparent s) ?_
  rintro u o rfl
  rw [moduleWrite_taken u _ hready hswap, State.startReparent, show u.trk.tree = .detached from htree]

theorem reparent_attached (htree : s.trk.tree = .attached) (htime : s.tbm.qualified 2 = false) :
    Gives .reparent s (fun t => t.trk.tree = .detached ∧ t.trk.reparent = true ∧ t.trk.upPort = none
      ∧ t.trk.depth = 0xFF ∧ t.trk.detachedAt = s.real) := by
  refine run_gives_from (exec_reparent s) (fun _ _ _ _ h => h) ?_
  rintro u o rfl
  have htrk := detach_offPorts (s := u) htree htime
  rw [moduleWrite_taken u _ hready hswap, State.startReparent, show u.trk.tree = .attached from htree]
  exact ⟨(congrArg Trk.tree htrk :), rfl, (congrArg Trk.upPort htrk :), (congrArg Trk.depth htrk :),
    (congrArg Trk.detachedAt htrk :)⟩

variable {v : Word}

theorem trkCfgWrite_bad (h : s.trkCfgBad v) : Does (.trkCfgWrite v) s (fun s =>
    { s with trk := { s.trk with events := s.trk.events ||| 0x400 } }) := by
  refine run_does_from (exec_trkCfgWrite v s) ?_
  rintro u o rfl
  rw [moduleWrite_taken u _ hready hswap]
  exact writeTrkCfg_bad (s := u) h

theorem trkCfgWrite_same (h : ¬s.trkCfgBad v) (hrole : bf v 0 2 = bf s.trk.cfg 0 2) :
    Gives (.trkCfgWrite v) s (fun t =>
      t.trk.cfg = mkWord [(8, 4, bf v 8 4), (4, 2, bf v 4 2), (2, 1, bf v 2 1), (0, 2, bf v 0 2)]
      ∧ t.trk.tree = s.trk.tree ∧ t.trk.ports = s.trk.ports) := by
  refine run_gives_from (exec_trkCfgWrite v s) (fun _ _ _ _ h => h) ?_
  rintro u o rfl
  rw [moduleWrite_taken u _ hready hswap, writeTrkCfg_same (s := u) h hrole]
  exact ⟨rfl, rfl, rfl⟩

theorem trkCfgWrite_off (h : ¬s.trkCfgBad v) (hoff : bf v 0 2 = 2) (hrole : bf s.trk.cfg 0 2 ≠ 2) :
    Gives (.trkCfgWrite v) s (fun t =>
      t.trk.tree = .disabled ∧ t.trk.depth = 0xFF ∧ ∀ q, (t.port q).state = .down) := by
  refine run_gives_from (exec_trkCfgWrite v s) (fun _ _ _ _ h => h) ?_
  rintro u o rfl
  rw [moduleWrite_taken u _ hready hswap,
    writeTrkCfg_role (s := u) h (fun he => hrole (he.symm.trans hoff)), hoff]
  exact setRole_off _

end

end

/-- Settles O57, event by event: bad frames, links, announcements, the tree, its commands and the egress. That REPARENT on
a DETACHED node starts its hold again is the model's reading (log entry 51), as is the header by which a bad frame goes on
(log entry 89). -/
theorem trunkLinks : Obligations.TrunkLinks := by
  intro p s k put received bad
  refine ⟨fun hdown => ⟨?badDown, ?abortedDown, ?idle⟩,
    fun hup => ⟨?badBare, ?badPassed, ?badNowhere, ?badUp, ?aborted, ?abortedCopy⟩,
    linkUp_probes, fun hup => ⟨linkLost_apart hup, linkLost_other hup, linkLost_upstream hup⟩, linkLost_again,
    fun hwatched => ⟨?heard, linkLost_silent hwatched⟩, ?unwatched, probeTimeout_foreign, ?probing, ?allDown,
    announceTick_queues, fun f => announce_classifies, ?topology, reparentHoldEnd_attaches,
    fun hready hswap => ⟨reparent_crown hready hswap, reparent_detached hready hswap, reparent_attached hready hswap,
      fun v => ⟨trkCfgWrite_bad hready hswap, trkCfgWrite_same hready hswap, trkCfgWrite_off hready hswap⟩⟩,
    fun hup hended htime => ⟨?starts, ?sent⟩⟩
  case badDown =>
    intro b
    refine run_does_from (exec_frameCrcError p b s) ?_
    rintro u o rfl
    exact if_pos hdown
  case abortedDown =>
    intro copies
    refine run_does_from (exec_abortedStream p copies s) ?_
    rintro u o rfl
    exact if_pos hdown
  case idle =>
    intro hsending
    refine run_does_from (exec_trunkEgress p s) ?_
    rintro u o rfl
    exact egressDue_down (s := u) hdown hsending
  case badBare =>
    refine run_does_from (exec_frameCrcError p none s) ?_
    rintro u o rfl
    exact if_neg hup
  case badPassed =>
    intro b
    refine run_does_from (exec_frameCrcError p (some b) s) ?_
    rintro u o rfl
    exact if_neg hup
  case badNowhere =>
    intro b hb
    refine run_does_from (exec_frameCrcError p (some b) s) ?_
    rintro u o rfl
    exact (if_neg hup).trans (passBad_nowhere hb)
  case badUp =>
    intro b hdir hst htree hupPort
    refine run_does_from (exec_frameCrcError p (some b) s) ?_
    rintro u o rfl
    exact (if_neg hup).trans (passBad_noUp (s := put bad u) hdir hupPort)
  case aborted =>
    refine run_does_from (exec_abortedStream p [] s) ?_
    rintro u o rfl
    exact if_neg hup
  case abortedCopy =>
    intro q hq
    refine run_gives_from (exec_abortedStream p [q] s) (fun _ _ _ _ h => h) ?_
    rintro u o rfl
    dsimp only
    rw [if_neg (show (u.port p).state ≠ .down from hup), List.foldl_cons, List.foldl_nil]
    refine ⟨?_, ?_, fun r hp hr => ?_⟩
    · rw [port_modPort_ne _ _ (Ne.symm hq), port_modPort]
      rfl
    · rw [port_modPort, port_modPort_ne u _ hq]
      rfl
    · rw [port_modPort_ne _ _ hr, port_modPort_ne u _ hp]
      rfl
  case heard =>
    intro hearly
    refine run_does_from (exec_linkLost_silent p s) ?_
    rintro u o rfl
    have hheard : (u.port p).silent 1 u.real = false := decide_eq_false (Nat.not_le.mpr hearly)
    exact (linkSilent_watched (s := u) hwatched).trans (if_neg (ne_true_of_eq_false hheard))
  case unwatched =>
    intro hst
    refine run_does_from (exec_linkLost_silent p s) ?_
    rintro u o rfl
    exact linkSilent_other (s := u) hst
  case probing =>
    intro hst
    refine run_does_from (exec_probeTimeout p s) ?_
    rintro u o rfl
    refine if_neg ?_
    rintro ⟨hprobe, hsilent⟩
    have hlate : (u.port p).heard + 102400000 ≤ u.real := of_decide_eq_true hsilent
    obtain hst | hearly := hst
    · exact hst hprobe
    · exact absurd hlate (Nat.not_le.mpr hearly)
  case allDown =>
    intro hdown
    refine run_does_from (exec_announceTick s) ?_
    rintro u o rfl
    exact announceAll_down (s := u) hdown
  case topology =>
    intro f hdir hdest hturn hmin hmax hst htree
    exact topology_counts hdir hdest hturn hmin hmax hst htree
  case starts =>
    intro f hsending hq hcls
    refine run_gives_from (exec_trunkEgress p s) (fun _ _ _ _ h => h) ?_
    rintro u o rfl
    have hstart : (u.port p).startNext u.tb = _ := startNext_control hended htime hq hcls u.tb
    rw [egressDue_starts (s := u) hup hsending, port_modPort, hstart]
    exact ⟨rfl, rfl, rfl, vget_vmod_same _ _ 0 (by decide)⟩
  case sent =>
    intro f hsending hq hpush
    refine run_gives_sent (exec_trunkEgress p s) ?_ ?_
    · rintro t o q l ⟨hsent, hcount, hflash, hout, hslices⟩
      exact ⟨hsent, hcount, hflash, List.mem_append_left o hout, hslices⟩
    · rintro u o rfl
      have hport := port_modPort u p (fun k =>
        { k with sending := none, txCnt := count 32 1 k.txCnt, flashAt := some u.real })
      rw [egressDue_sent (s := u) hsending hq hpush]
      exact ⟨(congrArg Port.sending hport :), (congrArg Port.txCnt hport :), (congrArg Port.flashAt hport :),
        List.mem_append_right _ List.mem_cons_self, rfl⟩

end Sys2Proof.Machine
end
